-- ==== Sys2Proof/Word.lean ====
section
/-! DEFINITION. The word types of the machine (R26, R65) and the one fact about them that everything shares. -/

namespace Sys2Proof

/-- A slot word, a header or a prefix word (R62). -/
abbrev Word := BitVec 32

/-- A byte of memory. -/
abbrev Byte := BitVec 8

/-- A scalar register (R116), an address or a control-register word. -/
abbrev DWord := BitVec 64

/-- A vector register (R94). -/
abbrev Vec := BitVec 1024

end Sys2Proof
end

