-- ==== Sys2Proof/Config.lean ====
section
/-! DEFINITION. What an implementation fixes, and the free values: constants with no body, so that nothing can be
proved of what they are. Log 5 (unpredictable values), 10 (the world outside the device), 14 (signatures). -/

namespace Sys2Proof.Config

/-- An unpredictable value (R10): of the counter of free values and the place that reads it.
DESIGN CHOICE (log 5). -/
opaque unpredictable (tick : Nat) (site : Nat) : Vec

/-- Unpredictable bits of an accumulator element that an array operation is still writing (R219).
DESIGN CHOICE (log 5). -/
opaque unpredictableElement (tick : Nat) (site : Nat) : DWord

/-- The digest of a declared region that a store races with (R352). DESIGN CHOICE (log 5). DEDUCED (log 39). -/
opaque unpredictableDigest (tick : Nat) : BitVec 128

/-- The 64-bit commit signature of a twin pair (R348), a function of what it covers; the spec does not give the function.
DESIGN CHOICE (log 69). -/
opaque commitSignature (covered : List Nat) : BitVec 64

/-- How many cycles it takes to fill an in-flight queue (R299), a product figure. DESIGN CHOICE (log 59). -/
opaque ifqFill (tick : Nat) : Nat

/-- Whether an RMW cut off by a failing port took effect at its home (R337). DESIGN CHOICE (log 10). -/
opaque cutRmwPerformed (tick : Nat) : Bool

/-- Whether a peer's monitor lets this device reach a physical address of the peer (R268).
DESIGN CHOICE (log 10). -/
opaque peerGrants (dev pa : Nat) : Bool

/-- Whether a PCI Express request to host memory completes successfully (R268). DESIGN CHOICE (log 10). -/
opaque hostGrants (link pa : Nat) : Bool

/-- Whether the plumb slot tables of a graph fit their 64-cycle frames (R339); the function is a product statement.
DESIGN CHOICE (log 10). DEDUCED (log 34). -/
opaque plumbFits (graph : List Byte) : Bool

/-- Where an image carries its signed body, its LMS public key, its signature and its version (R356, R359); the spec gives
no layout. DESIGN CHOICE (log 14). -/
opaque imageBody (image : List Byte) : List Byte
/-- DESIGN CHOICE (log 14). -/
opaque imageKey (image : List Byte) : List Byte
/-- DESIGN CHOICE (log 14). -/
opaque imageSignature (image : List Byte) : List Byte
/-- DESIGN CHOICE (log 14). -/
opaque imageVersion (image : List Byte) : Nat

/-- The SHA-256 digest of the public key, fused at manufacture (R359). DESIGN CHOICE (log 14). -/
opaque fusedDigest : List Byte

/-- The trusted monitor's image as booted (R356, R360). DESIGN CHOICE (log 14). -/
opaque monitorImage : List Byte
/-- The service firmware's image as booted (R356, R360). DESIGN CHOICE (log 14). -/
opaque firmwareImage : List Byte

/-- The key of attestation that the monitor derives from a fused device secret (R359): the identifier of an LMS tree of a level, and
for each of its leaves the start of each chain and the randomizer. The spec gives no derivation. DESIGN CHOICE (log 14). -/
opaque attestId (level tree : Nat) : List Byte
/-- DESIGN CHOICE (log 14). -/
opaque attestSecret (level tree leaf chain : Nat) : List Byte
/-- DESIGN CHOICE (log 14). -/
opaque attestRandom (level tree leaf : Nat) : List Byte

/-- The number of leaves of the attestation key: HSS with two levels of height 15 (R359). DESIGN CHOICE (log 14). -/
def attestLeaves : Nat := 2 ^ 30

/-- Whether the part is the mezzanine module BG5-M, or else the bare package BG5-P (Table 0.1). DESIGN CHOICE (log 7). -/
opaque isModule : Bool

/-- The form code of the part (Table 0.1, R346, R360). -/
def formCode : BitVec 16 := if isModule then 0x0002 else 0x0001

/-- Drawick's Vendor ID (R342), which the spec does not give. DESIGN CHOICE (log 10). -/
opaque vendorId : BitVec 16

/-- Whether the trusted monitor allows an operating point (R354); it allows the nominal one. DESIGN CHOICE (log 10). -/
opaque allowsOther (mhz mv : Nat) : Bool
/-- The silicon stepping (R346, R360). DESIGN CHOICE (log 7). -/
opaque stepping : BitVec 8
/-- The rollback version (R360). DESIGN CHOICE (log 7). -/
opaque rollback : BitVec 32

end Sys2Proof.Config
end

