-- ==== Sys2Proof/Machine/SMap.lean ====
section
/-! DEFINITION. The one shape of sparse data of the machine: a list of keys and values, keys strictly rising. What
an unlisted key reads as is an argument; `setD` lists no entry equal to it, so that equal contents are equal lists. -/

namespace Sys2Proof.Machine

/-- Keys and values, keys strictly rising. -/
abbrev SMap (α : Type) := List (Nat × α)

/-- The value at a key; `d` where the key is not listed. -/
def SMap.get {α : Type} (d : α) : SMap α → Nat → α
  | [], _ => d
  | (j, v) :: m, k => if k = j then v else SMap.get d m k

/-- The listed value at a key. -/
def SMap.find {α : Type} : SMap α → Nat → Option α
  | [], _ => none
  | (j, v) :: m, k => if k = j then some v else SMap.find m k

/-- Take a key out. -/
def SMap.erase {α : Type} : SMap α → Nat → SMap α
  | [], _ => []
  | (j, v) :: m, k => if k = j then SMap.erase m k else (j, v) :: SMap.erase m k

/-- Put a value at a key, in its place. -/
def SMap.put {α : Type} : SMap α → Nat → α → SMap α
  | [], k, v => [(k, v)]
  | (j, u) :: m, k, v => if k < j then (k, v) :: (j, u) :: m else if k = j then (k, v) :: m else (j, u) :: SMap.put m k v

/-- Put a value at a key; a value that an unlisted key reads as takes the key out. -/
def SMap.setD {α : Type} [DecidableEq α] (d : α) (m : SMap α) (k : Nat) (v : α) : SMap α :=
  if v = d then m.erase k else m.put k v

/-- Whether a key is above a bound. -/
def SMap.above : Option Nat → Nat → Bool
  | none, _ => true
  | some b, k => decide (b < k)

/-- Every key is above `b` and keys rise; no value is `d`. -/
def SMap.wfFrom {α : Type} [DecidableEq α] (d : α) : Option Nat → SMap α → Bool
  | _, [] => true
  | b, (k, v) :: m => SMap.above b k && decide (v ≠ d) && SMap.wfFrom d (some k) m

/-- The canonical form. -/
def SMap.wf {α : Type} [DecidableEq α] (d : α) (m : SMap α) : Bool := SMap.wfFrom d none m

end Sys2Proof.Machine
end

