-- ==== Sys2Proof/Syntax.lean ====
section
/-! DEFINITION. The syntax: one constructor of `Instr` for every row of spec/opcode_table.json. A row with an
encoding carries the fields its format gives it (Tables 3.2 to 3.9); a row without one is an event of the device
and carries what names the event. -/

namespace Sys2Proof

/-- The common slot-word prefix (Table 3.2) but for OPC: HOLD, GINV, GUARD. -/
structure Pfx where
  h : Bool
  n : Bool
  g : BitVec 4
  deriving DecidableEq, Repr

/-- The prefix of a B-slot word, whose HOLD must be 0 (R65). -/
structure Grd where
  n : Bool
  g : BitVec 4
  deriving DecidableEq, Repr

/-- A context: its core (R13) and which of the core's two contexts it is (false: ctx0). -/
structure CtxId where
  core : Nat
  one : Bool
  deriving DecidableEq, Repr

/-- What a slab read finds (R258): nothing, a corrected error in a granule, or an uncorrectable one. The granule is
named by its index in the memory (byte key / 64). -/
inductive ReadError where
  | none
  | corrected (granule : Nat)
  | uncorrectable (granule : Nat)
  deriving DecidableEq, Repr

/-- What an MMA.K4 word says of its profile (Table 3.9, format MA): NP, Z, SAT, FTZI and FTZO. -/
structure MulMode where
  np : BitVec 4
  z : Bool
  sat : Bool
  ftzi : Bool
  ftzo : Bool
  deriving DecidableEq, Repr

/-- The kinds of access that R268 checks rights for. -/
inductive AccessKind where
  | read
  | write
  | amo
  | red
  | fetch
  deriving DecidableEq, Repr

inductive Instr where
  /-- BUNDLE_ISSUE (R19): The merge stage issues a ready bundle of a context, alone or paired with the other
  context's bundle, and all its slots issue in that cycle. -/
  | bundleIssue (core : Nat)
  /-- LOOK_AHEAD_NULLIFIER (R86): At fetch, a bundle whose slots are all guarded off by predicates written at
  least two bundles earlier is dropped at no cost, and its IB bit is honoured. -/
  | lookAheadNullifier (c : CtxId)
  /-- RESULT_LANDING (R84): A result with an exposed bound lands in its register in issue order, and its flags are
  ORed into FPSW. -/
  | resultLanding (c : CtxId) (k : Nat)
  /-- LOOP_BACK_EDGE (R127): After the last body bundle issues, the loop buffer advances the loop indices and
  strides, or ends the loop when every count is exhausted. -/
  | loopBackEdge (c : CtxId)
  /-- LANDING_DUE (R173): At its due cycle a landing register becomes landed; if its data has not arrived, the
  core's clock domain freezes and an SQ record of kind 0x02 is written. -/
  | landingDue (c : CtxId) (l : BitVec 3)
  /-- LANDING_ARRIVAL (R173): The data of a remote load arrives in the landing buffer, and ends any freeze that
  waits on it. -/
  | landingArrival (c : CtxId) (l : BitVec 3)
  /-- MEMORY_ACCESS_PERFORM (R237): A read or write performs at the location's home and takes its place in
  coherence order. -/
  | memoryAccessPerform (c : CtxId) (k : Nat) (err : ReadError)
  /-- ATOMIC_AT_HOME (R178): An AMO or RED executes at its location's home, in that location's single total order. -/
  | atomicAtHome (c : CtxId) (k : Nat)
  /-- AMO_RESPONSE (R176): An AMO's old value lands in its register, and FP flags are ORed into FPSW.AMO. -/
  | amoResponse (c : CtxId) (k : Nat)
  /-- POSTED_ACKNOWLEDGE (R129): The target of a posted store, RED, FPUSH, FPUSHQ or STQ acknowledges it to the
  issuing context. -/
  | postedAcknowledge (c : CtxId) (k : Nat)
  /-- COPY_COMPLETION (R180): A copy command completes once every unit has been written, which frees its id and
  ends its region interlock. -/
  | copyCompletion (c : CtxId) (i : BitVec 4)
  /-- COPY_TRANSLATION_STOP (R183): A translation failure stops a copy with an element-granular progress record
  and marks its id faulted. -/
  | copyTranslationStop (c : CtxId) (i : BitVec 4)
  /-- POSTED_OPERATION_FAILURE (R183): A posted operation whose translation or atomic target fails is recorded
  against its class, for the next WAIT post or NDONE. -/
  | postedOperationFailure (c : CtxId) (k : Nat)
  /-- TABLE_WALK (R268): The walker translates a device virtual address through the table levels, or records a
  fault cause. -/
  | tableWalk (space : Nat) (va : BitVec 64) (acc : AccessKind)
  /-- ARRAY_OPERATION_COMPLETION (R218): An array operation completes, writing its tiles and ORing its flags into
  FPSW and KSW. -/
  | arrayOperationCompletion (core : Nat) (err : ReadError)
  /-- DRAIN_ENTRY_WRITE (R235): A DRAIN writes its next result-queue entry, which can be popped from then on. -/
  | drainEntryWrite (core : Nat)
  /-- RING_SLOT_FILL (R185): Quarry fills a FREE ring slot with the next tile and writes FULL as a release at .die
  scope. -/
  | ringSlotFill (c : CtxId) (i : BitVec 4) (m : Nat)
  /-- RING_PULL_BACK (R185): Quarry copies a DONE slot to its output, then writes FREE, or END when no tile
  remains for that slot. -/
  | ringPullBack (c : CtxId) (i : BitVec 4) (m : Nat)
  /-- RING_STOP (R264): A ring stops on a fill or pull-back fault, writes 0xFF to the faulting slot's state byte
  and faults its copy id. -/
  | ringStop (c : CtxId) (i : BitVec 4) (m : Nat)
  /-- LATE_FAULT_DETECTION (R299): A late cause is detected against an issued bundle; issue stops for both
  contexts of the core, and the earliest fault is chosen. -/
  | lateFaultDetection (c : CtxId)
  /-- TRAP_ENTRY (R301): Once the IFQ is filled, the device saves the trap state, writes the trap record, sets x15
  and jumps to the innermost handler. -/
  | trapEntry (c : CtxId)
  /-- GRAPH_LAUNCH (R275): Keystone reads and checks a graph record and its node records, then rejects the graph
  or arms its nodes and sets it RUNNING. -/
  | graphLaunch (k : Nat)
  /-- BEAD_ARRIVAL (R278): Keystone applies a bead to a node's arrival slot and updates ARRIVE and PENDING; a node
  whose count reaches zero becomes READY. -/
  | beadArrival (k : Nat)
  /-- DISPATCH (R280): Keystone dispatches a ready-queue node and pushes one slice entry into the deque of each
  core of its placement. -/
  | dispatch (course : Nat)
  /-- SLICE_START (R15): A free context starts the deque entry at HEAD, entering its prologue with the fixed entry
  state, or restoring an image when RES is 1. -/
  | sliceStart (core : Nat)
  /-- WORK_STEALING (R284): An idle core steals the newest unpinned entry from an eligible victim's deque. -/
  | workStealing (core : Nat)
  /-- NODE_COMPLETION (R285): When the last slice retires NDONE, Keystone writes DONE, posts the successor beads,
  counts DONECNT and completes the graph when no node is undecided. -/
  | nodeCompletion (graph node : Nat)
  /-- CANCELLATION_C1 (R289): Keystone kills the faulted node's other slices, marks it FAULTED and its cone
  CANCELLED, and clears the cone's arrival bits. -/
  | cancellationC1 (k : Nat)
  /-- CANCELLATION_C2 (R289): Once every killed slice has stopped, Keystone retries the faulted node and rearms
  its cone, or voids them all. -/
  | cancellationC2 (k : Nat)
  /-- PREEMPTION_DECISION (R292): Keystone chooses drain, checkpoint, kill or no action for a newcomer node and a
  victim node. -/
  | preemptionDecision (core : Nat)
  /-- IMAGE_SAVE (R309): After everything in flight has completed, the context image is written to the checkpoint
  pool, or the save is abandoned or fails with SAVE. -/
  | imageSave (c : CtxId)
  /-- KILL (R308): A requested kill takes effect at a bundle boundary after an IB bundle: issue stops, state is
  discarded, issued operations complete and the context frees. -/
  | killSlice (c : CtxId)
  /-- KILL_DEADLINE (R307): With no IB boundary within 512 cycles of the request, the kill takes effect at the
  next bundle boundary. -/
  | killDeadline (c : CtxId)
  /-- PREEMPT_KILL_REQUEUE (R293): Once every slice of a killed node has stopped, the node becomes READY again,
  re-enters its ready queue and recaptures NKEY. -/
  | preemptKillRequeue (graph node : Nat)
  /-- COURSE_GATING (R355): A course that has been idle for 20 µs is power-gated. -/
  | courseGating (course : Nat)
  /-- WAKE_COMPLETE (R294): A course's wake completes after 2.5 µs, and the slices placed on it start. -/
  | wakeComplete (course : Nat)
  /-- OPERATING_POINT_CHANGE (R354): The service firmware changes a course's voltage and frequency within the
  range the monitor allows. -/
  | operatingPointChange (course mhz mv : Nat)
  /-- POWER_EMERGENCY (R355): Power or temperature above its limit makes the service firmware lower operating
  points. -/
  | powerEmergency (course mhz mv : Nat)
  /-- PAIR_MISMATCH (R350): A twin pair's commit signatures differ, so both cores stop and the even core's slice
  faults with PAIR. -/
  | pairMismatch (core : Nat) (pc : BitVec 64)
  /-- RAIL_BEAT_RECEIVE (R336): A receiver takes one beat of a rail set and delivers it, rebuilds one erased
  piece, or discards it for replay. -/
  | railBeatReceive (link : Nat) (erased : BitVec 5)
  /-- WRC_SEED (R124): A WRC to SEED changes the key that nodes capture in later cycles, in a total order across
  contexts. -/
  | wrcSeed (c : CtxId)
  /-- WRC_FPCTL (R96): A WRC to FPCTL takes effect from the next bundle, or traps when RM is 5 to 7. -/
  | wrcFpctl (c : CtxId)
  /-- WRC_KSW (R217): A WRC to KSWn waits for the operations that write kN, then writes it, trapping on AF = 3. -/
  | wrcKsw (c : CtxId) (n : BitVec 3)
  /-- NOP (R46): The empty bundle takes one issue cycle and executes the held slots. -/
  | nop (ib : Bool)
  /-- REP (R72): The repeat prefix executes the bundle COUNT times, one issue cycle each, advancing the selected
  register fields. -/
  | rep (adv stride : BitVec 4) (count : BitVec 16)
  /-- BR (R125): Branches to the header plus 4 × OFF when the guard is true. -/
  | br (u : Grd) (o : BitVec 20)
  /-- JMP (R125): Jumps to the address in sa. -/
  | jmp (u : Grd) (s : BitVec 6)
  /-- CALL (R125): Branches to an offset target and writes the return address to s63. -/
  | call (u : Grd) (o : BitVec 20)
  /-- RET (R125): Jumps to the address in s63. -/
  | ret (u : Grd)
  /-- LOOP (R126): Sets up a zero-overhead loop nest over the following len bundles. -/
  | loop (u : Grd) (l : BitVec 5) (d : BitVec 3) (s : BitVec 6)
  /-- WAIT (R129): Holds its bundle until the named copies, accumulator tiles or posted classes have completed. -/
  | wait (u : Grd) (k : BitVec 2) (m : BitVec 16)
  /-- BAR (R130): Arrives at a course barrier and waits until it completes. -/
  | bar (u : Grd) (b : BitVec 4) (m : BitVec 8)
  /-- FENCE (R131): Orders the context's memory operations of the named classes at a scope. -/
  | fence (u : Grd) (s : BitVec 3) (m : BitVec 16)
  /-- TRAP (R132): Raises the software trap after its bundle, with a 16-bit code. -/
  | trap (u : Grd) (c : BitVec 16)
  /-- ERET (R303): Returns from a trap, re-issuing withheld array operations and re-injecting the IFQ. -/
  | eret (u : Grd)
  /-- SETPRI (R133): Sets the context's own priority class. -/
  | setpri (u : Grd) (c : BitVec 2)
  /-- CTN_OPEN (R134): Opens a containment region with a handler address. -/
  | ctnOpen (u : Grd) (o : BitVec 20)
  /-- CTN_CLOSE (R134): Closes the innermost containment region. -/
  | ctnClose (u : Grd)
  /-- GLAUNCH (R135): Hands a graph record to Keystone as a release at .pkg scope. -/
  | glaunch (u : Grd) (s : BitVec 6)
  /-- BEAD (R136): Posts a bead to an arrival slot of a node record. -/
  | bead (u : Grd) (s t : BitVec 6)
  /-- NDONE (R138): Waits for everything in flight, then ends the slice as a release at .pkg scope. -/
  | ndone (u : Grd)
  /-- YIELD (R137): Ends a phase of the slice; the sequencer starts the next kernel pass or the epilogue. -/
  | yield (u : Grd)
  /-- HALT (R139): Stops the slice without NDONE and faults the node with cause HALT. -/
  | halt (u : Grd)
  /-- SQRD (R140): Removes the oldest SQ record into a register pair. -/
  | sqrd (u : Grd) (s : BitVec 6)
  /-- ADD (R117): sd := a + b. -/
  | add (u : Pfx) (d a b : BitVec 6)
  /-- SUB (R117): sd := a − b. -/
  | sub (u : Pfx) (d a b : BitVec 6)
  /-- MUL (R117): Low 64 bits of the product. -/
  | mul (u : Pfx) (d a b : BitVec 6)
  /-- MULH (R117): High 64 bits of the signed product. -/
  | mulh (u : Pfx) (d a b : BitVec 6)
  /-- MULHU (R117): High 64 bits of the unsigned product. -/
  | mulhu (u : Pfx) (d a b : BitVec 6)
  /-- DIV (R118): Signed division truncated toward zero, with fixed results for the special cases. -/
  | div (u : Pfx) (d a b : BitVec 6)
  /-- DIVU (R118): Unsigned division. -/
  | divu (u : Pfx) (d a b : BitVec 6)
  /-- REM (R118): Signed remainder. -/
  | rem (u : Pfx) (d a b : BitVec 6)
  /-- REMU (R118): Unsigned remainder. -/
  | remu (u : Pfx) (d a b : BitVec 6)
  /-- AND (R117): Bitwise AND. -/
  | and (u : Pfx) (d a b : BitVec 6)
  /-- OR (R117): Bitwise OR. -/
  | or (u : Pfx) (d a b : BitVec 6)
  /-- XOR (R117): Bitwise XOR. -/
  | xor (u : Pfx) (d a b : BitVec 6)
  /-- SHL (R117): Logical shift left by b[5:0]. -/
  | shl (u : Pfx) (d a b : BitVec 6)
  /-- SHR (R117): Logical shift right by b[5:0]. -/
  | shr (u : Pfx) (d a b : BitVec 6)
  /-- ASHR (R117): Arithmetic shift right by b[5:0]. -/
  | ashr (u : Pfx) (d a b : BitVec 6)
  /-- SEL (R120): sd := sa if pc[0] is 1, else sd is left unchanged. -/
  | sel (u : Pfx) (d a : BitVec 6) (p : BitVec 4)
  /-- MIN (R117): Signed minimum. -/
  | min (u : Pfx) (d a b : BitVec 6)
  /-- MAX (R117): Signed maximum. -/
  | max (u : Pfx) (d a b : BitVec 6)
  /-- MINU (R117): Unsigned minimum. -/
  | minu (u : Pfx) (d a b : BitVec 6)
  /-- MAXU (R117): Unsigned maximum. -/
  | maxu (u : Pfx) (d a b : BitVec 6)
  /-- CLZ (R117): Count of leading zero bits. -/
  | clz (u : Pfx) (d a : BitVec 6)
  /-- CTZ (R117): Count of trailing zero bits. -/
  | ctz (u : Pfx) (d a : BitVec 6)
  /-- POPC (R117): Number of 1 bits. -/
  | popc (u : Pfx) (d a : BitVec 6)
  /-- ADDI (R117): Adds a sign-extended 8-bit immediate. -/
  | addi (u : Pfx) (d a : BitVec 6) (i : BitVec 8)
  /-- ANDI (R117): AND with a zero-extended immediate. -/
  | andi (u : Pfx) (d a : BitVec 6) (i : BitVec 8)
  /-- ORI (R117): OR with a zero-extended immediate. -/
  | ori (u : Pfx) (d a : BitVec 6) (i : BitVec 8)
  /-- XORI (R117): XOR with a zero-extended immediate. -/
  | xori (u : Pfx) (d a : BitVec 6) (i : BitVec 8)
  /-- SHLI (R117): Logical shift left by an immediate. -/
  | shli (u : Pfx) (d a i : BitVec 6)
  /-- SHRI (R117): Logical shift right by an immediate. -/
  | shri (u : Pfx) (d a i : BitVec 6)
  /-- ASHRI (R117): Arithmetic shift right by an immediate. -/
  | ashri (u : Pfx) (d a i : BitVec 6)
  /-- MOVI (R117): sd := sign-extended 14-bit immediate. -/
  | movi (u : Pfx) (d : BitVec 6) (i : BitVec 14)
  /-- MOVS (R117): sd := (sd << 14) | immediate. -/
  | movs (u : Pfx) (d : BitVec 6) (i : BitVec 14)
  /-- RDC (R123): Reads one 64-bit word of a control register. -/
  | rdc (u : Pfx) (s : BitVec 6) (c : BitVec 8) (w : BitVec 6)
  /-- WRC (R123): Writes one 64-bit word of a control register, effective from the next bundle. -/
  | wrc (u : Pfx) (s : BitVec 6) (c : BitVec 8) (w : BitVec 6)
  /-- FCMPLE (R122): FP compare: true when ordered and a ≤ b. -/
  | fcmple (u : Pfx) (p : BitVec 4) (a b : BitVec 6) (f w : Bool)
  /-- FCMPUN (R122): FP compare: true when unordered. -/
  | fcmpun (u : Pfx) (p : BitVec 4) (a b : BitVec 6) (f w : Bool)
  /-- CMPEQ (R119): Integer equality into a predicate. -/
  | cmpeq (u : Pfx) (p : BitVec 4) (a b : BitVec 6)
  /-- CMPNE (R119): Integer inequality into a predicate. -/
  | cmpne (u : Pfx) (p : BitVec 4) (a b : BitVec 6)
  /-- CMPLT (R119): Signed less-than into a predicate. -/
  | cmplt (u : Pfx) (p : BitVec 4) (a b : BitVec 6)
  /-- CMPLTU (R119): Unsigned less-than into a predicate. -/
  | cmpltu (u : Pfx) (p : BitVec 4) (a b : BitVec 6)
  /-- CMPLE (R119): Signed less-or-equal into a predicate. -/
  | cmple (u : Pfx) (p : BitVec 4) (a b : BitVec 6)
  /-- CMPLEU (R119): Unsigned less-or-equal into a predicate. -/
  | cmpleu (u : Pfx) (p : BitVec 4) (a b : BitVec 6)
  /-- FCMPEQ (R122): FP compare: true when ordered and equal. -/
  | fcmpeq (u : Pfx) (p : BitVec 4) (a b : BitVec 6) (f w : Bool)
  /-- FCMPLT (R122): FP compare: true when ordered and a < b. -/
  | fcmplt (u : Pfx) (p : BitVec 4) (a b : BitVec 6) (f w : Bool)
  /-- FADD_F32 (R121): Scalar FP32 add. -/
  | faddF32 (u : Pfx) (d a b : BitVec 6) (f o : Bool)
  /-- FSUB_F32 (R121): Scalar FP32 subtract. -/
  | fsubF32 (u : Pfx) (d a b : BitVec 6) (f o : Bool)
  /-- FMUL_F32 (R121): Scalar FP32 multiply. -/
  | fmulF32 (u : Pfx) (d a b : BitVec 6) (f o : Bool)
  /-- FFMA_F32 (R121): Scalar FP32 fused multiply-add into sd. -/
  | ffmaF32 (u : Pfx) (d a b : BitVec 6) (f o : Bool)
  /-- FDIV_F32 (R121): Scalar FP32 divide. -/
  | fdivF32 (u : Pfx) (d a b : BitVec 6) (f o : Bool)
  /-- FSQRT_F32 (R121): Scalar FP32 square root. -/
  | fsqrtF32 (u : Pfx) (d a : BitVec 6) (f o : Bool)
  /-- FADD_F64 (R121): Scalar FP64 add. -/
  | faddF64 (u : Pfx) (d a b : BitVec 6) (f o : Bool)
  /-- FSUB_F64 (R121): Scalar FP64 subtract. -/
  | fsubF64 (u : Pfx) (d a b : BitVec 6) (f o : Bool)
  /-- FMUL_F64 (R121): Scalar FP64 multiply. -/
  | fmulF64 (u : Pfx) (d a b : BitVec 6) (f o : Bool)
  /-- FFMA_F64 (R121): Scalar FP64 fused multiply-add into sd. -/
  | ffmaF64 (u : Pfx) (d a b : BitVec 6) (f o : Bool)
  /-- FDIV_F64 (R121): Scalar FP64 divide. -/
  | fdivF64 (u : Pfx) (d a b : BitVec 6) (f o : Bool)
  /-- FSQRT_F64 (R121): Scalar FP64 square root. -/
  | fsqrtF64 (u : Pfx) (d a : BitVec 6) (f o : Bool)
  /-- XADD (R190): Index add modulo 2^32. -/
  | xadd (u : Pfx) (x a b : BitVec 4)
  /-- XADDI (R190): Index add of a sign-extended immediate. -/
  | xaddi (u : Pfx) (x a : BitVec 4) (i : BitVec 8)
  /-- XSUB (R190): Index subtract. -/
  | xsub (u : Pfx) (x a b : BitVec 4)
  /-- XSHLI (R190): Index logical shift left by an immediate. -/
  | xshli (u : Pfx) (x a : BitVec 4) (i : BitVec 5)
  /-- XSHRI (R190): Index logical shift right by an immediate. -/
  | xshri (u : Pfx) (x a : BitVec 4) (i : BitVec 5)
  /-- XAND (R190): Index bitwise AND. -/
  | xand (u : Pfx) (x a b : BitVec 4)
  /-- XPOPC (R190): Number of 1 bits in xa. -/
  | xpopc (u : Pfx) (x a : BitVec 4)
  /-- XCMPADV (R191): One compare-and-advance step of a sorted-list merge. -/
  | xcmpadv (u : Pfx) (x a b c : BitVec 4) (f : BitVec 2)
  /-- XPATD (R192): Decodes a structured-sparsity pattern number. -/
  | xpatd (u : Pfx) (x a : BitVec 4) (k : BitVec 2)
  /-- XBNET (R193): Routes 64 bits through a routing pattern into a register pair. -/
  | xbnet (u : Pfx) (x a b : BitVec 4) (e : BitVec 3)
  /-- XBNLD (R193): Loads a routing pattern from a vector register. -/
  | xbnld (u : Pfx) (e : BitVec 3) (v : BitVec 5)
  /-- XBPERM (R194): Builds a word from selected, sign-filled or zeroed bytes of xb:xa. -/
  | xbperm (u : Pfx) (x a b c f : BitVec 4)
  /-- XFROMS (R190): x := s[31:0]. -/
  | xfroms (u : Pfx) (x : BitVec 4) (s : BitVec 6)
  /-- XTOS (R190): s := zero-extended x. -/
  | xtos (u : Pfx) (x : BitVec 4) (s : BitVec 6)
  /-- XMOV (R190): Index move. -/
  | xmov (u : Pfx) (x a : BitVec 4)
  /-- XMOVI (R190): Index move of a sign-extended 16-bit immediate. -/
  | xmovi (u : Pfx) (x : BitVec 4) (i : BitVec 16)
  /-- VADD (R144): Vector add, FP or integer. -/
  | vadd (u : Pfx) (t : BitVec 3) (d a b : BitVec 5) (f o : Bool)
  /-- VSUB (R144): Vector subtract. -/
  | vsub (u : Pfx) (t : BitVec 3) (d a b : BitVec 5) (f o : Bool)
  /-- VMUL (R144): Vector multiply. -/
  | vmul (u : Pfx) (t : BitVec 3) (d a b : BitVec 5) (f o : Bool)
  /-- VFMA (R144): Vector fused multiply-add into vd. -/
  | vfma (u : Pfx) (t : BitVec 3) (d a b : BitVec 5) (f o : Bool)
  /-- VFMS (R144): Vector fused c − a × b into vd. -/
  | vfms (u : Pfx) (t : BitVec 3) (d a b : BitVec 5) (f o : Bool)
  /-- VDIV (R144): Vector divide. -/
  | vdiv (u : Pfx) (t : BitVec 3) (d a b : BitVec 5) (f o : Bool)
  /-- VSQRT (R144): Vector square root. -/
  | vsqrt (u : Pfx) (t : BitVec 3) (d a : BitVec 5) (f o : Bool)
  /-- VMIN (R145): Vector minimum. -/
  | vmin (u : Pfx) (t : BitVec 3) (d a b : BitVec 5) (f : Bool)
  /-- VMAX (R145): Vector maximum. -/
  | vmax (u : Pfx) (t : BitVec 3) (d a b : BitVec 5) (f : Bool)
  /-- VABS (R146): Vector absolute value. -/
  | vabs (u : Pfx) (t : BitVec 3) (d a : BitVec 5) (o : Bool)
  /-- VNEG (R146): Vector negation. -/
  | vneg (u : Pfx) (t : BitVec 3) (d a : BitVec 5) (o : Bool)
  /-- VRCP (R147): Correctly rounded reciprocal. -/
  | vrcp (u : Pfx) (t : BitVec 3) (d a : BitVec 5) (f o : Bool)
  /-- VRSQ (R147): Correctly rounded reciprocal square root. -/
  | vrsq (u : Pfx) (t : BitVec 3) (d a : BitVec 5) (f o : Bool)
  /-- VEXP2 (R147): Correctly rounded 2^a. -/
  | vexp2 (u : Pfx) (t : BitVec 3) (d a : BitVec 5) (f o : Bool)
  /-- VLOG2 (R147): Correctly rounded log2(a). -/
  | vlog2 (u : Pfx) (t : BitVec 3) (d a : BitVec 5) (f o : Bool)
  /-- VSEL (R151): Selects va or vb element by element by pc. -/
  | vsel (u : Pfx) (c : BitVec 4) (w : Bool) (d a b : BitVec 5)
  /-- VAND (R149): Vector bitwise AND. -/
  | vand (u : Pfx) (t : BitVec 3) (d a b : BitVec 5)
  /-- VOR (R149): Vector bitwise OR. -/
  | vor (u : Pfx) (t : BitVec 3) (d a b : BitVec 5)
  /-- VXOR (R149): Vector bitwise XOR. -/
  | vxor (u : Pfx) (t : BitVec 3) (d a b : BitVec 5)
  /-- VNOT (R149): Vector bitwise NOT. -/
  | vnot (u : Pfx) (t : BitVec 3) (d a : BitVec 5)
  /-- VSHL (R149): Vector logical shift left. -/
  | vshl (u : Pfx) (t : BitVec 3) (d a b : BitVec 5)
  /-- VSHR (R149): Vector logical shift right. -/
  | vshr (u : Pfx) (t : BitVec 3) (d a b : BitVec 5)
  /-- VASHR (R149): Vector arithmetic shift right. -/
  | vashr (u : Pfx) (t : BitVec 3) (d a b : BitVec 5)
  /-- VSCN (R157): Divides by a scale and narrows with one rounding. -/
  | vscn (u : Pfx) (t : BitVec 3) (d a b : BitVec 5) (f o : Bool)
  /-- VCMPEQ (R150): Vector equality compare into a predicate. -/
  | vcmpeq (u : Pfx) (t : BitVec 3) (p : BitVec 4) (a b : BitVec 5) (f : Bool)
  /-- VCMPNE (R150): Vector not-equal compare into a predicate. -/
  | vcmpne (u : Pfx) (t : BitVec 3) (p : BitVec 4) (a b : BitVec 5) (f : Bool)
  /-- VCMPLT (R150): Vector less-than compare into a predicate. -/
  | vcmplt (u : Pfx) (t : BitVec 3) (p : BitVec 4) (a b : BitVec 5) (f : Bool)
  /-- VCMPLE (R150): Vector less-or-equal compare into a predicate. -/
  | vcmple (u : Pfx) (t : BitVec 3) (p : BitVec 4) (a b : BitVec 5) (f : Bool)
  /-- VCMPUN (R150): Vector unordered compare into a predicate. -/
  | vcmpun (u : Pfx) (t : BitVec 3) (p : BitVec 4) (a b : BitVec 5) (f : Bool)
  /-- VCVT (R155): Converts between types with a static rounding mode. -/
  | vcvt (u : Pfx) (t : BitVec 3) (d a : BitVec 5) (s : BitVec 3) (r : BitVec 2) (f o : Bool)
  /-- VCVTD (R155): Converts between types with FPCTL.RM. -/
  | vcvtd (u : Pfx) (t : BitVec 3) (d a : BitVec 5) (s : BitVec 3) (f o : Bool)
  /-- VPERM (R154): Permutes elements of va by indices in vb. -/
  | vperm (u : Pfx) (t : BitVec 3) (d a b : BitVec 5)
  /-- VBCAST (R154): Broadcasts one lane of va. -/
  | vbcast (u : Pfx) (t : BitVec 3) (d a l : BitVec 5)
  /-- VREDADD (R158): Ordered sum reduction of the active elements. -/
  | vredadd (u : Pfx) (t : BitVec 3) (d a : BitVec 5) (f o : Bool)
  /-- VREDMAX (R158): Ordered maximum reduction. -/
  | vredmax (u : Pfx) (t : BitVec 3) (d a : BitVec 5) (f : Bool)
  /-- VREDMIN (R158): Ordered minimum reduction. -/
  | vredmin (u : Pfx) (t : BitVec 3) (d a : BitVec 5) (f : Bool)
  /-- VPOPQ (R159): Pops the oldest entry of a result queue into vd. -/
  | vpopq (u : Pfx) (d : BitVec 5) (q : BitVec 2)
  /-- VPOPL (R160): Takes the data of a landing register into vd. -/
  | vpopl (u : Pfx) (d : BitVec 5) (l : BitVec 3)
  /-- VRNG (R162): Maps counters through cg32 keyed by NKEY. -/
  | vrng (u : Pfx) (t : BitVec 3) (d a : BitVec 5)
  /-- PRUNE (R163): Stochastic structured pruning of F32 data. -/
  | prune (u : Pfx) (d a b : BitVec 5) (k : BitVec 2)
  /-- TOPK (R164): Ranks a row and writes the top k values and indices. -/
  | topk (u : Pfx) (t : BitVec 3) (d a b : BitVec 5)
  /-- QNT (R205): Quantises a block of 32 FP32 values to K4 codes with spall election. -/
  | qnt (u : Pfx) (d a b : BitVec 5) (f : Bool)
  /-- DQ (R207): Expands a block vector to FP32. -/
  | dq (u : Pfx) (d a b : BitVec 5) (o : Bool)
  /-- SPENC (R210): Compresses a register to a structured-sparse form with a pattern word. -/
  | spenc (u : Pfx) (t : BitVec 3) (d a : BitVec 5) (k : BitVec 2)
  /-- SPDEC (R211): Expands a structured-sparse register. -/
  | spdec (u : Pfx) (t : BitVec 3) (d a : BitVec 5) (k : BitVec 2)
  /-- VMVS (R153): Moves a vector lane to a scalar register. -/
  | vmvs (u : Pfx) (s : BitVec 6) (v l : BitVec 5)
  /-- VMSV (R153): Moves a scalar register into a vector lane. -/
  | vmsv (u : Pfx) (s : BitVec 6) (v l : BitVec 5)
  /-- VMOVI_I32 (R152): Writes a sign-extended immediate to every active INT32 element. -/
  | vmoviI32 (u : Pfx) (m : Bool) (d : BitVec 5) (i : BitVec 15)
  /-- VMOVI_I64 (R152): Writes a sign-extended immediate to every active INT64 element. -/
  | vmoviI64 (u : Pfx) (m : Bool) (d : BitVec 5) (i : BitVec 15)
  /-- VMOVI_F32 (R152): Writes a BF16 immediate widened to FP32. -/
  | vmoviF32 (u : Pfx) (m : Bool) (d : BitVec 5) (i : BitVec 15)
  /-- VMOVI_F64 (R152): Writes a BF16 immediate widened to FP64. -/
  | vmoviF64 (u : Pfx) (m : Bool) (d : BitVec 5) (i : BitVec 15)
  /-- VMOVI_F16 (R152): Writes a BF16 immediate rounded to FP16. -/
  | vmoviF16 (u : Pfx) (m : Bool) (d : BitVec 5) (i : BitVec 15)
  /-- VMOVI_BF16 (R152): Writes a BF16 immediate unchanged. -/
  | vmoviBf16 (u : Pfx) (m : Bool) (d : BitVec 5) (i : BitVec 15)
  /-- VMOVI_H8 (R152): Writes a BF16 immediate rounded to H8. -/
  | vmoviH8 (u : Pfx) (m : Bool) (d : BitVec 5) (i : BitVec 15)
  /-- MMA (R223): Dense matrix multiply-accumulate under a numerics profile. -/
  | mma (u : Pfx) (p : BitVec 4) (k : BitVec 3) (a b : BitVec 4) (z s f o : Bool)
  /-- MMA_S (R223): Structured-sparse matrix multiply-accumulate. -/
  | mmaS (u : Pfx) (p : BitVec 4) (k : BitVec 3) (a b : BitVec 4) (z s f o : Bool)
  /-- MMA_K4 (R226): K4 codebook matrix multiply under NP6 with spall merge. -/
  | mmaK4 (u : Pfx) (k : BitVec 3) (a b : BitVec 4) (m : MulMode)
  /-- TRSM (R231): Triangular solve of a tile in place. -/
  | trsm (u : Pfx) (k e : BitVec 3) (w : Bool) (l : BitVec 4)
  /-- GETRF (R228): LU factorisation of a tile with partial pivoting. -/
  | getrf (u : Pfx) (k : BitVec 3) (w l : Bool)
  /-- POTRF (R230): Cholesky factorisation of a tile. -/
  | potrf (u : Pfx) (k : BitVec 3) (w l : Bool)
  /-- GIVQR (R232): Givens-rotation QR reduction, storing the rotations in ke. -/
  | givqr (u : Pfx) (k e : BitVec 3) (w : Bool)
  /-- ROTAPP (R233): Applies stored rotations to a tile. -/
  | rotapp (u : Pfx) (k e : BitVec 3) (w l : Bool)
  /-- ACCZ (R234): Zeroes the active rows of a tile. -/
  | accz (u : Pfx) (k : BitVec 3)
  /-- ACCLD (R234): Loads a tile from a slab region. -/
  | accld (u : Pfx) (k : BitVec 3) (d : BitVec 4)
  /-- ACCST (R234): Stores a tile to a slab region as a posted store. -/
  | accst (u : Pfx) (a : BitVec 3) (d : BitVec 4)
  /-- DRAIN (R235): Pushes a tile's rows into a result queue. -/
  | drain (u : Pfx) (a : BitVec 3) (q : BitVec 2)
  /-- ACCMOV (R234): Copies rows of one tile to another with its AF. -/
  | accmov (u : Pfx) (k a : BitVec 3)
  /-- ACCT (R215): Loads a tile descriptor from the context's staging area. -/
  | acct (u : Pfx) (d : BitVec 4)
  /-- CBLD (R198): Loads and checks a codebook slot. -/
  | cbld (u : Pfx) (d : BitVec 4) (c : BitVec 2)
  /-- SPLD (R203): Checks a K4 tile's codebook, spall list and patterns. -/
  | spld (u : Pfx) (d : BitVec 4)
  /-- LD_V (R168): Loads 128 bytes of the own slab into a vector. -/
  | ldV (u : Pfx) (v : BitVec 5) (a : BitVec 6) (c : BitVec 4) (o : BitVec 5)
  /-- ST_V (R168): Stores a vector to 128 bytes of the own slab. -/
  | stV (u : Pfx) (v : BitVec 5) (a : BitVec 6) (c : BitVec 4) (o : BitVec 5)
  /-- LD_VS (R169): Strided vector load. -/
  | ldVs (u : Pfx) (v : BitVec 5) (a : BitVec 6) (c : BitVec 4) (w : Bool)
  /-- ST_VS (R169): Strided vector store. -/
  | stVs (u : Pfx) (v : BitVec 5) (a : BitVec 6) (c : BitVec 4) (w : Bool)
  /-- LD_VX (R170): Gather of 32 words. -/
  | ldVx (u : Pfx) (v : BitVec 5) (a : BitVec 6) (b : BitVec 5) (c : BitVec 4)
  /-- ST_VX (R170): Scatter of 32 words. -/
  | stVx (u : Pfx) (v : BitVec 5) (a : BitVec 6) (b : BitVec 5) (c : BitVec 4)
  /-- LDR_L (R172): Remote load of 128 bytes of any slab into a landing register with a due cycle. -/
  | ldrL (u : Pfx) (l : BitVec 3) (a : BitVec 6) (c : BitVec 4) (t : BitVec 7)
  /-- PF (R187): Prefetches a nest's device addresses, with no visible effect. -/
  | pf (u : Pfx) (d : BitVec 4) (a : BitVec 6) (c : BitVec 4)
  /-- LD_S (R174): Scalar load from a tagged address. -/
  | ldS (u : Pfx) (a : BitVec 6) (c : BitVec 4) (e : BitVec 2) (s : BitVec 3) (w : BitVec 2)
  /-- ST_S (R174): Posted scalar store to a tagged address. -/
  | stS (u : Pfx) (a : BitVec 6) (c : BitVec 4) (e : BitVec 2) (s : BitVec 3) (w : BitVec 2)
  /-- AMO_ADD (R175): Atomic add, returning the old value. -/
  | amoAdd (u : Pfx) (a : BitVec 6) (c : BitVec 4) (e : BitVec 2) (s : BitVec 3) (w : BitVec 2)
  /-- AMO_FADD (R176): Atomic FP add with RNE, returning the old value. -/
  | amoFadd (u : Pfx) (a : BitVec 6) (c : BitVec 4) (e : BitVec 2) (s : BitVec 3) (w : BitVec 2)
  /-- AMO_MIN (R175): Atomic signed minimum. -/
  | amoMin (u : Pfx) (a : BitVec 6) (c : BitVec 4) (e : BitVec 2) (s : BitVec 3) (w : BitVec 2)
  /-- AMO_MAX (R175): Atomic signed maximum. -/
  | amoMax (u : Pfx) (a : BitVec 6) (c : BitVec 4) (e : BitVec 2) (s : BitVec 3) (w : BitVec 2)
  /-- AMO_MINU (R175): Atomic unsigned minimum. -/
  | amoMinu (u : Pfx) (a : BitVec 6) (c : BitVec 4) (e : BitVec 2) (s : BitVec 3) (w : BitVec 2)
  /-- AMO_MAXU (R175): Atomic unsigned maximum. -/
  | amoMaxu (u : Pfx) (a : BitVec 6) (c : BitVec 4) (e : BitVec 2) (s : BitVec 3) (w : BitVec 2)
  /-- AMO_AND (R175): Atomic AND. -/
  | amoAnd (u : Pfx) (a : BitVec 6) (c : BitVec 4) (e : BitVec 2) (s : BitVec 3) (w : BitVec 2)
  /-- AMO_OR (R175): Atomic OR. -/
  | amoOr (u : Pfx) (a : BitVec 6) (c : BitVec 4) (e : BitVec 2) (s : BitVec 3) (w : BitVec 2)
  /-- AMO_XOR (R175): Atomic XOR. -/
  | amoXor (u : Pfx) (a : BitVec 6) (c : BitVec 4) (e : BitVec 2) (s : BitVec 3) (w : BitVec 2)
  /-- AMO_SWP (R175): Atomic swap. -/
  | amoSwp (u : Pfx) (a : BitVec 6) (c : BitVec 4) (e : BitVec 2) (s : BitVec 3) (w : BitVec 2)
  /-- AMO_CAS (R175): Atomic compare-and-swap. -/
  | amoCas (u : Pfx) (a : BitVec 6) (c : BitVec 4) (e : BitVec 2) (s : BitVec 3) (w : BitVec 2)
  /-- RED_ADD (R177): Posted atomic add with no result. -/
  | redAdd (u : Pfx) (a : BitVec 6) (c : BitVec 4) (s : BitVec 3) (w : BitVec 2)
  /-- RED_FADD (R177): Posted atomic FP add, recording flags in an SQ record. -/
  | redFadd (u : Pfx) (a : BitVec 6) (c : BitVec 4) (s : BitVec 3) (w : BitVec 2)
  /-- RED_MIN (R177): Posted atomic signed minimum. -/
  | redMin (u : Pfx) (a : BitVec 6) (c : BitVec 4) (s : BitVec 3) (w : BitVec 2)
  /-- RED_MAX (R177): Posted atomic signed maximum. -/
  | redMax (u : Pfx) (a : BitVec 6) (c : BitVec 4) (s : BitVec 3) (w : BitVec 2)
  /-- RED_AND (R177): Posted atomic AND. -/
  | redAnd (u : Pfx) (a : BitVec 6) (c : BitVec 4) (s : BitVec 3) (w : BitVec 2)
  /-- RED_OR (R177): Posted atomic OR. -/
  | redOr (u : Pfx) (a : BitVec 6) (c : BitVec 4) (s : BitVec 3) (w : BitVec 2)
  /-- RED_XOR (R177): Posted atomic XOR. -/
  | redXor (u : Pfx) (a : BitVec 6) (c : BitVec 4) (s : BitVec 3) (w : BitVec 2)
  /-- CP_IN (R180): Copies a device-memory nest into a slab region. -/
  | cpIn (u : Pfx) (d : BitVec 4) (a : BitVec 6) (i c : BitVec 4)
  /-- CP_OUT (R180): Copies a slab region to a device-memory nest. -/
  | cpOut (u : Pfx) (d : BitVec 4) (a : BitVec 6) (i c : BitVec 4)
  /-- CP_SS (R181): Copies an own-slab region to another slab region. -/
  | cpSs (u : Pfx) (d : BitVec 4) (a : BitVec 6) (i c : BitVec 4)
  /-- RSUB (R185): Subscribes a Quarry ring, clearing its state bytes. -/
  | rsub (u : Pfx) (d : BitVec 4) (a : BitVec 6) (i c : BitVec 4)
  /-- SREL (R186): Releases a ring slot by writing DONE to its state byte. -/
  | srel (u : Pfx) (d : BitVec 4) (a : BitVec 6) (c : BitVec 4)
  /-- FPUSH (R188): Posted 128-byte push to a tagged address. -/
  | fpush (u : Pfx) (v : BitVec 5) (a : BitVec 6) (c : BitVec 4)
  /-- FPUSHQ (R189): Pops a queue entry and pushes its masked lanes to a tagged address. -/
  | fpushq (u : Pfx) (q : BitVec 2) (a : BitVec 6) (c : BitVec 4) (s : BitVec 3)
  /-- STQ (R189): Pops a queue entry and stores its masked lanes to the own slab. -/
  | stq (u : Pfx) (q : BitVec 2) (a : BitVec 6) (c : BitVec 4) (s : BitVec 3)
  /-- INTERLOCKED_LD_S_LANDING (R174): The value of an LD.S whose target is not the own slab lands in s(sa+1),
  which ends the interlock on that register. -/
  | interlockedLdSLanding (c : CtxId) (k : Nat)
  /-- TILE_MOVE_COMPLETION (R218): An ACCT, ACCMOV or ACCST on the tile-move path completes, writing its
  descriptor or tile and ending the interlocks that wait on it. -/
  | tileMoveCompletion (c : CtxId) (k : Nat)
  /-- DEVICE_RESET (R356): Reset runs the boot sequence, ending with the mailbox open, or in the recovery or fatal
  state. -/
  | deviceReset
  /-- DIGEST_ARRIVAL (R353): A member's digest arrives; when all digests are held, the member decides. -/
  | digestArrival
  /-- DIGTIME_EXPIRY (R353): DIGTIME expires, missing digests count as unequal, and the member decides. -/
  | digtimeExpiry
  /-- RAIL_FENCE (R336): A rail that has been erased in 16 consecutive beats is fenced, and the XOR rail takes
  over its data. -/
  | railFence
  /-- RAIL_RETRAIN (R336): The service firmware retrains a fenced rail and restores single-rail protection. -/
  | railRetrain
  /-- LINK_DOWN (R337): After 8 failed replays a link goes down: fatal state for a die-to-die link, rerouting or
  PEER failures for a scale-up port, HOST failures for a host link. -/
  | linkDown
  /-- BEAD_PORT_BEAD (R344): A host write with OP 0 to a bound bead page posts a bead to a node record. -/
  | beadPortBead
  /-- BEAD_PORT_LAUNCH (R344): A host write with OP 1 to a bound bead page launches a graph record. -/
  | beadPortLaunch
  /-- APERTURE_WRITE (R345): A host write to a record-window aperture is translated and performed, or dropped with
  WINERR incremented. -/
  | apertureWrite
  /-- APERTURE_READ (R345): A host read of an aperture completes after earlier writes on the same link, or fails
  with Unsupported Request. -/
  | apertureRead
  /-- UNMATCHED_BAR_ACCESS (R343): A host access that matches no register or aperture is dropped, or read as 0,
  and WINERR increases. -/
  | unmatchedBarAccess
  /-- GABORT (R285): A write to GABORT voids every node of a running graph that is not DONE, with no retry, and
  completes the graph. -/
  | gabort
  /-- FLHEAD (R346): A host write advances the fault-log read count, or is ignored with WINERR incremented if it
  would exceed 64 unread entries. -/
  | flhead
  /-- MANAGEMENT_REGISTER_WRITE (R346): A host write to a management-window register with no row of its own sets
  that register. -/
  | managementRegisterWrite
  /-- OPEN (R361): Mailbox command 0x01 opens an address space. -/
  | openSpace
  /-- CLOSE (R364): Mailbox command 0x02 closes an address space, leaving its courses cleared and assigned to
  none. -/
  | closeSpace
  /-- MAP (R364): Mailbox command 0x03 writes a leaf entry for a page of an open space, creating tables as needed. -/
  | mapPage
  /-- UNMAP (R364): Mailbox command 0x04 removes the leaves inside a range and completes after the invalidation. -/
  | unmapPages
  /-- BIND (R361): Mailbox command 0x05 binds a bead page or aperture to a space and a VA base. -/
  | bindWindow
  /-- POOL (R311): Mailbox command 0x06 sets a space's checkpoint pool. -/
  | setPool
  /-- REPLICA (R351): Mailbox command 0x07 sets up a replica group with its regions, boundary nodes, members,
  checkpoint area and DIGTIME. -/
  | replica
  /-- ATTEST (R360): Mailbox command 0x08 returns a signed attestation report for a nonce, or EXHAUSTED when the
  leaves are used up. -/
  | attest
  /-- LOAD (R356): Mailbox command 0x09, in the recovery state, verifies a new image and restarts boot with it. -/
  | loadImage
  /-- ASSIGN (R362): Mailbox command 0x0A assigns courses to a space or to none, clearing them on a change of
  space. -/
  | assign
  /-- SLABWR (R363): Mailbox command 0x0B writes data into one core's slab and completes after the data has
  performed. -/
  | slabwr
  /-- INVALIDATION_COMPLETE (R269): Invalidation of a space completes once translation caches have dropped the
  space and old translations have performed. -/
  | invalidationComplete
  /-- MAILBOX_REQUEST_COMPLETE (R361): A mailbox request completes: GO reads 0 and STATUS and any response are
  written. -/
  | mailboxRequestComplete
  /-- UNKNOWN_CMD (R361): A CTRL write with GO = 1 and an unassigned CMD completes with STATUS 3. -/
  | unknownCmd
  /-- CTRL_WRITE_WHILE_GO (R361): A write of CTRL while GO reads 1 is ignored and adds 1 to WINERR. -/
  | ctrlWriteWhileGo
  deriving DecidableEq, Repr

end Sys2Proof
end

