-- ==== Sys2Proof/Machine/State.lean ====
section
/-! DEFINITION. The state of the device (R26, Table 1.4, and what the other chapters give it), as plain data, and the
state after reset. Registers are sparse maps whose unlisted entries read as the reset value. -/

namespace Sys2Proof.Machine

/-- A step of this model never ends in a fault: every event the spec describes has a next state. -/
inductive Fault where
  /-- Raised by nothing: the spec stops no step. Safe. -/
  | noStep
  deriving DecidableEq, Repr

/-- Why an instruction has no meaning here. -/
inductive Refusal where
  /-- Raised by an arm of exec that has no meaning yet. Safe: nothing can be proved of the instruction. -/
  | notModelled (mnemonic : String)
  deriving DecidableEq, Repr

/-- An accumulator tile: 256 elements of 64 bits, element (i, j) at 16i + j; unlisted elements are 0 (R216). -/
abbrev Tile := SMap DWord

/-- An entry of a result queue (R159, R235): counted when its DRAIN issues, written later. -/
structure QEntry where
  data : Vec
  mask : BitVec 32
  written : Bool
  op : Nat
  deriving DecidableEq, Repr

/-- A landing register (R160, R173). A pending one names its remote load and its due cycle; data that has arrived
early waits. A landed one restored from an image may not be popped before a cycle (R313). -/
inductive Landing where
  | empty
  | pending (op due : Nat) (data : Option Vec) (poison : Option Nat)
  | landed (data : Vec) (notBefore : Nat) (poison : Option Nat)
  deriving DecidableEq, Repr

/-- A codebook slot (R197): 16 BF16 entries and the escape mask. -/
structure Codebook where
  ents : BitVec 256
  esc : BitVec 16
  deriving DecidableEq, Repr

/-- The destination of a result. bn and control registers never enter the IFQ: their bound is 1 (Table 3.17). -/
inductive Dest where
  | s (r : BitVec 6)
  | v (r : BitVec 5)
  | p (r : BitVec 4)
  | x (r : BitVec 4)
  | bn (r : BitVec 3)
  | cr (n : BitVec 8) (w : BitVec 6)
  deriving DecidableEq, Repr

/-- What part of a destination a result writes: for a vector register its bytes, for a predicate its bits, for any
other destination bit 0. -/
abbrev Part := BitVec 128

/-- A result that has issued and whose bound has not elapsed (R83, R84): the part whose reads are unpredictable, the
part it still writes, and the load that gives its value when that is not known yet. DEDUCED (log 3). -/
structure Flight where
  seq : Nat
  slot : Nat
  due : Nat
  dest : Dest
  val : Vec
  lanes : Part
  live : Part
  flags : BitVec 5
  src : Option Nat
  landed : Bool
  deriving DecidableEq, Repr

/-- An entry of the IFQ (R300, R312). -/
structure IfqEntry where
  val : Vec
  lanes : Part
  live : Part
  dest : Dest
  delay : Nat
  deriving DecidableEq, Repr

/-- LOOPST (Table 5.6); depth 0 means no loop. -/
structure LoopSt where
  depth : Nat
  len : BitVec 5
  pos : Nat
  grp : BitVec 6
  body : DWord
  idx : SMap (BitVec 28)
  deriving DecidableEq, Repr

/-- A back-edge that is due (R127), as its bundle read the registers at issue: the dimension that advances, none where
the loop ends, its target register and the target's new value. -/
structure Edge where
  dim : Option Nat
  target : BitVec 6
  value : DWord
  deriving DecidableEq, Repr

/-- An arrival of a context at a barrier (R130): the PC of the BAR bundle, whether that bundle still waits there, and
whether the barrier has completed since. DEDUCED (log 42). -/
structure Arrival where
  pc : DWord
  waits : Bool
  passed : Bool
  deriving DecidableEq, Repr

/-- LOOPST at reset. -/
def LoopSt.none : LoopSt := ⟨0, 0, 0, 0, 0, []⟩

/-- A place in memory as an access names it: a byte of the memory, or a device virtual address still to be translated. -/
inductive Loc where
  | key (k : Nat)
  | dva (va : DWord)
  deriving DecidableEq, Repr

/-- Bytes `pos` to `pos + len − 1` of an operation's value stand at `loc`. -/
structure Frag where
  pos : Nat
  loc : Loc
  len : Nat
  deriving DecidableEq, Repr

/-- The read-modify-write operations of Table 7.3. -/
inductive Rmw where
  | add | fadd | min | max | minu | maxu | and | or | xor | swp | cas
  deriving DecidableEq, Repr

/-- Where the value of a read goes. -/
inductive LoadTo where
  | flight
  | sreg (r : BitVec 6)
  | landing (l : BitVec 3)
  | desc (d : BitVec 4)
  deriving DecidableEq, Repr

/-- What a memory operation does when it performs. -/
inductive MemAct where
  | load (dst : LoadTo)
  | store (data : Nat)
  | rmw (op : Rmw) (d c : DWord) (dst : Option (BitVec 6))
  | fence (mask : BitVec 16) (scope : BitVec 3)
  | move (kd : BitVec 3) (rows : BitVec 16) (tile : Tile)
  deriving DecidableEq, Repr

/-- A memory operation that has issued (R236 to R239): the address as it names it, its class, what it does, and how
far it is; `seen` are bytes that it has read before the other copy slot of its bundle wrote them (R167). The tile moves
ACCST, ACCMOV and ACCT stand here too (R218); `region` are the granules of the region of an ACCST in flight (R182, R219). -/
structure MemOp where
  id : Nat
  addr : DWord
  seq : Nat
  slot : Nat
  held : Bool
  pc : DWord
  oc : BitVec 4
  sem : BitVec 2
  scope : BitVec 3
  width : Nat
  opc : Nat
  frags : List Frag
  act : MemAct
  performed : Bool
  val : Nat
  flags : BitVec 5
  seen : List (Nat × Byte)
  region : List Nat
  deriving DecidableEq, Repr

/-- A ring as RSUB read it (Table 7.6), and how many tiles each slot has taken. -/
structure Ring where
  input : DWord
  output : DWord
  rowstep : DWord
  slot0 : Nat
  slotstep : Nat
  slots : Nat
  exts : List Nat
  strides : List DWord
  state : Nat
  taken : SMap Nat
  deriving DecidableEq, Repr

/-- What a copy command moves (R179 to R181, R185). -/
inductive CopyKind where
  | cpIn
  | cpOut
  | cpSs
  | ring (r : Ring)
  deriving DecidableEq, Repr

/-- A copy command in flight: its descriptor and nest as read at issue, and the graph whose slice issued it (R341). `seen` are
bytes that it has read before the other copy slot of its bundle wrote them, of a ring the state bytes that its subscription
wrote over, and `keep` is where C1 of its bundle has written already, whose data stays (R167). DEDUCED (log 41). -/
structure CopyCmd where
  kind : CopyKind
  d : BitVec 256
  base : DWord
  dstStride : Nat
  exts : List Nat
  strides : List DWord
  oc : BitVec 4
  seq : Nat
  slot : Nat
  held : Bool
  pc : DWord
  before : Nat
  graph : Option Nat
  seen : List (Nat × Byte)
  keep : List Nat
  deriving DecidableEq, Repr

/-- A copy id (R182, R183). -/
inductive CopyState where
  | free
  | running (c : CopyCmd)
  | faulted (record : BitVec 128)
  deriving DecidableEq, Repr

/-- What an array operation has read of the slab before it completes: the bytes, the poisoned granules among them, and
the granules that were poisoned before the read. -/
structure Seen where
  cells : List (Nat × Byte)
  bad : List Nat
  was : List Nat
  deriving DecidableEq, Repr

/-- An array operation that has issued (R218): the descriptors it read, its guard, FPCTL, AF and BRK at issue (R66), and its
slab reads where they have performed already (R239). DEDUCED (log 41). -/
structure ArrayOp where
  id : Nat
  one : Bool
  seq : Nat
  held : Bool
  pc : DWord
  instr : Instr
  da : BitVec 256
  db : BitVec 256
  guard : BitVec 32
  rm : BitVec 3
  en : BitVec 5
  af : BitVec 2
  brk : BitVec 128
  drained : Nat
  before : Nat
  seen : Option Seen
  deriving DecidableEq, Repr

/-- An operation that has faulted and whose interlocks hold until its fault is detected (R299). -/
inductive LateOp where
  | array (a : ArrayOp)
  | mem (o : MemOp)
  | copy (id : BitVec 4) (q : CopyCmd)
  deriving DecidableEq, Repr

/-- A fault that is known against an issued bundle (R299), and the operation that raised it (R222). -/
structure LateFault where
  seq : Nat
  slot : Nat
  held : Bool
  pc : DWord
  cause : BitVec 8
  detail : BitVec 128
  op : Option LateOp
  deriving DecidableEq, Repr

/-- What a trap record says (Table 15.2), kept until the trap is entered. -/
structure TrapInfo where
  seq : Nat
  cause : BitVec 8
  slot : Nat
  held : Bool
  multi : Bool
  arg : BitVec 32
  faultpc : DWord
  retpc : DWord
  detail : BitVec 128
  ifq : List IfqEntry
  deriving DecidableEq, Repr

/-- The trap state that an ERET restores (R301). `floor` is the least depth since trap entry: regions above it are the
handler's own (R296). -/
structure TrapState where
  retpc : DWord
  depth : BitVec 3
  floor : BitVec 3
  held : SMap Word
  loop : LoopSt
  repcnt : BitVec 32
  x15 : BitVec 32
  ifq : List IfqEntry
  withheld : List ArrayOp
  deriving DecidableEq, Repr

/-- The phases of a slice (R16). -/
inductive Phase where
  | prologue
  | kernel
  | epilogue
  deriving DecidableEq, Repr

/-- The slice that occupies a context (R15 to R17): its graph (by launch number), node index, the attempt of its node
(R287), logical index, first iteration, count, the iteration it is at, its phase, and whether a kernel pass of it is open
(R16). DEDUCED (log 30). -/
structure Slice where
  graph : Nat
  node : Nat
  attempt : Nat
  lidx : Nat
  first : Nat
  count : Nat
  iter : Nat
  phase : Phase
  passOpen : Bool
  deriving DecidableEq, Repr

/-- Where a result lands that no register of Table 3.17 takes: a tile, a codebook, PIV, GF and BRK, a result queue, a landing
register or a descriptor (R348). DESIGN CHOICE (log 69). -/
inductive Site where
  | tile (k : Nat)
  | codebook (k : Nat)
  | piv
  | gf
  | brk
  | queue (k : Nat)
  | landing (k : Nat)
  | descriptor (k : Nat)
  deriving DecidableEq, Repr

/-- What a context does in a cycle, as the commit signature of a twin pair covers it (R348).
DESIGN CHOICE (log 69). -/
inductive Commit where
  | bundle (pc : DWord) (words : List (Nat × Word))
  | result (dest : Dest) (value : Vec)
  | memory (addr : DWord) (act : MemAct) (frags : List Frag)
  | copy (opc : Nat) (d : BitVec 256) (base : DWord)
  | fpsw (flags : BitVec 5)
  | ksw (k : Nat) (flags : BitVec 6)
  | lands (site : Site) (value : List Nat)
  deriving DecidableEq, Repr

/-- A request of Keystone to a running slice (R293, R307), or how its run ends: stopped, or retiring behind an NDONE
(R138). -/
inductive Request where
  | none
  | drain
  | draining
  | checkpoint
  | saving
  | kill (cycle : Nat)
  | stopped
  | retiring
  deriving DecidableEq, Repr

/-- A context (Table 1.4, Scope context). `orphans` are rings that stopped slices have left running (R250), `did` is what the
context has done since its core's last cycle began (R348). DEDUCED (log 16). -/
structure Ctx where
  slice : Option Slice
  request : Request
  pc : DWord
  npc : DWord
  s : SMap DWord
  v : SMap Vec
  p : SMap (BitVec 32)
  x : SMap (BitVec 32)
  k : SMap Tile
  q : SMap (List QEntry)
  l : SMap Landing
  d : SMap (BitVec 256)
  cb : SMap Codebook
  bn : SMap (BitVec 448)
  held : SMap Word
  fpctl : BitVec 32
  fpsw : BitVec 32
  ksw : SMap (BitVec 32)
  piv : BitVec 128
  gf : DWord
  brk : BitVec 128
  nkey : DWord
  repcnt : BitVec 32
  loop : LoopSt
  edge : Option Edge
  node : BitVec 32
  depth : BitVec 3
  hand : SMap DWord
  own : BitVec 2
  ifq : List IfqEntry
  copies : SMap CopyState
  orphans : List CopyCmd
  flight : List Flight
  unpred : SMap Part
  ops : List MemOp
  failed : List (BitVec 4 × BitVec 128)
  named : BitVec 16
  late : List LateFault
  trap : Option TrapState
  entering : Option TrapInfo
  withheld : List ArrayOp
  arrived : SMap Arrival
  seq : Nat
  pos : Nat
  pw : SMap Nat
  lastIssue : Option Nat
  stallUntil : Nat
  lastIb : Bool
  did : List Commit
  deriving DecidableEq, Repr

/-- A context after a device reset (Table 1.4). DESIGN CHOICE (log 7). -/
def Ctx.reset : Ctx where
  slice := none
  request := .none
  pc := 0
  npc := 0
  s := []
  v := []
  p := []
  x := []
  k := []
  q := []
  l := []
  d := []
  cb := []
  bn := []
  held := []
  fpctl := 0
  fpsw := 0
  ksw := []
  piv := 0
  gf := 0
  brk := 0
  nkey := 0
  repcnt := 0
  loop := LoopSt.none
  edge := none
  node := 0xFFFFFFFF
  depth := 0
  hand := []
  own := 0
  ifq := []
  copies := []
  orphans := []
  flight := []
  unpred := []
  ops := []
  failed := []
  named := 0
  late := []
  trap := none
  entering := none
  withheld := []
  arrived := []
  seq := 0
  pos := 0
  pw := []
  lastIssue := none
  stallUntil := 0
  lastIb := false
  did := []

/-- A core (Table 1.4, Scope core). `frozen` is the freeze of a late landing (R14): context, landing register and
the cycles frozen so far. `pair` is what the odd core of a twin pair holds while it follows this one (R347): the contexts
of this core before each of its last cycles, the newest first. DEDUCED (log 16). -/
structure Core where
  ctx0 : Ctx
  ctx1 : Ctx
  cycle : Nat
  frozen : Option (Bool × BitVec 3 × Nat)
  sq : List (BitVec 128)
  sqOvf : BitVec 32
  dqbase : BitVec 32
  dqlim : BitVec 32
  tag : Option Nat
  aq : List ArrayOp
  pair : List (Ctx × Ctx)
  deriving DecidableEq, Repr

/-- A core after a device reset (Table 1.4). DESIGN CHOICE (log 7). -/
def Core.reset : Core := ⟨Ctx.reset, Ctx.reset, 0, none, [], 0, 0, 0, none, [], []⟩

/-- A course barrier (R130): idle, or bound to a node of a graph and a mask, with the positions that have arrived.
DEDUCED (log 42). -/
structure Barrier where
  graph : Nat
  node : Nat
  mask : BitVec 8
  arrived : BitVec 8
  deriving DecidableEq, Repr

/-- A deque entry (R283). -/
structure DequeEntry where
  res : Bool
  pin : Bool
  lidx : Nat
  node : DWord
  deriving DecidableEq, Repr

/-- A course (Table 1.4, Scope course, and R265, R278, R294, R354, R362). -/
structure Course where
  barriers : SMap (Option Barrier)
  twin : Bool
  plumb : Bool
  space : Option Nat
  ready : List (Nat × Nat)
  fallback : List (Nat × DequeEntry)
  gated : Bool
  waking : Bool
  idleSince : Nat
  mhz : Nat
  mv : Nat
  deriving DecidableEq, Repr

/-- A course after a device reset; the operating point is the nominal one (R354). DESIGN CHOICE (log 7). -/
def Course.reset : Course := ⟨[], false, false, none, [], [], false, false, 0, 3600, 675⟩

/-- The states of a node (Table 14.4). -/
inductive NState where
  | idle | armed | ready | running | done | faulted | cancelled | void
  deriving DecidableEq, Repr

/-- Keystone's copy of a node record (Table 14.1, R286), with the captured key, the cores of its placement, the
slices that have not retired, when its first slice started, and how often it has been dispatched (R287). -/
structure Node where
  addr : DWord
  id : BitVec 32
  state : NState
  cls : BitVec 2
  pin : Bool
  idem : Bool
  drain : Bool
  ckpt : Bool
  kill : Bool
  retries : Nat
  left : Nat
  pendInit : Nat
  pro : DWord
  ker : DWord
  epi : DWord
  trip : Nat
  exts : List Nat
  perm : List Nat
  pending : Nat
  tokens : Nat
  succs : List (Nat × Nat)
  estimate : Nat
  ccnt : Nat
  arrive : BitVec 64
  seed : DWord
  place : BitVec 256
  nkey : DWord
  cores : List Nat
  unretired : Nat
  startedAt : Option Nat
  killing : Bool
  withheld : Bool
  attempt : Nat
  deriving DecidableEq, Repr

/-- The states of a graph (Table 14.2). -/
inductive GState where
  | running | done | fault
  deriving DecidableEq, Repr

/-- Keystone's copy of a launched graph record (Table 14.2, R286). -/
structure Graph where
  space : Nat
  addr : DWord
  plumb : Bool
  twin : BitVec 32
  first : DWord
  count : Nat
  status : GState
  done : Nat
  voided : Nat
  retry : Nat
  nodes : SMap Node
  deriving DecidableEq, Repr

/-- What a message waits for: the memory operations a context issued before it (R249); `sent` once it has left its context.
DESIGN CHOICE (log 48). -/
structure Behind where
  c : CtxId
  op : Nat
  sent : Bool
  deriving DecidableEq, Repr

/-- Messages to Keystone (R278, R275, R285, R287). -/
inductive KsMsg where
  | bead (behind : Option Behind) (space : Nat) (addr : DWord) (slot : Nat)
  | launch (behind : Option Behind) (space : Nat) (addr : DWord)
  | fault (graph node attempt core : Nat) (cause : BitVec 8) (pc : DWord)
  deriving DecidableEq, Repr

/-- A write of C1 behind the faulted node (R289): a member of the cone is cancelled, or an arrival bit of one is cleared.
DESIGN CHOICE (log 43). -/
inductive C1Write where
  | cancel (node : Nat)
  | clear (node slot : Nat)
  deriving DecidableEq, Repr

/-- A cancellation (R289): the faulted node and its cone in cone order, and the writes that C1 has still to make, none
once C1 is over (R291). A graph abort (R285) has no faulted node and never retries. DESIGN CHOICE (log 43). -/
structure Cancel where
  graph : Nat
  node : Option Nat
  cone : List Nat
  todo : Option (List C1Write)
  deriving DecidableEq, Repr

/-- A pre-emption that Keystone has decided against (R292): the core, the newcomer's entry and the victim slice.
DESIGN CHOICE (log 44). -/
structure Declined where
  core : Nat
  entry : DequeEntry
  graph : Nat
  node : Nat
  lidx : Nat
  deriving DecidableEq, Repr

/-- A saved context image (R311): the slice it belongs to, as the sequencer of R15 keeps it, the PC of its boundary
(R315), and its address. DEDUCED (log 15). -/
structure Image where
  slice : Slice
  pc : DWord
  va : DWord
  deriving DecidableEq, Repr

/-- A page as the monitor mapped it. -/
structure Leaf where
  va : Nat
  size : Nat
  deriving DecidableEq, Repr

/-- A translation that a cache of the device holds (R269, R270): the space, the page and its leaf entry.
DESIGN CHOICE (log 17). -/
structure TlbEntry where
  space : Nat
  va : Nat
  size : Nat
  entry : DWord
  deriving DecidableEq, Repr

/-- An open address space (R266, R361): its root table, the leaves mapped and its checkpoint pool. -/
structure Space where
  root : Nat
  leaves : List Leaf
  pool : Option (DWord × Nat)
  used : List Nat
  deriving DecidableEq, Repr

/-- The management window's own registers (Table 19.4). -/
structure Mgmt where
  drainth : BitVec 32
  beaddrop : BitVec 32
  winerr : BitVec 32
  gaspace : BitVec 16
  plumbbrk : BitVec 32
  recerr : BitVec 32
  flhead : BitVec 7
  fltail : BitVec 7
  fllost : BitVec 8
  flog : SMap (BitVec 256)
  deriving DecidableEq, Repr

/-- Where the request of the mailbox stands (R361): a response replaces the payload when the request completes. -/
inductive MboxPhase where
  | idle
  | submitted
  | invalidating (space : Nat)
  | answered (status : BitVec 8) (response : List Byte)
  deriving DecidableEq, Repr

/-- The mailbox (R361): CTRL's fields and the payload. -/
structure Mbox where
  cmd : BitVec 8
  len : BitVec 16
  status : BitVec 8
  pay : SMap Byte
  phase : MboxPhase
  deriving DecidableEq, Repr

/-- A link (R335 to R337, PORTk of Table 19.4). -/
structure Port where
  up : Bool
  fenced : BitVec 5
  runs : SMap Nat
  fails : Nat
  railfix : Nat
  replay : Nat
  downs : Nat
  deriving DecidableEq, Repr

/-- A link after reset: not trained yet (Table 19.4). DESIGN CHOICE (log 7). -/
def Port.reset : Port := ⟨false, 0, [], 0, 0, 0, 0⟩

/-- The BARs of a host function (Table 19.3). -/
inductive Bar where
  | bead | record | mgmt
  deriving DecidableEq, Repr

/-- An access of the host that waits to be taken (R344 to R346). -/
structure HostAccess where
  link : Nat
  bar : Bar
  write : Bool
  off : Nat
  size : Nat
  data : List Byte
  deriving DecidableEq, Repr

/-- How the last host read completed (R345). -/
inductive HostReply where
  | none
  | data (d : List Byte)
  | unsupported
  deriving DecidableEq, Repr

/-- One declared region of a replica group (R351). -/
structure Region where
  va : DWord
  len : Nat
  deriving DecidableEq, Repr

/-- A replica group on this member (R351 to R353): the request, the node whose beads are withheld, this member's
digest, those that have arrived, the majority's digest and the boundary node where its regions wait to be reloaded from a
majority member, and how many events `past` held when its graph was launched. DEDUCED (log 39). -/
structure Replica where
  space : Nat
  graph : DWord
  regions : List Region
  boundary : List Nat
  members : List Nat
  area : DWord
  digtime : Nat
  waiting : Option (Nat × Nat)
  mine : BitVec 128
  held : SMap (BitVec 128)
  reload : Option (BitVec 128 × Nat)
  since : Nat
  deriving DecidableEq, Repr

/-- A digest between members (R352): the member that sent or shall have it, the graph record, the node and D. -/
structure Digest where
  member : Nat
  graph : DWord
  node : Nat
  value : BitVec 128
  deriving DecidableEq, Repr

/-- The declared regions of a member, as the monitor of another one reads them (R353). DESIGN CHOICE (log 68). -/
structure RegionData where
  member : Nat
  graph : DWord
  data : List Byte
  deriving DecidableEq, Repr

/-- The state of boot (R356, R357). -/
inductive Boot where
  | booting
  | running
  | recovery
  | fatal
  deriving DecidableEq, Repr

/-- Who performs an operation (R236, R246): a context, the copy engine that runs its copies, the Quarry that serves a ring
of a core, Keystone, the trusted monitor, or the host behind a link. -/
inductive Agent where
  | ctx (c : CtxId)
  | engine (c : CtxId)
  | quarry (core : Nat)
  | keystone
  | monitor
  | host (link : Nat)
  deriving DecidableEq, Repr

/-- Where a bead or a launch comes from: a node that is done, a message of a context by its place, a host link, or none of
these. -/
inductive Origin where
  | node (n : Nat)
  | ctx (c : CtxId) (id : Nat)
  | host (link : Nat)
  | other
  deriving DecidableEq, Repr

/-- What an event of the log does: an access to memory, a fence, a WAIT of kind copy with its ids, the completion of a copy
by its id, one side of a pair of Table 10.4, an arrival at a barrier withdrawn, an arrival bit set or cleared, a launch taken,
a slice that stops without NDONE, or a node that becomes VOID. -/
inductive EvKind where
  | read
  | write
  | rmw
  | fence (mask : BitVec 16) (scope : BitVec 3)
  | copied (id : BitVec 4)
  | waited (ids : BitVec 16)
  | arrive (course bar : Nat)
  | complete (course bar : Nat)
  | withdraw (course bar : Nat)
  | ndone (graph node : Nat)
  | post
  | bead (src : Origin) (graph node slot : Nat)
  | unbead (graph node slot : Nat)
  | taken (src : Origin)
  | launch (src : Origin) (graph : Nat)
  | enter (graph node : Nat)
  | stop
  | voided (graph node : Nat)
  | save (va : DWord)
  | restore (va : DWord)
  deriving DecidableEq, Repr

/-- An event of the log: its agent, its place in program order, what it does, whether it is an atomic access, its ordering
classes (Table 10.1), its bytes, the scopes at which it is a release or an acquire (R241), the slice that it is of, by graph,
node, attempt and logical index, whether it is a slab side of a copy, the granules whose later writes, and where `both` later reads too,
waited for its whole operation (R182, R219), and the step in which it performs. DESIGN CHOICE (log 50). -/
structure Ev where
  agent : Agent
  id : Nat
  kind : EvKind
  atomic : Bool
  classes : BitVec 16
  keys : List Nat
  release : Option (BitVec 3)
  acquire : Option (BitVec 3)
  slice : Option (Nat × Nat × Nat × Nat)
  own : Bool
  held : List Nat
  both : Bool
  tick : Nat
  deriving DecidableEq, Repr

/-- The whole device. DESIGN CHOICE: the model's own fields are `agenda`, `granted`, `cur`, `slot`, `heldNow` and `stall`
(log 1), `tick` (log 5), `bus`, `reply`, `digests`, `sent`, `reloads`, `retrains`, `bootFail` and `msix` (log 10),
`failedStep` (log 14),
`tables` (log 12), `tlb` (log 17), `launches` (log 43), `declined` (log 44), `flaws` (log 56), `log` (log 50), which
holds what the last step performed, and `past` (log 39), which holds what has performed while a replica group stands. -/
structure State where
  cores : SMap Core
  courses : SMap Course
  mem : SMap Byte
  poison : List Nat
  flaws : SMap Bool
  seed : DWord
  spaces : SMap Space
  tlb : List TlbEntry
  tables : Nat
  pages : SMap Nat
  apertures : SMap (Nat × DWord)
  graphs : SMap Graph
  launches : Nat
  ksq : List KsMsg
  cancels : List Cancel
  images : List Image
  declined : List Declined
  mgmt : Mgmt
  mbox : Mbox
  invals : List Nat
  ports : SMap Port
  retrains : List Nat
  routes : SMap (BitVec 12)
  devid : Nat
  replicas : List Replica
  digests : List Digest
  sent : List Digest
  reloads : List RegionData
  bus : List HostAccess
  reply : HostReply
  boot : Boot
  bootFail : Nat
  failedStep : Nat
  loaded : Option (List Byte)
  firmware : Option (List Byte)
  msix : List Nat
  leafIndex : Nat
  cur : CtxId
  slot : Nat
  heldNow : Bool
  granted : Bool
  stall : Nat
  tick : Nat
  log : List Ev
  past : List Ev
  agenda : List Instr
  deriving DecidableEq, Repr

/-- The management window after reset (Table 19.4). -/
def Mgmt.reset : Mgmt := ⟨10000, 0, 0, 0, 0, 0, 0, 0, 0, []⟩

/-- The mailbox after reset (Table 19.4). -/
def Mbox.reset : Mbox := ⟨0, 0, 0, [], .idle⟩

/-- The device right after reset, before the boot sequence runs (R356). DESIGN CHOICE (log 7). -/
def State.reset : State where
  cores := []
  courses := []
  mem := []
  poison := []
  flaws := []
  seed := 0
  spaces := []
  tlb := []
  tables := 0
  pages := []
  apertures := []
  graphs := []
  launches := 0
  ksq := []
  cancels := []
  images := []
  declined := []
  mgmt := Mgmt.reset
  mbox := Mbox.reset
  invals := []
  ports := []
  retrains := []
  routes := []
  devid := 0
  replicas := []
  digests := []
  sent := []
  reloads := []
  bus := []
  reply := .none
  boot := .booting
  bootFail := 0
  failedStep := 0
  loaded := none
  firmware := none
  msix := []
  leafIndex := 0
  cur := ⟨0, false⟩
  slot := 0
  heldNow := false
  granted := false
  stall := 0
  tick := 0
  log := []
  past := []
  agenda := []

end Sys2Proof.Machine
end

