-- ==== Sys2Proof/Machine/Memory.lean ====
section
/-! DEFINITION. The memory: where a byte lies (R29, R262, R267), how bytes are read and written, poison (R259), slab
addresses (R29, R166) and the table walk (R266 to R268). -/

namespace Sys2Proof.Machine

/-- What a byte of memory that nothing has written reads as: slabs are cleared at boot (R258); DESIGN CHOICE (log 4)
elsewhere. -/
def unwritten : Byte := 0

/-- A slab byte is keyed by its Wall address (R29, R30). -/
def slabKey (core off : Nat) : Nat := 0x20000000 + core * 0x200000 + off

/-- A byte of local HBM by its physical address (R262). -/
def hbmKey (pa : Nat) : Nat := 2 ^ 56 + pa

/-- The HBM stack of a physical address: eight stacks interleaved in units of 4 KiB (R262). -/
def hbmStack (pa : Nat) : Nat := pa / 4096 % 8

/-- The die a stack is attached to (R262). -/
def stackDie (q : Nat) : Nat := q / 2

/-- The home of a location of local HBM: Quarry controller q serves stack q (R262, R178). -/
def hbmHome (pa : Nat) : Nat := hbmStack pa

/-- A byte of host memory behind a host link. -/
def hostKey (link pa : Nat) : Nat := 2 ^ 57 + link * 2 ^ 52 + pa

/-- A byte of a peer device's HBM. -/
def peerKey (dev pa : Nat) : Nat := 2 ^ 58 + dev * 2 ^ 52 + pa

/-- The bytes of a slab: 1.5 MiB (R29). -/
def slabSize : Nat := 0x180000

/-- The core whose slab holds a key. -/
def coreOfKey (k : Nat) : Option Nat :=
  if 0x20000000 ≤ k ∧ k < 0x40000000 then some ((k - 0x20000000) / 0x200000) else none

/-- The canonical form of memory. -/
abbrev Memory.wf (m : SMap Byte) : Bool := SMap.wf unwritten m

/-- DESIGN CHOICE (log 4). -/
def State.byte (s : State) (k : Nat) : Byte := SMap.get unwritten s.mem k

def State.setByte (s : State) (k : Nat) (b : Byte) : State := { s with mem := SMap.setD unwritten s.mem k b }

/-- Bytes from a key on. -/
def State.bytes (s : State) (k n : Nat) : List Byte := (List.range n).map (fun i => s.byte (k + i))

/-- Write bytes one after another, a later one over an earlier one at the same key. -/
def State.setCells (s : State) : List (Nat × Byte) → State
  | [] => s
  | (k, b) :: cs => State.setCells (s.setByte k b) cs

/-- A little-endian number (R5). -/
def natOfBytes : List Byte → Nat
  | [] => 0
  | b :: bs => b.toNat + 256 * natOfBytes bs

/-- The n low bytes of a number, low byte first (R5). -/
def bytesOfNat : Nat → Nat → List Byte
  | 0, _ => []
  | n + 1, v => BitVec.ofNat 8 v :: bytesOfNat n (v / 256)

/-- Bytes at consecutive keys. -/
def cellsAt (k : Nat) (bs : List Byte) : List (Nat × Byte) := (bs.mapIdx (fun i b => (k + i, b)))

def State.readNat (s : State) (k n : Nat) : Nat := natOfBytes (s.bytes k n)

def State.writeNat (s : State) (k n v : Nat) : State := s.setCells (cellsAt k (bytesOfNat n v))

/-! ### Poison (R258, R259) -/

/-- A granule is 64 bytes; its index is the key over 64. -/
def granule (k : Nat) : Nat := k / 64

/-- Whether two lists share a member. -/
def overlaps (a b : List Nat) : Bool := a.any (fun k => b.contains k)

def State.poisoned (s : State) (k : Nat) : Bool := s.poison.contains (granule k)

/-- Whether a read of a key consumes or reports poison: its granule is poisoned, or its error is uncorrectable (R258). -/
def State.unreadable (s : State) (k : Nat) : Bool := s.poisoned k || s.flaws.find (granule k) == some true

/-- Insert into a rising list. -/
def insertNat (n : Nat) : List Nat → List Nat
  | [] => [n]
  | m :: ms => if n < m then n :: m :: ms else if n = m then m :: ms else m :: insertNat n ms

def State.poisonGranule (s : State) (g : Nat) : State := { s with poison := insertNat g s.poison }

def State.unpoison (s : State) (g : Nat) : State := { s with poison := s.poison.filter (· != g) }

/-- Keep the first of each. -/
def dedup : List Nat → List Nat
  | [] => []
  | a :: as => a :: (dedup as).filter (· != a)

/-- A write in one operation (R259), judged granule by granule: a poisoned granule it covers is cleared, one it covers
in part keeps its bytes. An error in a granule that it covers is gone (R258). The second result names the first key that
was refused. DEDUCED (log 37). -/
def State.store (s : State) (cells : List (Nat × Byte)) : State × Option Nat :=
  if s.poison = [] ∧ s.flaws = [] then (s.setCells cells, none)
  else
    let keys := dedup (cells.map Prod.fst)
    let full (g : Nat) : Bool := (keys.filter (fun k => granule k == g)).length == 64
    let bad (k : Nat) : Bool := s.poisoned k && !full (granule k)
    let good := cells.filter (fun c => !bad c.1)
    let s' := s.setCells good
    ({ s' with
        poison := s'.poison.filter (fun g => !(keys.any (fun k => granule k == g) && full g))
        flaws := s'.flaws.filter (fun f => !full f.1) },
      keys.find? bad)

/-! ### Slab addresses (R29, R30, R166) -/

/-- The course of a core (R13). -/
def courseOf (core : Nat) : Nat := core / 8

def State.course (s : State) (n : Nat) : Course := SMap.get Course.reset s.courses n

def State.setCourse (s : State) (n : Nat) (c : Course) : State :=
  { s with courses := SMap.setD Course.reset s.courses n c }

/-- The key of a slab access of `len` bytes at a slab address, as the core names it: its alias or a Wall window
(Table 1.5). The odd window of a twin pair faults (R349). DEDUCED (log 16). -/
def State.slab (s : State) (core : Nat) (a : Nat) (len : Nat) : Option Nat :=
  if a + len ≤ slabSize then some (slabKey core a)
  else if 0x20000000 ≤ a ∧ a < 0x40000000 then
    let n := (a - 0x20000000) / 0x200000
    let off := (a - 0x20000000) % 0x200000
    if off + len ≤ slabSize ∧ !((s.course (courseOf n)).twin && n % 2 == 1) then some (slabKey n off) else none
  else none

/-- An own-slab access (Table 7.1). -/
def State.ownSlab (s : State) (core : Nat) (a : Nat) (len : Nat) : Option Nat :=
  match s.slab core a len with
  | some k => if coreOfKey k = some core then some k else none
  | none => none

/-- The bank of a slab key (R31). -/
def bankOf (k : Nat) : Nat := k / 64 % 32

/-- The bank group of a slab key (R31). -/
def groupOf (k : Nat) : Nat := k / 1024 % 2

/-! ### Translation (R266 to R268) -/

/-- Table 13.3. -/
def xNone : BitVec 4 := 0
def xNomap : BitVec 4 := 1
def xFormat : BitVec 4 := 2
def xPerm : BitVec 4 := 3
def xRange : BitVec 4 := 4
def xPeer : BitVec 4 := 5
def xHost : BitVec 4 := 6
def xAtomic : BitVec 4 := 7
def xPoison : BitVec 4 := 8

/-- HBM and the reserved region (R262). -/
def hbmReserved : Nat := 0x9402F90000
def hbmEnd : Nat := 0x9502F90000

/-- A level of Table 13.1: the low bit of its index, its entries, the size of the next table, and whether a leaf may
stand here. -/
structure Level where
  lo : Nat
  entries : Nat
  next : Nat
  leafOk : Bool
  deriving DecidableEq, Repr

/-- L4 to L0 (Table 13.1). -/
def levels : List Level :=
  [⟨48, 256, 4096, false⟩, ⟨39, 512, 4096, false⟩, ⟨30, 512, 4096, true⟩, ⟨21, 512, 256, true⟩, ⟨16, 32, 0, true⟩]

/-- A leaf as the walk found it. -/
structure LeafEntry where
  entry : DWord
  size : Nat
  deriving DecidableEq, Repr

/-- The address in an entry (R267). -/
def entryAddr (e : DWord) : Nat := (e &&& 0x000FFFFFFFFFFF00).toNat

def entryTgt (e : DWord) : Nat := (e.extractLsb' 6 2).toNat
def entryDev (e : DWord) : Nat := (e.extractLsb' 52 8).toNat

/-- The reserved bits of an entry that is not a leaf, or of a leaf by its target (Table 13.2). -/
def entryReserved (leaf : Bool) (e : DWord) : Bool :=
  e.extractLsb' 60 4 != 0 ||
    (if leaf then
      match entryTgt e with
      | 0 => e.extractLsb' 52 8 != 0 || e.getLsbD 5
      | 1 => e.extractLsb' 53 7 != 0
      | 2 => e.getLsbD 5
      | _ => true
    else e.extractLsb' 52 8 != 0 || e.extractLsb' 2 6 != 0)

/-- The walk (R268): the leaf of an address, or the cause of the first failure. -/
def State.walkFrom (s : State) (va : Nat) : List Level → Nat → Except (BitVec 4) LeafEntry
  | [], _ => .error xFormat
  | l :: ls, base =>
    let k := hbmKey (base + 8 * (va / 2 ^ l.lo % l.entries))
    if s.unreadable k then .error xPoison
    else
      let e : DWord := BitVec.ofNat 64 (s.readNat k 8)
      if !e.getLsbD 0 then .error xNomap
      else if e.getLsbD 1 then
        if !l.leafOk || entryReserved true e || entryAddr e % 2 ^ l.lo != 0 then .error xFormat
        else .ok ⟨e, 2 ^ l.lo⟩
      else if l.next = 0 ∨ entryReserved false e ∨ entryAddr e % l.next ≠ 0 ∨ entryAddr e < hbmReserved ∨
          hbmEnd < entryAddr e + l.next then .error xFormat
      else s.walkFrom va ls (entryAddr e)

/-- The right an access needs (R268). -/
def grants (e : DWord) : AccessKind → Bool
  | .read => e.getLsbD 2
  | .write => e.getLsbD 3
  | .amo => e.getLsbD 2 && e.getLsbD 3
  | .red => e.getLsbD 3
  | .fetch => e.getLsbD 4

def State.port (s : State) (n : Nat) : Port := SMap.get Port.reset s.ports n

def State.setPort (s : State) (n : Nat) (p : Port) : State := { s with ports := SMap.setD Port.reset s.ports n p }

/-- The links by number (PORTk, Table 19.4): scale-up ports 0 to 11, die-to-die links 12 to 17, host links 18 and 19. -/
def scaleUpLink (p : Nat) : Nat := p
def hostLink (h : Nat) : Nat := 18 + h

/-- Whether some port of a peer's route is up (R338). -/
def State.reaches (s : State) (dev : Nat) : Bool :=
  match s.routes.find dev with
  | some m => (List.range 12).any (fun p => m.getLsbD p && (s.port (scaleUpLink p)).up)
  | none => false

/-- Where a leaf sends an address, when it grants the access (R268). -/
def State.leafKey (s : State) (l : LeafEntry) (va : Nat) (acc : AccessKind) : Except (BitVec 4) Nat :=
  let e := l.entry
  let pa := entryAddr e + va % l.size
  let dev := entryDev e
  match entryTgt e with
  | 0 =>
    if hbmReserved < entryAddr e + l.size then .error xRange
    else if !grants e acc then .error xPerm
    else .ok (hbmKey pa)
  | 1 =>
    if !grants e acc then .error xPerm
    else if !(s.port (hostLink (dev % 2))).up || !Config.hostGrants (dev % 2) pa then .error xHost
    else .ok (hostKey (dev % 2) pa)
  | _ =>
    if dev = s.devid ∨ (s.routes.find dev).isNone then .error xRange
    else if !grants e acc then .error xPerm
    else if !s.reaches dev || !Config.peerGrants dev pa then .error xPeer
    else .ok (peerKey dev pa)

/-- A translation that a cache holds for an address. -/
def State.cached (s : State) (space va : Nat) : Option LeafEntry :=
  (s.tlb.find? (fun e => e.space == space && decide (e.va ≤ va) && decide (va < e.va + e.size))).map
    (fun e => ⟨e.entry, e.size⟩)

/-- Translate a device virtual address in an open space (R268): by an entry that a cache still holds (R269), else by a
walk. DESIGN CHOICE (log 17). -/
def State.translate (s : State) (space : Nat) (va : Nat) (acc : AccessKind) : Except (BitVec 4) Nat :=
  match s.spaces.find space with
  | none => .error xNomap
  | some sp =>
    match s.cached space va with
    | some l => s.leafKey l va acc
    | none =>
      match s.walkFrom va levels sp.root with
      | .error c => .error c
      | .ok l => s.leafKey l va acc

/-- The leaf that the tables of a space hold for an address. -/
def State.leafOf (s : State) (space va : Nat) : Except (BitVec 4) LeafEntry :=
  match s.spaces.find space with
  | none => .error xNomap
  | some sp => s.walkFrom va levels sp.root

/-- The walker fetches a translation into a cache; a failed one is never cached (R269). DESIGN CHOICE (log 17). -/
def State.cacheWalk (s : State) (space va : Nat) : State :=
  match s.spaces.find space with
  | none => s
  | some sp =>
    match s.cached space va, s.walkFrom va levels sp.root with
    | none, .ok l => { s with tlb := s.tlb ++ [⟨space, va - va % l.size, l.size, l.entry⟩] }
    | _, _ => s

/-- Translate `n` consecutive addresses; the first failure with its address. Addresses count modulo 2^56: what an access that
begins below 2^56 has beyond it lies at 0. DESIGN CHOICE (log 62). -/
def State.translateRange (s : State) (space : Nat) (acc : AccessKind) : Nat → Nat → Except (BitVec 4 × Nat) (List Nat)
  | _, 0 => .ok []
  | va, n + 1 =>
    match s.translate space (va % 2 ^ 56) acc with
    | .error c => .error (c, va % 2 ^ 56)
    | .ok k =>
      match State.translateRange s space acc (va + 1) n with
      | .error e => .error e
      | .ok ks => .ok (k :: ks)

end Sys2Proof.Machine
end

