-- ==== Sys2Proof/Machine/Numerics.lean ====
section
/-! DEFINITION. Number formats, rounding and the helpers of Table 4.8 (ch. 4). Every finite value is an exact dyadic
number m × 2^e; a quotient or a root is carried with a last bit that says whether it is inexact, far below the last
bit that any rounding looks at, so that each result is rounded once. -/

namespace Sys2Proof.Machine

/-- A floating-point format (Table 4.1): exponent bits, fraction bits, bias. -/
structure Fmt where
  e : Nat
  f : Nat
  bias : Nat
  deriving DecidableEq, Repr

def Fmt.f64 : Fmt := ⟨11, 52, 1023⟩
def Fmt.f32 : Fmt := ⟨8, 23, 127⟩
def Fmt.f16 : Fmt := ⟨5, 10, 15⟩
def Fmt.bf16 : Fmt := ⟨8, 7, 127⟩
def Fmt.h8 : Fmt := ⟨4, 3, 8⟩

def Fmt.width (F : Fmt) : Nat := 1 + F.e + F.f
def Fmt.p (F : Fmt) : Nat := F.f + 1
def Fmt.emin (F : Fmt) : Int := 1 - F.bias
/-- The all-ones exponent. -/
def Fmt.top (F : Fmt) : Nat := 2 ^ F.e - 1
def Fmt.sign (F : Fmt) (neg : Bool) : Nat := if neg then 2 ^ (F.e + F.f) else 0
def Fmt.inf (F : Fmt) (neg : Bool) : Nat := F.sign neg + F.top * 2 ^ F.f
def Fmt.maxFinite (F : Fmt) (neg : Bool) : Nat := F.sign neg + F.top * 2 ^ F.f - 1
def Fmt.zero (F : Fmt) (neg : Bool) : Nat := F.sign neg
/-- The canonical NaN (R91). -/
def Fmt.canon (F : Fmt) : Nat := F.top * 2 ^ F.f + 2 ^ (F.f - 1)

/-- The rounding modes (R97). -/
inductive Rm where
  | rne | rtz | rup | rdn | rmm
  deriving DecidableEq, Repr

/-- FPCTL.RM (Table 4.4); a WRC never leaves 5 to 7 there (R96). -/
def Rm.of (b : BitVec 3) : Rm :=
  if b = 1 then .rtz else if b = 2 then .rup else if b = 3 then .rdn else if b = 4 then .rmm else .rne

/-- Flags in the order of FPSW[4:0] (Table 4.6). -/
abbrev Flags := BitVec 5
def nvF : Flags := 1
def dzF : Flags := 2
def ofF : Flags := 4
def ufF : Flags := 8
def nxF : Flags := 16

/-- The value of a pattern (Table 4.2). A zero keeps its sign in `neg` with m = 0. -/
inductive Num where
  | nan (signalling : Bool)
  | inf (neg : Bool)
  | fin (neg : Bool) (m : Nat) (e : Int)
  deriving DecidableEq, Repr

def Num.isNan : Num → Bool
  | .nan _ => true
  | _ => false
def Num.isSnan : Num → Bool
  | .nan s => s
  | _ => false
def Num.isInf : Num → Bool
  | .inf _ => true
  | _ => false
def Num.isZero : Num → Bool
  | .fin _ 0 _ => true
  | _ => false
def Num.neg : Num → Bool
  | .nan _ => false
  | .inf n => n
  | .fin n _ _ => n
/-- The number with its sign inverted. -/
def Num.negate : Num → Num
  | .nan s => .nan s
  | .inf n => .inf (!n)
  | .fin n m e => .fin (!n) m e
def Num.abs : Num → Num
  | .nan s => .nan s
  | .inf _ => .inf false
  | .fin _ m e => .fin false m e

/-- R90. -/
def Fmt.value (F : Fmt) (b : Nat) : Num :=
  let fr := b % 2 ^ F.f
  let ex := b / 2 ^ F.f % 2 ^ F.e
  let neg := b / 2 ^ (F.e + F.f) % 2 == 1
  if ex = F.top then
    if fr = 0 then .inf neg else .nan (fr / 2 ^ (F.f - 1) % 2 == 0)
  else if ex = 0 then .fin neg fr (F.emin - F.f)
  else .fin neg (fr + 2 ^ F.f) ((ex : Int) - F.bias - F.f)

/-- exponent(x) of a magnitude m × 2^e with m > 0. -/
def expOf (m : Nat) (e : Int) : Int := (Nat.log2 m : Int) + e

/-- The multiple of 2^q that a mode takes for the magnitude m × 2^e, over 2^q, and whether it is inexact (R97). -/
def roundAt (rm : Rm) (neg : Bool) (m : Nat) (e q : Int) : Nat × Bool :=
  if q ≤ e then (m * 2 ^ (e - q).toNat, false)
  else
    let sh := (q - e).toNat
    let y := m / 2 ^ sh
    let r := m % 2 ^ sh
    let half := 2 ^ (sh - 1)
    let up : Bool := match rm with
      | .rne => decide (half < r) || (r == half && y % 2 == 1)
      | .rmm => decide (half ≤ r)
      | .rtz => false
      | .rup => !neg && r != 0
      | .rdn => neg && r != 0
    (if up then y + 1 else y, r != 0)

/-- Whether y × 2^q is below 2^k. -/
def below (y : Nat) (q k : Int) : Bool :=
  y == 0 || decide (expOf y q < k)

/-- The pattern of the magnitude y × 2^q, q at or above the spacing of the format, y × 2^q at most the largest finite. -/
def Fmt.pack (F : Fmt) (neg : Bool) (y : Nat) (q : Int) : Nat :=
  if y = 0 then F.zero neg
  else
    let x := expOf y q
    if x < F.emin then F.sign neg + y * 2 ^ (q - (F.emin - F.f)).toNat
    else
      let fr := y * 2 ^ F.f / 2 ^ (Nat.log2 y) - 2 ^ F.f
      F.sign neg + (x + F.bias).toNat * 2 ^ F.f + fr

/-- Table 4.5. -/
def Fmt.overflow (F : Fmt) (rm : Rm) (neg : Bool) : Nat :=
  match rm with
  | .rne => F.inf neg
  | .rmm => F.inf neg
  | .rtz => F.maxFinite neg
  | .rup => if neg then F.maxFinite true else F.inf false
  | .rdn => if neg then F.inf true else F.maxFinite false

/-- round(x, fmt, rm) of the magnitude m × 2^e with a sign (R97, R98). -/
def Fmt.round (F : Fmt) (rm : Rm) (neg : Bool) (m : Nat) (e : Int) : Nat × Flags :=
  if m = 0 then (F.zero neg, 0)
  else
    let x := expOf m e
    let q := max x F.emin - F.f
    let (y, ix) := roundAt rm neg m e q
    let (yu, _) := roundAt rm neg m e (x - F.f)
    if x ≥ F.emin ∧ expOf y q > (F.bias : Int) + (if F.top = 2 * F.bias + 1 then 0 else (F.top : Int) - 2 * F.bias - 1) then
      (F.overflow rm neg, ofF ||| nxF)
    else
      let tiny := below yu (x - F.f) F.emin
      (F.pack neg y q, (if ix then nxF else 0) ||| (if ix && tiny then ufF else 0))

/-- A signed exact dyadic number m × 2^e. -/
structure Dy where
  m : Int
  e : Int
  deriving DecidableEq, Repr

def Dy.zero : Dy := ⟨0, 0⟩

/-- m × 2^(e − k) for k ≤ e. -/
def Dy.at (x : Dy) (k : Int) : Int := x.m * 2 ^ (x.e - k).toNat

def Dy.add (a b : Dy) : Dy :=
  if a.m = 0 then b else if b.m = 0 then a else
  let k := min a.e b.e
  ⟨a.at k + b.at k, k⟩

def Dy.mul (a b : Dy) : Dy := ⟨a.m * b.m, a.e + b.e⟩
def Dy.neg (a : Dy) : Dy := ⟨-a.m, a.e⟩
def Dy.abs (a : Dy) : Dy := ⟨a.m.natAbs, a.e⟩
/-- a < b as reals. -/
def Dy.lt (a b : Dy) : Bool := let k := min a.e b.e; decide (a.at k < b.at k)
def Dy.le (a b : Dy) : Bool := !(Dy.lt b a)
def Dy.eq (a b : Dy) : Bool := let k := min a.e b.e; a.at k == b.at k

/-- The exact value of a finite number. -/
def Num.dy : Num → Dy
  | .fin neg m e => ⟨if neg then -(m : Int) else m, e⟩
  | _ => Dy.zero

/-- round(x, fmt, rm) of an exact number; `z` is the sign of a zero. -/
def Fmt.roundDy (F : Fmt) (rm : Rm) (x : Dy) (z : Bool) : Nat × Flags :=
  if x.m = 0 then (F.zero z, 0) else F.round rm (decide (x.m < 0)) x.m.natAbs x.e

/-- Whether a number is subnormal in a format. -/
def Fmt.isSub (F : Fmt) : Num → Bool
  | .fin _ m e => m != 0 && below m e F.emin
  | _ => false

/-- flush_in (R99). -/
def Fmt.flushIn (F : Fmt) (f : Bool) (x : Num) : Num :=
  if f && F.isSub x then .fin x.neg 0 0 else x

/-- flush_out (R99). -/
def Fmt.flushOut (F : Fmt) (f : Bool) (r : Nat × Flags) : Nat × Flags :=
  if f && F.isSub (F.value r.1) then (F.zero (F.value r.1).neg, r.2 ||| ufF ||| nxF) else r

/-- The value of a source operand after FTZI. -/
def Fmt.operand (F : Fmt) (ftzi : Bool) (b : Nat) : Num := F.flushIn ftzi (F.value b)

/-- The canonical NaN with NV: an invalid operation (R103). -/
def Fmt.invalid (F : Fmt) : Nat × Flags := (F.canon, nvF)

/-- A NaN operand (R103): the canonical NaN, NV when one is signalling. -/
def Fmt.nanOf (F : Fmt) (xs : List Num) : Option (Nat × Flags) :=
  if xs.any Num.isNan then some (F.canon, if xs.any Num.isSnan then nvF else 0) else none

/-- R104: the sign of a zero sum. -/
def zeroSumSign (rm : Rm) (a b : Num) : Bool :=
  if a.isZero && b.isZero && a.neg == b.neg then a.neg else rm == .rdn

/-- The sum of two values that are no NaN. -/
def Fmt.sum (F : Fmt) (rm : Rm) (a b : Num) : Nat × Flags :=
  match a, b with
  | .inf x, .inf y => if x = y then (F.inf x, 0) else F.invalid
  | .inf x, _ => (F.inf x, 0)
  | _, .inf y => (F.inf y, 0)
  | a, b => F.roundDy rm (a.dy.add b.dy) (zeroSumSign rm a b)

def Fmt.add (F : Fmt) (rm : Rm) (a b : Num) : Nat × Flags :=
  match F.nanOf [a, b] with
  | some r => r
  | none => F.sum rm a b

def Fmt.sub (F : Fmt) (rm : Rm) (a b : Num) : Nat × Flags := F.add rm a b.negate

/-- The exact product of two values that are no NaN; none when it is 0 × ∞. -/
def Num.prod (a b : Num) : Option Num :=
  let neg := a.neg != b.neg
  match a, b with
  | .fin _ m e, .fin _ m' e' => some (.fin neg (m * m') (e + e'))
  | a, b => if a.isZero || b.isZero then none else some (.inf neg)

def Fmt.mul (F : Fmt) (rm : Rm) (a b : Num) : Nat × Flags :=
  match F.nanOf [a, b] with
  | some r => r
  | none =>
    match a.prod b with
    | none => F.invalid
    | some (.inf n) => (F.inf n, 0)
    | some x => F.roundDy rm x.dy x.neg

/-- a × b + c with one rounding. DEDUCED (log 18): 0 × ∞ is invalid whatever c is. -/
def Fmt.fma (F : Fmt) (rm : Rm) (a b c : Num) : Nat × Flags :=
  if a.isNan || b.isNan then (F.canon, if a.isSnan || b.isSnan || c.isSnan then nvF else 0)
  else
    match a.prod b with
    | none => F.invalid
    | some x => F.add rm x c

/-- The exact quotient of two nonzero magnitudes to at least n bits, the last bit telling an inexact quotient. -/
def quotient (n : Nat) (m : Nat) (e : Int) (m' : Nat) (e' : Int) : Nat × Int :=
  let k := n + Nat.log2 m' - Nat.log2 m
  let q := m * 2 ^ k / m'
  let r := m * 2 ^ k % m'
  (2 * q + (if r = 0 then 0 else 1), e - e' - k - 1)

/-- A quotient rounded once (R103, R107). -/
def Fmt.div (F : Fmt) (rm : Rm) (a b : Num) : Nat × Flags :=
  match F.nanOf [a, b] with
  | some r => r
  | none =>
    let neg := a.neg != b.neg
    match a, b with
    | .inf _, .inf _ => F.invalid
    | .inf _, _ => (F.inf neg, 0)
    | _, .inf _ => (F.zero neg, 0)
    | .fin _ m e, .fin _ m' e' =>
      if m' = 0 then (if m = 0 then F.invalid else (F.inf neg, dzF))
      else if m = 0 then (F.zero neg, 0)
      else let (q, k) := quotient (F.p + 4) m e m' e'; F.round rm neg q k
    | _, _ => F.invalid

/-- The integer square root, by its bits from bit b − 1 downward. -/
def isqrtFrom (n : Nat) : Nat → Nat → Nat
  | 0, r => r
  | b + 1, r => isqrtFrom n b (if (r + 2 ^ b) * (r + 2 ^ b) ≤ n then r + 2 ^ b else r)

def isqrt (n : Nat) : Nat := isqrtFrom n (Nat.log2 n / 2 + 1) 0

/-- sqrt(m × 2^e) to at least n bits, the last bit telling an inexact root. -/
def root (n : Nat) (m : Nat) (e : Int) : Nat × Int :=
  let k := 2 * n + (if e % 2 = 0 then 0 else 1)
  let x := m * 2 ^ k
  let r := isqrt x
  (2 * r + (if r * r = x then 0 else 1), (e - k) / 2 - 1)

def Fmt.sqrt (F : Fmt) (rm : Rm) (a : Num) : Nat × Flags :=
  match F.nanOf [a] with
  | some r => r
  | none =>
    match a with
    | .inf false => (F.inf false, 0)
    | .fin neg 0 _ => (F.zero neg, 0)
    | .fin false m e => let (r, k) := root (F.p + 4) m e; F.round rm false r k
    | _ => F.invalid

/-- fp_add (Table 4.8): an infinite c stays; otherwise one rounded sum. -/
def Fmt.fpAdd (F : Fmt) (rm : Rm) (c t : Num) : Nat × Flags :=
  match c with
  | .inf n => (F.inf n, 0)
  | c => F.sum rm c t

/-- scale_narrow (R107): one rounding of x / s to the destination format. -/
def scaleNarrow (F : Fmt) (rm : Rm) (x s : Num) : Nat × Flags := F.div rm x s

/-- Numbers as an order key for compares of values that are no NaN: −0 equals +0. -/
def Num.lt (a b : Num) : Bool :=
  match a, b with
  | .inf true, .inf true => false
  | .inf true, _ => true
  | _, .inf true => false
  | .inf false, _ => false
  | _, .inf false => true
  | a, b => a.dy.lt b.dy

def Num.eq (a b : Num) : Bool := !(a.lt b) && !(b.lt a)

/-- The order of R145: −0 is below +0. -/
def Num.ltSigned (a b : Num) : Bool :=
  a.lt b || (a.isZero && b.isZero && a.neg && !b.neg)

/-- An exact number rounded to an integer by a mode, and whether that changed it. -/
def Dy.toInt (x : Dy) (rm : Rm) : Int × Bool :=
  let neg := decide (x.m < 0)
  let (y, ix) := roundAt rm neg x.m.natAbs x.e 0
  (if neg then -(y : Int) else y, ix)

/-- Range of an integer format of w bits. -/
def intMin (signed : Bool) (w : Nat) : Int := if signed then -(2 ^ (w - 1)) else 0
def intMax (signed : Bool) (w : Nat) : Int := if signed then 2 ^ (w - 1) - 1 else 2 ^ w - 1

/-- sat(x, T). -/
def sat (signed : Bool) (w : Nat) (x : Int) : Int := max (intMin signed w) (min (intMax signed w) x)

/-- The pattern of an integer in w bits: wrap. -/
def wrapInt (w : Nat) (x : Int) : Nat := (x % (2 ^ w : Int)).toNat

/-- A pattern of w bits read as an integer. -/
def toIntW (signed : Bool) (w : Nat) (b : Nat) : Int :=
  if signed && 2 ^ (w - 1) ≤ b then (b : Int) - 2 ^ w else b

/-- cvt_int (Table 4.8). -/
def cvtInt (signed : Bool) (w : Nat) (rm : Rm) (x : Num) : Nat × Flags :=
  match x with
  | .nan _ => (0, nvF)
  | .inf neg => (wrapInt w (if neg then intMin signed w else intMax signed w), nvF)
  | x =>
    let (n, ix) := x.dy.toInt rm
    if n < intMin signed w ∨ intMax signed w < n then (wrapInt w (sat signed w n), nvF)
    else (wrapInt w n, if ix then nxF else 0)

/-- trunc_to(x, 2^u) and its NX (Table 4.8). -/
def Dy.truncTo (x : Dy) (u : Int) : Dy × Flags :=
  let (y, ix) := roundAt .rtz false x.m.natAbs x.e u
  (⟨if x.m < 0 then -(y : Int) else y, u⟩, if ix then nxF else 0)

/-- cg32 (R109). -/
def cg32 (key : DWord) (n : BitVec 32) : BitVec 32 :=
  let h := n + key.extractLsb' 0 32
  let h := h ^^^ (h >>> 16)
  let h := h * 0x7FEB352D
  let h := h ^^^ (h >>> 15)
  let h := h * 0x846CA68B
  let h := h ^^^ (h >>> 16)
  h ^^^ key.extractLsb' 32 32

end Sys2Proof.Machine
end

