-- ==== Sys2Proof/Machine/Regs.lean ====
section
/-! DEFINITION. Cores, contexts and their registers: the accessors, reads at issue (R66, R83), results on their way and
their landing (R83, R84), flags (R101) and the free values of unpredictable reads (R10). -/

namespace Sys2Proof.Machine

/-! ### Cores and contexts -/

def State.core (s : State) (n : Nat) : Core := SMap.get Core.reset s.cores n

def State.setCore (s : State) (n : Nat) (c : Core) : State := { s with cores := SMap.setD Core.reset s.cores n c }

def Core.ctx (k : Core) (one : Bool) : Ctx := if one then k.ctx1 else k.ctx0

def Core.setCtx (k : Core) (one : Bool) (c : Ctx) : Core := if one then { k with ctx1 := c } else { k with ctx0 := c }

def State.ctx (s : State) (c : CtxId) : Ctx := (s.core c.core).ctx c.one

def State.setCtx (s : State) (c : CtxId) (x : Ctx) : State := s.setCore c.core ((s.core c.core).setCtx c.one x)

def State.updCtx (s : State) (c : CtxId) (f : Ctx → Ctx) : State := s.setCtx c (f (s.ctx c))

/-- The context that issues. -/
def State.here (s : State) : Ctx := s.ctx s.cur

def State.setHere (s : State) (x : Ctx) : State := s.setCtx s.cur x

def State.upd (s : State) (f : Ctx → Ctx) : State := s.setHere (f s.here)

/-- The core of the context that issues. -/
def State.myCore (s : State) : Core := s.core s.cur.core

def State.updCore (s : State) (n : Nat) (f : Core → Core) : State := s.setCore n (f (s.core n))

/-- The clock cycle of the issuing core (R14). -/
def State.cycle (s : State) : Nat := s.myCore.cycle

/-- The other context of a core. -/
def otherCtx (c : CtxId) : CtxId := ⟨c.core, !c.one⟩

/-- The number of a context in its core. -/
def ctxNum (c : CtxId) : Nat := if c.one then 1 else 0

/-- The address space of a core (R35, R362). -/
def State.spaceOf (s : State) (core : Nat) : Option Nat := (s.core core).tag

/-- A number that names an operation: rising from step to step, and by slot within one (R239). -/
def State.freshId (s : State) : Nat := 16 * s.tick + s.slot

/-! ### Parts -/

/-- A list of bits as a number, the first lowest. -/
def natOfBits : List Bool → Nat
  | [] => 0
  | b :: bs => (if b then 1 else 0) + 2 * natOfBits bs

/-- The bytes of a part set to all ones. -/
def byteMask (m : Part) : Vec :=
  BitVec.ofNat 1024 (natOfBytes ((List.range 128).map (fun i => if m.getLsbD i then 0xFF else 0)))

/-- Every byte of a vector register, every bit of a predicate is within it. -/
def wholePart : Part := BitVec.allOnes 128

/-- The bytes of the 32-bit lanes of a mask. -/
def lanePart (g : BitVec 32) : Part := BitVec.ofNat 128 (natOfBits ((List.range 128).map (fun i => g.getLsbD (i / 4))))

/-- The bytes of the elements of `w` bits that are active. -/
def elemPart (w : Nat) (act : Nat → Bool) : Part :=
  BitVec.ofNat 128 (natOfBits ((List.range 128).map (fun i => act (8 * i / w))))

/-- The bits of a predicate. -/
def bitPart (g : BitVec 32) : Part := g.setWidth 128

/-- The whole of a destination. -/
def Dest.whole : Dest → Part
  | .v _ => wholePart
  | .p _ => bitPart (BitVec.allOnes 32)
  | _ => 1

/-- The bits of a destination's value that a part names. -/
def Dest.maskOf (d : Dest) (m : Part) : Vec :=
  match d with
  | .v _ => byteMask m
  | .p _ => m.setWidth 1024
  | _ => if m.getLsbD 0 then BitVec.allOnes 1024 else 0

/-- `new` in the part, `old` elsewhere. -/
def Dest.mix (d : Dest) (old new : Vec) (m : Part) : Vec :=
  (old &&& ~~~(d.maskOf m)) ||| (new &&& d.maskOf m)

/-! ### Reading registers -/

/-- What a register holds. -/
def Ctx.stored (c : Ctx) : Dest → Vec
  | .s r => (SMap.get 0 c.s r.toNat).setWidth 1024
  | .v r => SMap.get 0 c.v r.toNat
  | .p r => (SMap.get 0 c.p r.toNat).setWidth 1024
  | .x r => (SMap.get 0 c.x r.toNat).setWidth 1024
  | .bn r => (SMap.get 0 c.bn r.toNat).setWidth 1024
  | .cr _ _ => 0

/-- A number for each register, so that their free values differ. -/
def Dest.site : Dest → Nat
  | .s r => r.toNat
  | .v r => 64 + r.toNat
  | .p r => 96 + r.toNat
  | .x r => 112 + r.toNat
  | .bn r => 128 + r.toNat
  | .cr _ _ => 136

/-- The part of a register whose read is unpredictable: a result within its bound (R83), an entry that the IFQ holds
(R300), or what an unwind left (R305). `own` says that the reader's bundle is issuing: its own results do not count
(R66). DEDUCED (log 3). -/
def Ctx.pending (c : Ctx) (cycle : Nat) (own : Bool) (d : Dest) : Part :=
  let held := (match c.trap with | some t => t.ifq | none => []) ++ c.ifq
  let exposed (f : Flight) : Bool :=
    f.dest == d && (!f.landed || decide (cycle < f.due)) && !(own && f.seq == c.seq)
  (c.flight.foldl (fun m f => if exposed f then m ||| f.lanes else m) 0) |||
    (held.foldl (fun m e => if e.dest = d then m ||| e.lanes else m) 0) ||| SMap.get 0 c.unpred d.site

/-- A free value (log 5). -/
def State.free (s : State) (site : Nat) : Vec := Config.unpredictable s.tick (1024 * s.slot + site)

/-- A register as a slot reads it at issue (R66, R83). -/
def State.read (s : State) (d : Dest) : Vec :=
  let m := s.here.pending s.cycle s.granted d
  if m = 0 then s.here.stored d else d.mix (s.here.stored d) (s.free d.site) m

/-- s0 reads as 0 (R27). -/
def State.readS (s : State) (r : BitVec 6) : DWord := if r = 0 then 0 else (s.read (.s r)).setWidth 64

def State.readV (s : State) (r : BitVec 5) : Vec := s.read (.v r)

/-- p0 reads as all ones (R27). -/
def State.readP (s : State) (r : BitVec 4) : BitVec 32 := if r = 0 then BitVec.allOnes 32 else (s.read (.p r)).setWidth 32

def State.readX (s : State) (r : BitVec 4) : BitVec 32 := (s.read (.x r)).setWidth 32

def State.readBn (s : State) (r : BitVec 3) : BitVec 448 := (s.read (.bn r)).setWidth 448

/-- The guard of a slot, inverted where GINV is 1 (R24). -/
def State.guard (s : State) (n : Bool) (g : BitVec 4) : BitVec 32 := if n then ~~~(s.readP g) else s.readP g

/-! ### Faults that are detected late -/

/-- Record a fault against the bundle at issue (R299). -/
def State.late (s : State) (cause : BitVec 8) (detail : BitVec 128) : State :=
  s.upd (fun c => { c with late := c.late ++ [⟨c.seq, s.slot, s.heldNow, c.pc, cause, detail, none⟩] })

/-- FPCTL.RM at issue (R66). -/
def State.rm (s : State) : Rm := Rm.of (s.here.fpctl.extractLsb' 0 3)

/-- The enabled ones among some flags (R102, Table 4.4). -/
def enabledFlags (fpctl : BitVec 32) (f : Flags) : Flags := f &&& fpctl.extractLsb' 8 5

/-- The array operation, the memory operation or the copy that has faulted. -/
def LateFault.array (f : LateFault) : Option ArrayOp := match f.op with | some (.array a) => some a | _ => none
def LateFault.mem (f : LateFault) : Option MemOp := match f.op with | some (.mem o) => some o | _ => none
def LateFault.copy (f : LateFault) : Option (BitVec 4 × CopyCmd) := match f.op with | some (.copy i q) => some (i, q) | _ => none

/-- FPX (R102). -/
def causeFpx : BitVec 8 := 0x0B

/-! ### Results -/

/-- A later result to the same destination takes over its part (R84). -/
def Flight.overtaken (d : Dest) (m : Part) (f : Flight) : Flight :=
  if f.dest = d then { f with live := f.live &&& ~~~m } else f

/-- Whether a result comes later in MASK order than slot `n` of bundle `seq` (R84). -/
def Flight.after (seq n : Nat) (f : Flight) : Bool := f.seq == seq && decide (n < f.slot)

/-- What results to a destination write. -/
def writtenBy (d : Dest) (fs : List Flight) : Part := fs.foldl (fun m f => if f.dest = d then m ||| f.lanes else m) 0

/-- A result takes its place in issue order: it wins over the earlier ones to its part, and the later slots of its own
bundle win over it (R84). -/
def addFlight (f : Flight) (fs : List Flight) : List Flight :=
  let later := fs.filter (Flight.after f.seq f.slot)
  (fs.filter (fun g => !g.after f.seq f.slot)).map (Flight.overtaken f.dest f.lanes) ++
    { f with live := f.lanes &&& ~~~(writtenBy f.dest later) } :: later

/-- A result issues: its bound counts from this cycle (R83), and its enabled flags are a late fault (R102). -/
def State.result (s : State) (lat : Nat) (d : Dest) (v : Vec) (m : Part) (fl : Flags) (src : Option Nat) : State :=
  let s := s.upd (fun c => { c with
    flight := addFlight ⟨c.seq, s.slot, s.cycle + lat, d, v, m, m, fl, src, false⟩ c.flight })
  if enabledFlags s.here.fpctl fl = 0 then s else s.late causeFpx ((enabledFlags s.here.fpctl fl).setWidth 128)

def State.putS (s : State) (lat : Nat) (r : BitVec 6) (v : DWord) (fl : Flags) : State :=
  s.result lat (.s r) (v.setWidth 1024) 1 fl none

def State.putX (s : State) (lat : Nat) (r : BitVec 4) (v : BitVec 32) : State :=
  s.result lat (.x r) (v.setWidth 1024) 1 0 none

def State.putP (s : State) (lat : Nat) (r : BitVec 4) (v m : BitVec 32) (fl : Flags) : State :=
  s.result lat (.p r) (v.setWidth 1024) (bitPart m) fl none

def State.putV (s : State) (lat : Nat) (r : BitVec 5) (v : Vec) (m : Part) (fl : Flags) : State :=
  s.result lat (.v r) v m fl none

/-! ### Landing -/

/-- Write a register; s0 and p0 discard (R27). What is written is no longer what an unwind left (R305). -/
def Ctx.store (c : Ctx) (d : Dest) (v : Vec) (m : Part) : Ctx :=
  let new := d.mix (c.stored d) v m
  let c := { c with unpred := SMap.setD 0 c.unpred d.site (SMap.get 0 c.unpred d.site &&& ~~~m) }
  match d with
  | .s r => if r = 0 then c else { c with s := SMap.setD 0 c.s r.toNat (new.setWidth 64) }
  | .v r => { c with v := SMap.setD 0 c.v r.toNat new }
  | .p r => if r = 0 then c else { c with p := SMap.setD 0 c.p r.toNat (new.setWidth 32) }
  | .x r => { c with x := SMap.setD 0 c.x r.toNat (new.setWidth 32) }
  | .bn r => { c with bn := SMap.setD 0 c.bn r.toNat (new.setWidth 448) }
  | .cr _ _ => c

/-- The context does something that its commit signature covers (R348). -/
def Ctx.commit (c : Ctx) (x : Commit) : Ctx := { c with did := c.did ++ [x] }

/-- OR flags into FPSW[4:0] (R100, R101). -/
def Ctx.orFlags (c : Ctx) (f : Flags) : Ctx := { c.commit (.fpsw f) with fpsw := c.fpsw ||| f.setWidth 32 }

/-- A result lands: its live part is written and its flags are recorded (R84, R101). -/
def Ctx.land (c : Ctx) (f : Flight) : Ctx :=
  ((c.store f.dest f.val f.live).commit (.result f.dest f.val)).orFlags f.flags

/-- A value for the load with this id is known. -/
def Flight.fill (id : Nat) (v : Vec) (f : Flight) : Flight :=
  if f.src = some id then { f with val := v, src := none } else f

/-- Whether an interlocked register result is still outstanding (R300): a non-local LD.S or an AMO. -/
def MemOp.interlocks (o : MemOp) : Option (BitVec 6) :=
  match o.act with
  | .load (.sreg r) => some r
  | .rmw _ _ _ (some r) => some r
  | _ => none

/-- An operation whose register result is discarded (R84). -/
def MemOp.unanswered (o : MemOp) : MemOp :=
  { o with act := match o.act with
    | .load (.sreg _) => .load (.sreg 0)
    | .rmw op d c (some _) => .rmw op d c (some 0)
    | a => a }

/-- A posted operation (R129): a store, RED, FPUSH, FPUSHQ, STQ or ACCST. DEDUCED (log 31). -/
def MemOp.posted (o : MemOp) : Bool :=
  match o.act with
  | .store _ => true
  | .rmw _ _ _ none => true
  | _ => false

/-! ### The statistics queue (R140) -/

/-- A record joins a core's SQ; a full queue loses its oldest record and counts it. -/
def Core.record (k : Core) (r : BitVec 128) : Core :=
  if k.sq.length < 256 then { k with sq := k.sq ++ [r] }
  else { k with sq := k.sq.drop 1 ++ [r], sqOvf := if k.sqOvf = BitVec.allOnes 32 then k.sqOvf else k.sqOvf + 1 }

/-- An SQ record (Table 5.10): `data` stands from bit 64. -/
def sqRecord (one : Bool) (kind : BitVec 8) (pc : DWord) (data : Nat) : BitVec 128 :=
  BitVec.ofNat 128 ((if one then 2 ^ 127 else 0) + data * 2 ^ 64 + kind.toNat * 2 ^ 56 + pc.toNat % 2 ^ 56)

def State.record (s : State) (core : Nat) (r : BitVec 128) : State := s.updCore core (fun k => k.record r)

end Sys2Proof.Machine
end

