-- ==== Sys2Proof/Machine/Flags.lean ====
section
/-! DEFINITION. The flag computations that several instructions share: the union over elements (R144), the compares of
Table 5.2, the minimum and maximum of R145, KSW (R101, R216) and FPSW.AMO (R101). -/

namespace Sys2Proof.Machine

/-- The union of the flags of a list of results (R66, R144). -/
def orAll (fs : List Flags) : Flags := fs.foldl (· ||| ·) 0

/-- NV of a compare that signals only on signalling NaNs (Table 5.2). -/
def quietNv (a b : Num) : Flags := if a.isSnan || b.isSnan then nvF else 0

/-- NV of a compare that signals on any NaN (Table 5.2). -/
def anyNv (a b : Num) : Flags := if a.isNan || b.isNan then nvF else 0

/-- The five relations of the floating-point compares (Table 5.2, R150). -/
inductive Rel where
  | eq | ne | lt | le | un
  deriving DecidableEq, Repr

/-- Whether a relation holds, and NV (Table 5.2, R150). -/
def Rel.fp (r : Rel) (a b : Num) : Bool × Flags :=
  let un := a.isNan || b.isNan
  match r with
  | .eq => (!un && a.eq b, quietNv a b)
  | .ne => (un || !(a.eq b), quietNv a b)
  | .lt => (!un && a.lt b, anyNv a b)
  | .le => (!un && (a.lt b || a.eq b), anyNv a b)
  | .un => (un, quietNv a b)

/-- A relation of integers; integers are never unordered. -/
def Rel.int (r : Rel) (a b : Int) : Bool :=
  match r with
  | .eq => decide (a = b)
  | .ne => decide (a ≠ b)
  | .lt => decide (a < b)
  | .le => decide (a ≤ b)
  | .un => false

/-- The pattern of a flushed operand (R145): a subnormal is a zero of its sign. -/
def Fmt.flushedPattern (F : Fmt) (ftzi : Bool) (b : Nat) : Nat :=
  if ftzi && F.isSub (F.value b) then F.zero (F.value b).neg else b

/-- The minimum or maximum of R145 of two flushed patterns. -/
def Fmt.minMax (F : Fmt) (max : Bool) (pa pb : Nat) : Nat × Flags :=
  let a := F.value pa
  let b := F.value pb
  let nv := quietNv a b
  if a.isNan && b.isNan then (F.canon, nv)
  else if a.isNan then (pb, nv)
  else if b.isNan then (pa, nv)
  else if max then (if a.ltSigned b then pb else pa, nv)
  else (if b.ltSigned a then pb else pa, nv)

/-- OR flags into KSW of a tile (R101); the sixth bit is SAT. -/
def Ctx.orKsw (c : Ctx) (k : Nat) (f : BitVec 6) : Ctx :=
  { c.commit (.ksw k f) with ksw := SMap.setD 0 c.ksw k (SMap.get 0 c.ksw k ||| f.setWidth 32) }

/-- OR the flags of an AMO response into FPSW.AMO; AMO.DZ stays 0 (R101, R176). -/
def Ctx.orAmoFlags (c : Ctx) (f : Flags) : Ctx :=
  { c.commit (.fpsw (f &&& ~~~dzF)) with fpsw := c.fpsw ||| ((f &&& ~~~dzF).setWidth 32 <<< 8) }

end Sys2Proof.Machine
end

