-- ==== Sys2Proof/WellFormed.lean ====
section
/-! DEFINITION. What an instruction's operands must satisfy at decode: the operand rules whose failure is the
illegal-operand trap found in the word itself (R71, R73, R74 to R79, R82). A rule that needs the machine's state is
checked at issue, in Machine/Check.lean. -/

namespace Sys2Proof

/-- The classes of slot words (R80). -/
inductive SlotClass where
  | b
  | s
  | x
  | v
  | m
  | c
  deriving DecidableEq, Repr

/-- Words of a control register, 0 when the number is unassigned (Table 5.3). -/
def crWords (crn : Nat) : Nat :=
  if crn = 0x07 then 4
  else if crn = 0x08 then 5
  else if crn ≤ 0x0E then 1
  else if 0x10 ≤ crn ∧ crn ≤ 0x17 then 1
  else if crn = 0x18 ∨ crn = 0x1A then 2
  else if crn = 0x19 then 1
  else 0

/-- Vector type codes (Table 3.8): F32 or F64. -/
def tyFloat (t : BitVec 3) : Bool := t == 0 || t == 1

/-- INT32, UINT32 or INT64. -/
def tyInt (t : BitVec 3) : Bool := t == 5 || t == 6 || t == 7

/-- F64 or INT64. -/
def ty64 (t : BitVec 3) : Bool := t == 1 || t == 7

/-- A storage type: F16, BF16 or H8. -/
def tyNarrow (t : BitVec 3) : Bool := t == 2 || t == 3 || t == 4

/-- Table 6.2, first and second rows and VREDADD: floats take both flush bits, integers take SAT alone. -/
def wfArith (t : BitVec 3) (f : Bool) : Bool := tyFloat t || (tyInt t && !f)

/-- Table 6.2, VMIN and VMAX and the reductions to them: floats take FTZI, integers nothing. -/
def wfMinMax (t : BitVec 3) (f : Bool) : Bool := tyFloat t || (tyInt t && !f)

/-- Table 6.2, VABS and VNEG: integers take SAT, floats nothing. -/
def wfAbs (t : BitVec 3) (o : Bool) : Bool := (tyFloat t && !o) || tyInt t

/-- R150: the compares. -/
def wfCmp (t : BitVec 3) (f : Bool) : Bool := tyFloat t || (tyInt t && !f)

/-- R155 and Table 6.4: distinct types, not both narrow, and the flush bits of the row. -/
def wfCvt (t s : BitVec 3) (f o : Bool) : Bool :=
  t != s && !(tyNarrow t && tyNarrow s) &&
    (if tyInt s then !f && !o
     else if tyInt t then !o
     else if s == 3 && t == 0 then !o
     else true)

/-- R163, R192, R210: pattern kind 3 is illegal. -/
def wfKind (k : BitVec 2) : Bool := k != 3

/-- R79: SCOPE 6 and 7 are illegal. -/
def wfScope (s : BitVec 3) : Bool := s.toNat < 6

/-- R78, R111, R223: the profile, SAT and flush fields of a multiply. -/
def wfMul (p : BitVec 4) (s f o : Bool) : Bool :=
  p.toNat ≤ 6 && (p == 5 || !s) && (p.toNat < 5 || (!f && !o))

/-- R79, R175: scope and base register of an AMO of any width. -/
def wfAmo (a : BitVec 6) (s : BitVec 3) : Bool := a.toNat ≤ 62 && wfScope s

/-- R79: a FADD form has W 2 or 3. -/
def wfFadd (a : BitVec 6) (s : BitVec 3) (w : BitVec 2) : Bool := wfAmo a s && 2 ≤ w.toNat

/-- The operand rules that are checked at decode. -/
def Instr.wf : Instr → Bool
  | .loop _ _ d s => d.toNat ≤ 5 && s != 0 && s.toNat + 2 * (d.toNat + 1) - 1 ≤ 63
  | .wait _ k m => k != 3 && (k != 1 || m.extractLsb' 8 8 == 0)
  | .fence _ s _ => wfScope s
  | .sqrd _ s => s.toNat ≤ 62
  | .rdc _ _ c w => w.toNat < crWords c.toNat
  | .wrc _ _ c w => w.toNat < crWords c.toNat
  | .xpatd _ _ _ k => wfKind k
  | .xbnet _ x _ _ _ => x.toNat ≤ 14
  | .vadd _ t _ _ _ f _ => wfArith t f
  | .vsub _ t _ _ _ f _ => wfArith t f
  | .vmul _ t _ _ _ f _ => wfArith t f
  | .vfma _ t _ _ _ _ _ => tyFloat t
  | .vfms _ t _ _ _ _ _ => tyFloat t
  | .vdiv _ t _ _ _ _ _ => tyFloat t
  | .vsqrt _ t _ _ _ _ => tyFloat t
  | .vrcp _ t _ _ _ _ => tyFloat t
  | .vrsq _ t _ _ _ _ => tyFloat t
  | .vexp2 _ t _ _ _ _ => tyFloat t
  | .vlog2 _ t _ _ _ _ => tyFloat t
  | .vmin _ t _ _ _ f => wfMinMax t f
  | .vmax _ t _ _ _ f => wfMinMax t f
  | .vabs _ t _ _ o => wfAbs t o
  | .vneg _ t _ _ o => wfAbs t o
  | .vand _ t _ _ _ => tyInt t
  | .vor _ t _ _ _ => tyInt t
  | .vxor _ t _ _ _ => tyInt t
  | .vnot _ t _ _ => tyInt t
  | .vshl _ t _ _ _ => tyInt t
  | .vshr _ t _ _ _ => tyInt t
  | .vashr _ t _ _ _ => tyInt t
  | .vscn _ t _ _ _ _ _ => t == 0 || tyNarrow t
  | .vcmpeq _ t _ _ _ f => wfCmp t f
  | .vcmpne _ t _ _ _ f => wfCmp t f
  | .vcmplt _ t _ _ _ f => wfCmp t f
  | .vcmple _ t _ _ _ f => wfCmp t f
  | .vcmpun _ t _ _ _ _ => tyFloat t
  | .vcvt _ t _ _ s _ f o => wfCvt t s f o
  | .vcvtd _ t _ _ s f o => wfCvt t s f o
  | .vperm _ t _ _ _ => tyFloat t || tyInt t
  | .vbcast _ t _ _ l => (tyFloat t || tyInt t) && (!ty64 t || l.toNat < 16)
  | .vredadd _ t _ _ f _ => wfArith t f
  | .vredmax _ t _ _ f => wfMinMax t f
  | .vredmin _ t _ _ f => wfMinMax t f
  | .vrng _ t _ _ => tyFloat t || t == 5 || t == 6
  | .prune _ _ _ _ k => wfKind k
  | .topk _ t d _ _ => (t == 0 || t == 5 || t == 6) && d.toNat ≤ 30
  | .qnt _ d _ _ _ => d.toNat ≤ 30
  | .spenc _ t _ _ k => (t == 0 || t == 5 || t == 6) && wfKind k
  | .spdec _ t _ _ k => (t == 0 || t == 5 || t == 6) && wfKind k
  | .mma _ p _ _ _ _ s f o => wfMul p s f o
  | .mmaS _ p _ _ _ _ s f o => wfMul p s f o
  | .mmaK4 _ _ _ _ m => wfMul m.np m.sat m.ftzi m.ftzo
  | .trsm _ k e _ _ => k != e
  | .givqr _ k e _ => k != e
  | .rotapp _ k e _ _ => k != e
  | .ldVs _ _ a _ _ => a.toNat ≤ 62
  | .stVs _ _ a _ _ => a.toNat ≤ 62
  | .pf _ _ a _ => a.toNat ≤ 62
  | .ldS _ a _ e s _ => wfAmo a s && (e == 0 || e == 1)
  | .stS _ a _ e s _ => wfAmo a s && (e == 0 || e == 2)
  | .amoAdd _ a _ _ s _ => wfAmo a s
  | .amoFadd _ a _ _ s w => wfFadd a s w
  | .amoMin _ a _ _ s _ => wfAmo a s
  | .amoMax _ a _ _ s _ => wfAmo a s
  | .amoMinu _ a _ _ s _ => wfAmo a s
  | .amoMaxu _ a _ _ s _ => wfAmo a s
  | .amoAnd _ a _ _ s _ => wfAmo a s
  | .amoOr _ a _ _ s _ => wfAmo a s
  | .amoXor _ a _ _ s _ => wfAmo a s
  | .amoSwp _ a _ _ s _ => wfAmo a s
  | .amoCas _ a _ _ s _ => wfAmo a s && a.toNat ≤ 61
  | .redAdd _ a _ s _ => wfAmo a s
  | .redFadd _ a _ s w => wfFadd a s w
  | .redMin _ a _ s _ => wfAmo a s
  | .redMax _ a _ s _ => wfAmo a s
  | .redAnd _ a _ s _ => wfAmo a s
  | .redOr _ a _ s _ => wfAmo a s
  | .redXor _ a _ s _ => wfAmo a s
  | .cpIn _ _ a _ _ => a.toNat ≤ 62
  | .cpOut _ _ a _ _ => a.toNat ≤ 62
  | .cpSs _ _ a _ _ => a.toNat ≤ 62
  | .fpushq _ _ _ _ s => wfScope s
  | .stq _ _ _ _ s => wfScope s
  | _ => true

end Sys2Proof
end

