-- ==== Sys2Proof/Decode.lean ====
section
/-! DEFINITION. Decoding and encoding (ch. 3). A slot word is decoded in the class that its MASK bit gives it (R62,
R80); what is no instruction is rejected by name. The encoder writes the fields where Tables 3.2 to 3.9 put them. -/

namespace Sys2Proof

/-- Why a word is no instruction. -/
inductive DecodeError where
  /-- The opcode is unassigned: ILLOP (R80). -/
  | illegalOperation
  /-- A reserved field is not zero, or a fixed field has another value: ILLOPND (R65, R73). -/
  | illegalOperand
  deriving DecidableEq, Repr

/-- OPC (Table 3.2). -/
def opcOf (w : Word) : Nat := (w.extractLsb' 20 6).toNat

/-- The common prefix (Table 3.2). -/
def pfxOf (w : Word) : Pfx := ⟨w.getLsbD 31, w.getLsbD 30, w.extractLsb' 26 4⟩

/-- The prefix of a B-slot word. -/
def grdOf (w : Word) : Grd := ⟨w.getLsbD 30, w.extractLsb' 26 4⟩

/-- The instruction of opcode OPC in class B, whatever its reserved fields hold (Tables 3.4 to 3.16). -/
def rowB (opc : Nat) (w : Word) : Option Instr :=
  match opc with
  | 0 => some (.br (grdOf w) (w.extractLsb' 0 20))
  | 1 => some (.jmp (grdOf w) (w.extractLsb' 14 6))
  | 2 => some (.call (grdOf w) (w.extractLsb' 0 20))
  | 3 => some (.ret (grdOf w))
  | 4 => some (.loop (grdOf w) (w.extractLsb' 15 5) (w.extractLsb' 12 3) (w.extractLsb' 6 6))
  | 5 => some (.wait (grdOf w) (w.extractLsb' 18 2) (w.extractLsb' 0 16))
  | 6 => some (.bar (grdOf w) (w.extractLsb' 16 4) (w.extractLsb' 0 8))
  | 7 => some (.fence (grdOf w) (w.extractLsb' 16 3) (w.extractLsb' 0 16))
  | 8 => some (.trap (grdOf w) (w.extractLsb' 0 16))
  | 9 => some (.eret (grdOf w))
  | 10 => some (.setpri (grdOf w) (w.extractLsb' 0 2))
  | 11 => some (.ctnOpen (grdOf w) (w.extractLsb' 0 20))
  | 12 => some (.ctnClose (grdOf w))
  | 13 => some (.glaunch (grdOf w) (w.extractLsb' 14 6))
  | 14 => some (.bead (grdOf w) (w.extractLsb' 14 6) (w.extractLsb' 8 6))
  | 15 => some (.ndone (grdOf w))
  | 16 => some (.yield (grdOf w))
  | 17 => some (.halt (grdOf w))
  | 18 => some (.sqrd (grdOf w) (w.extractLsb' 14 6))
  | _ => none

/-- The instruction of opcode OPC in class S, whatever its reserved fields hold (Tables 3.4 to 3.16). -/
def rowS (opc : Nat) (w : Word) : Option Instr :=
  match opc with
  | 0 => some (.add (pfxOf w) (w.extractLsb' 14 6) (w.extractLsb' 8 6) (w.extractLsb' 2 6))
  | 1 => some (.sub (pfxOf w) (w.extractLsb' 14 6) (w.extractLsb' 8 6) (w.extractLsb' 2 6))
  | 2 => some (.mul (pfxOf w) (w.extractLsb' 14 6) (w.extractLsb' 8 6) (w.extractLsb' 2 6))
  | 3 => some (.mulh (pfxOf w) (w.extractLsb' 14 6) (w.extractLsb' 8 6) (w.extractLsb' 2 6))
  | 4 => some (.mulhu (pfxOf w) (w.extractLsb' 14 6) (w.extractLsb' 8 6) (w.extractLsb' 2 6))
  | 5 => some (.div (pfxOf w) (w.extractLsb' 14 6) (w.extractLsb' 8 6) (w.extractLsb' 2 6))
  | 6 => some (.divu (pfxOf w) (w.extractLsb' 14 6) (w.extractLsb' 8 6) (w.extractLsb' 2 6))
  | 7 => some (.rem (pfxOf w) (w.extractLsb' 14 6) (w.extractLsb' 8 6) (w.extractLsb' 2 6))
  | 8 => some (.remu (pfxOf w) (w.extractLsb' 14 6) (w.extractLsb' 8 6) (w.extractLsb' 2 6))
  | 9 => some (.and (pfxOf w) (w.extractLsb' 14 6) (w.extractLsb' 8 6) (w.extractLsb' 2 6))
  | 10 => some (.or (pfxOf w) (w.extractLsb' 14 6) (w.extractLsb' 8 6) (w.extractLsb' 2 6))
  | 11 => some (.xor (pfxOf w) (w.extractLsb' 14 6) (w.extractLsb' 8 6) (w.extractLsb' 2 6))
  | 12 => some (.shl (pfxOf w) (w.extractLsb' 14 6) (w.extractLsb' 8 6) (w.extractLsb' 2 6))
  | 13 => some (.shr (pfxOf w) (w.extractLsb' 14 6) (w.extractLsb' 8 6) (w.extractLsb' 2 6))
  | 14 => some (.ashr (pfxOf w) (w.extractLsb' 14 6) (w.extractLsb' 8 6) (w.extractLsb' 2 6))
  | 15 => some (.sel (pfxOf w) (w.extractLsb' 14 6) (w.extractLsb' 8 6) (w.extractLsb' 4 4))
  | 16 => some (.min (pfxOf w) (w.extractLsb' 14 6) (w.extractLsb' 8 6) (w.extractLsb' 2 6))
  | 17 => some (.max (pfxOf w) (w.extractLsb' 14 6) (w.extractLsb' 8 6) (w.extractLsb' 2 6))
  | 18 => some (.minu (pfxOf w) (w.extractLsb' 14 6) (w.extractLsb' 8 6) (w.extractLsb' 2 6))
  | 19 => some (.maxu (pfxOf w) (w.extractLsb' 14 6) (w.extractLsb' 8 6) (w.extractLsb' 2 6))
  | 20 => some (.clz (pfxOf w) (w.extractLsb' 14 6) (w.extractLsb' 8 6))
  | 21 => some (.ctz (pfxOf w) (w.extractLsb' 14 6) (w.extractLsb' 8 6))
  | 22 => some (.popc (pfxOf w) (w.extractLsb' 14 6) (w.extractLsb' 8 6))
  | 24 => some (.addi (pfxOf w) (w.extractLsb' 14 6) (w.extractLsb' 8 6) (w.extractLsb' 0 8))
  | 25 => some (.andi (pfxOf w) (w.extractLsb' 14 6) (w.extractLsb' 8 6) (w.extractLsb' 0 8))
  | 26 => some (.ori (pfxOf w) (w.extractLsb' 14 6) (w.extractLsb' 8 6) (w.extractLsb' 0 8))
  | 27 => some (.xori (pfxOf w) (w.extractLsb' 14 6) (w.extractLsb' 8 6) (w.extractLsb' 0 8))
  | 28 => some (.shli (pfxOf w) (w.extractLsb' 14 6) (w.extractLsb' 8 6) (w.extractLsb' 0 6))
  | 29 => some (.shri (pfxOf w) (w.extractLsb' 14 6) (w.extractLsb' 8 6) (w.extractLsb' 0 6))
  | 30 => some (.ashri (pfxOf w) (w.extractLsb' 14 6) (w.extractLsb' 8 6) (w.extractLsb' 0 6))
  | 31 => some (.movi (pfxOf w) (w.extractLsb' 14 6) (w.extractLsb' 0 14))
  | 32 => some (.movs (pfxOf w) (w.extractLsb' 14 6) (w.extractLsb' 0 14))
  | 33 => some (.rdc (pfxOf w) (w.extractLsb' 14 6) (w.extractLsb' 6 8) (w.extractLsb' 0 6))
  | 34 => some (.wrc (pfxOf w) (w.extractLsb' 14 6) (w.extractLsb' 6 8) (w.extractLsb' 0 6))
  | 35 => some (.fcmple (pfxOf w) (w.extractLsb' 16 4) (w.extractLsb' 8 6) (w.extractLsb' 2 6) (w.getLsbD 1) (w.getLsbD 0))
  | 36 => some (.fcmpun (pfxOf w) (w.extractLsb' 16 4) (w.extractLsb' 8 6) (w.extractLsb' 2 6) (w.getLsbD 1) (w.getLsbD 0))
  | 40 => some (.cmpeq (pfxOf w) (w.extractLsb' 16 4) (w.extractLsb' 8 6) (w.extractLsb' 2 6))
  | 41 => some (.cmpne (pfxOf w) (w.extractLsb' 16 4) (w.extractLsb' 8 6) (w.extractLsb' 2 6))
  | 42 => some (.cmplt (pfxOf w) (w.extractLsb' 16 4) (w.extractLsb' 8 6) (w.extractLsb' 2 6))
  | 43 => some (.cmpltu (pfxOf w) (w.extractLsb' 16 4) (w.extractLsb' 8 6) (w.extractLsb' 2 6))
  | 44 => some (.cmple (pfxOf w) (w.extractLsb' 16 4) (w.extractLsb' 8 6) (w.extractLsb' 2 6))
  | 45 => some (.cmpleu (pfxOf w) (w.extractLsb' 16 4) (w.extractLsb' 8 6) (w.extractLsb' 2 6))
  | 46 => some (.fcmpeq (pfxOf w) (w.extractLsb' 16 4) (w.extractLsb' 8 6) (w.extractLsb' 2 6) (w.getLsbD 1) (w.getLsbD 0))
  | 47 => some (.fcmplt (pfxOf w) (w.extractLsb' 16 4) (w.extractLsb' 8 6) (w.extractLsb' 2 6) (w.getLsbD 1) (w.getLsbD 0))
  | 48 => some (.faddF32 (pfxOf w) (w.extractLsb' 14 6) (w.extractLsb' 8 6) (w.extractLsb' 2 6) (w.getLsbD 1) (w.getLsbD 0))
  | 49 => some (.fsubF32 (pfxOf w) (w.extractLsb' 14 6) (w.extractLsb' 8 6) (w.extractLsb' 2 6) (w.getLsbD 1) (w.getLsbD 0))
  | 50 => some (.fmulF32 (pfxOf w) (w.extractLsb' 14 6) (w.extractLsb' 8 6) (w.extractLsb' 2 6) (w.getLsbD 1) (w.getLsbD 0))
  | 51 => some (.ffmaF32 (pfxOf w) (w.extractLsb' 14 6) (w.extractLsb' 8 6) (w.extractLsb' 2 6) (w.getLsbD 1) (w.getLsbD 0))
  | 52 => some (.fdivF32 (pfxOf w) (w.extractLsb' 14 6) (w.extractLsb' 8 6) (w.extractLsb' 2 6) (w.getLsbD 1) (w.getLsbD 0))
  | 53 => some (.fsqrtF32 (pfxOf w) (w.extractLsb' 14 6) (w.extractLsb' 8 6) (w.getLsbD 1) (w.getLsbD 0))
  | 56 => some (.faddF64 (pfxOf w) (w.extractLsb' 14 6) (w.extractLsb' 8 6) (w.extractLsb' 2 6) (w.getLsbD 1) (w.getLsbD 0))
  | 57 => some (.fsubF64 (pfxOf w) (w.extractLsb' 14 6) (w.extractLsb' 8 6) (w.extractLsb' 2 6) (w.getLsbD 1) (w.getLsbD 0))
  | 58 => some (.fmulF64 (pfxOf w) (w.extractLsb' 14 6) (w.extractLsb' 8 6) (w.extractLsb' 2 6) (w.getLsbD 1) (w.getLsbD 0))
  | 59 => some (.ffmaF64 (pfxOf w) (w.extractLsb' 14 6) (w.extractLsb' 8 6) (w.extractLsb' 2 6) (w.getLsbD 1) (w.getLsbD 0))
  | 60 => some (.fdivF64 (pfxOf w) (w.extractLsb' 14 6) (w.extractLsb' 8 6) (w.extractLsb' 2 6) (w.getLsbD 1) (w.getLsbD 0))
  | 61 => some (.fsqrtF64 (pfxOf w) (w.extractLsb' 14 6) (w.extractLsb' 8 6) (w.getLsbD 1) (w.getLsbD 0))
  | _ => none

/-- The instruction of opcode OPC in class X, whatever its reserved fields hold (Tables 3.4 to 3.16). -/
def rowX (opc : Nat) (w : Word) : Option Instr :=
  match opc with
  | 0 => some (.xadd (pfxOf w) (w.extractLsb' 16 4) (w.extractLsb' 12 4) (w.extractLsb' 8 4))
  | 1 => some (.xaddi (pfxOf w) (w.extractLsb' 16 4) (w.extractLsb' 12 4) (w.extractLsb' 0 8))
  | 2 => some (.xsub (pfxOf w) (w.extractLsb' 16 4) (w.extractLsb' 12 4) (w.extractLsb' 8 4))
  | 3 => some (.xshli (pfxOf w) (w.extractLsb' 16 4) (w.extractLsb' 12 4) (w.extractLsb' 0 5))
  | 4 => some (.xshri (pfxOf w) (w.extractLsb' 16 4) (w.extractLsb' 12 4) (w.extractLsb' 0 5))
  | 5 => some (.xand (pfxOf w) (w.extractLsb' 16 4) (w.extractLsb' 12 4) (w.extractLsb' 8 4))
  | 6 => some (.xpopc (pfxOf w) (w.extractLsb' 16 4) (w.extractLsb' 12 4))
  | 7 => some (.xcmpadv (pfxOf w) (w.extractLsb' 16 4) (w.extractLsb' 12 4) (w.extractLsb' 8 4) (w.extractLsb' 4 4) (w.extractLsb' 0 2))
  | 8 => some (.xpatd (pfxOf w) (w.extractLsb' 16 4) (w.extractLsb' 12 4) (w.extractLsb' 0 2))
  | 9 => some (.xbnet (pfxOf w) (w.extractLsb' 16 4) (w.extractLsb' 12 4) (w.extractLsb' 8 4) (w.extractLsb' 5 3))
  | 10 => some (.xbnld (pfxOf w) (w.extractLsb' 17 3) (w.extractLsb' 12 5))
  | 11 => some (.xbperm (pfxOf w) (w.extractLsb' 16 4) (w.extractLsb' 12 4) (w.extractLsb' 8 4) (w.extractLsb' 4 4) (w.extractLsb' 0 4))
  | 12 => some (.xfroms (pfxOf w) (w.extractLsb' 16 4) (w.extractLsb' 10 6))
  | 13 => some (.xtos (pfxOf w) (w.extractLsb' 16 4) (w.extractLsb' 10 6))
  | 14 => some (.xmov (pfxOf w) (w.extractLsb' 16 4) (w.extractLsb' 12 4))
  | 15 => some (.xmovi (pfxOf w) (w.extractLsb' 16 4) (w.extractLsb' 0 16))
  | _ => none

/-- The instruction of opcode OPC in class V, whatever its reserved fields hold (Tables 3.4 to 3.16). -/
def rowV (opc : Nat) (w : Word) : Option Instr :=
  match opc with
  | 0 => some (.vadd (pfxOf w) (w.extractLsb' 17 3) (w.extractLsb' 12 5) (w.extractLsb' 7 5) (w.extractLsb' 2 5) (w.getLsbD 1) (w.getLsbD 0))
  | 1 => some (.vsub (pfxOf w) (w.extractLsb' 17 3) (w.extractLsb' 12 5) (w.extractLsb' 7 5) (w.extractLsb' 2 5) (w.getLsbD 1) (w.getLsbD 0))
  | 2 => some (.vmul (pfxOf w) (w.extractLsb' 17 3) (w.extractLsb' 12 5) (w.extractLsb' 7 5) (w.extractLsb' 2 5) (w.getLsbD 1) (w.getLsbD 0))
  | 3 => some (.vfma (pfxOf w) (w.extractLsb' 17 3) (w.extractLsb' 12 5) (w.extractLsb' 7 5) (w.extractLsb' 2 5) (w.getLsbD 1) (w.getLsbD 0))
  | 4 => some (.vfms (pfxOf w) (w.extractLsb' 17 3) (w.extractLsb' 12 5) (w.extractLsb' 7 5) (w.extractLsb' 2 5) (w.getLsbD 1) (w.getLsbD 0))
  | 5 => some (.vdiv (pfxOf w) (w.extractLsb' 17 3) (w.extractLsb' 12 5) (w.extractLsb' 7 5) (w.extractLsb' 2 5) (w.getLsbD 1) (w.getLsbD 0))
  | 6 => some (.vsqrt (pfxOf w) (w.extractLsb' 17 3) (w.extractLsb' 12 5) (w.extractLsb' 7 5) (w.getLsbD 1) (w.getLsbD 0))
  | 7 => some (.vmin (pfxOf w) (w.extractLsb' 17 3) (w.extractLsb' 12 5) (w.extractLsb' 7 5) (w.extractLsb' 2 5) (w.getLsbD 1))
  | 8 => some (.vmax (pfxOf w) (w.extractLsb' 17 3) (w.extractLsb' 12 5) (w.extractLsb' 7 5) (w.extractLsb' 2 5) (w.getLsbD 1))
  | 9 => some (.vabs (pfxOf w) (w.extractLsb' 17 3) (w.extractLsb' 12 5) (w.extractLsb' 7 5) (w.getLsbD 0))
  | 10 => some (.vneg (pfxOf w) (w.extractLsb' 17 3) (w.extractLsb' 12 5) (w.extractLsb' 7 5) (w.getLsbD 0))
  | 11 => some (.vrcp (pfxOf w) (w.extractLsb' 17 3) (w.extractLsb' 12 5) (w.extractLsb' 7 5) (w.getLsbD 1) (w.getLsbD 0))
  | 12 => some (.vrsq (pfxOf w) (w.extractLsb' 17 3) (w.extractLsb' 12 5) (w.extractLsb' 7 5) (w.getLsbD 1) (w.getLsbD 0))
  | 13 => some (.vexp2 (pfxOf w) (w.extractLsb' 17 3) (w.extractLsb' 12 5) (w.extractLsb' 7 5) (w.getLsbD 1) (w.getLsbD 0))
  | 14 => some (.vlog2 (pfxOf w) (w.extractLsb' 17 3) (w.extractLsb' 12 5) (w.extractLsb' 7 5) (w.getLsbD 1) (w.getLsbD 0))
  | 15 => some (.vsel (pfxOf w) (w.extractLsb' 16 4) (w.getLsbD 15) (w.extractLsb' 10 5) (w.extractLsb' 5 5) (w.extractLsb' 0 5))
  | 16 => some (.vand (pfxOf w) (w.extractLsb' 17 3) (w.extractLsb' 12 5) (w.extractLsb' 7 5) (w.extractLsb' 2 5))
  | 17 => some (.vor (pfxOf w) (w.extractLsb' 17 3) (w.extractLsb' 12 5) (w.extractLsb' 7 5) (w.extractLsb' 2 5))
  | 18 => some (.vxor (pfxOf w) (w.extractLsb' 17 3) (w.extractLsb' 12 5) (w.extractLsb' 7 5) (w.extractLsb' 2 5))
  | 19 => some (.vnot (pfxOf w) (w.extractLsb' 17 3) (w.extractLsb' 12 5) (w.extractLsb' 7 5))
  | 20 => some (.vshl (pfxOf w) (w.extractLsb' 17 3) (w.extractLsb' 12 5) (w.extractLsb' 7 5) (w.extractLsb' 2 5))
  | 21 => some (.vshr (pfxOf w) (w.extractLsb' 17 3) (w.extractLsb' 12 5) (w.extractLsb' 7 5) (w.extractLsb' 2 5))
  | 22 => some (.vashr (pfxOf w) (w.extractLsb' 17 3) (w.extractLsb' 12 5) (w.extractLsb' 7 5) (w.extractLsb' 2 5))
  | 23 => some (.vscn (pfxOf w) (w.extractLsb' 17 3) (w.extractLsb' 12 5) (w.extractLsb' 7 5) (w.extractLsb' 2 5) (w.getLsbD 1) (w.getLsbD 0))
  | 24 => some (.vcmpeq (pfxOf w) (w.extractLsb' 17 3) (w.extractLsb' 13 4) (w.extractLsb' 7 5) (w.extractLsb' 2 5) (w.getLsbD 1))
  | 25 => some (.vcmpne (pfxOf w) (w.extractLsb' 17 3) (w.extractLsb' 13 4) (w.extractLsb' 7 5) (w.extractLsb' 2 5) (w.getLsbD 1))
  | 26 => some (.vcmplt (pfxOf w) (w.extractLsb' 17 3) (w.extractLsb' 13 4) (w.extractLsb' 7 5) (w.extractLsb' 2 5) (w.getLsbD 1))
  | 27 => some (.vcmple (pfxOf w) (w.extractLsb' 17 3) (w.extractLsb' 13 4) (w.extractLsb' 7 5) (w.extractLsb' 2 5) (w.getLsbD 1))
  | 28 => some (.vcmpun (pfxOf w) (w.extractLsb' 17 3) (w.extractLsb' 13 4) (w.extractLsb' 7 5) (w.extractLsb' 2 5) (w.getLsbD 1))
  | 29 => some (.vcvt (pfxOf w) (w.extractLsb' 17 3) (w.extractLsb' 12 5) (w.extractLsb' 7 5) (w.extractLsb' 4 3) (w.extractLsb' 2 2) (w.getLsbD 1) (w.getLsbD 0))
  | 30 => some (.vcvtd (pfxOf w) (w.extractLsb' 17 3) (w.extractLsb' 12 5) (w.extractLsb' 7 5) (w.extractLsb' 4 3) (w.getLsbD 1) (w.getLsbD 0))
  | 31 => some (.vperm (pfxOf w) (w.extractLsb' 17 3) (w.extractLsb' 12 5) (w.extractLsb' 7 5) (w.extractLsb' 2 5))
  | 32 => some (.vbcast (pfxOf w) (w.extractLsb' 17 3) (w.extractLsb' 12 5) (w.extractLsb' 7 5) (w.extractLsb' 2 5))
  | 33 => some (.vredadd (pfxOf w) (w.extractLsb' 17 3) (w.extractLsb' 12 5) (w.extractLsb' 7 5) (w.getLsbD 1) (w.getLsbD 0))
  | 34 => some (.vredmax (pfxOf w) (w.extractLsb' 17 3) (w.extractLsb' 12 5) (w.extractLsb' 7 5) (w.getLsbD 1))
  | 35 => some (.vredmin (pfxOf w) (w.extractLsb' 17 3) (w.extractLsb' 12 5) (w.extractLsb' 7 5) (w.getLsbD 1))
  | 36 => some (.vpopq (pfxOf w) (w.extractLsb' 12 5) (w.extractLsb' 10 2))
  | 37 => some (.vpopl (pfxOf w) (w.extractLsb' 12 5) (w.extractLsb' 7 3))
  | 38 => some (.vrng (pfxOf w) (w.extractLsb' 17 3) (w.extractLsb' 12 5) (w.extractLsb' 7 5))
  | 39 => some (.prune (pfxOf w) (w.extractLsb' 12 5) (w.extractLsb' 7 5) (w.extractLsb' 2 5) (w.extractLsb' 0 2))
  | 40 => some (.topk (pfxOf w) (w.extractLsb' 17 3) (w.extractLsb' 12 5) (w.extractLsb' 7 5) (w.extractLsb' 2 5))
  | 41 => some (.qnt (pfxOf w) (w.extractLsb' 12 5) (w.extractLsb' 7 5) (w.extractLsb' 2 5) (w.getLsbD 1))
  | 42 => some (.dq (pfxOf w) (w.extractLsb' 12 5) (w.extractLsb' 7 5) (w.extractLsb' 2 5) (w.getLsbD 0))
  | 43 => some (.spenc (pfxOf w) (w.extractLsb' 17 3) (w.extractLsb' 12 5) (w.extractLsb' 7 5) (w.extractLsb' 0 2))
  | 44 => some (.spdec (pfxOf w) (w.extractLsb' 17 3) (w.extractLsb' 12 5) (w.extractLsb' 7 5) (w.extractLsb' 0 2))
  | 45 => some (.vmvs (pfxOf w) (w.extractLsb' 14 6) (w.extractLsb' 9 5) (w.extractLsb' 4 5))
  | 46 => some (.vmsv (pfxOf w) (w.extractLsb' 14 6) (w.extractLsb' 9 5) (w.extractLsb' 4 5))
  | 48 => some (.vmoviI32 (pfxOf w) (w.getLsbD 20) (w.extractLsb' 15 5) (w.extractLsb' 0 15))
  | 49 => some (.vmoviI32 (pfxOf w) (w.getLsbD 20) (w.extractLsb' 15 5) (w.extractLsb' 0 15))
  | 50 => some (.vmoviI64 (pfxOf w) (w.getLsbD 20) (w.extractLsb' 15 5) (w.extractLsb' 0 15))
  | 51 => some (.vmoviI64 (pfxOf w) (w.getLsbD 20) (w.extractLsb' 15 5) (w.extractLsb' 0 15))
  | 52 => some (.vmoviF32 (pfxOf w) (w.getLsbD 20) (w.extractLsb' 15 5) (w.extractLsb' 0 15))
  | 53 => some (.vmoviF32 (pfxOf w) (w.getLsbD 20) (w.extractLsb' 15 5) (w.extractLsb' 0 15))
  | 54 => some (.vmoviF64 (pfxOf w) (w.getLsbD 20) (w.extractLsb' 15 5) (w.extractLsb' 0 15))
  | 55 => some (.vmoviF64 (pfxOf w) (w.getLsbD 20) (w.extractLsb' 15 5) (w.extractLsb' 0 15))
  | 56 => some (.vmoviF16 (pfxOf w) (w.getLsbD 20) (w.extractLsb' 15 5) (w.extractLsb' 0 15))
  | 57 => some (.vmoviF16 (pfxOf w) (w.getLsbD 20) (w.extractLsb' 15 5) (w.extractLsb' 0 15))
  | 58 => some (.vmoviBf16 (pfxOf w) (w.getLsbD 20) (w.extractLsb' 15 5) (w.extractLsb' 0 15))
  | 59 => some (.vmoviBf16 (pfxOf w) (w.getLsbD 20) (w.extractLsb' 15 5) (w.extractLsb' 0 15))
  | 60 => some (.vmoviH8 (pfxOf w) (w.getLsbD 20) (w.extractLsb' 15 5) (w.extractLsb' 0 15))
  | 61 => some (.vmoviH8 (pfxOf w) (w.getLsbD 20) (w.extractLsb' 15 5) (w.extractLsb' 0 15))
  | _ => none

/-- The instruction of opcode OPC in class M, whatever its reserved fields hold (Tables 3.4 to 3.16). -/
def rowM (opc : Nat) (w : Word) : Option Instr :=
  match opc with
  | 0 => some (.mma (pfxOf w) (w.extractLsb' 16 4) (w.extractLsb' 13 3) (w.extractLsb' 9 4) (w.extractLsb' 5 4) (w.getLsbD 4) (w.getLsbD 3) (w.getLsbD 2) (w.getLsbD 1))
  | 1 => some (.mmaS (pfxOf w) (w.extractLsb' 16 4) (w.extractLsb' 13 3) (w.extractLsb' 9 4) (w.extractLsb' 5 4) (w.getLsbD 4) (w.getLsbD 3) (w.getLsbD 2) (w.getLsbD 1))
  | 2 => some (.mmaK4 (pfxOf w) (w.extractLsb' 13 3) (w.extractLsb' 9 4) (w.extractLsb' 5 4) ⟨w.extractLsb' 16 4, w.getLsbD 4, w.getLsbD 3, w.getLsbD 2, w.getLsbD 1⟩)
  | 3 => some (.trsm (pfxOf w) (w.extractLsb' 13 3) (w.extractLsb' 10 3) (w.getLsbD 9) (w.extractLsb' 5 4))
  | 4 => some (.getrf (pfxOf w) (w.extractLsb' 13 3) (w.getLsbD 9) (w.getLsbD 5))
  | 5 => some (.potrf (pfxOf w) (w.extractLsb' 13 3) (w.getLsbD 9) (w.getLsbD 5))
  | 6 => some (.givqr (pfxOf w) (w.extractLsb' 13 3) (w.extractLsb' 10 3) (w.getLsbD 9))
  | 7 => some (.rotapp (pfxOf w) (w.extractLsb' 13 3) (w.extractLsb' 10 3) (w.getLsbD 9) (w.getLsbD 5))
  | 8 => some (.accz (pfxOf w) (w.extractLsb' 17 3))
  | 9 => some (.accld (pfxOf w) (w.extractLsb' 17 3) (w.extractLsb' 10 4))
  | 10 => some (.accst (pfxOf w) (w.extractLsb' 14 3) (w.extractLsb' 10 4))
  | 11 => some (.drain (pfxOf w) (w.extractLsb' 14 3) (w.extractLsb' 8 2))
  | 12 => some (.accmov (pfxOf w) (w.extractLsb' 17 3) (w.extractLsb' 14 3))
  | 13 => some (.acct (pfxOf w) (w.extractLsb' 10 4))
  | 14 => some (.cbld (pfxOf w) (w.extractLsb' 10 4) (w.extractLsb' 6 2))
  | 15 => some (.spld (pfxOf w) (w.extractLsb' 10 4))
  | _ => none

/-- The instruction of opcode OPC in class C, whatever its reserved fields hold (Tables 3.4 to 3.16). -/
def rowC (opc : Nat) (w : Word) : Option Instr :=
  match opc with
  | 0 => some (.ldV (pfxOf w) (w.extractLsb' 15 5) (w.extractLsb' 9 6) (w.extractLsb' 5 4) (w.extractLsb' 0 5))
  | 1 => some (.stV (pfxOf w) (w.extractLsb' 15 5) (w.extractLsb' 9 6) (w.extractLsb' 5 4) (w.extractLsb' 0 5))
  | 2 => some (.ldVs (pfxOf w) (w.extractLsb' 15 5) (w.extractLsb' 9 6) (w.extractLsb' 5 4) (w.getLsbD 4))
  | 3 => some (.stVs (pfxOf w) (w.extractLsb' 15 5) (w.extractLsb' 9 6) (w.extractLsb' 5 4) (w.getLsbD 4))
  | 4 => some (.ldVx (pfxOf w) (w.extractLsb' 15 5) (w.extractLsb' 9 6) (w.extractLsb' 4 5) (w.extractLsb' 0 4))
  | 5 => some (.stVx (pfxOf w) (w.extractLsb' 15 5) (w.extractLsb' 9 6) (w.extractLsb' 4 5) (w.extractLsb' 0 4))
  | 6 => some (.ldrL (pfxOf w) (w.extractLsb' 17 3) (w.extractLsb' 11 6) (w.extractLsb' 7 4) (w.extractLsb' 0 7))
  | 7 => some (.pf (pfxOf w) (w.extractLsb' 16 4) (w.extractLsb' 10 6) (w.extractLsb' 2 4))
  | 8 => some (.ldS (pfxOf w) (w.extractLsb' 14 6) (w.extractLsb' 10 4) (w.extractLsb' 8 2) (w.extractLsb' 5 3) (w.extractLsb' 3 2))
  | 9 => some (.stS (pfxOf w) (w.extractLsb' 14 6) (w.extractLsb' 10 4) (w.extractLsb' 8 2) (w.extractLsb' 5 3) (w.extractLsb' 3 2))
  | 10 => some (.amoAdd (pfxOf w) (w.extractLsb' 14 6) (w.extractLsb' 10 4) (w.extractLsb' 8 2) (w.extractLsb' 5 3) (w.extractLsb' 3 2))
  | 11 => some (.amoFadd (pfxOf w) (w.extractLsb' 14 6) (w.extractLsb' 10 4) (w.extractLsb' 8 2) (w.extractLsb' 5 3) (w.extractLsb' 3 2))
  | 12 => some (.amoMin (pfxOf w) (w.extractLsb' 14 6) (w.extractLsb' 10 4) (w.extractLsb' 8 2) (w.extractLsb' 5 3) (w.extractLsb' 3 2))
  | 13 => some (.amoMax (pfxOf w) (w.extractLsb' 14 6) (w.extractLsb' 10 4) (w.extractLsb' 8 2) (w.extractLsb' 5 3) (w.extractLsb' 3 2))
  | 14 => some (.amoMinu (pfxOf w) (w.extractLsb' 14 6) (w.extractLsb' 10 4) (w.extractLsb' 8 2) (w.extractLsb' 5 3) (w.extractLsb' 3 2))
  | 15 => some (.amoMaxu (pfxOf w) (w.extractLsb' 14 6) (w.extractLsb' 10 4) (w.extractLsb' 8 2) (w.extractLsb' 5 3) (w.extractLsb' 3 2))
  | 16 => some (.amoAnd (pfxOf w) (w.extractLsb' 14 6) (w.extractLsb' 10 4) (w.extractLsb' 8 2) (w.extractLsb' 5 3) (w.extractLsb' 3 2))
  | 17 => some (.amoOr (pfxOf w) (w.extractLsb' 14 6) (w.extractLsb' 10 4) (w.extractLsb' 8 2) (w.extractLsb' 5 3) (w.extractLsb' 3 2))
  | 18 => some (.amoXor (pfxOf w) (w.extractLsb' 14 6) (w.extractLsb' 10 4) (w.extractLsb' 8 2) (w.extractLsb' 5 3) (w.extractLsb' 3 2))
  | 19 => some (.amoSwp (pfxOf w) (w.extractLsb' 14 6) (w.extractLsb' 10 4) (w.extractLsb' 8 2) (w.extractLsb' 5 3) (w.extractLsb' 3 2))
  | 20 => some (.amoCas (pfxOf w) (w.extractLsb' 14 6) (w.extractLsb' 10 4) (w.extractLsb' 8 2) (w.extractLsb' 5 3) (w.extractLsb' 3 2))
  | 24 => some (.redAdd (pfxOf w) (w.extractLsb' 14 6) (w.extractLsb' 10 4) (w.extractLsb' 5 3) (w.extractLsb' 3 2))
  | 25 => some (.redFadd (pfxOf w) (w.extractLsb' 14 6) (w.extractLsb' 10 4) (w.extractLsb' 5 3) (w.extractLsb' 3 2))
  | 26 => some (.redMin (pfxOf w) (w.extractLsb' 14 6) (w.extractLsb' 10 4) (w.extractLsb' 5 3) (w.extractLsb' 3 2))
  | 27 => some (.redMax (pfxOf w) (w.extractLsb' 14 6) (w.extractLsb' 10 4) (w.extractLsb' 5 3) (w.extractLsb' 3 2))
  | 28 => some (.redAnd (pfxOf w) (w.extractLsb' 14 6) (w.extractLsb' 10 4) (w.extractLsb' 5 3) (w.extractLsb' 3 2))
  | 29 => some (.redOr (pfxOf w) (w.extractLsb' 14 6) (w.extractLsb' 10 4) (w.extractLsb' 5 3) (w.extractLsb' 3 2))
  | 30 => some (.redXor (pfxOf w) (w.extractLsb' 14 6) (w.extractLsb' 10 4) (w.extractLsb' 5 3) (w.extractLsb' 3 2))
  | 32 => some (.cpIn (pfxOf w) (w.extractLsb' 16 4) (w.extractLsb' 10 6) (w.extractLsb' 6 4) (w.extractLsb' 2 4))
  | 33 => some (.cpOut (pfxOf w) (w.extractLsb' 16 4) (w.extractLsb' 10 6) (w.extractLsb' 6 4) (w.extractLsb' 2 4))
  | 34 => some (.cpSs (pfxOf w) (w.extractLsb' 16 4) (w.extractLsb' 10 6) (w.extractLsb' 6 4) (w.extractLsb' 2 4))
  | 35 => some (.rsub (pfxOf w) (w.extractLsb' 16 4) (w.extractLsb' 10 6) (w.extractLsb' 6 4) (w.extractLsb' 2 4))
  | 36 => some (.srel (pfxOf w) (w.extractLsb' 16 4) (w.extractLsb' 10 6) (w.extractLsb' 2 4))
  | 37 => some (.fpush (pfxOf w) (w.extractLsb' 15 5) (w.extractLsb' 9 6) (w.extractLsb' 5 4))
  | 38 => some (.fpushq (pfxOf w) (w.extractLsb' 18 2) (w.extractLsb' 12 6) (w.extractLsb' 8 4) (w.extractLsb' 5 3))
  | 39 => some (.stq (pfxOf w) (w.extractLsb' 18 2) (w.extractLsb' 12 6) (w.extractLsb' 8 4) (w.extractLsb' 5 3))
  | _ => none

/-- The bits of [19:0] (and HOLD in class B) that are fixed for an opcode, and their value (R65, R73, R223, R227). -/
def fixedBits (cl : SlotClass) (opc : Nat) : Nat × Nat :=
  match cl, opc with
  | .b, 0 => (0x80000000, 0x0)
  | .b, 1 => (0x80003FFF, 0x0)
  | .b, 2 => (0x80000000, 0x0)
  | .b, 3 => (0x800FFFFF, 0x0)
  | .b, 4 => (0x8000003F, 0x0)
  | .b, 5 => (0x80030000, 0x0)
  | .b, 6 => (0x8000FF00, 0x0)
  | .b, 7 => (0x80080000, 0x0)
  | .b, 8 => (0x800F0000, 0x0)
  | .b, 9 => (0x800FFFFF, 0x0)
  | .b, 10 => (0x800FFFFC, 0x0)
  | .b, 11 => (0x80000000, 0x0)
  | .b, 12 => (0x800FFFFF, 0x0)
  | .b, 13 => (0x80003FFF, 0x0)
  | .b, 14 => (0x800000FF, 0x0)
  | .b, 15 => (0x800FFFFF, 0x0)
  | .b, 16 => (0x800FFFFF, 0x0)
  | .b, 17 => (0x800FFFFF, 0x0)
  | .b, 18 => (0x80003FFF, 0x0)
  | .s, 0 => (0x3, 0x0)
  | .s, 1 => (0x3, 0x0)
  | .s, 2 => (0x3, 0x0)
  | .s, 3 => (0x3, 0x0)
  | .s, 4 => (0x3, 0x0)
  | .s, 5 => (0x3, 0x0)
  | .s, 6 => (0x3, 0x0)
  | .s, 7 => (0x3, 0x0)
  | .s, 8 => (0x3, 0x0)
  | .s, 9 => (0x3, 0x0)
  | .s, 10 => (0x3, 0x0)
  | .s, 11 => (0x3, 0x0)
  | .s, 12 => (0x3, 0x0)
  | .s, 13 => (0x3, 0x0)
  | .s, 14 => (0x3, 0x0)
  | .s, 15 => (0xF, 0x0)
  | .s, 16 => (0x3, 0x0)
  | .s, 17 => (0x3, 0x0)
  | .s, 18 => (0x3, 0x0)
  | .s, 19 => (0x3, 0x0)
  | .s, 20 => (0xFF, 0x0)
  | .s, 21 => (0xFF, 0x0)
  | .s, 22 => (0xFF, 0x0)
  | .s, 28 => (0xC0, 0x0)
  | .s, 29 => (0xC0, 0x0)
  | .s, 30 => (0xC0, 0x0)
  | .s, 35 => (0xC000, 0x0)
  | .s, 36 => (0xC000, 0x0)
  | .s, 40 => (0xC003, 0x0)
  | .s, 41 => (0xC003, 0x0)
  | .s, 42 => (0xC003, 0x0)
  | .s, 43 => (0xC003, 0x0)
  | .s, 44 => (0xC003, 0x0)
  | .s, 45 => (0xC003, 0x0)
  | .s, 46 => (0xC000, 0x0)
  | .s, 47 => (0xC000, 0x0)
  | .s, 53 => (0xFC, 0x0)
  | .s, 61 => (0xFC, 0x0)
  | .x, 0 => (0xFF, 0x0)
  | .x, 1 => (0xF00, 0x0)
  | .x, 2 => (0xFF, 0x0)
  | .x, 3 => (0xFE0, 0x0)
  | .x, 4 => (0xFE0, 0x0)
  | .x, 5 => (0xFF, 0x0)
  | .x, 6 => (0xFFF, 0x0)
  | .x, 7 => (0xC, 0x0)
  | .x, 8 => (0xFFC, 0x0)
  | .x, 9 => (0x1F, 0x0)
  | .x, 10 => (0xFFF, 0x0)
  | .x, 12 => (0x3FF, 0x0)
  | .x, 13 => (0x3FF, 0x0)
  | .x, 14 => (0xFFF, 0x0)
  | .v, 6 => (0x7C, 0x0)
  | .v, 7 => (0x1, 0x0)
  | .v, 8 => (0x1, 0x0)
  | .v, 9 => (0x7E, 0x0)
  | .v, 10 => (0x7E, 0x0)
  | .v, 11 => (0x7C, 0x0)
  | .v, 12 => (0x7C, 0x0)
  | .v, 13 => (0x7C, 0x0)
  | .v, 14 => (0x7C, 0x0)
  | .v, 16 => (0x3, 0x0)
  | .v, 17 => (0x3, 0x0)
  | .v, 18 => (0x3, 0x0)
  | .v, 19 => (0x7F, 0x0)
  | .v, 20 => (0x3, 0x0)
  | .v, 21 => (0x3, 0x0)
  | .v, 22 => (0x3, 0x0)
  | .v, 24 => (0x1001, 0x0)
  | .v, 25 => (0x1001, 0x0)
  | .v, 26 => (0x1001, 0x0)
  | .v, 27 => (0x1001, 0x0)
  | .v, 28 => (0x1001, 0x0)
  | .v, 30 => (0xC, 0x0)
  | .v, 31 => (0x3, 0x0)
  | .v, 32 => (0x3, 0x0)
  | .v, 33 => (0x7C, 0x0)
  | .v, 34 => (0x7D, 0x0)
  | .v, 35 => (0x7D, 0x0)
  | .v, 36 => (0xE03FF, 0x0)
  | .v, 37 => (0xE0C7F, 0x0)
  | .v, 38 => (0x7F, 0x0)
  | .v, 39 => (0xE0000, 0x0)
  | .v, 40 => (0x3, 0x0)
  | .v, 41 => (0xE0001, 0x0)
  | .v, 42 => (0xE0002, 0x0)
  | .v, 43 => (0x7C, 0x0)
  | .v, 44 => (0x7C, 0x0)
  | .v, 45 => (0xF, 0x0)
  | .v, 46 => (0xF, 0x0)
  | .m, 0 => (0x1, 0x0)
  | .m, 1 => (0x1, 0x0)
  | .m, 2 => (0x1, 0x0)
  | .m, 3 => (0xF001F, 0x0)
  | .m, 4 => (0xF1DDF, 0x0)
  | .m, 5 => (0xF1DDF, 0x0)
  | .m, 6 => (0xF01FF, 0x0)
  | .m, 7 => (0xF01DF, 0x0)
  | .m, 8 => (0x1FFFF, 0x0)
  | .m, 9 => (0x1C3FF, 0x0)
  | .m, 10 => (0xE03FF, 0x0)
  | .m, 11 => (0xE3CFF, 0x0)
  | .m, 12 => (0x3FFF, 0x0)
  | .m, 13 => (0xFC3FF, 0x0)
  | .m, 14 => (0xFC33F, 0x0)
  | .m, 15 => (0xFC3FF, 0x0)
  | .c, 2 => (0xF, 0x0)
  | .c, 3 => (0xF, 0x0)
  | .c, 7 => (0x3C3, 0x0)
  | .c, 8 => (0x7, 0x0)
  | .c, 9 => (0x7, 0x0)
  | .c, 10 => (0x7, 0x0)
  | .c, 11 => (0x7, 0x0)
  | .c, 12 => (0x7, 0x0)
  | .c, 13 => (0x7, 0x0)
  | .c, 14 => (0x7, 0x0)
  | .c, 15 => (0x7, 0x0)
  | .c, 16 => (0x7, 0x0)
  | .c, 17 => (0x7, 0x0)
  | .c, 18 => (0x7, 0x0)
  | .c, 19 => (0x7, 0x0)
  | .c, 20 => (0x7, 0x0)
  | .c, 24 => (0x307, 0x0)
  | .c, 25 => (0x307, 0x0)
  | .c, 26 => (0x307, 0x0)
  | .c, 27 => (0x307, 0x0)
  | .c, 28 => (0x307, 0x0)
  | .c, 29 => (0x307, 0x0)
  | .c, 30 => (0x307, 0x0)
  | .c, 32 => (0x3, 0x0)
  | .c, 33 => (0x3, 0x0)
  | .c, 34 => (0x3, 0x0)
  | .c, 35 => (0x3, 0x0)
  | .c, 36 => (0x3C3, 0x0)
  | .c, 37 => (0x1F, 0x0)
  | .c, 38 => (0x1F, 0x0)
  | .c, 39 => (0x1F, 0x0)
  | _, _ => (0, 0)

/-- The row of an opcode in a class. -/
def rowOf (cl : SlotClass) (opc : Nat) (w : Word) : Option Instr :=
  match cl with
  | .b => rowB opc w
  | .s => rowS opc w
  | .x => rowX opc w
  | .v => rowV opc w
  | .m => rowM opc w
  | .c => rowC opc w

/-- The instruction of a slot word in a class, or the name of what is wrong with it (R80, R73). -/
def decodeWord (cl : SlotClass) (w : Word) : Except DecodeError Instr :=
  match rowOf cl (opcOf w) w with
  | none => .error .illegalOperation
  | some i =>
    if w.toNat &&& (fixedBits cl (opcOf w)).1 = (fixedBits cl (opcOf w)).2 then .ok i else .error .illegalOperand

/-- The header word (Table 3.1). -/
structure Header where
  ib : Bool
  repx : Bool
  mask : BitVec 8
  deriving DecidableEq, Repr

/-- A header is legal by R63; none is the illegal-bundle trap. -/
def decodeHeader (w : Word) : Option Header :=
  if w.extractLsb' 24 8 = 0 ∧ w.extractLsb' 10 6 = 0 ∧ w.extractLsb' 16 8 = 1 ∧
      ¬ (w.getLsbD 8 = true ∧ w.getLsbD 0 = true) then
    some ⟨w.getLsbD 9, w.getLsbD 8, w.extractLsb' 0 8⟩
  else none

/-- The repeat prefix (Table 3.3); none when a reserved bit is set (R69). -/
def decodePrefix (w : Word) : Option Instr :=
  if w.extractLsb' 24 8 = 0 then some (.rep (w.extractLsb' 20 4) (w.extractLsb' 16 4) (w.extractLsb' 0 16)) else none

/-- The bytes of a bundle with this header (R62). -/
def Header.size (h : Header) : Nat :=
  4 + (if h.repx then 4 else 0) + 4 * ((List.range 8).filter (fun k => h.mask.getLsbD k)).length

/-- A little-endian word of a list of bytes (R5); missing bytes read as none. -/
def wordOfBytes : List Byte → Option (Word × List Byte)
  | a :: b :: c :: d :: r => some (d ++ c ++ b ++ a, r)
  | _ => none

/-- The slot words of a bundle in ascending MASK order (R62), each with its slot number. -/
def slotWords : List Nat → List Byte → Option (List (Nat × Word) × List Byte)
  | [], r => some ([], r)
  | k :: ks, r => do
    let (w, r) ← wordOfBytes r
    let (ws, r) ← slotWords ks r
    some ((k, w) :: ws, r)

/-- A bundle as fetched: header, prefix word, slot words by slot number. -/
structure Bundle where
  hdr : Header
  pre : Option Word
  words : List (Nat × Word)
  deriving DecidableEq, Repr

/-- What stops a list of bytes from being a bundle. -/
inductive BundleError where
  /-- There are not enough bytes. -/
  | short
  /-- The header is illegal: ILLBUNDLE (R63). -/
  | illegalBundle
  deriving DecidableEq, Repr

/-- The slots of a MASK in ascending order. -/
def slotsOf (mask : BitVec 8) : List Nat := (List.range 8).filter (fun k => mask.getLsbD k)

/-- Split bytes into the first bundle and the rest (R62, R63). -/
def decodeBundle (bs : List Byte) : Except BundleError (Bundle × List Byte) :=
  match wordOfBytes bs with
  | none => .error .short
  | some (hw, r) =>
    match decodeHeader hw with
    | none => .error .illegalBundle
    | some h =>
      if h.repx then
        match wordOfBytes r with
        | none => .error .short
        | some (pw, r) =>
          match slotWords (slotsOf h.mask) r with
          | none => .error .short
          | some (ws, r) => .ok (⟨h, some pw, ws⟩, r)
      else
        match slotWords (slotsOf h.mask) r with
        | none => .error .short
        | some (ws, r) => .ok (⟨h, none, ws⟩, r)

/-- The class of a slot number (Table 3.1). -/
def classOfSlot : Nat → SlotClass
  | 0 => .b
  | 1 => .s
  | 2 => .x
  | 3 => .v
  | 4 => .v
  | 5 => .m
  | _ => .c

/-- The first slot number of a class. -/
def SlotClass.slot : SlotClass → Nat
  | .b => 0
  | .s => 1
  | .x => 2
  | .v => 3
  | .m => 5
  | .c => 6

/-- HOLD, GINV and GUARD in place. -/
def Pfx.bits (u : Pfx) : BitVec 6 := BitVec.ofBool u.h ++ BitVec.ofBool u.n ++ u.g

/-- GINV and GUARD in place, HOLD zero. -/
def Grd.bits (u : Grd) : BitVec 6 := BitVec.ofBool false ++ BitVec.ofBool u.n ++ u.g

/-- The words of an instruction: one for a slot word, the header of an empty bundle for NOP (R46), the prefix word
for REP (R69); an event has none. -/
def encode : Instr → List Word
  | .bundleIssue _ => []
  | .lookAheadNullifier _ => []
  | .resultLanding _ _ => []
  | .loopBackEdge _ => []
  | .landingDue _ _ => []
  | .landingArrival _ _ => []
  | .memoryAccessPerform _ _ _ => []
  | .atomicAtHome _ _ => []
  | .amoResponse _ _ => []
  | .postedAcknowledge _ _ => []
  | .copyCompletion _ _ => []
  | .copyTranslationStop _ _ => []
  | .postedOperationFailure _ _ => []
  | .tableWalk _ _ _ => []
  | .arrayOperationCompletion _ _ => []
  | .drainEntryWrite _ => []
  | .ringSlotFill _ _ _ => []
  | .ringPullBack _ _ _ => []
  | .ringStop _ _ _ => []
  | .lateFaultDetection _ => []
  | .trapEntry _ => []
  | .graphLaunch _ => []
  | .beadArrival _ => []
  | .dispatch _ => []
  | .sliceStart _ => []
  | .workStealing _ => []
  | .nodeCompletion _ _ => []
  | .cancellationC1 _ => []
  | .cancellationC2 _ => []
  | .preemptionDecision _ => []
  | .imageSave _ => []
  | .killSlice _ => []
  | .killDeadline _ => []
  | .preemptKillRequeue _ _ => []
  | .courseGating _ => []
  | .wakeComplete _ => []
  | .operatingPointChange _ _ _ => []
  | .powerEmergency _ _ _ => []
  | .deviceReset => []
  | .pairMismatch _ _ => []
  | .digestArrival => []
  | .digtimeExpiry => []
  | .railBeatReceive _ _ => []
  | .railFence => []
  | .railRetrain => []
  | .linkDown => []
  | .beadPortBead => []
  | .beadPortLaunch => []
  | .apertureWrite => []
  | .apertureRead => []
  | .unmatchedBarAccess => []
  | .gabort => []
  | .flhead => []
  | .managementRegisterWrite => []
  | .openSpace => []
  | .closeSpace => []
  | .mapPage => []
  | .unmapPages => []
  | .bindWindow => []
  | .setPool => []
  | .replica => []
  | .attest => []
  | .loadImage => []
  | .assign => []
  | .slabwr => []
  | .invalidationComplete => []
  | .mailboxRequestComplete => []
  | .wrcSeed _ => []
  | .wrcFpctl _ => []
  | .wrcKsw _ _ => []
  | .nop ib => [0x0001#16 ++ 0#6 ++ BitVec.ofBool ib ++ 0#9]
  | .rep adv stride count => [0#8 ++ adv ++ stride ++ count]
  | .br u o => [u.bits ++ 0#6 ++ o]
  | .jmp u s => [u.bits ++ 1#6 ++ s ++ 0#14]
  | .call u o => [u.bits ++ 2#6 ++ o]
  | .ret u  => [u.bits ++ 3#6 ++ 0#20]
  | .loop u l d s => [u.bits ++ 4#6 ++ l ++ d ++ s ++ 0#6]
  | .wait u k m => [u.bits ++ 5#6 ++ k ++ 0#2 ++ m]
  | .bar u b m => [u.bits ++ 6#6 ++ b ++ 0#8 ++ m]
  | .fence u s m => [u.bits ++ 7#6 ++ 0#1 ++ s ++ m]
  | .trap u c => [u.bits ++ 8#6 ++ 0#4 ++ c]
  | .eret u  => [u.bits ++ 9#6 ++ 0#20]
  | .setpri u c => [u.bits ++ 10#6 ++ 0#18 ++ c]
  | .ctnOpen u o => [u.bits ++ 11#6 ++ o]
  | .ctnClose u  => [u.bits ++ 12#6 ++ 0#20]
  | .glaunch u s => [u.bits ++ 13#6 ++ s ++ 0#14]
  | .bead u s t => [u.bits ++ 14#6 ++ s ++ t ++ 0#8]
  | .ndone u  => [u.bits ++ 15#6 ++ 0#20]
  | .yield u  => [u.bits ++ 16#6 ++ 0#20]
  | .halt u  => [u.bits ++ 17#6 ++ 0#20]
  | .sqrd u s => [u.bits ++ 18#6 ++ s ++ 0#14]
  | .add u d a b => [u.bits ++ 0#6 ++ d ++ a ++ b ++ 0#2]
  | .sub u d a b => [u.bits ++ 1#6 ++ d ++ a ++ b ++ 0#2]
  | .mul u d a b => [u.bits ++ 2#6 ++ d ++ a ++ b ++ 0#2]
  | .mulh u d a b => [u.bits ++ 3#6 ++ d ++ a ++ b ++ 0#2]
  | .mulhu u d a b => [u.bits ++ 4#6 ++ d ++ a ++ b ++ 0#2]
  | .div u d a b => [u.bits ++ 5#6 ++ d ++ a ++ b ++ 0#2]
  | .divu u d a b => [u.bits ++ 6#6 ++ d ++ a ++ b ++ 0#2]
  | .rem u d a b => [u.bits ++ 7#6 ++ d ++ a ++ b ++ 0#2]
  | .remu u d a b => [u.bits ++ 8#6 ++ d ++ a ++ b ++ 0#2]
  | .and u d a b => [u.bits ++ 9#6 ++ d ++ a ++ b ++ 0#2]
  | .or u d a b => [u.bits ++ 10#6 ++ d ++ a ++ b ++ 0#2]
  | .xor u d a b => [u.bits ++ 11#6 ++ d ++ a ++ b ++ 0#2]
  | .shl u d a b => [u.bits ++ 12#6 ++ d ++ a ++ b ++ 0#2]
  | .shr u d a b => [u.bits ++ 13#6 ++ d ++ a ++ b ++ 0#2]
  | .ashr u d a b => [u.bits ++ 14#6 ++ d ++ a ++ b ++ 0#2]
  | .sel u d a p => [u.bits ++ 15#6 ++ d ++ a ++ p ++ 0#4]
  | .min u d a b => [u.bits ++ 16#6 ++ d ++ a ++ b ++ 0#2]
  | .max u d a b => [u.bits ++ 17#6 ++ d ++ a ++ b ++ 0#2]
  | .minu u d a b => [u.bits ++ 18#6 ++ d ++ a ++ b ++ 0#2]
  | .maxu u d a b => [u.bits ++ 19#6 ++ d ++ a ++ b ++ 0#2]
  | .clz u d a => [u.bits ++ 20#6 ++ d ++ a ++ 0#8]
  | .ctz u d a => [u.bits ++ 21#6 ++ d ++ a ++ 0#8]
  | .popc u d a => [u.bits ++ 22#6 ++ d ++ a ++ 0#8]
  | .addi u d a i => [u.bits ++ 24#6 ++ d ++ a ++ i]
  | .andi u d a i => [u.bits ++ 25#6 ++ d ++ a ++ i]
  | .ori u d a i => [u.bits ++ 26#6 ++ d ++ a ++ i]
  | .xori u d a i => [u.bits ++ 27#6 ++ d ++ a ++ i]
  | .shli u d a i => [u.bits ++ 28#6 ++ d ++ a ++ 0#2 ++ i]
  | .shri u d a i => [u.bits ++ 29#6 ++ d ++ a ++ 0#2 ++ i]
  | .ashri u d a i => [u.bits ++ 30#6 ++ d ++ a ++ 0#2 ++ i]
  | .movi u d i => [u.bits ++ 31#6 ++ d ++ i]
  | .movs u d i => [u.bits ++ 32#6 ++ d ++ i]
  | .rdc u s c w => [u.bits ++ 33#6 ++ s ++ c ++ w]
  | .wrc u s c w => [u.bits ++ 34#6 ++ s ++ c ++ w]
  | .fcmple u p a b f w => [u.bits ++ 35#6 ++ p ++ 0#2 ++ a ++ b ++ BitVec.ofBool f ++ BitVec.ofBool w]
  | .fcmpun u p a b f w => [u.bits ++ 36#6 ++ p ++ 0#2 ++ a ++ b ++ BitVec.ofBool f ++ BitVec.ofBool w]
  | .cmpeq u p a b => [u.bits ++ 40#6 ++ p ++ 0#2 ++ a ++ b ++ 0#2]
  | .cmpne u p a b => [u.bits ++ 41#6 ++ p ++ 0#2 ++ a ++ b ++ 0#2]
  | .cmplt u p a b => [u.bits ++ 42#6 ++ p ++ 0#2 ++ a ++ b ++ 0#2]
  | .cmpltu u p a b => [u.bits ++ 43#6 ++ p ++ 0#2 ++ a ++ b ++ 0#2]
  | .cmple u p a b => [u.bits ++ 44#6 ++ p ++ 0#2 ++ a ++ b ++ 0#2]
  | .cmpleu u p a b => [u.bits ++ 45#6 ++ p ++ 0#2 ++ a ++ b ++ 0#2]
  | .fcmpeq u p a b f w => [u.bits ++ 46#6 ++ p ++ 0#2 ++ a ++ b ++ BitVec.ofBool f ++ BitVec.ofBool w]
  | .fcmplt u p a b f w => [u.bits ++ 47#6 ++ p ++ 0#2 ++ a ++ b ++ BitVec.ofBool f ++ BitVec.ofBool w]
  | .faddF32 u d a b f o => [u.bits ++ 48#6 ++ d ++ a ++ b ++ BitVec.ofBool f ++ BitVec.ofBool o]
  | .fsubF32 u d a b f o => [u.bits ++ 49#6 ++ d ++ a ++ b ++ BitVec.ofBool f ++ BitVec.ofBool o]
  | .fmulF32 u d a b f o => [u.bits ++ 50#6 ++ d ++ a ++ b ++ BitVec.ofBool f ++ BitVec.ofBool o]
  | .ffmaF32 u d a b f o => [u.bits ++ 51#6 ++ d ++ a ++ b ++ BitVec.ofBool f ++ BitVec.ofBool o]
  | .fdivF32 u d a b f o => [u.bits ++ 52#6 ++ d ++ a ++ b ++ BitVec.ofBool f ++ BitVec.ofBool o]
  | .fsqrtF32 u d a f o => [u.bits ++ 53#6 ++ d ++ a ++ 0#6 ++ BitVec.ofBool f ++ BitVec.ofBool o]
  | .faddF64 u d a b f o => [u.bits ++ 56#6 ++ d ++ a ++ b ++ BitVec.ofBool f ++ BitVec.ofBool o]
  | .fsubF64 u d a b f o => [u.bits ++ 57#6 ++ d ++ a ++ b ++ BitVec.ofBool f ++ BitVec.ofBool o]
  | .fmulF64 u d a b f o => [u.bits ++ 58#6 ++ d ++ a ++ b ++ BitVec.ofBool f ++ BitVec.ofBool o]
  | .ffmaF64 u d a b f o => [u.bits ++ 59#6 ++ d ++ a ++ b ++ BitVec.ofBool f ++ BitVec.ofBool o]
  | .fdivF64 u d a b f o => [u.bits ++ 60#6 ++ d ++ a ++ b ++ BitVec.ofBool f ++ BitVec.ofBool o]
  | .fsqrtF64 u d a f o => [u.bits ++ 61#6 ++ d ++ a ++ 0#6 ++ BitVec.ofBool f ++ BitVec.ofBool o]
  | .xadd u x a b => [u.bits ++ 0#6 ++ x ++ a ++ b ++ 0#8]
  | .xaddi u x a i => [u.bits ++ 1#6 ++ x ++ a ++ 0#4 ++ i]
  | .xsub u x a b => [u.bits ++ 2#6 ++ x ++ a ++ b ++ 0#8]
  | .xshli u x a i => [u.bits ++ 3#6 ++ x ++ a ++ 0#7 ++ i]
  | .xshri u x a i => [u.bits ++ 4#6 ++ x ++ a ++ 0#7 ++ i]
  | .xand u x a b => [u.bits ++ 5#6 ++ x ++ a ++ b ++ 0#8]
  | .xpopc u x a => [u.bits ++ 6#6 ++ x ++ a ++ 0#12]
  | .xcmpadv u x a b c f => [u.bits ++ 7#6 ++ x ++ a ++ b ++ c ++ 0#2 ++ f]
  | .xpatd u x a k => [u.bits ++ 8#6 ++ x ++ a ++ 0#10 ++ k]
  | .xbnet u x a b e => [u.bits ++ 9#6 ++ x ++ a ++ b ++ e ++ 0#5]
  | .xbnld u e v => [u.bits ++ 10#6 ++ e ++ v ++ 0#12]
  | .xbperm u x a b c f => [u.bits ++ 11#6 ++ x ++ a ++ b ++ c ++ f]
  | .xfroms u x s => [u.bits ++ 12#6 ++ x ++ s ++ 0#10]
  | .xtos u x s => [u.bits ++ 13#6 ++ x ++ s ++ 0#10]
  | .xmov u x a => [u.bits ++ 14#6 ++ x ++ a ++ 0#12]
  | .xmovi u x i => [u.bits ++ 15#6 ++ x ++ i]
  | .vadd u t d a b f o => [u.bits ++ 0#6 ++ t ++ d ++ a ++ b ++ BitVec.ofBool f ++ BitVec.ofBool o]
  | .vsub u t d a b f o => [u.bits ++ 1#6 ++ t ++ d ++ a ++ b ++ BitVec.ofBool f ++ BitVec.ofBool o]
  | .vmul u t d a b f o => [u.bits ++ 2#6 ++ t ++ d ++ a ++ b ++ BitVec.ofBool f ++ BitVec.ofBool o]
  | .vfma u t d a b f o => [u.bits ++ 3#6 ++ t ++ d ++ a ++ b ++ BitVec.ofBool f ++ BitVec.ofBool o]
  | .vfms u t d a b f o => [u.bits ++ 4#6 ++ t ++ d ++ a ++ b ++ BitVec.ofBool f ++ BitVec.ofBool o]
  | .vdiv u t d a b f o => [u.bits ++ 5#6 ++ t ++ d ++ a ++ b ++ BitVec.ofBool f ++ BitVec.ofBool o]
  | .vsqrt u t d a f o => [u.bits ++ 6#6 ++ t ++ d ++ a ++ 0#5 ++ BitVec.ofBool f ++ BitVec.ofBool o]
  | .vmin u t d a b f => [u.bits ++ 7#6 ++ t ++ d ++ a ++ b ++ BitVec.ofBool f ++ 0#1]
  | .vmax u t d a b f => [u.bits ++ 8#6 ++ t ++ d ++ a ++ b ++ BitVec.ofBool f ++ 0#1]
  | .vabs u t d a o => [u.bits ++ 9#6 ++ t ++ d ++ a ++ 0#6 ++ BitVec.ofBool o]
  | .vneg u t d a o => [u.bits ++ 10#6 ++ t ++ d ++ a ++ 0#6 ++ BitVec.ofBool o]
  | .vrcp u t d a f o => [u.bits ++ 11#6 ++ t ++ d ++ a ++ 0#5 ++ BitVec.ofBool f ++ BitVec.ofBool o]
  | .vrsq u t d a f o => [u.bits ++ 12#6 ++ t ++ d ++ a ++ 0#5 ++ BitVec.ofBool f ++ BitVec.ofBool o]
  | .vexp2 u t d a f o => [u.bits ++ 13#6 ++ t ++ d ++ a ++ 0#5 ++ BitVec.ofBool f ++ BitVec.ofBool o]
  | .vlog2 u t d a f o => [u.bits ++ 14#6 ++ t ++ d ++ a ++ 0#5 ++ BitVec.ofBool f ++ BitVec.ofBool o]
  | .vsel u c w d a b => [u.bits ++ 15#6 ++ c ++ BitVec.ofBool w ++ d ++ a ++ b]
  | .vand u t d a b => [u.bits ++ 16#6 ++ t ++ d ++ a ++ b ++ 0#2]
  | .vor u t d a b => [u.bits ++ 17#6 ++ t ++ d ++ a ++ b ++ 0#2]
  | .vxor u t d a b => [u.bits ++ 18#6 ++ t ++ d ++ a ++ b ++ 0#2]
  | .vnot u t d a => [u.bits ++ 19#6 ++ t ++ d ++ a ++ 0#7]
  | .vshl u t d a b => [u.bits ++ 20#6 ++ t ++ d ++ a ++ b ++ 0#2]
  | .vshr u t d a b => [u.bits ++ 21#6 ++ t ++ d ++ a ++ b ++ 0#2]
  | .vashr u t d a b => [u.bits ++ 22#6 ++ t ++ d ++ a ++ b ++ 0#2]
  | .vscn u t d a b f o => [u.bits ++ 23#6 ++ t ++ d ++ a ++ b ++ BitVec.ofBool f ++ BitVec.ofBool o]
  | .vcmpeq u t p a b f => [u.bits ++ 24#6 ++ t ++ p ++ 0#1 ++ a ++ b ++ BitVec.ofBool f ++ 0#1]
  | .vcmpne u t p a b f => [u.bits ++ 25#6 ++ t ++ p ++ 0#1 ++ a ++ b ++ BitVec.ofBool f ++ 0#1]
  | .vcmplt u t p a b f => [u.bits ++ 26#6 ++ t ++ p ++ 0#1 ++ a ++ b ++ BitVec.ofBool f ++ 0#1]
  | .vcmple u t p a b f => [u.bits ++ 27#6 ++ t ++ p ++ 0#1 ++ a ++ b ++ BitVec.ofBool f ++ 0#1]
  | .vcmpun u t p a b f => [u.bits ++ 28#6 ++ t ++ p ++ 0#1 ++ a ++ b ++ BitVec.ofBool f ++ 0#1]
  | .vcvt u t d a s r f o => [u.bits ++ 29#6 ++ t ++ d ++ a ++ s ++ r ++ BitVec.ofBool f ++ BitVec.ofBool o]
  | .vcvtd u t d a s f o => [u.bits ++ 30#6 ++ t ++ d ++ a ++ s ++ 0#2 ++ BitVec.ofBool f ++ BitVec.ofBool o]
  | .vperm u t d a b => [u.bits ++ 31#6 ++ t ++ d ++ a ++ b ++ 0#2]
  | .vbcast u t d a l => [u.bits ++ 32#6 ++ t ++ d ++ a ++ l ++ 0#2]
  | .vredadd u t d a f o => [u.bits ++ 33#6 ++ t ++ d ++ a ++ 0#5 ++ BitVec.ofBool f ++ BitVec.ofBool o]
  | .vredmax u t d a f => [u.bits ++ 34#6 ++ t ++ d ++ a ++ 0#5 ++ BitVec.ofBool f ++ 0#1]
  | .vredmin u t d a f => [u.bits ++ 35#6 ++ t ++ d ++ a ++ 0#5 ++ BitVec.ofBool f ++ 0#1]
  | .vpopq u d q => [u.bits ++ 36#6 ++ 0#3 ++ d ++ q ++ 0#10]
  | .vpopl u d l => [u.bits ++ 37#6 ++ 0#3 ++ d ++ 0#2 ++ l ++ 0#7]
  | .vrng u t d a => [u.bits ++ 38#6 ++ t ++ d ++ a ++ 0#7]
  | .prune u d a b k => [u.bits ++ 39#6 ++ 0#3 ++ d ++ a ++ b ++ k]
  | .topk u t d a b => [u.bits ++ 40#6 ++ t ++ d ++ a ++ b ++ 0#2]
  | .qnt u d a b f => [u.bits ++ 41#6 ++ 0#3 ++ d ++ a ++ b ++ BitVec.ofBool f ++ 0#1]
  | .dq u d a b o => [u.bits ++ 42#6 ++ 0#3 ++ d ++ a ++ b ++ 0#1 ++ BitVec.ofBool o]
  | .spenc u t d a k => [u.bits ++ 43#6 ++ t ++ d ++ a ++ 0#5 ++ k]
  | .spdec u t d a k => [u.bits ++ 44#6 ++ t ++ d ++ a ++ 0#5 ++ k]
  | .vmvs u s v l => [u.bits ++ 45#6 ++ s ++ v ++ l ++ 0#4]
  | .vmsv u s v l => [u.bits ++ 46#6 ++ s ++ v ++ l ++ 0#4]
  | .vmoviI32 u m d i => [u.bits ++ 24#5 ++ BitVec.ofBool m ++ d ++ i]
  | .vmoviI64 u m d i => [u.bits ++ 25#5 ++ BitVec.ofBool m ++ d ++ i]
  | .vmoviF32 u m d i => [u.bits ++ 26#5 ++ BitVec.ofBool m ++ d ++ i]
  | .vmoviF64 u m d i => [u.bits ++ 27#5 ++ BitVec.ofBool m ++ d ++ i]
  | .vmoviF16 u m d i => [u.bits ++ 28#5 ++ BitVec.ofBool m ++ d ++ i]
  | .vmoviBf16 u m d i => [u.bits ++ 29#5 ++ BitVec.ofBool m ++ d ++ i]
  | .vmoviH8 u m d i => [u.bits ++ 30#5 ++ BitVec.ofBool m ++ d ++ i]
  | .mma u p k a b z s f o => [u.bits ++ 0#6 ++ p ++ k ++ a ++ b ++ BitVec.ofBool z ++ BitVec.ofBool s ++ BitVec.ofBool f ++ BitVec.ofBool o ++ 0#1]
  | .mmaS u p k a b z s f o => [u.bits ++ 1#6 ++ p ++ k ++ a ++ b ++ BitVec.ofBool z ++ BitVec.ofBool s ++ BitVec.ofBool f ++ BitVec.ofBool o ++ 0#1]
  | .mmaK4 u k a b m => [u.bits ++ 2#6 ++ m.np ++ k ++ a ++ b ++ BitVec.ofBool m.z ++ BitVec.ofBool m.sat ++ BitVec.ofBool m.ftzi ++ BitVec.ofBool m.ftzo ++ 0#1]
  | .trsm u k e w l => [u.bits ++ 3#6 ++ 0#4 ++ k ++ e ++ BitVec.ofBool w ++ l ++ 0#5]
  | .getrf u k w l => [u.bits ++ 4#6 ++ 0#4 ++ k ++ 0#3 ++ BitVec.ofBool w ++ 0#3 ++ BitVec.ofBool l ++ 0#5]
  | .potrf u k w l => [u.bits ++ 5#6 ++ 0#4 ++ k ++ 0#3 ++ BitVec.ofBool w ++ 0#3 ++ BitVec.ofBool l ++ 0#5]
  | .givqr u k e w => [u.bits ++ 6#6 ++ 0#4 ++ k ++ e ++ BitVec.ofBool w ++ 0#9]
  | .rotapp u k e w l => [u.bits ++ 7#6 ++ 0#4 ++ k ++ e ++ BitVec.ofBool w ++ 0#3 ++ BitVec.ofBool l ++ 0#5]
  | .accz u k => [u.bits ++ 8#6 ++ k ++ 0#17]
  | .accld u k d => [u.bits ++ 9#6 ++ k ++ 0#3 ++ d ++ 0#10]
  | .accst u a d => [u.bits ++ 10#6 ++ 0#3 ++ a ++ d ++ 0#10]
  | .drain u a q => [u.bits ++ 11#6 ++ 0#3 ++ a ++ 0#4 ++ q ++ 0#8]
  | .accmov u k a => [u.bits ++ 12#6 ++ k ++ a ++ 0#14]
  | .acct u d => [u.bits ++ 13#6 ++ 0#6 ++ d ++ 0#10]
  | .cbld u d c => [u.bits ++ 14#6 ++ 0#6 ++ d ++ 0#2 ++ c ++ 0#6]
  | .spld u d => [u.bits ++ 15#6 ++ 0#6 ++ d ++ 0#10]
  | .ldV u v a c o => [u.bits ++ 0#6 ++ v ++ a ++ c ++ o]
  | .stV u v a c o => [u.bits ++ 1#6 ++ v ++ a ++ c ++ o]
  | .ldVs u v a c w => [u.bits ++ 2#6 ++ v ++ a ++ c ++ BitVec.ofBool w ++ 0#4]
  | .stVs u v a c w => [u.bits ++ 3#6 ++ v ++ a ++ c ++ BitVec.ofBool w ++ 0#4]
  | .ldVx u v a b c => [u.bits ++ 4#6 ++ v ++ a ++ b ++ c]
  | .stVx u v a b c => [u.bits ++ 5#6 ++ v ++ a ++ b ++ c]
  | .ldrL u l a c u2 => [u.bits ++ 6#6 ++ l ++ a ++ c ++ u2]
  | .pf u d a c => [u.bits ++ 7#6 ++ d ++ a ++ 0#4 ++ c ++ 0#2]
  | .ldS u a c e s w => [u.bits ++ 8#6 ++ a ++ c ++ e ++ s ++ w ++ 0#3]
  | .stS u a c e s w => [u.bits ++ 9#6 ++ a ++ c ++ e ++ s ++ w ++ 0#3]
  | .amoAdd u a c e s w => [u.bits ++ 10#6 ++ a ++ c ++ e ++ s ++ w ++ 0#3]
  | .amoFadd u a c e s w => [u.bits ++ 11#6 ++ a ++ c ++ e ++ s ++ w ++ 0#3]
  | .amoMin u a c e s w => [u.bits ++ 12#6 ++ a ++ c ++ e ++ s ++ w ++ 0#3]
  | .amoMax u a c e s w => [u.bits ++ 13#6 ++ a ++ c ++ e ++ s ++ w ++ 0#3]
  | .amoMinu u a c e s w => [u.bits ++ 14#6 ++ a ++ c ++ e ++ s ++ w ++ 0#3]
  | .amoMaxu u a c e s w => [u.bits ++ 15#6 ++ a ++ c ++ e ++ s ++ w ++ 0#3]
  | .amoAnd u a c e s w => [u.bits ++ 16#6 ++ a ++ c ++ e ++ s ++ w ++ 0#3]
  | .amoOr u a c e s w => [u.bits ++ 17#6 ++ a ++ c ++ e ++ s ++ w ++ 0#3]
  | .amoXor u a c e s w => [u.bits ++ 18#6 ++ a ++ c ++ e ++ s ++ w ++ 0#3]
  | .amoSwp u a c e s w => [u.bits ++ 19#6 ++ a ++ c ++ e ++ s ++ w ++ 0#3]
  | .amoCas u a c e s w => [u.bits ++ 20#6 ++ a ++ c ++ e ++ s ++ w ++ 0#3]
  | .redAdd u a c s w => [u.bits ++ 24#6 ++ a ++ c ++ 0#2 ++ s ++ w ++ 0#3]
  | .redFadd u a c s w => [u.bits ++ 25#6 ++ a ++ c ++ 0#2 ++ s ++ w ++ 0#3]
  | .redMin u a c s w => [u.bits ++ 26#6 ++ a ++ c ++ 0#2 ++ s ++ w ++ 0#3]
  | .redMax u a c s w => [u.bits ++ 27#6 ++ a ++ c ++ 0#2 ++ s ++ w ++ 0#3]
  | .redAnd u a c s w => [u.bits ++ 28#6 ++ a ++ c ++ 0#2 ++ s ++ w ++ 0#3]
  | .redOr u a c s w => [u.bits ++ 29#6 ++ a ++ c ++ 0#2 ++ s ++ w ++ 0#3]
  | .redXor u a c s w => [u.bits ++ 30#6 ++ a ++ c ++ 0#2 ++ s ++ w ++ 0#3]
  | .cpIn u d a i c => [u.bits ++ 32#6 ++ d ++ a ++ i ++ c ++ 0#2]
  | .cpOut u d a i c => [u.bits ++ 33#6 ++ d ++ a ++ i ++ c ++ 0#2]
  | .cpSs u d a i c => [u.bits ++ 34#6 ++ d ++ a ++ i ++ c ++ 0#2]
  | .rsub u d a i c => [u.bits ++ 35#6 ++ d ++ a ++ i ++ c ++ 0#2]
  | .srel u d a c => [u.bits ++ 36#6 ++ d ++ a ++ 0#4 ++ c ++ 0#2]
  | .fpush u v a c => [u.bits ++ 37#6 ++ v ++ a ++ c ++ 0#5]
  | .fpushq u q a c s => [u.bits ++ 38#6 ++ q ++ a ++ c ++ s ++ 0#5]
  | .stq u q a c s => [u.bits ++ 39#6 ++ q ++ a ++ c ++ s ++ 0#5]
  | .interlockedLdSLanding _ _ => []
  | .tileMoveCompletion _ _ => []
  | .unknownCmd => []
  | .ctrlWriteWhileGo => []

/-- The class of a slot instruction; none for events, NOP and REP. -/
def Instr.slotClass : Instr → Option SlotClass
  | .br .. => some .b
  | .jmp .. => some .b
  | .call .. => some .b
  | .ret .. => some .b
  | .loop .. => some .b
  | .wait .. => some .b
  | .bar .. => some .b
  | .fence .. => some .b
  | .trap .. => some .b
  | .eret .. => some .b
  | .setpri .. => some .b
  | .ctnOpen .. => some .b
  | .ctnClose .. => some .b
  | .glaunch .. => some .b
  | .bead .. => some .b
  | .ndone .. => some .b
  | .yield .. => some .b
  | .halt .. => some .b
  | .sqrd .. => some .b
  | .add .. => some .s
  | .sub .. => some .s
  | .mul .. => some .s
  | .mulh .. => some .s
  | .mulhu .. => some .s
  | .div .. => some .s
  | .divu .. => some .s
  | .rem .. => some .s
  | .remu .. => some .s
  | .and .. => some .s
  | .or .. => some .s
  | .xor .. => some .s
  | .shl .. => some .s
  | .shr .. => some .s
  | .ashr .. => some .s
  | .sel .. => some .s
  | .min .. => some .s
  | .max .. => some .s
  | .minu .. => some .s
  | .maxu .. => some .s
  | .clz .. => some .s
  | .ctz .. => some .s
  | .popc .. => some .s
  | .addi .. => some .s
  | .andi .. => some .s
  | .ori .. => some .s
  | .xori .. => some .s
  | .shli .. => some .s
  | .shri .. => some .s
  | .ashri .. => some .s
  | .movi .. => some .s
  | .movs .. => some .s
  | .rdc .. => some .s
  | .wrc .. => some .s
  | .fcmple .. => some .s
  | .fcmpun .. => some .s
  | .cmpeq .. => some .s
  | .cmpne .. => some .s
  | .cmplt .. => some .s
  | .cmpltu .. => some .s
  | .cmple .. => some .s
  | .cmpleu .. => some .s
  | .fcmpeq .. => some .s
  | .fcmplt .. => some .s
  | .faddF32 .. => some .s
  | .fsubF32 .. => some .s
  | .fmulF32 .. => some .s
  | .ffmaF32 .. => some .s
  | .fdivF32 .. => some .s
  | .fsqrtF32 .. => some .s
  | .faddF64 .. => some .s
  | .fsubF64 .. => some .s
  | .fmulF64 .. => some .s
  | .ffmaF64 .. => some .s
  | .fdivF64 .. => some .s
  | .fsqrtF64 .. => some .s
  | .xadd .. => some .x
  | .xaddi .. => some .x
  | .xsub .. => some .x
  | .xshli .. => some .x
  | .xshri .. => some .x
  | .xand .. => some .x
  | .xpopc .. => some .x
  | .xcmpadv .. => some .x
  | .xpatd .. => some .x
  | .xbnet .. => some .x
  | .xbnld .. => some .x
  | .xbperm .. => some .x
  | .xfroms .. => some .x
  | .xtos .. => some .x
  | .xmov .. => some .x
  | .xmovi .. => some .x
  | .vadd .. => some .v
  | .vsub .. => some .v
  | .vmul .. => some .v
  | .vfma .. => some .v
  | .vfms .. => some .v
  | .vdiv .. => some .v
  | .vsqrt .. => some .v
  | .vmin .. => some .v
  | .vmax .. => some .v
  | .vabs .. => some .v
  | .vneg .. => some .v
  | .vrcp .. => some .v
  | .vrsq .. => some .v
  | .vexp2 .. => some .v
  | .vlog2 .. => some .v
  | .vsel .. => some .v
  | .vand .. => some .v
  | .vor .. => some .v
  | .vxor .. => some .v
  | .vnot .. => some .v
  | .vshl .. => some .v
  | .vshr .. => some .v
  | .vashr .. => some .v
  | .vscn .. => some .v
  | .vcmpeq .. => some .v
  | .vcmpne .. => some .v
  | .vcmplt .. => some .v
  | .vcmple .. => some .v
  | .vcmpun .. => some .v
  | .vcvt .. => some .v
  | .vcvtd .. => some .v
  | .vperm .. => some .v
  | .vbcast .. => some .v
  | .vredadd .. => some .v
  | .vredmax .. => some .v
  | .vredmin .. => some .v
  | .vpopq .. => some .v
  | .vpopl .. => some .v
  | .vrng .. => some .v
  | .prune .. => some .v
  | .topk .. => some .v
  | .qnt .. => some .v
  | .dq .. => some .v
  | .spenc .. => some .v
  | .spdec .. => some .v
  | .vmvs .. => some .v
  | .vmsv .. => some .v
  | .vmoviI32 .. => some .v
  | .vmoviI64 .. => some .v
  | .vmoviF32 .. => some .v
  | .vmoviF64 .. => some .v
  | .vmoviF16 .. => some .v
  | .vmoviBf16 .. => some .v
  | .vmoviH8 .. => some .v
  | .mma .. => some .m
  | .mmaS .. => some .m
  | .mmaK4 .. => some .m
  | .trsm .. => some .m
  | .getrf .. => some .m
  | .potrf .. => some .m
  | .givqr .. => some .m
  | .rotapp .. => some .m
  | .accz .. => some .m
  | .accld .. => some .m
  | .accst .. => some .m
  | .drain .. => some .m
  | .accmov .. => some .m
  | .acct .. => some .m
  | .cbld .. => some .m
  | .spld .. => some .m
  | .ldV .. => some .c
  | .stV .. => some .c
  | .ldVs .. => some .c
  | .stVs .. => some .c
  | .ldVx .. => some .c
  | .stVx .. => some .c
  | .ldrL .. => some .c
  | .pf .. => some .c
  | .ldS .. => some .c
  | .stS .. => some .c
  | .amoAdd .. => some .c
  | .amoFadd .. => some .c
  | .amoMin .. => some .c
  | .amoMax .. => some .c
  | .amoMinu .. => some .c
  | .amoMaxu .. => some .c
  | .amoAnd .. => some .c
  | .amoOr .. => some .c
  | .amoXor .. => some .c
  | .amoSwp .. => some .c
  | .amoCas .. => some .c
  | .redAdd .. => some .c
  | .redFadd .. => some .c
  | .redMin .. => some .c
  | .redMax .. => some .c
  | .redAnd .. => some .c
  | .redOr .. => some .c
  | .redXor .. => some .c
  | .cpIn .. => some .c
  | .cpOut .. => some .c
  | .cpSs .. => some .c
  | .rsub .. => some .c
  | .srel .. => some .c
  | .fpush .. => some .c
  | .fpushq .. => some .c
  | .stq .. => some .c
  | _ => none

/-- Keep the candidate with more fixed bits; the earlier one when they are equal. DESIGN CHOICE (log 6). -/
def moreFixed (a b : Option (Nat × Instr)) : Option (Nat × Instr) :=
  match a, b with
  | none, b => b
  | a, none => a
  | some x, some y => if x.1 < y.1 then some y else some x

/-- The number of 1 bits of a number below 2^32. -/
def bitCount (n : Nat) : Nat := ((List.range 32).filter (fun k => n.testBit k)).length

/-- The bits that the opcode table fixes for an instruction, where they are not those of its opcode: MMA_K4 stands there
under NP6, with its flags 0. DESIGN CHOICE (log 6). -/
def rowBits (i : Instr) (m : Nat) : Nat :=
  match i with
  | .mmaK4 _ _ _ _ ⟨6, _, false, false, false⟩ => 0xF000F
  | _ => m

/-- The reading of a word in a class, with how many of its bits that reading fixes. DESIGN CHOICE (log 6). -/
def candidate (cl : SlotClass) (w : Word) : Option (Nat × Instr) :=
  match decodeWord cl w with
  | .ok i => some (bitCount (rowBits i (fixedBits cl (opcOf w)).1), i)
  | .error _ => none

/-- DESIGN CHOICE (log 6): the instruction read from a single word whose class nothing names. A header of an empty
bundle is NOP; otherwise the reading that fixes most bits of the word, the first class in MASK order when equal. -/
def decodeTableWord (nbits w : Nat) : Option Instr :=
  let x : Word := BitVec.ofNat 32 (w % 2 ^ nbits)
  if x = 0x00010000 then some (.nop false)
  else if x = 0x00010200 then some (.nop true)
  else
    ((moreFixed (moreFixed (moreFixed (moreFixed (moreFixed (candidate .b x) (candidate .s x)) (candidate .x x))
      (candidate .v x)) (candidate .m x)) (candidate .c x)).map Prod.snd) <|> decodePrefix x

end Sys2Proof
end

