-- ==== Sys2Proof/Machine/Events.lean ====
section
/-! DEFINITION. What a step performs (R236 to R249): the log of a step's memory operations and synchronisation events, in the
order in which they perform. The log says what happened, and decides nothing but the digests of replicas (log 39).
DESIGN CHOICE (log 50). -/

namespace Sys2Proof.Machine

/-- Every ordering class. -/
def allClasses : BitVec 16 := BitVec.allOnes 16

/-- The scopes .die and .sys (Table 10.3). -/
def dieScope : BitVec 3 := 2
def sysScope : BitVec 3 := 5

/-- The slice that a context runs: its graph, node, attempt and logical index. -/
def State.sliceKey (s : State) (c : CtxId) : Option (Nat × Nat × Nat × Nat) :=
  (s.ctx c).slice.map (fun sl => (sl.graph, sl.node, sl.attempt, sl.lidx))

/-- The slice that an event is of: that of the context, of its copy engine, or of a ring that it still owns. -/
def State.writer (s : State) (e : Ev) : Option (Nat × Nat × Nat × Nat) :=
  let owns (c : CtxId) : Bool := (s.ctx c).copies.any (fun p => match p.2 with | .running q => q.before == e.id / 16 | _ => false)
  match e.agent with
  | .ctx c => s.sliceKey c
  | .engine c => s.sliceKey c
  | .quarry n => if owns ⟨n, false⟩ then s.sliceKey ⟨n, false⟩ else if owns ⟨n, true⟩ then s.sliceKey ⟨n, true⟩ else none
  | _ => none

/-- An event as it performs: with the slice that it is of and the step. -/
def State.stamped (s : State) (e : Ev) : Ev := { e with slice := s.writer e, tick := s.tick }

/-- An event performs: it joins the log and, while a replica group stands, what has performed before. DESIGN CHOICE (log 50).
DEDUCED (log 39). -/
def State.logged (s : State) (e : Ev) : State :=
  { s with log := s.log ++ [s.stamped e], past := if s.replicas = [] then s.past else s.past ++ [s.stamped e] }

/-- An event that is no atomic access, no release and no acquire, and holds nothing back. -/
def Ev.plain (a : Agent) (id : Nat) (k : EvKind) (classes : BitVec 16) (keys : List Nat) : Ev :=
  ⟨a, id, k, false, classes, keys, none, none, none, false, [], false, 0⟩

/-- A synchronisation event, which belongs to every class (Table 10.1). -/
def State.sync (s : State) (a : Agent) (id : Nat) (k : EvKind) : State := s.logged (.plain a id k allClasses [])

/-- A plain access. DESIGN CHOICE (log 50). -/
def State.notePlain (s : State) (a : Agent) (id : Nat) (k : EvKind) (classes : BitVec 16) (keys : List Nat) : State :=
  s.logged (.plain a id k classes keys)

/-- An access of the saving or the restoring of an image: it alone of plain accesses stands in every class.
DESIGN CHOICE (log 50). -/
def State.noteImage (s : State) (c : CtxId) (k : EvKind) (keys : List Nat) : State :=
  s.notePlain (.ctx c) (16 * s.tick) k allClasses keys

/-- A plain access of an operation whose interlock holds some granules (R182, R219). DESIGN CHOICE (log 50). -/
def State.noteHeld (s : State) (a : Agent) (id : Nat) (k : EvKind) (classes : BitVec 16) (keys : List Nat) (own : Bool)
    (held : List Nat) (both : Bool) : State :=
  s.logged { Ev.plain a id k classes keys with own := own, held := held, both := both }

/-- An atomic access of no context: a state byte of a ring, or a field of a record. -/
def State.noteAtomic (s : State) (a : Agent) (id : Nat) (k : EvKind) (keys : List Nat) (release acquire : Option (BitVec 3)) :
    State := s.logged { Ev.plain a id k 0 keys with atomic := true, release := release, acquire := acquire }

/-- The place in program order of what a context does in this step that no slot issues. DESIGN CHOICE (log 50). -/
def State.stepId (s : State) : Nat := 16 * s.tick

@[simp] theorem State.logged_mem (s : State) (e : Ev) : (s.logged e).mem = s.mem := rfl
@[simp] theorem State.logged_cores (s : State) (e : Ev) : (s.logged e).cores = s.cores := rfl
@[simp] theorem State.sync_mem (s : State) (a : Agent) (id : Nat) (k : EvKind) : (s.sync a id k).mem = s.mem := rfl
@[simp] theorem State.notePlain_mem (s : State) (a : Agent) (id : Nat) (k : EvKind) (c : BitVec 16) (l : List Nat) :
    (s.notePlain a id k c l).mem = s.mem := rfl
@[simp] theorem State.noteImage_mem (s : State) (c : CtxId) (k : EvKind) (l : List Nat) :
    (s.noteImage c k l).mem = s.mem := rfl
@[simp] theorem State.noteHeld_mem (s : State) (a : Agent) (id : Nat) (k : EvKind) (c : BitVec 16) (l : List Nat) (o : Bool)
    (h : List Nat) (b : Bool) : (s.noteHeld a id k c l o h b).mem = s.mem := rfl
@[simp] theorem State.noteAtomic_mem (s : State) (a : Agent) (id : Nat) (k : EvKind) (l : List Nat)
    (x y : Option (BitVec 3)) : (s.noteAtomic a id k l x y).mem = s.mem := rfl

end Sys2Proof.Machine
end

