-- ==== Sys2Proof/Machine/Launch.lean ====
section
/-! DEFINITION. What a bead or a launch does (ch. 14): what a read of memory finds (R258), graph and node records, launch (R275,
R276), beads and firing (R278, R279). Contexts wait for the messages that they post to Keystone (R239), so these stand
before the order of a context's operations. -/

namespace Sys2Proof.Machine

/-! ### What a read finds (R258) -/

/-- An error in a granule that a read finds: a corrected one is recorded in the SQ of the core that owns the slab, an
uncorrectable one poisons the granule. `one` and `pc` name the bundle that issued the read. The
record names the granule in the Wall window. DESIGN CHOICE (log 56). -/
def State.findFlaw (s : State) (one : Bool) (pc : DWord) (f : Nat × Bool) : State :=
  let s := { s with flaws := s.flaws.erase f.1 }
  if f.2 then s.poisonGranule f.1
  else match coreOfKey (f.1 * 64) with
    | some n => s.record n (sqRecord one 0x04 pc (f.1 * 64))
    | none => s

/-- A read of some keys finds the errors in their granules. DESIGN CHOICE (log 56). -/
def State.find (s : State) (one : Bool) (pc : DWord) (keys : List Nat) : State :=
  (s.flaws.filter (fun f => keys.any (fun k => granule k == f.1))).foldl (fun s f => s.findFlaw one pc f) s

/-! ### Graphs and nodes -/

def State.nodeOf (s : State) (graph node : Nat) : Option Node :=
  match s.graphs.find graph with
  | some g => g.nodes.find node
  | none => none

def State.updGraph (s : State) (graph : Nat) (f : Graph → Graph) : State :=
  match s.graphs.find graph with
  | some g => { s with graphs := s.graphs.put graph (f g) }
  | none => s

def State.updNode (s : State) (graph node : Nat) (f : Node → Node) : State :=
  s.updGraph graph (fun g => match g.nodes.find node with
    | some n => { g with nodes := g.nodes.put node (f n) }
    | none => g)

/-! ### Events of plumb graphs (R341) -/

/-- A count of the management window that saturates (Table 19.4). -/
def satInc (v : BitVec 32) : BitVec 32 := if v = BitVec.allOnes 32 then v else v + 1

/-- Whether a graph runs in plumb mode. -/
def State.isPlumb (s : State) (graph : Nat) : Bool :=
  match s.graphs.find graph with
  | some g => g.plumb
  | none => false

/-- An event of R341 in a plumb graph counts. DEDUCED (log 34). -/
def State.plumbEvent (s : State) (graph : Nat) : State :=
  if s.isPlumb graph then { s with mgmt := { s.mgmt with plumbbrk := satInc s.mgmt.plumbbrk } } else s

/-- An event of R341 at the deque of a core of a plumb course counts. DEDUCED (log 34). -/
def State.plumbCore (s : State) (core : Nat) : State :=
  if (s.course (courseOf core)).plumb then { s with mgmt := { s.mgmt with plumbbrk := satInc s.mgmt.plumbbrk } } else s

/-! ### Record accesses (R275, R286) -/

/-- The keys of a record's bytes. -/
def State.recordKeys (s : State) (space : Nat) (acc : AccessKind) (va n : Nat) : Option (List Nat) :=
  if 2 ^ 56 < va + n then none
  else match s.translateRange space acc va n with
    | .ok ks => some ks
    | .error _ => none

/-- A read of Keystone or of the monitor finds the errors of its granules (R258); the spec does not say which context and
bundle the record of one in a slab names. DESIGN CHOICE (log 56). -/
def State.findAny (s : State) (keys : List Nat) : State :=
  s.find ((Config.unpredictable s.tick 2000).getLsbD 0) ((Config.unpredictable s.tick 2001).setWidth 64) keys

/-- What Keystone finds when it reads bytes of a space. -/
def State.ksFind (s : State) (space va n : Nat) : State :=
  if s.flaws = [] then s
  else match s.recordKeys space .read va n with
    | some ks => s.findAny ks
    | none => s

def State.recordError (s : State) : State := { s with mgmt := { s.mgmt with recerr := satInc s.mgmt.recerr } }

/-- Keystone writes a field of its own structures in a slab; a write that is not performed is counted (R259, R286).
DEDUCED (log 58). -/
def State.ksStore (s : State) (k n v : Nat) : State :=
  let r := s.store (cellsAt k (bytesOfNat n v))
  let r := (r.1.notePlain .keystone 0 .write 0 ((List.range n).map (fun i => k + i)), r.2)
  if r.2.isSome then (r.1.plumbCore ((coreOfKey k).getD 0)).recordError else r.1

/-- Keystone reads a record: none where it does not translate or is poisoned. -/
def State.ksRead (s : State) (space va n : Nat) : Option (List Byte) :=
  match s.recordKeys space .read va n with
  | some ks => if ks.any s.poisoned then none else some (ks.map s.byte)
  | none => none

/-- Keystone writes a field of a record of a graph, whose place in the log is its number; a write that does not perform is lost
and counted (R286). -/
def State.ksWrite (s : State) (gi space va n v : Nat) : State :=
  match s.recordKeys space .write va n with
  | some ks =>
    let r := s.store (ks.zip (bytesOfNat n v))
    match r.2 with
    | some _ => r.1.recordError
    | none => r.1.noteAtomic .keystone gi .write ks (some sysScope) none
  | none => s.recordError

def leNat (bs : List Byte) (off n : Nat) : Nat := natOfBytes ((bs.drop off).take n)

/-! ### Fields of records (Tables 14.1, 14.2) -/

/-- The cores of a set, ascending. -/
def coresOf (p : BitVec 256) : List Nat := (List.range 256).filter (fun n => p.getLsbD n)

/-- The entries of PERM. DEDUCED (log 45). -/
def permEntries (p : Nat) : List Nat := (List.range 6).map (fun m => p / 8 ^ m % 8)

/-- The successor entries of a node record, as words. -/
def succWords (bs : List Byte) : List Nat := (List.range 4).map (fun i => leNat bs (112 + 4 * i) 4)

/-- State codes (Table 14.4). -/
def NState.code : NState → Nat
  | .idle => 0 | .armed => 1 | .ready => 2 | .running => 3 | .done => 4 | .faulted => 5 | .cancelled => 6 | .void => 7

/-- STATUS codes (Table 14.2). -/
def GState.code : GState → Nat
  | .running => 1 | .done => 2 | .fault => 3

/-- A node as launch arms it (R276). -/
def nodeOfBytes (addr : DWord) (bs : List Byte) : Node :=
  let flags : BitVec 8 := bs.getD 5 0
  let retries := leNat bs 6 1 % 8
  let depth := leNat bs 55 1 % 8
  { addr := addr
    id := BitVec.ofNat 32 (leNat bs 0 4)
    state := .armed
    cls := flags.extractLsb' 0 2
    pin := flags.getLsbD 2
    idem := flags.getLsbD 3
    drain := flags.getLsbD 4
    ckpt := flags.getLsbD 5
    kill := flags.getLsbD 6
    retries := retries
    left := retries
    pendInit := leNat bs 7 1
    pro := BitVec.ofNat 64 (leNat bs 8 8)
    ker := BitVec.ofNat 64 (leNat bs 16 8)
    epi := BitVec.ofNat 64 (leNat bs 24 8)
    trip := leNat bs 32 4
    exts := (List.range depth).map (fun i => leNat bs (36 + 2 * i) 2)
    perm := (permEntries (leNat bs 48 3)).take depth
    pending := leNat bs 7 1
    tokens := leNat bs 52 2
    succs := ((succWords bs).take (leNat bs 54 1 % 8)).map (fun w => (w / 256, w % 64))
    estimate := leNat bs 56 4
    ccnt := 0
    arrive := 0
    seed := BitVec.ofNat 64 (leNat bs 72 8)
    place := BitVec.ofNat 256 (leNat bs 80 32)
    nkey := 0
    cores := []
    unretired := 0
    startedAt := none
    killing := false
    withheld := false
    attempt := 0 }

/-! ### Launch (R275, R276) -/

/-- The lowest error code among checks given in ascending order of their codes. -/
def lowestCode (l : List (Bool × Nat)) : Option Nat := (l.find? (fun p => p.1)).map Prod.snd

/-- The courses assigned to a space (R362). -/
def State.coursesOf (s : State) (space : Nat) : List Nat :=
  (List.range 32).filter (fun n => (s.course n).space == some space)

/-- ERRCODE 0x0C does not apply to a placement. -/
def State.placeable (s : State) (space : Nat) (n : Node) : Bool :=
  if n.pin then (coresOf n.place).all (fun k => (s.course (courseOf k)).space == some space)
  else decide ((coresOf n.place).length ≤ 8 * (s.coursesOf space).length)

/-- The checks of a graph record (Table 14.3). -/
def State.graphError (s : State) (launcher : Nat) (bs : List Byte) : Option Nat :=
  let space := leNat bs 0 2
  let count := leNat bs 16 4
  lowestCode [
    (decide (2 ≤ leNat bs 2 1) || (bs.drop 37).any (· != 0), 0x01),
    (decide (4 < leNat bs 3 1) || leNat bs 8 8 % 128 != 0 || count == 0 || decide (2 ^ 24 < count) ||
      (s.spaces.find space).isNone, 0x02),
    (space != launcher, 0x0B)]

/-- A code address that PRO, KER and EPI may hold. -/
def codeOk (a : DWord) : Bool := a.extractLsb' 56 8 == 0 && a.extractLsb' 0 2 == 0

/-- The checks of a node record (Table 14.3). DEDUCED (log 45). -/
def State.nodeError (s : State) (space count : Nat) (plumb : Bool) (twin : BitVec 32) (bs : List Byte) : Option Nat :=
  let n := nodeOfBytes 0 bs
  let depth := leNat bs 55 1 % 8
  let nsucc := leNat bs 54 1 % 8
  let exts := (List.range 6).map (fun i => leNat bs (36 + 2 * i) 2)
  let perm := permEntries (leNat bs 48 3)
  let succs := succWords bs
  lowestCode [
    (decide (128 ≤ leNat bs 5 1) || decide (64 ≤ leNat bs 6 1) || decide (8 ≤ leNat bs 54 1) ||
      decide (8 ≤ leNat bs 55 1) || leNat bs 61 3 != 0 || succs.any (fun w => w / 64 % 4 != 0) ||
      (succs.drop nsucc).any (· != 0), 0x01),
    (n.id == BitVec.allOnes 32 || decide (7 < leNat bs 4 1), 0x03),
    (depth == 0 || decide (6 < depth) || (exts.take depth).any (· == 0) || (exts.drop depth).any (· != 0) ||
      n.trip != (exts.take depth).foldl (· * ·) 1, 0x04),
    (!((List.range depth).all (fun d => (perm.take depth).contains d)) || (perm.drop depth).any (· != 0), 0x05),
    (n.place == 0, 0x06),
    (!codeOk n.pro || !codeOk n.ker || !codeOk n.epi, 0x07),
    (decide (64 < n.pendInit) || decide (4 < nsucc) || n.succs.any (fun p => decide (count ≤ p.1)), 0x08),
    (plumb && !n.pin, 0x09),
    ((coresOf n.place).any (fun k => k % 2 == 1 && twin.getLsbD (courseOf k)), 0x0A),
    (!s.placeable space n, 0x0C)]

/-- Read and check the node records of some indices: the nodes, or the first failure; the bytes read come with them. -/
def State.readNodes (s : State) (space count : Nat) (plumb : Bool) (twin : BitVec 32) (first : Nat) :
    List Nat → Except (Nat × Nat) (List Node × List Byte)
  | [] => .ok ([], [])
  | i :: is =>
    match s.ksRead space (first + 128 * i) 128 with
    | none => .error (i, 0x0E)
    | some bs =>
      match s.nodeError space count plumb twin bs with
      | some e => .error (i, e)
      | none =>
        match State.readNodes s space count plumb twin first is with
        | .error e => .error e
        | .ok r => .ok (nodeOfBytes (BitVec.ofNat 64 (first + 128 * i)) bs :: r.1, bs ++ r.2)

/-- A launch is rejected. -/
def State.rejectLaunch (s : State) (space addr index code : Nat) : State :=
  ((s.ksWrite s.launches space (addr + 3) 1 4).ksWrite s.launches space (addr + 32) 4 index).ksWrite s.launches space
    (addr + 36) 1 code

/-! ### Node fields -/

/-- Whether bytes of a record are poisoned. -/
def State.recordPoisoned (s : State) (space va n : Nat) : Bool :=
  if s.poison = [] then false
  else match s.recordKeys space .read va n with
    | some ks => ks.any s.poisoned
    | none => false

/-- Keystone writes a field of a record of a graph; poison that it meets counts in a plumb graph (R341).
DEDUCED (log 34). -/
def State.writeField (s : State) (gi : Nat) (g : Graph) (va n v : Nat) : State :=
  let t := s.ksWrite gi g.space va n v
  if s.recordPoisoned g.space va n then t.plumbEvent gi else t

/-- Write a field of a node record. -/
def State.writeNode (s : State) (gi ni off n v : Nat) : State :=
  match s.graphs.find gi, s.nodeOf gi ni with
  | some g, some x => s.writeField gi g (x.addr.toNat + off) n v
  | _, _ => s

/-- Write a field of a graph record. -/
def State.writeGraph (s : State) (gi off n v : Nat) : State :=
  match s.graphs.find gi with
  | some g => s.writeField gi g (g.addr.toNat + off) n v
  | none => s

def State.setNodeState (s : State) (gi ni : Nat) (x : NState) : State :=
  (s.updNode gi ni (fun n => { n with state := x })).writeNode gi ni 4 1 x.code

/-- ARRIVE and PENDING change together (R278). -/
def State.setArrive (s : State) (gi ni : Nat) (a : BitVec 64) : State :=
  let bits := ((List.range 64).filter (fun k => a.getLsbD k)).length
  let s := s.updNode gi ni (fun n => { n with arrive := a, pending := n.pendInit - bits })
  let p := match s.nodeOf gi ni with | some n => n.pending | none => 0
  (s.writeNode gi ni 64 8 a.toNat).writeNode gi ni 51 1 p

/-- BUDGET: RETRIES as written, LEFT (Table 14.1). -/
def State.setLeft (s : State) (gi ni left : Nat) : State :=
  let s := s.updNode gi ni (fun n => { n with left := left })
  match s.nodeOf gi ni with
  | some n => s.writeNode gi ni 6 1 (n.retries + 8 * left)
  | none => s

def State.setCcnt (s : State) (gi ni v : Nat) : State :=
  (s.updNode gi ni (fun n => { n with ccnt := v })).writeNode gi ni 60 1 v

/-! ### Firing (R278, R279) -/

/-- NKEY of a node (R279). -/
def nodeKey (seed device : DWord) (id : BitVec 32) : DWord :=
  (if seed = 0 then device else seed) ^^^ (id.setWidth 64 * 0x9E3779B97F4A7C15)

/-- The home course of a node. -/
def Node.home (n : Node) : Nat := courseOf ((coresOf n.place).headD 0)

/-- The order of a ready queue (R280). -/
def State.readyBefore (s : State) (a b : Nat × Nat) : Bool :=
  match s.nodeOf a.1 a.2, s.nodeOf b.1 b.2 with
  | some x, some y =>
    if x.cls ≠ y.cls then decide (y.cls < x.cls)
    else if x.id ≠ y.id then decide (x.id < y.id) else decide (a.1 < b.1)
  | _, _ => false

/-- A node takes its place in a ready queue, behind one that compares equal (R280). DESIGN CHOICE (log 74). -/
def State.insertReady (s : State) (e : Nat × Nat) : List (Nat × Nat) → List (Nat × Nat)
  | [] => [e]
  | f :: fs => if s.readyBefore e f then e :: f :: fs else f :: s.insertReady e fs

/-- A node becomes READY. DEDUCED (log 45). -/
def State.becomeReady (s : State) (gi ni : Nat) : State :=
  match s.nodeOf gi ni with
  | none => s
  | some n =>
    let s := s.updNode gi ni (fun n => { n with nkey := nodeKey n.seed s.seed n.id })
    let s := s.setNodeState gi ni .ready
    let co := s.course n.home
    s.setCourse n.home { co with ready := s.insertReady (gi, ni) co.ready }

/-- The node of a RUNNING graph of a space whose record lies at an address. -/
def State.findNode (s : State) (space addr : Nat) : Option (Nat × Nat) :=
  s.graphs.findSome? (fun p =>
    if p.2.status = .running ∧ p.2.space = space then
      (p.2.nodes.find? (fun q => q.2.addr.toNat == addr)).map (fun q => (p.1, q.1))
    else none)

/-- A bead of some origin takes effect on a slot of a node (Table 14.5). -/
def State.applyBead (s : State) (src : Origin) (gi ni slot : Nat) : State :=
  match s.nodeOf gi ni with
  | none => s
  | some n =>
    if n.state = .done ∨ n.state = .void ∨ n.state = .idle ∨ n.arrive.getLsbD slot then s
    else
      let s := (s.setArrive gi ni (n.arrive ||| (1#64 <<< slot))).sync .keystone gi (.bead src gi ni slot)
      match s.nodeOf gi ni with
      | some m => if m.state = .armed ∧ m.pending = 0 then s.becomeReady gi ni else s
      | none => s

/-- A bead is dropped and counted (R278, R344). -/
def State.dropBead (s : State) : State := { s with mgmt := { s.mgmt with beaddrop := satInc s.mgmt.beaddrop } }

/-- A bead that an agent of a space posts. -/
def State.bead (s : State) (src : Origin) (space addr slot : Nat) : State :=
  match s.findNode space addr with
  | some (gi, ni) => s.applyBead src gi ni slot
  | none => s.dropBead

/-- A launch that has passed every check (R276). DESIGN CHOICE (log 43). -/
def State.armGraph (s : State) (src : Origin) (g : Graph) : State :=
  let gi := s.launches
  let old := s.graphs.filter (fun p => !(p.2.space == g.space && p.2.addr == g.addr))
  let fresh (r : Replica) : Replica := if r.space = g.space ∧ r.graph = g.addr then { r with since := s.past.length } else r
  let s := { s with graphs := SMap.put old gi g, launches := gi + 1, replicas := s.replicas.map fresh }.sync .keystone gi (.launch src gi)
  let ns := List.range g.count
  let s := ns.foldl (fun s i =>
    match s.nodeOf gi i with
    | some n => (((s.setArrive gi i 0).setLeft gi i n.retries).setCcnt gi i 0).setNodeState gi i .armed
    | none => s) s
  let s := (((s.writeGraph gi 20 4 0).writeGraph gi 24 4 0).writeGraph gi 28 4 0).writeGraph gi 36 1 0
  let s := (s.writeGraph gi 32 4 0).writeGraph gi 3 1 1
  ns.foldl (fun s i =>
    match s.nodeOf gi i with
    | some n => if n.pendInit = 0 then s.becomeReady gi i else s
    | none => s) s

/-- Poison that a plumb launch meets in a node record counts (R341). DEDUCED (log 34). -/
def State.launchPoison (s : State) (plumb : Bool) (e : Nat × Nat) (space first : Nat) : State :=
  if plumb && e.2 == 0x0E && s.recordPoisoned space (first + 128 * e.1) 128 then
    { s with mgmt := { s.mgmt with plumbbrk := satInc s.mgmt.plumbbrk } }
  else s

/-- A launch goes by what the records say (R275). DEDUCED (log 45). -/
def State.tryLaunch (s : State) (src : Origin) (space addr : Nat) : State :=
  match s.ksRead space addr 64 with
  | none => s.recordError
  | some bs =>
    if leNat bs 3 1 = 1 ∨ s.graphs.any (fun p => p.2.space == space && p.2.addr.toNat == addr && p.2.status == .running) then s
    else match s.graphError space bs with
      | some e => s.rejectLaunch space addr 0xFFFFFFFF e
      | none =>
        let count := leNat bs 16 4
        let first := leNat bs 8 8
        let plumb := leNat bs 2 1 == 1
        let twin := BitVec.ofNat 32 (leNat bs 4 4)
        let s := s.ksFind space first (128 * count)
        match s.readNodes space count plumb twin first (List.range count) with
        | .error e => (s.launchPoison plumb e space first).rejectLaunch space addr e.1 e.2
        | .ok r =>
          if plumb && !Config.plumbFits (bs ++ r.2) then s.rejectLaunch space addr 0xFFFFFFFF 0x0D
          else s.armGraph src {
            space := space
            addr := BitVec.ofNat 64 addr
            plumb := plumb
            twin := twin
            first := BitVec.ofNat 64 first
            count := count
            status := .running
            done := 0
            voided := 0
            retry := 0
            nodes := r.1.mapIdx (fun i n => (i, n)) }

/-- A launch from a space: Keystone reads the graph record, and then decides. DEDUCED (log 45). -/
def State.launch (s : State) (src : Origin) (space addr : Nat) : State :=
  ((s.ksFind space addr 64).sync .keystone s.launches (.taken src)).tryLaunch src space addr

/-! ### Messages (R135, R136, R249) -/

/-- The context whose earlier operations a message waits for (R249). -/
def KsMsg.behind : KsMsg → Option Behind
  | .bead b _ _ _ => b
  | .launch b _ _ => b
  | .fault _ _ _ _ _ _ => none

/-- Where a message comes from. -/
def KsMsg.origin (m : KsMsg) : Origin := match m.behind with | some b => .ctx b.c b.op | none => .other

/-- Take the k-th message out. -/
def State.dropMsg (s : State) (k : Nat) : State := { s with ksq := s.ksq.eraseIdx k }

/-- A message has left its context. -/
def KsMsg.asSent : KsMsg → KsMsg
  | .bead b space addr slot => .bead (b.map (fun x => { x with sent := true })) space addr slot
  | .launch b space addr => .launch (b.map (fun x => { x with sent := true })) space addr
  | m => m

/-- Whether a message has still to leave its context. -/
def KsMsg.waits (m : KsMsg) : Bool := match m.behind with | some b => !b.sent | none => false

/-- A BEAD or GLAUNCH performs: it leaves its context, at its place in program order (R239, R249). DESIGN CHOICE (log 48). -/
def State.notePost (s : State) (m : KsMsg) : State :=
  match m.behind with
  | some b => if b.sent then s else s.sync (.ctx b.c) b.op .post
  | none => s

/-- The k-th message leaves its context. DESIGN CHOICE (log 48). -/
def State.sendMsg (s : State) (k : Nat) (m : KsMsg) : State := { s with ksq := s.ksq.set k m.asSent }.notePost m

/-- A message is taken: a bead or a launch takes effect. A fault is none of these. -/
def State.takeMsg (s : State) (k : Nat) (m : KsMsg) : State :=
  match m with
  | .bead _ space addr slot => ((s.dropMsg k).notePost m).bead m.origin space addr.toNat slot
  | .launch _ space addr => ((s.dropMsg k).notePost m).launch m.origin space addr.toNat
  | .fault _ _ _ _ _ _ => s

end Sys2Proof.Machine
end

