-- ==== Sys2Proof/Machine/Descr.lean ====
section
/-! DEFINITION. Tile descriptors and their regions in the slab (R32, R212 to R214), and the bytes that an array operation
reads (R202). -/

namespace Sys2Proof.Machine

/-! ### Descriptors (R212, R213) -/

/-- A tile descriptor, its fields taken apart (Table 9.1). -/
structure Descr where
  base : Nat
  stride : Nat
  rows : Nat
  cols : Nat
  fmt : Nat
  cb : Nat
  spk : Nat
  spall : Nat
  metaAddr : Nat
  reserved : Bool
  deriving DecidableEq, Repr

def Descr.of (d : BitVec 256) : Descr where
  base := (d.extractLsb' 0 32).toNat
  stride := (d.extractLsb' 32 32).toNat
  rows := (d.extractLsb' 64 16).toNat
  cols := (d.extractLsb' 80 16).toNat
  fmt := (d.extractLsb' 96 4).toNat
  cb := (d.extractLsb' 100 2).toNat
  spk := (d.extractLsb' 102 2).toNat
  spall := (d.extractLsb' 128 32).toNat
  metaAddr := (d.extractLsb' 160 32).toNat
  reserved := d.extractLsb' 192 64 != 0 || d.extractLsb' 104 24 != 0

/-- Unit bytes by FMT (Table 9.2). -/
def unitBytes (fmt : Nat) : Nat :=
  match fmt with
  | 0 => 4 | 1 => 8 | 2 => 2 | 3 => 2 | 4 => 1 | 5 => 4 | 6 => 4 | 7 => 8 | _ => 1

/-- K4 (Table 9.2). -/
def fmtK4 : Nat := 10

/-- rb, the bytes of a row (R212). -/
def Descr.rowBytes (d : Descr) : Nat := if d.fmt = fmtK4 then d.cols / 2 else d.cols * unitBytes d.fmt

/-- The units of a row that a copy moves (R179). -/
def Descr.rowUnits (d : Descr) : Nat := if d.fmt = fmtK4 then d.cols / 2 else d.cols

/-- The slab address of row r, as an exact number (R212). -/
def Descr.row (d : Descr) (r : Nat) : Nat := d.base + r * d.stride

/-- The keys of a run of own-slab bytes; both ends lie in one window. -/
def State.ownKey (s : State) (core a : Nat) : Nat := (s.ownSlab core a 1).getD (slabKey core (a % 0x200000))

/-- The keys of the bytes of a descriptor's rows. -/
def State.regionRow (s : State) (core : Nat) (d : Descr) (r : Nat) : Nat := s.ownKey core (d.row r)

/-- The granules of `n` bytes from a key on. -/
def granulesFrom (k n : Nat) : List Nat :=
  if n = 0 then [] else (List.range (granule (k + n - 1) - granule k + 1)).map (fun i => granule k + i)

/-- A run of bytes: its first key and its length. -/
abbrev Span := Nat × Nat

/-- Whether two runs share a byte. -/
def Span.meets (a b : Span) : Bool := decide (a.1 < b.1 + b.2) && decide (b.1 < a.1 + a.2)

def Span.granules (a : Span) : List Nat := granulesFrom a.1 a.2

/-- The runs of a descriptor's rows. -/
def State.regionSpans (s : State) (core : Nat) (d : Descr) : List Span :=
  (List.range d.rows).map (fun r => (s.regionRow core d r, d.rowBytes))

/-- The granules that hold a byte of the rows (R32, R182). -/
def State.regionGranules (s : State) (core : Nat) (d : Descr) : List Nat := (s.regionSpans core d).flatMap Span.granules

/-- Pattern kind of SPK: kept count n and group size G (Table 8.6); dense is 1 of 1. -/
def keptOf (spk : Nat) : Nat × Nat :=
  match spk with
  | 1 => (2, 4)
  | 2 => (2, 8)
  | 3 => (4, 8)
  | _ => (1, 1)

/-- R214 step 1: the operand faults of a descriptor. -/
def Descr.bad (d : Descr) : Bool :=
  d.reserved || 11 ≤ d.fmt || d.rows == 0 || d.cols == 0 || (d.fmt == fmtK4 && d.cols % 2 == 1) ||
    (1 < d.rows && d.stride < d.rowBytes)

/-- R214 step 2: row starts and the extent in the own slab. -/
def State.regionOk (s : State) (core : Nat) (d : Descr) : Bool :=
  d.base % unitBytes d.fmt == 0 && (d.rows == 1 || d.stride % unitBytes d.fmt == 0) &&
    (s.ownSlab core d.base ((d.rows - 1) * d.stride + d.rowBytes)).isSome

/-- R214 step 3, for an M-slot form. -/
def Descr.aligned8 (d : Descr) : Bool := d.base % 8 == 0 && d.stride % 8 == 0

/-- The bytes of a tile's metadata (R196): the scales of a K4 operand, then the pattern words of a sparse one. -/
def Descr.metaBytes (d : Descr) : Nat :=
  let (n, g) := keptOf d.spk
  let stored := d.rows * d.cols
  let scales := if d.fmt = fmtK4 then 4 * (((stored + 31) / 32 + 3) / 4) else 0
  let words := if d.spk = 0 then 0 else (stored * g / n + 31) / 32 * 4
  scales + words

/-- The address of the pattern words (R196). -/
def Descr.patterns (d : Descr) : Nat :=
  d.metaAddr + (if d.fmt = fmtK4 then 4 * (((d.rows * d.cols + 31) / 32 + 3) / 4) else 0)

/-- R214 step 4. -/
def State.metaOk (s : State) (core : Nat) (d : Descr) : Bool :=
  d.metaAddr % 4 == 0 && (s.ownSlab core d.metaAddr (max d.metaBytes 1)).isSome

/-- R214 step 5. -/
def State.spallOk (s : State) (core : Nat) (d : Descr) : Bool :=
  d.spall == 0 || (d.spall % 8 == 0 && (s.ownSlab core d.spall 8).isSome)

/-! ### What an array operation reads (R202) -/

/-- Whether a multiply reads META of an operand (R196). -/
def Descr.hasMeta (d : Descr) : Bool := d.fmt == fmtK4 || d.spk != 0

/-- The runs of a descriptor as an array operand: rows, metadata, and the list with all its entries, as many as its CAP
says once what comes before has performed. -/
def State.operandSpans (s : State) (core : Nat) (d : Descr) (lists : Bool) : List Span :=
  let k := s.ownKey core d.spall
  s.regionSpans core d ++ (if d.hasMeta then [(s.ownKey core d.metaAddr, d.metaBytes)] else []) ++
    (if lists && d.spall != 0 then [(k, 8 + 8 * min (s.readNat (k + 2) 2) 64)] else [])

/-- The runs that an array operation reads, as memory stands. -/
def State.arraySpans (s : State) (core : Nat) (i : Instr) (a b : Descr) : List Span :=
  match i with
  | .mma _ _ _ _ _ _ _ _ _ => s.operandSpans core a false ++ s.operandSpans core b false
  | .mmaS _ _ _ _ _ _ _ _ _ => s.operandSpans core a false ++ s.operandSpans core b false
  | .mmaK4 _ _ _ _ _ => s.operandSpans core a true ++ s.operandSpans core b true
  | .accld _ _ _ => s.regionSpans core a
  | .cbld _ _ _ => [(s.ownKey core a.base, 64)]
  | .spld _ _ => s.operandSpans core a true
  | _ => []

end Sys2Proof.Machine
end

