-- ==== Sys2Proof/Machine/Blocks.lean ====
section
/-! DEFINITION. Codebook blocks, spall lists and pattern numbers (ch. 8): the value of a K4 element (R200), the checks of a list
(R201), CBLD's checks (R198) and the pattern numbers of structured sparsity (R208); and the causes of Table 15.1. -/

namespace Sys2Proof.Machine

/-! ### Causes (Table 15.1) -/

def causeIllbundle : BitVec 8 := 0x01
def causeIllop : BitVec 8 := 0x02
def causeIllopnd : BitVec 8 := 0x03
def causeIfetch : BitVec 8 := 0x04
def causeAddr : BitVec 8 := 0x05
def causeSlabaddr : BitVec 8 := 0x06
def causeBankgrp : BitVec 8 := 0x07
def causeQueue : BitVec 8 := 0x08
def causeBarmis : BitVec 8 := 0x09
def causeSwtrap : BitVec 8 := 0x0A
def causeXlat : BitVec 8 := 0x0C
def causeAtomtgt : BitVec 8 := 0x0D
def causeIsol : BitVec 8 := 0x0E
def causeCbbad : BitVec 8 := 0x0F
def causeSpfmt : BitVec 8 := 0x10
def causeSpord : BitVec 8 := 0x11
def causeSpmiss : BitVec 8 := 0x12
def causeSppat : BitVec 8 := 0x13
def causeSpovf : BitVec 8 := 0x14
def causeZpiv : BitVec 8 := 0x15
def causeBknan : BitVec 8 := 0x16
def causeLostdef : BitVec 8 := 0x17
def causeZdiag : BitVec 8 := 0x18
def causeUe : BitVec 8 := 0x19
def causePoison : BitVec 8 := 0x1A
def causeHalt : BitVec 8 := 0x20
def causePair : BitVec 8 := 0x21
def causeRestore : BitVec 8 := 0x22
def causeSave : BitVec 8 := 0x23

/-- The cause of consuming a poisoned key: POISON where it was poisoned before the read, else UE (Table 15.1). -/
def consumeCause (before : List Nat) (k : Nat) : BitVec 8 := if before.contains (granule k) then causePoison else causeUe

/-- A cause with its DETAIL. -/
abbrev FaultDetail := BitVec 8 × BitVec 128

/-! ### Pattern numbers (R208) -/

/-- Kept count, group size, number width and pattern count of a kind (Table 8.6). -/
def kindShape (k : BitVec 2) : Nat × Nat × Nat × Nat :=
  if k = 0 then (2, 4, 3, 6) else if k = 1 then (2, 8, 5, 28) else (4, 8, 7, 70)

/-- C(n, k). -/
def choose : Nat → Nat → Nat
  | _, 0 => 1
  | 0, _ + 1 => 0
  | n + 1, k + 1 => choose n k + choose n (k + 1)

/-- The largest position c below a bound with C(c, m) ≤ N. -/
def largestPos (m N : Nat) : Nat → Nat
  | 0 => 0
  | c + 1 => if choose c m ≤ N then c else largestPos m N c

/-- The kept positions of a number, ascending: the colex unranking of R192. -/
def unrank (g : Nat) : Nat → Nat → List Nat
  | 0, _ => []
  | m + 1, N => let c := largestPos (m + 1) N g
                unrank g m (N - choose c (m + 1)) ++ [c]

/-- The colex rank of ascending positions (R208). -/
def rank (cs : List Nat) : Nat := (cs.mapIdx (fun m c => choose c (m + 1))).foldl (· + ·) 0

/-! ### Codebooks (R197, R198) -/

/-- A slot as reset leaves it. -/
def Codebook.reset : Codebook := ⟨0, 0⟩

def Ctx.book (c : Ctx) (n : Nat) : Codebook := SMap.get Codebook.reset c.cb n

/-- The value of entry j. -/
def Codebook.value (b : Codebook) (j : Nat) : Num := Fmt.bf16.value (b.ents.extractLsb' (16 * j) 16).toNat

/-- The codes that are not escapes, ascending. -/
def Codebook.live (b : Codebook) : List Nat := (List.range 16).filter (fun j => !b.esc.getLsbD j)

/-- The exponent of a nonzero finite number. -/
def Num.expo : Num → Option Int
  | .fin _ m e => if m = 0 then none else some (expOf m e)
  | _ => none

/-- The largest of some integers. -/
def maxInt : List Int → Option Int
  | [] => none
  | x :: xs => some (xs.foldl max x)

/-- e_max. -/
def Codebook.emax (b : Codebook) : Int := (maxInt (b.live.filterMap (fun j => (b.value j).expo))).getD 0

/-- The checks of CBLD on an image of 64 bytes (R198); none is CBBAD. -/
def codebookOf (bs : List Byte) : Option Codebook :=
  let b : Codebook := ⟨BitVec.ofNat 256 (leNat bs 0 32), BitVec.ofNat 16 (leNat bs 32 2)⟩
  let bad (j : Nat) : Bool := (b.value j).isNan || (b.value j).isInf
  if b.ents.extractLsb' 0 16 != 0 || b.esc.getLsbD 0 || (bs.drop 34).any (· != 0) || b.live.any bad ||
      b.live.all (fun j => (b.value j).isZero) then none
  else some b

/-! ### Spall entries and lists (R199, R201) -/

def spVal (e : DWord) : Nat := (e.extractLsb' 32 32).toNat
def spValid (e : DWord) : Bool := e.getLsbD 11
def spPos (e : DWord) : Nat := (e.extractLsb' 12 2).toNat * 2048 + (e.extractLsb' 0 11).toNat
def spReserved (e : DWord) : Bool := e.extractLsb' 14 18 != 0

/-- DETAIL of CBBAD and the SP causes: descriptor, codebook slot, position (Table 15.2). DEDUCED (log 21).
DESIGN CHOICE (log 76). -/
def spDetail (d cb pos : Nat) : BitVec 128 := BitVec.ofNat 128 (d + 16 * cb + 2 ^ 16 * pos)

/-- The position of the first valid entry that does not rise. DEDUCED (log 21). -/
def spDisorder : List Nat → Option Nat
  | a :: b :: ps => if b ≤ a then some b else spDisorder (b :: ps)
  | _ => none

/-- SPFMT, then SPORD, over the valid entries read, with the position (R201): every check skips an entry with V = 0 (R199).
DEDUCED (log 21). -/
def scanFault (npos : Nat) (es : List DWord) : Option (BitVec 8 × Nat) :=
  match es.find? (fun e => spValid e && (spReserved e || decide (npos ≤ spPos e))) with
  | some e => some (causeSpfmt, spPos e)
  | none => (spDisorder ((es.filter spValid).map spPos)).map (fun p => (causeSpord, p))

/-- A list header (Table 8.2) that breaks R201. DEDUCED (log 21). -/
def headerBad (h : DWord) : Bool :=
  let count := (h.extractLsb' 0 16).toNat
  let cap := (h.extractLsb' 16 16).toNat
  cap == 0 || decide (64 < cap) || decide (cap < count) || h.extractLsb' 33 31 != 0

/-- The value of the one valid entry at a position. -/
def spallValue (es : List DWord) (p : Nat) : Option Nat :=
  match es.filter (fun e => spValid e && spPos e == p) with
  | [e] => some (spVal e)
  | _ => none

/-! ### The value of an element (R200) -/

/-- x × 2^k. -/
def Num.scale (k : Int) : Num → Num
  | .fin n m e => .fin n m (e + k)
  | x => x

/-- Whether rule 4 of R200 is reached. -/
def Codebook.escaped (b : Codebook) (e c : Nat) : Bool := e != 0 && e != 255 && b.esc.getLsbD c

/-- The value of an active element with code c in a block with scale byte e; `val` is its spall value. -/
def Codebook.element (b : Codebook) (e c : Nat) (val : Option Nat) : Option Num :=
  if e = 0 then some (.fin false 0 0)
  else if e = 255 then some (.nan false)
  else if b.esc.getLsbD c then val.map (fun v => (Fmt.f32.value v).scale ((e : Int) - 127))
  else some ((b.value c).scale ((e : Int) - 127))

/-! ### Pattern words (R209) -/

/-- The kept positions of a pattern number, none where it is invalid (R208). -/
def keptAt (k : BitVec 2) (n : Nat) : Option (List Nat) :=
  let (m, g, _, count) := kindShape k
  if n < count then some (unrank g m n) else none

/-- The number of group g of a pattern word (R209). -/
def groupNumber (k : BitVec 2) (word : Nat) (g : Nat) : Nat :=
  let (_, _, w, _) := kindShape k
  word / 2 ^ (w * g) % 2 ^ w

/-- Whether a pattern word holds an invalid number or a bit above its groups (R209). -/
def patternBad (k : BitVec 2) (word : Nat) : Bool :=
  let (_, gs, w, _) := kindShape k
  let n := 32 / gs
  decide (0 < word / 2 ^ (w * n)) || (List.range n).any (fun g => (keptAt k (groupNumber k word g)).isNone)

end Sys2Proof.Machine
end

