-- ==== Sys2Proof/Machine/Tiles.lean ====
section
/-! DEFINITION. What an array operation reads of the slab before it completes, step by step, and the faults of its operands
(R201, R203, R220, R225, R226, R259). -/

namespace Sys2Proof.Machine

/-! ### Runs -/

/-- A run of bytes that an operation reads: the address as it names it, its key, its length. -/
structure Run where
  addr : Nat
  key : Nat
  len : Nat
  deriving DecidableEq, Repr

/-- The first run with a poisoned granule: its fault (R259); `was` are the granules that were poisoned before the read. -/
def State.consumed (s : State) (was : List Nat) (rs : List Run) : Option FaultDetail :=
  if s.poison = [] then none
  else match rs.find? (fun r => (granulesFrom r.key r.len).any (fun g => s.poison.contains g)) with
  | none => none
  | some r =>
    let g := ((granulesFrom r.key r.len).find? (fun g => s.poison.contains g)).getD 0
    some (consumeCause was (g * 64), BitVec.ofNat 128 r.addr)

/-- The runs of the rows of a region. -/
def State.rowRuns (s : State) (core : Nat) (d : Descr) (act : Nat → Bool) : List Run :=
  ((List.range d.rows).filter act).map (fun r => ⟨d.row r, s.regionRow core d r, d.rowBytes⟩)

/-! ### Sparse operands (R225) -/

/-- The pattern word of an address. -/
def State.patternAt (s : State) (core : Nat) (d : Descr) (w : Nat) : Nat := s.readNat (s.ownKey core (d.patterns + 4 * w)) 4

/-- The dense positions of a row (R225). -/
def Descr.dense (d : Descr) : Nat := d.cols * (keptOf d.spk).2 / (keptOf d.spk).1

/-- The pattern words that hold a dense position of row i (R225). -/
def Descr.rowWords (d : Descr) (i : Nat) : List Nat :=
  let kd := d.dense
  let first := i * kd / 32
  if kd = 0 then [] else (List.range ((i * kd + kd - 1) / 32 - first + 1)).map (fun w => first + w)

/-- The pattern kind of SPK. -/
def Descr.kind (d : Descr) : BitVec 2 := BitVec.ofNat 2 (d.spk - 1)

/-- The runs of the pattern words of active rows. -/
def State.patternRuns (s : State) (core : Nat) (d : Descr) (act : Nat → Bool) : List Run :=
  ((List.range d.rows).filter act).flatMap (fun i =>
    (d.rowWords i).map (fun w => ⟨d.patterns + 4 * w, s.ownKey core (d.patterns + 4 * w), 4⟩))

/-- SPPAT (R225): an active row has a bad pattern word. -/
def State.patternFault (s : State) (core : Nat) (d : Descr) (dn : Nat) (act : Nat → Bool) : Option FaultDetail :=
  if d.spk = 0 then none
  else if ((List.range d.rows).filter act).any (fun i =>
      (d.rowWords i).any (fun w => patternBad d.kind (s.patternAt core d w))) then
    some (causeSppat, spDetail dn d.cb 0)
  else none

/-! ### K4 operands (R195, R196, R200, R201, R226) -/

/-- A K4 operand: its descriptor and number, whether it is B-shaped, and its active rows. -/
structure K4 where
  d : Descr
  dn : Nat
  b : Bool
  act : BitVec 32
  deriving DecidableEq, Repr

def K4.active (t : K4) (r : Nat) : Bool := t.b || t.act.getLsbD r

/-- Row and column of a position (R195). -/
def K4.at (t : K4) (p : Nat) : Nat × Nat := if t.b then (p % t.d.rows, p / t.d.rows) else (p / t.d.cols, p % t.d.cols)

/-- The position of a row and column. -/
def K4.pos (t : K4) (r c : Nat) : Nat := if t.b then c * t.d.rows + r else r * t.d.cols + c

def K4.count (t : K4) : Nat := t.d.rows * t.d.cols

def State.k4Scale (s : State) (core : Nat) (t : K4) (p : Nat) : Nat := (s.byte (s.ownKey core (t.d.metaAddr + p / 32))).toNat

def State.k4CodeKey (s : State) (core : Nat) (t : K4) (p : Nat) : Nat :=
  s.regionRow core t.d (t.at p).1 + (t.at p).2 / 2

def State.k4Code (s : State) (core : Nat) (t : K4) (p : Nat) : Nat :=
  (s.byte (s.k4CodeKey core t p)).toNat / (if (t.at p).2 % 2 = 1 then 16 else 1) % 16

/-- The list header, none where the tile has no list. -/
def State.k4Header (s : State) (core : Nat) (t : K4) : Option DWord :=
  if t.d.spall = 0 then none else some (BitVec.ofNat 64 (s.readNat (s.ownKey core t.d.spall) 8))

/-- A header that breaks R201, or whose entries run past the own slab (R214). -/
def State.k4HeaderBad (s : State) (core : Nat) (t : K4) (h : DWord) : Bool :=
  headerBad h || (s.ownSlab core t.d.spall (8 + 8 * (h.extractLsb' 16 16).toNat)).isNone

/-- The entries 0 to COUNT − 1. -/
def State.k4Entries (s : State) (core : Nat) (t : K4) : List DWord :=
  match s.k4Header core t with
  | none => []
  | some h =>
    if s.k4HeaderBad core t h then []
    else (List.range (h.extractLsb' 0 16).toNat).map (fun i =>
      BitVec.ofNat 64 (s.readNat (s.ownKey core t.d.spall + 8 + 8 * i) 8))

/-- Step 1 of R226. -/
def Ctx.k4Book (c : Ctx) (t : K4) : Option FaultDetail :=
  if c.book t.d.cb = Codebook.reset then some (causeCbbad, spDetail t.dn t.d.cb 0) else none

/-- What step 2 reads: the header and the entries 0 to COUNT − 1, as far as they lie in the slab where the header is bad.
DEDUCED (log 41). -/
def State.k4ListRuns (s : State) (core : Nat) (t : K4) : List Run :=
  match s.k4Header core t with
  | none => []
  | some h =>
    let k := s.ownKey core t.d.spall
    [⟨t.d.spall, k, 8⟩,
      ⟨t.d.spall + 8, k + 8, min (8 * (h.extractLsb' 0 16).toNat) (slabKey core 0 + slabSize - (k + 8))⟩]

/-- Step 2: SPFMT, then SPORD. -/
def State.k4ListFault (s : State) (core : Nat) (t : K4) : Option FaultDetail :=
  match s.k4Header core t with
  | none => none
  | some h =>
    if s.k4HeaderBad core t h then some (causeSpfmt, spDetail t.dn t.d.cb 0)
    else (scanFault t.count (s.k4Entries core t)).map (fun r => (r.1, spDetail t.dn t.d.cb r.2))

/-- The positions of active elements, ascending. -/
def K4.positions (t : K4) : List Nat := (List.range t.count).filter (fun p => t.active (t.at p).1)

/-- What step 3 reads: the scale of a block with an active element, and the code where it decides. -/
def State.k4CodeRuns (s : State) (core : Nat) (t : K4) : List Run :=
  t.positions.flatMap (fun p =>
    let e := s.k4Scale core t p
    ⟨t.d.metaAddr + p / 32, s.ownKey core (t.d.metaAddr + p / 32), 1⟩ ::
      (if e = 0 ∨ e = 255 then [] else [⟨t.d.row (t.at p).1 + (t.at p).2 / 2, s.k4CodeKey core t p, 1⟩]))

/-- Step 3: SPMISS at the lowest position. -/
def State.k4Miss (s : State) (c : Ctx) (core : Nat) (t : K4) : Option FaultDetail :=
  let b := c.book t.d.cb
  let es := s.k4Entries core t
  (t.positions.find? (fun p =>
    b.escaped (s.k4Scale core t p) (s.k4Code core t p) && (spallValue es p).isNone)).map
      (fun p => (causeSpmiss, spDetail t.dn t.d.cb p))

/-- The first of some faults. -/
def firstFault (l : List (Option FaultDetail)) : Option FaultDetail := l.findSome? id

/-! ### The steps of a read (R222, R226, R259) -/

/-- One step: the runs that it reads, and the fault that it then raises itself. -/
structure ReadStep where
  runs : State → List Run
  own : State → Option FaultDetail

/-- The first fault of some steps: poison that a step reads comes before its own cause. -/
def State.stepsFault (s : State) (was : List Nat) : List ReadStep → Option FaultDetail
  | [] => none
  | p :: ps =>
    match s.consumed was (p.runs s) with
    | some f => some f
    | none =>
      match p.own s with
      | some f => some f
      | none => s.stepsFault was ps

/-- The keys of some runs. -/
def runsKeys (rs : List Run) : List Nat := rs.flatMap (fun r => (List.range r.len).map (fun i => r.key + i))

/-- Steps read one after another and find the errors of their granules (R258), up to the step that consumes poison or, where
`stop`, raises its own cause; with the keys that are read. DEDUCED (log 41). -/
def State.readSteps (s : State) (one stop : Bool) (pc : DWord) : List ReadStep → State × List Nat
  | [] => (s, [])
  | p :: ps =>
    let ks := runsKeys (p.runs s)
    let s := s.find one pc ks
    if (s.poison != [] && ks.any s.poisoned) || (stop && (p.own s).isSome) then (s, ks)
    else
      let r := s.readSteps one stop pc ps
      (r.1, ks ++ r.2)

/-- The steps of R226 over some operands, with the codebooks of a context. -/
def k4Steps (c : Ctx) (core : Nat) (ts : List K4) : List ReadStep :=
  [⟨fun _ => [], fun _ => firstFault (ts.map c.k4Book)⟩,
    ⟨fun s => ts.flatMap (s.k4ListRuns core), fun s => firstFault (ts.map (s.k4ListFault core))⟩,
    ⟨fun s => ts.flatMap (s.k4CodeRuns core), fun s => firstFault (ts.map (s.k4Miss c core))⟩,
    ⟨fun s => ts.flatMap (fun t => if t.d.spk = 0 then [] else s.patternRuns core t.d t.active),
      fun s => firstFault (ts.map (fun t => s.patternFault core t.d t.dn t.active))⟩,
    ⟨fun s => ts.flatMap (fun t => s.rowRuns core t.d t.active), fun _ => none⟩]

/-- The first fault of R226. -/
def State.k4Fault (s : State) (c : Ctx) (core : Nat) (was : List Nat) (ts : List K4) : Option FaultDetail :=
  s.stepsFault was (k4Steps c core ts)

/-- The steps of MMA and MMA.S, for which the spec gives no order: the pattern words, SPPAT, and then the rows.
DESIGN CHOICE (log 70). -/
def plainSteps (core : Nat) (a b : Descr) (dn : Nat) (act : Nat → Bool) : List ReadStep :=
  [⟨fun s => if a.spk = 0 then [] else s.patternRuns core a act, fun s => s.patternFault core a dn act⟩,
    ⟨fun s => s.rowRuns core a act ++ s.rowRuns core b (fun _ => true), fun _ => none⟩]

/-- Row active bits of an operation (R220). -/
def ArrayOp.row (a : ArrayOp) (i : Nat) : Bool := a.guard.getLsbD i

/-- The A and B operands of an MMA.K4, and the one of SPLD, in the shape in which MMA.K4 reads it (R203). -/
def ArrayOp.k4A (a : ArrayOp) (d : BitVec 4) : K4 := ⟨Descr.of a.da, d.toNat, false, a.guard⟩
def ArrayOp.k4B (a : ArrayOp) (d : BitVec 4) : K4 := ⟨Descr.of a.db, d.toNat, true, 0⟩
def ArrayOp.spldTile (a : ArrayOp) (d : BitVec 4) : K4 :=
  ⟨Descr.of a.da, d.toNat, (Descr.of a.da).rows != 16, BitVec.allOnes 32⟩

/-- CBBAD of a codebook image (R198). -/
def State.imageFault (s : State) (core : Nat) (base : Nat) (d : BitVec 4) (cb : BitVec 2) : Option FaultDetail :=
  match codebookOf (s.bytes (s.ownKey core base) 64) with
  | none => some (causeCbbad, spDetail d.toNat cb.toNat 0)
  | some _ => none

/-- The steps in which an array operation of a context reads the slab. An inactive row is not read (R220). -/
def ArrayOp.steps (a : ArrayOp) (c : Ctx) (core : Nat) : List ReadStep :=
  let x := Descr.of a.da
  match a.instr with
  | .mma _ _ _ d _ _ _ _ _ => plainSteps core x (Descr.of a.db) d.toNat a.row
  | .mmaS _ _ _ d _ _ _ _ _ => plainSteps core x (Descr.of a.db) d.toNat a.row
  | .mmaK4 _ _ d e _ => k4Steps c core [a.k4A d, a.k4B e]
  | .spld _ d => k4Steps c core [a.spldTile d]
  | .cbld _ d cb => [⟨fun s => [⟨x.base, s.ownKey core x.base, 64⟩], fun s => s.imageFault core x.base d cb⟩]
  | .accld _ _ _ => [⟨fun s => s.rowRuns core x a.row, fun _ => none⟩]
  | _ => []

end Sys2Proof.Machine
end

