-- ==== Sys2Proof/Machine/MemOps.lean ====
section
/-! DEFINITION. What a memory operation does when it performs (R237, R238), the read-modify-write operations (R175 to
R178), what a read of memory finds (R258, R259), and in which order a context's accesses perform (R238 to R240). -/

namespace Sys2Proof.Machine

/-! ### Progress records (Table 13.5) -/

/-- A progress record (Table 13.5). -/
def progress (va : Nat) (cause : BitVec 4) (id : Nat) (write : Bool) (opc tile elem : Nat) : BitVec 128 :=
  BitVec.ofNat 128 (va % 2 ^ 56 * 2 ^ 72 + cause.toNat * 2 ^ 68 + id % 16 * 2 ^ 64 + (if write then 2 ^ 62 else 0) +
    opc % 64 * 2 ^ 56 + tile % 2 ^ 24 * 2 ^ 32 + elem % 2 ^ 32)

/-! ### Read-modify-write (R175, R176) -/

/-- The format of a FADD of W = 2 or 3 (R79). -/
def faddFmt (w : Nat) : Fmt := if w = 32 then Fmt.f32 else Fmt.f64

/-- m′ of Table 7.3 for `w` bits, and the flags of FADD (R176). -/
def Rmw.apply (op : Rmw) (w : Nat) (old d c : Nat) : Nat × Flags :=
  let d := d % 2 ^ w
  let c := c % 2 ^ w
  match op with
  | .add => ((old + d) % 2 ^ w, 0)
  | .fadd => let F := faddFmt w; F.add .rne (F.value old) (F.value d)
  | .min => (if toIntW true w d < toIntW true w old then d else old, 0)
  | .max => (if toIntW true w old < toIntW true w d then d else old, 0)
  | .minu => (Nat.min old d, 0)
  | .maxu => (Nat.max old d, 0)
  | .and => (old &&& d, 0)
  | .or => (old ||| d, 0)
  | .xor => (old ^^^ d, 0)
  | .swp => (d, 0)
  | .cas => (if old = c then d else old, 0)

/-- What host memory supports (R178): FetchAdd, Swap and CAS of 32 and 64 bits. -/
def hostAtomic (op : Rmw) (w : Nat) : Bool :=
  (w == 32 || w == 64) && (op == .add || op == .swp || op == .cas)

/-- Host memory by its key. -/
def isHostKey (k : Nat) : Bool := decide (2 ^ 57 ≤ k) && decide (k < 2 ^ 58)

/-! ### Where an operation's bytes lie -/

/-- The right an operation needs (R268). -/
def MemOp.access (o : MemOp) : AccessKind :=
  match o.act with
  | .store _ => .write
  | .rmw _ _ _ (some _) => .amo
  | .rmw _ _ _ none => .red
  | _ => .read

/-- The key of every byte of an operation, with its place in the value; or the cause and the first address that fails
to translate. -/
def State.locate (s : State) (core : Nat) (acc : AccessKind) : List Frag → Except (BitVec 4 × Nat) (List (Nat × Nat))
  | [] => .ok []
  | f :: fs =>
    let here : Except (BitVec 4 × Nat) (List (Nat × Nat)) := match f.loc with
      | .key k => .ok ((List.range f.len).map (fun i => (f.pos + i, k + i)))
      | .dva va =>
        match s.spaceOf core with
        | none => .error (xNomap, va.toNat)
        | some sp =>
          match s.translateRange sp acc va.toNat f.len with
          | .error e => .error e
          | .ok ks => .ok (ks.mapIdx (fun i k => (f.pos + i, k)))
    match here with
    | .error e => .error e
    | .ok a =>
      match State.locate s core acc fs with
      | .error e => .error e
      | .ok b => .ok (a ++ b)

/-- Whether the bank that owns a key refuses a core (R35): their tags differ. -/
def State.refusedBy (s : State) (core k : Nat) : Bool :=
  match coreOfKey k with
  | some n => n != core && s.spaceOf n != s.spaceOf core
  | none => false

/-- The keys of an operation, none where it does not translate. -/
def State.keysOf (s : State) (core : Nat) (o : MemOp) : List Nat :=
  match s.locate core o.access o.frags with
  | .ok l => l.map Prod.snd
  | .error _ => []

/-! ### Marking operations -/

/-- A change to one operation of a context. -/
def Ctx.updOp (c : Ctx) (id : Nat) (f : MemOp → MemOp) : Ctx :=
  { c with ops := c.ops.map (fun o => if o.id = id then f o else o) }

/-- An operation is complete. -/
def Ctx.dropOp (c : Ctx) (id : Nat) : Ctx := { c with ops := c.ops.filter (fun o => o.id != id) }

def Ctx.findOp (c : Ctx) (id : Nat) : Option MemOp := c.ops.find? (fun o => o.id == id)

/-- A late fault against an operation's bundle (R299); the operation ends. -/
def Ctx.failOp (c : Ctx) (o : MemOp) (cause : BitVec 8) (detail : BitVec 128) : Ctx :=
  let c := c.dropOp o.id
  { c with late := c.late ++ [⟨o.seq, o.slot, o.held, o.pc, cause, detail, some (.mem o)⟩],
           flight := c.flight.filter (fun f => f.src != some o.id) }

/-- A remote load that no data will answer leaves its landing register empty. DEDUCED (log 32). -/
def Ctx.noLanding (c : Ctx) (id : Nat) : Ctx :=
  { c with l := c.l.filter (fun p => match p.2 with | .pending op _ _ _ => op != id | _ => true) }

/-- A freeze that waits for a landing register ends with its record (R14, Table 5.10). -/
def State.thaw (s : State) (c : CtxId) (r : BitVec 3) (pc : DWord) : State :=
  match (s.core c.core).frozen with
  | some (one, l, n) =>
    if one = c.one ∧ l = r then
      (s.updCore c.core (fun k => { k with frozen := none })).record c.core
        (sqRecord c.one 0x02 pc (n % 2 ^ 32 + r.toNat * 2 ^ 32))
    else s
  | none => s

/-- A posted operation fails: it is recorded against its class (R183). -/
def Ctx.failPosted (c : Ctx) (o : MemOp) (rec : BitVec 128) : Ctx :=
  let c := c.dropOp o.id
  { c with failed := c.failed ++ [(o.oc, rec)] }

/-- A byte as a read finds it: one that it has read before, or what the memory holds. -/
def State.byteSeen (s : State) (seen : List (Nat × Byte)) (k : Nat) : Byte :=
  match seen.find? (fun c => c.1 == k) with
  | some c => c.2
  | none => s.byte k

/-- The value of a read: the byte at each place. -/
def State.gather (s : State) (seen : List (Nat × Byte)) : List (Nat × Nat) → Nat
  | [] => 0
  | (p, k) :: l => (s.byteSeen seen k).toNat * 256 ^ p + s.gather seen l

/-- Byte p of a value. -/
def byteAt (v p : Nat) : Byte := BitVec.ofNat 8 (v / 256 ^ p)

def vecFatal : Nat := 2

/-- The fatal state (R357), with MSI-X vector 2; before step 6 of the boot sequence has completed it keeps a failed step (R356).
DESIGN CHOICE (log 14). -/
def State.fatal (s : State) : State :=
  { s with
    boot := .fatal
    failedStep := if s.boot = .running ∨ s.failedStep ≠ 0 then s.failedStep else if s.boot = .fatal then 0 else 2
    msix := s.msix ++ [vecFatal] }

/-- A granule with an error-correcting code: of a slab or of HBM. -/
def hasEcc (g : Nat) : Bool := (coreOfKey (64 * g)).isSome || (decide (2 ^ 56 ≤ 64 * g) && decide (64 * g < 2 ^ 57))

/-- A granule of the monitor's own data: of the reserved region of HBM (R262), behind the page tables.
DESIGN CHOICE (log 56). -/
def State.monitors (s : State) (g : Nat) : Bool :=
  decide (hbmKey (hbmReserved + s.tables) ≤ 64 * g) && decide (64 * g < hbmKey hbmEnd)

/-- An error that an event of the agenda brings lies in its granule until a read finds it; the monitor finds one of its
own data at once, and the device enters the fatal state (R357). DESIGN CHOICE (log 56). -/
def State.bring (s : State) : ReadError → State
  | .none => s
  | .corrected g => if hasEcc g then { s with flaws := s.flaws.put g false } else s
  | .uncorrectable g =>
    if s.monitors g then s.fatal else if hasEcc g then { s with flaws := s.flaws.put g true } else s

/-! ### What performs, for the log (R236, R241) -/

/-- A C-slot operation of some opcodes. -/
def MemOp.isOpc (o : MemOp) (lo hi : Nat) : Bool := decide (6 ≤ o.slot) && decide (lo ≤ o.opc) && decide (o.opc ≤ hi)

/-- STQ and FPUSHQ with SCOPE 1 to 5. -/
def MemOp.isQueueRelease (o : MemOp) : Bool := o.isOpc 0x26 0x27 && o.scope != 0

/-- The atomic accesses of a context (R236): LD.S, ST.S, AMO, RED, the state-byte write of SREL, STQ and FPUSHQ with a
scope. -/
def MemOp.atomic (o : MemOp) : Bool := o.isOpc 0x08 0x1E || o.isOpc 0x24 0x24 || o.isQueueRelease

/-- What an operation does, for the log. -/
def MemOp.evKind (o : MemOp) : EvKind :=
  match o.act with
  | .store _ => .write
  | .rmw _ _ _ _ => .rmw
  | .fence m sc => .fence m sc
  | _ => .read

/-- The scope at which an operation is a release by itself (R241): SEM 2 or 3 of a write, SREL, STQ and FPUSHQ with a
scope. -/
def MemOp.release (o : MemOp) : Option (BitVec 3) :=
  let w := o.evKind == .write || o.evKind == .rmw
  if w && ((o.isOpc 0x08 0x1E && o.sem.getLsbD 1) || o.isOpc 0x24 0x24 || o.isQueueRelease) then some o.scope else none

/-- The scope at which an operation is an acquire by itself (R241): SEM 1 or 3 of a read. -/
def MemOp.acquire (o : MemOp) : Option (BitVec 3) :=
  let r := o.evKind == .read || o.evKind == .rmw
  if r && o.isOpc 0x08 0x1E && o.sem.getLsbD 0 then some o.scope else none

/-- The mask of one ordering class. -/
def classBit (oc : BitVec 4) : BitVec 16 := 1#16 <<< oc.toNat

/-- An operation as the log shows it. -/
def MemOp.event (c : CtxId) (o : MemOp) (keys : List Nat) : Ev :=
  let cl := match o.act with | .fence m _ => m | _ => classBit o.oc
  { Ev.plain (.ctx c) o.id o.evKind cl keys with
    atomic := o.atomic, release := o.release, acquire := o.acquire, held := o.region, both := o.region != [] }

/-! ### Performing -/

/-- A read performs (R237, R259). DEDUCED (log 32). -/
def State.performLoad (s : State) (c : CtxId) (o : MemOp) (dst : LoadTo) : State :=
  match s.locate c.core .read o.frags with
  | .error (x, va) => s.updCtx c (fun k => k.failOp o causeXlat (progress va x 0 false o.opc 0 0))
  | .ok l =>
    match l.find? (fun p => s.refusedBy c.core p.2) with
    | some _ =>
      let s := s.updCtx c (fun k => (k.failOp o causeIsol (o.addr.setWidth 128)).noLanding o.id)
      (match dst with | .landing r => s.thaw c r o.pc | _ => s)
    | none =>
      let old := s.poison
      let s := s.find c.one o.pc (l.map Prod.snd)
      let s := s.logged (o.event c (l.map Prod.snd))
      let bad := l.find? (fun p => s.poisoned p.2)
      let v := s.gather o.seen l
      match dst, bad with
      | .landing r, bad =>
        let p := bad.map (fun q => (consumeCause old q.2).toNat * 2 ^ 64 + o.addr.toNat)
        s.updCtx c (fun k =>
          let k := k.updOp o.id (fun o => { o with performed := true, val := v })
          match SMap.get .empty k.l r.toNat with
          | .pending op due d _ => if op = o.id then { k with l := SMap.setD .empty k.l r.toNat (.pending op due d p) } else k
          | _ => k)
      | _, some q => s.updCtx c (fun k => k.failOp o (consumeCause old q.2) (o.addr.setWidth 128))
      | .flight, none =>
        s.updCtx c (fun k => let k := k.dropOp o.id
                             { k with flight := k.flight.map (Flight.fill o.id (BitVec.ofNat 1024 v)) })
      | _, none => s.updCtx c (fun k => k.updOp o.id (fun o => { o with performed := true, val := v }))

/-- An event of R341 that a slice meets counts in its graph. DEDUCED (log 34). -/
def State.plumbFor (s : State) (c : CtxId) : State :=
  match (s.ctx c).slice with
  | some sl => s.plumbEvent sl.graph
  | none => s

/-- A posted operation of a context fails with a cause at an address: it is recorded against its class (R183); poison that it meets
counts (R341). DEDUCED (log 34). DESIGN CHOICE (log 71). -/
def State.postedFails (s : State) (c : CtxId) (o : MemOp) (x : BitVec 4) (va : Nat) : State :=
  let s := s.updCtx c (fun k => k.failPosted o (progress va x 0 true o.opc 0 0))
  if x = xPoison then s.plumbFor c else s

/-- A write performs (R237, R259). DESIGN CHOICE (log 11). DEDUCED (log 37). -/
def State.performStore (s : State) (c : CtxId) (o : MemOp) (data : Nat) : State :=
  match s.locate c.core .write o.frags with
  | .error (x, va) => s.postedFails c o x va
  | .ok l =>
    match l.find? (fun p => s.refusedBy c.core p.2) with
    | some _ => s.updCtx c (fun k => k.failOp o causeIsol (o.addr.setWidth 128))
    | none =>
      let (s, bad) := s.store (l.map (fun p => (p.2, byteAt data p.1)))
      let s := s.logged (o.event c ((l.map Prod.snd).filter (fun k => !s.poisoned k)))
      match bad with
      | some _ => s.updCtx c (fun k => k.failOp o causePoison (o.addr.setWidth 128))
      | none => s.updCtx c (fun k => k.updOp o.id (fun o => { o with performed := true }))

/-- An AMO or RED executes at the home of its location (R178). A RED that poison refuses at a slab address has no device virtual
address: its progress record holds the low 56 bits of the tagged address as VA and DIR 1. DESIGN CHOICE (log 71). -/
def State.performRmw (s : State) (c : CtxId) (o : MemOp) (op : Rmw) (d cmp : DWord) (red : Bool) : State :=
  let fail (s : State) (x : BitVec 4) (va : Nat) : State :=
    if red then s.postedFails c o x va
    else s.updCtx c (fun k =>
      k.failOp o (if x = xAtomic then causeAtomtgt else causeXlat) (progress va x 0 false o.opc 0 0))
  match s.locate c.core o.access o.frags with
  | .error (x, va) => fail s x va
  | .ok l =>
    if l.any (fun p => s.refusedBy c.core p.2) then
      s.updCtx c (fun k => k.failOp o causeIsol (o.addr.setWidth 128))
    else if l.any (fun p => isHostKey p.2) && !hostAtomic op (8 * o.width) then fail s xAtomic o.addr.toNat
    else
    let was := s.poison
    let s := s.find c.one o.pc (l.map Prod.snd)
    match l.find? (fun p => s.poisoned p.2) with
    | some q =>
      if red then fail s xPoison o.addr.toNat
      else s.updCtx c (fun k => k.failOp o (consumeCause was q.2) (o.addr.setWidth 128))
    | none =>
      let old := s.gather o.seen l
      let (new, fl) := op.apply (8 * o.width) old d.toNat cmp.toNat
      let s := (s.setCells (l.map (fun p => (p.2, byteAt new p.1)))).logged (o.event c (l.map Prod.snd))
      let s := if red ∧ fl ≠ 0 then s.record c.core (sqRecord c.one 0x03 o.pc fl.toNat) else s
      s.updCtx c (fun k => k.updOp o.id (fun o => { o with performed := true, val := old, flags := fl }))

/-- Whether an operation writes. -/
def MemOp.writes (o : MemOp) : Bool :=
  match o.act with
  | .store _ => true
  | .rmw _ _ _ _ => true
  | _ => false

/-- Whether an operation is an AMO or a RED. -/
def MemOp.isRmw (o : MemOp) : Bool :=
  match o.act with
  | .rmw _ _ _ _ => true
  | _ => false

/-- Whether an operation is a tile move on registers. -/
def MemOp.isMove (o : MemOp) : Bool :=
  match o.act with
  | .move _ _ _ => true
  | _ => false

/-- Whether two operations stand in the two copy slots of one bundle, by their places in program order. -/
def otherSlot (i j : Nat) : Bool := i / 16 == j / 16 && i != j && decide (6 ≤ i % 16) && decide (6 ≤ j % 16)

/-- Bytes that are about to change, as they stand: what has been read of them before stays. -/
def State.saveBytes (s : State) (seen : List (Nat × Byte)) (keys : List Nat) : List (Nat × Byte) :=
  seen ++ (keys.filter (fun k => !seen.any (fun c => c.1 == k))).map (fun k => (k, s.byte k))

/-- Both copy slots of a bundle read before either writes, and what C1 writes stays (R167): where the one at place `id` is about
to write some bytes, the other one has read them, and a copy of C0 leaves them to C1. DEDUCED (log 41). -/
def State.readFirst (s : State) (c : CtxId) (id : Nat) (keys : List Nat) : State :=
  s.updCtx c (fun k => { k with
    ops := k.ops.map (fun e =>
      if otherSlot id e.id ∧ !e.performed then { e with seen := s.saveBytes e.seen keys } else e)
    copies := k.copies.map (fun p => (p.1, match p.2 with
      | .running q =>
        if otherSlot id q.before then
          .running { q with seen := s.saveBytes q.seen keys, keep := if q.before < id then q.keep ++ keys else q.keep }
        else p.2
      | x => x)) })

/-- An operation is about to write. -/
def State.writeFirst (s : State) (c : CtxId) (o : MemOp) : State :=
  if (s.ctx c).ops.any (fun e => otherSlot o.id e.id) || (s.ctx c).copies.any (fun p => match p.2 with
      | .running q => otherSlot o.id q.before
      | _ => false) then s.readFirst c o.id (s.keysOf c.core o) else s

/-- An operation performs. A tile move between registers has nothing to perform in memory. -/
def State.performOp (s : State) (c : CtxId) (o : MemOp) : State :=
  match o.act with
  | .load dst => s.performLoad c o dst
  | .store data => (s.writeFirst c o).performStore c o data
  | .rmw op d cmp dst => (s.writeFirst c o).performRmw c o op d cmp dst.isNone
  | .fence _ _ => (s.updCtx c (fun k => k.dropOp o.id)).logged (o.event c [])
  | .move _ _ _ => s.updCtx c (fun k => k.updOp o.id (fun o => { o with performed := true }))

/-- Whether an operation would fail to translate, or fail its atomic target (R183). -/
def State.wouldFail (s : State) (c : CtxId) (o : MemOp) : Bool :=
  match s.locate c.core o.access o.frags with
  | .error _ => true
  | .ok l =>
    match o.act with
    | .rmw op _ _ _ => (l.any (fun p => isHostKey p.2) && !hostAtomic op (8 * o.width)) || l.any (fun p => s.poisoned p.2)
    | _ => false

/-! ### What comes before what (R167, R238 to R240) -/

/-- What an operation will have written once it performs. -/
def State.foreOp (s : State) (core : Nat) (o : MemOp) : State :=
  match s.locate core o.access o.frags with
  | .error _ => s
  | .ok l =>
    match o.act with
    | .store data => s.setCells (l.map (fun p => (p.2, byteAt data p.1)))
    | .rmw op d cmp _ =>
      let r := op.apply (8 * o.width) (s.gather o.seen l) d.toNat cmp.toNat
      s.setCells (l.map (fun p => (p.2, byteAt r.1 p.1)))
    | _ => s

/-- Memory as a context will find it once its operations before one have performed. DEDUCED (log 41). -/
def State.foreseen (s : State) (c : CtxId) (before : Nat) : State :=
  ((s.ctx c).ops.filter (fun o => !o.performed && o.writes && decide (o.id < before))).foldl
    (fun s o => s.foreOp c.core o) s

/-- The runs that an array operation of a context reads (R202). -/
def State.arrayReads (s : State) (c : CtxId) (before : Nat) (i : Instr) (a b : Descr) : List Span :=
  (s.foreseen c before).arraySpans c.core i a b

/-- An access of a context as the ordering rules see it: its place in program order, its ordering classes (Table 10.1), its
bytes, and whether it is a fence. -/
structure Acc where
  id : Nat
  classes : BitVec 16
  spans : List Span
  fence : Bool
  deriving DecidableEq, Repr

/-- What a context has issued that is still to perform: an operation, the slab reads of an array operation, or a message to
Keystone (R135, R136). -/
inductive Pend where
  | op (o : MemOp)
  | array (a : ArrayOp)
  | msg (id : Nat) (m : KsMsg)
  deriving DecidableEq, Repr

def Pend.id : Pend → Nat
  | .op o => o.id
  | .array a => a.before
  | .msg id _ => id

/-- The runs of an operation. -/
def State.opSpans (s : State) (core : Nat) (o : MemOp) : List Span :=
  o.frags.flatMap (fun f => match f.loc with
    | .key k => [(k, f.len)]
    | .dva _ => match s.locate core o.access [f] with
      | .ok l => l.map (fun p => (p.2, 1))
      | .error _ => [])

def State.accOf (s : State) (c : CtxId) : Pend → Acc
  | .op o => match o.act with
    | .fence m _ => ⟨o.id, m, [], true⟩
    | _ => ⟨o.id, classBit o.oc, s.opSpans c.core o, false⟩
  | .array a => ⟨a.before, classBit 0, s.arrayReads c a.before a.instr (Descr.of a.da) (Descr.of a.db), false⟩
  | .msg id _ => ⟨id, allClasses, [], false⟩

/-- Whether an array operation has still to read the slab. -/
def ArrayOp.reads (a : ArrayOp) : Bool :=
  a.seen.isNone && match a.instr with
    | .mma _ _ _ _ _ _ _ _ _ => true
    | .mmaS _ _ _ _ _ _ _ _ _ => true
    | .mmaK4 _ _ _ _ _ => true
    | .accld _ _ _ => true
    | .cbld _ _ _ => true
    | .spld _ _ => true
    | _ => false

/-- Slab reads of an array operation, or a message, take their place in program order: the M slot comes before the copy slots
of its bundle (R239), and the B slot before them too. DESIGN CHOICE (log 48). -/
def insertPend (ps : List Pend) (x : Pend) : List Pend :=
  ps.takeWhile (fun p => decide (p.id < x.id)) ++ x :: ps.dropWhile (fun p => decide (p.id < x.id))

/-- Whether a message comes from a context. -/
def KsMsg.isFrom (c : CtxId) (m : KsMsg) : Bool := match m.behind with | some b => b.c == c | none => false

/-- A message that has still to leave a context, with its place. -/
def KsMsg.pend (c : CtxId) (m : KsMsg) : Option Pend :=
  match m.behind with
  | some b => if b.c = c ∧ b.sent = false then some (.msg b.op m) else none
  | none => none

/-- What a context has still to perform, in program order. -/
def State.pends (s : State) (c : CtxId) : List Pend :=
  let reads := ((s.core c.core).aq.filter (fun a => a.one == c.one && a.reads)).map Pend.array
  let ops := ((s.ctx c).ops.filter (fun o => !o.performed && !o.isMove)).map Pend.op
  (reads ++ s.ksq.filterMap (KsMsg.pend c)).foldl insertPend ops

/-- Whether an access holds a later one of its context back: they share a class (R239, R240), or they overlap (R238). A BEAD
or GLAUNCH belongs to every class (Table 10.1). A fence orders accesses only, and no other fence. DEDUCED (log 41). -/
def Acc.holdsBack (x y : Acc) : Bool :=
  (!(x.fence && y.fence) && (x.classes &&& y.classes) != 0) || x.spans.any (fun a => y.spans.any a.meets)

/-- What stands before an operation in program order. -/
def pendsBefore (o : MemOp) (ps : List Pend) : List Pend :=
  ps.takeWhile (fun p => match p with | .op e => e.id != o.id | _ => true)

/-- Whether an operation may perform now. A tile move between registers is no access to memory. DEDUCED (log 41). -/
def State.mayPerform (s : State) (c : CtxId) (o : MemOp) : Bool :=
  !o.performed && (o.isMove ||
    !((pendsBefore o (s.pends c)).any (fun p => (s.accOf c p).holdsBack (s.accOf c (.op o)))))

/-- Whether an earlier array operation of the context has still to load a codebook, so that what an operation finds in its
steps is not settled yet. DEDUCED (log 41). -/
def State.booksOpen (s : State) (c : CtxId) (a : ArrayOp) : Bool :=
  (s.core c.core).aq.any (fun b => b.one == a.one && decide (b.before < a.before) && (match b.instr with
    | .cbld _ _ _ => true
    | _ => false))

/-- An array operation reads the slab, its event as the log shows it: the interlock holds the region of its operands until it is
complete (R202, R219). DEDUCED (log 41). -/
def State.noteArray (s : State) (c : CtxId) (a : ArrayOp) (keys : List Nat) : State :=
  if keys = [] then s
  else s.noteHeld (.ctx c) a.before .read (classBit 0) keys false
    ((s.arraySpans c.core a.instr (Descr.of a.da) (Descr.of a.db)).flatMap Span.granules) false

/-- The slab reads of an array operation perform: it keeps what it reads. While a codebook that an earlier operation loads is not
known, it reads what every step reads. DEDUCED (log 41). -/
def State.readArray (s : State) (c : CtxId) (a : ArrayOp) : State :=
  let was := s.poison
  let r := s.readSteps a.one (!s.booksOpen c a) a.pc (a.steps (s.ctx c) c.core)
  let keys := dedup r.2
  let s := r.1.noteArray c a keys
  let x : Seen :=
    ⟨keys.map (fun k => (k, s.byte k)), (dedup (keys.map granule)).filter (fun g => s.poison.contains g), was⟩
  s.updCore c.core (fun k => { k with aq := k.aq.map (fun b => if b.id = a.id ∧ b.one = a.one then { b with seen := some x } else b) })

/-- Something performs, where it has not. -/
def State.performPend (s : State) (c : CtxId) : Pend → State
  | .op o => match (s.ctx c).findOp o.id with
    | some o => if o.performed then s else s.performOp c o
    | none => s
  | .array a => s.readArray c a
  | .msg _ m => match s.ksq.findIdx? (· == m) with
    | some k => s.sendMsg k m
    | none => s

/-- Things perform one after another. -/
def State.performAll (s : State) (c : CtxId) (ps : List Pend) : State := ps.foldl (fun s p => s.performPend c p) s

/-- Of some things in program order those that satisfy a test, and all that these must wait for. DEDUCED (log 41). -/
def State.waitedFor (s : State) (c : CtxId) (p : Pend → Bool) : List Pend → List Pend
  | [] => []
  | e :: es =>
    let r := State.waitedFor s c p es
    if p e || r.any (fun y => (s.accOf c e).holdsBack (s.accOf c y)) then e :: r else r

/-- What satisfies a test performs, and before it what it must wait for, in program order. DEDUCED (log 41). -/
def State.performFor (s : State) (c : CtxId) (p : Pend → Bool) : State :=
  s.performAll c (s.waitedFor c p (s.pends c))

/-- What holds an access back performs, and what that must wait for. -/
def State.performBefore (s : State) (c : CtxId) (y : Acc) : State :=
  s.performFor c (fun e => decide (e.id < y.id) && (s.accOf c e).holdsBack y)

/-- An access that comes after everything that a context has issued. -/
def State.lastAcc (s : State) (classes : BitVec 16) (spans : List Span) : Acc := ⟨16 * (s.tick + 1), classes, spans, false⟩

/-- The loads whose bounds are exposed perform, those that satisfy a test. -/
def State.performLoads (s : State) (c : CtxId) (p : MemOp → Bool) : State :=
  s.performFor c (fun e => match e with | .op o => o.act == .load .flight && p o | _ => false)

end Sys2Proof.Machine
end

