-- ==== Sys2Proof/Machine/Ctrl.lean ====
section
/-! DEFINITION. Control registers (Table 5.3): what RDC reads and what a WRC leaves (R22, R96, R100, R123, R124, R140,
R217); the effective priority class (R23); the landing of a result, which may be a WRC. -/

namespace Sys2Proof.Machine

/-! ### Priority (R22, R23) -/

/-- The contexts of a course, by core position and number. -/
def courseCtxs (n : Nat) : List CtxId :=
  (List.range 8).flatMap (fun p => [⟨8 * n + p, false⟩, ⟨8 * n + p, true⟩])

/-- Whether a context runs a node of a graph. -/
def Ctx.runs (c : Ctx) (graph node : Nat) : Bool :=
  match c.slice with
  | some sl => sl.graph == graph && sl.node == node
  | none => false

/-- Whether context `w` waits at a barrier on which context `c` is a participant that has not arrived (R23, R130). -/
def State.waitsFor (s : State) (w c : CtxId) : Bool :=
  let k := s.ctx w
  k.arrived.any (fun a => a.2.waits && !a.2.passed && a.2.pc == k.pc &&
    (match SMap.get none (s.course (courseOf w.core)).barriers a.1 with
     | none => false
     | some bar =>
       let p := c.core % 8
       bar.mask.getLsbD p && !bar.arrived.getLsbD p && (s.ctx c).runs bar.graph bar.node))

/-- One step of the fixed point of R23 over the contexts of a course, from a class for each. -/
def State.effStep (s : State) (n : Nat) (f : List (CtxId × Nat)) : List (CtxId × Nat) :=
  f.map (fun p => (p.1, (courseCtxs n).foldl (fun m w =>
    if s.waitsFor w p.1 then max m ((f.find? (fun q => q.1 == w)).map Prod.snd |>.getD 0) else m) p.2))

/-- EFF (R23): 16 contexts, so 16 steps reach the least fixed point. -/
def State.eff (s : State) (c : CtxId) : Nat :=
  let n := courseOf c.core
  let f0 := (courseCtxs n).map (fun w => (w, (s.ctx w).own.toNat))
  if (courseCtxs n).all (fun w => (s.ctx w).arrived == []) then (s.ctx c).own.toNat
  else
    let f := (List.range 16).foldl (fun f _ => s.effStep n f) f0
    ((f.find? (fun q => q.1 == c)).map Prod.snd).getD 0

/-! ### Reading (R123) -/

/-- The words of LOOPST (Table 5.6). -/
def LoopSt.word (l : LoopSt) (w : Nat) : DWord :=
  let i (d : Nat) : Nat := (SMap.get 0 l.idx d).toNat
  match w with
  | 0 => BitVec.ofNat 64 (l.depth * 2 ^ 61 + l.len.toNat * 2 ^ 56) ||| (l.body &&& 0x00FFFFFFFFFFFFFC)
  | 1 => BitVec.ofNat 64 (l.grp.toNat * 2 ^ 56 + i 1 * 2 ^ 28 + i 0)
  | 2 => BitVec.ofNat 64 (l.pos * 2 ^ 56 + i 3 * 2 ^ 28 + i 2)
  | _ => BitVec.ofNat 64 (i 5 * 2 ^ 28 + i 4)

/-- LOOPST from its words (R313). -/
def LoopSt.ofWords (w0 w1 w2 w3 : DWord) : LoopSt :=
  let i (w : DWord) (lo : Nat) : BitVec 28 := w.extractLsb' lo 28
  let idx := [(0, i w1 0), (1, i w1 28), (2, i w2 0), (3, i w2 28), (4, i w3 0), (5, i w3 28)]
  { depth := (w0.extractLsb' 61 3).toNat
    len := w0.extractLsb' 56 5
    pos := (w2.extractLsb' 56 5).toNat
    grp := w1.extractLsb' 56 6
    body := w0 &&& 0x00FFFFFFFFFFFFFC
    idx := idx.filter (fun p => p.2 != 0) }

/-- IFQ.OCC (Table 5.4). -/
def Ctx.ifqOcc (c : Ctx) : Nat :=
  match c.trap with
  | some t => t.ifq.length
  | none => c.ifq.length

/-- A word of a control register (Table 5.3). -/
def State.readCr (s : State) (n : BitVec 8) (w : BitVec 6) : DWord :=
  let c := s.here
  let k := s.myCore
  let co := s.course (courseOf s.cur.core)
  let word (v : BitVec 128) : DWord := if w = 0 then v.extractLsb' 0 64 else v.extractLsb' 64 64
  if 0x10 ≤ n.toNat ∧ n.toNat ≤ 0x17 then (SMap.get 0 c.ksw (n.toNat - 0x10)).setWidth 64
  else match n.toNat with
    | 0x00 => c.fpctl.setWidth 64
    | 0x01 => c.fpsw.setWidth 64
    | 0x02 => BitVec.ofNat 64 (c.own.toNat + 256 * s.eff s.cur)
    | 0x03 => c.node.setWidth 64
    | 0x04 => c.nkey
    | 0x05 => s.seed
    | 0x06 => c.repcnt.setWidth 64
    | 0x07 => c.loop.word w.toNat
    | 0x08 => if w = 0 then c.depth.setWidth 64 else SMap.get 0 c.hand (w.toNat - 1)
    | 0x09 => BitVec.ofNat 64 c.ifqOcc
    | 0x0A => BitVec.ofNat 64 (k.sq.length + k.sqOvf.toNat * 2 ^ 16)
    | 0x0B => k.dqbase.setWidth 64
    | 0x0C => k.dqlim.setWidth 64
    | 0x0D => if co.twin then 1 else 0
    | 0x0E => if co.plumb then 1 else 0
    | 0x18 => word c.piv
    | 0x19 => c.gf
    | 0x1A => word c.brk
    | _ => 0

/-! ### Writing (R123, R124) -/

/-- Put a word of a 128-bit register. -/
def putWord (v : BitVec 128) (w : BitVec 6) (x : DWord) : BitVec 128 :=
  if w = 0 then v.extractLsb' 64 64 ++ x else x ++ v.extractLsb' 0 64

/-- The fields of FPCTL, FPSW, KSW and BRK that a WRC sets; reserved ones read 0 (R7). -/
def fpctlMask : BitVec 32 := 0x1F07
def fpswMask : BitVec 32 := 0x1F1F
def kswMask : BitVec 32 := 0xC000003F
def repcntMask : BitVec 32 := 0x1FFFF
def brkMask : BitVec 128 := 0xFFFFFFFFFFFFFFFF0000000007FFFFFF

/-- A WRC takes effect. Read-only registers and fields ignore it (R27). -/
def State.writeCr (s : State) (c : CtxId) (n : BitVec 8) (w : BitVec 6) (v : DWord) : State :=
  if 0x10 ≤ n.toNat ∧ n.toNat ≤ 0x17 then
    s.updCtx c (fun k => { k with ksw := SMap.setD 0 k.ksw (n.toNat - 0x10) (v.setWidth 32 &&& kswMask) })
  else match n.toNat with
    | 0x00 => s.updCtx c (fun k => { k with fpctl := v.setWidth 32 &&& fpctlMask })
    | 0x01 => s.updCtx c (fun k => { k with fpsw := v.setWidth 32 &&& fpswMask })
    | 0x02 => s.updCtx c (fun k => { k with own := v.extractLsb' 0 2 })
    | 0x05 => { s with seed := v }
    | 0x0A => s.updCore c.core (fun k => { k with sqOvf := v.extractLsb' 16 32 })
    | 0x18 => s.updCtx c (fun k => { k with piv := putWord k.piv w v })
    | 0x19 => s.updCtx c (fun k => { k with gf := v })
    | 0x1A => s.updCtx c (fun k => { k with brk := putWord k.brk w v &&& brkMask })
    | _ => s

/-- A result lands (R84, R101), a WRC among them. -/
def State.land (s : State) (c : CtxId) (f : Flight) : State :=
  match f.dest with
  | .cr n w =>
    if f.live.getLsbD 0 then (s.writeCr c n w (f.val.setWidth 64)).updCtx c (fun k => k.commit (.result f.dest f.val)) else s
  | _ => s.updCtx c (fun k => k.land f)

/-- Results land in issue order; a WRC comes before the flags of the others (R101). -/
def State.landAll (s : State) (c : CtxId) (fs : List Flight) : State :=
  let isCr (f : Flight) : Bool := match f.dest with | .cr _ _ => true | _ => false
  let s := (fs.filter isCr).foldl (fun s f => s.land c f) s
  (fs.filter (fun f => !isCr f)).foldl (fun s f => s.land c f) s

end Sys2Proof.Machine
end

