-- ==== Sys2Proof/Machine/Ops.lean ====
section
/-! DEFINITION. Taking an exception and returning from one (ch. 15): the outcome of a cause (R296), the in-flight queue
(R300), trap entry (R301), unwinding (R305), the node fault (R306), the end of a slice's run (R308), ERET (R303). -/

namespace Sys2Proof.Machine

/-- The three outcomes of R296. -/
inductive Taking where
  | trap
  | unwind
  | nodeFault
  deriving DecidableEq, Repr

/-- The causes that always fault the node (R296). -/
def isNodeCause (x : BitVec 8) : Bool := x == causeHalt || x == causePair || x == causeRestore || x == causeSave

/-- R296. -/
def Ctx.taking (c : Ctx) (cause : BitVec 8) : Taking :=
  if isNodeCause cause then .nodeFault
  else if cause = causeUe ∨ cause = causePoison then
    match c.trap with
    | none => if c.depth = 0 then .nodeFault else .unwind
    | some t => if t.floor < c.depth then .unwind else .nodeFault
  else if c.depth ≠ 0 ∧ c.trap.isNone then .trap else .nodeFault

/-- The address of a context's trap record in its own slab (R301). -/
def recordAddr (c : CtxId) : Nat := 0x17FB80 + 0x40 * ctxNum c

/-- A trap record (Table 15.2) as a number of 64 bytes. -/
def trapRecord (kind : Nat) (f : LateFault) (double multi : Bool) (depth : BitVec 3) (arg : BitVec 32) (retpc : DWord)
    (narr ifqn : Nat) : Nat :=
  let slot := f.slot % 16 + (if f.held then 0x10 else 0) + (if double then 0x20 else 0) + (if multi then 0x80 else 0)
  kind + f.cause.toNat * 2 ^ 8 + slot * 2 ^ 16 + depth.toNat * 2 ^ 24 + arg.toNat * 2 ^ 32 + f.pc.toNat * 2 ^ 64 +
    retpc.toNat * 2 ^ 128 + f.detail.toNat * 2 ^ 192 + narr * 2 ^ 320 + ifqn * 2 ^ 328

/-- The record is a class-0 write that performs at once, after what comes before it (R238, R239, R301). -/
def State.writeRecord (s : State) (c : CtxId) (r : Nat) : State :=
  let k := slabKey c.core (recordAddr c)
  let s := s.performBefore c (s.lastAcc (classBit 0) [(k, 64)])
  (s.store (cellsAt k (bytesOfNat 64 r))).1.notePlain (.ctx c) (s.stepId + 15) .write 1 ((List.range 64).map (fun i => k + i))

/-- Whether an interlocked register result is outstanding (R300). -/
def Ctx.interlocked (c : Ctx) : Bool := c.ops.any (fun o => o.interlocks.isSome)

/-- A result whose bound has not elapsed as an entry of the IFQ (R300). -/
def Flight.entry (base : Nat) (f : Flight) : IfqEntry := ⟨f.val, f.lanes, f.live, f.dest, f.due - base⟩

/-- A floating-point trap of a result that has not landed (R101, R102). DEDUCED (log 27). -/
def Ctx.inFlight (c : Ctx) (f : LateFault) : Bool :=
  f.cause == causeFpx && c.flight.any (fun g => g.seq == f.seq && g.slot == f.slot && !g.landed)

/-- An overflow of a QNT whose results have not landed: its fault is raised once they have (R205, R319).
DEDUCED (log 26). -/
def Ctx.waits (c : Ctx) (f : LateFault) : Bool :=
  f.cause == causeSpovf && c.flight.any (fun g => g.seq == f.seq && g.slot == f.slot && !g.landed)

/-- The faults that are known whenever a cause is taken: those of results that have landed, and of other operations.
DEDUCED (log 27). -/
def Ctx.known (c : Ctx) : List LateFault := c.late.filter (fun f => !c.inFlight f)

/-- The cycle t + 1 that the IFQ counts from (R300). -/
def Ctx.ifqBase (c : Ctx) : Nat := match c.lastIssue with | some t => t + 1 | none => 0

/-- Whether a result would enter the IFQ (R300). -/
def Ctx.inIfq (c : Ctx) (f : Flight) : Bool := decide (c.ifqBase < f.due)

/-- Fill the IFQ (R300): what is due by t + 1 lands, the rest enters, and every flag is recorded. DEDUCED (log 35). -/
def State.capture (s : State) (c : CtxId) : State × List IfqEntry :=
  let s := s.performLoads c (fun _ => true)
  let k := s.ctx c
  let es := k.ifq ++ (k.flight.filter k.inIfq).map (Flight.entry k.ifqBase)
  let s := s.landAll c (k.flight.filter (fun f => !k.inIfq f && !f.landed))
  let s := s.updCtx c (fun x => (k.flight.filter k.inIfq).foldl (fun x f => x.orFlags f.flags) x)
  (s.updCtx c (fun x => { x with flight := [], ifq := [] }), es)

/-- R301: for XLAT, trap entry frees the copy id, or clears the failed posted operations of the class. -/
def Ctx.freeXlat (c : Ctx) (cause : BitVec 8) (detail : BitVec 128) : Ctx :=
  if cause ≠ causeXlat then c
  else
    let opc := (detail.extractLsb' 56 6).toNat
    if 0x20 ≤ opc ∧ opc ≤ 0x23 then { c with copies := SMap.setD .free c.copies (detail.extractLsb' 64 4).toNat .free }
    else match c.failed.find? (fun p => p.2 == detail && c.named.getLsbD p.1.toNat) with
      | some p => { c with failed := c.failed.filter (fun q => q.1 != p.1) }
      | none => c

/-- The handler of the innermost region (Table 5.9). -/
def Ctx.handler (c : Ctx) : DWord := SMap.get 0 c.hand (c.depth.toNat - 1)

/-- A checkpoint that has stopped at its boundary falls due again at a later one (R302). -/
def Request.deferred (r : Request) : Request := if r = .saving then .checkpoint else r

/-- An unwind or a node fault of a slice counts (R341). DEDUCED (log 34). -/
def State.plumbBreak (s : State) (c : CtxId) : State := s.plumbFor c

/-- A fault for poison that can trap and that nothing has counted: of a fetch (R64, R259, Table 13.3), or of a page-table entry that
an LD.S or an AMO needs, whose progress record names no copy and no write (Table 13.5). DEDUCED (log 34). -/
def LateFault.foundPoison (f : LateFault) : Bool :=
  let opc := (f.detail.extractLsb' 56 6).toNat
  f.detail.extractLsb' 68 4 == xPoison && (f.cause == causeIfetch ||
    (f.cause == causeXlat && !f.detail.getLsbD 62 && !(decide (0x20 ≤ opc) && decide (opc ≤ 0x23))))

/-- A trap for poison that a fetch, an LD.S or an AMO finds counts in a plumb graph as an unwind does (R341); poison that a copy, a
ring or a posted operation finds has counted where it was found. DEDUCED (log 34). -/
def State.plumbPoison (s : State) (c : CtxId) (f : LateFault) : State :=
  if f.foundPoison then s.plumbBreak c else s

/-- Trap entry (R301). DEDUCED (log 24). -/
def State.enterTrap (s : State) (c : CtxId) : State :=
  match (s.ctx c).entering with
  | none => s
  | some i =>
    let k := s.ctx c
    let f : LateFault := ⟨i.seq, i.slot, i.held, i.faultpc, i.cause, i.detail, none⟩
    let s := (s.plumbPoison c f).writeRecord c
      (trapRecord 1 f k.trap.isSome i.multi k.depth i.arg i.retpc k.withheld.length i.ifq.length)
    s.updCtx c (fun k =>
      let t : TrapState := ⟨i.retpc, k.depth, k.depth, k.held, k.loop, k.repcnt, SMap.get 0 k.x 15, i.ifq, k.withheld⟩
      let k := { k with
        trap := some t
        entering := none
        withheld := []
        held := []
        loop := LoopSt.none
        repcnt := 0
        edge := none
        request := k.request.deferred
        pc := k.handler
        npc := k.handler }
      (k.store (.x 15) (BitVec.ofNat 1024 (recordAddr c)) 1).freeXlat i.cause i.detail)

/-- A destination whose result was discarded reads as an unpredictable value until it is rewritten (R305).
DESIGN CHOICE (log 5). -/
def Ctx.forget (c : Ctx) (es : List IfqEntry) : Ctx :=
  { c with unpred := es.foldl (fun m e => SMap.setD 0 m e.dest.site (SMap.get 0 m e.dest.site ||| e.lanes)) c.unpred }

/-- Array operations that never issue again are gone; the queues stay as they are, with the entries that a DRAIN among them has
counted and will not write (R305). DEDUCED (log 28). -/
def Ctx.dropWithheld (c : Ctx) : Ctx := { c with withheld := [] }

/-- Arrivals whose BAR bundle will not issue any more (R130). An arrival that has not completed still counts at its
barrier. DEDUCED (log 42). -/
def Ctx.abandoned (c : Ctx) : SMap Arrival :=
  (c.arrived.filter (fun a => !a.2.passed)).map (fun a => (a.1, { a.2 with waits := false }))

/-- Unwind to the innermost region (R305). -/
def State.unwind (s : State) (c : CtxId) (f : LateFault) (multi : Bool) : State :=
  let (s, es) := s.capture c
  let k := s.ctx c
  let s := s.writeRecord c (trapRecord 2 f k.trap.isSome multi k.depth 0 0 k.withheld.length 0)
  s.updCtx c (fun k =>
    let held := match k.trap with | some t => t.ifq | none => []
    let h := k.handler
    let k := (k.forget (held ++ es)).dropWithheld
    let k := { k with
      trap := none
      late := []
      held := []
      loop := LoopSt.none
      repcnt := 0
      edge := none
      arrived := k.abandoned
      request := k.request.deferred
      depth := k.depth - 1
      pc := h
      npc := h }
    k.store (.x 15) (BitVec.ofNat 1024 (recordAddr c)) 1)

/-- One arrival of a core leaves a barrier, which returns to idle once it has none (R130). -/
def State.unarrive (s : State) (core b : Nat) : State :=
  let n := courseOf core
  let co := s.course n
  match SMap.get none co.barriers b with
  | none => s
  | some bar =>
    let a := bar.arrived &&& ~~~(1#8 <<< (core % 8))
    let bar' := if a = 0 then none else some { bar with arrived := a }
    s.setCourse n { co with barriers := SMap.setD none co.barriers b bar' }

/-- The context withdraws its arrivals (R130). DEDUCED (log 42). -/
def State.withdraw (s : State) (c : CtxId) : State :=
  let waiting := (s.ctx c).arrived.filter (fun a => !a.2.passed)
  (waiting.foldl (fun s a => (s.unarrive c.core a.1).sync (.ctx c) s.stepId (.withdraw (courseOf c.core) a.1)) s).updCtx c
    (fun k => { k with arrived := [] })

/-- The control-register writes of a context that have issued take effect (R124). -/
def State.landWrites (s : State) (c : CtxId) : State :=
  s.landAll c ((s.ctx c).flight.filter (fun f => !f.landed && match f.dest with | .cr _ _ => true | _ => false))

/-- Issue stops for good; everything on its way in the context is discarded (R306, R308), but for what a WRC has done. -/
def State.stopSlice (s : State) (c : CtxId) : State :=
  ((s.landWrites c).withdraw c).updCtx c (fun k => { k with
    request := .stopped
    flight := []
    ifq := []
    trap := none
    entering := none
    late := []
    withheld := []
    held := []
    loop := LoopSt.none
    edge := none
    repcnt := 0
    q := []
    l := [] })

/-- The node faults (R306). -/
def State.nodeFault (s : State) (c : CtxId) (f : LateFault) (multi : Bool) (arg : BitVec 32) : State :=
  let k := s.ctx c
  let s := s.writeRecord c (trapRecord 3 f k.trap.isSome multi k.depth arg 0 k.withheld.length 0)
  let s := match k.slice with
    | some sl => { s with ksq := s.ksq ++ [KsMsg.fault sl.graph sl.node sl.attempt c.core f.cause f.pc] }
    | none => s
  s.stopSlice c

/-- A cause is taken (R296). An enabled flag of another result that has not landed sets MULTI too (R300).
DEDUCED (log 27). -/
def State.take (s : State) (c : CtxId) (f : LateFault) (multi : Bool) (arg : BitVec 32) (retpc : DWord) : State :=
  let k := s.ctx c
  let multi := multi || k.late.any (fun g => k.inFlight g && !(g.seq == f.seq && g.slot == f.slot))
  match (s.ctx c).taking f.cause with
  | .trap =>
    let (s, es) := s.capture c
    let i : TrapInfo := ⟨f.seq, f.cause, f.slot, f.held, multi, arg, f.pc, retpc, f.detail, es⟩
    let s := s.updCtx c (fun k => { k with entering := some i, late := [] })
    if (s.ctx c).interlocked then s else s.enterTrap c
  | .unwind => (s.plumbBreak c).unwind c f multi
  | .nodeFault => (s.plumbBreak c).nodeFault c f multi arg

/-- Program order of faults: by bundle, then by slot. -/
def LateFault.before (a b : LateFault) : Bool := a.seq < b.seq || (a.seq == b.seq && a.slot < b.slot)

/-- The earliest fault (R299). -/
def earliest : LateFault → List LateFault → LateFault
  | f, [] => f
  | f, g :: gs => earliest (if g.before f then g else f) gs

/-- Among the known faults the earliest is taken; the others set MULTI (R299). `arg` is ARG of a fault that is precise
at the next bundle or after the last one. -/
def State.takeKnown (s : State) (c : CtxId) (fs : List LateFault) (arg : BitVec 32) (retpc : DWord) : State :=
  match fs with
  | [] => s
  | g :: gs =>
    let f := earliest g gs
    let precise := decide ((s.ctx c).seq < f.seq) || f.cause == causeSwtrap
    s.take c f (!gs.isEmpty) (if precise then arg else 0) retpc

/-- Loads on their way read their values, since their pipes run to completion (R300); a fault they find is known. -/
def State.settle (s : State) (c : CtxId) : State := s.performLoads c (fun _ => true)

/-- A cause that is precise at the bundle at pc (R298): an earlier fault that is known comes before it. -/
def State.raise (s : State) (c : CtxId) (slot : Nat) (held : Bool) (cause : BitVec 8) (detail : BitVec 128)
    (arg : BitVec 32) : State :=
  let s := s.settle c
  let k := s.ctx c
  s.takeKnown c (k.known ++ [⟨k.seq + 1, slot, held, k.pc, cause, detail, none⟩]) arg k.pc

/-- A cause that is taken after its bundle, whose address is `pc` (R132, R139). -/
def State.raiseAfter (s : State) (c : CtxId) (cause : BitVec 8) (arg : BitVec 32) (pc : DWord) : State :=
  let s := s.settle c
  let k := s.ctx c
  s.takeKnown c (k.known ++ [⟨k.seq, s.slot, false, pc, cause, 0, none⟩]) arg k.npc

/-- A landed register whose due cycle counts from a later first bundle (R313). -/
def Landing.shift (n : Nat) : Landing → Landing
  | .landed d nb p => .landed d (nb + n) p
  | x => x

/-- A context stops until a cycle; the landing registers of a restored one count from its first bundle (R313). -/
def Ctx.stopUntil (c : Ctx) (t : Nat) : Ctx :=
  { c with
    stallUntil := t
    l := if c.lastIssue.isNone then c.l.map (fun p => (p.1, p.2.shift (t - c.stallUntil))) else c.l }

/-- Both contexts of a core stop until the IFQ has been filled: at most 40 cycles, a free number of them (R299).
DESIGN CHOICE (log 59). -/
def State.fillStop (s : State) (core : Nat) : State :=
  let n := Config.ifqFill s.tick % 41
  s.updCore core (fun k =>
    let stop (c : Ctx) : Ctx := c.stopUntil (max c.stallUntil (k.cycle + 1 + n))
    { k with ctx0 := stop k.ctx0, ctx1 := stop k.ctx1 })

/-- Late faults are detected (R299), with the issue-time fault of the bundle that would issue next: those that are known,
or, where none is yet, those of results that have not landed. A trap that waits to be entered is decided again with
them. DEDUCED (log 26). -/
def State.detect (s : State) (c : CtxId) (next : List LateFault) : State :=
  if (s.ctx c).late.all (s.ctx c).waits then s
  else
    let s := (s.fillStop c.core).settle c
    let k := s.ctx c
    let known := if k.known.all k.waits then k.late else k.known
    match k.entering with
    | none => s.takeKnown c (known ++ next) 0 k.pc
    | some i =>
      let s := s.setCtx c { k with ifq := i.ifq, entering := none, late := [] }
      s.takeKnown c (known ++ [⟨i.seq, i.slot, i.held, i.faultpc, i.cause, i.detail, none⟩]) i.arg i.retpc

/-- An operation of the handler whose scalar result an entry of the IFQ overwrites is discarded (R84, R304). -/
def MemOp.overwritten (es : List IfqEntry) (o : MemOp) : MemOp :=
  match o.interlocks with
  | some r => if es.any (fun e => e.dest == .s r && e.live != 0) then o.unanswered else o
  | none => o

/-- Entries of the IFQ wait to be injected with the next bundle (R304). DEDUCED (log 35). -/
def Ctx.inject (c : Ctx) (cycle : Nat) : Ctx :=
  let add (fs : List Flight) (e : IfqEntry) : List Flight :=
    fs.map (Flight.overtaken e.dest e.live) ++
      [⟨c.seq, 0, cycle + e.delay, e.dest, e.val, e.lanes, e.live, 0, none, false⟩]
  { c with flight := c.ifq.foldl add c.flight, ops := c.ops.map (MemOp.overwritten c.ifq), ifq := [] }

/-- RETPC is read in class 0, after what comes before it, (R238, R239, R303). -/
def State.beforeReturn (s : State) (c : CtxId) : State :=
  let k := slabKey c.core (recordAddr c) + 16
  s.performBefore c (s.lastAcc (classBit 0) [(k, 8)])

/-- ERET (R303). A poisoned RETPC is consumed by the read (R259). A withheld array
operation keeps what it has read of registers. DESIGN CHOICE (log 78). -/
def State.returnFromTrap (s : State) (c : CtxId) : State :=
  match (s.ctx c).trap with
  | none => s
  | some t =>
    let s := s.beforeReturn c
    let k := slabKey c.core (recordAddr c) + 16
    let was := s.poison
    let s := (s.find c.one (s.ctx c).pc [k]).notePlain (.ctx c) (s.stepId + 15) .read 1 ((List.range 8).map (fun i => k + i))
    if s.poisoned k then
      s.updCtx c (fun x => { x with
        late := x.late ++ [⟨x.seq, 0, false, x.pc, consumeCause was k, BitVec.ofNat 128 (recordAddr c + 16), none⟩] })
    else
    let retpc : DWord := BitVec.ofNat 64 (s.readNat k 8)
    let s := s.updCore c.core (fun k => { k with aq := k.aq ++ t.withheld.map (fun a => { a with before := s.freshId, seen := none }) })
    s.updCtx c (fun k =>
      let same := decide (retpc = t.retpc)
      let k := { k with
        trap := none
        ifq := t.ifq
        flight := k.flight.map (Flight.overtaken (.x 15) 1)
        edge := none
        arrived := if same then k.arrived else k.abandoned
        held := if same then t.held else []
        loop := if same then t.loop else { k.loop with depth := 0 }
        repcnt := if same then t.repcnt else 0
        npc := retpc }
      k.store (.x 15) (t.x15.setWidth 1024) 1)

end Sys2Proof.Machine
end

