-- ==== Sys2Proof/Machine/Operands.lean ====
section
/-! DEFINITION. Operand forms: the register fields of a slot word (R70), the repeat prefix's advance (R71), the guard
bits that a form tests (R24, R141, R220), and the registers it names. -/

namespace Sys2Proof.Machine

/-- The register files of R70. -/
inductive File where
  | s | v | p | x | k | d | q | l | bn
  deriving DecidableEq, Repr

/-- A register field of a slot word: its file, lowest bit and width. -/
structure RegField where
  file : File
  lo : Nat
  w : Nat
  deriving DecidableEq, Repr

def fS (lo : Nat) : Option RegField := some ⟨.s, lo, 6⟩
def fV (lo : Nat) : Option RegField := some ⟨.v, lo, 5⟩
def fP (lo : Nat) : Option RegField := some ⟨.p, lo, 4⟩
def fX (lo : Nat) : Option RegField := some ⟨.x, lo, 4⟩
def fK (lo : Nat) : Option RegField := some ⟨.k, lo, 3⟩
def fD (lo : Nat) : Option RegField := some ⟨.d, lo, 4⟩
def fQ (lo : Nat) : Option RegField := some ⟨.q, lo, 2⟩
def fL (lo : Nat) : Option RegField := some ⟨.l, lo, 3⟩
def fB (lo : Nat) : Option RegField := some ⟨.bn, lo, 3⟩

/-- Whether an opcode lies in a range. -/
def inR (lo hi o : Nat) : Bool := decide (lo ≤ o) && decide (o ≤ hi)

/-- The numbered register fields of an opcode (R70, Tables 3.4 to 3.9); a field that the opcode leaves reserved keeps
its number and is none. -/
def regFields : SlotClass → Nat → List (Option RegField)
  | .b, o => if o = 1 ∨ o = 0xD ∨ o = 0xE ∨ o = 0x12 then [fS 14] else if o = 4 then [fS 6] else []
  | .s, o =>
    if o = 0xF then [fS 14, fS 8, fP 4]
    else if inR 0x14 0x16 o || o == 0x35 || o == 0x3D then [fS 14, fS 8, none]
    else if inR 0x18 0x1E o then [fS 14, fS 8]
    else if inR 0x1F 0x22 o then [fS 14]
    else if inR 0x23 0x24 o || inR 0x28 0x2F o then [fP 16, fS 8, fS 2]
    else [fS 14, fS 8, fS 2]
  | .x, o =>
    if o = 0 ∨ o = 2 ∨ o = 5 then [fX 16, fX 12, fX 8]
    else if o = 7 ∨ o = 0xB then [fX 16, fX 12, fX 8, fX 4]
    else if o = 9 then [fX 16, fX 12, fX 8, fB 5]
    else if o = 0xA then [fB 17, fV 12]
    else if o = 0xC ∨ o = 0xD then [fX 16, fS 10]
    else if o = 0xF then [fX 16]
    else [fX 16, fX 12, none]
  | .v, o =>
    if o = 0xF then [fP 16, fV 10, fV 5, fV 0]
    else if inR 0x18 0x1C o then [fP 13, fV 7, fV 2]
    else if inR 0x1D 0x1E o then [fV 12, fV 7]
    else if o = 0x24 then [fV 12, fQ 10, none]
    else if o = 0x25 then [fV 12, none, fL 7]
    else if inR 0x2D 0x2E o then [fS 14, fV 9]
    else if inR 0x30 0x3D o then [fV 15]
    else if o == 6 || inR 9 0xE o || o == 0x13 || inR 0x20 0x23 o || o == 0x26 || inR 0x2B 0x2C o then
      [fV 12, fV 7, none]
    else [fV 12, fV 7, fV 2]
  | .m, o =>
    if o ≤ 2 then [fK 13, fD 9, fD 5]
    else if o = 4 ∨ o = 5 then [fK 13, none]
    else if o ≤ 7 then [fK 13, fK 10]
    else if o = 8 then [fK 17, none, none, none]
    else if o = 9 then [fK 17, none, fD 10, none]
    else if o = 0xA then [none, fK 14, fD 10, none]
    else if o = 0xB then [none, fK 14, none, fQ 8]
    else if o = 0xC then [fK 17, fK 14, none, none]
    else [none, none, fD 10, none]
  | .c, o =>
    if o ≤ 3 ∨ o = 0x25 then [fV 15, fS 9]
    else if o ≤ 5 then [fV 15, fS 9, fV 4]
    else if o = 6 then [fL 17, fS 11]
    else if o = 7 ∨ inR 0x20 0x24 o then [fD 16, fS 10]
    else if o = 0x26 ∨ o = 0x27 then [fQ 18, fS 12]
    else [fS 14]

def RegField.get (f : RegField) (w : Word) : Nat := w.toNat / 2 ^ f.lo % 2 ^ f.w

def RegField.set (f : RegField) (w : Word) (v : Nat) : Word :=
  BitVec.ofNat 32 (w.toNat - f.get w * 2 ^ f.lo + v * 2 ^ f.lo)

/-- One field at a repetition: none where it leaves its file (R71). -/
def advanceField (adv : BitVec 4) (delta : Int) (n : Nat) (f : Option RegField) (w : Word) : Option Word :=
  match f with
  | none => some w
  | some f =>
    if adv.getLsbD n then
      let v : Int := f.get w + delta
      if 0 ≤ v ∧ v < 2 ^ f.w then some (f.set w v.toNat) else none
    else some w

def advanceFields (adv : BitVec 4) (delta : Int) : Nat → List (Option RegField) → Word → Option Word
  | _, [], w => some w
  | n, f :: fs, w =>
    match advanceField adv delta n f w with
    | none => none
    | some w => advanceFields adv delta (n + 1) fs w

/-- A slot word at repetition j (R70). -/
def advanceWord (cl : SlotClass) (adv stride : BitVec 4) (j : Nat) (w : Word) : Option Word :=
  advanceFields adv (j * stride.toInt) 0 (regFields cl (opcOf w)) w

/-- The registers of a file that a word names. -/
def namedIn (f : File) (cl : SlotClass) (w : Word) : List Nat :=
  ((regFields cl (opcOf w)).filterMap id).filterMap (fun r => if r.file = f then some (r.get w) else none)

/-- The word of a slot instruction. -/
def wordOf (i : Instr) : Word := (encode i).headD 0

/-- The class of a slot instruction; an event counts as B. -/
def classOf (i : Instr) : SlotClass := i.slotClass.getD .b

/-- The guard bits that a form tests (R24, R141, R155, R220). -/
def testedBits (cl : SlotClass) (w : Word) : BitVec 32 :=
  let o := opcOf w
  let t : BitVec 3 := w.extractLsb' 17 3
  let low16 : BitVec 32 := 0xFFFF
  let all : BitVec 32 := BitVec.allOnes 32
  match cl with
  | .v =>
    if o = 0xF then (if w.getLsbD 15 then low16 else all)
    else if inR 0x1D 0x1E o then (if ty64 t || ty64 (w.extractLsb' 4 3) then low16 else all)
    else if o = 0x17 then (if t = 0 then low16 else all)
    else if inR 0x24 0x25 o then all
    else if inR 0x2D 0x2E o then 1#32 <<< (w.extractLsb' 4 5).toNat
    else if inR 0x30 0x3D o then (if inR 0x32 0x33 o || inR 0x36 0x37 o then low16 else all)
    else if ty64 t then low16 else all
  | .m => if o ≤ 2 ∨ inR 8 0xA o ∨ o = 0xC then low16 else if o = 0xB then all else 1
  | _ => 1

/-- Whether a slot operation is wholly guarded off (R24). -/
def State.guardedOff (s : State) (cl : SlotClass) (w : Word) : Bool :=
  (s.guard (grdOf w).n (grdOf w).g &&& testedBits cl w) == 0

/-- The scalar registers that a word names or implies: the register after the address register, the compare value of a
CAS, the loop group, the pair of SQRD, the return address. -/
def sUses (cl : SlotClass) (w : Word) : List Nat :=
  let o := opcOf w
  let named := namedIn .s cl w
  let a := named.headD 0
  named ++ match cl with
    | .b =>
      if o = 2 ∨ o = 3 then [63]
      else if o = 4 then (List.range (2 * ((w.extractLsb' 12 3).toNat + 1))).map (fun i => a + i)
      else if o = 0x12 then [a + 1] else []
    | .c =>
      if o = 2 ∨ o = 3 ∨ o = 7 ∨ inR 0x20 0x22 o then [a + 1]
      else if o = 0x14 then [a + 1, a + 2]
      else if inR 8 0x1E o then [a + 1] else []
    | _ => []

end Sys2Proof.Machine
end

