-- ==== Sys2Proof/Machine/Access.lean ====
section
/-! DEFINITION. The address forms of the copy slots (R166 to R170, R172, R174, R188, R189) and the memory operation that
each C-slot form issues. -/

namespace Sys2Proof.Machine

/-- Where an access of a C-slot form goes, or the fault of its address kind (Table 7.1). -/
inductive Place where
  | slab (key : Nat)
  | dva (va : DWord)
  | slabFault
  | addrFault
  deriving DecidableEq, Repr

/-- An own-slab address of `len` bytes, aligned to `al`. -/
def State.placeOwn (s : State) (a : DWord) (len al : Nat) : Place :=
  if a.toNat % al ≠ 0 then .slabFault
  else match s.ownSlab s.cur.core a.toNat len with
    | some k => .slab k
    | none => .slabFault

/-- Any slab address. -/
def State.placeAny (s : State) (a : DWord) (len al : Nat) : Place :=
  if a.toNat % al ≠ 0 then .slabFault
  else match s.slab s.cur.core a.toNat len with
    | some k => .slab k
    | none => .slabFault

/-- A tagged address (R166): bit 63 selects the slab space. -/
def State.placeTagged (s : State) (a : DWord) (len al : Nat) : Place :=
  if a.getLsbD 63 then
    if a.extractLsb' 32 31 = 0 then s.placeAny (a.extractLsb' 0 32 |>.setWidth 64) len al else .slabFault
  else if a.extractLsb' 56 7 ≠ 0 ∨ a.toNat % al ≠ 0 then .addrFault
  else .dva a

/-- The fragment of a place, split so that none crosses a granule's page. -/
def Place.frags (pos len : Nat) : Place → List Frag
  | .slab k => [⟨pos, .key k, len⟩]
  | .dva va =>
    if len ≤ 64 then [⟨pos, .dva va, len⟩]
    else [⟨pos, .dva va, 64⟩, ⟨pos + 64, .dva (va + 64), len - 64⟩]
  | _ => []

def Place.fault : Place → Option (BitVec 8)
  | .slabFault => some causeSlabaddr
  | .addrFault => some causeAddr
  | _ => none

/-- What a C-slot form accesses: its places, each with the place of its bytes in the value and its length, and the bytes
of the value that it moves. -/
structure Access where
  addr : DWord
  parts : List (Nat × Place × Nat)
  read : Bool
  write : Bool
  bytes : Part
  deriving DecidableEq, Repr

def Access.none : Access := ⟨0, [], false, false, wholePart⟩

def Access.fault (a : Access) : Option (BitVec 8) := a.parts.findSome? (fun p => p.2.1.fault)

def Access.frags (a : Access) : List Frag := a.parts.flatMap (fun p => p.2.1.frags p.1 p.2.2)

/-- The own-slab granules of an access, of the bytes that it moves (R33, R182, R189). -/
def Access.granules (core : Nat) (a : Access) : List Nat :=
  a.parts.flatMap (fun p => match p.2.1 with
    | .slab k =>
      if coreOfKey k ≠ some core then []
      else if a.bytes = wholePart then granulesFrom k p.2.2
      else (granulesFrom k p.2.2).filter (fun g =>
        (List.range p.2.2).any (fun i => granule (k + i) == g && a.bytes.getLsbD (p.1 + i)))
    | _ => [])

/-- 32-bit lane i of a vector (R94). -/
def lane32 (v : Vec) (i : Nat) : BitVec 32 := v.extractLsb' (32 * i) 32

/-- LD.V and ST.V (R168): sa + 128 × sext(OFF5). -/
def State.accessV (s : State) (a : BitVec 6) (off : BitVec 5) (write : Bool) : Access :=
  let adr := s.readS a + 128 * off.signExtend 64
  ⟨adr, [(0, s.placeOwn adr 128 64, 128)], !write, write, wholePart⟩

/-- LD.VS and ST.VS (R169): element i at base + i × stride. -/
def State.accessVs (s : State) (a : BitVec 6) (w64 : Bool) (write : Bool) : Access :=
  let b := s.readS a
  let st := s.readS (a + 1)
  let n := if w64 then 16 else 32
  let w := if w64 then 8 else 4
  ⟨b, (List.range n).map (fun i => (w * i, s.placeOwn (b + BitVec.ofNat 64 i * st) w w, w)), !write, write, wholePart⟩

/-- LD.VX and ST.VX (R170): lane i at sa + sext(vb[i]). -/
def State.accessVx (s : State) (a : BitVec 6) (b : BitVec 5) (write : Bool) : Access :=
  let base := s.readS a
  let v := s.readV b
  ⟨base, (List.range 32).map (fun i => (4 * i, s.placeOwn (base + (lane32 v i).signExtend 64) 4 4, 4)), !write, write,
    wholePart⟩

/-- LDR.L (R172). -/
def State.accessL (s : State) (a : BitVec 6) : Access :=
  ⟨s.readS a, [(0, s.placeAny (s.readS a) 128 64, 128)], true, false, wholePart⟩

/-- Bytes of W (R79). -/
def widthOf (w : BitVec 2) : Nat := 2 ^ w.toNat

/-- LD.S, ST.S, AMO and RED (R174, R175). -/
def State.accessA (s : State) (a : BitVec 6) (w : BitVec 2) (read write : Bool) : Access :=
  ⟨s.readS a, [(0, s.placeTagged (s.readS a) (widthOf w) (widthOf w), widthOf w)], read, write, wholePart⟩

/-- The bytes that the oldest entry of a queue stores: those of its lane mask (R189). -/
def State.oldestBytes (s : State) (q : BitVec 2) : Part :=
  match (SMap.get [] s.here.q q.toNat).head? with
  | some e => if e.written then lanePart e.mask else wholePart
  | none => wholePart

/-- FPUSH and FPUSHQ (R188, R189). -/
def State.accessPush (s : State) (a : BitVec 6) (m : Part) : Access :=
  ⟨s.readS a, [(0, s.placeTagged (s.readS a) 128 64, 128)], false, true, m⟩

/-- STQ (R189). -/
def State.accessStq (s : State) (a : BitVec 6) (m : Part) : Access :=
  ⟨s.readS a, [(0, s.placeOwn (s.readS a) 128 64, 128)], false, true, m⟩

/-- The accesses of a C-slot form that moves data at issue; copies and rings have checks of their own. -/
def accessOf (i : Instr) (s : State) : Access :=
  match i with
  | .ldV _ _ a _ o => s.accessV a o false
  | .stV _ _ a _ o => s.accessV a o true
  | .ldVs _ _ a _ w => s.accessVs a w false
  | .stVs _ _ a _ w => s.accessVs a w true
  | .ldVx _ _ a b _ => s.accessVx a b false
  | .stVx _ _ a b _ => s.accessVx a b true
  | .ldrL _ _ a _ _ => s.accessL a
  | .ldS _ a _ _ _ w => s.accessA a w true false
  | .stS _ a _ _ _ w => s.accessA a w false true
  | .amoAdd _ a _ _ _ w => s.accessA a w true true
  | .amoFadd _ a _ _ _ w => s.accessA a w true true
  | .amoMin _ a _ _ _ w => s.accessA a w true true
  | .amoMax _ a _ _ _ w => s.accessA a w true true
  | .amoMinu _ a _ _ _ w => s.accessA a w true true
  | .amoMaxu _ a _ _ _ w => s.accessA a w true true
  | .amoAnd _ a _ _ _ w => s.accessA a w true true
  | .amoOr _ a _ _ _ w => s.accessA a w true true
  | .amoXor _ a _ _ _ w => s.accessA a w true true
  | .amoSwp _ a _ _ _ w => s.accessA a w true true
  | .amoCas _ a _ _ _ w => s.accessA a w true true
  | .redAdd _ a _ _ w => s.accessA a w true true
  | .redFadd _ a _ _ w => s.accessA a w true true
  | .redMin _ a _ _ w => s.accessA a w true true
  | .redMax _ a _ _ w => s.accessA a w true true
  | .redAnd _ a _ _ w => s.accessA a w true true
  | .redOr _ a _ _ w => s.accessA a w true true
  | .redXor _ a _ _ w => s.accessA a w true true
  | .fpush _ _ a _ => s.accessPush a wholePart
  | .fpushq _ q a _ _ => s.accessPush a (s.oldestBytes q)
  | .stq _ q a _ _ => s.accessStq a (s.oldestBytes q)
  | _ => Access.none

/-! ### The nest block and the ring block -/

/-- A nest block (Table 7.4): depth, extents, strides. -/
structure Nest where
  exts : List Nat
  strides : List DWord
  deriving DecidableEq, Repr

/-- Extents and strides of Table 7.4 at two offsets, when they are in range. DEDUCED (log 20): a stride at or above
DEPTH must be zero, as a reserved byte. -/
def nestFields (bs : List Byte) (depth extOff strideOff : Nat) : Option Nest :=
  let exts := (List.range 6).map (fun i => leNat bs (extOff + 2 * i) 2)
  let strides := (List.range 6).map (fun i => BitVec.ofNat 64 (leNat bs (strideOff + 8 * i) 8))
  if depth = 0 ∨ 6 < depth then none
  else if (exts.take depth).any (· == 0) || (exts.drop depth).any (· != 0) || (strides.drop depth).any (· != 0) then none
  else some ⟨exts.take depth, strides.take depth⟩

/-- The nest block in memory, checked against a unit count (R180). DEDUCED (log 20). -/
def State.nestBlock (s : State) (k units : Nat) : Option Nest :=
  let bs := s.bytes k 64
  match nestFields bs (leNat bs 0 1) 4 16 with
  | none => none
  | some n => if leNat bs 1 3 = 0 ∧ n.exts.foldl (· * ·) 1 = units then some n else none

/-- The least and the greatest offset of the elements of a nest. -/
def nestSpan : List Nat → List DWord → Int × Int
  | e :: es, d :: ds =>
    let r := nestSpan es ds
    let x : Int := (e - 1 : Nat) * d.toInt
    (r.1 + min x 0, r.2 + max x 0)
  | _, _ => (0, 0)

/-- Every element of a nest lies in device space, its bits 63 to 56 zero (R28, Table 7.1): the least and the greatest
address do. DEDUCED (log 20). -/
def inDevice (base : DWord) (exts : List Nat) (strides : List DWord) : Bool :=
  let r := nestSpan exts strides
  decide (0 ≤ base.toNat + r.1) && decide (base.toNat + r.2 < 2 ^ 56)

/-- The address of element n of a nest (R179): dimension 0 varies fastest. -/
def nestAddr (base : DWord) : List Nat → List DWord → Nat → DWord
  | e :: es, d :: ds, n => nestAddr (base + BitVec.ofNat 64 (n % e) * d) es ds (n / e)
  | _, _, _ => base

/-- A ring block (Table 7.6) as read; none when it fails the checks of R185 that need only its bytes. A SLOTSTEP that is 0
or no multiple of 64 raises nothing. DEDUCED (log 20). DESIGN CHOICE (log 49). -/
def State.ringBlock (s : State) (k : Nat) : Option Ring :=
  let bs := s.bytes k 128
  let depth := leNat bs 32 1
  let slots := leNat bs 33 1
  match nestFields bs depth 36 48 with
  | none => none
  | some n =>
    if leNat bs 34 2 ≠ 0 ∨ leNat bs 100 28 ≠ 0 ∨ slots = 0 ∨ 16 < slots then none
    else some {
      input := BitVec.ofNat 64 (leNat bs 0 8)
      output := BitVec.ofNat 64 (leNat bs 8 8)
      rowstep := BitVec.ofNat 64 (leNat bs 16 8)
      slot0 := leNat bs 24 4
      slotstep := leNat bs 28 4
      slots := slots
      exts := n.exts
      strides := n.strides
      state := leNat bs 96 4
      taken := [] }

/-- The descriptor of slot m of a ring: the same shape at the slot's address. -/
def Ring.slotDescr (r : Ring) (d : Descr) (m : Nat) : Descr := { d with base := r.slot0 + m * r.slotstep }

/-- Every unit of a ring lies in device space, for each side that it has (R28, Table 7.1). DEDUCED (log 20). -/
def Ring.inDevice (r : Ring) (d : Descr) : Bool :=
  let ok (b : DWord) : Bool := b == 0 ||
    Machine.inDevice b (r.exts ++ [d.rows, d.rowUnits]) (r.strides ++ [r.rowstep, BitVec.ofNat 64 (unitBytes d.fmt)])
  ok r.input && ok r.output

/-- Tiles of a ring. -/
def Ring.tiles (r : Ring) : Nat := r.exts.foldl (· * ·) 1

end Sys2Proof.Machine
end

