-- ==== Sys2Proof/Machine/Check.lean ====
section
/-! DEFINITION. What is checked when a bundle issues: the issue-time faults of a slot (R82), the queue counting of the
whole bundle (R161, R235), and the scoreboard conditions of a slot (R87, R182, R219). -/

namespace Sys2Proof.Machine

/-- A slot of a bundle: its number, whether the word is held, the word as fetched, and the instruction of this
repetition with its word. -/
structure SlotOp where
  slot : Nat
  held : Bool
  orig : Word
  word : Word
  instr : Instr
  deriving DecidableEq, Repr

def SlotOp.cl (o : SlotOp) : SlotClass := classOfSlot o.slot

/-! ### Accumulators (R216) -/

def Ctx.af (c : Ctx) (k : BitVec 3) : BitVec 2 := (SMap.get 0 c.ksw k.toNat).extractLsb' 30 2

/-- A value of KSW with another AF. -/
def withAf (v : Vec) (a : BitVec 2) : Vec := (v &&& ~~~(0xC0000000 : Vec)) ||| (a.setWidth 1024 <<< 30)

/-- A form sets AF of a tile at issue, over a WRC of that register that has not taken effect, which comes before it
(R84, R216). -/
def Ctx.setAf (c : Ctx) (k : BitVec 3) (a : BitVec 2) : Ctx :=
  { c with
    ksw := SMap.setD 0 c.ksw k.toNat ((SMap.get 0 c.ksw k.toNat &&& 0x3FFFFFFF) ||| (a.setWidth 32 <<< 30))
    flight := c.flight.map (fun f => match f.dest with
      | .cr n _ => if n.toNat = 0x10 + k.toNat ∧ f.landed = false then { f with val := withAf f.val a } else f
      | _ => f) }

def Ctx.desc (c : Ctx) (d : BitVec 4) : BitVec 256 := SMap.get 0 c.d d.toNat

/-- Entries that a DRAIN pushes (R235). -/
def drainEntries (af : BitVec 2) : Nat := if af = 1 then 16 else 8

/-! ### The multiply forms (Tables 4.9, 9.7) -/

/-- K of Table 4.9 for a profile, formats and accumulator format; none when the combination is not legal. -/
def profileK (np : Nat) (af : BitVec 2) (fa fb : Nat) : Option Nat :=
  if np ≤ 4 then
    if fa ≠ fb then none
    else if fa = 1 then (if af = 1 then some 16 else none)
    else if fa = 0 then (if af = 0 ∨ af = 1 then some 16 else none)
    else if fa = 2 ∨ fa = 3 then (if af = 0 ∨ af = 1 then some 32 else none)
    else if fa = 4 then (if af = 0 then some 64 else none)
    else none
  else if np = 5 then
    if (fa = 8 ∨ fa = 9) ∧ (fb = 8 ∨ fb = 9) ∧ af = 2 then some 64 else none
  else if np = 6 then
    if fa = fb ∧ af = 0 then (if fa = 4 then some 64 else if fa = fmtK4 then some 128 else none) else none
  else none

/-- The operand rules of Table 9.7: `sparse` where A may carry patterns, `k4` for MMA.K4. -/
def multiplyOk (k4 sparse : Bool) (np : Nat) (af : BitVec 2) (a b : Descr) : Bool :=
  match profileK np af a.fmt b.fmt with
  | none => false
  | some k =>
    let (n, g) := keptOf a.spk
    (a.fmt == fmtK4) == k4 && (a.spk != 0) == (if k4 then a.spk != 0 else sparse) && a.rows == 16 && a.cols == k &&
      b.spk == 0 && b.rows == k * g / n && b.cols == 16

/-- Bank groups of the rows (R32). -/
def State.inGroup (s : State) (core : Nat) (g : Nat) (d : Descr) : Bool :=
  (s.regionGranules core d).all (fun x => groupOf (x * 64) == g)

/-- R214 for an M-slot form that reads an operand: what it says of the operand itself, or none. -/
def State.operandFault (s : State) (core : Nat) (readsMeta readsSpall : Bool) (d : Descr) : Option (BitVec 8) :=
  if !s.regionOk core d || !d.aligned8 || (readsMeta && !s.metaOk core d) || (readsSpall && !s.spallOk core d) then
    some causeSlabaddr
  else none

/-- The faults of a multiply at issue, in the order of R82 and R214. -/
def State.multiplyFault (s : State) (k4 sparse : Bool) (np : BitVec 4) (k : BitVec 3) (da db : BitVec 4) :
    Option (BitVec 8) :=
  let c := s.here
  let n := s.cur.core
  let a := Descr.of (c.desc da)
  let b := Descr.of (c.desc db)
  if a.bad || b.bad || !multiplyOk k4 sparse np.toNat (c.af k) a b then some causeIllopnd
  else match s.operandFault n a.hasMeta k4 a with
    | some f => some f
    | none =>
      match s.operandFault n b.hasMeta k4 b with
      | some f => some f
      | none => if !s.inGroup n 0 a || !s.inGroup n 1 b then some causeBankgrp else none

/-- AF that a factorisation form requires (R227). -/
def wantAf (f64 : Bool) : BitVec 2 := if f64 then 1 else 0

/-- BRK (Table 9.9). -/
def brkCause (b : BitVec 128) : Nat := (b.extractLsb' 0 8).toNat
def brkCol (b : BitVec 128) : Nat := (b.extractLsb' 16 8).toNat
def brkTile (b : BitVec 128) : BitVec 3 := b.extractLsb' 24 3

/-- The faults of M-slot forms at issue. -/
def mFault (i : Instr) (s : State) : Option (BitVec 8) :=
  let c := s.here
  let n := s.cur.core
  let ill (b : Bool) : Option (BitVec 8) := if b then some causeIllopnd else none
  match i with
  | .mma _ p k a b _ _ _ _ => s.multiplyFault false false p k a b
  | .mmaS _ p k a b _ _ _ _ => s.multiplyFault false true p k a b
  | .mmaK4 _ k a b m => s.multiplyFault true false m.np k a b
  | .trsm _ k e w _ => ill (c.af k != wantAf w || c.af e != wantAf w)
  | .getrf _ k w l =>
    ill (c.af k != wantAf w ||
      (l && ((brkCause c.brk != 1 && brkCause c.brk != 2) || brkTile c.brk != k || decide (15 < brkCol c.brk))))
  | .potrf _ k w l =>
    ill (c.af k != wantAf w || (l && (brkCause c.brk != 3 || brkTile c.brk != k || decide (15 < brkCol c.brk))))
  | .givqr _ k _ w => ill (c.af k != wantAf w)
  | .rotapp _ k e w _ => ill (c.af k != wantAf w || c.af e != 1)
  | .accld _ _ d =>
    let x := Descr.of (c.desc d)
    if x.bad || x.rows != 16 || x.cols != 16 || !(x.fmt == 0 || x.fmt == 1 || x.fmt == 5 || x.fmt == 6) then
      some causeIllopnd
    else s.operandFault n false false x
  | .accst _ k d =>
    let x := Descr.of (c.desc d)
    let fits := if c.af k = 0 then x.fmt == 0 else if c.af k = 1 then x.fmt == 1 else x.fmt == 5 || x.fmt == 6
    if x.bad || x.rows != 16 || x.cols != 16 || !fits then some causeIllopnd else s.operandFault n false false x
  | .cbld _ d _ =>
    let x := Descr.of (c.desc d)
    if x.bad then some causeIllopnd
    else if x.base % 64 ≠ 0 ∨ (s.ownSlab n x.base 64).isNone then some causeSlabaddr
    else s.operandFault n false false x
  | .spld _ d =>
    let x := Descr.of (c.desc d)
    if x.bad || x.fmt != fmtK4 then some causeIllopnd else s.operandFault n true true x
  | _ => none

/-! ### Copies and rings (R180 to R186) -/

/-- Bytes that a read cannot have: poisoned, or with an uncorrectable error that the read will find (R258, R259). What a
command would check of them is not checked. DESIGN CHOICE (log 60). -/
def State.spoiled (s : State) (keys : List Nat) : Bool := keys.any s.unreadable

def runKeys (k n : Nat) : List Nat := (List.range n).map (fun i => k + i)

/-- The faults of CP.IN and CP.OUT at issue. -/
def State.copyFault (s : State) (d : BitVec 4) (a : BitVec 6) : Option (BitVec 8) :=
  let n := s.cur.core
  let x := Descr.of (s.here.desc d)
  let na := (s.readS (a + 1))
  let nest := if na.toNat % 64 = 0 then s.ownSlab n na.toNat 64 else none
  let seen := match nest with
    | some k => if s.spoiled (runKeys k 64) then none else some (s.nestBlock k (x.rows * x.rowUnits))
    | none => none
  let badNest := match seen with
    | some n => n.isNone
    | none => false
  let high := match seen with
    | some (some n) => !inDevice (s.readS a) n.exts n.strides
    | _ => false
  if x.bad || badNest then some causeIllopnd
  else if (s.readS a).extractLsb' 56 8 ≠ 0 ∨ high = true then some causeAddr
  else if nest.isNone || !s.regionOk n x then some causeSlabaddr
  else none

/-- The slab window of an address: the alias, or the Wall window of a core (R29, R30). -/
def windowOfAddr (a : Nat) : Option Nat := if a < 0x20000000 then none else some ((a - 0x20000000) / 0x200000)

/-- The keys of the destination rows of CP.SS (R181): the whole region in one slab window. The rule asks for no alignment
of them, and the model for none. DESIGN CHOICE (log 47). -/
def State.ssRows (s : State) (x : Descr) (base : DWord) (stride : Nat) : Option (List Nat) :=
  let at_ (r : Nat) : Nat := (base + BitVec.ofNat 64 (r * stride)).toNat
  if (List.range x.rows).any (fun r => windowOfAddr (at_ r) != windowOfAddr (at_ 0)) then none
  else (List.range x.rows).mapM (fun r => s.slab s.cur.core (at_ r) x.rowBytes)

/-- The faults of CP.SS at issue. DESIGN CHOICE (log 47). -/
def State.ssFault (s : State) (d : BitVec 4) (a : BitVec 6) : Option (BitVec 8) :=
  let x := Descr.of (s.here.desc d)
  if x.bad then some causeIllopnd
  else if !s.regionOk s.cur.core x ||
      (s.ssRows x (s.readS a) ((s.readS (a + 1)).extractLsb' 0 32).toNat).isNone then some causeSlabaddr
  else none

/-- Every slot and every state byte of a ring lies in the own slab (R185). -/
def State.ringOk (s : State) (core : Nat) (r : Ring) (x : Descr) : Bool :=
  (List.range r.slots).all (fun m =>
    (s.ownSlab core (r.slot0 + m * r.slotstep) ((x.rows - 1) * x.stride + x.rowBytes)).isSome &&
      (s.ownSlab core (r.state + m) 1).isSome)

/-- The ring block that a register names. -/
def State.ringAt (s : State) (a : BitVec 6) : Option Nat :=
  if (s.readS a).toNat % 128 = 0 then s.ownSlab s.cur.core (s.readS a).toNat 128 else none

/-- The faults of RSUB at issue. -/
def State.ringFault (s : State) (d : BitVec 4) (a : BitVec 6) : Option (BitVec 8) :=
  let x := Descr.of (s.here.desc d)
  match s.ringAt a with
  | none => if x.bad then some causeIllopnd else some causeSlabaddr
  | some k =>
    if s.spoiled (runKeys k 128) then
      (if x.bad then some causeIllopnd else if s.regionOk s.cur.core x then none else some causeSlabaddr)
    else match s.ringBlock k with
    | none => some causeIllopnd
    | some r =>
      if x.bad || r.slot0 != x.base || !s.ringOk s.cur.core r x then some causeIllopnd
      else if !r.inDevice x then some causeAddr
      else if !s.regionOk s.cur.core x then some causeSlabaddr
      else none

/-- The slot that SREL names (R186). -/
def ringSlot (r : Ring) (base : Nat) : Option Nat :=
  if base < r.slot0 then none
  else if r.slotstep = 0 then (if base = r.slot0 then some 0 else none)
  else if (base - r.slot0) % r.slotstep ≠ 0 then none
  else if (base - r.slot0) / r.slotstep < r.slots then some ((base - r.slot0) / r.slotstep)
  else none

/-- The state byte that SREL writes: none where the ring block cannot be read, or where it or the slot is no valid one.
DESIGN CHOICE (log 60). -/
def State.srelByte (s : State) (d : BitVec 4) (a : BitVec 6) : Option Nat :=
  match s.ringAt a with
  | none => none
  | some k =>
    if s.spoiled (runKeys k 128) then none
    else match s.ringBlock k with
    | none => none
    | some r =>
      match ringSlot r (Descr.of (s.here.desc d)).base with
      | none => none
      | some m => s.ownSlab s.cur.core (r.state + m) 1

/-- The faults of SREL at issue (R186, R214), ranked as R82 says. DESIGN CHOICE (log 49). -/
def State.srelFault (s : State) (d : BitVec 4) (a : BitVec 6) : Option FaultDetail :=
  let x := Descr.of (s.here.desc d)
  if x.bad then some (causeIllopnd, 0)
  else match s.ringAt a with
    | none => some (causeSlabaddr, 0)
    | some b =>
      if s.spoiled (runKeys b 128) then (if s.regionOk s.cur.core x then none else some (causeSlabaddr, 0))
      else match s.srelByte d a with
      | none => some (causeIllopnd, 0)
      | some k =>
        if !s.regionOk s.cur.core x then some (causeSlabaddr, 0)
        else if s.byte k = 1 || s.spoiled [k] then none else some (causeQueue, 0)

/-! ### Remote loads (Table 7.2) -/

/-- The minimum DUE for the slab that holds a key. -/
def minDue (core k : Nat) : Nat :=
  match coreOfKey k with
  | some n => if courseOf n = courseOf core then 12 else if n / 64 = core / 64 then 28 else 64
  | none => 12

/-- The minimum DUE of a remote load: that of the slab in which its first byte lies, and where that lies in none, the least of
Table 7.2. DEDUCED (log 51). -/
def State.remoteMin (s : State) (a : BitVec 6) : Nat :=
  match s.placeAny (s.readS a) 1 1 with
  | .slab k => minDue s.cur.core k
  | _ => 12

/-- The faults of LDR.L at issue, in the order of R82. DEDUCED (log 51). -/
def State.remoteFault (s : State) (l : BitVec 3) (a : BitVec 6) (due : BitVec 7) : Option FaultDetail :=
  if due.toNat < s.remoteMin a then some (causeIllopnd, 0)
  else match s.placeAny (s.readS a) 128 64 with
  | .slab _ => if SMap.get .empty s.here.l l.toNat ≠ .empty then some (causeQueue, 0x100 + l.setWidth 128) else none
  | _ => some (causeSlabaddr, 0)

/-! ### Copy ids (R182, R183) -/

def Ctx.copy (c : Ctx) (i : Nat) : CopyState := SMap.get .free c.copies i

/-- The copy id that a command names. -/
def copyIdOf (i : Instr) : Option (BitVec 4) :=
  match i with
  | .cpIn _ _ _ i _ => some i
  | .cpOut _ _ _ i _ => some i
  | .cpSs _ _ _ i _ => some i
  | .rsub _ _ _ i _ => some i
  | _ => none

/-- The progress record of the lowest faulted id among some. -/
def Ctx.faultedCopy (c : Ctx) (m : BitVec 16) : Option (BitVec 128) :=
  (List.range 16).findSome? (fun i => if m.getLsbD i then
    match c.copy i with | .faulted r => some r | _ => none else none)

/-- The progress record of the first failed posted operation of some classes. -/
def Ctx.failedPost (c : Ctx) (m : BitVec 16) : Option (BitVec 128) :=
  (c.failed.find? (fun p => m.getLsbD p.1.toNat)).map Prod.snd

/-! ### Issue-time faults of a slot (R82) -/

/-- A loop control word that LOOP refuses (R126). -/
def badControl (w : DWord) : Bool := w.extractLsb' 28 4 != 0 || w.extractLsb' 38 26 != 0

/-- An address that a branch refuses (Table 5.5). -/
def badTarget (a : DWord) : Bool := a.extractLsb' 56 8 != 0 || a.extractLsb' 0 2 != 0

/-- The first queue that holds an entry (R138). -/
def Ctx.fullQueue (c : Ctx) : Option Nat := (List.range 4).find? (fun k => SMap.get [] c.q k ≠ [])

def Ctx.inEpilogue (c : Ctx) : Bool :=
  match c.slice with
  | some sl => sl.phase == .epilogue
  | none => false

/-- The faults of B-slot forms at issue. -/
def bFault (i : Instr) (s : State) : Option FaultDetail :=
  let c := s.here
  let ill (b : Bool) : Option FaultDetail := if b then some (causeIllopnd, 0) else none
  let adr (b : Bool) : Option FaultDetail := if b then some (causeAddr, 0) else none
  match i with
  | .jmp _ a => adr (badTarget (s.readS a))
  | .ret _ => adr (badTarget (s.readS 63))
  | .loop _ _ d a =>
    ill (c.loop.depth != 0 || (List.range (d.toNat + 1)).any (fun k => badControl (s.readS (a + BitVec.ofNat 6 (2 * k)))))
  | .wait _ k m =>
    if k = 0 then (c.faultedCopy m).map (fun r => (causeXlat, r))
    else if k = 2 then (c.failedPost m).map (fun r => (causeXlat, r)) else none
  | .bar _ _ m => ill (!m.getLsbD (s.cur.core % 8))
  | .eret _ => ill (match c.trap with | none => true | some t => t.depth != c.depth)
  | .ctnOpen _ _ => ill (c.depth == 4)
  | .ctnClose _ => ill (c.depth == 0)
  | .glaunch _ a => adr ((s.readS a).extractLsb' 56 8 != 0 || (s.readS a).extractLsb' 0 6 != 0)
  | .bead _ a _ => adr ((s.readS a).extractLsb' 56 8 != 0 || (s.readS a).extractLsb' 0 7 != 0)
  | .yield _ => ill (c.inEpilogue || c.loop.depth != 0 || c.depth != 0)
  | .ndone _ =>
    if !c.inEpilogue || c.loop.depth != 0 || c.depth != 0 then some (causeIllopnd, 0)
    else match c.fullQueue with
      | some q => some (causeQueue, BitVec.ofNat 128 q)
      | none =>
        match c.faultedCopy (BitVec.allOnes 16) with
        | some r => some (causeXlat, r)
        | none => (c.failedPost (BitVec.allOnes 16)).map (fun r => (causeXlat, r))
  | _ => none

/-- The faults of S-slot forms at issue (R96, R216). -/
def sFault (i : Instr) (s : State) : Option FaultDetail :=
  match i with
  | .wrc _ a c _ =>
    let v := s.readS a
    if c = 0 ∧ 5 ≤ (v.extractLsb' 0 3).toNat then some (causeIllopnd, 0)
    else if 0x10 ≤ c.toNat ∧ c.toNat ≤ 0x17 ∧ v.extractLsb' 30 2 = 3 then some (causeIllopnd, 0)
    else none
  | _ => none

/-- The faults of V-slot forms at issue; the queues are counted over the bundle. -/
def vFault (i : Instr) (s : State) : Option FaultDetail :=
  match i with
  | .vpopl _ _ l => if SMap.get .empty s.here.l l.toNat = .empty then some (causeQueue, 0x100 + l.setWidth 128) else none
  | _ => none

/-- The faults of C-slot forms at issue. -/
def cFault (i : Instr) (s : State) : Option FaultDetail :=
  let first : Option FaultDetail := match i with
    | .cpIn _ d a _ _ => (s.copyFault d a).map (fun x => (x, 0))
    | .cpOut _ d a _ _ => (s.copyFault d a).map (fun x => (x, 0))
    | .cpSs _ d a _ _ => (s.ssFault d a).map (fun x => (x, 0))
    | .rsub _ d a _ _ => (s.ringFault d a).map (fun x => (x, 0))
    | .srel _ d a _ => s.srelFault d a
    | .ldrL _ l a _ due => s.remoteFault l a due
    | i => (accessOf i s).fault.map (fun x => (x, 0))
  match first with
  | some f => some f
  | none =>
    match copyIdOf i with
    | some k => match s.here.copy k.toNat with
      | .faulted r => some (causeXlat, r)
      | _ => none
    | none => none

/-- The issue-time fault of a slot that ranks first (R82); DETAIL of an illegal operand is the word. -/
def issueFault (cl : SlotClass) (w : Word) (i : Instr) (s : State) : Option FaultDetail :=
  let f := match cl with
    | .b => bFault i s
    | .s => sFault i s
    | .x => none
    | .v => vFault i s
    | .m => (mFault i s).map (fun x => (x, 0))
    | .c => cFault i s
  f.map (fun x => if x.1 = causeIllopnd then (x.1, w.setWidth 128) else x)

/-! ### Queues over the whole bundle (R161, R235) -/

/-- The queue that a slot pops. -/
def popsOf (i : Instr) : Option (BitVec 2) :=
  match i with
  | .vpopq _ _ q => some q
  | .fpushq _ q _ _ _ => some q
  | .stq _ q _ _ _ => some q
  | _ => none

/-- The first slot, in MASK order, whose pop or push cannot be met. -/
def queueFault (c : Ctx) (ops : List SlotOp) : Option (Nat × BitVec 2) :=
  let pops (q : BitVec 2) (l : List SlotOp) : Nat := (l.filter (fun o => popsOf o.instr == some q)).length
  let len (q : BitVec 2) : Nat := (SMap.get [] c.q q.toNat).length
  let bad (before : List SlotOp) (o : SlotOp) : Option (BitVec 2) :=
    match popsOf o.instr with
    | some q => if len q ≤ pops q before then some q else none
    | none =>
      match o.instr with
      | .drain _ a q => if 16 < len q - pops q ops + drainEntries (c.af a) then some q else none
      | _ => none
  let rec go : List SlotOp → List SlotOp → Option (Nat × BitVec 2)
    | _, [] => none
    | before, o :: rest =>
      match bad before o with
      | some q => some (o.slot, q)
      | none => go (before ++ [o]) rest
  go [] ops

/-! ### In-flight array operations and their regions -/

/-- The tiles that an array operation writes. -/
def tilesWritten (i : Instr) : List (BitVec 3) :=
  match i with
  | .mma _ _ k _ _ _ _ _ _ => [k]
  | .mmaS _ _ k _ _ _ _ _ _ => [k]
  | .mmaK4 _ k _ _ _ => [k]
  | .trsm _ k _ _ _ => [k]
  | .getrf _ k _ _ => [k]
  | .potrf _ k _ _ => [k]
  | .givqr _ k e _ => [k, e]
  | .rotapp _ k _ _ _ => [k]
  | .accz _ k => [k]
  | .accld _ k _ => [k]
  | _ => []

/-- The tiles that an array operation reads or writes. -/
def tilesTouched (i : Instr) : List (BitVec 3) :=
  tilesWritten i ++ match i with
    | .trsm _ _ e _ _ => [e]
    | .rotapp _ _ e _ _ => [e]
    | .drain _ a _ => [a]
    | _ => []

/-- The factorisation forms (R227). -/
def isFactor (i : Instr) : Bool :=
  match i with
  | .trsm _ _ _ _ _ => true
  | .getrf _ _ _ _ => true
  | .potrf _ _ _ _ => true
  | .givqr _ _ _ _ => true
  | .rotapp _ _ _ _ _ => true
  | _ => false

/-- The M-slot forms on the array path (R218). -/
def isArray (i : Instr) : Bool :=
  match i with
  | .accst _ _ _ => false
  | .accmov _ _ _ => false
  | .acct _ _ => false
  | _ => i.slotClass == some .m

/-- The descriptors that an M-slot form names. -/
def descrsOf (i : Instr) : Option (BitVec 4) × Option (BitVec 4) :=
  match i with
  | .mma _ _ _ a b _ _ _ _ => (some a, some b)
  | .mmaS _ _ _ a b _ _ _ _ => (some a, some b)
  | .mmaK4 _ _ a b _ => (some a, some b)
  | .accld _ _ d => (some d, none)
  | .accst _ _ d => (some d, none)
  | .cbld _ d _ => (some d, none)
  | .spld _ d => (some d, none)
  | _ => (none, none)

/-- The array operations of a core that are not complete, those behind a fault that waits to be detected among them (R221,
R222). -/
def Core.arrays (k : Core) : List ArrayOp := k.aq ++ k.ctx0.withheld ++ k.ctx1.withheld

/-- The operations of an array that have faulted and whose fault has still to be detected: their interlocks hold until then
(R299). -/
def Ctx.lateArrays (c : Ctx) : List ArrayOp := c.late.filterMap LateFault.array
def Ctx.lateMem (c : Ctx) : List MemOp := c.late.filterMap LateFault.mem
def Ctx.lateCopies (c : Ctx) : List (BitVec 4 × CopyCmd) := c.late.filterMap LateFault.copy

/-- The granules that array operations of the core in flight have as regions of their operands (R202, R219). -/
def State.arrayBusy (s : State) (core : Nat) : List Nat :=
  let k := s.core core
  (k.arrays ++ k.ctx0.lateArrays ++ k.ctx1.lateArrays).flatMap (fun a =>
    (s.arrayReads ⟨core, a.one⟩ a.before a.instr (Descr.of a.da) (Descr.of a.db)).flatMap Span.granules)

/-- The granules of the regions of the core's ACCST operations in flight (R182, R219). -/
def State.accstBusy (s : State) (core : Nat) : List Nat :=
  let of (c : Ctx) : List Nat := (c.ops.filter (fun o => !o.performed) ++ c.lateMem).flatMap (·.region)
  of (s.core core).ctx0 ++ of (s.core core).ctx1

/-- The granules of copies in flight of both contexts (R182): those that stall reads and writes, and those that stall
writes. -/
def State.copyBusy (s : State) (core : Nat) : List Nat × List Nat :=
  let of (r : CopyCmd) : List Nat × List Nat :=
    let gs := s.regionGranules core (Descr.of r.d)
    match r.kind with
    | .cpIn => (gs, [])
    | .cpOut => ([], gs)
    | .cpSs => ([], gs)
    | .ring _ => ([], [])
  let all (c : Ctx) : List CopyCmd :=
    c.copies.filterMap (fun p => match p.2 with | .running r => some r | _ => none) ++ c.lateCopies.map Prod.snd
  let rs := all (s.core core).ctx0 ++ all (s.core core).ctx1
  (rs.flatMap (fun r => (of r).1), rs.flatMap (fun r => (of r).2))

/-- The address of a descriptor's staging bytes (R215). -/
def stagingAddr (one : Bool) (d : BitVec 4) : Nat := 0x17FC00 + (if one then 0x200 else 0) + 0x20 * d.toNat

/-- The own-slab granules that a slot reads and writes, at issue or later. -/
def slabUse (i : Instr) (s : State) : List Nat × List Nat :=
  let n := s.cur.core
  let x (d : BitVec 4) : Descr := Descr.of (s.here.desc d)
  let block (a : BitVec 6) (k : Nat) : List Nat := granulesFrom (s.ownKey n (s.readS a).toNat) k
  match i with
  | .cpIn _ d a _ _ => (block (a + 1) 64, s.regionGranules n (x d))
  | .cpOut _ d a _ _ => (block (a + 1) 64 ++ s.regionGranules n (x d), [])
  | .cpSs _ d a _ _ =>
    (s.regionGranules n (x d),
      match s.ssRows (x d) (s.readS a) ((s.readS (a + 1)).extractLsb' 0 32).toNat with
      | some ks => ks.flatMap (fun k => if coreOfKey k = some n then granulesFrom k (x d).rowBytes else [])
      | none => [])
  | .rsub _ _ a _ _ => (block a 128, [])
  | .srel _ d a _ =>
    (block a 128, match s.srelByte d a with | some k => [granule k] | none => [])
  | .accst _ _ d => ([], s.regionGranules n (x d))
  | .acct _ d => (granulesFrom (slabKey n (stagingAddr s.cur.one d)) 32, [])
  | .pf _ _ _ _ => ([], [])
  | i =>
    if i.slotClass = some .c then
      let a := accessOf i s
      (if a.read then a.granules n else [], if a.write then a.granules n else [])
    else if i.slotClass = some .m then
      match descrsOf i with
      | (some a, some b) => ((s.arrayReads s.cur s.freshId i (x a) (x b)).flatMap Span.granules, [])
      | (some a, none) => ((s.arrayReads s.cur s.freshId i (x a) (x a)).flatMap Span.granules, [])
      | _ => ([], [])
    else ([], [])

/-- R182 and the region rows of Table 9.4. -/
def regionReady (i : Instr) (s : State) : Bool :=
  let n := s.cur.core
  let (r, w) := slabUse i s
  if r = [] ∧ w = [] then true
  else
    let (both, wr) := s.copyBusy n
    !(overlaps both (r ++ w)) && !(overlaps wr w) && !(overlaps (s.accstBusy n) (r ++ w)) &&
      !(i.slotClass == some .c && overlaps (s.arrayBusy n) w)

/-! ### The scoreboard (R87) -/

/-- The array operations of the issuing context that are not complete, those behind a fault that waits to be detected
among them (R222). -/
def State.myArray (s : State) : List ArrayOp := s.myCore.aq.filter (fun a => a.one == s.cur.one) ++ s.here.withheld

/-- Those operations, and the ones whose fault has still to be detected: until then nothing that needs their results issues
(R217, R299). -/
def State.unsettled (s : State) : List ArrayOp := s.myArray ++ s.here.lateArrays

/-- The operations in the input queue of a core's array (R221). -/
def Core.queued (k : Core) : Nat := k.arrays.length

/-- The tiles that ACCMOV operations in flight write. -/
def Ctx.movesTo (c : Ctx) : List (BitVec 3) :=
  c.ops.filterMap (fun o => match o.act with | .move k _ _ => some k | _ => none)

/-- The memory operations of a context whose interlocks hold (R87, R299). -/
def Ctx.holding (c : Ctx) : List MemOp := c.ops ++ c.lateMem

/-- The registers that wait for an interlocked result (R174, R175). -/
def Ctx.locked (c : Ctx) : List Nat := (c.holding.filterMap (fun o => o.interlocks.map BitVec.toNat)).filter (· != 0)

/-- The descriptors that an ACCT in flight writes (R215). -/
def Ctx.lockedD (c : Ctx) : List Nat :=
  c.holding.filterMap (fun o => match o.act with | .load (.desc d) => some d.toNat | _ => none)

/-- Whether every operation that writes tile k has completed (R129, R217). -/
def State.tileQuiet (s : State) (k : BitVec 3) : Bool :=
  !(s.unsettled.any (fun a => (tilesWritten a.instr).contains k)) && !(s.here.movesTo.contains k)

/-- Whether every factorisation form of the context has completed (R217). -/
def State.factorQuiet (s : State) : Bool := !(s.unsettled.any (fun a => isFactor a.instr))

/-- RDC and WRC of a register that the array writes (R217). -/
def State.crReady (s : State) (n : BitVec 8) : Bool :=
  if 0x10 ≤ n.toNat ∧ n.toNat ≤ 0x17 then s.tileQuiet (n.extractLsb' 0 3)
  else if 0x18 ≤ n.toNat ∧ n.toNat ≤ 0x1A then s.factorQuiet
  else true

/-- Every entry that pops of a queue will take is written (R159). -/
def Ctx.oldestWritten (c : Ctx) (q : BitVec 2) (n : Nat) : Bool := ((SMap.get [] c.q q.toNat).take n).all (·.written)

/-- Codebook slots that CBLD operations in flight load, and those that others read (R198). -/
def cbLoaded (a : ArrayOp) : Option Nat :=
  match a.instr with
  | .cbld _ _ c => some c.toNat
  | _ => none

def cbRead (a : ArrayOp) : List Nat :=
  match a.instr with
  | .mmaK4 _ _ _ _ _ => [(Descr.of a.da).cb, (Descr.of a.db).cb]
  | .spld _ _ => [(Descr.of a.da).cb]
  | _ => []

/-- The copies in flight among some ids. -/
def Ctx.copiesBusy (c : Ctx) (m : BitVec 16) : Bool :=
  (List.range 16).any (fun i => m.getLsbD i && (match c.copy i with | .running _ => true | _ => false)) ||
    c.lateCopies.any (fun p => m.getLsbD p.1.toNat)

/-- A landing register that is pending. -/
def Ctx.pendingLanding (c : Ctx) : Bool := c.l.any (fun p => match p.2 with | .pending _ _ _ _ => true | _ => false)

/-- The ordering classes whose failed posted operations a form reports (R183). -/
def namedBy (i : Instr) : BitVec 16 :=
  match i with
  | .wait _ k m => if k = 2 then m else 0
  | .ndone _ => BitVec.allOnes 16
  | _ => 0

/-- What a form waits for beyond its registers and regions. DEDUCED (log 36). DESIGN CHOICE (log 52). -/
def formReady (i : Instr) (s : State) : Bool :=
  let c := s.here
  match i with
  | .wait _ k m =>
    if k = 0 then !c.copiesBusy m || (c.faultedCopy m).isSome
    else if k = 1 then (List.range 8).all (fun j => !m.getLsbD j || s.tileQuiet (BitVec.ofNat 3 j))
    else !(c.holding.any (fun o => o.posted && m.getLsbD o.oc.toNat)) || (c.failedPost m).isSome
  | .ndone _ =>
    (bFault i s).isSome ||
      (!c.copiesBusy (BitVec.allOnes 16) && s.myArray == [] && c.ops == [] && !c.pendingLanding && c.late == [] &&
        !(s.ksq.any (fun m => m.isFrom s.cur)))
  | .eret _ => (bFault i s).isSome || (c.flight.all (fun f => f.landed && decide (f.due ≤ s.cycle)) && s.unsettled == [])
  | .rdc _ _ n _ => s.crReady n
  | .wrc _ _ n _ => s.crReady n
  | .vpopq _ _ q => c.oldestWritten q 1
  | .fpushq _ q _ _ _ => c.oldestWritten q 1
  | .stq _ q _ _ _ => c.oldestWritten q 1
  | .vpopl _ _ l => (match SMap.get .empty c.l l.toNat with
    | .pending _ _ _ _ => false
    | .landed _ nb _ => decide (nb ≤ if c.lastIssue.isNone then c.stallUntil else s.cycle)
    | .empty => c.lateMem.all (fun o => o.act != .load (.landing l)))
  | .qnt _ _ _ b _ =>
    !(s.unsettled.any (fun a => cbLoaded a == some ((lane32 (s.readV b) 1).extractLsb' 21 2).toNat))
  | .dq _ _ a _ _ =>
    !(s.unsettled.any (fun x => cbLoaded x == some (((s.readV a).extractLsb' 208 8).toNat % 4)))
  | .cbld _ _ k => !(s.unsettled.any (fun a => (cbRead a).contains k.toNat))
  | .getrf _ _ _ l => !l || s.factorQuiet
  | .potrf _ _ _ l => !l || s.factorQuiet
  | .accmov _ k _ => !(s.unsettled.any (fun a => (tilesTouched a.instr).contains k))
  | i => (match copyIdOf i with
    | some k => (match c.copy k.toNat with | .running _ => false | _ => true) && c.lateCopies.all (fun p => p.1 != k)
    | none => true)

/-- The scoreboard conditions of a slot that is not wholly guarded off (R87). -/
def slotReady (cl : SlotClass) (w : Word) (i : Instr) (s : State) : Bool :=
  let c := s.here
  !(overlaps c.locked (sUses cl w)) && !(overlaps c.lockedD (namedIn .d cl w)) && formReady i s &&
    (!isArray i || (decide (s.myCore.queued < 4) &&
      !(c.movesTo.any (fun k => (tilesTouched i).contains k)))) &&
    regionReady i s

/-! ### Blocks that a command reads at issue (R180, R185, R186) -/

/-- The keys that a copy or ring form reads at issue. -/
def blockKeys (i : Instr) (s : State) : List Nat :=
  let at_ (a : BitVec 6) (n : Nat) : List Nat :=
    if (s.readS a).toNat % n ≠ 0 then []
    else match s.ownSlab s.cur.core (s.readS a).toNat n with
    | some k => runKeys k n
    | none => []
  match i with
  | .cpIn _ _ a _ _ => at_ (a + 1) 64
  | .cpOut _ _ a _ _ => at_ (a + 1) 64
  | .rsub _ _ a _ _ => at_ a 128
  | .srel _ d a _ => at_ a 128 ++ (s.srelByte d a).toList
  | _ => []

/-! ### The stall of the banks (R33) -/

/-- The own-slab granules that a C-slot form accesses at issue. DEDUCED (log 29). -/
def issueGranules (i : Instr) (s : State) : List Nat :=
  (accessOf i s).granules s.cur.core ++ (blockKeys i s).map granule

/-- Whether a form makes its bundle a counted one. -/
def isCounted (i : Instr) : Bool :=
  match i with
  | .ldVs _ _ _ _ _ => true
  | .stVs _ _ _ _ _ => true
  | .ldVx _ _ _ _ _ => true
  | .stVx _ _ _ _ _ => true
  | _ => false

/-- Distinct granules of the fullest bank. -/
def fullestBank (gs : List Nat) : Nat :=
  (List.range 32).foldl (fun m b => max m ((dedup gs).filter (fun g => bankOf (g * 64) == b)).length) 0

/-- The stall of a bundle, counted or not, whose copy slots access these granules (R33). DEDUCED (log 29). -/
def stallOf (counted : Bool) (gs : List Nat) : Nat := if counted then fullestBank gs - 1 else 0

/-! ### Settling -/

/-- The ordering class that a form names (Table 10.1). -/
def classOfForm (i : Instr) : BitVec 16 :=
  match i with
  | .cpIn _ _ _ _ oc => classBit oc
  | .cpOut _ _ _ _ oc => classBit oc
  | .cpSs _ _ _ _ oc => classBit oc
  | .rsub _ _ _ _ oc => classBit oc
  | .srel _ _ _ oc => classBit oc
  | _ => 0

/-- The context's earlier accesses to those bytes, and those of its class, have performed (R238, R239). -/
def State.settleBlocks (s : State) (i : Instr) : State :=
  match blockKeys i s with
  | [] => s
  | _ =>
    let now (s : State) : State := s.performBefore s.cur (s.lastAcc (classOfForm i) ((blockKeys i s).map (fun k => (k, 1))))
    now (now s)

/-- A command reads its block at issue, in its class (Table 10.1): the read finds the errors of its granules (R258).
DESIGN CHOICE (log 60). -/
def State.seeBlock (s : State) (i : Instr) : State :=
  match blockKeys i s with
  | [] => s
  | keys => (s.find s.cur.one s.here.pc keys).notePlain (.ctx s.cur) s.freshId .read (classOfForm i) keys

/-- A command reads its block at issue: poison that it finds is consumed by the command (R259), which has no other effect.
DESIGN CHOICE (log 60). -/
def State.readBlock (s : State) (i : Instr) (go : State → State) : State :=
  let keys := blockKeys i s
  let was := s.poison
  let s := s.seeBlock i
  match keys.find? s.poisoned with
  | some k => s.late (consumeCause was k) (BitVec.ofNat 128 (k - slabKey s.cur.core 0))
  | none => go s

/-! ### A slot word on its own -/

/-- Issue of one instruction: nothing where it is wholly guarded off (R24); its effect where it is granted, or where
it is well formed, its scoreboard conditions hold and no fault stops it; else the trap of its fault, or, while it
waits, no change. DESIGN CHOICE (log 1). -/
def issue (i : Instr) (s : State) (eff : State → State) : Host.Outcome State Fault Refusal :=
  let w := wordOf i
  let cl := classOf i
  if s.granted then .next (eff s)
  else if s.boot ≠ .running then .next s
  else
    let s := { s with slot := cl.slot, heldNow := false }
    if i.wf = false then .next (s.raise s.cur cl.slot false causeIllopnd (w.setWidth 128) 0)
    else if s.guardedOff cl w then .next s
    else if slotReady cl w i s = false then .next s
    else
      let s := { s.settleBlocks i with stall := stallOf (isCounted i) (issueGranules i s) }
      match issueFault cl w i s with
      | some f => .next (((s.seeBlock i).upd (fun k => { k with named := namedBy i })).raise s.cur cl.slot false f.1 f.2 0)
      | none =>
        match queueFault s.here [⟨cl.slot, false, w, w, i⟩] with
        | some q => .next (s.raise s.cur cl.slot false causeQueue (q.2.setWidth 128) 0)
        | none => .next (eff s)

end Sys2Proof.Machine
end

