-- ==== Sys2Proof/Machine/Scalar.lean ====
section
/-! DEFINITION. The S slot (ch. 5): 64-bit integers, scalar floating point, compares, control registers. -/

namespace Sys2Proof.Machine

/-! ### Helpers -/

/-- Bounds of Table 3.17. -/
def latAlu : Nat := 1
def latMul : Nat := 3
def latDiv : Nat := 24

/-- An integer result of two registers (R117). -/
def State.alu2 (s : State) (lat : Nat) (d a b : BitVec 6) (f : DWord → DWord → DWord) : State :=
  s.putS lat d (f (s.readS a) (s.readS b)) 0

/-- An integer result of one register (R117). -/
def State.alu1 (s : State) (d a : BitVec 6) (f : DWord → DWord) : State := s.putS latAlu d (f (s.readS a)) 0

/-- R118. -/
def divSigned (a b : DWord) : DWord := if b = 0 then BitVec.allOnes 64 else a.sdiv b
def divUnsigned (a b : DWord) : DWord := if b = 0 then BitVec.allOnes 64 else a / b
def remSigned (a b : DWord) : DWord := if b = 0 then a else a.srem b
def remUnsigned (a b : DWord) : DWord := if b = 0 then a else a % b

/-- The high half of a product. -/
def mulHigh (a b : DWord) : DWord := (a.signExtend 128 * b.signExtend 128).extractLsb' 64 64
def mulHighU (a b : DWord) : DWord := (a.setWidth 128 * b.setWidth 128).extractLsb' 64 64

/-- The shift amount of R117. -/
def amount (b : DWord) : Nat := (b.extractLsb' 0 6).toNat

def minSigned (a b : DWord) : DWord := if b.slt a then b else a
def maxSigned (a b : DWord) : DWord := if a.slt b then b else a
def minUnsigned (a b : DWord) : DWord := if b < a then b else a
def maxUnsigned (a b : DWord) : DWord := if a < b then b else a

/-- Leading zero bits; 64 for 0. -/
def leadingZeros (a : DWord) : DWord := if a = 0 then 64 else BitVec.ofNat 64 (63 - Nat.log2 a.toNat)

/-- Trailing zero bits; 64 for 0. -/
def trailingZeros (a : DWord) : DWord :=
  BitVec.ofNat 64 (((List.range 64).find? (fun i => a.getLsbD i)).getD 64)

/-- The number of 1 bits. -/
def popCount (w : Nat) (a : BitVec w) : Nat := ((List.range w).filter (fun i => a.getLsbD i)).length

/-- A compare writes a whole predicate (R119). -/
def State.cmpResult (s : State) (lat : Nat) (p : BitVec 4) (b : Bool) (fl : Flags) : State :=
  s.putP lat p (if b then BitVec.allOnes 32 else 0) (BitVec.allOnes 32) fl

def State.cmp2 (s : State) (p : BitVec 4) (a b : BitVec 6) (f : DWord → DWord → Bool) : State :=
  s.cmpResult latAlu p (f (s.readS a) (s.readS b)) 0

/-- The format of W (R122). -/
def fmtOf (w64 : Bool) : Fmt := if w64 then Fmt.f64 else Fmt.f32

/-- A scalar operand of a format (R121). -/
def State.fpOperand (s : State) (w64 ftzi : Bool) (r : BitVec 6) : Num :=
  (fmtOf w64).operand ftzi ((s.readS r).toNat % 2 ^ (fmtOf w64).width)

/-- A floating-point result after FTZO, written with its flags (R121). -/
def State.fpResult (s : State) (w64 ftzo : Bool) (lat : Nat) (d : BitVec 6) (r : Nat × Flags) : State :=
  let y := (fmtOf w64).flushOut ftzo r
  s.putS lat d (BitVec.ofNat 64 y.1) y.2

/-- Add, subtract, multiply and divide of two registers. -/
def State.fp2 (s : State) (w64 f o : Bool) (lat : Nat) (d a b : BitVec 6)
    (op : Fmt → Rm → Num → Num → Nat × Flags) : State :=
  s.fpResult w64 o lat d (op (fmtOf w64) s.rm (s.fpOperand w64 f a) (s.fpOperand w64 f b))

/-- FFMA accumulates into sd. -/
def State.fpFma (s : State) (w64 f o : Bool) (lat : Nat) (d a b : BitVec 6) : State :=
  s.fpResult w64 o lat d
    ((fmtOf w64).fma s.rm (s.fpOperand w64 f a) (s.fpOperand w64 f b) (s.fpOperand w64 f d))

def State.fpSqrt (s : State) (w64 f o : Bool) (lat : Nat) (d a : BitVec 6) : State :=
  s.fpResult w64 o lat d ((fmtOf w64).sqrt s.rm (s.fpOperand w64 f a))

/-- A floating-point compare (R122). -/
def State.fpCmp (s : State) (r : Rel) (p : BitVec 4) (a b : BitVec 6) (f w : Bool) : State :=
  let x := r.fp (s.fpOperand w f a) (s.fpOperand w f b)
  s.cmpResult (if w then 6 else 4) p x.1 x.2

/-- A WRC takes effect from the next bundle (R66, R123). -/
def State.wrc (s : State) (n : BitVec 8) (w : BitVec 6) (v : DWord) : State :=
  s.result latAlu (.cr n w) (v.setWidth 1024) 1 0 none

/-! ### Integers (Table 5.1) -/

/-- ADD (R117). -/
def execAdd (u : Pfx) (d a b : BitVec 6) (s : State) : Host.Outcome State Fault Refusal :=
  issue (.add u d a b) s (fun s => s.alu2 latAlu d a b (· + ·))

/-- SUB (R117). -/
def execSub (u : Pfx) (d a b : BitVec 6) (s : State) : Host.Outcome State Fault Refusal :=
  issue (.sub u d a b) s (fun s => s.alu2 latAlu d a b (· - ·))

/-- MUL (R117). -/
def execMul (u : Pfx) (d a b : BitVec 6) (s : State) : Host.Outcome State Fault Refusal :=
  issue (.mul u d a b) s (fun s => s.alu2 latMul d a b (· * ·))

/-- MULH (R117). -/
def execMulh (u : Pfx) (d a b : BitVec 6) (s : State) : Host.Outcome State Fault Refusal :=
  issue (.mulh u d a b) s (fun s => s.alu2 latMul d a b mulHigh)

/-- MULHU (R117). -/
def execMulhu (u : Pfx) (d a b : BitVec 6) (s : State) : Host.Outcome State Fault Refusal :=
  issue (.mulhu u d a b) s (fun s => s.alu2 latMul d a b mulHighU)

/-- DIV (R117, R118). -/
def execDiv (u : Pfx) (d a b : BitVec 6) (s : State) : Host.Outcome State Fault Refusal :=
  issue (.div u d a b) s (fun s => s.alu2 latDiv d a b divSigned)

/-- DIVU (R117, R118). -/
def execDivu (u : Pfx) (d a b : BitVec 6) (s : State) : Host.Outcome State Fault Refusal :=
  issue (.divu u d a b) s (fun s => s.alu2 latDiv d a b divUnsigned)

/-- REM (R117, R118). -/
def execRem (u : Pfx) (d a b : BitVec 6) (s : State) : Host.Outcome State Fault Refusal :=
  issue (.rem u d a b) s (fun s => s.alu2 latDiv d a b remSigned)

/-- REMU (R117, R118). -/
def execRemu (u : Pfx) (d a b : BitVec 6) (s : State) : Host.Outcome State Fault Refusal :=
  issue (.remu u d a b) s (fun s => s.alu2 latDiv d a b remUnsigned)

/-- AND (R117). -/
def execAnd (u : Pfx) (d a b : BitVec 6) (s : State) : Host.Outcome State Fault Refusal :=
  issue (.and u d a b) s (fun s => s.alu2 latAlu d a b (· &&& ·))

/-- OR (R117). -/
def execOr (u : Pfx) (d a b : BitVec 6) (s : State) : Host.Outcome State Fault Refusal :=
  issue (.or u d a b) s (fun s => s.alu2 latAlu d a b (· ||| ·))

/-- XOR (R117). -/
def execXor (u : Pfx) (d a b : BitVec 6) (s : State) : Host.Outcome State Fault Refusal :=
  issue (.xor u d a b) s (fun s => s.alu2 latAlu d a b (· ^^^ ·))

/-- SHL (R117). -/
def execShl (u : Pfx) (d a b : BitVec 6) (s : State) : Host.Outcome State Fault Refusal :=
  issue (.shl u d a b) s (fun s => s.alu2 latAlu d a b (fun x y => x <<< amount y))

/-- SHR (R117). -/
def execShr (u : Pfx) (d a b : BitVec 6) (s : State) : Host.Outcome State Fault Refusal :=
  issue (.shr u d a b) s (fun s => s.alu2 latAlu d a b (fun x y => x >>> amount y))

/-- ASHR (R117). -/
def execAshr (u : Pfx) (d a b : BitVec 6) (s : State) : Host.Outcome State Fault Refusal :=
  issue (.ashr u d a b) s (fun s => s.alu2 latAlu d a b (fun x y => x.sshiftRight (amount y)))

/-- MIN (R117). -/
def execMin (u : Pfx) (d a b : BitVec 6) (s : State) : Host.Outcome State Fault Refusal :=
  issue (.min u d a b) s (fun s => s.alu2 latAlu d a b minSigned)

/-- MAX (R117). -/
def execMax (u : Pfx) (d a b : BitVec 6) (s : State) : Host.Outcome State Fault Refusal :=
  issue (.max u d a b) s (fun s => s.alu2 latAlu d a b maxSigned)

/-- MINU (R117). -/
def execMinu (u : Pfx) (d a b : BitVec 6) (s : State) : Host.Outcome State Fault Refusal :=
  issue (.minu u d a b) s (fun s => s.alu2 latAlu d a b minUnsigned)

/-- MAXU (R117). -/
def execMaxu (u : Pfx) (d a b : BitVec 6) (s : State) : Host.Outcome State Fault Refusal :=
  issue (.maxu u d a b) s (fun s => s.alu2 latAlu d a b maxUnsigned)

/-- SEL (R120): no write at all where pc[0] is 0. -/
def execSel (u : Pfx) (d a : BitVec 6) (p : BitVec 4) (s : State) : Host.Outcome State Fault Refusal :=
  issue (.sel u d a p) s (fun s => if (s.readP p).getLsbD 0 then s.putS latAlu d (s.readS a) 0 else s)

/-- CLZ (R117). -/
def execClz (u : Pfx) (d a : BitVec 6) (s : State) : Host.Outcome State Fault Refusal :=
  issue (.clz u d a) s (fun s => s.alu1 d a leadingZeros)

/-- CTZ (R117). -/
def execCtz (u : Pfx) (d a : BitVec 6) (s : State) : Host.Outcome State Fault Refusal :=
  issue (.ctz u d a) s (fun s => s.alu1 d a trailingZeros)

/-- POPC (R117). -/
def execPopc (u : Pfx) (d a : BitVec 6) (s : State) : Host.Outcome State Fault Refusal :=
  issue (.popc u d a) s (fun s => s.alu1 d a (fun x => BitVec.ofNat 64 (popCount 64 x)))

/-- ADDI (R117, R105). -/
def execAddi (u : Pfx) (d a : BitVec 6) (i : BitVec 8) (s : State) : Host.Outcome State Fault Refusal :=
  issue (.addi u d a i) s (fun s => s.alu1 d a (· + i.signExtend 64))

/-- ANDI (R117, R105). -/
def execAndi (u : Pfx) (d a : BitVec 6) (i : BitVec 8) (s : State) : Host.Outcome State Fault Refusal :=
  issue (.andi u d a i) s (fun s => s.alu1 d a (· &&& i.setWidth 64))

/-- ORI (R117, R105). -/
def execOri (u : Pfx) (d a : BitVec 6) (i : BitVec 8) (s : State) : Host.Outcome State Fault Refusal :=
  issue (.ori u d a i) s (fun s => s.alu1 d a (· ||| i.setWidth 64))

/-- XORI (R117, R105). -/
def execXori (u : Pfx) (d a : BitVec 6) (i : BitVec 8) (s : State) : Host.Outcome State Fault Refusal :=
  issue (.xori u d a i) s (fun s => s.alu1 d a (· ^^^ i.setWidth 64))

/-- SHLI (R117). -/
def execShli (u : Pfx) (d a i : BitVec 6) (s : State) : Host.Outcome State Fault Refusal :=
  issue (.shli u d a i) s (fun s => s.alu1 d a (· <<< i.toNat))

/-- SHRI (R117). -/
def execShri (u : Pfx) (d a i : BitVec 6) (s : State) : Host.Outcome State Fault Refusal :=
  issue (.shri u d a i) s (fun s => s.alu1 d a (· >>> i.toNat))

/-- ASHRI (R117). -/
def execAshri (u : Pfx) (d a i : BitVec 6) (s : State) : Host.Outcome State Fault Refusal :=
  issue (.ashri u d a i) s (fun s => s.alu1 d a (fun x => x.sshiftRight i.toNat))

/-- MOVI (R117). -/
def execMovi (u : Pfx) (d : BitVec 6) (i : BitVec 14) (s : State) : Host.Outcome State Fault Refusal :=
  issue (.movi u d i) s (fun s => s.putS latAlu d (i.signExtend 64) 0)

/-- MOVS (R117): reads its destination. -/
def execMovs (u : Pfx) (d : BitVec 6) (i : BitVec 14) (s : State) : Host.Outcome State Fault Refusal :=
  issue (.movs u d i) s (fun s => s.putS latAlu d ((s.readS d <<< 14) ||| i.setWidth 64) 0)

/-! ### Control registers (R123, R124) -/

/-- RDC (R123). -/
def execRdc (u : Pfx) (r : BitVec 6) (c : BitVec 8) (w : BitVec 6) (s : State) : Host.Outcome State Fault Refusal :=
  issue (.rdc u r c w) s (fun s => s.putS latAlu r (s.readCr c w) 0)

/-- WRC (R123, R124). -/
def execWrc (u : Pfx) (r : BitVec 6) (c : BitVec 8) (w : BitVec 6) (s : State) : Host.Outcome State Fault Refusal :=
  issue (.wrc u r c w) s (fun s => s.wrc c w (s.readS r))

/-! ### Compares (R119, R122) -/

/-- CMPEQ (R119). -/
def execCmpeq (u : Pfx) (p : BitVec 4) (a b : BitVec 6) (s : State) : Host.Outcome State Fault Refusal :=
  issue (.cmpeq u p a b) s (fun s => s.cmp2 p a b (fun x y => x == y))

/-- CMPNE (R119). -/
def execCmpne (u : Pfx) (p : BitVec 4) (a b : BitVec 6) (s : State) : Host.Outcome State Fault Refusal :=
  issue (.cmpne u p a b) s (fun s => s.cmp2 p a b (fun x y => x != y))

/-- CMPLT (R119). -/
def execCmplt (u : Pfx) (p : BitVec 4) (a b : BitVec 6) (s : State) : Host.Outcome State Fault Refusal :=
  issue (.cmplt u p a b) s (fun s => s.cmp2 p a b BitVec.slt)

/-- CMPLTU (R119). -/
def execCmpltu (u : Pfx) (p : BitVec 4) (a b : BitVec 6) (s : State) : Host.Outcome State Fault Refusal :=
  issue (.cmpltu u p a b) s (fun s => s.cmp2 p a b BitVec.ult)

/-- CMPLE (R119). -/
def execCmple (u : Pfx) (p : BitVec 4) (a b : BitVec 6) (s : State) : Host.Outcome State Fault Refusal :=
  issue (.cmple u p a b) s (fun s => s.cmp2 p a b BitVec.sle)

/-- CMPLEU (R119). -/
def execCmpleu (u : Pfx) (p : BitVec 4) (a b : BitVec 6) (s : State) : Host.Outcome State Fault Refusal :=
  issue (.cmpleu u p a b) s (fun s => s.cmp2 p a b BitVec.ule)

/-- FCMPEQ (R122, Table 5.2). -/
def execFcmpeq (u : Pfx) (p : BitVec 4) (a b : BitVec 6) (f w : Bool) (s : State) : Host.Outcome State Fault Refusal :=
  issue (.fcmpeq u p a b f w) s (fun s => s.fpCmp .eq p a b f w)

/-- FCMPLT (R122, Table 5.2). -/
def execFcmplt (u : Pfx) (p : BitVec 4) (a b : BitVec 6) (f w : Bool) (s : State) : Host.Outcome State Fault Refusal :=
  issue (.fcmplt u p a b f w) s (fun s => s.fpCmp .lt p a b f w)

/-- FCMPLE (R122, Table 5.2). -/
def execFcmple (u : Pfx) (p : BitVec 4) (a b : BitVec 6) (f w : Bool) (s : State) : Host.Outcome State Fault Refusal :=
  issue (.fcmple u p a b f w) s (fun s => s.fpCmp .le p a b f w)

/-- FCMPUN (R122, Table 5.2). -/
def execFcmpun (u : Pfx) (p : BitVec 4) (a b : BitVec 6) (f w : Bool) (s : State) : Host.Outcome State Fault Refusal :=
  issue (.fcmpun u p a b f w) s (fun s => s.fpCmp .un p a b f w)

/-! ### Floating point (R121) -/

/-- FADD.f32 (R121). -/
def execFaddF32 (u : Pfx) (d a b : BitVec 6) (f o : Bool) (s : State) : Host.Outcome State Fault Refusal :=
  issue (.faddF32 u d a b f o) s (fun s => s.fp2 false f o 4 d a b Fmt.add)

/-- FSUB.f32 (R121). -/
def execFsubF32 (u : Pfx) (d a b : BitVec 6) (f o : Bool) (s : State) : Host.Outcome State Fault Refusal :=
  issue (.fsubF32 u d a b f o) s (fun s => s.fp2 false f o 4 d a b Fmt.sub)

/-- FMUL.f32 (R121). -/
def execFmulF32 (u : Pfx) (d a b : BitVec 6) (f o : Bool) (s : State) : Host.Outcome State Fault Refusal :=
  issue (.fmulF32 u d a b f o) s (fun s => s.fp2 false f o 4 d a b Fmt.mul)

/-- FDIV.f32 (R121). -/
def execFdivF32 (u : Pfx) (d a b : BitVec 6) (f o : Bool) (s : State) : Host.Outcome State Fault Refusal :=
  issue (.fdivF32 u d a b f o) s (fun s => s.fp2 false f o 14 d a b Fmt.div)

/-- FFMA.f32 (R121). -/
def execFfmaF32 (u : Pfx) (d a b : BitVec 6) (f o : Bool) (s : State) : Host.Outcome State Fault Refusal :=
  issue (.ffmaF32 u d a b f o) s (fun s => s.fpFma false f o 4 d a b)

/-- FSQRT.f32 (R121). -/
def execFsqrtF32 (u : Pfx) (d a : BitVec 6) (f o : Bool) (s : State) : Host.Outcome State Fault Refusal :=
  issue (.fsqrtF32 u d a f o) s (fun s => s.fpSqrt false f o 14 d a)

/-- FADD.f64 (R121). -/
def execFaddF64 (u : Pfx) (d a b : BitVec 6) (f o : Bool) (s : State) : Host.Outcome State Fault Refusal :=
  issue (.faddF64 u d a b f o) s (fun s => s.fp2 true f o 6 d a b Fmt.add)

/-- FSUB.f64 (R121). -/
def execFsubF64 (u : Pfx) (d a b : BitVec 6) (f o : Bool) (s : State) : Host.Outcome State Fault Refusal :=
  issue (.fsubF64 u d a b f o) s (fun s => s.fp2 true f o 6 d a b Fmt.sub)

/-- FMUL.f64 (R121). -/
def execFmulF64 (u : Pfx) (d a b : BitVec 6) (f o : Bool) (s : State) : Host.Outcome State Fault Refusal :=
  issue (.fmulF64 u d a b f o) s (fun s => s.fp2 true f o 6 d a b Fmt.mul)

/-- FDIV.f64 (R121). -/
def execFdivF64 (u : Pfx) (d a b : BitVec 6) (f o : Bool) (s : State) : Host.Outcome State Fault Refusal :=
  issue (.fdivF64 u d a b f o) s (fun s => s.fp2 true f o 22 d a b Fmt.div)

/-- FFMA.f64 (R121). -/
def execFfmaF64 (u : Pfx) (d a b : BitVec 6) (f o : Bool) (s : State) : Host.Outcome State Fault Refusal :=
  issue (.ffmaF64 u d a b f o) s (fun s => s.fpFma true f o 6 d a b)

/-- FSQRT.f64 (R121). -/
def execFsqrtF64 (u : Pfx) (d a : BitVec 6) (f o : Bool) (s : State) : Host.Outcome State Fault Refusal :=
  issue (.fsqrtF64 u d a f o) s (fun s => s.fpSqrt true f o 22 d a)

end Sys2Proof.Machine
end

