-- ==== Sys2Proof/Machine/Index.lean ====
section
/-! DEFINITION. The X slot (R190 to R194). -/

namespace Sys2Proof.Machine

/-! ### Helpers -/

def State.x2 (s : State) (d a b : BitVec 4) (f : BitVec 32 → BitVec 32 → BitVec 32) : State :=
  s.putX 1 d (f (s.readX a) (s.readX b))

def State.x1 (s : State) (d a : BitVec 4) (f : BitVec 32 → BitVec 32) : State := s.putX 1 d (f (s.readX a))

/-- One step of a sorted-list merge (R191). -/
def mergeStep (a b c : BitVec 32) (f : BitVec 2) : BitVec 32 :=
  let signed := f.getLsbD 0
  let both := f.getLsbD 1
  let lt := if signed then a.slt b else a.ult b
  let gt := if signed then b.slt a else b.ult a
  let eq := a == b
  let i := c.extractLsb' 0 15
  let j := c.extractLsb' 16 15
  let i := if lt || (eq && both) then i + 1 else i
  let j := if gt || (eq && both) then j + 1 else j
  BitVec.ofBool gt ++ j ++ BitVec.ofBool eq ++ i

/-- XPATD (R192). -/
def patternWord (a : BitVec 32) (k : BitVec 2) : BitVec 32 :=
  let (n, g, w, count) := kindShape k
  let N := a.toNat % 2 ^ w
  if count ≤ N then 0x80000000
  else
    let cs := unrank g n N
    BitVec.ofNat 32 ((cs.map (fun c => 2 ^ c)).foldl (· + ·) 0 + (cs.mapIdx (fun m c => c * 2 ^ (8 + 3 * m))).foldl (· + ·) 0)

/-- Entry e of a routing pattern. -/
def routeEntry (p : BitVec 448) (e : Nat) : BitVec 7 := p.extractLsb' (7 * e) 7

/-- XBNET's output (R193). -/
def routeBits (src : DWord) (p : BitVec 448) : DWord :=
  BitVec.ofNat 64 (natOfBits ((List.range 64).map (fun e =>
    let t := routeEntry p e
    if t.toNat < 64 then src.getLsbD t.toNat else t.getLsbD 0)))

/-- XBNLD's pattern from the low 64 bytes of a vector (R193). -/
def patternOf (v : Vec) : BitVec 448 :=
  BitVec.ofNat 448 ((List.range 64).foldr (fun e acc => (v.extractLsb' (8 * e) 7).toNat + 128 * acc) 0)

/-- Destination byte m of XBPERM (R194). -/
def permByte (src : DWord) (c f : BitVec 32) (m : Nat) : Nat :=
  let sel := c.extractLsb' (4 * m) 4
  let b := (src.extractLsb' (8 * (sel.toNat % 8)) 8)
  if f.getLsbD m then (if sel.getLsbD 3 && b.getLsbD 7 then 0xFF else 0) else b.toNat

/-! ### The instructions -/

/-- XADD (R190). -/
def execXadd (u : Pfx) (x a b : BitVec 4) (s : State) : Host.Outcome State Fault Refusal :=
  issue (.xadd u x a b) s (fun s => s.x2 x a b (· + ·))

/-- XADDI (R190). -/
def execXaddi (u : Pfx) (x a : BitVec 4) (i : BitVec 8) (s : State) : Host.Outcome State Fault Refusal :=
  issue (.xaddi u x a i) s (fun s => s.x1 x a (· + i.signExtend 32))

/-- XSUB (R190). -/
def execXsub (u : Pfx) (x a b : BitVec 4) (s : State) : Host.Outcome State Fault Refusal :=
  issue (.xsub u x a b) s (fun s => s.x2 x a b (· - ·))

/-- XSHLI (R190). -/
def execXshli (u : Pfx) (x a : BitVec 4) (i : BitVec 5) (s : State) : Host.Outcome State Fault Refusal :=
  issue (.xshli u x a i) s (fun s => s.x1 x a (· <<< i.toNat))

/-- XSHRI (R190). -/
def execXshri (u : Pfx) (x a : BitVec 4) (i : BitVec 5) (s : State) : Host.Outcome State Fault Refusal :=
  issue (.xshri u x a i) s (fun s => s.x1 x a (· >>> i.toNat))

/-- XAND (R190). -/
def execXand (u : Pfx) (x a b : BitVec 4) (s : State) : Host.Outcome State Fault Refusal :=
  issue (.xand u x a b) s (fun s => s.x2 x a b (· &&& ·))

/-- XPOPC (R190). -/
def execXpopc (u : Pfx) (x a : BitVec 4) (s : State) : Host.Outcome State Fault Refusal :=
  issue (.xpopc u x a) s (fun s => s.x1 x a (fun v => BitVec.ofNat 32 (popCount 32 v)))

/-- XCMPADV (R191). -/
def execXcmpadv (u : Pfx) (x a b c : BitVec 4) (f : BitVec 2) (s : State) : Host.Outcome State Fault Refusal :=
  issue (.xcmpadv u x a b c f) s (fun s => s.putX 1 x (mergeStep (s.readX a) (s.readX b) (s.readX c) f))

/-- XPATD (R192). -/
def execXpatd (u : Pfx) (x a : BitVec 4) (k : BitVec 2) (s : State) : Host.Outcome State Fault Refusal :=
  issue (.xpatd u x a k) s (fun s => s.x1 x a (fun v => patternWord v k))

/-- XBNET (R193): the pair xd, x(d + 1) with bound 2. -/
def execXbnet (u : Pfx) (x a b : BitVec 4) (e : BitVec 3) (s : State) : Host.Outcome State Fault Refusal :=
  issue (.xbnet u x a b e) s (fun s =>
    let y := routeBits (s.readX b ++ s.readX a) (s.readBn e)
    (s.putX 2 x (y.extractLsb' 0 32)).putX 2 (x + 1) (y.extractLsb' 32 32))

/-- XBNLD (R193). -/
def execXbnld (u : Pfx) (e : BitVec 3) (v : BitVec 5) (s : State) : Host.Outcome State Fault Refusal :=
  issue (.xbnld u e v) s (fun s => s.result 1 (.bn e) ((patternOf (s.readV v)).setWidth 1024) 1 0 none)

/-- XBPERM (R194). -/
def execXbperm (u : Pfx) (x a b c f : BitVec 4) (s : State) : Host.Outcome State Fault Refusal :=
  issue (.xbperm u x a b c f) s (fun s =>
    let src := s.readX b ++ s.readX a
    let by4 (m : Nat) : Nat := permByte src (s.readX c) (f.setWidth 32) m * 256 ^ m
    s.putX 1 x (BitVec.ofNat 32 (by4 0 + by4 1 + by4 2 + by4 3)))

/-- XFROMS (R190). -/
def execXfroms (u : Pfx) (x : BitVec 4) (r : BitVec 6) (s : State) : Host.Outcome State Fault Refusal :=
  issue (.xfroms u x r) s (fun s => s.putX 1 x ((s.readS r).extractLsb' 0 32))

/-- XTOS (R190). -/
def execXtos (u : Pfx) (x : BitVec 4) (r : BitVec 6) (s : State) : Host.Outcome State Fault Refusal :=
  issue (.xtos u x r) s (fun s => s.putS 1 r ((s.readX x).setWidth 64) 0)

/-- XMOV (R190). -/
def execXmov (u : Pfx) (x a : BitVec 4) (s : State) : Host.Outcome State Fault Refusal :=
  issue (.xmov u x a) s (fun s => s.x1 x a id)

/-- XMOVI (R190). -/
def execXmovi (u : Pfx) (x : BitVec 4) (i : BitVec 16) (s : State) : Host.Outcome State Fault Refusal :=
  issue (.xmovi u x i) s (fun s => s.putX 1 x (i.signExtend 32))

end Sys2Proof.Machine
end

