-- ==== Sys2Proof/Machine/Lanes.lean ====
section
/-! DEFINITION. What the V-slot forms compute, element by element (R141 to R164). -/

namespace Sys2Proof.Machine

/-! ### Elements (R94, R141) -/

def elem (w : Nat) (v : Vec) (i : Nat) : Nat := (v.extractLsb' (w * i) w).toNat

/-- Elements of `w` bits side by side, the first lowest. -/
def packElems (w : Nat) : List Nat → Nat
  | [] => 0
  | x :: xs => x % 2 ^ w + 2 ^ w * packElems w xs

/-- Element width and count of a type that computes (Table 6.1). -/
def typeW (t : BitVec 3) : Nat := if ty64 t then 64 else 32
def typeN (t : BitVec 3) : Nat := if ty64 t then 16 else 32

/-- The floating-point format of a type code. -/
def typeFmt (t : BitVec 3) : Fmt :=
  if t = 0 then Fmt.f32 else if t = 1 then Fmt.f64 else if t = 2 then Fmt.f16 else if t = 3 then Fmt.bf16 else Fmt.h8

/-- Whether an integer type is signed. -/
def typeSigned (t : BitVec 3) : Bool := t != 6

/-- The width of any type code. -/
def anyW (t : BitVec 3) : Nat := if ty64 t then 64 else if t = 2 ∨ t = 3 then 16 else if t = 4 then 8 else 32

/-- The active bit of element i. -/
def State.active (s : State) (u : Pfx) (i : Nat) : Bool := (s.guard u.n u.g).getLsbD i

/-- The active elements below n, ascending. -/
def State.activeList (s : State) (u : Pfx) (n : Nat) : List Nat := (List.range n).filter (s.active u)

/-- n results of w bits: only active elements are written, and only they raise flags (R142, R144). -/
def State.vmap (s : State) (u : Pfx) (w n lat : Nat) (d : BitVec 5) (f : Nat → Nat × Flags) : State :=
  let rs := (List.range n).map (fun i => if s.active u i then f i else (0, 0))
  s.putV lat d (BitVec.ofNat 1024 (packElems w (rs.map Prod.fst)))
    (elemPart w (fun i => decide (i < n) && s.active u i)) (orAll (rs.map Prod.snd))

/-- The whole register is written (R158, R210). -/
def State.vwhole (s : State) (lat : Nat) (d : BitVec 5) (v : Nat) (fl : Flags) : State :=
  s.putV lat d (BitVec.ofNat 1024 v) wholePart fl

/-! ### Arithmetic (R144 to R149) -/

/-- Whether a type is F64: the longer bounds of Table 3.17. -/
def lat64 (t : BitVec 3) (a b : Nat) : Nat := if t = 1 then b else a

/-- A floating-point form of two operands. -/
def State.vfp2 (s : State) (u : Pfx) (t : BitVec 3) (lat : Nat) (d a b : BitVec 5) (f o : Bool)
    (op : Fmt → Rm → Num → Num → Nat × Flags) : State :=
  let F := typeFmt t
  let w := typeW t
  let x := s.readV a
  let y := s.readV b
  s.vmap u w (typeN t) lat d (fun i =>
    F.flushOut o (op F s.rm (F.operand f (elem w x i)) (F.operand f (elem w y i))))

/-- A floating-point form of one operand. -/
def State.vfp1 (s : State) (u : Pfx) (t : BitVec 3) (lat : Nat) (d a : BitVec 5) (f o : Bool)
    (op : Fmt → Rm → Num → Nat × Flags) : State :=
  let F := typeFmt t
  let w := typeW t
  let x := s.readV a
  s.vmap u w (typeN t) lat d (fun i => F.flushOut o (op F s.rm (F.operand f (elem w x i))))

/-- VFMA and VFMS: a × b or −(a × b) is added to vd. -/
def State.vfma3 (s : State) (u : Pfx) (t : BitVec 3) (neg : Bool) (d a b : BitVec 5) (f o : Bool) : State :=
  let F := typeFmt t
  let w := typeW t
  let x := s.readV a
  let y := s.readV b
  let z := s.readV d
  s.vmap u w (typeN t) (lat64 t 4 6) d (fun i =>
    let p := F.operand f (elem w x i)
    F.flushOut o (F.fma s.rm (if neg then p.negate else p) (F.operand f (elem w y i)) (F.operand f (elem w z i))))

/-- An exact integer reduced once (R148). -/
def reduceInt (t : BitVec 3) (satBit : Bool) (x : Int) : Nat :=
  wrapInt (typeW t) (if satBit then sat (typeSigned t) (typeW t) x else x)

/-- An integer element. -/
def intElem (t : BitVec 3) (v : Vec) (i : Nat) : Int := toIntW (typeSigned t) (typeW t) (elem (typeW t) v i)

/-- An integer form of two operands (R148). -/
def State.vint2 (s : State) (u : Pfx) (t : BitVec 3) (satBit : Bool) (d a b : BitVec 5) (op : Int → Int → Int) : State :=
  let x := s.readV a
  let y := s.readV b
  s.vmap u (typeW t) (typeN t) 2 d (fun i => (reduceInt t satBit (op (intElem t x i) (intElem t y i)), 0))

/-- An integer form of one operand (R148). -/
def State.vint1 (s : State) (u : Pfx) (t : BitVec 3) (satBit : Bool) (d a : BitVec 5) (op : Int → Int) : State :=
  let x := s.readV a
  s.vmap u (typeW t) (typeN t) 2 d (fun i => (reduceInt t satBit (op (intElem t x i)), 0))

/-- VADD, VSUB and VMUL of any type they accept. -/
def State.varith (s : State) (u : Pfx) (t : BitVec 3) (d a b : BitVec 5) (f o : Bool)
    (fp : Fmt → Rm → Num → Num → Nat × Flags) (int : Int → Int → Int) : State :=
  if tyFloat t then s.vfp2 u t (lat64 t 4 6) d a b f o fp else s.vint2 u t o d a b int

/-- VMIN and VMAX (R145, R148). -/
def State.vminmax (s : State) (u : Pfx) (t : BitVec 3) (d a b : BitVec 5) (f : Bool) (mx : Bool) : State :=
  if tyFloat t then
    let F := typeFmt t
    let w := typeW t
    let x := s.readV a
    let y := s.readV b
    s.vmap u w (typeN t) 2 d (fun i => F.minMax mx (F.flushedPattern f (elem w x i)) (F.flushedPattern f (elem w y i)))
  else s.vint2 u t false d a b (if mx then max else min)

/-- VABS and VNEG: the sign bit of a float (R146), or R148. -/
def State.vsign (s : State) (u : Pfx) (t : BitVec 3) (d a : BitVec 5) (o : Bool) (neg : Bool) : State :=
  if tyFloat t then
    let w := typeW t
    let x := s.readV a
    s.vmap u w (typeN t) 2 d (fun i =>
      let b := elem w x i
      (if neg then b ^^^ 2 ^ (w - 1) else b % 2 ^ (w - 1), 0))
  else s.vint1 u t o d a (if neg then (fun x => -x) else (fun x => x.natAbs))

/-- A form on patterns of two operands, element by element (R149). -/
def State.vbits2 (s : State) (u : Pfx) (t : BitVec 3) (d a b : BitVec 5) (op : Nat → Nat → Nat) : State :=
  let w := typeW t
  let x := s.readV a
  let y := s.readV b
  s.vmap u w (typeN t) 2 d (fun i => (op (elem w x i) (elem w y i), 0))

/-- The shift amount of R149. -/
def shiftAmount (t : BitVec 3) (b : Nat) : Nat := b % typeW t

/-- A compare into a predicate (R150). -/
def State.vcmp (s : State) (u : Pfx) (t : BitVec 3) (p : BitVec 4) (a b : BitVec 5) (f : Bool) (r : Rel) : State :=
  let w := typeW t
  let n := typeN t
  let x := s.readV a
  let y := s.readV b
  let one (i : Nat) : Bool × Flags :=
    if tyFloat t then
      let F := typeFmt t
      r.fp (F.operand f (elem w x i)) (F.operand f (elem w y i))
    else (r.int (intElem t x i) (intElem t y i), 0)
  let rs := (List.range n).map (fun i => if s.active u i then one i else (false, 0))
  let bits : BitVec 32 := BitVec.ofNat 32 (natOfBits (rs.map Prod.fst))
  let g := s.guard u.n u.g
  let m : BitVec 32 := if ty64 t then (g &&& 0xFFFF) ||| 0xFFFF0000 else g
  s.putP (if tyFloat t then lat64 t 4 6 else 2) p bits m (orAll (rs.map Prod.snd))

/-! ### Conversions (R155 to R157) -/

/-- A value of a floating-point source in a floating-point destination. -/
def convertFp (S D : Fmt) (rm : Rm) (f o : Bool) (b : Nat) : Nat × Flags :=
  match S.operand f b with
  | .nan sg => (D.canon, if sg then nvF else 0)
  | .inf n => (D.inf n, 0)
  | x => D.flushOut o (D.roundDy rm x.dy x.neg)

/-- Table 6.4: one element from source type `st` to destination type `dt`. -/
def convertElem (dt st : BitVec 3) (rm : Rm) (f o : Bool) (b : Nat) : Nat × Flags :=
  if tyInt st then
    let x := toIntW (typeSigned st) (typeW st) b
    if tyInt dt then (wrapInt (typeW dt) (sat (typeSigned dt) (typeW dt) x), 0)
    else (typeFmt dt).roundDy rm ⟨x, 0⟩ false
  else if tyInt dt then cvtInt (typeSigned dt) (typeW dt) rm ((typeFmt st).operand f b)
  else if st = 3 ∧ dt = 0 then ((Fmt.bf16.flushedPattern f b) * 2 ^ 16, 0)
  else convertFp (typeFmt st) (typeFmt dt) rm f o b

/-- Placement of R155: n elements at the destination width; in a destination narrower than 32 bits positions n and above are written
0. An inactive position below n is not written. DEDUCED (log 22). -/
def State.vplace (s : State) (u : Pfx) (wd n lat : Nat) (d : BitVec 5) (f : Nat → Nat × Flags) : State :=
  let rs := (List.range n).map (fun i => if s.active u i then f i else (0, 0))
  s.putV lat d (BitVec.ofNat 1024 (packElems wd (rs.map Prod.fst)))
    (elemPart wd (fun i => if i < n then s.active u i else decide (wd < 32))) (orAll (rs.map Prod.snd))

/-- VCVT and VCVTD (R155, R156). DEDUCED (log 22). -/
def State.vconvert (s : State) (u : Pfx) (dt : BitVec 3) (d a : BitVec 5) (st : BitVec 3) (rm : Rm) (f o : Bool) : State :=
  let n := if ty64 dt || ty64 st then 16 else 32
  let x := s.readV a
  s.vplace u (anyW dt) n 3 d (fun i => convertElem dt st rm f o (elem (anyW st) x i))

/-- VCVT's rounding mode (Table 3.7). -/
def rmField (r : BitVec 2) : Rm := Rm.of (r.setWidth 3)

/-- VSCN (R157). DEDUCED (log 22). -/
def State.vscale (s : State) (u : Pfx) (t : BitVec 3) (d a b : BitVec 5) (f o : Bool) : State :=
  let S := if t = 0 then Fmt.f64 else Fmt.f32
  let n := if t = 0 then 16 else 32
  let x := s.readV a
  let y := s.readV b
  let D := typeFmt t
  s.vplace u (anyW t) n 6 d (fun i =>
    D.flushOut o (scaleNarrow D s.rm (S.operand f (elem S.width x i)) (S.operand f (elem S.width y i))))

/-! ### Reductions (R158) -/

/-- The ordered sum of finite values, from −0. DEDUCED (log 53). -/
def foldSum (F : Fmt) (rm : Rm) (o : Bool) : Nat × Flags → List Num → Nat × Flags
  | c, [] => c
  | c, x :: xs =>
    let r := F.flushOut o (F.sum rm (F.value c.1) x)
    foldSum F rm o (r.1, c.2 ||| r.2) xs

/-- FP VREDADD. DEDUCED (log 53). -/
def reduceAdd (F : Fmt) (rm : Rm) (o : Bool) (xs : List Num) : Nat × Flags :=
  let pinf := xs.any (fun x => x.isInf && !x.neg)
  let ninf := xs.any (fun x => x.isInf && x.neg)
  if xs.any Num.isNan || (pinf && ninf) then
    (F.canon, if xs.any Num.isSnan || (pinf && ninf) then nvF else 0)
  else if pinf then (F.inf false, 0)
  else if ninf then (F.inf true, 0)
  else foldSum F rm o (F.zero true, 0) xs

/-- FP VREDMAX and VREDMIN over flushed patterns, ascending. -/
def reduceMinMax (F : Fmt) (mx : Bool) : List Nat → Nat × Flags
  | [] => (0, 0)
  | p :: ps =>
    let x := F.value p
    let y0 : Nat × Flags := if x.isNan then (F.canon, if x.isSnan then nvF else 0) else (p, 0)
    ps.foldl (fun y q => let r := F.minMax mx y.1 q; (r.1, y.2 ||| r.2)) y0

/-- VREDADD. -/
def State.vredadd (s : State) (u : Pfx) (t : BitVec 3) (d a : BitVec 5) (f o : Bool) : State :=
  let w := typeW t
  let x := s.readV a
  let is := s.activeList u (typeN t)
  if tyFloat t then
    let F := typeFmt t
    let r := reduceAdd F s.rm o (is.map (fun i => F.operand f (elem w x i)))
    s.vwhole 40 d r.1 r.2
  else s.vwhole 8 d (reduceInt t o ((is.map (intElem t x)).foldl (· + ·) 0)) 0

/-- VREDMAX and VREDMIN. -/
def State.vredmm (s : State) (u : Pfx) (t : BitVec 3) (d a : BitVec 5) (f mx : Bool) : State :=
  let w := typeW t
  let x := s.readV a
  let is := s.activeList u (typeN t)
  if tyFloat t then
    let F := typeFmt t
    let r := reduceMinMax F mx (is.map (fun i => F.flushedPattern f (elem w x i)))
    s.vwhole 8 d r.1 r.2
  else
    match is.map (intElem t x) with
    | [] => s
    | y :: ys => s.vwhole 8 d (wrapInt w (ys.foldl (if mx then max else min) y)) 0

/-! ### Random numbers and selection (R162 to R164) -/

/-- VRNG's element (R162). -/
def rngElem (t : BitVec 3) (key : DWord) (n : Nat) : Nat :=
  let h (k : Nat) : Nat := (cg32 key (BitVec.ofNat 32 k)).toNat
  if t = 0 then (Fmt.f32.round .rne false (h n / 2 ^ 8) (-24)).1
  else if t = 1 then (Fmt.f64.round .rne false (h (n % 2 ^ 32) * 2 ^ 21 + h (n % 2 ^ 32 + 1) / 2 ^ 11) (-53)).1
  else h n

/-- Insert before the first element that comes after it. -/
def insertBy {α : Type} (before : α → α → Bool) (x : α) : List α → List α
  | [] => [x]
  | y :: ys => if before x y then x :: y :: ys else y :: insertBy before x ys

/-- Sort, keeping the order of equals. -/
def sortBy {α : Type} (before : α → α → Bool) : List α → List α
  | [] => []
  | x :: xs => insertBy (fun a b => !before b a) x (sortBy before xs)

/-- Stage 1 of PRUNE for one element (R163). -/
def survives (x tau : Num) (u : Dy) : Bool :=
  if tau.isNan || tau.isZero || tau.neg then true
  else if tau.isInf then x.isInf || x.isNan
  else if x.isNan || x.isInf then true
  else tau.dy.le x.dy.abs || (u.mul tau.dy).lt x.dy.abs

/-- Magnitude descending, NaNs first (R163). -/
def magBefore (a b : Num) : Bool :=
  if a.isNan then !b.isNan else if b.isNan then false else b.abs.lt a.abs

/-- PRUNE (R163). -/
def State.prune (s : State) (u : Pfx) (d a b : BitVec 5) (k : BitVec 2) : State :=
  let F := Fmt.f32
  let (n, g, _, _) := kindShape k
  let x := s.readV a
  let y := s.readV b
  let c := s.readV d
  let key := s.here.nkey
  let num (i : Nat) : Num := F.value (elem 32 x i)
  let stay (i : Nat) : Bool :=
    s.active u i && survives (num i) (F.value (elem 32 y i)) ⟨(cg32 key (lane32 c i)).toNat / 2 ^ 8, -24⟩
  let kept (i : Nat) : Bool :=
    let base := i / g * g
    let cand := ((List.range g).map (fun j => base + j)).filter stay
    ((sortBy (fun p q => magBefore (num p) (num q)) cand).take n).contains i
  s.vmap u 32 32 8 d (fun i => (if kept i then elem 32 x i else 0, 0))

/-- TOPK's order: larger keys first (R164). -/
def topBefore (t : BitVec 3) (a b : Nat) : Bool :=
  if t = 0 then
    let x := Fmt.f32.value a
    let y := Fmt.f32.value b
    if x.isNan then false else if y.isNan then true else y.lt x
  else decide (toIntW (typeSigned t) 32 b < toIntW (typeSigned t) 32 a)

/-- fill(T) (R164). -/
def topFill (t : BitVec 3) : Nat := if t = 0 then 0xFF800000 else if t = 5 then 0x80000000 else 0

/-- TOPK (R164): the pair vd, vd + 1. -/
def State.topk (s : State) (u : Pfx) (t : BitVec 3) (d a b : BitVec 5) : State :=
  let x := s.readV a
  let kk := min (elem 32 (s.readV b) 0) 32
  let cand := sortBy (fun i j => topBefore t (elem 32 x i) (elem 32 x j)) (s.activeList u 32)
  let rs := (List.range kk).map (fun r => match cand[r]? with
    | some i => (elem 32 x i, i)
    | none => (topFill t, 0xFFFF))
  let m := elemPart 32 (fun i => decide (i < kk))
  (s.putV 12 d (BitVec.ofNat 1024 (packElems 32 (rs.map Prod.fst))) m 0).putV 12 (d + 1)
    (BitVec.ofNat 1024 (packElems 32 (rs.map Prod.snd))) m 0

/-! ### Pops (R159, R160) -/

/-- Remove the oldest entry of a queue. -/
def State.popQueue (s : State) (q : BitVec 2) : State :=
  s.upd (fun c => { c with q := SMap.setD [] c.q q.toNat ((SMap.get [] c.q q.toNat).drop 1) })

def Ctx.oldest (c : Ctx) (q : BitVec 2) : Option QEntry := (SMap.get [] c.q q.toNat).head?

/-- VPOPQ (R159). -/
def State.vpopq (s : State) (u : Pfx) (d : BitVec 5) (q : BitVec 2) : State :=
  match s.here.oldest q with
  | none => s
  | some e => (s.popQueue q).putV 2 d e.data (lanePart (s.guard u.n u.g)) 0

/-- VPOPL (R160); poisoned data is consumed here and writes nothing (R173, R259). DEDUCED (log 32). -/
def State.vpopl (s : State) (u : Pfx) (d : BitVec 5) (l : BitVec 3) : State :=
  match SMap.get .empty s.here.l l.toNat with
  | .landed v _ bad =>
    let s := s.upd (fun c => { c with l := SMap.setD .empty c.l l.toNat .empty })
    match bad with
    | some p => s.late (BitVec.ofNat 8 (p / 2 ^ 64)) (BitVec.ofNat 128 (p % 2 ^ 64))
    | none => s.putV 2 d v (lanePart (s.guard u.n u.g)) 0
  | _ => s

/-! ### Immediates (R105, R106) -/

/-- A BF16 immediate in a format (R106). -/
def immFp (F : Fmt) (rm : Rm) (b : Nat) : Nat × Flags :=
  match Fmt.bf16.value b with
  | .nan _ => (F.canon, 0)
  | .inf n => (F.inf n, 0)
  | x => F.roundDy rm x.dy x.neg

/-- VMOVI of an element width; element i tests guard bit i × w / 32 below 32 bits (R152, Table 6.1). -/
def State.vmovi (s : State) (u : Pfx) (w : Nat) (d : BitVec 5) (r : Nat × Flags) : State :=
  let n := 1024 / w
  let act (i : Nat) : Bool := if w < 32 then s.active u (i * w / 32) else s.active u i
  s.putV 2 d (BitVec.ofNat 1024 (packElems w (List.replicate n r.1))) (elemPart w act) r.2

end Sys2Proof.Machine
end

