-- ==== Sys2Proof/Machine/Codebook.lean ====
section
/-! DEFINITION. The V-slot forms of codebook blocks and structured sparsity (ch. 8): QNT, DQ, SPENC and SPDEC. -/

namespace Sys2Proof.Machine

/-! ### QNT (R204, R205) -/

/-- The live code nearest to y, ties to the lower code. -/
def nearest (b : Codebook) (y : Dy) : List Nat → Option Nat
  | [] => none
  | j :: js =>
    match nearest b y js with
    | none => some j
    | some k =>
      let dist (i : Nat) : Dy := (y.add (b.value i).dy.neg).abs
      if (dist k).lt (dist j) then some k else some j

/-- Whether d > θ × |y| for |y| > 0; a NaN θ gives no. -/
def exceeds (theta : Num) (d y : Dy) : Bool :=
  match theta with
  | .nan _ => false
  | .inf neg => neg
  | t => (t.dy.mul y.abs).lt d

/-- What QNT computes. -/
structure Quantised where
  codes : List Nat
  scale : Nat
  elected : List Nat
  quotients : List Num
  qualified : Nat
  stat : Nat
  flags : Flags
  deriving DecidableEq, Repr

/-- QNT's computation over 32 inputs, a codebook, θ and CAP. -/
def quantise (b : Codebook) (xs : List Num) (theta : Num) (cap : Nat) : Quantised :=
  let zeros := List.replicate 32 0
  if xs.any (fun x => x.isNan || x.isInf) then ⟨zeros, 255, [], [], 0, 4, nvF⟩
  else match maxInt (xs.filterMap Num.expo) with
    | none => ⟨zeros, 0, [], [], 0, 0, 0⟩
    | some top =>
      let e0 := top - b.emax + 127
      let scl := decide (e0 < 1) || decide (254 < e0)
      let e := (max 1 (min 254 e0)).toNat
      let ys := xs.map (Num.scale (127 - (e : Int)))
      let code (y : Num) : Nat := (nearest b y.dy b.live).getD 0
      let codes := ys.map code
      let qual (y : Num) : Bool :=
        !y.isZero && exceeds theta (y.dy.add (b.value (code y)).dy.neg).abs y.dy
      let at_ (i : Nat) : Num := ys.getD i (.fin false 0 0)
      let q := (List.range 32).filter (fun i => qual (at_ i))
      let order := sortBy (fun i j => (at_ j).dy.abs.lt (at_ i).dy.abs) q
      let k := order.take (min q.length cap)
      let esc := ((List.range 16).find? (fun j => b.esc.getLsbD j)).getD 0
      ⟨codes.mapIdx (fun i c => if k.contains i then esc else c), e, (List.range 32).filter (fun i => k.contains i), ys,
        q.length, (if cap < q.length then 1 else 0) + (if scl then 2 else 0), if scl then nxF else 0⟩

/-- A block vector (Table 8.4). -/
def blockVector (q : Quantised) (base cb : Nat) : Nat :=
  packElems 4 q.codes + q.scale * 2 ^ 128 + q.elected.length * 2 ^ 136 + q.stat * 2 ^ 144 + q.qualified * 2 ^ 152 +
    (q.elected.map (fun i => 2 ^ i)).foldl (· + ·) 0 * 2 ^ 160 + base * 2 ^ 192 + cb * 2 ^ 208

/-- The spall entry of an elected element and the flags of its rounding. -/
def spallEntry (q : Quantised) (base i : Nat) : Nat × Flags :=
  let r := match q.quotients.getD i (.fin false 0 0) with
    | .fin n m e => Fmt.f32.round .rne n m e
    | _ => (0, 0)
  let p := base + i
  (r.1 * 2 ^ 32 + p / 2048 % 4 * 2 ^ 12 + 2 ^ 11 + p % 2048, r.2)

/-- QNT (R205): FTZI flushes the elements, not the threshold. DESIGN CHOICE (log 72). -/
def State.qnt (s : State) (u : Pfx) (d a b : BitVec 5) (f : Bool) : State :=
  let x := s.readV a
  let y := s.readV b
  let ctl := lane32 y 1
  let cb := (ctl.extractLsb' 21 2).toNat
  let book := s.here.book cb
  if book = Codebook.reset then s.late causeCbbad (spDetail 0 cb 0)
  else
    let base := (ctl.extractLsb' 5 8).toNat * 32
    let cap := if book.esc = 0 then 0 else min (ctl.extractLsb' 16 5).toNat 16
    let xs := (List.range 32).map (fun i =>
      if s.active u i then Fmt.f32.operand f (elem 32 x i) else .fin false 0 0)
    let q := quantise book xs (Fmt.f32.value (elem 32 y 0)) cap
    let es := q.elected.map (spallEntry q base)
    let s := s.vwhole 16 d (blockVector q base cb) (q.flags ||| orAll (es.map Prod.snd))
    let s := s.vwhole 16 (d + 1) (packElems 64 (es.map Prod.fst)) 0
    if q.stat % 2 = 1 ∧ !ctl.getLsbD 24 then s.late causeSpovf (spDetail 0 cb 0) else s

/-! ### DQ (R207) -/

/-- The result of one active lane of DQ: none where its element is escaped and no one entry gives its value. -/
def expandElem (book : Codebook) (rm : Rm) (o : Bool) (e c : Nat) (val : Option Nat) : Option (Nat × Flags) :=
  match book.element e c val with
  | none => none
  | some (.nan sg) => some (Fmt.f32.canon, if sg then nvF else 0)
  | some (.inf n) => some (Fmt.f32.inf n, 0)
  | some x => some (Fmt.f32.flushOut o (Fmt.f32.roundDy rm x.dy x.neg))

/-- DQ (R207). -/
def State.dq (s : State) (u : Pfx) (d a b : BitVec 5) (o : Bool) : State :=
  let x := s.readV a
  let y := s.readV b
  let e := (x.extractLsb' 128 8).toNat
  let cb := (x.extractLsb' 208 2).toNat
  let base := (x.extractLsb' 197 8).toNat * 32
  let book := s.here.book cb
  if book = Codebook.reset then s.late causeCbbad (spDetail 0 cb 0)
  else
    let es := (List.range 16).map (fun i => y.extractLsb' (64 * i) 64)
    let lane (i : Nat) : Option (Nat × Flags) := expandElem book s.rm o e (elem 4 x i) (spallValue es (base + i))
    let s' := s.vmap u 32 32 6 d (fun i => (lane i).getD (Fmt.f32.canon, 0))
    let fault := match scanFault 8192 es with
      | some r => some r
      | none => ((s.activeList u 32).find? (fun i => (lane i).isNone)).map (fun i => (causeSpmiss, base + i))
    match fault with
    | some r => s'.late r.1 (spDetail 0 cb r.2)
    | none => s'

/-! ### Structured sparsity (R209 to R211) -/

/-- The kept positions that SPENC chooses in a group from its nonzero positions, and whether it dropped one. -/
def chooseKept (n g : Nat) (nz : List Nat) : List Nat × Bool :=
  if nz.length ≤ n then
    let fill := ((List.range g).filter (fun i => !nz.contains i)).take (n - nz.length)
    ((List.range g).filter (fun i => nz.contains i || fill.contains i), false)
  else (nz.take n, true)

/-- SPENC (R210). -/
def State.spenc (s : State) (u : Pfx) (d a : BitVec 5) (k : BitVec 2) : State :=
  let (n, g, w, _) := kindShape k
  let x := s.readV a
  let lane (i : Nat) : Nat := if s.active u i then elem 32 x i else 0
  let groups := (List.range (32 / g)).map (fun j =>
    chooseKept n g ((List.range g).filter (fun i => lane (j * g + i) != 0)))
  let data := (groups.mapIdx (fun j c => c.1.map (fun i => lane (j * g + i)))).flatten
  let word := (groups.mapIdx (fun j c => rank c.1 * 2 ^ (w * j))).foldl (· + ·) 0
  let drop := (groups.mapIdx (fun j c => if c.2 then 2 ^ j else 0)).foldl (· + ·) 0
  s.vwhole 8 d (packElems 32 data + drop * 2 ^ 960 + word * 2 ^ 992) 0

/-- SPDEC (R211). -/
def State.spdec (s : State) (u : Pfx) (d a : BitVec 5) (k : BitVec 2) : State :=
  let (n, g, _, _) := kindShape k
  let x := s.readV a
  let word := elem 32 x 31
  let lane (i : Nat) : Nat :=
    match keptAt k (groupNumber k word (i / g)) with
    | none => 0
    | some cs => match cs.findIdx? (· == i % g) with
      | some m => elem 32 x (i / g * n + m)
      | none => 0
  let s' := s.vmap u 32 32 8 d (fun i => (lane i, 0))
  if patternBad k word then s'.late causeSppat 0 else s'

/-! ### The instructions -/

/-- QNT (R205). -/
def execQnt (u : Pfx) (d a b : BitVec 5) (f : Bool) (s : State) : Host.Outcome State Fault Refusal :=
  issue (.qnt u d a b f) s (fun s => s.qnt u d a b f)

/-- DQ (R207). -/
def execDq (u : Pfx) (d a b : BitVec 5) (o : Bool) (s : State) : Host.Outcome State Fault Refusal :=
  issue (.dq u d a b o) s (fun s => s.dq u d a b o)

/-- SPENC (R210). -/
def execSpenc (u : Pfx) (t : BitVec 3) (d a : BitVec 5) (k : BitVec 2) (s : State) : Host.Outcome State Fault Refusal :=
  issue (.spenc u t d a k) s (fun s => s.spenc u d a k)

/-- SPDEC (R211). -/
def execSpdec (u : Pfx) (t : BitVec 3) (d a : BitVec 5) (k : BitVec 2) (s : State) : Host.Outcome State Fault Refusal :=
  issue (.spdec u t d a k) s (fun s => s.spdec u d a k)

end Sys2Proof.Machine
end

