-- ==== Sys2Proof/Machine/Ashlar.lean ====
section
/-! DEFINITION. The Ashlar array (ch. 9): accumulator tiles, operands in the slab, the numerics profiles (R112 to R115),
the multiply forms (R223 to R226), CBLD, SPLD, DRAIN and ACCLD as they complete, and the tile-move forms. -/

namespace Sys2Proof.Machine

/-! ### Tiles (R216) -/

def Tile.el (t : Tile) (i j : Nat) : DWord := SMap.get 0 t (16 * i + j)

def Tile.put (t : Tile) (i j : Nat) (v : DWord) : Tile := SMap.setD 0 t (16 * i + j) v

/-- A tile from its elements. -/
def Tile.of (f : Nat → Nat → DWord) : Tile :=
  ((List.range 256).map (fun e => (e, f (e / 16) (e % 16)))).filter (fun p => p.2 != 0)

/-- Rows of `new` where active, of `old` elsewhere. -/
def Tile.rows (old new : Tile) (act : Nat → Bool) : Tile :=
  Tile.of (fun i j => if act i then new.el i j else old.el i j)

def Ctx.tile (c : Ctx) (k : BitVec 3) : Tile := SMap.get [] c.k k.toNat

def Ctx.setTile (c : Ctx) (k : BitVec 3) (t : Tile) : Ctx := { c with k := SMap.setD [] c.k k.toNat t }

/-- The number in an element, by AF 0 or 1. -/
def accFmt (af : BitVec 2) : Fmt := if af = 1 then Fmt.f64 else Fmt.f32

/-- The pattern that an element holds in a format of at most 64 bits. -/
def accPattern (F : Fmt) (x : DWord) : Nat := x.toNat % 2 ^ F.width

/-! ### Slab operands -/

/-- The value of a stored pattern by FMT. -/
def fmtValue (fmt : Nat) (b : Nat) : Num :=
  match fmt with
  | 0 => Fmt.f32.value b
  | 1 => Fmt.f64.value b
  | 2 => Fmt.f16.value b
  | 3 => Fmt.bf16.value b
  | _ => Fmt.h8.value b

/-- The format of an FMT code below 5. -/
def fmtOfCode (fmt : Nat) : Fmt :=
  match fmt with
  | 0 => Fmt.f32
  | 1 => Fmt.f64
  | 2 => Fmt.f16
  | 3 => Fmt.bf16
  | _ => Fmt.h8

/-- The patterns of row r of a region whose units are whole bytes. -/
def State.regionPatterns (s : State) (core : Nat) (d : Descr) (r : Nat) : List Nat :=
  let n := unitBytes d.fmt
  let k := s.regionRow core d r
  (List.range d.cols).map (fun c => s.readNat (k + c * n) n)

/-! ### Numerics profiles (R112 to R115) -/

/-- gsum (R113): an exact sum, −0 only when every term is −0. -/
def gsum (ts : List Num) : Num :=
  let d := (ts.map Num.dy).foldl Dy.add Dy.zero
  if d.m = 0 then .fin (ts.all (fun t => t.isZero && t.neg)) 0 0 else .fin (decide (d.m < 0)) d.m.natAbs d.e

/-- wsum (R113) with a window of w bits, and NX when a term was truncated. -/
def wsum (w : Nat) (ts : List Num) : Num × Flags :=
  match maxInt (ts.filterMap Num.expo) with
  | none => (gsum ts, 0)
  | some e =>
    let xs := ts.map (fun t => t.dy.truncTo (e - w + 1))
    let d := (xs.map Prod.fst).foldl Dy.add Dy.zero
    (.fin (decide (d.m < 0)) d.m.natAbs d.e, orAll (xs.map Prod.snd))

/-- Consecutive groups of n. -/
def groupsOf (n : Nat) (ts : List Num) : List (List Num) :=
  (List.range (ts.length / n)).map (fun g => (ts.drop (g * n)).take n)

/-- One accumulation: c + t rounded into the accumulator. -/
def accumulate (F : Fmt) (rm : Rm) (o : Bool) (c : Nat × Flags) (t : Num) : Nat × Flags :=
  let r := F.flushOut o (F.fpAdd rm (F.value c.1) t)
  (r.1, c.2 ||| r.2)

/-- rnd of R113: a group sum rounded into a format. -/
def roundSum (F : Fmt) (rm : Rm) (o : Bool) (x : Num × Flags) : Num × Flags :=
  let r := F.flushOut o (F.roundDy rm x.1.dy x.1.neg)
  (F.value r.1, x.2 ||| r.2)

/-- The sum of profile np over finite products (R113, R115): accumulator format F, the window w of Table 4.9. -/
def profileSum (np : Nat) (F : Fmt) (rm : Rm) (o : Bool) (w : Nat) (c : Num) (ts : List Num) : Nat × Flags :=
  let c0 : Nat × Flags := ((F.roundDy .rne c.dy c.neg).1, 0)
  let step (c : Nat × Flags) (h : Num × Flags) : Nat × Flags :=
    let r := accumulate F rm o c h.1
    (r.1, r.2 ||| h.2)
  match np with
  | 0 => ts.foldl (accumulate F rm o) c0
  | 1 => ((groupsOf 4 ts).map gsum).foldl (accumulate F rm o) c0
  | 2 => ((groupsOf 8 ts).map (wsum w)).foldl step c0
  | 3 => ((groupsOf 8 ts).map (fun g => roundSum Fmt.f32 rm o (wsum w g))).foldl step c0
  | 4 => ((groupsOf 16 ts).map (fun g => roundSum F rm o (wsum w g))).foldl step c0
  | _ => ((groupsOf 32 ts).map gsum).foldl (accumulate F .rne false) c0

/-- Step 4 of R112: the result that special values settle. -/
def specialResult (F : Fmt) (c : Num) (ps : List (Num × Num)) : Option (Nat × Flags) :=
  let vals := c :: (ps.map Prod.fst ++ ps.map Prod.snd)
  let whole := ps.filter (fun p => !p.1.isNan && !p.2.isNan)
  let bad := whole.any (fun p => (p.1.prod p.2).isNone)
  let infs := ((if c.isNan then [] else [c]) ++ whole.filterMap (fun p => p.1.prod p.2)).filter Num.isInf
  let clash := infs.any Num.neg && infs.any (fun x => !x.neg)
  if vals.any Num.isNan || bad || clash then
    some (F.canon, if vals.any Num.isSnan || bad || clash then nvF else 0)
  else match infs with
    | x :: _ => some (F.inf x.neg, 0)
    | [] => none

/-- One element of a floating-point multiply (R112). -/
def multiplyElem (np : Nat) (F : Fmt) (rm : Rm) (o : Bool) (w : Nat) (c : Num) (ps : List (Num × Num)) : Nat × Flags :=
  match specialResult F c ps with
  | some r => r
  | none => profileSum np F rm o w c (ps.filterMap (fun p => p.1.prod p.2))

/-- One element under NP5 (R114), and whether it was saturated. -/
def integerElem (satBit : Bool) (c : Int) (ps : List (Int × Int)) : Nat × Bool :=
  let x := (ps.map (fun p => p.1 * p.2)).foldl (· + ·) c
  (wrapInt 32 (if satBit then sat true 32 x else x), satBit && decide (sat true 32 x ≠ x))

/-! ### Sparse operands (R225) -/

/-- Row i of a sparse A by its dense positions: `stored` are its stored elements. -/
def State.expandRow (s : State) (core : Nat) (d : Descr) (i : Nat) (stored : List Num) : List Num :=
  let (n, g) := keptOf d.spk
  let words := ((d.rowWords i).map (s.patternAt core d)).toArray
  let arr := stored.toArray
  let first := i * d.dense / 32
  ((List.range (d.cols / n)).map (fun j =>
    let at_ := i * d.dense + j * g
    let cs := (keptAt d.kind (groupNumber d.kind (words.getD (at_ / 32 - first) 0) (at_ % 32 / g))).getD []
    (List.range g).map (fun p => match cs.findIdx? (· == p) with
      | some m => arr.getD (j * n + m) (.fin false 0 0)
      | none => .fin false 0 0))).flatten

/-! ### K4 elements (R200) -/

/-- The value of a K4 element that no fault stops (R200). -/
def State.k4Value (s : State) (c : Ctx) (core : Nat) (t : K4) (es : List DWord) (p : Nat) : Num :=
  ((c.book t.d.cb).element (s.k4Scale core t p) (s.k4Code core t p) (spallValue es p)).getD (.fin false 0 0)

/-! ### Multiply forms (R223 to R226) -/

/-- The operands of a multiply: the rows of A by dense position, and the columns of B. -/
structure Operands where
  rows : Array (List Num)
  cols : Array (List Num)

/-- The operands of MMA and MMA.S after FTZI. -/
def State.plainOperands (s : State) (core : Nat) (a : ArrayOp) (ftzi : Bool) : Operands :=
  let x := Descr.of a.da
  let y := Descr.of a.db
  let F := fmtOfCode x.fmt
  let row (i : Nat) : List Num :=
    if a.row i then
      let st := (s.regionPatterns core x i).map (F.operand ftzi)
      if x.spk = 0 then st else s.expandRow core x i st
    else []
  let b := ((List.range y.rows).map (fun k => ((s.regionPatterns core y k).map (F.operand ftzi)).toArray))
  ⟨((List.range 16).map row).toArray, ((List.range 16).map (fun j => b.map (fun r => r.getD j (.fin false 0 0)))).toArray⟩

/-- The operands of MMA.K4. -/
def State.k4Operands (s : State) (c : Ctx) (core : Nat) (a : ArrayOp) (tx ty : K4) : Operands :=
  let ex := s.k4Entries core tx
  let ey := s.k4Entries core ty
  let row (i : Nat) : List Num :=
    if a.row i then
      let st := (List.range tx.d.cols).map (fun k => s.k4Value c core tx ex (tx.pos i k))
      if tx.d.spk = 0 then st else s.expandRow core tx.d i st
    else []
  ⟨((List.range 16).map row).toArray,
    ((List.range 16).map (fun j => (List.range ty.d.rows).map (fun k => s.k4Value c core ty ey (ty.pos k j)))).toArray⟩

/-- The results of a floating-point multiply over the active rows, and their flags (R112, R223). -/
def multiplyTile (np : Nat) (F : Fmt) (rm : Rm) (ftzi ftzo z : Bool) (w : Nat) (act : Nat → Bool) (old : Tile)
    (o : Operands) : Tile × Flags :=
  let c (i j : Nat) : Num := if z then .fin false 0 0 else F.operand ftzi (accPattern F (old.el i j))
  let rs := (List.range 256).map (fun e =>
    let i := e / 16
    let j := e % 16
    if act i then
      let r := multiplyElem np F rm ftzo w (c i j) ((o.rows.getD i []).zip (o.cols.getD j []))
      (BitVec.ofNat 64 r.1, r.2)
    else (old.el i j, 0))
  let arr := (rs.map Prod.fst).toArray
  (Tile.of (fun i j => arr.getD (16 * i + j) 0), orAll (rs.map Prod.snd))

/-- The results of an NP5 multiply, and whether an element was saturated. -/
def State.integerTile (s : State) (core : Nat) (a : ArrayOp) (z satBit : Bool) (old : Tile) : Tile × Bool :=
  let x := Descr.of a.da
  let y := Descr.of a.db
  let num (d : Descr) (b : Nat) : Int := toIntW (d.fmt == 8) 8 b
  let zero (_ : Nat) : List Int := []
  let row (i : Nat) : List Int :=
    if a.row i then
      let st := (s.regionPatterns core x i).map (num x)
      if x.spk = 0 then st
      else (s.expandRow core x i (st.map (fun v => .fin (decide (v < 0)) v.natAbs 0))).map (fun n => n.dy.m)
    else zero i
  let rows := ((List.range 16).map row).toArray
  let b := ((List.range y.rows).map (fun k => ((s.regionPatterns core y k).map (num y)).toArray))
  let cols := ((List.range 16).map (fun j => b.map (fun r => r.getD j 0))).toArray
  let rs := (List.range 256).map (fun e =>
    let i := e / 16
    let j := e % 16
    if a.row i then
      let c : Int := if z then 0 else ((old.el i j).extractLsb' 0 32).toInt
      let r := integerElem satBit c ((rows.getD i []).zip (cols.getD j []))
      (BitVec.ofNat 64 r.1, r.2)
    else (old.el i j, false))
  let arr := (rs.map Prod.fst).toArray
  (Tile.of (fun i j => arr.getD (16 * i + j) 0), rs.any Prod.snd)

/-- Flags that an array operation raises: into FPSW and KSW of kd, and FPX where one is enabled (R101, R102, R222).
DEDUCED (log 27). -/
def Ctx.arrayFlags (c : Ctx) (a : ArrayOp) (k : BitVec 3) (f : Flags) (satF : Bool) : Ctx × List FaultDetail :=
  let f6 : BitVec 6 := f.setWidth 6 ||| (if satF then 0x20 else 0)
  ((c.orFlags f).orKsw k.toNat f6, if f &&& a.en = 0 then [] else [(causeFpx, (f &&& a.en).setWidth 128)])

/-- W of Table 4.9. -/
def windowOf (fmt : Nat) : Nat := 2 * (fmtOfCode fmt).p + 8

/-- MMA and MMA.S complete (R223, R225). DESIGN CHOICE (log 70). -/
def State.runMultiply (s : State) (c : CtxId) (a : ArrayOp) (was : List Nat) (np : BitVec 4) (k : BitVec 3) (dn : Nat)
    (z satBit ftzi ftzo : Bool) : Ctx × List FaultDetail :=
  let x := s.ctx c
  let n := c.core
  let da := Descr.of a.da
  match s.stepsFault was (plainSteps n da (Descr.of a.db) dn a.row) with
  | some f => (x, [f])
  | none =>
    if np = 5 then
      let r := s.integerTile n a z satBit (x.tile k)
      (x.setTile k r.1).arrayFlags a k 0 r.2
    else
      let F := accFmt a.af
      let r := multiplyTile np.toNat F (Rm.of a.rm) ftzi ftzo z (windowOf da.fmt) a.row (x.tile k)
        (s.plainOperands n a ftzi)
      (x.setTile k r.1).arrayFlags a k r.2 false

/-- MMA.K4 completes (R226). -/
def State.runK4 (s : State) (c : CtxId) (a : ArrayOp) (was : List Nat) (k : BitVec 3) (da db : BitVec 4) (z : Bool) :
    Ctx × List FaultDetail :=
  let x := s.ctx c
  let tx := a.k4A da
  let ty := a.k4B db
  match s.k4Fault x c.core was [tx, ty] with
  | some f => (x, [f])
  | none =>
    let r := multiplyTile 6 Fmt.f32 .rne false false z 0 a.row (x.tile k) (s.k4Operands x c.core a tx ty)
    (x.setTile k r.1).arrayFlags a k r.2 false

/-- SPLD completes (R203). -/
def State.runSpld (s : State) (c : CtxId) (a : ArrayOp) (was : List Nat) (d : BitVec 4) : Ctx × List FaultDetail :=
  ((s.ctx c), (s.k4Fault (s.ctx c) c.core was [a.spldTile d]).toList)

/-- CBLD completes (R198). -/
def State.runCbld (s : State) (c : CtxId) (a : ArrayOp) (was : List Nat) (d : BitVec 4) (cb : BitVec 2) :
    Ctx × List FaultDetail :=
  let x := s.ctx c
  let base := (Descr.of a.da).base
  let k := s.ownKey c.core base
  match s.consumed was [⟨base, k, 64⟩] with
  | some f => (x, [f])
  | none =>
    match codebookOf (s.bytes k 64) with
    | none => (x, [(causeCbbad, spDetail d.toNat cb.toNat 0)])
    | some b => ({ x with cb := SMap.setD Codebook.reset x.cb cb.toNat b }, [])

/-- ACCLD completes (R234). -/
def State.runAccld (s : State) (c : CtxId) (a : ArrayOp) (was : List Nat) (k : BitVec 3) : Ctx × List FaultDetail :=
  let x := s.ctx c
  let d := Descr.of a.da
  match s.consumed was (s.rowRuns c.core d a.row) with
  | some f => (x, [f])
  | none =>
    let rows := ((List.range 16).map (fun i => if a.row i then (s.regionPatterns c.core d i).toArray else #[])).toArray
    let new := Tile.of (fun i j => BitVec.ofNat 64 ((rows.getD i #[]).getD j 0))
    (x.setTile k ((x.tile k).rows new a.row), [])

/-! ### DRAIN (R235) -/

/-- Entry m of a drained tile. -/
def drainEntry (af : BitVec 2) (t : Tile) (guard : BitVec 32) (m : Nat) : Vec :=
  let v := if af = 1 then packElems 64 ((List.range 16).map (fun j => (t.el m j).toNat))
    else packElems 32 ((List.range 32).map (fun l => (t.el (2 * m + l / 16) (l % 16)).toNat))
  BitVec.ofNat 1024 v &&& byteMask (lanePart guard)

/-- Write the next counted entry of an operation in a queue. -/
def writeNext (op : Nat) (v : Vec) (mask : BitVec 32) : List QEntry → List QEntry
  | [] => []
  | e :: es => if e.op = op ∧ !e.written then ⟨v, mask, true, op⟩ :: es else e :: writeNext op v mask es

/-- A DRAIN writes its entry m. -/
def Ctx.drainWrite (c : Ctx) (a : ArrayOp) (ka : BitVec 3) (q : BitVec 2) (m : Nat) : Ctx :=
  let v := drainEntry a.af (c.tile ka) a.guard m
  { c.commit (.lands (.queue q.toNat) [v.toNat, a.guard.toNat]) with
    q := SMap.setD [] c.q q.toNat (writeNext a.id v a.guard (SMap.get [] c.q q.toNat)) }

/-- A DRAIN writes the entries it has still to write. -/
def Ctx.drainRest (c : Ctx) (a : ArrayOp) (ka : BitVec 3) (q : BitVec 2) : Ctx :=
  (List.range (drainEntries a.af)).foldl (fun c m => if m < a.drained then c else c.drainWrite a ka q m) c

/-! ### Issue of M-slot forms (R218) -/

/-- Whether a fault of an array operation of this context waits to be detected: what issues after it takes no effect
(R222). -/
def Ctx.arrayFaulted (c : Ctx) : Bool := c.withheld != [] || c.late.any (fun f => f.array.isSome)

/-- An array operation issues: what it reads at issue is kept with it. DEDUCED (log 28). -/
def State.issueArray (s : State) (u : Pfx) (i : Instr) (da db : BitVec 256) (af : BitVec 2) : State :=
  let c := s.here
  let a : ArrayOp := ⟨s.freshId, s.cur.one, c.seq, s.heldNow, c.pc, i, da, db, s.guard u.n u.g,
    c.fpctl.extractLsb' 0 3, c.fpctl.extractLsb' 8 5, af, c.brk, 0, s.freshId, none⟩
  if c.arrayFaulted then s.upd (fun c => { c with withheld := c.withheld ++ [a] })
  else s.updCore s.cur.core (fun k => { k with aq := k.aq ++ [a] })

/-- A tile with the moves on their way applied. -/
def Ctx.tileMoved (c : Ctx) (k : BitVec 3) : Tile :=
  c.ops.foldl (fun t o => match o.act with
    | .move kd rows n => if kd = k ∧ !o.performed then t.rows n (fun i => rows.getLsbD i) else t
    | _ => t) (c.tile k)

/-- A tile-move operation joins the context's operations; `region` is the region of an ACCST. -/
def State.tileOp (s : State) (addr : DWord) (opc width : Nat) (frags : List Frag) (act : MemAct) (region : List Nat) : State :=
  let c := s.here
  s.upd (fun c' => { c'.commit (.memory addr act frags) with ops := c'.ops ++ [⟨s.freshId, addr, c.seq, s.slot, s.heldNow, c.pc,
    0, 0, 0, width, opc, frags, act, false, 0, 0, [], region⟩] })

/-! ### The instructions -/

/-- MMA (R223). -/
def execMma (u : Pfx) (p : BitVec 4) (k : BitVec 3) (a b : BitVec 4) (z t f o : Bool) (s : State) :
    Host.Outcome State Fault Refusal :=
  issue (.mma u p k a b z t f o) s (fun s =>
    s.issueArray u (.mma u p k a b z t f o) (s.here.desc a) (s.here.desc b) (s.here.af k))

/-- MMA.S (R223, R225). -/
def execMmaS (u : Pfx) (p : BitVec 4) (k : BitVec 3) (a b : BitVec 4) (z t f o : Bool) (s : State) :
    Host.Outcome State Fault Refusal :=
  issue (.mmaS u p k a b z t f o) s (fun s =>
    s.issueArray u (.mmaS u p k a b z t f o) (s.here.desc a) (s.here.desc b) (s.here.af k))

/-- MMA.K4 (R224, R226). -/
def execMmaK4 (u : Pfx) (k : BitVec 3) (a b : BitVec 4) (m : MulMode) (s : State) :
    Host.Outcome State Fault Refusal :=
  issue (.mmaK4 u k a b m) s (fun s =>
    s.issueArray u (.mmaK4 u k a b m) (s.here.desc a) (s.here.desc b) (s.here.af k))

/-- ACCZ (R234). -/
def execAccz (u : Pfx) (k : BitVec 3) (s : State) : Host.Outcome State Fault Refusal :=
  issue (.accz u k) s (fun s => s.issueArray u (.accz u k) 0 0 (s.here.af k))

/-- ACCLD (R234); AF of kd changes at issue (R216). DEDUCED (log 28). -/
def execAccld (u : Pfx) (k : BitVec 3) (d : BitVec 4) (s : State) : Host.Outcome State Fault Refusal :=
  issue (.accld u k d) s (fun s =>
    let x := Descr.of (s.here.desc d)
    let af : BitVec 2 := if x.fmt = 0 then 0 else if x.fmt = 1 then 1 else 2
    (s.upd (fun c => c.setAf k af)).issueArray u (.accld u k d) (s.here.desc d) 0 af)

/-- DRAIN (R235): its entries are counted at issue. -/
def execDrain (u : Pfx) (a : BitVec 3) (q : BitVec 2) (s : State) : Host.Outcome State Fault Refusal :=
  issue (.drain u a q) s (fun s =>
    let af := s.here.af a
    let new := List.replicate (drainEntries af) (⟨0, 0, false, s.freshId⟩ : QEntry)
    (s.upd (fun c => { c with q := SMap.setD [] c.q q.toNat (SMap.get [] c.q q.toNat ++ new) })).issueArray u
      (.drain u a q) 0 0 af)

/-- ACCT (R215). -/
def execAcct (u : Pfx) (d : BitVec 4) (s : State) : Host.Outcome State Fault Refusal :=
  issue (.acct u d) s (fun s =>
    let a := stagingAddr s.cur.one d
    s.tileOp (BitVec.ofNat 64 a) 0x0D 32 [⟨0, .key (slabKey s.cur.core a), 32⟩] (.load (.desc d)) [])

/-- CBLD (R198). -/
def execCbld (u : Pfx) (d : BitVec 4) (c : BitVec 2) (s : State) : Host.Outcome State Fault Refusal :=
  issue (.cbld u d c) s (fun s => s.issueArray u (.cbld u d c) (s.here.desc d) 0 0)

/-- SPLD (R203). -/
def execSpld (u : Pfx) (d : BitVec 4) (s : State) : Host.Outcome State Fault Refusal :=
  issue (.spld u d) s (fun s => s.issueArray u (.spld u d) (s.here.desc d) 0 0)

end Sys2Proof.Machine
end

