-- ==== Sys2Proof/Machine/Factor.lean ====
section
/-! DEFINITION. Factorisation and solve in the array (R227 to R233), and the completion of every array operation (R218,
R222). -/

namespace Sys2Proof.Machine

/-! ### Steps (R227) -/

/-- A tile being worked on, its elements as they stand, with the width of its format and the flags so far. -/
structure Work where
  a : Array Nat
  width : Nat
  fl : Flags

/-- The pattern that an element holds. -/
def Work.el (w : Work) (i j : Nat) : Nat := w.a.getD (16 * i + j) 0 % 2 ^ w.width

/-- A step writes an element. -/
def Work.put (w : Work) (i j : Nat) (r : Nat × Flags) : Work := { w with a := w.a.setIfInBounds (16 * i + j) r.1, fl := w.fl ||| r.2 }

def Work.of (F : Fmt) (t : Tile) : Work :=
  ⟨((List.range 256).map (fun e => (t.el (e / 16) (e % 16)).toNat)).toArray, F.width, 0⟩

/-- The tile that a computation leaves: an element that no step wrote keeps all its bits (R216, R228). -/
def Work.tile (w : Work) : Tile := Tile.of (fun i j => BitVec.ofNat 64 (w.a.getD (16 * i + j) 0))

/-- x − p × q rounded once. -/
def Fmt.fms (F : Fmt) (rm : Rm) (x p q : Nat) : Nat × Flags := F.fma rm (F.value p).negate (F.value q) (F.value x)

def Fmt.divP (F : Fmt) (rm : Rm) (x y : Nat) : Nat × Flags := F.div rm (F.value x) (F.value y)

/-- p × x + q × y with its products and their sum exact and one rounding into a format (R232). -/
def Fmt.dot2 (F : Fmt) (rm : Rm) (p x q y : Num) : Nat × Flags :=
  let nan := p.isNan || x.isNan || q.isNan || y.isNan
  let sn := p.isSnan || x.isSnan || q.isSnan || y.isSnan
  let bad (a b : Num) : Bool := !a.isNan && !b.isNan && (a.prod b).isNone
  if nan || bad p x || bad q y then (F.canon, if sn || bad p x || bad q y then nvF else 0)
  else match p.prod x, q.prod y with
    | some a, some b => F.sum rm a b
    | _, _ => F.invalid

/-- A pattern widened to FP64: exact, and a NaN of another format is canonical. -/
def widen (F : Fmt) (b : Nat) : Nat :=
  if F = Fmt.f64 then b
  else match F.value b with
    | .nan _ => Fmt.f64.canon
    | .inf n => Fmt.f64.inf n
    | x => (Fmt.f64.roundDy .rne x.dy x.neg).1

/-- The largest magnitude as FP64 (R228): a NaN above an infinity, an infinity above every finite number. -/
def maxMagnitude (xs : List Num) : Nat :=
  if xs.any Num.isNan then Fmt.f64.canon
  else
    let m := xs.foldl (fun m x => if m.lt x.abs then x.abs else m) (.fin false 0 0)
    match m with
    | .inf _ => Fmt.f64.inf false
    | x => (Fmt.f64.roundDy .rne x.dy false).1

/-- A breakdown record (Table 9.9). -/
def brkRecord (cause step col : Nat) (k : BitVec 3) (value : Nat) : BitVec 128 :=
  BitVec.ofNat 128 (cause + step * 2 ^ 8 + col * 2 ^ 16 + k.toNat * 2 ^ 24 + value % 2 ^ 64 * 2 ^ 64)

/-! ### GETRF (R228, R229) -/

/-- PIV with byte s. -/
def putPiv (piv : BitVec 128) (s v : Nat) : BitVec 128 :=
  (piv &&& ~~~(0xFF#128 <<< (8 * s))) ||| (BitVec.ofNat 128 v <<< (8 * s))

/-- The lowest row of the largest magnitude in column s from row s. -/
def pivotRow (F : Fmt) (w : Work) (s : Nat) : Nat :=
  (List.range 16).foldl (fun p i =>
    if s < i ∧ (F.value (w.el p s)).abs.lt (F.value (w.el i s)).abs then i else p) s

def swapRows (w : Work) (s p : Nat) : Work :=
  (List.range 16).foldl (fun v j => (v.put s j (w.el p j, 0)).put p j (w.el s j, 0)) w

/-- Row i is reduced by row s. -/
def eliminate (F : Fmt) (rm : Rm) (s : Nat) (w : Work) (i : Nat) : Work :=
  if i ≤ s then w
  else
    let l := F.divP rm (w.el i s) (w.el s s)
    (List.range 16).foldl (fun v j => if j ≤ s then v else v.put i j (F.fms rm (v.el i j) l.1 (v.el s j))) (w.put i s l)

/-- The steps of GETRF; a breakdown gives its cause and step. -/
def luSteps (F : Fmt) (rm : Rm) : List Nat → Work → BitVec 128 → Work × BitVec 128 × Option (Nat × Nat)
  | [], w, piv => (w, piv, none)
  | s :: ss, w, piv =>
    let cand := ((List.range 16).drop s).map (fun i => F.value (w.el i s))
    if cand.any Num.isNan then (w, piv, some (2, s))
    else if cand.all Num.isZero then (w, piv, some (1, s))
    else
      let p := pivotRow F w s
      let w := if p = s then w else swapRows w s p
      luSteps F rm ss ((List.range 16).foldl (eliminate F rm s) w) (putPiv piv s p)

/-- The step at which a factorisation begins: with RES that of BRK as it stood at issue (R66, R229, R230). -/
def ArrayOp.start (a : ArrayOp) (res : Bool) : Nat := if res then brkCol a.brk else 0

/-- GETRF completes. -/
def Ctx.runGetrf (c : Ctx) (a : ArrayOp) (k : BitVec 3) (res : Bool) : Ctx × List FaultDetail :=
  let F := accFmt a.af
  let w := Work.of F (c.tile k)
  let all := (List.range 256).map (fun e => F.value (w.el (e / 16) (e % 16)))
  let s0 := a.start res
  let m := if res then (a.brk.extractLsb' 64 64).toNat else maxMagnitude all
  let piv := if res then c.piv else BitVec.allOnes 128
  let (w, piv, b) := luSteps F (Rm.of a.rm) ((List.range 16).drop s0) w piv
  let c := c.setTile k w.tile
  match b with
  | some (cause, s) =>
    let r := brkRecord cause s s k m
    let piv := ((List.range 16).drop s).foldl (fun p t => putPiv p t 0xFF) piv
    let (c, fx) := Ctx.arrayFlags { c with piv := piv, brk := r } a k w.fl false
    (c, (if cause = 1 then causeZpiv else causeBknan, r) :: fx)
  | none =>
    let up := ((List.range 256).filter (fun e => e / 16 ≤ e % 16)).map (fun e => F.value (w.el (e / 16) (e % 16)))
    let gf := (Fmt.f64.div .rne (Fmt.f64.value (maxMagnitude up)) (Fmt.f64.value m)).1
    Ctx.arrayFlags { c with piv := piv, gf := BitVec.ofNat 64 gf, brk := 0 } a k w.fl false

/-! ### POTRF (R230) -/

/-- t less the products of two rows over the columns before j. -/
def reduceBy (F : Fmt) (rm : Rm) (w : Work) (i i' j : Nat) (t : Nat) : Nat × Flags :=
  (List.range j).foldl (fun r k => let x := F.fms rm r.1 (w.el i k) (w.el i' k); (x.1, r.2 ||| x.2)) (t, 0)

/-- The columns of POTRF; a breakdown gives its column and t. -/
def cholSteps (F : Fmt) (rm : Rm) : List Nat → Work → Work × Option (Nat × Nat)
  | [], w => (w, none)
  | j :: js, w =>
    let t := reduceBy F rm w j j j (w.el j j)
    let w := { w with fl := w.fl ||| t.2 }
    let x := F.value t.1
    if x.isNan || x.isZero || x.neg then (w, some (j, t.1))
    else
      let dg := F.sqrt rm x
      let w := { w with fl := w.fl ||| dg.2 }
      let col (v : Work) (i : Nat) : Work :=
        if i ≤ j then v
        else
          let u := reduceBy F rm v i j j (v.el i j)
          let q := F.divP rm u.1 dg.1
          v.put i j (q.1, u.2 ||| q.2)
      let w := ((List.range 16).foldl col w).put j j (dg.1, 0)
      cholSteps F rm js ((List.range j).foldl (fun v i => v.put i j (0, 0)) w)

/-- POTRF completes. -/
def Ctx.runPotrf (c : Ctx) (a : ArrayOp) (k : BitVec 3) (res : Bool) : Ctx × List FaultDetail :=
  let F := accFmt a.af
  let (w, b) := cholSteps F (Rm.of a.rm) ((List.range 16).drop (a.start res)) (Work.of F (c.tile k))
  let c := c.setTile k w.tile
  match b with
  | some (j, t) =>
    let r := brkRecord 3 j j k (widen F t)
    let (c, fx) := Ctx.arrayFlags { c with brk := r } a k w.fl false
    (c, (causeLostdef, r) :: fx)
  | none => Ctx.arrayFlags { c with brk := 0 } a k w.fl false

/-! ### TRSM (R231) -/

/-- One column or row of a solve: `at_` places index i, `op` is op(T) by what multiplies X at k for row i. -/
def solveLine (F : Fmt) (rm : Rm) (order : List Nat) (unit side : Bool) (opT : Nat → Nat → Nat) (at_ : Nat → Nat × Nat) :
    List Nat → List Nat → Work → Work
  | _, [], w => w
  | solved, i :: is, w =>
    let (r, c) := at_ i
    let x := solved.foldl (fun x k =>
      let b := w.el (at_ k).1 (at_ k).2
      let y := if side then F.fms rm x.1 b (opT k i) else F.fms rm x.1 (opT i k) b
      (y.1, x.2 ||| y.2)) (w.el r c, 0)
    let y := if unit then x else let q := F.divP rm x.1 (opT i i); (q.1, x.2 ||| q.2)
    solveLine F rm order unit side opT at_ (solved ++ [i]) is (w.put r c y)

/-- TRSM completes; fl is SIDE, UP, UNIT, TR from bit 3 down. -/
def Ctx.runTrsm (c : Ctx) (a : ArrayOp) (k e : BitVec 3) (fl : BitVec 4) : Ctx × List FaultDetail :=
  let F := accFmt a.af
  let T := Work.of F (c.tile e)
  let side := fl.getLsbD 3
  let unit := fl.getLsbD 1
  let tr := fl.getLsbD 0
  match (if unit then none else (List.range 16).find? (fun i => (F.value (T.el i i)).isZero)) with
  | some i =>
    let r := brkRecord 4 0 i k (widen F (T.el i i))
    ({ c with brk := r }, [(causeZdiag, r)])
  | none =>
    let up := fl.getLsbD 2 != tr
    let fwd := side == up
    let order := if fwd then List.range 16 else (List.range 16).reverse
    let opT (i j : Nat) : Nat := if tr then T.el j i else T.el i j
    let w := (List.range 16).foldl (fun w o =>
      solveLine F (Rm.of a.rm) order unit side opT (fun i => if side then (o, i) else (i, o)) [] order w)
      (Work.of F (c.tile k))
    Ctx.arrayFlags { c.setTile k w.tile with brk := 0 } a k w.fl false

/-! ### GIVQR and ROTAPP (R232, R233) -/

/-- A pattern of FP64 with its sign inverted, NaNs kept. -/
def negateP (b : Nat) : Nat := if (Fmt.f64.value b).isNan then b else if b < 2 ^ 63 then b + 2 ^ 63 else b - 2 ^ 63

/-- rot(a, b): c and s as FP64 patterns, and flags. -/
def rotation (a b : Num) : Nat × Nat × Flags :=
  let D := Fmt.f64
  if a.isNan || b.isNan then (D.canon, D.canon, if a.isSnan || b.isSnan then nvF else 0)
  else if b.isZero then (0x3FF0000000000000, 0, 0)
  else
    let big := !(a.abs.lt b.abs)
    let num := if big then b else a
    let den := if big then a else b
    let one : Num := .fin false 1 0
    let tau := D.div .rne num den
    let w := D.fma .rne (D.value tau.1) (D.value tau.1) one
    let u := D.sqrt .rne (D.value w.1)
    let q := D.div .rne one (D.value u.1)
    let q' := if den.neg then negateP q.1 else q.1
    let o := D.mul .rne (D.value q') (D.value tau.1)
    let f := tau.2 ||| w.2 ||| u.2 ||| q.2 ||| o.2
    if big then (q', o.1, f) else (o.1, q', f)

/-- One rotation of the pair of rows (p, p + 1) in column k. -/
def turn (F : Fmt) (rm : Rm) (p : Nat) (c s : Num) (inv : Bool) (w : Work) (k : Nat) : Work :=
  let x := F.value (w.el p k)
  let y := F.value (w.el (p + 1) k)
  let sx := if inv then s.negate else s
  (w.put p k (F.dot2 rm c x sx y)).put (p + 1) k (F.dot2 rm c y sx.negate x)

/-- The rows and columns of GIVQR's rotations, in their order. -/
def rotations : List (Nat × Nat) :=
  (List.range 15).flatMap (fun j => ((List.range 16).reverse.filter (fun i => j < i)).map (fun i => (i, j)))

/-- GIVQR completes. -/
def Ctx.runGivqr (c : Ctx) (a : ArrayOp) (k e : BitVec 3) : Ctx × List FaultDetail :=
  let F := accFmt a.af
  let rm := Rm.of a.rm
  let D := Fmt.f64
  let one (st : Work × List Nat) (ij : Nat × Nat) : Work × List Nat :=
    let (i, j) := ij
    let w := st.1
    let x := F.value (w.el (i - 1) j)
    let y := F.value (w.el i j)
    let r := rotation x y
    let cc := D.value r.1
    let ss := D.value r.2.1
    let w := (w.put (i - 1) j (F.dot2 rm cc x ss y)).put i j (0, r.2.2)
    let w := ((List.range 16).filter (fun k => j < k)).foldl (turn F rm (i - 1) cc ss false) w
    (w, r.2.1 :: r.1 :: st.2)
  let (w, rots) := rotations.foldl one (Work.of F (c.tile k), [])
  let es := rots.reverse.toArray
  let ke := Tile.of (fun i j => BitVec.ofNat 64 (es.getD (16 * i + j) 0))
  Ctx.arrayFlags ((c.setTile k w.tile).setTile e ke) a k w.fl false

/-- ROTAPP completes. -/
def Ctx.runRotapp (c : Ctx) (a : ArrayOp) (k e : BitVec 3) (inv : Bool) : Ctx × List FaultDetail :=
  let F := accFmt a.af
  let D := Fmt.f64
  let t := c.tile e
  let pat (n : Nat) : Num := D.value (t.el (n / 16) (n % 16)).toNat
  let rs := rotations.mapIdx (fun r ij => (r, ij.1 - 1))
  let w := (if inv then rs.reverse else rs).foldl (fun w rp =>
    (List.range 16).foldl (turn F (Rm.of a.rm) rp.2 (pat (2 * rp.1)) (pat (2 * rp.1 + 1)) inv) w) (Work.of F (c.tile k))
  Ctx.arrayFlags (c.setTile k w.tile) a k w.fl false

/-! ### Completion (R218, R222) -/

/-- What an array operation leaves when it runs, and its faults. -/
def State.runArray (s : State) (c : CtxId) (a : ArrayOp) (was : List Nat) : Ctx × List FaultDetail :=
  let x := s.ctx c
  match a.instr with
  | .mma _ p k da _ z t f o => s.runMultiply c a was p k da.toNat z t f o
  | .mmaS _ p k da _ z t f o => s.runMultiply c a was p k da.toNat z t f o
  | .mmaK4 _ k da db m => s.runK4 c a was k da db m.z
  | .trsm _ k e _ fl => x.runTrsm a k e fl
  | .getrf _ k _ res => x.runGetrf a k res
  | .potrf _ k _ res => x.runPotrf a k res
  | .givqr _ k e _ => x.runGivqr a k e
  | .rotapp _ k e _ inv => x.runRotapp a k e inv
  | .accz _ k => (x.setTile k ((x.tile k).rows [] a.row), [])
  | .accld _ k _ => s.runAccld c a was k
  | .drain _ ka q => (x.drainRest a ka q, [])
  | .cbld _ d cb => s.runCbld c a was d cb
  | .spld _ d => s.runSpld c a was d
  | _ => (x, [])

/-- An array operation faults (R222): later ones of its context that have not completed are withheld.
DEDUCED (log 27). -/
def State.failArray (s : State) (c : CtxId) (a : ArrayOp) (fs : List FaultDetail) : State :=
  let mine := (s.core c.core).aq.filter (fun b => b.one == c.one)
  let s := s.updCore c.core (fun k => { k with aq := k.aq.filter (fun b => b.one != c.one) })
  s.updCtx c (fun k => { k with
    late := k.late ++ fs.map (fun f => ⟨a.seq, 5, a.held, a.pc, f.1, f.2, some (.array a)⟩)
    withheld := k.withheld ++ mine })

/-- What comes before the slab reads of an array operation performs (R202, R238, R239). DEDUCED (log 41). -/
def State.beforeArray (s : State) (c : CtxId) (a : ArrayOp) : State :=
  if a.reads then s.performBefore c (s.accOf c (.array a)) else s

/-- Memory as an array operation reads it: as it stands, or as it has read it already. -/
def State.asSeen (s : State) : Option Seen → State
  | none => s
  | some x =>
    let gs := dedup (x.cells.map (fun p => granule p.1))
    let s := s.setCells x.cells
    { s with poison := s.poison.filter (fun g => !gs.contains g) ++ x.bad }

/-- KSWn, PIV, GF and BRK, which the array writes too (R217). -/
def isArrayCr (n : BitVec 8) : Bool := decide (0x10 ≤ n.toNat) && decide (n.toNat ≤ 0x1A)

/-- A WRC of one of them that issued no later than bundle `seq` takes effect, as it comes before an array operation of that bundle
(R84, R217). -/
def State.landCr (s : State) (c : CtxId) (seq : Nat) : State :=
  let now (f : Flight) : Bool := !f.landed && decide (f.seq ≤ seq) && match f.dest with | .cr n _ => isArrayCr n | _ => false
  (s.landAll c ((s.ctx c).flight.filter now)).updCtx c (fun k =>
    { k with flight := k.flight.map (fun f => if now f then { f with landed := true } else f) })

/-- The slab reads of an array operation, where they have not performed: it reads step by step, as far as its faults let it (R226,
R258). DEDUCED (log 41). -/
def State.readFor (s : State) (c : CtxId) (a : ArrayOp) : State :=
  if a.reads then
    let r := s.readSteps a.one true a.pc (a.steps (s.ctx c) c.core)
    r.1.noteArray c a r.2
  else s

/-- What an array operation has left in the tiles that it writes, in a codebook and in PIV, GF and BRK, for the commit signature
(R348). DESIGN CHOICE (log 69). -/
def Ctx.landed (c : Ctx) (a : ArrayOp) : List Commit :=
  (tilesWritten a.instr).map (fun k => .lands (.tile k.toNat) ((c.tile k).flatMap (fun e => [e.1, e.2.toNat]))) ++
    (match a.instr with
     | .cbld _ _ n => [.lands (.codebook n.toNat) [(c.book n.toNat).ents.toNat, (c.book n.toNat).esc.toNat]]
     | _ => []) ++
    if isFactor a.instr then [.lands .piv [c.piv.toNat], .lands .gf [c.gf.toNat], .lands .brk [c.brk.toNat]] else []

/-- The results of an array operation land. -/
def Ctx.withLanded (c : Ctx) (a : ArrayOp) : Ctx := { c with did := c.did ++ c.landed a }

/-- The oldest array operation of a core completes. -/
def State.completeArray (s : State) (core : Nat) : State :=
  match (s.core core).aq with
  | [] => s
  | a :: rest =>
    let c : CtxId := ⟨core, a.one⟩
    let s := (s.landCr c a.seq).beforeArray c a
    let was := match a.seen with | some x => x.was | none => s.poison
    let s := (s.readFor c a).updCore core (fun k => { k with aq := rest })
    let r := (s.asSeen a.seen).runArray c a was
    let s := s.setCtx c (r.1.withLanded a)
    if r.2 = [] then s else s.failArray c a r.2

/-- The oldest array operation of a core, a DRAIN, writes its next entry (R235). -/
def State.drainStep (s : State) (core : Nat) : State :=
  match (s.core core).aq with
  | [] => s
  | a :: rest =>
    match a.instr with
    | .drain _ ka q =>
      if a.drained < drainEntries a.af then
        let s := s.updCore core (fun k => { k with aq := { a with drained := a.drained + 1 } :: rest })
        s.updCtx ⟨core, a.one⟩ (fun c => c.drainWrite a ka q a.drained)
      else s
    | _ => s

/-! ### Source tiles (R219) -/

/-- The elements of its tile that GETRF writes on a context: those below and right of each step's pivot, and the rows that a
step exchanges (R228). -/
def Ctx.luWrites (c : Ctx) (a : ArrayOp) (k : BitVec 3) (res : Bool) (i j : Nat) : Bool :=
  let F := accFmt a.af
  let piv := (luSteps F (Rm.of a.rm) ((List.range 16).drop (a.start res)) (Work.of F (c.tile k)) (BitVec.allOnes 128)).2.1
  (List.range 16).any (fun s =>
    let p := (piv.extractLsb' (8 * s) 8).toNat
    p != 0xFF && ((decide (s < i) && decide (s ≤ j)) || (p != s && (i == s || i == p))))

/-- The elements of its tile that POTRF writes on a context: the columns before a breakdown (R230). -/
def Ctx.cholWrites (c : Ctx) (a : ArrayOp) (k : BitVec 3) (res : Bool) (j : Nat) : Bool :=
  let F := accFmt a.af
  let b := (cholSteps F (Rm.of a.rm) ((List.range 16).drop (a.start res)) (Work.of F (c.tile k))).2
  decide (a.start res ≤ j) && decide (j < match b with | some p => p.1 | none => 16)

/-- Whether an array operation that completes on a context with some faults writes element (i, j) of a tile (R222). -/
def Ctx.writesEl (c : Ctx) (a : ArrayOp) (fs : List FaultDetail) (k : BitVec 3) (i j : Nat) : Bool :=
  let ok := fs.all (fun f => f.1 == causeFpx)
  (tilesWritten a.instr).contains k && (match a.instr with
    | .getrf _ _ _ res => c.luWrites a k res i j
    | .potrf _ _ _ res => c.cholWrites a k res j
    | .trsm _ _ _ _ _ => ok
    | .givqr _ _ _ _ => true
    | .rotapp _ _ _ _ _ => true
    | _ => ok && a.row i)

/-- The elements of a tile that some array operations of a context will write, which complete one after another.
DEDUCED (log 41). -/
def State.willWrite (s : State) (c : CtxId) (k : BitVec 3) : List ArrayOp → List Nat
  | [] => []
  | a :: as =>
    let was := match a.seen with | some x => x.was | none => s.poison
    let v := (s.foreseen c a.before).readFor c a
    let r := (v.asSeen a.seen).runArray c a was
    (List.range 256).filter (fun e => (s.ctx c).writesEl a r.2 k (e / 16) (e % 16)) ++ State.willWrite (s.setCtx c r.1) c k as

/-- A source tile as ACCST and ACCMOV read it at issue (R219): what an array operation has still to write is
unpredictable. DEDUCED (log 41). -/
def State.sourceTile (s : State) (k : BitVec 3) : Tile :=
  let ops := s.myArray
  let t := s.here.tileMoved k
  if ops.any (fun a => (tilesWritten a.instr).contains k) then
    let es := s.willWrite s.cur k ops
    Tile.of (fun i j => if es.contains (16 * i + j) then Config.unpredictableElement s.tick (16 * i + j) else t.el i j)
  else t

/-- ACCMOV at issue (R216, R234). -/
def State.accmov (s : State) (u : Pfx) (k a : BitVec 3) : State :=
  if k = a then s
  else
    let t := s.sourceTile a
    let rows := (s.guard u.n u.g).extractLsb' 0 16
    (s.upd (fun c => c.setAf k (c.af a))).tileOp 0 0x0C 0 [] (.move k rows t) []

/-- ACCST at issue (R234): a posted store of class 0 of the active rows. -/
def State.accst (s : State) (u : Pfx) (a : BitVec 3) (d : BitVec 4) : State :=
  let t := s.sourceTile a
  let x := Descr.of (s.here.desc d)
  let g := s.guard u.n u.g
  let n := if s.here.af a = 1 then 8 else 4
  let rows := (List.range 16).filter (fun i => g.getLsbD i)
  let frags := rows.map (fun i => (⟨16 * n * i, .key (s.regionRow s.cur.core x i), 16 * n⟩ : Frag))
  let data := packElems (8 * n) ((List.range 256).map (fun e => (t.el (e / 16) (e % 16)).toNat))
  s.tileOp (BitVec.ofNat 64 x.base) 0x0A (16 * n) frags (.store data) (s.regionGranules s.cur.core x)

/-! ### The instructions -/

/-- ACCST (R234). -/
def execAccst (u : Pfx) (a : BitVec 3) (d : BitVec 4) (s : State) : Host.Outcome State Fault Refusal :=
  issue (.accst u a d) s (fun s => s.accst u a d)

/-- ACCMOV (R234). -/
def execAccmov (u : Pfx) (k a : BitVec 3) (s : State) : Host.Outcome State Fault Refusal :=
  issue (.accmov u k a) s (fun s => s.accmov u k a)


/-- TRSM (R231). -/
def execTrsm (u : Pfx) (k e : BitVec 3) (w : Bool) (l : BitVec 4) (s : State) : Host.Outcome State Fault Refusal :=
  issue (.trsm u k e w l) s (fun s => s.issueArray u (.trsm u k e w l) 0 0 (s.here.af k))

/-- GETRF (R228, R229). -/
def execGetrf (u : Pfx) (k : BitVec 3) (w l : Bool) (s : State) : Host.Outcome State Fault Refusal :=
  issue (.getrf u k w l) s (fun s => s.issueArray u (.getrf u k w l) 0 0 (s.here.af k))

/-- POTRF (R230). -/
def execPotrf (u : Pfx) (k : BitVec 3) (w l : Bool) (s : State) : Host.Outcome State Fault Refusal :=
  issue (.potrf u k w l) s (fun s => s.issueArray u (.potrf u k w l) 0 0 (s.here.af k))

/-- GIVQR (R232): AF of ke becomes FP64 at issue (R216). DEDUCED (log 28). -/
def execGivqr (u : Pfx) (k e : BitVec 3) (w : Bool) (s : State) : Host.Outcome State Fault Refusal :=
  issue (.givqr u k e w) s (fun s =>
    (s.upd (fun c => c.setAf e 1)).issueArray u (.givqr u k e w) 0 0 (s.here.af k))

/-- ROTAPP (R233). -/
def execRotapp (u : Pfx) (k e : BitVec 3) (w l : Bool) (s : State) : Host.Outcome State Fault Refusal :=
  issue (.rotapp u k e w l) s (fun s => s.issueArray u (.rotapp u k e w l) 0 0 (s.here.af k))

end Sys2Proof.Machine
end

