-- ==== Sys2Proof/Machine/CSlot.lean ====
section
/-! DEFINITION. The copy slots (R165 to R189): loads, stores, remote loads, atomics, copies, rings, pushes. Each form
issues a memory operation or a command, which performs later (R237). -/

namespace Sys2Proof.Machine

/-! ### Issuing a memory operation -/

/-- Whether an operation stands behind a new one of its own bundle: a fence comes before all of them (R131), a read
before the writes (R167). -/
def MemOp.behind (o e : MemOp) : Bool :=
  o.id / 16 == e.id / 16 && (match o.act with
    | .fence _ _ => true
    | _ => !o.writes && e.writes && decide (6 ≤ e.slot))

/-- An operation joins its context in program order. -/
def Ctx.addOp (c : Ctx) (o : MemOp) : Ctx :=
  { c with ops := c.ops.takeWhile (fun e => !o.behind e) ++ o :: c.ops.dropWhile (fun e => !o.behind e) }

/-- What the subscription of C0 in the bundle at issue has written over, for C1 (R167). -/
def State.overwrote (s : State) : List (Nat × Byte) :=
  s.here.copies.flatMap (fun p => match p.2 with
    | .running q => (match q.kind with | .ring _ => if otherSlot s.freshId q.before then q.seen else [] | _ => [])
    | _ => [])

/-- A memory operation issues. -/
def State.memOp (s : State) (oc : BitVec 4) (sem : BitVec 2) (scope : BitVec 3) (width opc : Nat) (addr : DWord)
    (frags : List Frag) (act : MemAct) : State :=
  let c := s.here
  s.upd (fun c' => (c'.addOp ⟨s.freshId, addr, c.seq, s.slot, s.heldNow, c.pc, oc, sem, scope, width, opc, frags, act,
    false, 0, 0, s.overwrote, []⟩).commit (.memory addr act frags))

/-! ### Loads and stores (R168 to R170, R174) -/

/-- A load whose bound is exposed: 6 cycles (Table 3.17), which a gather or a strided access counts from the end of its bundle's
stall (R33). -/
def State.boundLoad (s : State) (i : Instr) (oc : BitVec 4) (width opc : Nat) (d : Dest) : State :=
  let a := accessOf i s
  (s.memOp oc 0 0 width opc a.addr a.frags (.load .flight)).result (6 + if isCounted i then s.stall else 0) d 0 d.whole 0 (some s.freshId)

/-- A plain store of a vector register. -/
def State.storeV (s : State) (i : Instr) (oc : BitVec 4) (opc : Nat) (v : BitVec 5) : State :=
  let a := accessOf i s
  s.memOp oc 0 0 128 opc a.addr a.frags (.store (s.readV v).toNat)

/-- Whether a scalar access lands in the own slab. -/
def Access.isOwn (core : Nat) (a : Access) : Bool :=
  a.parts.all (fun p => match p.2.1 with | .slab k => coreOfKey k == some core | _ => false)

/-- An operation whose result another one of its bundle, later in MASK order, replaces (R84): the result is discarded. -/
def MemOp.discard (r : BitVec 6) (n : Nat) (o : MemOp) : MemOp :=
  if o.id / 16 = n / 16 ∧ o.interlocks = some r then o.unanswered else o

/-- A copy slot takes a scalar register as its destination: earlier results to it are discarded (R84). -/
def State.claim (s : State) (r : BitVec 6) : State :=
  s.upd (fun c => { c with
    flight := c.flight.map (Flight.overtaken (.s r) 1)
    ops := c.ops.map (MemOp.discard r s.freshId) })

/-- LD.S (R174). -/
def State.loadS (s : State) (i : Instr) (a : BitVec 6) (oc : BitVec 4) (sem : BitVec 2) (sc : BitVec 3) (w : BitVec 2) :
    State :=
  let x := accessOf i s
  let d : Dest := .s (a + 1)
  let s := s.claim (a + 1)
  if x.isOwn s.cur.core then
    (s.memOp oc sem sc (widthOf w) 0x08 x.addr x.frags (.load .flight)).result 6 d 0 d.whole 0 (some s.freshId)
  else s.memOp oc sem sc (widthOf w) 0x08 x.addr x.frags (.load (.sreg (a + 1)))

/-- An AMO (R175). -/
def State.amo (s : State) (i : Instr) (op : Rmw) (opc : Nat) (a : BitVec 6) (oc : BitVec 4) (sem : BitVec 2)
    (sc : BitVec 3) (w : BitVec 2) : State :=
  let x := accessOf i s
  (s.claim (a + 1)).memOp oc sem sc (widthOf w) opc x.addr x.frags
    (.rmw op (s.readS (a + 1)) (if op = .cas then s.readS (a + 2) else 0) (some (a + 1)))

/-- A RED (R177). -/
def State.red (s : State) (i : Instr) (op : Rmw) (opc : Nat) (a : BitVec 6) (oc : BitVec 4) (sc : BitVec 3)
    (w : BitVec 2) : State :=
  let x := accessOf i s
  s.memOp oc 0 sc (widthOf w) opc x.addr x.frags (.rmw op (s.readS (a + 1)) 0 none)

/-! ### Copies and rings (R179 to R186) -/

/-- The opcode of a copy command. -/
def CopyKind.opc : CopyKind → Nat
  | .cpIn => 0x20
  | .cpOut => 0x21
  | .cpSs => 0x22
  | .ring _ => 0x23

/-- A copy command takes its id. -/
def State.startCopy (s : State) (i : BitVec 4) (oc : BitVec 4) (kind : CopyKind) (d : BitVec 256) (base : DWord)
    (dst : Nat) (n : Nest) (seen : List (Nat × Byte)) : State :=
  let c := s.here
  let cmd : CopyCmd := ⟨kind, d, base, dst, n.exts, n.strides, oc, c.seq, s.slot, s.heldNow, c.pc, s.freshId,
    c.slice.map (·.graph), seen, []⟩
  s.upd (fun c' => { c'.commit (.copy kind.opc d base) with copies := SMap.setD .free c'.copies i.toNat (.running cmd) })

/-- CP.IN and CP.OUT (R180). -/
def State.copyNest (s : State) (kind : CopyKind) (d : BitVec 4) (a : BitVec 6) (i oc : BitVec 4) : State :=
  let x := s.here.desc d
  let r := Descr.of x
  let n := (match s.ownSlab s.cur.core (s.readS (a + 1)).toNat 64 with
    | some k => s.nestBlock k (r.rows * r.rowUnits)
    | none => none).getD ⟨[], []⟩
  s.startCopy i oc kind x (s.readS a) 0 n s.overwrote

/-- RSUB (R185): the state bytes become FREE; what they held the other copy slot has read (R167). -/
def State.subscribe (s : State) (d : BitVec 4) (a : BitVec 6) (i oc : BitVec 4) : State :=
  match s.ringAt a with
  | none => s
  | some k =>
    match s.ringBlock k with
    | none => s
    | some r =>
      let n := s.cur.core
      let keys := (List.range r.slots).map (fun m => s.ownKey n (r.state + m))
      let s := (s.performBefore s.cur (s.lastAcc 0 (keys.map (fun k => (k, 1))))).readFirst s.cur s.freshId keys
      let old := s.saveBytes [] keys
      let s := (s.store (keys.map (fun k => (k, 0)))).1.noteAtomic (.quarry n) 0 .write keys (some dieScope) none
      s.startCopy i oc (.ring r) (s.here.desc d) 0 0 ⟨[], []⟩ old

/-! ### Pushes (R188, R189) -/

/-- The fragments of the lanes of a mask at a place. -/
def maskedFrags (p : Place) (m : BitVec 32) : List Frag :=
  ((List.range 32).filter (fun l => m.getLsbD l)).filterMap (fun l => match p with
    | .slab k => some ⟨4 * l, .key (k + 4 * l), 4⟩
    | .dva va => some ⟨4 * l, .dva (va + BitVec.ofNat 64 (4 * l)), 4⟩
    | _ => none)

/-- STQ and FPUSHQ: a store of the active lanes of the oldest entry; with a scope above .core, a release. -/
def State.pushQueue (s : State) (i : Instr) (opc : Nat) (q : BitVec 2) (oc : BitVec 4) (sc : BitVec 3) : State :=
  match s.here.oldest q with
  | none => s
  | some e =>
    let a := accessOf i s
    let frags := match a.parts with
      | p :: _ => maskedFrags p.2.1 e.mask
      | [] => []
    (s.popQueue q).memOp oc (if sc = 0 then 0 else 2) sc 128 opc a.addr frags (.store e.data.toNat)

/-! ### The instructions -/

/-- LD.V (R168). -/
def execLdV (u : Pfx) (v : BitVec 5) (a : BitVec 6) (c : BitVec 4) (o : BitVec 5) (s : State) :
    Host.Outcome State Fault Refusal :=
  issue (.ldV u v a c o) s (fun s => s.boundLoad (.ldV u v a c o) c 128 0x00 (.v v))

/-- ST.V (R168). -/
def execStV (u : Pfx) (v : BitVec 5) (a : BitVec 6) (c : BitVec 4) (o : BitVec 5) (s : State) :
    Host.Outcome State Fault Refusal :=
  issue (.stV u v a c o) s (fun s => s.storeV (.stV u v a c o) c 0x01 v)

/-- LD.VS (R169). -/
def execLdVs (u : Pfx) (v : BitVec 5) (a : BitVec 6) (c : BitVec 4) (w : Bool) (s : State) :
    Host.Outcome State Fault Refusal :=
  issue (.ldVs u v a c w) s (fun s => s.boundLoad (.ldVs u v a c w) c 128 0x02 (.v v))

/-- ST.VS (R169). -/
def execStVs (u : Pfx) (v : BitVec 5) (a : BitVec 6) (c : BitVec 4) (w : Bool) (s : State) :
    Host.Outcome State Fault Refusal :=
  issue (.stVs u v a c w) s (fun s => s.storeV (.stVs u v a c w) c 0x03 v)

/-- LD.VX (R170). -/
def execLdVx (u : Pfx) (v : BitVec 5) (a : BitVec 6) (b : BitVec 5) (c : BitVec 4) (s : State) :
    Host.Outcome State Fault Refusal :=
  issue (.ldVx u v a b c) s (fun s => s.boundLoad (.ldVx u v a b c) c 128 0x04 (.v v))

/-- ST.VX (R170). -/
def execStVx (u : Pfx) (v : BitVec 5) (a : BitVec 6) (b : BitVec 5) (c : BitVec 4) (s : State) :
    Host.Outcome State Fault Refusal :=
  issue (.stVx u v a b c) s (fun s => s.storeV (.stVx u v a b c) c 0x05 v)

/-- LDR.L (R172, R173): the landing register is pending until the due cycle, also where C0 of the bundle has made it pending.
DESIGN CHOICE (log 64). -/
def execLdrL (u : Pfx) (l : BitVec 3) (a : BitVec 6) (c : BitVec 4) (due : BitVec 7) (s : State) :
    Host.Outcome State Fault Refusal :=
  issue (.ldrL u l a c due) s (fun s =>
    let x := accessOf (.ldrL u l a c due) s
    let s' := s.memOp c 0 0 128 0x06 x.addr x.frags (.load (.landing l))
    s'.upd (fun k => { k with
      l := SMap.setD .empty k.l l.toNat (.pending s.freshId (s.cycle + due.toNat) none none) }))

/-- PF (R187): no visible effect. -/
def execPf (u : Pfx) (d : BitVec 4) (a : BitVec 6) (c : BitVec 4) (s : State) : Host.Outcome State Fault Refusal :=
  issue (.pf u d a c) s (fun s => s)

/-- LD.S (R174). -/
def execLdS (u : Pfx) (a : BitVec 6) (c : BitVec 4) (e : BitVec 2) (sc : BitVec 3) (w : BitVec 2) (s : State) :
    Host.Outcome State Fault Refusal :=
  issue (.ldS u a c e sc w) s (fun s => s.loadS (.ldS u a c e sc w) a c e sc w)

/-- ST.S (R174). -/
def execStS (u : Pfx) (a : BitVec 6) (c : BitVec 4) (e : BitVec 2) (sc : BitVec 3) (w : BitVec 2) (s : State) :
    Host.Outcome State Fault Refusal :=
  issue (.stS u a c e sc w) s (fun s =>
    let x := accessOf (.stS u a c e sc w) s
    s.memOp c e sc (widthOf w) 0x09 x.addr x.frags (.store (s.readS (a + 1)).toNat))

/-- AMO.ADD (R175, Table 7.3). -/
def execAmoAdd (u : Pfx) (a : BitVec 6) (c : BitVec 4) (e : BitVec 2) (sc : BitVec 3) (w : BitVec 2) (s : State) :
    Host.Outcome State Fault Refusal :=
  issue (.amoAdd u a c e sc w) s (fun s => s.amo (.amoAdd u a c e sc w) .add 0x0A a c e sc w)

/-- AMO.FADD (R176). -/
def execAmoFadd (u : Pfx) (a : BitVec 6) (c : BitVec 4) (e : BitVec 2) (sc : BitVec 3) (w : BitVec 2) (s : State) :
    Host.Outcome State Fault Refusal :=
  issue (.amoFadd u a c e sc w) s (fun s => s.amo (.amoFadd u a c e sc w) .fadd 0x0B a c e sc w)

/-- AMO.MIN (R175, Table 7.3). -/
def execAmoMin (u : Pfx) (a : BitVec 6) (c : BitVec 4) (e : BitVec 2) (sc : BitVec 3) (w : BitVec 2) (s : State) :
    Host.Outcome State Fault Refusal :=
  issue (.amoMin u a c e sc w) s (fun s => s.amo (.amoMin u a c e sc w) .min 0x0C a c e sc w)

/-- AMO.MAX (R175, Table 7.3). -/
def execAmoMax (u : Pfx) (a : BitVec 6) (c : BitVec 4) (e : BitVec 2) (sc : BitVec 3) (w : BitVec 2) (s : State) :
    Host.Outcome State Fault Refusal :=
  issue (.amoMax u a c e sc w) s (fun s => s.amo (.amoMax u a c e sc w) .max 0x0D a c e sc w)

/-- AMO.MINU (R175, Table 7.3). -/
def execAmoMinu (u : Pfx) (a : BitVec 6) (c : BitVec 4) (e : BitVec 2) (sc : BitVec 3) (w : BitVec 2) (s : State) :
    Host.Outcome State Fault Refusal :=
  issue (.amoMinu u a c e sc w) s (fun s => s.amo (.amoMinu u a c e sc w) .minu 0x0E a c e sc w)

/-- AMO.MAXU (R175, Table 7.3). -/
def execAmoMaxu (u : Pfx) (a : BitVec 6) (c : BitVec 4) (e : BitVec 2) (sc : BitVec 3) (w : BitVec 2) (s : State) :
    Host.Outcome State Fault Refusal :=
  issue (.amoMaxu u a c e sc w) s (fun s => s.amo (.amoMaxu u a c e sc w) .maxu 0x0F a c e sc w)

/-- AMO.AND (R175, Table 7.3). -/
def execAmoAnd (u : Pfx) (a : BitVec 6) (c : BitVec 4) (e : BitVec 2) (sc : BitVec 3) (w : BitVec 2) (s : State) :
    Host.Outcome State Fault Refusal :=
  issue (.amoAnd u a c e sc w) s (fun s => s.amo (.amoAnd u a c e sc w) .and 0x10 a c e sc w)

/-- AMO.OR (R175, Table 7.3). -/
def execAmoOr (u : Pfx) (a : BitVec 6) (c : BitVec 4) (e : BitVec 2) (sc : BitVec 3) (w : BitVec 2) (s : State) :
    Host.Outcome State Fault Refusal :=
  issue (.amoOr u a c e sc w) s (fun s => s.amo (.amoOr u a c e sc w) .or 0x11 a c e sc w)

/-- AMO.XOR (R175, Table 7.3). -/
def execAmoXor (u : Pfx) (a : BitVec 6) (c : BitVec 4) (e : BitVec 2) (sc : BitVec 3) (w : BitVec 2) (s : State) :
    Host.Outcome State Fault Refusal :=
  issue (.amoXor u a c e sc w) s (fun s => s.amo (.amoXor u a c e sc w) .xor 0x12 a c e sc w)

/-- AMO.SWP (R175, Table 7.3). -/
def execAmoSwp (u : Pfx) (a : BitVec 6) (c : BitVec 4) (e : BitVec 2) (sc : BitVec 3) (w : BitVec 2) (s : State) :
    Host.Outcome State Fault Refusal :=
  issue (.amoSwp u a c e sc w) s (fun s => s.amo (.amoSwp u a c e sc w) .swp 0x13 a c e sc w)

/-- AMO.CAS (R175, Table 7.3). -/
def execAmoCas (u : Pfx) (a : BitVec 6) (c : BitVec 4) (e : BitVec 2) (sc : BitVec 3) (w : BitVec 2) (s : State) :
    Host.Outcome State Fault Refusal :=
  issue (.amoCas u a c e sc w) s (fun s => s.amo (.amoCas u a c e sc w) .cas 0x14 a c e sc w)

/-- RED.ADD (R177). -/
def execRedAdd (u : Pfx) (a : BitVec 6) (c : BitVec 4) (sc : BitVec 3) (w : BitVec 2) (s : State) :
    Host.Outcome State Fault Refusal :=
  issue (.redAdd u a c sc w) s (fun s => s.red (.redAdd u a c sc w) .add 0x18 a c sc w)

/-- RED.FADD (R177). -/
def execRedFadd (u : Pfx) (a : BitVec 6) (c : BitVec 4) (sc : BitVec 3) (w : BitVec 2) (s : State) :
    Host.Outcome State Fault Refusal :=
  issue (.redFadd u a c sc w) s (fun s => s.red (.redFadd u a c sc w) .fadd 0x19 a c sc w)

/-- RED.MIN (R177). -/
def execRedMin (u : Pfx) (a : BitVec 6) (c : BitVec 4) (sc : BitVec 3) (w : BitVec 2) (s : State) :
    Host.Outcome State Fault Refusal :=
  issue (.redMin u a c sc w) s (fun s => s.red (.redMin u a c sc w) .min 0x1A a c sc w)

/-- RED.MAX (R177). -/
def execRedMax (u : Pfx) (a : BitVec 6) (c : BitVec 4) (sc : BitVec 3) (w : BitVec 2) (s : State) :
    Host.Outcome State Fault Refusal :=
  issue (.redMax u a c sc w) s (fun s => s.red (.redMax u a c sc w) .max 0x1B a c sc w)

/-- RED.AND (R177). -/
def execRedAnd (u : Pfx) (a : BitVec 6) (c : BitVec 4) (sc : BitVec 3) (w : BitVec 2) (s : State) :
    Host.Outcome State Fault Refusal :=
  issue (.redAnd u a c sc w) s (fun s => s.red (.redAnd u a c sc w) .and 0x1C a c sc w)

/-- RED.OR (R177). -/
def execRedOr (u : Pfx) (a : BitVec 6) (c : BitVec 4) (sc : BitVec 3) (w : BitVec 2) (s : State) :
    Host.Outcome State Fault Refusal :=
  issue (.redOr u a c sc w) s (fun s => s.red (.redOr u a c sc w) .or 0x1D a c sc w)

/-- RED.XOR (R177). -/
def execRedXor (u : Pfx) (a : BitVec 6) (c : BitVec 4) (sc : BitVec 3) (w : BitVec 2) (s : State) :
    Host.Outcome State Fault Refusal :=
  issue (.redXor u a c sc w) s (fun s => s.red (.redXor u a c sc w) .xor 0x1E a c sc w)

/-- CP.IN (R180). -/
def execCpIn (u : Pfx) (d : BitVec 4) (a : BitVec 6) (i c : BitVec 4) (s : State) : Host.Outcome State Fault Refusal :=
  issue (.cpIn u d a i c) s (fun s => s.readBlock (.cpIn u d a i c) (fun s => s.copyNest .cpIn d a i c))

/-- CP.OUT (R180). -/
def execCpOut (u : Pfx) (d : BitVec 4) (a : BitVec 6) (i c : BitVec 4) (s : State) : Host.Outcome State Fault Refusal :=
  issue (.cpOut u d a i c) s (fun s => s.readBlock (.cpOut u d a i c) (fun s => s.copyNest .cpOut d a i c))

/-- CP.SS (R181). -/
def execCpSs (u : Pfx) (d : BitVec 4) (a : BitVec 6) (i c : BitVec 4) (s : State) : Host.Outcome State Fault Refusal :=
  issue (.cpSs u d a i c) s (fun s =>
    s.startCopy i c .cpSs (s.here.desc d) (s.readS a) ((s.readS (a + 1)).extractLsb' 0 32).toNat ⟨[], []⟩ s.overwrote)

/-- RSUB (R185). -/
def execRsub (u : Pfx) (d : BitVec 4) (a : BitVec 6) (i c : BitVec 4) (s : State) : Host.Outcome State Fault Refusal :=
  issue (.rsub u d a i c) s (fun s => s.readBlock (.rsub u d a i c) (fun s => s.subscribe d a i c))

/-- SREL (R186): DONE into the state byte, a release of its class at .die scope. DEDUCED (log 31). -/
def execSrel (u : Pfx) (d : BitVec 4) (a : BitVec 6) (c : BitVec 4) (s : State) : Host.Outcome State Fault Refusal :=
  issue (.srel u d a c) s (fun s => s.readBlock (.srel u d a c) (fun s =>
    match s.srelByte d a with
    | some k => s.memOp c 2 2 1 0x24 (BitVec.ofNat 64 k) [⟨0, .key k, 1⟩] (.store 2)
    | none => s))

/-- FPUSH (R188). -/
def execFpush (u : Pfx) (v : BitVec 5) (a : BitVec 6) (c : BitVec 4) (s : State) : Host.Outcome State Fault Refusal :=
  issue (.fpush u v a c) s (fun s => s.storeV (.fpush u v a c) c 0x25 v)

/-- FPUSHQ (R189). -/
def execFpushq (u : Pfx) (q : BitVec 2) (a : BitVec 6) (c : BitVec 4) (sc : BitVec 3) (s : State) :
    Host.Outcome State Fault Refusal :=
  issue (.fpushq u q a c sc) s (fun s => s.pushQueue (.fpushq u q a c sc) 0x26 q c sc)

/-- STQ (R189). -/
def execStq (u : Pfx) (q : BitVec 2) (a : BitVec 6) (c : BitVec 4) (sc : BitVec 3) (s : State) :
    Host.Outcome State Fault Refusal :=
  issue (.stq u q a c sc) s (fun s => s.pushQueue (.stq u q a c sc) 0x27 q c sc)

end Sys2Proof.Machine
end

