-- ==== Sys2Proof/Machine/Fetch.lean ====
section
/-! DEFINITION. Instruction fetch (R64), the slots of the bundle that a context would issue next with their decode
faults (R63, R65, R67, R69 to R73, R79, R80, R82, R161), and where a loop body ends (R127). -/

namespace Sys2Proof.Machine

/-- A fault found before issue: slot, held, cause, DETAIL. -/
structure EarlyFault where
  slot : Nat
  held : Bool
  cause : BitVec 8
  detail : BitVec 128
  deriving DecidableEq, Repr

/-- A fault of no slot. -/
def EarlyFault.whole (cause : BitVec 8) (detail : BitVec 128) : EarlyFault := ⟨0xF, false, cause, detail⟩

/-- IFETCH with VA and CAUSE in its record (Table 15.2). DEDUCED (log 23). -/
def ifetch (va : Nat) (x : BitVec 4) : EarlyFault := EarlyFault.whole causeIfetch (progress va x 0 false 0 0 0)

/-- Whether a PC is a 56-bit address of a word (Table 1.4). DEDUCED (log 23). -/
def pcOk (a : DWord) : Bool := a.extractLsb' 56 8 == 0 && a.extractLsb' 0 2 == 0

/-- Read one word of code (R64). A word never crosses a page. -/
def State.fetchWord (s : State) (core : Nat) (a : DWord) : Except EarlyFault Word :=
  let va := a.toNat % 2 ^ 56
  match s.spaceOf core with
  | none => .error (ifetch va xNomap)
  | some sp =>
    match s.translate sp va .fetch with
    | .error x => .error (ifetch va x)
    | .ok k => if s.unreadable k then .error (ifetch va xPoison) else .ok (BitVec.ofNat 32 (s.readNat k 4))

/-- Read words one after another. -/
def State.fetchWords (s : State) (core : Nat) : DWord → Nat → Except EarlyFault (List Word)
  | _, 0 => .ok []
  | a, n + 1 =>
    match s.fetchWord core a with
    | .error e => .error e
    | .ok w =>
      match State.fetchWords s core (a + 4) n with
      | .error e => .error e
      | .ok ws => .ok (w :: ws)

/-- A bundle in hand: its header word with the bundle, and its bytes. -/
structure Fetched where
  word : Word
  bundle : Bundle
  size : Nat
  deriving DecidableEq, Repr

/-- The bundle at an address, or its fetch fault or illegal-bundle trap (R63, R64). DEDUCED (log 23). -/
def State.fetchBundle (s : State) (core : Nat) (pc : DWord) : Except EarlyFault Fetched :=
  if !pcOk pc then .error (ifetch pc.toNat 0)
  else
    match s.fetchWord core pc with
    | .error e => .error e
    | .ok h =>
      match decodeHeader h with
      | none => .error (EarlyFault.whole causeIllbundle (h.setWidth 128))
      | some hd =>
        let slots := slotsOf hd.mask
        match s.fetchWords core (pc + 4) (slots.length + if hd.repx then 1 else 0) with
        | .error e => .error e
        | .ok ws =>
          let pre := if hd.repx then ws.head? else none
          let rest := if hd.repx then ws.drop 1 else ws
          .ok ⟨h, ⟨hd, pre, slots.zip rest⟩, hd.size⟩

/-- The address after `n` bundles (R127); where one cannot be fetched, its own address. -/
def State.skipBundles (s : State) (core : Nat) : Nat → DWord → DWord
  | 0, pc => pc
  | n + 1, pc =>
    match s.fetchBundle core pc with
    | .error _ => pc
    | .ok f => State.skipBundles s core n (pc + BitVec.ofNat 64 f.size)

/-! ### Decode (R82 steps 2 and 3) -/

/-- The fields of the repeat prefix: ADV, STRIDE, COUNT. -/
structure Rep where
  adv : BitVec 4
  stride : BitVec 4
  count : Nat
  deriving DecidableEq, Repr

/-- The repetition that REPCNT names (R72). -/
def repOf (r : BitVec 32) : Nat := if r.getLsbD 16 then (r.extractLsb' 0 16).toNat else 0

/-- Decode one word of a slot, with the operand rules (R80, R73, R82). -/
def decodeOp (slot : Nat) (held : Bool) (orig w : Word) : Except EarlyFault SlotOp :=
  match decodeWord (classOfSlot slot) w with
  | .error .illegalOperation => .error ⟨slot, held, causeIllop, orig.setWidth 128⟩
  | .error .illegalOperand => .error ⟨slot, held, causeIllopnd, orig.setWidth 128⟩
  | .ok i => if i.wf then .ok ⟨slot, held, orig, w, i⟩ else .error ⟨slot, held, causeIllopnd, orig.setWidth 128⟩

/-- Whether a word decodes at every repetition (R71). Past 64 steps a field that advances has left its file.
DEDUCED (log 25). -/
def repsOk (slot : Nat) (r : Rep) (w : Word) : Bool :=
  (List.range (min r.count 65)).all (fun j =>
    match advanceWord (classOfSlot slot) r.adv r.stride j w with
    | none => false
    | some w => match decodeOp slot false w w with | .ok _ => true | .error _ => false)

/-- A supplied word at the repetition that issues. DEDUCED (log 25). -/
def suppliedOp (rep : Option Rep) (j slot : Nat) (w : Word) : Except EarlyFault SlotOp :=
  match decodeOp slot false w w with
  | .error e => .error e
  | .ok o =>
    match rep with
    | none => .ok o
    | some r =>
      if w.getLsbD 31 || !repsOk slot r w then .error ⟨slot, false, causeIllopnd, w.setWidth 128⟩
      else match advanceWord (classOfSlot slot) r.adv r.stride j w with
        | none => .ok o
        | some w' => decodeOp slot false w w'

/-- The landing register of a VPOPL or the id of a copy command (R79, R161). -/
def pairKey (i : Instr) : Option Nat :=
  match i with
  | .vpopl _ _ l => some l.toNat
  | i => (copyIdOf i).map (fun k => 16 + k.toNat)

/-- Whether two slots are the V slots or the copy slots. -/
def isPair (a b : Nat) : Bool := (min a b == 3 && max a b == 4) || (min a b == 6 && max a b == 7)

/-- Whether an operation names what an earlier one of its pair names. DEDUCED (log 25). -/
def pairClash (os : List SlotOp) (o : SlotOp) : Bool :=
  (pairKey o.instr).isSome && os.any (fun e => isPair e.slot o.slot && pairKey e.instr == pairKey o.instr)

/-- Decode the supplied words, then the held ones (R82). DEDUCED (log 25). -/
def decodeOps (rep : Option Rep) (j : Nat) : List (Nat × Bool × Word) → List SlotOp → Except EarlyFault (List SlotOp)
  | [], acc => .ok acc
  | (slot, held, w) :: rest, acc =>
    match (if held then decodeOp slot true w w else suppliedOp rep j slot w) with
    | .error e => .error e
    | .ok o =>
      if pairClash acc o then .error ⟨slot, held, causeIllopnd, w.setWidth 128⟩ else decodeOps rep j rest (acc ++ [o])

/-- The held words of the slots that a bundle omits (R67). -/
def Ctx.heldFor (c : Ctx) (mask : BitVec 8) : List (Nat × Bool × Word) :=
  (c.held.filter (fun p => !mask.getLsbD p.1)).map (fun p => (p.1, true, p.2))

/-- A bundle that a context would issue: its slots at this repetition, supplied ones first. -/
structure Planned where
  f : Fetched
  rep : Option Rep
  j : Nat
  ops : List SlotOp
  deriving DecidableEq, Repr

/-- Decode a bundle in hand (R82 steps 1 to 3). -/
def Ctx.plan (c : Ctx) (f : Fetched) : Except EarlyFault Planned :=
  let rep : Except EarlyFault (Option Rep) := match f.bundle.pre with
    | none => .ok none
    | some w => match decodePrefix w with
      | some (.rep adv stride count) => .ok (some ⟨adv, stride, count.toNat⟩)
      | _ => .error (EarlyFault.whole causeIllopnd (w.setWidth 128))
  match rep with
  | .error e => .error e
  | .ok rep =>
    let j := if rep.isSome then repOf c.repcnt else 0
    match decodeOps rep j (f.bundle.words.map (fun p => (p.1, false, p.2)) ++ c.heldFor f.bundle.hdr.mask) [] with
    | .error e => .error e
    | .ok ops =>
      let live := match rep with | some r => decide (j < r.count) | none => true
      .ok ⟨f, rep, j, if live then ops else []⟩

end Sys2Proof.Machine
end

