-- ==== Sys2Proof/Machine/Control.lean ====
section
/-! DEFINITION. The B slot (R125 to R140): branches, the loop buffer and its back-edge, waits, barriers, fences, traps,
regions, graph and node control; and the kernel-iteration boundary (R16, R293, R309). -/

namespace Sys2Proof.Machine

/-! ### Nodes and slices -/

/-- The indices of linear index L (R282): each dimension that PERM names, with its index. -/
def loopIndices (exts : List Nat) : List Nat → Nat → List (Nat × Nat)
  | [], _ => []
  | d :: ds, r => (d, r % exts.getD d 1) :: loopIndices exts ds (r / exts.getD d 1)

/-- x(d) of an iteration; an empty slice and the dimensions beyond the depth read 0 (R17). -/
def Node.index (n : Node) (l : Option Nat) (d : Nat) : BitVec 32 :=
  match l with
  | some l => BitVec.ofNat 32 (((loopIndices n.exts n.perm l).find? (fun p => p.1 == d)).map Prod.snd |>.getD 0)
  | none => 0

/-! ### The kernel-iteration boundary -/

/-- A floating-point trap of a result that enters the IFQ (R300). -/
def Ctx.enters (c : Ctx) (f : LateFault) : Bool :=
  f.cause == causeFpx && c.flight.any (fun g => g.seq == f.seq && g.slot == f.slot && !g.landed && c.inIfq g)

/-- A kernel-iteration boundary of a context: a drain is marked (R293); for a checkpoint, issue stops and the IFQ is
filled, whose flags take no trap of their own (R300, R309), unless a trap is being handled (R302). DEDUCED (log 30). -/
def State.boundary (s : State) (c : CtxId) : State :=
  let k := s.ctx c
  match k.request with
  | .drain => s.updCtx c (fun k => { k with request := .draining })
  | .checkpoint =>
    if k.trap.isSome || k.entering.isSome then s
    else
      let s := s.settle c
      let s := s.updCtx c (fun k => { k with late := k.late.filter (fun f => !k.enters f) })
      let r := s.capture c
      r.1.updCtx c (fun k => { k with request := .saving, ifq := r.2 })
  | _ => s

/-- Whether a kernel runs: a LOOP of a trap handler is none of the kernel's (R16). -/
def Ctx.inKernel (c : Ctx) : Bool :=
  match c.slice with
  | some sl => sl.phase == .kernel && c.trap.isNone
  | none => false

/-! ### The loop buffer (R126 to R128) -/

/-- The control word and the stride of a dimension, as a state reads them. -/
def State.loopControl (s : State) (l : LoopSt) (d : Nat) : DWord := s.readS (l.grp + BitVec.ofNat 6 (2 * d))
def State.loopStride (s : State) (l : LoopSt) (d : Nat) : DWord := s.readS (l.grp + BitVec.ofNat 6 (2 * d + 1))

def loopCount (w : DWord) : Nat := (w.extractLsb' 0 28).toNat
def loopTarget (w : DWord) : BitVec 6 := w.extractLsb' 32 6

def LoopSt.at (l : LoopSt) (d : Nat) : Nat := (SMap.get 0 l.idx d).toNat

/-- The dimension that advances at a back-edge. -/
def LoopSt.next (l : LoopSt) (count : Nat → Nat) : Option Nat :=
  (List.range l.depth).find? (fun d => decide (l.at d + 1 < count d))

/-- The indices after dimension j advances. -/
def LoopSt.step (l : LoopSt) (j : Nat) : LoopSt :=
  { l with pos := 0, idx := SMap.put (l.idx.filter (fun p => decide (j < p.1))) j (BitVec.ofNat 28 (l.at j + 1)) }

/-- A state whose results to come belong to a context, after every slot of its last bundle. -/
def State.asLast (s : State) (c : CtxId) (slot : Nat) (f : State → State) : State :=
  { f { s with cur := c, slot := slot, heldNow := false } with cur := s.cur, slot := s.slot, heldNow := s.heldNow }

/-- A result of the last bundle that is still on its way from memory to a scalar register is discarded (R84). -/
def Ctx.overtake (c : Ctx) (r : BitVec 6) : Ctx :=
  { c with ops := c.ops.map (fun o => if o.seq = c.seq ∧ o.interlocks = some r then o.unanswered else o) }

/-- The stride add: an S-slot operation that comes after every slot of the last bundle. DEDUCED (log 24). -/
def State.addStride (s : State) (c : CtxId) (r : BitVec 6) (v : DWord) : State :=
  if r = 0 then s else (s.updCtx c (fun k => k.overtake r)).asLast c 8 (fun s => s.putS 1 r v 0)

/-- The loop indices of a linear index go to x registers, after every slot of the bundle (R17, R282). -/
def State.writeIndices (s : State) (c : CtxId) (n : Node) (l : Option Nat) (ds : List Nat) : State :=
  s.asLast c 9 (fun s => ds.foldl (fun s d => s.putX 1 (BitVec.ofNat 4 d) (n.index l d)) s)

/-- A kernel pass of a context ends at a kernel-iteration boundary, and the next one opens with its indices where
`more` says so (R16, R17). DEDUCED (log 30). -/
def State.endPass (s : State) (c : CtxId) (more : Bool) : State :=
  match (s.ctx c).slice with
  | none => s
  | some sl =>
    let iter := if sl.passOpen then sl.iter + 1 else sl.iter
    let s := s.updCtx c (fun k => { k with slice := some { sl with iter := iter, passOpen := more } })
    let s := if more then
        (match s.nodeOf sl.graph sl.node with
         | some n => s.writeIndices c n (some (sl.first + iter)) (List.range 6)
         | none => s)
      else s
    s.boundary c

/-- The back-edge that the registers give as a state reads them. DEDUCED (log 24). -/
def State.edgeOf (s : State) : Edge :=
  let l := s.here.loop
  match l.next (fun d => loopCount (s.loopControl l d)) with
  | none => ⟨none, 0, 0⟩
  | some j =>
    let t := loopTarget (s.loopControl l j)
    ⟨some j, t, s.readS t + s.loopStride l j⟩

/-- A back-edge that is due takes effect (R127). DEDUCED (log 24). DEDUCED (log 30). -/
def State.backEdge (s : State) (c : CtxId) : State :=
  let k := s.ctx c
  let l := k.loop
  match k.edge with
  | none => s
  | some e =>
    match e.dim with
    | none =>
      let s := s.updCtx c (fun k => { k with loop := { l with depth := 0 }, edge := none })
      if k.inKernel then s.endPass c false else s
    | some j =>
      let s := s.addStride c e.target e.value
      let s := s.updCtx c (fun k => { k with loop := l.step j, edge := none, pc := l.body, npc := l.body })
      if k.inKernel && j + 1 == l.depth then s.endPass c true else s

/-- A bundle of a loop body is past: the position moves on, or its back-edge is due. DEDUCED (log 24). -/
def Ctx.pastBody (c : Ctx) (e : Edge) : Ctx :=
  if c.loop.depth = 0 then c
  else if c.loop.len.toNat ≤ c.loop.pos then { c with edge := some e }
  else { c with loop := { c.loop with pos := c.loop.pos + 1 } }

/-- A LOOP that a kernel runs after an earlier one has ended opens a kernel pass of the next iteration (R16).
DEDUCED (log 30). -/
def State.openPass (s : State) : State :=
  let c := s.cur
  match s.here.slice with
  | none => s
  | some sl =>
    if s.here.inKernel = false ∨ sl.passOpen then s
    else
      let s := s.upd (fun k => { k with slice := some { sl with passOpen := true } })
      match s.nodeOf sl.graph sl.node with
      | some n => s.writeIndices c n (some (sl.first + sl.iter)) (List.range 6)
      | none => s

/-- LOOP takes effect: the body is skipped when a count is 0 (R127). DEDUCED (log 24). -/
def State.startLoop (s : State) (len : BitVec 5) (depth : Nat) (a : BitVec 6) : State :=
  let zero := (List.range depth).any (fun d => loopCount (s.readS (a + BitVec.ofNat 6 (2 * d))) == 0)
  let after := s.skipBundles s.cur.core (len.toNat + 1) s.here.npc
  if zero then s.upd (fun k => { k with npc := after })
  else s.openPass.upd (fun k => { k with loop := ⟨depth, len, 0, a, k.npc, []⟩ })

/-! ### Transfers (R125, R67, R128) -/

/-- The target of an offset form. -/
def State.target (s : State) (o : BitVec 20) : DWord := s.here.pc + 4 * o.signExtend 64

/-- A taken transfer ends every hold and an active loop. DEDUCED (log 24). -/
def State.transfer (s : State) (a : DWord) : State :=
  s.upd (fun k => { k with npc := a, held := [], loop := { k.loop with depth := 0 }, edge := none })

/-- A scalar result of the B slot, the first in MASK order: a copy slot of the bundle that waits for the same register
replaces it (R84). DEDUCED (log 35). -/
def State.putFirst (s : State) (lat : Nat) (r : BitVec 6) (v : DWord) : State :=
  if s.here.ops.any (fun o => o.id / 16 == s.freshId / 16 && o.interlocks == some r) then s else s.putS lat r v 0

/-! ### Barriers (R130) -/

/-- The operations of a context whose effects an arrival or a message to Keystone releases have all performed.
DEDUCED (log 42). -/
def State.allPerformed (s : State) (c : CtxId) (before : Nat) : Bool :=
  (s.pends c).all (fun p => decide (before ≤ p.id))

/-- The participants of a barrier, once it completes. -/
def Barrier.releases (b : Barrier) (n : BitVec 4) (c : CtxId) (x : Ctx) : Bool :=
  b.mask.getLsbD (c.core % 8) && x.runs b.graph b.node && (x.arrived.find n.toNat).isSome

/-- A barrier has completed for a context: a bundle that waits there may go on, and an abandoned arrival ends. -/
def Ctx.release (c : Ctx) (n : BitVec 4) : Ctx :=
  match c.arrived.find n.toNat with
  | some a =>
    { c with arrived := if a.waits then c.arrived.put n.toNat { a with passed := true } else c.arrived.erase n.toNat }
  | none => c

/-- The arrival of the BAR bundle at hand, when it has arrived already. -/
def Ctx.arrivedHere (c : Ctx) (n : BitVec 4) : Option Arrival :=
  (c.arrived.find n.toNat).filter (fun a => a.waits && a.pc == c.pc)

/-- Whether the BAR bundle at hand may go on. -/
def Ctx.passed (c : Ctx) (n : BitVec 4) : Bool :=
  match c.arrivedHere n with
  | some a => a.passed
  | none => false

/-- A context arrives: none on a mismatch. DEDUCED (log 42). -/
def State.arrive (s : State) (c : CtxId) (b : BitVec 4) (mask : BitVec 8) : Option State :=
  match (s.ctx c).slice with
  | none => some s
  | some sl =>
    let n := courseOf c.core
    let co := s.course n
    let bit : BitVec 8 := 1#8 <<< (c.core % 8)
    let bound : Option Barrier := match SMap.get none co.barriers b.toNat with
      | none => some ⟨sl.graph, sl.node, mask, bit⟩
      | some r =>
        if r.graph ≠ sl.graph ∨ r.node ≠ sl.node ∨ r.mask ≠ mask ∨ r.arrived &&& bit ≠ 0 then none
        else some { r with arrived := r.arrived ||| bit }
    match bound with
    | none => none
    | some r =>
      let s := (s.updCtx c (fun k => { k with arrived := k.arrived.put b.toNat ⟨k.pc, true, false⟩ })).sync (.ctx c) s.stepId
        (.arrive n b.toNat)
      if r.arrived = r.mask then
        let s := s.setCourse n { co with barriers := SMap.setD none co.barriers b.toNat none }
        some ((courseCtxs n).foldl (fun s w =>
          if r.releases b w (s.ctx w) then
            (s.updCtx w (fun k => k.release b)).sync (.ctx w) s.stepId (.complete n b.toNat)
          else s) s)
      else some (s.setCourse n { co with barriers := SMap.setD none co.barriers b.toNat (some r) })

/-- The BAR bundle at hand leaves its barrier. -/
def Ctx.leave (c : Ctx) (n : BitVec 4) : Ctx := { c with arrived := c.arrived.erase n.toNat }

/-- BAR: a context whose barrier has completed goes on; another one arrives, once its earlier operations have performed
(R249), and waits. DEDUCED (log 42). -/
def State.bar (s : State) (b : BitVec 4) (mask : BitVec 8) : State :=
  let k := s.here
  if k.passed b then s.upd (fun k => k.leave b)
  else if (k.arrivedHere b).isSome || !s.allPerformed s.cur (16 * (s.tick + 1)) then s
  else match s.arrive s.cur b mask with
    | some s => if s.here.passed b then s.upd (fun k => k.leave b) else s
    | none => s.raise s.cur 0 false causeBarmis (b.setWidth 128) 0

/-! ### Phases of a slice (R16, R17, R137, R138) -/

/-- The next phase of a slice: the next kernel pass, or the epilogue (R16, R137); a kernel pass ends at a boundary.
DEDUCED (log 30). -/
def State.enterPhase (s : State) (c : CtxId) (sl : Slice) (n : Node) (iter : Nat) (more : Bool) : State :=
  let s := s.upd (fun k => { k with
    slice := some { sl with iter := iter, phase := if more then .kernel else .epilogue, passOpen := more }
    held := []
    npc := if more then n.ker else n.epi })
  if sl.phase = .kernel then s.boundary c else s

/-- YIELD: the next phase, its indices and its address. -/
def State.endPhase (s : State) : State :=
  let c := s.cur
  match s.here.slice with
  | none => s
  | some sl =>
    match s.nodeOf sl.graph sl.node with
    | none => s
    | some n =>
      let iter := if sl.phase = .kernel ∧ sl.passOpen then sl.iter + 1 else sl.iter
      let more := decide (iter < sl.count)
      let l : Option Nat :=
        if more then some (sl.first + iter) else if sl.count = 0 then none else some (sl.first + sl.count - 1)
      (s.writeIndices c n l (List.range 6)).enterPhase c sl n iter more

/-- Whether a context has an array operation that is not complete. -/
def State.hasArray (s : State) (c : CtxId) : Bool := (s.core c.core).aq.any (fun a => a.one == c.one)

/-- Whether everything that a context issued has completed (R138, R250); a stopped one does not wait for its rings.
DEDUCED (log 33). -/
def State.settled (s : State) (c : CtxId) : Bool :=
  let k := s.ctx c
  k.ops == [] && !s.hasArray c && k.copies.all (fun p =>
    match p.2 with
    | .running q => (match q.kind with | .ring _ => k.request == .stopped | _ => false)
    | _ => true)

/-- NDONE has retired: the context is free (R138). -/
def State.retired (s : State) (c : CtxId) : State :=
  let s := s.landWrites c
  let s := match (s.ctx c).slice with
    | some sl => (s.updNode sl.graph sl.node (fun n => { n with unretired := n.unretired - 1 })).sync (.ctx c) s.stepId
        (.ndone sl.graph sl.node)
    | none => s
  let n := courseOf c.core
  (s.setCourse n { s.course n with idleSince := s.tick }).updCtx c (fun k => { k with
    slice := none
    request := .none
    held := []
    flight := []
    ifq := []
    late := []
    l := [] })

/-- NDONE retires once what the slots of its own bundle issued has completed (R138). DEDUCED (log 36). -/
def State.retire (s : State) (c : CtxId) : State :=
  if s.settled c && (s.ctx c).late == [] && !(s.ctx c).pendingLanding then s.retired c
  else s.updCtx c (fun k => { k with request := .retiring })

/-- A context that an NDONE has ended retires when it can. -/
def State.retireDue (s : State) (c : CtxId) : State := if (s.ctx c).request = .retiring then s.retire c else s

/-! ### Messages to Keystone (R135, R136) -/

/-- DESIGN CHOICE (log 48). -/
def State.post (s : State) (f : Option Behind → Nat → KsMsg) : State :=
  match s.spaceOf s.cur.core with
  | some sp => { s with ksq := s.ksq ++ [f (some ⟨s.cur, s.freshId, false⟩) sp] }
  | none => s

/-! ### The statistics queue (R140) -/

def State.popSq (s : State) (r : BitVec 6) : State :=
  let v := s.myCore.sq.headD 0
  let s := s.updCore s.cur.core (fun k => { k with sq := k.sq.drop 1 })
  (s.putFirst 2 r (v.extractLsb' 0 64)).putFirst 2 (r + 1) (v.extractLsb' 64 64)

/-! ### The instructions -/

/-- BR (R125). -/
def execBr (u : Grd) (o : BitVec 20) (s : State) : Host.Outcome State Fault Refusal :=
  issue (.br u o) s (fun s => s.transfer (s.target o))

/-- JMP (R125). -/
def execJmp (u : Grd) (r : BitVec 6) (s : State) : Host.Outcome State Fault Refusal :=
  issue (.jmp u r) s (fun s => s.transfer (s.readS r))

/-- CALL (R125). -/
def execCall (u : Grd) (o : BitVec 20) (s : State) : Host.Outcome State Fault Refusal :=
  issue (.call u o) s (fun s => (s.putFirst 1 63 s.here.npc).transfer (s.target o))

/-- RET (R125). -/
def execRet (u : Grd) (s : State) : Host.Outcome State Fault Refusal :=
  issue (.ret u) s (fun s => s.transfer (s.readS 63))

/-- LOOP (R126). -/
def execLoop (u : Grd) (l : BitVec 5) (d : BitVec 3) (a : BitVec 6) (s : State) : Host.Outcome State Fault Refusal :=
  issue (.loop u l d a) s (fun s => s.startLoop l (d.toNat + 1) a)

/-- WAIT (R129): what it waits for makes its bundle not ready. Of a copy it sees the completion and orders nothing else
(R131). -/
def execWait (u : Grd) (k : BitVec 2) (m : BitVec 16) (s : State) : Host.Outcome State Fault Refusal :=
  issue (.wait u k m) s (fun s =>
    if k = 0 then s.notePlain (.ctx s.cur) s.freshId (.waited m) 0 [] else s)

/-- BAR (R130). -/
def execBar (u : Grd) (b : BitVec 4) (m : BitVec 8) (s : State) : Host.Outcome State Fault Refusal :=
  issue (.bar u b m) s (fun s => s.bar b m)

/-- FENCE (R131): a mask of 0 orders nothing. -/
def execFence (u : Grd) (sc : BitVec 3) (m : BitVec 16) (s : State) : Host.Outcome State Fault Refusal :=
  issue (.fence u sc m) s (fun s => if m = 0 then s else s.memOp 0 0 sc 0 0 0 [] (.fence m sc))

/-- TRAP (R132). -/
def execTrap (u : Grd) (c : BitVec 16) (s : State) : Host.Outcome State Fault Refusal :=
  issue (.trap u c) s (fun s => (s.backEdge s.cur).raiseAfter s.cur causeSwtrap (c.setWidth 32) s.here.pc)

/-- ERET (R303). -/
def execEret (u : Grd) (s : State) : Host.Outcome State Fault Refusal :=
  issue (.eret u) s (fun s => s.returnFromTrap s.cur)

/-- SETPRI (R133). -/
def execSetpri (u : Grd) (c : BitVec 2) (s : State) : Host.Outcome State Fault Refusal :=
  issue (.setpri u c) s (fun s => s.upd (fun k => { k with own := c }))

/-- CTN.OPEN (R134). -/
def execCtnOpen (u : Grd) (o : BitVec 20) (s : State) : Host.Outcome State Fault Refusal :=
  issue (.ctnOpen u o) s (fun s => s.upd (fun k => { k with
    hand := SMap.setD 0 k.hand k.depth.toNat ((s.target o).extractLsb' 0 56 |>.setWidth 64)
    depth := k.depth + 1 }))

/-- CTN.CLOSE (R134). -/
def execCtnClose (u : Grd) (s : State) : Host.Outcome State Fault Refusal :=
  issue (.ctnClose u) s (fun s => s.upd (fun k => { k with
    depth := k.depth - 1
    trap := k.trap.map (fun t => { t with floor := if k.depth - 1 < t.floor then k.depth - 1 else t.floor }) }))

/-- GLAUNCH (R135). -/
def execGlaunch (u : Grd) (r : BitVec 6) (s : State) : Host.Outcome State Fault Refusal :=
  issue (.glaunch u r) s (fun s => s.post (fun b sp => .launch b sp (s.readS r)))

/-- BEAD (R136). -/
def execBead (u : Grd) (r t : BitVec 6) (s : State) : Host.Outcome State Fault Refusal :=
  issue (.bead u r t) s (fun s => s.post (fun b sp => .bead b sp (s.readS r) t.toNat))

/-- NDONE (R138). DEDUCED (log 36). -/
def execNdone (u : Grd) (s : State) : Host.Outcome State Fault Refusal :=
  issue (.ndone u) s (fun s => s.retire s.cur)

/-- YIELD (R137). -/
def execYield (u : Grd) (s : State) : Host.Outcome State Fault Refusal :=
  issue (.yield u) s (fun s => s.endPhase)

/-- HALT (R139). -/
def execHalt (u : Grd) (s : State) : Host.Outcome State Fault Refusal :=
  issue (.halt u) s (fun s => (s.backEdge s.cur).raiseAfter s.cur causeHalt 0 s.here.pc)

/-- SQRD (R140). -/
def execSqrd (u : Grd) (r : BitVec 6) (s : State) : Host.Outcome State Fault Refusal :=
  issue (.sqrd u r) s (fun s => s.popSq r)

end Sys2Proof.Machine
end

