-- ==== Sys2Proof/Machine/Elementary.lean ====
section
/-! DEFINITION. The special functions (R147): 2^a and log2(a) to a fixed number of bits far beyond what any rounding
looks at, with a last bit that marks them inexact, then one rounding. DESIGN CHOICE (log 19): the fixed precision is taken to decide
every rounding of FP32 and FP64. -/

namespace Sys2Proof.Machine

/-- Bits after the point of the fixed-point series. DESIGN CHOICE (log 19). -/
def fixBits : Nat := 1400

/-- 2 × atanh(1 / n) × 2^fixBits by its series: Σ 2 / ((2k + 1) n^(2k + 1)). `t` is 2^fixBits × 2 / n^(2k + 1). -/
def atanhSum (n2 : Nat) : Nat → Nat → Nat → Nat
  | 0, _, _ => 0
  | fuel + 1, k, t => t / (2 * k + 1) + atanhSum n2 fuel (k + 1) (t / n2)

/-- ln 2 × 2^fixBits, from 2 × atanh(1/3). -/
def ln2Fix : Nat := atanhSum 9 460 0 (2 * 2 ^ fixBits / 3)

/-- e^y × 2^fixBits for y = x / 2^fixBits in [0, 1), by its series; `t` is the k-th term. -/
def expSum (x : Nat) : Nat → Nat → Nat → Nat
  | 0, _, t => t
  | fuel + 1, k, t => t + expSum x fuel (k + 1) (t * x / 2 ^ fixBits / (k + 1))

/-- 2^f × 2^fixBits for f = x / 2^fixBits in [0, 1). DESIGN CHOICE (log 19). -/
def exp2Fix (x : Nat) : Nat := expSum (x * ln2Fix / 2 ^ fixBits) 220 0 (2 ^ fixBits)

/-- 2 × atanh(y) × 2^fixBits for y = x / 2^fixBits, |y| ≤ 1/5, by its series. -/
def atanhFix (x : Nat) : Nat → Nat → Nat → Nat
  | 0, _, _ => 0
  | fuel + 1, k, t => 2 * t / (2 * k + 1) + atanhFix x fuel (k + 1) (t * x / 2 ^ fixBits * x / 2 ^ fixBits)

/-- |log2(m × 2^e)| × 2^fixBits and its sign, for a magnitude that is no power of two: the exponent is split off so
that the rest lies from 3/4 to 3/2. DESIGN CHOICE (log 19). -/
def log2Fix (m : Nat) (e : Int) : Bool × Nat :=
  let b := Nat.log2 m
  let hi : Bool := decide (3 * 2 ^ b ≤ 2 * m)
  let x : Int := (b : Int) + e + (if hi then 1 else 0)
  -- the rest r = m / d with d = 2^b or 2^(b + 1)
  let d := if hi then 2 ^ (b + 1) else 2 ^ b
  let rneg := decide (m < d)
  let y := (if rneg then d - m else m - d) * 2 ^ fixBits / (m + d)
  let ln := atanhFix y 320 0 y
  let lg : Int := ln * 2 ^ fixBits / ln2Fix
  let v : Int := x * 2 ^ fixBits + (if rneg then -lg else lg)
  (decide (v < 0), v.natAbs)

/-- Whether m is a power of two. -/
def isPow2 (m : Nat) : Bool := m != 0 && 2 ^ Nat.log2 m == m

/-- 2^a rounded once (R147, Table 6.3). DESIGN CHOICE (log 19). -/
def Fmt.exp2 (F : Fmt) (rm : Rm) (a : Num) : Nat × Flags :=
  match F.nanOf [a] with
  | some r => r
  | none =>
    match a with
    | .inf true => (F.zero false, 0)
    | .inf false => (F.inf false, 0)
    | a =>
      let x := a.dy
      -- beyond these bounds the result overflows or lies below half the smallest subnormal
      if (Dy.mk (2 ^ F.e + 64) 0).lt x then F.round rm false 3 (2 ^ F.e + 64)
      else if x.lt ⟨-(2 ^ F.e + 64 : Int), 0⟩ then F.round rm false 3 (-(2 ^ F.e + 64 : Int))
      else
        let sh : Int := 2 ^ fixBits
        -- a × 2^fixBits; a is a multiple of 2^−1074, so this is exact
        let fx : Int := if x.m = 0 then 0 else x.m * 2 ^ (x.e + fixBits).toNat
        let n := fx / sh
        let r := fx % sh
        if r = 0 then F.round rm false 1 n
        else F.round rm false (2 * exp2Fix r.toNat + 1) (n - fixBits - 1)
    
/-- log2(a) rounded once (R147, Table 6.3). DESIGN CHOICE (log 19). -/
def Fmt.log2 (F : Fmt) (rm : Rm) (a : Num) : Nat × Flags :=
  match F.nanOf [a] with
  | some r => r
  | none =>
    match a with
    | .inf false => (F.inf false, 0)
    | .fin _ 0 _ => (F.inf true, dzF)
    | .fin false m e =>
      if isPow2 m then F.roundDy rm ⟨expOf m e, 0⟩ false
      else
        let (neg, v) := log2Fix m e
        F.round rm neg (2 * v + 1) (-(fixBits : Int) - 1)
    | _ => F.invalid

/-- 1 / a rounded once (Table 6.3). -/
def Fmt.rcp (F : Fmt) (rm : Rm) (a : Num) : Nat × Flags := F.div rm (.fin false 1 0) a

/-- 1 / sqrt(a) rounded once (Table 6.3). -/
def Fmt.rsq (F : Fmt) (rm : Rm) (a : Num) : Nat × Flags :=
  match F.nanOf [a] with
  | some r => r
  | none =>
    match a with
    | .inf false => (F.zero false, 0)
    | .fin neg 0 _ => (F.inf neg, dzF)
    | .fin false m e =>
      -- 1 / sqrt(m 2^e) = sqrt(2^(2k) / m) × 2^(−k) × 2^(−e/2), with e made even
      let odd := decide (e % 2 ≠ 0)
      let m := if odd then 2 * m else m
      let e := if odd then e - 1 else e
      let k := F.p + 6 + Nat.log2 m
      let x := 2 ^ (2 * k) / m
      let r := isqrt x
      let exact := r * r * m == 2 ^ (2 * k)
      F.round rm false (2 * r + (if exact then 0 else 1)) (-(k : Int) - e / 2 - 1)
    | _ => F.invalid

end Sys2Proof.Machine
end

