-- ==== Sys2Proof/Machine/Vector.lean ====
section
/-! DEFINITION. The V slots (ch. 6). -/

namespace Sys2Proof.Machine

/-- VADD (R144, R148). -/
def execVadd (u : Pfx) (t : BitVec 3) (d a b : BitVec 5) (f o : Bool) (s : State) : Host.Outcome State Fault Refusal :=
  issue (.vadd u t d a b f o) s (fun s => s.varith u t d a b f o Fmt.add (· + ·))

/-- VSUB (R144, R148). -/
def execVsub (u : Pfx) (t : BitVec 3) (d a b : BitVec 5) (f o : Bool) (s : State) : Host.Outcome State Fault Refusal :=
  issue (.vsub u t d a b f o) s (fun s => s.varith u t d a b f o Fmt.sub (· - ·))

/-- VMUL (R144, R148). -/
def execVmul (u : Pfx) (t : BitVec 3) (d a b : BitVec 5) (f o : Bool) (s : State) : Host.Outcome State Fault Refusal :=
  issue (.vmul u t d a b f o) s (fun s => s.varith u t d a b f o Fmt.mul (· * ·))

/-- VFMA (R144). -/
def execVfma (u : Pfx) (t : BitVec 3) (d a b : BitVec 5) (f o : Bool) (s : State) : Host.Outcome State Fault Refusal :=
  issue (.vfma u t d a b f o) s (fun s => s.vfma3 u t false d a b f o)

/-- VFMS (R144). -/
def execVfms (u : Pfx) (t : BitVec 3) (d a b : BitVec 5) (f o : Bool) (s : State) : Host.Outcome State Fault Refusal :=
  issue (.vfms u t d a b f o) s (fun s => s.vfma3 u t true d a b f o)

/-- VDIV (R144). -/
def execVdiv (u : Pfx) (t : BitVec 3) (d a b : BitVec 5) (f o : Bool) (s : State) : Host.Outcome State Fault Refusal :=
  issue (.vdiv u t d a b f o) s (fun s => s.vfp2 u t (lat64 t 14 22) d a b f o Fmt.div)

/-- VSQRT (R144). -/
def execVsqrt (u : Pfx) (t : BitVec 3) (d a : BitVec 5) (f o : Bool) (s : State) : Host.Outcome State Fault Refusal :=
  issue (.vsqrt u t d a f o) s (fun s => s.vfp1 u t (lat64 t 14 22) d a f o Fmt.sqrt)

/-- VMIN (R145, R148). -/
def execVmin (u : Pfx) (t : BitVec 3) (d a b : BitVec 5) (f : Bool) (s : State) : Host.Outcome State Fault Refusal :=
  issue (.vmin u t d a b f) s (fun s => s.vminmax u t d a b f false)

/-- VMAX (R145, R148). -/
def execVmax (u : Pfx) (t : BitVec 3) (d a b : BitVec 5) (f : Bool) (s : State) : Host.Outcome State Fault Refusal :=
  issue (.vmax u t d a b f) s (fun s => s.vminmax u t d a b f true)

/-- VABS (R146, R148). -/
def execVabs (u : Pfx) (t : BitVec 3) (d a : BitVec 5) (o : Bool) (s : State) : Host.Outcome State Fault Refusal :=
  issue (.vabs u t d a o) s (fun s => s.vsign u t d a o false)

/-- VNEG (R146, R148). -/
def execVneg (u : Pfx) (t : BitVec 3) (d a : BitVec 5) (o : Bool) (s : State) : Host.Outcome State Fault Refusal :=
  issue (.vneg u t d a o) s (fun s => s.vsign u t d a o true)

/-- VRCP (R147). -/
def execVrcp (u : Pfx) (t : BitVec 3) (d a : BitVec 5) (f o : Bool) (s : State) : Host.Outcome State Fault Refusal :=
  issue (.vrcp u t d a f o) s (fun s => s.vfp1 u t 8 d a f o Fmt.rcp)

/-- VRSQ (R147). -/
def execVrsq (u : Pfx) (t : BitVec 3) (d a : BitVec 5) (f o : Bool) (s : State) : Host.Outcome State Fault Refusal :=
  issue (.vrsq u t d a f o) s (fun s => s.vfp1 u t 8 d a f o Fmt.rsq)

/-- VEXP2 (R147). -/
def execVexp2 (u : Pfx) (t : BitVec 3) (d a : BitVec 5) (f o : Bool) (s : State) : Host.Outcome State Fault Refusal :=
  issue (.vexp2 u t d a f o) s (fun s => s.vfp1 u t 8 d a f o Fmt.exp2)

/-- VLOG2 (R147). -/
def execVlog2 (u : Pfx) (t : BitVec 3) (d a : BitVec 5) (f o : Bool) (s : State) : Host.Outcome State Fault Refusal :=
  issue (.vlog2 u t d a f o) s (fun s => s.vfp1 u t 8 d a f o Fmt.log2)

/-- VSEL (R151): vd[i] := va[i] where pc is 1, else vb[i]. -/
def execVsel (u : Pfx) (c : BitVec 4) (w : Bool) (d a b : BitVec 5) (s : State) : Host.Outcome State Fault Refusal :=
  issue (.vsel u c w d a b) s (fun s => 
    let p := s.readP c
    let x := s.readV a
    let y := s.readV b
    let e := if w then 64 else 32
    s.vmap u e (1024 / e) 2 d (fun i => (if p.getLsbD i then elem e x i else elem e y i, 0)))

/-- VAND (R149). -/
def execVand (u : Pfx) (t : BitVec 3) (d a b : BitVec 5) (s : State) : Host.Outcome State Fault Refusal :=
  issue (.vand u t d a b) s (fun s => s.vbits2 u t d a b (· &&& ·))

/-- VOR (R149). -/
def execVor (u : Pfx) (t : BitVec 3) (d a b : BitVec 5) (s : State) : Host.Outcome State Fault Refusal :=
  issue (.vor u t d a b) s (fun s => s.vbits2 u t d a b (· ||| ·))

/-- VXOR (R149). -/
def execVxor (u : Pfx) (t : BitVec 3) (d a b : BitVec 5) (s : State) : Host.Outcome State Fault Refusal :=
  issue (.vxor u t d a b) s (fun s => s.vbits2 u t d a b (· ^^^ ·))

/-- VSHL (R149). -/
def execVshl (u : Pfx) (t : BitVec 3) (d a b : BitVec 5) (s : State) : Host.Outcome State Fault Refusal :=
  issue (.vshl u t d a b) s (fun s => s.vbits2 u t d a b (fun x y => x <<< shiftAmount t y))

/-- VSHR (R149). -/
def execVshr (u : Pfx) (t : BitVec 3) (d a b : BitVec 5) (s : State) : Host.Outcome State Fault Refusal :=
  issue (.vshr u t d a b) s (fun s => s.vbits2 u t d a b (fun x y => x >>> shiftAmount t y))

/-- VASHR (R149). -/
def execVashr (u : Pfx) (t : BitVec 3) (d a b : BitVec 5) (s : State) : Host.Outcome State Fault Refusal :=
  issue (.vashr u t d a b) s (fun s => s.vbits2 u t d a b (fun x y => wrapInt (typeW t) (toIntW true (typeW t) x >>> shiftAmount t y)))

/-- VNOT (R149). -/
def execVnot (u : Pfx) (t : BitVec 3) (d a : BitVec 5) (s : State) : Host.Outcome State Fault Refusal :=
  issue (.vnot u t d a) s (fun s => s.vbits2 u t d a a (fun x _ => 2 ^ typeW t - 1 - x))

/-- VSCN (R157). -/
def execVscn (u : Pfx) (t : BitVec 3) (d a b : BitVec 5) (f o : Bool) (s : State) : Host.Outcome State Fault Refusal :=
  issue (.vscn u t d a b f o) s (fun s => s.vscale u t d a b f o)

/-- VCMPEQ (R150). -/
def execVcmpeq (u : Pfx) (t : BitVec 3) (p : BitVec 4) (a b : BitVec 5) (f : Bool) (s : State) : Host.Outcome State Fault Refusal :=
  issue (.vcmpeq u t p a b f) s (fun s => s.vcmp u t p a b f .eq)

/-- VCMPNE (R150). -/
def execVcmpne (u : Pfx) (t : BitVec 3) (p : BitVec 4) (a b : BitVec 5) (f : Bool) (s : State) : Host.Outcome State Fault Refusal :=
  issue (.vcmpne u t p a b f) s (fun s => s.vcmp u t p a b f .ne)

/-- VCMPLT (R150). -/
def execVcmplt (u : Pfx) (t : BitVec 3) (p : BitVec 4) (a b : BitVec 5) (f : Bool) (s : State) : Host.Outcome State Fault Refusal :=
  issue (.vcmplt u t p a b f) s (fun s => s.vcmp u t p a b f .lt)

/-- VCMPLE (R150). -/
def execVcmple (u : Pfx) (t : BitVec 3) (p : BitVec 4) (a b : BitVec 5) (f : Bool) (s : State) : Host.Outcome State Fault Refusal :=
  issue (.vcmple u t p a b f) s (fun s => s.vcmp u t p a b f .le)

/-- VCMPUN (R150). -/
def execVcmpun (u : Pfx) (t : BitVec 3) (p : BitVec 4) (a b : BitVec 5) (f : Bool) (s : State) : Host.Outcome State Fault Refusal :=
  issue (.vcmpun u t p a b f) s (fun s => s.vcmp u t p a b f .un)

/-- VCVT (R155, R156). -/
def execVcvt (u : Pfx) (t : BitVec 3) (d a : BitVec 5) (k : BitVec 3) (r : BitVec 2) (f o : Bool) (s : State) : Host.Outcome State Fault Refusal :=
  issue (.vcvt u t d a k r f o) s (fun s => s.vconvert u t d a k (rmField r) f o)

/-- VCVTD (R155, R156). -/
def execVcvtd (u : Pfx) (t : BitVec 3) (d a : BitVec 5) (k : BitVec 3) (f o : Bool) (s : State) : Host.Outcome State Fault Refusal :=
  issue (.vcvtd u t d a k f o) s (fun s => s.vconvert u t d a k s.rm f o)

/-- VPERM (R154). -/
def execVperm (u : Pfx) (t : BitVec 3) (d a b : BitVec 5) (s : State) : Host.Outcome State Fault Refusal :=
  issue (.vperm u t d a b) s (fun s => 
    let w := typeW t
    let x := s.readV a
    s.vbits2 u t d b b (fun y _ => if 2 ^ (w - 1) ≤ y then 0 else elem w x (y % typeN t)))

/-- VBCAST (R154). -/
def execVbcast (u : Pfx) (t : BitVec 3) (d a l : BitVec 5) (s : State) : Host.Outcome State Fault Refusal :=
  issue (.vbcast u t d a l) s (fun s => 
    let x := s.readV a
    s.vbits2 u t d a a (fun _ _ => elem (typeW t) x l.toNat))

/-- VREDADD (R158). -/
def execVredadd (u : Pfx) (t : BitVec 3) (d a : BitVec 5) (f o : Bool) (s : State) : Host.Outcome State Fault Refusal :=
  issue (.vredadd u t d a f o) s (fun s => s.vredadd u t d a f o)

/-- VREDMAX (R158). -/
def execVredmax (u : Pfx) (t : BitVec 3) (d a : BitVec 5) (f : Bool) (s : State) : Host.Outcome State Fault Refusal :=
  issue (.vredmax u t d a f) s (fun s => s.vredmm u t d a f true)

/-- VREDMIN (R158). -/
def execVredmin (u : Pfx) (t : BitVec 3) (d a : BitVec 5) (f : Bool) (s : State) : Host.Outcome State Fault Refusal :=
  issue (.vredmin u t d a f) s (fun s => s.vredmm u t d a f false)

/-- VPOPQ (R159). -/
def execVpopq (u : Pfx) (d : BitVec 5) (q : BitVec 2) (s : State) : Host.Outcome State Fault Refusal :=
  issue (.vpopq u d q) s (fun s => s.vpopq u d q)

/-- VPOPL (R160). -/
def execVpopl (u : Pfx) (d : BitVec 5) (l : BitVec 3) (s : State) : Host.Outcome State Fault Refusal :=
  issue (.vpopl u d l) s (fun s => s.vpopl u d l)

/-- VRNG (R162). -/
def execVrng (u : Pfx) (t : BitVec 3) (d a : BitVec 5) (s : State) : Host.Outcome State Fault Refusal :=
  issue (.vrng u t d a) s (fun s => 
    let w := typeW t
    let x := s.readV a
    let key := s.here.nkey
    s.vmap u w (typeN t) 3 d (fun i => (rngElem t key (elem w x i), 0)))

/-- PRUNE (R163). -/
def execPrune (u : Pfx) (d a b : BitVec 5) (k : BitVec 2) (s : State) : Host.Outcome State Fault Refusal :=
  issue (.prune u d a b k) s (fun s => s.prune u d a b k)

/-- TOPK (R164). -/
def execTopk (u : Pfx) (t : BitVec 3) (d a b : BitVec 5) (s : State) : Host.Outcome State Fault Refusal :=
  issue (.topk u t d a b) s (fun s => s.topk u t d a b)

/-- VMVS (R153): tests guard bit lane. -/
def execVmvs (u : Pfx) (r : BitVec 6) (v l : BitVec 5) (s : State) : Host.Outcome State Fault Refusal :=
  issue (.vmvs u r v l) s (fun s => s.putS 2 r ((lane32 (s.readV v) l.toNat).setWidth 64) 0)

/-- VMSV (R153): tests guard bit lane. -/
def execVmsv (u : Pfx) (r : BitVec 6) (v l : BitVec 5) (s : State) : Host.Outcome State Fault Refusal :=
  issue (.vmsv u r v l) s (fun s => s.putV 2 v ((((s.readS r).extractLsb' 0 32).setWidth 1024 : Vec) <<< (32 * l.toNat))
    (elemPart 32 (fun i => i == l.toNat)) 0)

/-- VMOVI.i32 (R152, R105, R106). -/
def execVmoviI32 (u : Pfx) (m : Bool) (d : BitVec 5) (i : BitVec 15) (s : State) : Host.Outcome State Fault Refusal :=
  issue (.vmoviI32 u m d i) s (fun s => s.vmovi u 32 d (((BitVec.ofBool m ++ i).signExtend 32).toNat, 0))

/-- VMOVI.i64 (R152, R105, R106). -/
def execVmoviI64 (u : Pfx) (m : Bool) (d : BitVec 5) (i : BitVec 15) (s : State) : Host.Outcome State Fault Refusal :=
  issue (.vmoviI64 u m d i) s (fun s => s.vmovi u 64 d (((BitVec.ofBool m ++ i).signExtend 64).toNat, 0))

/-- VMOVI.f32 (R152, R105, R106). -/
def execVmoviF32 (u : Pfx) (m : Bool) (d : BitVec 5) (i : BitVec 15) (s : State) : Host.Outcome State Fault Refusal :=
  issue (.vmoviF32 u m d i) s (fun s => s.vmovi u 32 d (immFp Fmt.f32 s.rm (BitVec.ofBool m ++ i).toNat))

/-- VMOVI.f64 (R152, R105, R106). -/
def execVmoviF64 (u : Pfx) (m : Bool) (d : BitVec 5) (i : BitVec 15) (s : State) : Host.Outcome State Fault Refusal :=
  issue (.vmoviF64 u m d i) s (fun s => s.vmovi u 64 d (immFp Fmt.f64 s.rm (BitVec.ofBool m ++ i).toNat))

/-- VMOVI.f16 (R152, R105, R106). -/
def execVmoviF16 (u : Pfx) (m : Bool) (d : BitVec 5) (i : BitVec 15) (s : State) : Host.Outcome State Fault Refusal :=
  issue (.vmoviF16 u m d i) s (fun s => s.vmovi u 16 d (immFp Fmt.f16 s.rm (BitVec.ofBool m ++ i).toNat))

/-- VMOVI.bf16 (R152, R105, R106). -/
def execVmoviBf16 (u : Pfx) (m : Bool) (d : BitVec 5) (i : BitVec 15) (s : State) : Host.Outcome State Fault Refusal :=
  issue (.vmoviBf16 u m d i) s (fun s => s.vmovi u 16 d ((BitVec.ofBool m ++ i).toNat, 0))

/-- VMOVI.h8 (R152, R105, R106). -/
def execVmoviH8 (u : Pfx) (m : Bool) (d : BitVec 5) (i : BitVec 15) (s : State) : Host.Outcome State Fault Refusal :=
  issue (.vmoviH8 u m d i) s (fun s => s.vmovi u 8 d (immFp Fmt.h8 s.rm (BitVec.ofBool m ++ i).toNat))

end Sys2Proof.Machine
end

