-- ==== Sys2Proof/Machine/Slots.lean ====
section
/-! DEFINITION. The meaning of a slot word of any class, as a bundle that issues uses it: one direct call each. What is
no slot word has no effect here. -/

namespace Sys2Proof.Machine

/-- The effect of a slot word. -/
def execSlot (i : Instr) (s : State) : Host.Outcome State Fault Refusal :=
  match i with
  | .br u o => execBr u o s
  | .jmp u r => execJmp u r s
  | .call u o => execCall u o s
  | .ret u => execRet u s
  | .loop u l d r => execLoop u l d r s
  | .wait u k m => execWait u k m s
  | .bar u b m => execBar u b m s
  | .fence u r m => execFence u r m s
  | .trap u c => execTrap u c s
  | .eret u => execEret u s
  | .setpri u c => execSetpri u c s
  | .ctnOpen u o => execCtnOpen u o s
  | .ctnClose u => execCtnClose u s
  | .glaunch u r => execGlaunch u r s
  | .bead u r t => execBead u r t s
  | .ndone u => execNdone u s
  | .yield u => execYield u s
  | .halt u => execHalt u s
  | .sqrd u r => execSqrd u r s
  | .add u d a b => execAdd u d a b s
  | .sub u d a b => execSub u d a b s
  | .mul u d a b => execMul u d a b s
  | .mulh u d a b => execMulh u d a b s
  | .mulhu u d a b => execMulhu u d a b s
  | .div u d a b => execDiv u d a b s
  | .divu u d a b => execDivu u d a b s
  | .rem u d a b => execRem u d a b s
  | .remu u d a b => execRemu u d a b s
  | .and u d a b => execAnd u d a b s
  | .or u d a b => execOr u d a b s
  | .xor u d a b => execXor u d a b s
  | .shl u d a b => execShl u d a b s
  | .shr u d a b => execShr u d a b s
  | .ashr u d a b => execAshr u d a b s
  | .sel u d a p => execSel u d a p s
  | .min u d a b => execMin u d a b s
  | .max u d a b => execMax u d a b s
  | .minu u d a b => execMinu u d a b s
  | .maxu u d a b => execMaxu u d a b s
  | .clz u d a => execClz u d a s
  | .ctz u d a => execCtz u d a s
  | .popc u d a => execPopc u d a s
  | .addi u d a i => execAddi u d a i s
  | .andi u d a i => execAndi u d a i s
  | .ori u d a i => execOri u d a i s
  | .xori u d a i => execXori u d a i s
  | .shli u d a i => execShli u d a i s
  | .shri u d a i => execShri u d a i s
  | .ashri u d a i => execAshri u d a i s
  | .movi u d i => execMovi u d i s
  | .movs u d i => execMovs u d i s
  | .rdc u r c w => execRdc u r c w s
  | .wrc u r c w => execWrc u r c w s
  | .fcmple u p a b f w => execFcmple u p a b f w s
  | .fcmpun u p a b f w => execFcmpun u p a b f w s
  | .cmpeq u p a b => execCmpeq u p a b s
  | .cmpne u p a b => execCmpne u p a b s
  | .cmplt u p a b => execCmplt u p a b s
  | .cmpltu u p a b => execCmpltu u p a b s
  | .cmple u p a b => execCmple u p a b s
  | .cmpleu u p a b => execCmpleu u p a b s
  | .fcmpeq u p a b f w => execFcmpeq u p a b f w s
  | .fcmplt u p a b f w => execFcmplt u p a b f w s
  | .faddF32 u d a b f o => execFaddF32 u d a b f o s
  | .fsubF32 u d a b f o => execFsubF32 u d a b f o s
  | .fmulF32 u d a b f o => execFmulF32 u d a b f o s
  | .ffmaF32 u d a b f o => execFfmaF32 u d a b f o s
  | .fdivF32 u d a b f o => execFdivF32 u d a b f o s
  | .fsqrtF32 u d a f o => execFsqrtF32 u d a f o s
  | .faddF64 u d a b f o => execFaddF64 u d a b f o s
  | .fsubF64 u d a b f o => execFsubF64 u d a b f o s
  | .fmulF64 u d a b f o => execFmulF64 u d a b f o s
  | .ffmaF64 u d a b f o => execFfmaF64 u d a b f o s
  | .fdivF64 u d a b f o => execFdivF64 u d a b f o s
  | .fsqrtF64 u d a f o => execFsqrtF64 u d a f o s
  | .xadd u x a b => execXadd u x a b s
  | .xaddi u x a i => execXaddi u x a i s
  | .xsub u x a b => execXsub u x a b s
  | .xshli u x a i => execXshli u x a i s
  | .xshri u x a i => execXshri u x a i s
  | .xand u x a b => execXand u x a b s
  | .xpopc u x a => execXpopc u x a s
  | .xcmpadv u x a b c f => execXcmpadv u x a b c f s
  | .xpatd u x a k => execXpatd u x a k s
  | .xbnet u x a b e => execXbnet u x a b e s
  | .xbnld u e v => execXbnld u e v s
  | .xbperm u x a b c f => execXbperm u x a b c f s
  | .xfroms u x r => execXfroms u x r s
  | .xtos u x r => execXtos u x r s
  | .xmov u x a => execXmov u x a s
  | .xmovi u x i => execXmovi u x i s
  | .vadd u t d a b f o => execVadd u t d a b f o s
  | .vsub u t d a b f o => execVsub u t d a b f o s
  | .vmul u t d a b f o => execVmul u t d a b f o s
  | .vfma u t d a b f o => execVfma u t d a b f o s
  | .vfms u t d a b f o => execVfms u t d a b f o s
  | .vdiv u t d a b f o => execVdiv u t d a b f o s
  | .vsqrt u t d a f o => execVsqrt u t d a f o s
  | .vmin u t d a b f => execVmin u t d a b f s
  | .vmax u t d a b f => execVmax u t d a b f s
  | .vabs u t d a o => execVabs u t d a o s
  | .vneg u t d a o => execVneg u t d a o s
  | .vrcp u t d a f o => execVrcp u t d a f o s
  | .vrsq u t d a f o => execVrsq u t d a f o s
  | .vexp2 u t d a f o => execVexp2 u t d a f o s
  | .vlog2 u t d a f o => execVlog2 u t d a f o s
  | .vsel u c w d a b => execVsel u c w d a b s
  | .vand u t d a b => execVand u t d a b s
  | .vor u t d a b => execVor u t d a b s
  | .vxor u t d a b => execVxor u t d a b s
  | .vnot u t d a => execVnot u t d a s
  | .vshl u t d a b => execVshl u t d a b s
  | .vshr u t d a b => execVshr u t d a b s
  | .vashr u t d a b => execVashr u t d a b s
  | .vscn u t d a b f o => execVscn u t d a b f o s
  | .vcmpeq u t p a b f => execVcmpeq u t p a b f s
  | .vcmpne u t p a b f => execVcmpne u t p a b f s
  | .vcmplt u t p a b f => execVcmplt u t p a b f s
  | .vcmple u t p a b f => execVcmple u t p a b f s
  | .vcmpun u t p a b f => execVcmpun u t p a b f s
  | .vcvt u t d a q r f o => execVcvt u t d a q r f o s
  | .vcvtd u t d a r f o => execVcvtd u t d a r f o s
  | .vperm u t d a b => execVperm u t d a b s
  | .vbcast u t d a l => execVbcast u t d a l s
  | .vredadd u t d a f o => execVredadd u t d a f o s
  | .vredmax u t d a f => execVredmax u t d a f s
  | .vredmin u t d a f => execVredmin u t d a f s
  | .vpopq u d q => execVpopq u d q s
  | .vpopl u d l => execVpopl u d l s
  | .vrng u t d a => execVrng u t d a s
  | .prune u d a b k => execPrune u d a b k s
  | .topk u t d a b => execTopk u t d a b s
  | .qnt u d a b f => execQnt u d a b f s
  | .dq u d a b o => execDq u d a b o s
  | .spenc u t d a k => execSpenc u t d a k s
  | .spdec u t d a k => execSpdec u t d a k s
  | .vmvs u r v l => execVmvs u r v l s
  | .vmsv u r v l => execVmsv u r v l s
  | .vmoviI32 u m d i => execVmoviI32 u m d i s
  | .vmoviI64 u m d i => execVmoviI64 u m d i s
  | .vmoviF32 u m d i => execVmoviF32 u m d i s
  | .vmoviF64 u m d i => execVmoviF64 u m d i s
  | .vmoviF16 u m d i => execVmoviF16 u m d i s
  | .vmoviBf16 u m d i => execVmoviBf16 u m d i s
  | .vmoviH8 u m d i => execVmoviH8 u m d i s
  | .mma u p k a b z r f o => execMma u p k a b z r f o s
  | .mmaS u p k a b z r f o => execMmaS u p k a b z r f o s
  | .mmaK4 u k a b m => execMmaK4 u k a b m s
  | .trsm u k e w l => execTrsm u k e w l s
  | .getrf u k w l => execGetrf u k w l s
  | .potrf u k w l => execPotrf u k w l s
  | .givqr u k e w => execGivqr u k e w s
  | .rotapp u k e w l => execRotapp u k e w l s
  | .accz u k => execAccz u k s
  | .accld u k d => execAccld u k d s
  | .accst u a d => execAccst u a d s
  | .drain u a q => execDrain u a q s
  | .accmov u k a => execAccmov u k a s
  | .acct u d => execAcct u d s
  | .cbld u d c => execCbld u d c s
  | .spld u d => execSpld u d s
  | .ldV u v a c o => execLdV u v a c o s
  | .stV u v a c o => execStV u v a c o s
  | .ldVs u v a c w => execLdVs u v a c w s
  | .stVs u v a c w => execStVs u v a c w s
  | .ldVx u v a b c => execLdVx u v a b c s
  | .stVx u v a b c => execStVx u v a b c s
  | .ldrL u l a c t => execLdrL u l a c t s
  | .pf u d a c => execPf u d a c s
  | .ldS u a c e r w => execLdS u a c e r w s
  | .stS u a c e r w => execStS u a c e r w s
  | .amoAdd u a c e r w => execAmoAdd u a c e r w s
  | .amoFadd u a c e r w => execAmoFadd u a c e r w s
  | .amoMin u a c e r w => execAmoMin u a c e r w s
  | .amoMax u a c e r w => execAmoMax u a c e r w s
  | .amoMinu u a c e r w => execAmoMinu u a c e r w s
  | .amoMaxu u a c e r w => execAmoMaxu u a c e r w s
  | .amoAnd u a c e r w => execAmoAnd u a c e r w s
  | .amoOr u a c e r w => execAmoOr u a c e r w s
  | .amoXor u a c e r w => execAmoXor u a c e r w s
  | .amoSwp u a c e r w => execAmoSwp u a c e r w s
  | .amoCas u a c e r w => execAmoCas u a c e r w s
  | .redAdd u a c r w => execRedAdd u a c r w s
  | .redFadd u a c r w => execRedFadd u a c r w s
  | .redMin u a c r w => execRedMin u a c r w s
  | .redMax u a c r w => execRedMax u a c r w s
  | .redAnd u a c r w => execRedAnd u a c r w s
  | .redOr u a c r w => execRedOr u a c r w s
  | .redXor u a c r w => execRedXor u a c r w s
  | .cpIn u d a i c => execCpIn u d a i c s
  | .cpOut u d a i c => execCpOut u d a i c s
  | .cpSs u d a i c => execCpSs u d a i c s
  | .rsub u d a i c => execRsub u d a i c s
  | .srel u d a c => execSrel u d a c s
  | .fpush u v a c => execFpush u v a c s
  | .fpushq u q a c r => execFpushq u q a c r s
  | .stq u q a c r => execStq u q a c r s
  | _ => .next s

/-! ### Results (R300) -/

/-- The registers that an instruction of the S, X or V slots writes (Tables 5.1 and 5.2, R123, R153, R190 to R194,
R150, R164, R205). -/
def destsOf : Instr → List Dest
  | .wrc _ _ c w => [.cr c w]
  | .add _ d _ _ => [.s d] | .sub _ d _ _ => [.s d] | .mul _ d _ _ => [.s d] | .mulh _ d _ _ => [.s d]
  | .mulhu _ d _ _ => [.s d] | .div _ d _ _ => [.s d] | .divu _ d _ _ => [.s d] | .rem _ d _ _ => [.s d]
  | .remu _ d _ _ => [.s d] | .and _ d _ _ => [.s d] | .or _ d _ _ => [.s d] | .xor _ d _ _ => [.s d]
  | .shl _ d _ _ => [.s d] | .shr _ d _ _ => [.s d] | .ashr _ d _ _ => [.s d] | .sel _ d _ _ => [.s d]
  | .min _ d _ _ => [.s d] | .max _ d _ _ => [.s d] | .minu _ d _ _ => [.s d] | .maxu _ d _ _ => [.s d]
  | .clz _ d _ => [.s d] | .ctz _ d _ => [.s d] | .popc _ d _ => [.s d] | .addi _ d _ _ => [.s d]
  | .andi _ d _ _ => [.s d] | .ori _ d _ _ => [.s d] | .xori _ d _ _ => [.s d] | .shli _ d _ _ => [.s d]
  | .shri _ d _ _ => [.s d] | .ashri _ d _ _ => [.s d] | .movi _ d _ => [.s d] | .movs _ d _ => [.s d]
  | .rdc _ d _ _ => [.s d]
  | .fcmple _ p _ _ _ _ => [.p p] | .fcmpun _ p _ _ _ _ => [.p p] | .fcmpeq _ p _ _ _ _ => [.p p]
  | .fcmplt _ p _ _ _ _ => [.p p] | .cmpeq _ p _ _ => [.p p] | .cmpne _ p _ _ => [.p p] | .cmplt _ p _ _ => [.p p]
  | .cmpltu _ p _ _ => [.p p] | .cmple _ p _ _ => [.p p] | .cmpleu _ p _ _ => [.p p]
  | .faddF32 _ d _ _ _ _ => [.s d] | .fsubF32 _ d _ _ _ _ => [.s d] | .fmulF32 _ d _ _ _ _ => [.s d]
  | .ffmaF32 _ d _ _ _ _ => [.s d] | .fdivF32 _ d _ _ _ _ => [.s d] | .fsqrtF32 _ d _ _ _ => [.s d]
  | .faddF64 _ d _ _ _ _ => [.s d] | .fsubF64 _ d _ _ _ _ => [.s d] | .fmulF64 _ d _ _ _ _ => [.s d]
  | .ffmaF64 _ d _ _ _ _ => [.s d] | .fdivF64 _ d _ _ _ _ => [.s d] | .fsqrtF64 _ d _ _ _ => [.s d]
  | .xadd _ x _ _ => [.x x] | .xaddi _ x _ _ => [.x x] | .xsub _ x _ _ => [.x x] | .xshli _ x _ _ => [.x x]
  | .xshri _ x _ _ => [.x x] | .xand _ x _ _ => [.x x] | .xpopc _ x _ => [.x x] | .xcmpadv _ x _ _ _ _ => [.x x]
  | .xpatd _ x _ _ => [.x x] | .xbnet _ x _ _ _ => [.x x, .x (x + 1)] | .xbnld _ e _ => [.bn e]
  | .xbperm _ x _ _ _ _ => [.x x] | .xfroms _ x _ => [.x x] | .xtos _ _ r => [.s r] | .xmov _ x _ => [.x x]
  | .xmovi _ x _ => [.x x]
  | .vadd _ _ d _ _ _ _ => [.v d] | .vsub _ _ d _ _ _ _ => [.v d] | .vmul _ _ d _ _ _ _ => [.v d]
  | .vfma _ _ d _ _ _ _ => [.v d] | .vfms _ _ d _ _ _ _ => [.v d] | .vdiv _ _ d _ _ _ _ => [.v d]
  | .vsqrt _ _ d _ _ _ => [.v d] | .vmin _ _ d _ _ _ => [.v d] | .vmax _ _ d _ _ _ => [.v d]
  | .vabs _ _ d _ _ => [.v d] | .vneg _ _ d _ _ => [.v d] | .vrcp _ _ d _ _ _ => [.v d] | .vrsq _ _ d _ _ _ => [.v d]
  | .vexp2 _ _ d _ _ _ => [.v d] | .vlog2 _ _ d _ _ _ => [.v d] | .vsel _ _ _ d _ _ => [.v d]
  | .vand _ _ d _ _ => [.v d] | .vor _ _ d _ _ => [.v d] | .vxor _ _ d _ _ => [.v d] | .vnot _ _ d _ => [.v d]
  | .vshl _ _ d _ _ => [.v d] | .vshr _ _ d _ _ => [.v d] | .vashr _ _ d _ _ => [.v d]
  | .vscn _ _ d _ _ _ _ => [.v d] | .vcmpeq _ _ p _ _ _ => [.p p] | .vcmpne _ _ p _ _ _ => [.p p]
  | .vcmplt _ _ p _ _ _ => [.p p] | .vcmple _ _ p _ _ _ => [.p p] | .vcmpun _ _ p _ _ _ => [.p p]
  | .vcvt _ _ d _ _ _ _ _ => [.v d] | .vcvtd _ _ d _ _ _ _ => [.v d] | .vperm _ _ d _ _ => [.v d]
  | .vbcast _ _ d _ _ => [.v d] | .vredadd _ _ d _ _ _ => [.v d] | .vredmax _ _ d _ _ => [.v d]
  | .vredmin _ _ d _ _ => [.v d] | .vpopq _ d _ => [.v d] | .vpopl _ d _ => [.v d] | .vrng _ _ d _ => [.v d]
  | .prune _ d _ _ _ => [.v d] | .topk _ _ d _ _ => [.v d, .v (d + 1)] | .qnt _ d _ _ _ => [.v d, .v (d + 1)]
  | .dq _ d _ _ _ => [.v d] | .spenc _ _ d _ _ => [.v d] | .spdec _ _ d _ _ => [.v d] | .vmvs _ r _ _ => [.s r]
  | .vmsv _ _ v _ => [.v v] | .vmoviI32 _ _ d _ => [.v d] | .vmoviI64 _ _ d _ => [.v d] | .vmoviF32 _ _ d _ => [.v d]
  | .vmoviF64 _ _ d _ => [.v d] | .vmoviF16 _ _ d _ => [.v d] | .vmoviBf16 _ _ d _ => [.v d]
  | .vmoviH8 _ _ d _ => [.v d]
  | _ => []

/-- How many results whose bound is exposed an instruction adds (R300): of the S, X, V and B slots, and of the loads. -/
def resultsOf (i : Instr) (s : State) : Nat :=
  match i with
  | .call _ _ => 1
  | .sqrd _ _ => 2
  | .ldV _ _ _ _ _ => 1
  | .ldVs _ _ _ _ _ => 1
  | .ldVx _ _ _ _ _ => 1
  | .ldS _ _ _ _ _ _ => if (accessOf i s).isOwn s.cur.core then 1 else 0
  | i => (destsOf i).length

end Sys2Proof.Machine
end

