-- ==== Sys2Proof/Machine/Bundle.lean ====
section
/-! DEFINITION. The issue of bundles: the clock of a core and what lands with it (R14, R83, R173), the bundle that a
context would issue (R82, R87), the merge stage (R19, R20, R88), the issue of a bundle with all its slots (R66, R67,
R72), and the look-ahead nullifier (R25, R86). -/

namespace Sys2Proof.Machine

/-! ### The clock (R14, R83, R173) -/

/-- Whether a load on its way has to give its value by a cycle. -/
def Ctx.loadDue (c : Ctx) (cycle : Nat) (o : MemOp) : Bool :=
  o.act == .load .flight && c.flight.any (fun f => f.src == some o.id && decide (f.due ≤ cycle))

/-- The results of a context that are due by a cycle land (R83); they stay listed until the context issues again
(R300). DEDUCED (log 3). -/
def State.landDue (s : State) (c : CtxId) (cycle : Nat) : State :=
  let s := s.performLoads c ((s.ctx c).loadDue cycle)
  let k := s.ctx c
  let now (f : Flight) : Bool := decide (f.due ≤ cycle) && !f.landed && f.src.isNone
  let s := s.landAll c (k.flight.filter now)
  s.updCtx c (fun k => { k with flight := k.flight.map (fun f => if now f then { f with landed := true } else f) })

/-- What a landing register holds once its data has arrived: the data at once where the core has waited for it, else at
the due cycle. -/
def Landing.arrive (op : Nat) (d : Vec) (late : Bool) : Landing → Landing
  | .pending o due x p => if o ≠ op then .pending o due x p else if late then .landed d 0 p else .pending o due (some d) p
  | x => x

/-- A landing register whose data has come lands at its due cycle. -/
def Landing.land : Landing → Landing
  | .pending _ _ (some d) p => .landed d 0 p
  | x => x

def Ctx.landRegister (c : Ctx) (l : Nat) : Ctx :=
  let c := match SMap.get .empty c.l l with
    | .pending _ _ (some d) _ => c.commit (.lands (.landing l) [d.toNat])
    | _ => c
  { c with l := SMap.setD .empty c.l l (SMap.get .empty c.l l).land }

/-- In plumb mode the data of a remote load has come by its due cycle (R173): the load performs, with what comes before it, and
its data arrives. -/
def State.arriveByDue (s : State) (c : CtxId) (l : Nat) (op : Nat) : State :=
  let s := s.performFor c (fun e => match e with | .op o => o.id == op | _ => false)
  match (s.ctx c).findOp op with
  | some o => s.updCtx c (fun k => { k.dropOp op with
      l := SMap.setD .empty k.l l ((SMap.get .empty k.l l).arrive op (BitVec.ofNat 1024 o.val) false) })
  | none => s

/-- A landing register at its due cycle (R173): it is landed, or the core's clock domain freezes (R14), which does not occur in
plumb mode. -/
def State.landingDue (s : State) (c : CtxId) (l : Nat) : State :=
  match SMap.get .empty (s.ctx c).l l with
  | .pending op due data _ =>
    if (s.core c.core).cycle + 1 < due then s
    else match data with
      | some _ => s.updCtx c (fun k => k.landRegister l)
      | none =>
        if (s.course (courseOf c.core)).plumb then (s.arriveByDue c l op).updCtx c (fun k => k.landRegister l)
        else if (s.core c.core).frozen.isSome then s
        else s.updCore c.core (fun k => { k with frozen := some (c.one, BitVec.ofNat 3 l, 0) })
  | _ => s

/-- Every landing register of a core whose due cycle comes. -/
def State.landingsDue (s : State) (n : Nat) : State :=
  let s := (List.range 8).foldl (fun s l => s.landingDue ⟨n, false⟩ l) s
  (List.range 8).foldl (fun s l => s.landingDue ⟨n, true⟩ l) s

/-- What the odd core of a twin pair follows: the even core's contexts before its last three cycles (R347, R348).
DEDUCED (log 16). -/
def Core.follow (k : Core) (even : Bool) : List (Ctx × Ctx) :=
  if even then ((k.ctx0, k.ctx1) :: k.pair).take 3 else []

/-- A cycle of a core begins, and what is due lands. -/
def State.tickCore (s : State) (n : Nat) : State :=
  let even := (s.course (courseOf n)).twin && n % 2 == 0
  let s := s.updCore n (fun k => { k with
    cycle := k.cycle + 1, pair := k.follow even, ctx0 := { k.ctx0 with did := [] }, ctx1 := { k.ctx1 with did := [] } })
  let t := (s.core n).cycle
  (s.landDue ⟨n, false⟩ t).landDue ⟨n, true⟩ t

/-! ### The bundle at the head of a context -/

/-- What a context offers in a cycle: nothing, a fault that stops its next bundle, with the repetition where the bundle
carries a repeat prefix, or a ready bundle with its slots that are not wholly guarded off. -/
inductive Head where
  | idle
  | fault (f : EarlyFault) (rep : Option Nat) (atIssue : Bool)
  | ready (p : Planned) (acting : List SlotOp)
  deriving DecidableEq, Repr

/-- Whether a context may issue at all in a cycle. -/
def Ctx.mayIssue (c : Ctx) (cycle : Nat) : Bool :=
  c.slice.isSome && c.entering.isNone && c.edge.isNone && decide (c.stallUntil ≤ cycle) &&
    (match c.request with
     | .stopped => false
     | .saving => false
     | .retiring => false
     | .kill k => !(c.lastIb || decide (k + 512 ≤ cycle))
     | _ => true)

/-- A slot of a bundle, as the state reads for it. -/
def State.atSlot (s : State) (o : SlotOp) : State := { s with slot := o.slot, heldNow := o.held }

/-- The entries that earlier slots of a bundle pop are gone for a later one (R161). -/
def State.afterPops (s : State) (acting : List SlotOp) (o : SlotOp) : State :=
  let qs := (acting.filter (fun e => decide (e.slot < o.slot))).filterMap (fun e => popsOf e.instr)
  if qs = [] then s.atSlot o
  else (s.upd (fun k => { k with q := qs.foldl (fun m q => SMap.setD [] m q.toNat ((SMap.get [] m q.toNat).drop 1)) k.q })).atSlot o

/-- The slots that are not wholly guarded off (R24). -/
def State.acting (s : State) (ops : List SlotOp) : List SlotOp :=
  ops.filter (fun o => !(s.atSlot o).guardedOff o.cl o.word)

/-- Slots in MASK order. -/
def inMaskOrder (ops : List SlotOp) : List SlotOp :=
  (List.range 8).filterMap (fun k => ops.find? (fun o => o.slot == k))

/-- Whether the nullifier drops a bundle (R25, R86). -/
def State.droppable (s : State) (p : Planned) (acting : List SlotOp) : Bool :=
  let k := s.here
  p.rep.isNone && p.ops != [] && acting == [] && p.ops.all (fun o =>
    match k.pw.find (grdOf o.word).g.toNat with
    | none => true
    | some w => decide (w + 2 ≤ k.pos + 1))

/-- The back-edge reads the loop group and the targets with the last body bundle: none of them waits for an interlocked
result (R87, R127). DEDUCED (log 24). -/
def State.edgeReady (s : State) : Bool :=
  let k := s.here
  let l := k.loop
  if l.depth = 0 ∨ l.pos < l.len.toNat then true
  else !(overlaps k.locked ((List.range (2 * l.depth)).map (fun i => l.grp.toNat + i) ++
    (List.range l.depth).map (fun d => (loopTarget (s.loopControl l d)).toNat)))

/-- The results that the slots of a bundle add (R300). DEDUCED (log 35). -/
def State.added (s : State) (acting : List SlotOp) : Nat :=
  acting.foldl (fun n o => n + resultsOf o.instr (s.atSlot o)) 0

/-- The limit of 64 results whose bounds have not elapsed (R300), with those that the bundle adds, and those that wait to be
injected among them. DEDUCED (log 35). -/
def State.underLimit (s : State) (acting : List SlotOp) : Bool :=
  let k := s.here
  decide ((k.flight.filter (fun f => decide (s.cycle < f.due))).length + k.ifq.length + s.added acting ≤ 64)

/-- The scoreboard conditions of a whole bundle (R87, R159, R300). DEDUCED (log 35). -/
def State.bundleReady (s : State) (acting : List SlotOp) : Bool :=
  let k := s.here
  let pops (q : Nat) : Nat := (acting.filter (fun o => popsOf o.instr == some (BitVec.ofNat 2 q))).length
  s.underLimit acting && s.edgeReady &&
    acting.all (fun o => slotReady o.cl o.word o.instr (s.afterPops acting o)) &&
    (List.range 4).all (fun q => k.oldestWritten (BitVec.ofNat 2 q) (pops q))

/-- A remote load. -/
def isRemote (o : SlotOp) : Bool :=
  match o.instr with
  | .ldrL _ _ _ _ _ => true
  | _ => false

/-- Two remote loads in one bundle of a plumb course (R339). -/
def State.plumbPair (s : State) (acting : List SlotOp) : Bool :=
  (s.course (courseOf s.cur.core)).plumb && decide (2 ≤ (acting.filter isRemote).length)

/-- The issue-time fault of a bundle that ranks first (R82); two remote loads of a plumb bundle are reported at C1 (R339).
DEDUCED (log 25). -/
def State.bundleFault (s : State) (acting : List SlotOp) : Option EarlyFault :=
  let q := queueFault s.here (inMaskOrder acting)
  acting.findSome? (fun o =>
    let own := if o.slot = 7 ∧ s.plumbPair acting then some (causeIllopnd, o.orig.setWidth 128)
      else issueFault o.cl o.orig o.instr (s.atSlot o)
    match own, q with
    | some f, _ => some ⟨o.slot, o.held, f.1, f.2⟩
    | none, some (k, r) => if k = o.slot then some ⟨o.slot, o.held, causeQueue, r.setWidth 128⟩ else none
    | none, none => none)

/-- The barrier and the mask of a bundle's BAR. -/
def barOf (acting : List SlotOp) : Option (BitVec 4 × BitVec 8) :=
  acting.findSome? (fun o => match o.instr with | .bar _ b m => some (b, m) | _ => none)

/-- The copy ids or classes that a bundle names: those of its WAIT of kind post, or all with an NDONE. -/
def classesNamed (acting : List SlotOp) : BitVec 16 :=
  acting.foldl (fun m o => m ||| namedBy o.instr) 0

/-- A bundle whose other conditions hold: where it has a BAR, the context arrives, and it is ready once the barrier has
completed (R130). -/
def State.atBarrier (s : State) (c : CtxId) (p : Planned) (acting : List SlotOp) (rep : Option Nat) : State × Head :=
  match barOf acting with
  | none => (s, .ready p acting)
  | some (b, m) =>
    let k := s.ctx c
    if k.passed b then (s, .ready p acting)
    else if (k.arrivedHere b).isSome || !s.allPerformed c (16 * (s.tick + 1)) then (s, .idle)
    else match s.arrive c b m with
      | none => (s, .fault ⟨0, false, causeBarmis, b.setWidth 128⟩ rep true)
      | some s => (s, if (s.ctx c).passed b then .ready p acting else .idle)

/-- The commands of a bundle up to the slot that faults have read their blocks, and found the errors of them (R258).
DESIGN CHOICE (log 60). -/
def State.seeBlocks (s : State) (acting : List SlotOp) (slot : Nat) : State :=
  (acting.filter (fun o => decide (o.slot ≤ slot))).foldl (fun s o => (s.atSlot o).seeBlock o.instr) s

/-- What a bundle in hand offers (R82, R87). -/
def State.headOf (s : State) (c : CtxId) (f : Fetched) : State × Head :=
  let s := { s with cur := c }
  let rep := if f.bundle.hdr.repx then some (repOf s.here.repcnt) else none
  match s.here.plan f with
  | .error e => (s, .fault e rep false)
  | .ok p =>
    let acting := s.acting p.ops
    if s.droppable p acting then (s, .idle)
    else if !s.underLimit acting && s.here.ifq != [] then (s.upd (fun k => k.inject s.cycle), .idle)
    else if !s.bundleReady acting then (s, .idle)
    else
      let s := acting.foldl (fun s o => s.settleBlocks o.instr) s
      match s.bundleFault acting with
      | some e => ((s.seeBlocks acting e.slot).upd (fun k => { k with named := classesNamed acting }), .fault e rep true)
      | none => s.atBarrier c p acting rep

/-- What a context offers. -/
def State.head (s : State) (c : CtxId) : State × Head :=
  let k := s.ctx c
  if !k.mayIssue (s.core c.core).cycle then (s, .idle)
  else match s.fetchBundle c.core k.pc with
    | .error e => (s, .fault e (if k.repcnt = 0 then none else some (repOf k.repcnt)) false)
    | .ok f => s.headOf c f

/-! ### Issue -/

/-- The predicate that a word writes; p0 discards a write and counts as never written (R27, R86). -/
def predWritten (cl : SlotClass) (w : Word) : Option Nat :=
  let o := opcOf w
  let r := match cl with
    | .s => if inR 0x23 0x24 o || inR 0x28 0x2F o then (w.extractLsb' 16 4).toNat else 0
    | .v => if inR 0x18 0x1C o then (w.extractLsb' 13 4).toNat else 0
    | _ => 0
  if r = 0 then none else some r

/-- Whether a bundle's last repetition issues. -/
def Planned.last (p : Planned) : Bool :=
  match p.rep with
  | none => true
  | some r => decide (r.count ≤ p.j + 1)

/-- The held words after a bundle supplies its slots (R67). -/
def Ctx.supply (c : Ctx) (p : Planned) : SMap Word :=
  p.f.bundle.words.foldl (fun h w => if w.2.getLsbD 31 then SMap.put h w.1 w.2 else SMap.erase h w.1) c.held

/-- REPCNT at repetition j (R72). -/
def repcntAt (j : Nat) : BitVec 32 := BitVec.ofNat 32 (j + 0x10000)

/-- The context at the issue of a bundle: results long past leave the list, an IFQ that waits is injected (R304), the
bundle takes its place in program order, one with COUNT 0 as any, and what follows it is known but for its branches.
DESIGN CHOICE (log 63). DESIGN CHOICE (log 77). -/
def Ctx.begin (c : Ctx) (cycle stall : Nat) (p : Planned) (acting : List SlotOp) : Ctx :=
  let c := { c with flight := c.flight.filter (fun f => !(f.landed && decide (f.due ≤ cycle + 1))) }
  let c := if c.ifq = [] then c else c.inject cycle
  let c := if c.lastIssue.isNone then c.stopUntil cycle else c
  { c.commit (.bundle c.pc (p.ops.map (fun o => (o.slot, o.word)))) with
    seq := c.seq + 1
    pos := c.pos + 1
    lastIssue := some cycle
    lastIb := p.f.bundle.hdr.ib
    stallUntil := if stall = 0 then c.stallUntil else cycle + 1 + stall
    held := c.supply p
    pw := acting.foldl (fun m o => match predWritten o.cl o.word with | some q => SMap.put m q (c.pos + 1) | none => m) c.pw
    repcnt := if p.rep.isSome then repcntAt p.j else 0
    npc := if p.last then c.pc + BitVec.ofNat 64 p.f.size else c.pc }

/-- The own-slab granules that the copy slots of a bundle access at issue (R33, R87). -/
def State.granulesOf (s : State) (acting : List SlotOp) : List Nat :=
  acting.flatMap (fun o => issueGranules o.instr (s.afterPops acting o))

/-- The machine at the issue of a bundle. -/
def State.beginIssue (s : State) (c : CtxId) (p : Planned) (acting : List SlotOp) : State :=
  let s := { s with cur := c }
  let stall := stallOf (acting.any (fun o => isCounted o.instr)) (s.granulesOf acting)
  let s := if stall = 0 then s else s.record c.core (sqRecord c.one 0x01 s.here.pc stall)
  let s := s.upd (fun k => k.begin (s.core c.core).cycle stall p acting)
  { s with stall := stall, granted := true }

/-- A slot issues. -/
def State.runSlot (s : State) (o : SlotOp) : State :=
  match execSlot o.instr (s.atSlot o) with
  | .next t => t
  | _ => s

/-- After the slots but B: the bundle is past its place in a loop body and in its repetitions. -/
def Ctx.past (c : Ctx) (p : Planned) (e : Edge) : Ctx :=
  let c := { c with repcnt := if p.last then 0 else repcntAt (p.j + 1) }
  if p.last then c.pastBody e else c

/-- The end of an issue: control goes where the bundle says. -/
def State.endIssue (s : State) (c : CtxId) : State :=
  { s.updCtx c (fun k => { k with pc := k.npc }) with granted := false, slot := 0, heldNow := false, stall := 0 }

/-- The bytes of a bundle that a context has fetched (R64): a plain read of no class (Table 10.1). -/
def State.noteFetch (s : State) (c : CtxId) (pc : DWord) (size : Nat) : State :=
  let keys := match s.spaceOf c.core with
    | some sp => (match s.translateRange sp .fetch (pc.toNat % 2 ^ 56) size with | .ok ks => ks | .error _ => [])
    | none => []
  s.notePlain (.ctx c) s.stepId .read 0 keys

/-- A bundle issues: all its slots in one cycle, the B slot's effects on control after the reads of the others (R66). -/
def State.issueBundle (s : State) (c : CtxId) (p : Planned) (acting : List SlotOp) : State :=
  let ops := inMaskOrder acting
  let s := (s.noteFetch c (s.ctx c).pc p.f.size).beginIssue c p acting
  let e := s.edgeOf
  let s := (ops.filter (fun o => o.slot != 0)).foldl State.runSlot s
  let s := s.updCtx c (fun k => k.past p e)
  let s := (ops.filter (fun o => o.slot == 0)).foldl State.runSlot s
  s.endIssue c

/-! ### The merge stage (R19, R20) -/

/-- The effective mask (R19). -/
def State.effMask (s : State) (c : CtxId) (p : Planned) : BitVec 8 :=
  (s.ctx c).held.foldl (fun m h => m ||| (1#8 <<< h.1)) p.f.bundle.hdr.mask

/-- The banks of the own slab that a bundle's copy slots touch at issue (R87). -/
def State.banksOf (s : State) (c : CtxId) (acting : List SlotOp) : List Nat :=
  (({ s with cur := c } : State).granulesOf acting).map (fun g => bankOf (g * 64))

/-- Whether two ready bundles issue together (R19, R339). -/
def State.pairs (s : State) (n : Nat) (p q : Planned) (a b : List SlotOp) : Bool :=
  (s.effMask ⟨n, false⟩ p &&& s.effMask ⟨n, true⟩ q) == 0 && p.rep.isNone && q.rep.isNone &&
    !(overlaps (s.banksOf ⟨n, false⟩ a) (s.banksOf ⟨n, true⟩ b)) &&
    !((s.course (courseOf n)).plumb && a.any isRemote && b.any isRemote)

/-- Whether ctx1 wins a collision (R20). Where one context has issued since node entry and the other has not, the one that
has not wins. DESIGN CHOICE (log 46). -/
def State.oneWins (s : State) (n : Nat) : Bool :=
  let a : CtxId := ⟨n, false⟩
  let b : CtxId := ⟨n, true⟩
  let ea := s.eff a
  let eb := s.eff b
  if ea ≠ eb then decide (ea < eb)
  else match (s.ctx a).lastIssue, (s.ctx b).lastIssue with
    | some x, some y => decide (y < x)
    | some _, none => true
    | _, _ => false

/-- A fault stops a context before its next bundle (R298), which takes no place in the dynamic bundle sequence of R86.
DESIGN CHOICE (log 63). -/
def State.raiseHead (s : State) (c : CtxId) : Head → State
  | .fault f rep _ =>
    let s := match rep with
      | some j => s.updCtx c (fun k => { k with repcnt := repcntAt j })
      | none => s
    { s with cur := c }.raise c f.slot f.held f.cause f.detail (BitVec.ofNat 32 (rep.getD 0))
  | _ => s

/-- The merge stage in a cycle. -/
def State.merge (s : State) (n : Nat) : State :=
  let a : CtxId := ⟨n, false⟩
  let b : CtxId := ⟨n, true⟩
  let ra := s.head a
  let rb := ra.1.head b
  let s := (rb.1.raiseHead a ra.2).raiseHead b rb.2
  match ra.2, rb.2 with
  | .ready p x, .ready q y =>
    if s.pairs n p q x y then (s.issueBundle a p x).issueBundle b q y
    else if s.oneWins n then s.issueBundle b q y else s.issueBundle a p x
  | .ready p x, _ => s.issueBundle a p x
  | _, .ready q y => s.issueBundle b q y
  | _, _ => s

/-- A cycle of a core: it stays frozen, or its clock moves on and the merge stage does its work (R14, R21). -/
def State.inCycle (s : State) (n : Nat) (go : State → State) : State :=
  let s := (s.backEdge ⟨n, false⟩).backEdge ⟨n, true⟩
  let s := (s.retireDue ⟨n, false⟩).retireDue ⟨n, true⟩
  let s := s.landingsDue n
  match (s.core n).frozen with
  | some (one, l, k) => s.updCore n (fun x => { x with frozen := some (one, l, k + 1) })
  | none => go (s.tickCore n)

/-! ### The look-ahead nullifier (R25, R86) -/

/-- The machine as a bundle of the next cycle reads it. -/
def State.nextCycle (s : State) (c : CtxId) : State :=
  { s.updCore c.core (fun k => { k with cycle := k.cycle + 1 }) with cur := c }

/-- A dropped bundle: it counts, its IB is honoured, its place in a loop body is past. -/
def Ctx.drop (c : Ctx) (f : Fetched) (e : Edge) : Ctx :=
  let pc := c.pc + BitVec.ofNat 64 f.size
  { c with seq := c.seq + 1, pos := c.pos + 1, lastIb := f.bundle.hdr.ib, pc := pc, npc := pc }.pastBody e

/-- The nullifier drops the next bundle of a context, when it may. -/
def State.dropNext (s : State) (c : CtxId) : State :=
  let s' := s.landDue c ((s.core c.core).cycle + 1)
  let v := s'.nextCycle c
  let k := v.here
  if !k.mayIssue v.cycle then s
  else match s.fetchBundle c.core k.pc with
    | .error _ => s
    | .ok f =>
      match k.plan f with
      | .error _ => s
      | .ok p =>
        if v.droppable p (v.acting p.ops) then
          ((s'.noteFetch c k.pc f.size).updCtx c (fun k => k.drop f v.edgeOf)).backEdge c
        else s

/-! ### The events of issue -/

/-- A bundle in hand, offered by the context at hand alone. -/
def State.offer (s : State) (f : Fetched) : State :=
  let c := s.cur
  if !(s.ctx c).mayIssue (s.core c.core).cycle then s
  else
    let r := s.headOf c f
    match r.2 with
    | .ready p x => r.1.issueBundle c p x
    | h => r.1.raiseHead c h

/-- A bundle that names no slot, in a cycle of the core at hand: NOP and REP. -/
def State.issueEmpty (s : State) (f : Fetched) : State :=
  if s.boot = .running then s.inCycle s.cur.core (fun s => s.offer f) else s

/-- An unlanded result of a context, by its place. -/
def Ctx.unlanded (c : Ctx) (k : Nat) : Option Flight :=
  match c.flight[k]? with
  | some f => if f.landed || f.src.isSome then none else some f
  | none => none

/-- A result lands before its bound has elapsed (R83, R84). DEDUCED (log 3). -/
def State.landOne (s : State) (c : CtxId) (k : Nat) : State :=
  match (s.ctx c).unlanded k with
  | none => s
  | some f =>
    (s.land c f).updCtx c (fun x => { x with flight := x.flight.modify k (fun f => { f with landed := true }) })

/-- The place of a WRC of a context that has not taken effect, to a register among some. -/
def Ctx.pendingWrc (c : Ctx) (p : BitVec 8 → Bool) : Option Nat :=
  c.flight.findIdx? (fun f => !f.landed && (match f.dest with | .cr n _ => p n | _ => false))

def State.landWrc (s : State) (c : CtxId) (p : BitVec 8 → Bool) : State :=
  match (s.ctx c).pendingWrc p with
  | some k => s.landOne c k
  | none => s

/-- BUNDLE_ISSUE (R19). -/
def execBundleIssue (n : Nat) (s : State) : Host.Outcome State Fault Refusal :=
  .next (if s.boot = .running then { s with cur := ⟨n, false⟩ }.inCycle n (fun s => s.merge n) else s)

/-- LOOK_AHEAD_NULLIFIER (R86). -/
def execLookAheadNullifier (c : CtxId) (s : State) : Host.Outcome State Fault Refusal :=
  if s.boot ≠ .running then .next s else
  .next (s.dropNext c)

/-- RESULT_LANDING (R84). A WRC has events of its own. DEDUCED (log 3). -/
def execResultLanding (c : CtxId) (k : Nat) (s : State) : Host.Outcome State Fault Refusal :=
  match (s.ctx c).unlanded k with
  | some f => .next (match f.dest with | .cr _ _ => s | _ => s.landOne c k)
  | none => .next s

/-- LOOP_BACK_EDGE (R127). -/
def execLoopBackEdge (c : CtxId) (s : State) : Host.Outcome State Fault Refusal :=
  .next (if s.boot = .running then s.backEdge c else s)

/-- LANDING_DUE (R173). -/
def execLandingDue (c : CtxId) (l : BitVec 3) (s : State) : Host.Outcome State Fault Refusal :=
  .next (s.landingDue c l.toNat)

/-- WRC_SEED (R124). -/
def execWrcSeed (c : CtxId) (s : State) : Host.Outcome State Fault Refusal := .next (s.landWrc c (fun n => n == 0x05))

/-- WRC_FPCTL (R96). -/
def execWrcFpctl (c : CtxId) (s : State) : Host.Outcome State Fault Refusal := .next (s.landWrc c (fun n => n == 0x00))

/-- WRC_KSW (R217). -/
def execWrcKsw (c : CtxId) (n : BitVec 3) (s : State) : Host.Outcome State Fault Refusal :=
  .next (s.landWrc c (fun r => r == 0x10#8 + n.setWidth 8))

/-- NOP (R46, R63): the empty bundle. -/
def execNop (ib : Bool) (s : State) : Host.Outcome State Fault Refusal :=
  .next (s.issueEmpty ⟨(encode (.nop ib)).headD 0, ⟨⟨ib, false, 0⟩, none, []⟩, 4⟩)

/-- REP (R72): an empty bundle under its prefix. -/
def execRep (adv stride : BitVec 4) (count : BitVec 16) (s : State) : Host.Outcome State Fault Refusal :=
  .next (s.issueEmpty ⟨0x00010100, ⟨⟨false, true, 0⟩, (encode (.rep adv stride count)).head?, []⟩, 8⟩)

end Sys2Proof.Machine
end

