-- ==== Sys2Proof/Machine/Copies.lean ====
section
/-! DEFINITION. What the memory does on its own (ch. 7, 10, 13): the performing of accesses, responses and
acknowledgements, copies and rings, the completion of array operations and tile moves, landing registers, translation
caches; and the detection of late faults and trap entry (ch. 15). -/

namespace Sys2Proof.Machine

/-! ### Accesses (R237, R178) -/

/-- The k-th operation of a context in program order. -/
def State.opAt (s : State) (c : CtxId) (k : Nat) : Option MemOp := (s.ctx c).ops[k]?

/-- Whether an operation is one of the tile moves ACCST, ACCMOV and ACCT (R218). -/
def MemOp.isTile (o : MemOp) : Bool := o.slot == 5

/-- A posted operation that can only fail (R183). -/
def State.failsPosted (s : State) (c : CtxId) (o : MemOp) : Bool := o.posted && s.wouldFail c o

/-- MEMORY_ACCESS_PERFORM (R237), with an error that has come into a granule (R258). DESIGN CHOICE (log 9).
DEDUCED (log 32). -/
def execMemoryAccessPerform (c : CtxId) (k : Nat) (err : ReadError) (s : State) : Host.Outcome State Fault Refusal :=
  let s := s.bring err
  match s.opAt c k with
  | some o =>
    if o.isRmw || o.isMove || !s.mayPerform c o || s.failsPosted c o then .next s else .next (s.performOp c o)
  | none => .next s

/-- ATOMIC_AT_HOME (R178). -/
def execAtomicAtHome (c : CtxId) (k : Nat) (s : State) : Host.Outcome State Fault Refusal :=
  match s.opAt c k with
  | some o =>
    if !o.isRmw || !s.mayPerform c o || s.failsPosted c o then .next s else .next (s.performOp c o)
  | none => .next s

/-- POSTED_OPERATION_FAILURE (R183). -/
def execPostedOperationFailure (c : CtxId) (k : Nat) (s : State) : Host.Outcome State Fault Refusal :=
  match s.opAt c k with
  | some o => if s.mayPerform c o && s.failsPosted c o then .next (s.performOp c o) else .next s
  | none => .next s

/-- A result from memory lands in a scalar register. -/
def Ctx.answer (c : Ctx) (r : BitVec 6) (v : Vec) : Ctx := (c.store (.s r) v 1).commit (.result (.s r) v)

/-- AMO_RESPONSE (R175, R176): a context that has stopped discards it (R308). -/
def execAmoResponse (c : CtxId) (k : Nat) (s : State) : Host.Outcome State Fault Refusal :=
  match s.opAt c k with
  | some o =>
    match o.act with
    | .rmw _ _ _ (some r) =>
      if !o.performed then .next s
      else .next (s.updCtx c (fun x =>
        let x := x.dropOp o.id
        if x.request = .stopped then x else (x.answer r (BitVec.ofNat 1024 o.val)).orAmoFlags o.flags))
    | _ => .next s
  | none => .next s

/-- INTERLOCKED_LD_S_LANDING (R174). -/
def execInterlockedLdSLanding (c : CtxId) (k : Nat) (s : State) : Host.Outcome State Fault Refusal :=
  match s.opAt c k with
  | some o =>
    match o.act with
    | .load (.sreg r) =>
      if !o.performed then .next s
      else .next (s.updCtx c (fun x =>
        let x := x.dropOp o.id
        if x.request = .stopped then x else x.answer r (BitVec.ofNat 1024 o.val)))
    | _ => .next s
  | none => .next s

/-- POSTED_ACKNOWLEDGE (R129). -/
def execPostedAcknowledge (c : CtxId) (k : Nat) (s : State) : Host.Outcome State Fault Refusal :=
  match s.opAt c k with
  | some o => if o.posted && o.performed && !o.isTile then .next (s.updCtx c (fun x => x.dropOp o.id)) else .next s
  | none => .next s

/-! ### Landing registers (R173, R14) -/

/-- The remote load that a landing register waits for, when it has performed. -/
def Ctx.landingOp (c : Ctx) (l : BitVec 3) : Option MemOp :=
  c.ops.find? (fun o => o.act == .load (.landing l) && o.performed)

/-- Data arrives for a landing register: a freeze that waits on it ends with its record (Table 5.10), also where the
slice of the load has stopped. DEDUCED (log 29). -/
def State.landingArrives (s : State) (c : CtxId) (l : BitVec 3) (o : MemOp) : State :=
  let late := match (s.core c.core).frozen with | some (one, r, _) => one == c.one && r == l | none => false
  let s := s.updCtx c (fun x => { (if late then x.commit (.lands (.landing l.toNat) [o.val]) else x).dropOp o.id with
    l := SMap.setD .empty x.l l.toNat ((SMap.get .empty x.l l.toNat).arrive o.id (BitVec.ofNat 1024 o.val) late) })
  s.thaw c l o.pc

/-- LANDING_ARRIVAL (R173). -/
def execLandingArrival (c : CtxId) (l : BitVec 3) (s : State) : Host.Outcome State Fault Refusal :=
  match (s.ctx c).landingOp l with
  | some o => .next (s.landingArrives c l o)
  | none => .next s

/-! ### Translation caches (R268 to R270) -/

/-- TABLE_WALK (R268): a translation enters a cache; a failure is recorded with the access that needs it. -/
def execTableWalk (space : Nat) (va : BitVec 64) (_acc : AccessKind) (s : State) : Host.Outcome State Fault Refusal :=
  .next (s.cacheWalk space (va.toNat % 2 ^ 56))

/-! ### Units (R179 to R181) -/

/-- A unit of a copy: where it is read and where it is written. -/
structure CopyUnit where
  src : Loc
  dst : Loc
  deriving DecidableEq, Repr

/-- The slab key of unit n of a region. -/
def State.unitKey (s : State) (core : Nat) (d : Descr) (n : Nat) : Nat :=
  s.regionRow core d (n / d.rowUnits) + n % d.rowUnits * unitBytes d.fmt

/-- The slab key of row n of the destination of a CP.SS (R181). -/
def State.targetRow (s : State) (core : Nat) (r : CopyCmd) (d : Descr) (n : Nat) : Nat :=
  (s.slab core (r.base + BitVec.ofNat 64 (n * r.dstStride)).toNat d.rowBytes).getD 0

/-- The units of a copy command in order. -/
def State.copyUnits (s : State) (core : Nat) (r : CopyCmd) : List CopyUnit :=
  let d := Descr.of r.d
  let ns := List.range (d.rows * d.rowUnits)
  match r.kind with
  | .cpIn => ns.map (fun n => ⟨.dva (nestAddr r.base r.exts r.strides n), .key (s.unitKey core d n)⟩)
  | .cpOut => ns.map (fun n => ⟨.key (s.unitKey core d n), .dva (nestAddr r.base r.exts r.strides n)⟩)
  | .cpSs => ns.map (fun n =>
      ⟨.key (s.unitKey core d n), .key (s.targetRow core r d (n / d.rowUnits) + n % d.rowUnits * unitBytes d.fmt)⟩)
  | .ring _ => []

/-- The keys of the bytes of a unit's place, or the cause and the address of the first that fails. -/
def State.unitKeys (s : State) (core : Nat) (acc : AccessKind) (w : Nat) : Loc → Except (BitVec 4 × Nat) (List Nat)
  | .key k => .ok ((List.range w).map (fun i => k + i))
  | .dva va =>
    match s.spaceOf core with
    | none => .error (xNomap, va.toNat % 2 ^ 56)
    | some sp => s.translateRange sp acc (va.toNat % 2 ^ 56) w

/-- A unit whose places are known, or its failure: the side that failed, the cause and the address. -/
def State.resolveUnit (s : State) (core w : Nat) (u : CopyUnit) : Except (Bool × BitVec 4 × Nat) (List Nat × List Nat) :=
  match s.unitKeys core .read w u.src with
  | .error e => .error (false, e)
  | .ok a =>
    match s.unitKeys core .write w u.dst with
    | .error e => .error (true, e)
    | .ok b => .ok (a, b)

/-- The units before the first that fails, and that failure with its index. -/
def State.resolveUnits (s : State) (core w : Nat) (i : Nat) :
    List CopyUnit → List (List Nat × List Nat) × Option (Nat × Bool × BitVec 4 × Nat)
  | [] => ([], none)
  | u :: us =>
    match s.resolveUnit core w u with
    | .error e => ([], some (i, e))
    | .ok p =>
      let r := State.resolveUnits s core w (i + 1) us
      (p :: r.1, r.2)

/-- The ordering class of a copy; the units of a ring have none (Table 10.1). -/
def CopyCmd.classes (q : CopyCmd) (ring : Bool) : BitVec 16 := if ring then 0 else classBit q.oc

/-- What a copy command has read before the other copy slot of its bundle wrote it, and what it leaves to C1 (R167); a ring
moves its tiles later than its bundle. -/
def CopyCmd.seenFirst (q : CopyCmd) : List (Nat × Byte) := match q.kind with | .ring _ => [] | _ => q.seen
def CopyCmd.leaves (q : CopyCmd) (k : Nat) : Bool := match q.kind with | .ring _ => false | _ => q.keep.contains k

/-- The bytes that some units write, as their reads find them. -/
def State.unitCells (s : State) (q : CopyCmd) (us : List (List Nat × List Nat)) : List (Nat × Byte) :=
  (us.flatMap (fun u => u.2.zip (u.1.map (s.byteSeen q.seenFirst)))).filter (fun c => !q.leaves c.1)

/-- The granules that some units carry poison into (R259). -/
def State.unitPoison (s : State) (q : CopyCmd) (us : List (List Nat × List Nat)) : List Nat :=
  if s.poison = [] then []
  else dedup (us.flatMap (fun u => if u.1.any s.poisoned then (u.2.filter (fun k => !q.leaves k)).map granule else []))

/-- Units of a command of context number `one` of a core move as bytes, as operation `id` of the log: their reads find the errors
of their granules (R258), and the poison of a granule read travels into each granule that its units are written to (R259),
which counts in a plumb graph as a write that poison refuses does (R341). DESIGN CHOICE (log 9). DESIGN CHOICE (log 11).
DEDUCED (log 37). DEDUCED (log 34). -/
def State.moveUnits (s : State) (core : Nat) (one : Bool) (q : CopyCmd) (id : Nat) (us : List (List Nat × List Nat)) : State :=
  let s := s.find one q.pc (us.flatMap Prod.fst)
  let bad := s.unitPoison q us
  let r := s.store (s.unitCells q us)
  let s := bad.foldl (fun s g => s.poisonGranule g) r.1
  let ring := match q.kind with | .ring _ => true | _ => false
  let who : Agent := if ring then .quarry core else .engine ⟨core, one⟩
  let into := q.kind == .cpIn
  let held := if ring then [] else s.regionGranules core (Descr.of q.d)
  let s := us.foldl (fun s u => (s.noteHeld who id .read (q.classes ring) u.1 (!into) held into).noteHeld who id .write
    (q.classes ring) u.2 (into || q.kind == .cpSs) held into) s
  match q.graph with
  | some g => if bad = [] ∧ r.2.isNone then s else s.plumbEvent g
  | none => s

/-! ### Copies (R180 to R183, R247) -/

/-- Poison of a page-table entry or of a state byte that stops a copy or a ring counts in a plumb graph where it is met (R341).
DEDUCED (log 34). -/
def State.plumbAt (s : State) (x : BitVec 4) (graph : Option Nat) : State :=
  match graph with
  | some g => if x = xPoison then s.plumbEvent g else s
  | none => s

/-- The runs of slab bytes that a copy reads or writes. -/
def State.copySpans (s : State) (core : Nat) (r : CopyCmd) : List Span :=
  let d := Descr.of r.d
  s.regionSpans core d ++ match r.kind with
    | .cpSs => (List.range d.rows).map (fun n => (s.targetRow core r d n, d.rowBytes))
    | _ => []

/-- Everything that comes before a copy has performed: what shares its class, a fence that names it among them, the
context's accesses to its slab side, and what these wait for (R238 to R240, R247). -/
def State.beforeCopy (s : State) (c : CtxId) (r : CopyCmd) : State :=
  s.performBefore c ⟨r.before, classBit r.oc, s.copySpans c.core r, false⟩

def Ctx.setCopy (c : Ctx) (i : BitVec 4) (x : CopyState) : Ctx := { c with copies := SMap.setD .free c.copies i.toNat x }

/-- The states of a ring's slots as memory holds them. -/
def State.slotState (s : State) (core : Nat) (r : Ring) (m : Nat) : Byte := s.byte (s.ownKey core (r.state + m))

/-- A ring is complete when every slot is END (R185); a poisoned state byte is none. DEDUCED (log 33). -/
def State.ringDone (s : State) (core : Nat) (r : Ring) : Bool :=
  (List.range r.slots).all (fun m => s.slotState core r m == 3 && !s.poisoned (s.ownKey core (r.state + m)))

/-- The operation of C0 performs before a copy of C1 in its bundle that writes some of the same bytes, whose data stays
(R167). -/
def State.firstSlot (s : State) (c : CtxId) (r : CopyCmd) (keys : List Nat) : State :=
  s.performFor c (fun p => match p with
    | .op o => otherSlot o.id r.before && decide (o.id < r.before) && o.writes && overlaps (s.keysOf c.core o) keys
    | _ => false)

/-- A copy command as its id holds it. -/
def Ctx.copyCmd (c : Ctx) (i : BitVec 4) (r : CopyCmd) : CopyCmd :=
  match c.copy i.toNat with
  | .running q => q
  | _ => r

/-- A copy command goes as far as it can: it completes, which frees its id, or it stops at a unit that fails to
translate. A destination in another address space takes nothing (R35). DESIGN CHOICE (log 11). -/
def State.runCopy (s : State) (c : CtxId) (i : BitVec 4) (r : CopyCmd) : State :=
  let n := c.core
  let d := Descr.of r.d
  let us := s.copyUnits n r
  let s := s.beforeCopy c r
  let u := s.resolveUnits n (unitBytes d.fmt) 0 us
  if u.1.any (fun p => p.2.any (s.refusedBy n)) then
    s.updCtx c (fun k =>
      let k := k.setCopy i .free
      { k with late := k.late ++ [⟨r.seq, r.slot, r.held, r.pc, causeIsol, r.base.setWidth 128, some (.copy i r)⟩] })
  else
    let keys := u.1.flatMap Prod.snd
    let s := (s.firstSlot c r keys).readFirst c r.before keys
    let s := s.moveUnits n c.one ((s.ctx c).copyCmd i r) r.before u.1
    match u.2 with
    | none => (s.updCtx c (fun k => k.setCopy i .free)).sync (.engine c) r.before (.copied i)
    | some (e, dir, x, va) =>
      (s.plumbAt x r.graph).updCtx c (fun k => k.setCopy i (.faulted (progress va x i.toNat dir r.kind.opc 0 e)))

/-- Whether a copy command stops at a unit. -/
def State.copyStops (s : State) (core : Nat) (r : CopyCmd) : Bool :=
  (s.resolveUnits core (unitBytes (Descr.of r.d).fmt) 0 (s.copyUnits core r)).2.isSome

/-- COPY_COMPLETION (R180): of a ring, once every slot is END. DESIGN CHOICE (log 9). -/
def execCopyCompletion (c : CtxId) (i : BitVec 4) (s : State) : Host.Outcome State Fault Refusal :=
  match (s.ctx c).copy i.toNat with
  | .running r =>
    match r.kind with
    | .ring g => if s.ringDone c.core g then .next (s.updCtx c (fun k => k.setCopy i .free)) else .next s
    | _ => if s.copyStops c.core r then .next s else .next (s.runCopy c i r)
  | _ => .next s

/-- COPY_TRANSLATION_STOP (R183). -/
def execCopyTranslationStop (c : CtxId) (i : BitVec 4) (s : State) : Host.Outcome State Fault Refusal :=
  match (s.ctx c).copy i.toNat with
  | .running r => if s.copyStops c.core r then .next (s.runCopy c i r) else .next s
  | _ => .next s

/-! ### Rings (R184, R185, R264) -/

/-- The next tile of a slot, when one remains. -/
def Ring.tileOf (r : Ring) (m taken : Nat) : Option Nat :=
  let t := m + taken * r.slots
  if t < r.tiles then some t else none

def Ring.takenOf (r : Ring) (m : Nat) : Nat := SMap.get 0 r.taken m

/-- The units of tile t between device memory at `base` and slot m: into the slab, or out of it. -/
def State.tileUnits (s : State) (core : Nat) (r : Ring) (d : Descr) (m t : Nat) (base : DWord) (fill : Bool) :
    List CopyUnit :=
  let x := r.slotDescr d m
  let start := nestAddr base r.exts r.strides t
  (List.range (x.rows * x.rowUnits)).map (fun n =>
    let dev : Loc := .dva (start + BitVec.ofNat 64 (n / x.rowUnits) * r.rowstep +
      BitVec.ofNat 64 (n % x.rowUnits * unitBytes x.fmt))
    let own : Loc := .key (s.unitKey core x n)
    if fill then ⟨dev, own⟩ else ⟨own, dev⟩)

/-- What Quarry does next at a slot: fill it, pull it back, mark that no tile remains, or stop on the poison of its state
byte, at the tile that the slot holds or would take. -/
inductive RingStep where
  | fill (t : Nat)
  | pull (t : Nat)
  | finish
  | lost (t : Nat)
  deriving DecidableEq, Repr

/-- DEDUCED (log 33). -/
def State.ringStep (s : State) (core : Nat) (r : Ring) (m : Nat) : Option RingStep :=
  if r.slots ≤ m then none
  else if s.poisoned (s.ownKey core (r.state + m)) then some (.lost (m + (r.takenOf m - 1) * r.slots))
  else match (s.slotState core r m).toNat with
    | 0 => (match r.tileOf m (r.takenOf m) with | some t => some (.fill t) | none => some .finish)
    | 2 => (match r.takenOf m with | 0 => none | n + 1 => (r.tileOf m n).map .pull)
    | _ => none

/-- The units of a step. -/
def State.stepUnits (s : State) (core : Nat) (r : Ring) (d : Descr) (m : Nat) : RingStep → List CopyUnit
  | .fill t => if r.input = 0 then [] else s.tileUnits core r d m t r.input true
  | .pull t => if r.output = 0 then [] else s.tileUnits core r d m t r.output false
  | .finish => []
  | .lost _ => []

/-- The tile of a step. -/
def RingStep.tile : RingStep → Nat
  | .fill t => t
  | .pull t => t
  | .finish => 0
  | .lost t => t

/-- The failure of a step: the unit, the side, the cause, the address; a poisoned state byte stops the ring too, with VA 0 and
DIR 0, since it has no device address. DEDUCED (log 33). -/
def State.stepFails (s : State) (core : Nat) (r : Ring) (d : Descr) (m : Nat) (st : RingStep) :
    Option (Nat × Bool × BitVec 4 × Nat) :=
  match st with
  | .lost _ => some (0, false, xPoison, 0)
  | _ => (s.resolveUnits core (unitBytes d.fmt) 0 (s.stepUnits core r d m st)).2

/-- The place of a slot of a ring in the log. -/
def CopyCmd.slotId (q : CopyCmd) (m : Nat) : Nat := 16 * q.before + m % 16

/-- The state byte of a slot, written by Quarry. A poisoned one takes no write of one byte (R259), not even 0xFF.
DEDUCED (log 33). -/
def State.putSlotState (s : State) (core : Nat) (q : CopyCmd) (r : Ring) (m : Nat) (v : Byte) : State :=
  let k := s.ownKey core (r.state + m)
  (s.store [(k, v)]).1.noteAtomic (.quarry core) (q.slotId m) .write [k] (some dieScope) none

/-! A ring is named by the copy id of its context and a slot; a slot number 16 × (n + 1) + m names slot m of the n-th ring
that stopped slices have left running on the context (R250). -/

/-- The ring at an id, or one that a stopped slice has left. DEDUCED (log 33). -/
def Ctx.ringOf (c : Ctx) (i : BitVec 4) (m : Nat) : Option (CopyCmd × Ring) :=
  let cmd : Option CopyCmd :=
    if m < 16 then (match c.copy i.toNat with | .running q => some q | _ => none) else c.orphans[m / 16 - 1]?
  match cmd with
  | some q => (match q.kind with | .ring r => some (q, r) | _ => none)
  | none => none

/-- A ring goes on. -/
def Ctx.putRing (c : Ctx) (i : BitVec 4) (m : Nat) (q : CopyCmd) : Ctx :=
  if m < 16 then c.setCopy i (.running q) else { c with orphans := c.orphans.set (m / 16 - 1) q }

/-- A ring ends with what its id then says; one that no slice owns is forgotten. -/
def Ctx.endRing (c : Ctx) (i : BitVec 4) (m : Nat) (x : CopyState) : Ctx :=
  if m < 16 then c.setCopy i x else { c with orphans := c.orphans.eraseIdx (m / 16 - 1) }

/-- A ring that no slice owns is forgotten once it is complete. -/
def State.closeRing (s : State) (c : CtxId) (i : BitVec 4) (m : Nat) (r : Ring) : State :=
  if 16 ≤ m ∧ s.ringDone c.core r = true then s.updCtx c (fun k => k.endRing i m .free) else s

/-- Quarry reads the state byte of a slot, and finds what errors it has (R258). -/
def State.peekSlot (s : State) (c : CtxId) (q : CopyCmd) (r : Ring) (m : Nat) : State :=
  let k := s.ownKey c.core (r.state + m % 16)
  if m % 16 < r.slots then
    (s.find c.one q.pc [k]).noteAtomic (.quarry c.core) (q.slotId m) .read [k] none (some dieScope)
  else s

/-- Quarry takes a step at a slot. DESIGN CHOICE (log 11). DEDUCED (log 33). -/
def State.runRing (s : State) (c : CtxId) (i : BitVec 4) (q : CopyCmd) (r : Ring) (m : Nat) (st : RingStep) : State :=
  let n := c.core
  let d := Descr.of q.d
  let e := m % 16
  let u := s.resolveUnits n (unitBytes d.fmt) 0 (s.stepUnits n r d e st)
  let s := s.moveUnits n c.one q (q.slotId m) u.1
  let s := match st with
    | .fill _ =>
      let r' := { r with taken := SMap.setD 0 r.taken e (r.takenOf e + 1) }
      (s.putSlotState n q r e 1).updCtx c (fun k => k.putRing i m { q with kind := .ring r' })
    | .pull _ => s.putSlotState n q r e (if (r.tileOf e (r.takenOf e)).isSome then 0 else 3)
    | .finish => s.putSlotState n q r e 3
    | .lost _ => s
  s.closeRing c i m r

/-- A ring stops at a slot. -/
def State.stopRing (s : State) (c : CtxId) (i : BitVec 4) (q : CopyCmd) (r : Ring) (m : Nat) (st : RingStep)
    (e : Nat × Bool × BitVec 4 × Nat) : State :=
  let n := c.core
  let d := Descr.of q.d
  let u := s.resolveUnits n (unitBytes d.fmt) 0 (s.stepUnits n r d (m % 16) st)
  let s := s.moveUnits n c.one q (q.slotId m) (u.1.take e.1)
  ((s.plumbAt e.2.2.1 q.graph).putSlotState n q r (m % 16) 0xFF).updCtx c (fun k =>
    k.endRing i m (.faulted (progress e.2.2.2 e.2.2.1 i.toNat e.2.1 0x23 st.tile e.1)))

/-- Quarry looks at a slot: a step that some test allows is taken, or the ring stops there, as `stop` says. -/
def State.quarry (s : State) (c : CtxId) (i : BitVec 4) (m : Nat) (stop : Bool) (may : RingStep → Bool) : State :=
  match (s.ctx c).ringOf i m with
  | none => s
  | some (q, r) =>
    let s := s.peekSlot c q r m
    match s.ringStep c.core r (m % 16) with
    | none => s
    | some st =>
      match s.stepFails c.core r (Descr.of q.d) (m % 16) st with
      | some e => if stop then s.stopRing c i q r m st e else s
      | none => if may st then s.runRing c i q r m st else s

/-- RING_SLOT_FILL (R185); a FREE slot with no tile left becomes END. DEDUCED (log 33). -/
def execRingSlotFill (c : CtxId) (i : BitVec 4) (m : Nat) (s : State) : Host.Outcome State Fault Refusal :=
  .next (s.quarry c i m false (fun st => match st with | .pull _ => false | _ => true))

/-- RING_PULL_BACK (R185). -/
def execRingPullBack (c : CtxId) (i : BitVec 4) (m : Nat) (s : State) : Host.Outcome State Fault Refusal :=
  .next (s.quarry c i m false (fun st => match st with | .pull _ => true | _ => false))

/-- RING_STOP (R264). -/
def execRingStop (c : CtxId) (i : BitVec 4) (m : Nat) (s : State) : Host.Outcome State Fault Refusal :=
  .next (s.quarry c i m true (fun _ => false))

/-! ### The array and the tile moves (R218) -/

/-- ARRAY_OPERATION_COMPLETION (R218): operations complete in the order in which they issued. DEDUCED (log 41). -/
def execArrayOperationCompletion (core : Nat) (err : ReadError) (s : State) : Host.Outcome State Fault Refusal :=
  .next ((s.bring err).completeArray core)

/-- DRAIN_ENTRY_WRITE (R235). -/
def execDrainEntryWrite (core : Nat) (s : State) : Host.Outcome State Fault Refusal := .next (s.drainStep core)

/-- A tile move completes: rows or a descriptor are written, or its stores have performed. ACCMOV moves all 64 bits of an
element, also where R216 would write zeros above a value of 32. DEDUCED (log 61). -/
def State.completeTile (s : State) (c : CtxId) (o : MemOp) : State :=
  let s := if o.performed then s else s.performOp c o
  match (s.ctx c).findOp o.id with
  | none => s
  | some o =>
    s.updCtx c (fun k =>
      let k := k.dropOp o.id
      match o.act with
      | .move kd rows t =>
        let new := (k.tile kd).rows t (fun i => rows.getLsbD i)
        (k.setTile kd new).commit (.lands (.tile kd.toNat) (new.flatMap (fun e => [e.1, e.2.toNat])))
      | .load (.desc d) =>
        { k.commit (.lands (.descriptor d.toNat) [o.val]) with d := SMap.setD 0 k.d d.toNat (BitVec.ofNat 256 o.val) }
      | _ => k)

/-- TILE_MOVE_COMPLETION (R218): ACCST, ACCMOV and ACCT complete in order. -/
def execTileMoveCompletion (c : CtxId) (k : Nat) (s : State) : Host.Outcome State Fault Refusal :=
  match s.opAt c k with
  | some o =>
    if !o.isTile || ((s.ctx c).ops.take k).any MemOp.isTile || !(o.performed || s.mayPerform c o) then .next s
    else .next (s.completeTile c o)
  | none => .next s

/-! ### Traps (R299, R301) -/

/-- The issue-time fault of the bundle that would issue next, if it is known (R299). DEDUCED (log 26). -/
def State.nextFault (s : State) (c : CtxId) : List LateFault :=
  let v := s.nextCycle c
  let k := s.ctx c
  match (v.head c).2 with
  | .fault f _ true => [⟨k.seq + 1, f.slot, f.held, k.pc, f.cause, f.detail, none⟩]
  | _ => []

/-- LATE_FAULT_DETECTION (R299): the first bundle boundary after it is past the back-edge. Of a context that has stopped
a fault is ignored (R308). DEDUCED (log 26). -/
def State.detectLate (s : State) (c : CtxId) : State :=
  let k := s.ctx c
  if k.late = [] then s
  else if k.slice.isNone || k.request == .stopped then s.updCtx c (fun x => { x with late := [] })
  else
    let s := s.backEdge c
    s.detect c (s.nextFault c)

def execLateFaultDetection (c : CtxId) (s : State) : Host.Outcome State Fault Refusal :=
  if s.boot ≠ .running then .next s else
  .next (s.detectLate c)

/-- TRAP_ENTRY (R301): once no interlocked result is outstanding (R300). -/
def execTrapEntry (c : CtxId) (s : State) : Host.Outcome State Fault Refusal :=
  if s.boot ≠ .running then .next s else
  if (s.ctx c).interlocked then .next s else .next (s.enterTrap c)

end Sys2Proof.Machine
end

