-- ==== Sys2Proof/Machine/Keystone.lean ====
section
/-! DEFINITION. Keystone (ch. 14): what it takes (R275, R278), ready
queues, placement and dispatch (R280, R281, R294, R295), deques (R283), completion (R285). -/

namespace Sys2Proof.Machine

/-- Whether C1 of some cancellation is in progress. It is atomic (R289): nothing else that Keystone does comes between its writes.
DESIGN CHOICE (log 43). -/
def State.c1Busy (s : State) : Bool := s.cancels.any (fun x => x.todo.isSome)

/-- Whether Keystone takes events: boot is over, and no C1 is in progress. -/
def State.ksReady (s : State) : Bool := s.boot == .running && !s.c1Busy

/-! ### Messages -/

/-- Whether a message may be taken: it has left its context, or what its context issued before it has performed (R249), and its
context's earlier messages have been taken; the writes of the host's bead ports are taken in order (R344). DEDUCED (log 42). -/
def State.mayTake (s : State) (k : Nat) (m : KsMsg) : Bool :=
  match m, m.behind with
  | .fault _ _ _ _ _ _, _ => true
  | _, some b => (b.sent || s.allPerformed b.c b.op) && !((s.ksq.take k).any (KsMsg.isFrom b.c))
  | _, none => !((s.ksq.take k).any (fun e => match e with
      | .fault _ _ _ _ _ _ => false
      | e => e.behind.isNone))

/-- GRAPH_LAUNCH (R275). -/
def execGraphLaunch (k : Nat) (s : State) : Host.Outcome State Fault Refusal :=
  if !s.ksReady then .next s else
  match s.ksq[k]? with
  | some (.launch b space addr) =>
    if s.mayTake k (.launch b space addr) then .next (s.takeMsg k (.launch b space addr)) else .next s
  | _ => .next s

/-- BEAD_ARRIVAL (R278). -/
def execBeadArrival (k : Nat) (s : State) : Host.Outcome State Fault Refusal :=
  if !s.ksReady then .next s else
  match s.ksq[k]? with
  | some (.bead b space addr slot) =>
    if s.mayTake k (.bead b space addr slot) then .next (s.takeMsg k (.bead b space addr slot)) else .next s
  | _ => .next s

/-! ### Deques (R283, R265) -/

/-- Q, the ring's entries. DESIGN CHOICE (log 13). -/
def Core.ringSize (k : Core) : Nat := (k.dqlim.toNat - k.dqbase.toNat - 64) / 16

def Core.hasDeque (k : Core) : Bool := k.dqbase != k.dqlim

/-- HEAD and TAIL (log 13): counts modulo 2Q. -/
def State.dequeHead (s : State) (n : Nat) : Nat := s.readNat (slabKey n (s.core n).dqbase.toNat) 4
def State.dequeTail (s : State) (n : Nat) : Nat := s.readNat (slabKey n ((s.core n).dqbase.toNat + 4)) 4

/-- An entry as 16 bytes. -/
def DequeEntry.bits (e : DequeEntry) : Nat :=
  e.node.toNat % 2 ^ 56 + e.lidx % 256 * 2 ^ 64 + (if e.pin then 2 ^ 72 else 0) + (if e.res then 2 ^ 73 else 0)

def DequeEntry.ofBits (v : Nat) : DequeEntry :=
  { res := v.testBit 73, pin := v.testBit 72, lidx := v / 2 ^ 64 % 256, node := BitVec.ofNat 64 (v % 2 ^ 56) }

/-- The key of the entry with a count. DESIGN CHOICE (log 13). -/
def State.entryKey (s : State) (n i : Nat) : Nat :=
  let k := s.core n
  slabKey n (k.dqbase.toNat + 64 + 16 * (i % k.ringSize))

/-- The waiting entries of a core, from HEAD to TAIL. DEDUCED (log 58). -/
def State.waiting (s : State) (n : Nat) : List DequeEntry :=
  let k := s.core n
  if k.hasDeque then
    let q := 2 * k.ringSize
    let h := s.dequeHead n
    (List.range ((s.dequeTail n + q - h) % q)).map (fun i => DequeEntry.ofBits (s.readNat (s.entryKey n (h + i)) 16))
  else ((s.course (courseOf n)).fallback.filter (fun p => p.1 == n)).map Prod.snd

/-- Put the waiting entries of a core, HEAD staying where it is. A decision on an entry that is gone is gone too (R292).
DESIGN CHOICE (log 44). -/
def State.putEntries (s : State) (n : Nat) (es : List DequeEntry) : State :=
  let k := s.core n
  let s := { s with declined := s.declined.filter (fun d => d.core != n || es.contains d.entry) }
  if k.hasDeque then
    let q := 2 * k.ringSize
    let h := s.dequeHead n
    let s := (es.mapIdx (fun i e => (i, e))).foldl (fun s p => s.ksStore (s.entryKey n (h + p.1)) 16 p.2.bits) s
    s.ksStore (slabKey n (k.dqbase.toNat + 4)) 4 ((h + es.length) % q)
  else
    let c := courseOf n
    let co := s.course c
    s.setCourse c { co with fallback := co.fallback.filter (fun p => p.1 != n) ++ es.map (fun e => (n, e)) }

/-- A course whose deques empty has been idle for no longer than that (R294). DEDUCED (log 45). -/
def State.renewIdle (s : State) (n : Nat) : State :=
  let c := courseOf n
  s.setCourse c { s.course c with idleSince := s.tick }

/-- Put the waiting entries of a core, with the idle period of its course where none is left. -/
def State.setWaiting (s : State) (n : Nat) (es : List DequeEntry) : State :=
  let s := s.putEntries n es
  if es = [] then s.renewIdle n else s

/-- Keystone reads a deque, and finds the errors of its granules; poison that it meets counts in a plumb course (R341).
DEDUCED (log 34). -/
def State.findDeque (s : State) (n : Nat) : State :=
  if s.flaws = [] ∧ s.poison = [] then s
  else
    let ks := (List.range ((s.core n).dqlim.toNat - (s.core n).dqbase.toNat)).map (fun i => slabKey n ((s.core n).dqbase.toNat + i))
    let s := s.findAny ks
    if ks.any s.poisoned then s.plumbCore n else s

/-- Dispatch writes at TAIL. -/
def State.pushEntry (s : State) (n : Nat) (e : DequeEntry) : State := s.setWaiting n (s.waiting n ++ [e])

/-- The entries of a fallback queue: 64 KiB of 16 bytes each (R265, R283). DEDUCED (log 58). -/
def fallbackSize : Nat := 4096

/-- Whether another entry finds room. DEDUCED (log 58). -/
def State.hasRoom (s : State) (n : Nat) : Bool :=
  let k := s.core n
  if k.hasDeque then decide ((s.waiting n).length < k.ringSize)
  else decide ((s.course (courseOf n)).fallback.length < fallbackSize)

/-- The entry at HEAD is taken. -/
def State.popEntry (s : State) (n : Nat) : State :=
  let k := s.core n
  (if k.hasDeque then s.ksStore (slabKey n k.dqbase.toNat) 4 ((s.dequeHead n + 1) % (2 * k.ringSize))
   else s.putEntries n ((s.waiting n).drop 1)).renewIdle n

/-! ### Placement and dispatch (R280, R281, R294, R295) -/

/-- Whether no context of a course is occupied. -/
def State.courseFree (s : State) (n : Nat) : Bool := (courseCtxs n).all (fun c => (s.ctx c).slice.isNone)

/-- Whether no entry waits on a course. -/
def State.noEntries (s : State) (n : Nat) : Bool := (List.range 8).all (fun p => s.waiting (8 * n + p) == [])

/-- Whether a course may run a graph's modes (R281, R295). -/
def State.modesFit (s : State) (g : Graph) (n : Nat) : Bool :=
  let co := s.course n
  (co.plumb == g.plumb && co.twin == g.twin.getLsbD n) || (s.courseFree n && s.noEntries n)

/-- The free cores of a course for a graph: in twin mode the even ones (R295). DEDUCED (log 16). -/
def State.freeCores (s : State) (g : Graph) (n : Nat) : List Nat :=
  ((List.range 8).map (fun p => 8 * n + p)).filter (fun k =>
    ((s.core k).ctx0.slice.isNone || (s.core k).ctx1.slice.isNone) && !(g.twin.getLsbD n && k % 2 == 1))

/-- The sum of the k largest numbers; none where there are fewer. -/
def topSum (k : Nat) (l : List Nat) : Option Nat :=
  if l.length < k then none else some (((sortBy (fun a b => decide (b < a)) l).take k).foldl (· + ·) 0)

/-- A course as R294 weighs it: its number, its free cores, and whether it is gated. -/
structure Offer where
  course : Nat
  free : Nat
  gated : Bool
  deriving DecidableEq, Repr

/-- Whether `a` awake and `g` gated courses among some can give P cores. -/
def canGive (os : List Offer) (a g p : Nat) : Bool :=
  match topSum a ((os.filter (fun o => !o.gated)).map (·.free)), topSum g ((os.filter (·.gated)).map (·.free)) with
  | some x, some y => decide (p ≤ x + y)
  | _, _ => false

/-- The lowest course numbers among the sets of `a` awake and `g` gated courses that give P cores. -/
def pickCourses (a g p : Nat) : List Offer → List Nat
  | [] => []
  | o :: os =>
    if o.gated then
      if 0 < g ∧ canGive os a (g - 1) (p - o.free) then o.course :: pickCourses a (g - 1) (p - o.free) os
      else pickCourses a g p os
    else
      if 0 < a ∧ canGive os (a - 1) g (p - o.free) then o.course :: pickCourses (a - 1) g (p - o.free) os
      else pickCourses a g p os

/-- R294: the fewest courses, the lowest cost, the lowest numbers. -/
def chooseCourses (os : List Offer) (p : Nat) : Option (List Nat) :=
  ((List.range 33).flatMap (fun m => (List.range (m + 1)).map (fun g => (m - g, g)))).findSome? (fun x =>
    if canGive os x.1 x.2 p then some (pickCourses x.1 x.2 p os) else none)

/-- The cores that a node is placed on (R281); none where R294 finds no set. A waking course
is gated still. DESIGN CHOICE (log 75). -/
def State.placement (s : State) (g : Graph) (n : Node) : Option (List Nat) :=
  if n.pin then some (coresOf n.place)
  else
    let p := (coresOf n.place).length
    let cs := (s.coursesOf g.space).filter (s.modesFit g)
    match chooseCourses (cs.map (fun c => ⟨c, (s.freeCores g c).length, (s.course c).gated⟩)) p with
    | none => none
    | some l => some ((l.flatMap (s.freeCores g)).take p)

/-- Whether a node can be dispatched on its placement. -/
def State.canDispatch (s : State) (g : Graph) (cores : List Nat) : Bool :=
  cores.all (fun k => s.waiting k == [] && s.hasRoom k && s.modesFit g (courseOf k) &&
    (s.course (courseOf k)).space == some g.space)

/-- The node that a ready queue dispatches next, with its cores (R280). -/
def State.nextDispatch (s : State) (n : Nat) : Option ((Nat × Nat) × List Nat) :=
  let withPlace (e : Nat × Nat) : Option (Graph × List Nat) :=
    match s.graphs.find e.1, s.nodeOf e.1 e.2 with
    | some g, some x => (s.placement g x).map (fun l => (g, l))
    | _, _ => none
  match (s.course n).ready with
  | [] => none
  | h :: rest =>
    match withPlace h with
    | none => none
    | some (g, l) =>
      if s.canDispatch g l then some (h, l)
      else if g.plumb then none
      else rest.findSome? (fun e => match withPlace e with
        | some (g', l') =>
          if !g'.plumb && !(overlaps l l') && s.canDispatch g' l' then some (e, l') else none
        | none => none)

/-- A course wakes when it is gated (R294). -/
def Course.wake (c : Course) : Course := { c with waking := c.waking || c.gated }

/-- A course takes the modes of a graph, and wakes when it is gated (R294, R295); plumb mode holds its clock at twice the
Mortar clock, which is the nominal point (R339, R354). -/
def Course.serve (c : Course) (n : Nat) (g : Graph) : Course :=
  { c.wake with
    plumb := g.plumb
    twin := g.twin.getLsbD n
    mhz := if g.plumb then 3600 else c.mhz
    mv := if g.plumb then 675 else c.mv }

/-- A node is dispatched on some cores: one entry for each (R280). The remaining estimate of R292 counts from the first slice of
this dispatch. DESIGN CHOICE (log 66). -/
def State.dispatchOn (s : State) (gi ni home : Nat) (cores : List Nat) : State :=
  match s.graphs.find gi, s.nodeOf gi ni with
  | some g, some n =>
    let co := s.course home
    let s := s.setCourse home { co with ready := co.ready.filter (fun e => e != (gi, ni)) }
    let s := (dedup (cores.map courseOf)).foldl (fun s c => s.setCourse c ((s.course c).serve c g)) s
    let s := s.updNode gi ni (fun x => { x with
      cores := cores, unretired := cores.length, startedAt := none, killing := false, attempt := x.attempt + 1 })
    (cores.mapIdx (fun i k => (i, k))).foldl (fun s p => s.pushEntry p.2 ⟨false, n.pin, p.1, n.addr⟩) s
  | _, _ => s

/-- DISPATCH (R280). -/
def execDispatch (n : Nat) (s : State) : Host.Outcome State Fault Refusal :=
  if !s.ksReady then .next s else
  match s.nextDispatch n with
  | some (e, cores) => .next (s.dispatchOn e.1 e.2 n cores)
  | none => .next s

/-! ### Completion (R285) -/

/-- A graph with no undecided node completes. -/
def State.completeGraph (s : State) (gi : Nat) : State :=
  match s.graphs.find gi with
  | none => s
  | some g =>
    if g.status = .running ∧ g.nodes.all (fun p => (p.2.state == .done && !p.2.withheld) || p.2.state == .void) then
      let st : GState := if g.voided = 0 then .done else .fault
      (s.updGraph gi (fun g => { g with status := st })).writeGraph gi 3 1 st.code
    else s

/-- A node's beads to its successors, in entry order. -/
def State.postBeads (s : State) (gi ni : Nat) : State :=
  match s.nodeOf gi ni with
  | some n => n.succs.foldl (fun s p => s.applyBead (.node ni) gi p.1 p.2) s
  | none => s

/-- A node is DONE, its beads are posted, and it is counted. -/
def State.finishNode (s : State) (gi ni : Nat) : State :=
  let s := s.postBeads gi ni
  let s := s.updGraph gi (fun g => { g with done := g.done + 1 })
  let d := match s.graphs.find gi with | some g => g.done | none => 0
  (s.writeGraph gi 20 4 d).completeGraph gi

end Sys2Proof.Machine
end

