-- ==== Sys2Proof/Machine/Images.lean ====
section
/-! DEFINITION. Context images (R309 to R315): the declared footprint, the image as bytes, its CRC, the checkpoint pool,
the save at a kernel-iteration boundary and the restore. -/

namespace Sys2Proof.Machine

/-! ### The footprint (R310) -/

/-- A declared footprint: its own-slab offset and its length. -/
structure Footprint where
  base : Nat
  len : Nat
  deriving DecidableEq, Repr

/-- The footprint that d15 declares: none where d15 does not meet the conditions. -/
def footprint (d15 : BitVec 256) (dqbase dqlim : Nat) : Option Footprint :=
  if d15 = 0 then some ⟨0, 0⟩
  else
    let d := Descr.of d15
    let n := d.rows * d.stride
    if d.base % 64 ≠ 0 ∨ d.stride % 64 ≠ 0 ∨ slabSize < d.base + n ∨
        (0 < n ∧ d.base < dqlim ∧ dqbase < d.base + n) then none
    else some ⟨d.base, n⟩

/-! ### CRC-32C (R312) -/

/-- One bit of the reflected CRC. -/
def crcBit (r : BitVec 32) : BitVec 32 := if r.getLsbD 0 then (r >>> 1) ^^^ 0x82F63B78 else r >>> 1

def crcByte (r : BitVec 32) (b : Byte) : BitVec 32 :=
  (List.range 8).foldl (fun r _ => crcBit r) (r ^^^ b.setWidth 32)

def crc32c (bs : List Byte) : BitVec 32 := bs.foldl crcByte (BitVec.allOnes 32) ^^^ BitVec.allOnes 32

/-! ### The image as bytes (R312, Tables 15.3 to 15.5) -/

/-- Zero bytes. -/
def zeros (n : Nat) : List Byte := List.replicate n 0

/-- What the body of an image holds of a context, beyond the context: the remaining due cycles of its landing
registers. DEDUCED (log 15). -/
def Landing.image (cycle : Nat) : Landing → List Byte
  | .empty => zeros 144
  | .pending _ due d _ => bytesOfNat 128 (d.getD 0).toNat ++ bytesOfNat 4 2 ++ bytesOfNat 4 (due - cycle) ++ zeros 8
  | .landed d nb _ => bytesOfNat 128 d.toNat ++ bytesOfNat 4 2 ++ bytesOfNat 4 (nb - cycle) ++ zeros 8

def Landing.poisoned : Landing → Bool
  | .pending _ _ _ p => p.isSome
  | .landed _ _ p => p.isSome
  | .empty => false

/-- A result queue. -/
def queueImage (q : List QEntry) : List Byte :=
  bytesOfNat 64 q.length ++ q.flatMap (fun e => bytesOfNat 128 e.data.toNat ++ bytesOfNat 8 e.mask.toNat) ++
    zeros (136 * (16 - q.length))

/-- A base numbering register: byte e is entry e. -/
def bnImage (v : BitVec 448) : List Byte := (List.range 64).map (fun e => (v.extractLsb' (7 * e) 7).setWidth 8)

/-- DEST of an IFQ entry. -/
def destCode : Dest → Nat
  | .s r => r.toNat * 8
  | .v r => 1 + r.toNat * 8
  | .p r => 2 + r.toNat * 8
  | .x r => 3 + r.toNat * 8
  | _ => 0

def destOfCode (n : Nat) : Dest :=
  match n % 8 with
  | 0 => .s (BitVec.ofNat 6 (n / 8))
  | 1 => .v (BitVec.ofNat 5 (n / 8))
  | 2 => .p (BitVec.ofNat 4 (n / 8))
  | _ => .x (BitVec.ofNat 4 (n / 8))

/-- The lane mask of an IFQ entry: the 32-bit lanes of a vector that it writes any byte of, bits of a predicate, bit 0
otherwise. -/
def laneMask (d : Dest) (m : Part) : Nat :=
  match d with
  | .v _ => natOfBits ((List.range 32).map (fun i => (m.extractLsb' (4 * i) 4) != 0))
  | _ => (m.setWidth 32).toNat

def laneMaskOf (d : Dest) (n : Nat) : Part :=
  match d with
  | .v _ => lanePart (BitVec.ofNat 32 n)
  | _ => BitVec.ofNat 128 n

def IfqEntry.image (e : IfqEntry) : List Byte :=
  bytesOfNat 128 e.val.toNat ++ bytesOfNat 4 (laneMask e.dest e.live) ++
    bytesOfNat 4 (destCode e.dest) ++ bytesOfNat 4 e.delay ++ zeros 4

/-- An IFQ entry in whole lanes, behind the entries before it: bytes of its lanes that it does not write, or that a later result
has taken over (R84), come from these, or from the register. DEDUCED (log 35). -/
def Ctx.wholeLanes (c : Ctx) (before : List IfqEntry) (e : IfqEntry) : IfqEntry :=
  let under := before.foldl (fun v x => if x.dest = e.dest then e.dest.mix v x.val x.live else v) (c.stored e.dest)
  let m := laneMaskOf e.dest (laneMask e.dest e.live)
  { e with val := e.dest.mix 0 (e.dest.mix under e.val e.live) m, lanes := m, live := m }

/-- IFQ entries in whole lanes, in order. -/
def Ctx.wholeIfq (c : Ctx) (before : List IfqEntry) : List IfqEntry → List IfqEntry
  | [] => []
  | e :: es => c.wholeLanes before e :: Ctx.wholeIfq c (before ++ [e]) es

/-- The register of a site. -/
def Dest.ofSite (n : Nat) : Dest :=
  if n < 64 then .s (BitVec.ofNat 6 n) else if n < 96 then .v (BitVec.ofNat 5 (n - 64))
  else if n < 112 then .p (BitVec.ofNat 4 (n - 96)) else if n < 128 then .x (BitVec.ofNat 4 (n - 112))
  else .bn (BitVec.ofNat 3 (n - 128))

/-- A context as its image holds it: what an unwind left unpredictable has some value (R10, R305), and the IFQ stands in
whole lanes. DEDUCED (log 15). -/
def Ctx.toSave (c : Ctx) (free : Nat → Vec) : Ctx :=
  let c := c.unpred.foldl (fun c p => c.store (Dest.ofSite p.1) (free p.1) p.2) c
  { c with ifq := c.wholeIfq [] c.ifq }

/-- The control section (Table 15.5). -/
def Ctx.controlImage (c : Ctx) : List Byte :=
  bytesOfNat 4 c.fpctl.toNat ++ bytesOfNat 4 c.fpsw.toNat ++
    (List.range 8).flatMap (fun k => bytesOfNat 4 (SMap.get 0 c.ksw k).toNat) ++
    bytesOfNat 4 c.own.toNat ++ bytesOfNat 4 c.repcnt.toNat ++ bytesOfNat 4 c.node.toNat ++
    bytesOfNat 4 (natOfBits ((List.range 8).map (fun k => (c.held.find k).isSome))) ++
    bytesOfNat 8 c.nkey.toNat ++ bytesOfNat 8 c.gf.toNat ++ bytesOfNat 16 c.piv.toNat ++ bytesOfNat 16 c.brk.toNat ++
    (List.range 4).flatMap (fun w => bytesOfNat 8 (c.loop.word w).toNat) ++
    bytesOfNat 8 c.depth.toNat ++ (List.range 4).flatMap (fun k => bytesOfNat 8 (SMap.get 0 c.hand k).toNat) ++
    (List.range 8).flatMap (fun k => bytesOfNat 4 (SMap.get 0 c.held k).toNat) ++
    bytesOfNat 4 c.ifq.length ++ zeros 44

/-- The body of an image (Table 15.4). -/
def Ctx.bodyImage (c : Ctx) (cycle : Nat) : List Byte :=
  bytesOfNat 8 c.pc.toNat ++ (List.range 63).flatMap (fun i => bytesOfNat 8 (SMap.get 0 c.s (i + 1)).toNat) ++
    (List.range 32).flatMap (fun i => bytesOfNat 128 (SMap.get 0 c.v i).toNat) ++
    zeros 4 ++ (List.range 15).flatMap (fun i => bytesOfNat 4 (SMap.get 0 c.p (i + 1)).toNat) ++
    (List.range 16).flatMap (fun i => bytesOfNat 4 (SMap.get 0 c.x i).toNat) ++
    (List.range 8).flatMap (fun n => (List.range 256).flatMap (fun e =>
      bytesOfNat 8 (SMap.get 0 (SMap.get [] c.k n) e).toNat)) ++
    (List.range 4).flatMap (fun n => queueImage (SMap.get [] c.q n)) ++
    (List.range 8).flatMap (fun n => (SMap.get .empty c.l n).image cycle) ++
    (List.range 16).flatMap (fun n => bytesOfNat 32 (SMap.get 0 c.d n).toNat) ++
    (List.range 4).flatMap (fun n => bytesOfNat 32 (c.book n).ents.toNat ++ bytesOfNat 32 (c.book n).esc.toNat) ++
    (List.range 8).flatMap (fun n => bnImage (SMap.get 0 c.bn n)) ++
    c.controlImage ++
    c.ifq.flatMap IfqEntry.image ++ zeros (144 * (64 - c.ifq.length))

/-- The bytes of an image without its footprint. -/
def imageFixed : Nat := 0xA440

/-- The header (Table 15.3). -/
def headerImage (node : BitVec 32) (lidx : Nat) (f : Footprint) (crc : BitVec 32) : List Byte :=
  bytesOfNat 4 0x49434742 ++ bytesOfNat 4 1 ++ bytesOfNat 4 node.toNat ++ bytesOfNat 4 (lidx % 256) ++
    bytesOfNat 8 (imageFixed + f.len) ++ bytesOfNat 4 crc.toNat ++ bytesOfNat 4 f.len ++ bytesOfNat 4 f.base ++ zeros 28

/-- The whole image. -/
def Ctx.image (c : Ctx) (cycle lidx : Nat) (f : Footprint) (data : List Byte) : List Byte :=
  let body := c.bodyImage cycle ++ data
  headerImage c.node lidx f (crc32c body) ++ body

/-- The context that an image holds. Its landing registers count their due cycles from `cycle`. No predicate counts as
written by a bundle before the save (R86). DEDUCED (log 15). DESIGN CHOICE (log 54). -/
def Ctx.ofImage (bs : List Byte) (cycle : Nat) : Ctx :=
  let n (off len : Nat) : Nat := leNat bs off len
  let list (k : Nat) {α : Type} (f : Nat → α) : SMap α := (List.range k).map (fun i => (i, f i))
  let nz {α : Type} [BEq α] (d : α) (m : SMap α) : SMap α := m.filter (fun p => !(p.2 == d))
  let queue (b : Nat) : List QEntry := (List.range (n b 1)).map (fun i =>
    ⟨BitVec.ofNat 1024 (n (b + 64 + 136 * i) 128), BitVec.ofNat 32 (n (b + 192 + 136 * i) 4), true, 0⟩)
  let landing (b : Nat) : Landing :=
    if n (b + 128) 1 = 2 then .landed (BitVec.ofNat 1024 (n b 128)) (cycle + n (b + 132) 4) none else .empty
  let ctl := 0x7F40
  let held := n (ctl + 52) 4
  let ifq (b : Nat) : IfqEntry :=
    let d := destOfCode (n (b + 132) 2)
    let m := laneMaskOf d (n (b + 128) 4)
    ⟨BitVec.ofNat 1024 (n b 128), m, m, d, n (b + 136) 4⟩
  { Ctx.reset with
    pc := BitVec.ofNat 64 (n 0x40 8)
    npc := BitVec.ofNat 64 (n 0x40 8)
    s := nz 0 ((list 64 (fun i => BitVec.ofNat 64 (n (0x40 + 8 * i) 8))).drop 1)
    v := nz 0 (list 32 (fun i => BitVec.ofNat 1024 (n (0x240 + 128 * i) 128)))
    p := nz 0 ((list 16 (fun i => BitVec.ofNat 32 (n (0x1240 + 4 * i) 4))).drop 1)
    x := nz 0 (list 16 (fun i => BitVec.ofNat 32 (n (0x1280 + 4 * i) 4)))
    k := nz [] (list 8 (fun t => nz 0 (list 256 (fun e => BitVec.ofNat 64 (n (0x12C0 + 2048 * t + 8 * e) 8)))))
    q := nz [] (list 4 (fun i => queue (0x52C0 + 2240 * i)))
    l := nz .empty (list 8 (fun i => landing (0x75C0 + 144 * i)))
    d := nz 0 (list 16 (fun i => BitVec.ofNat 256 (n (0x7A40 + 32 * i) 32)))
    cb := nz Codebook.reset
      (list 4 (fun i => ⟨BitVec.ofNat 256 (n (0x7C40 + 64 * i) 32), BitVec.ofNat 16 (n (0x7C60 + 64 * i) 2)⟩))
    bn := nz 0 (list 8 (fun i => BitVec.ofNat 448
      ((List.range 64).foldl (fun a e => a + n (0x7D40 + 64 * i + e) 1 % 128 * 2 ^ (7 * e)) 0)))
    held := (list 8 (fun k => BitVec.ofNat 32 (n (ctl + 176 + 4 * k) 4))).filter (fun p => held.testBit p.1)
    fpctl := BitVec.ofNat 32 (n ctl 4) &&& fpctlMask
    fpsw := BitVec.ofNat 32 (n (ctl + 4) 4) &&& fpswMask
    ksw := nz 0 (list 8 (fun k => BitVec.ofNat 32 (n (ctl + 8 + 4 * k) 4) &&& kswMask))
    own := BitVec.ofNat 2 (n (ctl + 40) 4)
    repcnt := BitVec.ofNat 32 (n (ctl + 44) 4) &&& repcntMask
    node := BitVec.ofNat 32 (n (ctl + 48) 4)
    nkey := BitVec.ofNat 64 (n (ctl + 56) 8)
    gf := BitVec.ofNat 64 (n (ctl + 64) 8)
    piv := BitVec.ofNat 128 (n (ctl + 72) 16)
    brk := BitVec.ofNat 128 (n (ctl + 88) 16) &&& brkMask
    loop := LoopSt.ofWords (BitVec.ofNat 64 (n (ctl + 104) 8)) (BitVec.ofNat 64 (n (ctl + 112) 8))
      (BitVec.ofNat 64 (n (ctl + 120) 8)) (BitVec.ofNat 64 (n (ctl + 128) 8))
    depth := BitVec.ofNat 3 (n (ctl + 136) 8)
    hand := nz 0 (list 4 (fun k => BitVec.ofNat 64 (n (ctl + 144 + 8 * k) 8)))
    ifq := (List.range (n (ctl + 208) 4)).map (fun i => ifq (0x8040 + 144 * i))
    stallUntil := cycle }

/-- The ignored p0 slot read as zero. -/
def clearP0 (bs : List Byte) : List Byte := bs.mapIdx (fun i b => if 0x1240 ≤ i ∧ i < 0x1244 then 0 else b)

/-- The checks of R313, reserved fields of control registers among them (R8): an image is the image of the context that it holds, with the node, the logical index and the
footprint that it must have, and its CRC. DEDUCED (log 15). -/
def imageOk (bs : List Byte) (node : BitVec 32) (lidx dqbase dqlim cycle : Nat) : Bool :=
  let c := Ctx.ofImage bs cycle
  match footprint (SMap.get 0 c.d 15) dqbase dqlim with
  | none => false
  | some f =>
    let data := (bs.drop imageFixed).take f.len
    bs.length == imageFixed + f.len && c.node == node && clearP0 (bs.drop 64 |> fun b => zeros 64 ++ b) ==
      zeros 64 ++ c.bodyImage cycle ++ data && bs.take 64 == headerImage node lidx f (crc32c (bs.drop 64))

/-! ### The pool (R311) -/

def slotSize : Nat := 0x200000

/-- A free slot of a space's pool: its number and its address. -/
def Space.freeSlot (sp : Space) : Option (Nat × Nat) :=
  match sp.pool with
  | none => none
  | some (va, n) =>
    ((List.range n).find? (fun k => !sp.used.contains k)).map (fun k => (k, va.toNat + slotSize * k))

/-- A free slot of the pool of a space. -/
def State.freeSlot (s : State) (space : Nat) : Option (Space × Nat × Nat) :=
  match s.spaces.find space with
  | none => none
  | some sp => sp.freeSlot.map (fun x => (sp, x.1, x.2))

/-- Free the slot that an image holds. -/
def State.freeImage (s : State) (space : Nat) (i : Image) : State :=
  let s := { s with images := s.images.filter (fun j => j != i) }
  match s.spaces.find space with
  | some sp =>
    (match sp.pool with
     | some (va, _) =>
       { s with spaces := s.spaces.put space { sp with used := sp.used.filter (fun k => va.toNat + slotSize * k != i.va.toNat) } }
     | none => s)
  | none => s

/-- The saved image of a slice of a node. -/
def State.imageOf (s : State) (gi ni lidx : Nat) : Option Image :=
  s.images.find? (fun i => i.slice.graph == gi && i.slice.node == ni && i.slice.lidx == lidx)

/-! ### Saving (R309 to R311) -/

/-- Every pending landing register holds its data (R309). -/
def Ctx.dataHere (c : Ctx) : Bool :=
  c.l.all (fun p => match p.2 with | .pending _ _ d _ => d.isSome | _ => true)

/-- A stopped command of a context (R309). -/
def Ctx.hasStopped (c : Ctx) : Bool :=
  c.failed != [] || c.copies.any (fun p => match p.2 with | .faulted _ => true | _ => false)

/-- A pre-emption that is not taken (R292): the decision stands for this newcomer and this victim.
DESIGN CHOICE (log 44). -/
def State.decline (s : State) (c : CtxId) : State :=
  match (s.waiting c.core).head?, (s.ctx c).slice with
  | some e, some sl =>
    { s with declined := s.declined.filter (fun d => d.core != c.core) ++ [⟨c.core, e, sl.graph, sl.node, sl.lidx⟩] }
  | _, _ => s

/-- A save is abandoned: the slice runs on, and its IFQ is injected with its next bundle (R309, R310). -/
def State.abandonSave (s : State) (c : CtxId) : State := (s.decline c).updCtx c (fun k => { k with request := .none })

/-- The core whose deque a saved slice re-enters (R293), also where none has room. DESIGN CHOICE (log 65). -/
def State.resumeCore (s : State) (core : Nat) (n : Node) : Nat :=
  if n.pin then core
  else (((List.range 8).map (fun p => 8 * n.home + p)).find? s.hasRoom).getD (8 * n.home)

/-- The poison of a footprint granule or of a landing register travels into the image (R259). -/
def State.imagePoison (s : State) (c : CtxId) (f : Footprint) (keys : List Nat) : List Nat :=
  let k := s.ctx c
  let fp := (List.range (f.len / 64)).filterMap (fun g =>
    if s.poisoned (slabKey c.core (f.base + 64 * g)) then keys[imageFixed + 64 * g]? else none)
  let l := (List.range 8).flatMap (fun n =>
    if (SMap.get .empty k.l n).poisoned then (keys.drop (0x75C0 + 144 * n)).take 128 else [])
  dedup ((fp ++ l).map granule)

/-- A running ring. -/
def CopyState.ring : CopyState → Option CopyCmd
  | .running q => (match q.kind with | .ring _ => some q | _ => none)
  | _ => none

/-- A context frees (R15, R308, R309); its rings run on (R250). DEDUCED (log 33). -/
def State.freeCtx (s : State) (c : CtxId) : State :=
  (s.updCtx c (fun k => { k with
    slice := none
    request := .none
    copies := []
    orphans := k.orphans ++ k.copies.filterMap (fun p => p.2.ring) })).renewIdle c.core

/-- A context takes a slice; rings of earlier slices stay with it. -/
def State.enter (s : State) (c : CtxId) (x : Ctx) : State := s.setCtx c { x with orphans := (s.ctx c).orphans }

/-- An image is written to its place, and takes its slot of the pool. -/
def State.putImage (s : State) (c : CtxId) (f : Footprint) (keys : List Nat) (bs : List Byte) (space : Nat) (sp : Space)
    (i : Nat) (im : Image) : State :=
  let bad := s.imagePoison c f keys
  let s := (s.store (keys.zip bs)).1
  let s := bad.foldl (fun s g => s.poisonGranule g) s
  { s with
    spaces := SMap.put s.spaces space { sp with used := sp.used ++ [i] }
    images := s.images ++ [im] }

/-- The save reads the footprint and writes the image, and is a release behind that (R249, R309).
DESIGN CHOICE (log 50). -/
def State.noteSave (s : State) (c : CtxId) (f : Footprint) (keys : List Nat) (va : DWord) : State :=
  ((s.noteImage c .read ((List.range f.len).map (fun i => slabKey c.core (f.base + i)))).noteImage c .write keys).sync
    (.ctx c) s.stepId (.save va)

/-- A saved slice leaves its context and waits with RES = 1; the course of its deque wakes (R293, R294). -/
def State.requeue (s : State) (c : CtxId) (sl : Slice) (n : Node) : State :=
  let s := s.freeCtx c
  let home := s.resumeCore c.core n
  let s := s.pushEntry home ⟨true, n.pin, sl.lidx, n.addr⟩
  s.setCourse (courseOf home) (s.course (courseOf home)).wake

/-- The errors that a save finds in the footprint (R258). -/
def State.findFootprint (s : State) (c : CtxId) (f : Footprint) : State :=
  if s.flaws = [] then s else s.findAny ((List.range f.len).map (fun i => slabKey c.core (f.base + i)))

/-- The image of a context at its boundary. -/
def State.imageBytes (s : State) (c : CtxId) (sl : Slice) (f : Footprint) : List Byte :=
  ((s.ctx c).toSave (Config.unpredictable s.tick)).image (s.core c.core).cycle sl.lidx f (s.bytes (slabKey c.core f.base) f.len)

/-- A save fails: the node faults with SAVE as of the boundary (R309, R310). -/
def State.failSave (s : State) (c : CtxId) : State :=
  s.take c ⟨(s.ctx c).seq, 0xF, false, (s.ctx c).pc, causeSave, 0, none⟩ false 0 0

/-- The image of a slice is written to a free slot of the pool, or the save fails. -/
def State.saveImage (s : State) (c : CtxId) (sl : Slice) (n : Node) (space : Nat) (f : Footprint) (bs : List Byte) : State :=
  match s.freeSlot space with
  | none => s.failSave c
  | some (sp, i, va) =>
    match s.recordKeys space .write va bs.length with
    | none => s.failSave c
    | some keys =>
      let im : Image := ⟨sl, (s.ctx c).pc, BitVec.ofNat 64 va⟩
      ((s.putImage c f keys bs space sp i im).noteSave c f keys im.va).requeue c sl n

/-- The save (R309): abandoned, failed with SAVE, or written; then the slice waits with RES = 1. DEDUCED (log 15). -/
def State.save (s : State) (c : CtxId) : State :=
  let k := s.ctx c
  match k.slice with
  | none => s
  | some sl =>
    match s.nodeOf sl.graph sl.node, s.graphs.find sl.graph,
        footprint (SMap.get 0 k.d 15) (s.core c.core).dqbase.toNat (s.core c.core).dqlim.toNat with
    | some n, some g, some f =>
      if k.hasStopped then s.abandonSave c
      else
        let s := s.findFootprint c f
        s.saveImage c sl n g.space f (s.imageBytes c sl f)
    | _, _, _ => s.abandonSave c

/-- IMAGE_SAVE (R309): once everything in flight of the context has completed. -/
def execImageSave (c : CtxId) (s : State) : Host.Outcome State Fault Refusal :=
  if s.boot ≠ .running then .next s else
  let k := s.ctx c
  if k.request = .saving && s.settled c && k.dataHere && k.late == [] then .next (s.save c) else .next s

/-! ### Restoring (R313, R315) -/

/-- Bytes of an image are read for a context, and the errors of their granules are found (R315). -/
def State.readPart (s : State) (c : CtxId) (space va n : Nat) : State :=
  (s.ksFind space va n).noteImage c .read ((s.recordKeys space .read va n).getD [])

/-- The restoring of an image is an acquire (R249), and reads it. -/
def State.readImage (s : State) (c : CtxId) (space : Nat) (va : DWord) : State × Option (List Byte) :=
  let s := (s.sync (.ctx c) s.stepId (.restore va)).readPart c space va.toNat 64
  match s.ksRead space va.toNat 64 with
  | none => (s, none)
  | some h =>
    let n := leNat h 16 8
    if slabSize + imageFixed < n then (s, none)
    else
      let s := s.readPart c space va.toNat n
      (s, s.ksRead space va.toNat n)

/-- A restore fails: the node faults with RESTORE as of its last boundary (R315). -/
def State.failRestore (s : State) (c : CtxId) (n : Node) (i : Image) : State :=
  (s.enter c { Ctx.reset with slice := some i.slice, pc := i.pc, node := n.id }).take c
    ⟨0, 0xF, false, i.pc, causeRestore, 0, none⟩ false 0 0

/-- A slice is restored onto a context, or its node faults. DEDUCED (log 15). -/
def State.restore (s : State) (c : CtxId) (g : Graph) (n : Node) (i : Image) : State :=
  let k := s.core c.core
  let t := k.cycle + 1
  let r := s.readImage c g.space i.va
  let s := r.1.freeImage g.space i
  match r.2 with
  | some bs =>
    if imageOk bs n.id i.slice.lidx k.dqbase.toNat k.dqlim.toNat t then
      let cells := cellsAt (slabKey c.core (leNat bs 32 4)) (bs.drop imageFixed)
      let s := (s.store cells).1
      (s.enter c { Ctx.ofImage bs t with slice := some { i.slice with attempt := n.attempt } }).noteImage c .write
        (cells.map Prod.fst)
    else s.failRestore c n i
  | none => s.failRestore c n i

end Sys2Proof.Machine
end

