-- ==== Sys2Proof/Machine/Order.lean ====
section
/-! DEFINITION. The memory model over what has performed (ch. 10): program order, scopes, releases and acquires, the pairs that
synchronise, and the steps of happens-before (R239 to R250). An event is named by its place in a list of events in the order in
which they performed. DESIGN CHOICE (log 50). -/

namespace Sys2Proof.Machine

def Ev.reads (p : Ev) : Bool := p.kind == .read || p.kind == .rmw
def Ev.writes (p : Ev) : Bool := p.kind == .write || p.kind == .rmw
def Ev.writesAt (p : Ev) (k : Nat) : Bool := p.writes && p.keys.contains k
def Ev.readsAt (p : Ev) (k : Nat) : Bool := p.reads && p.keys.contains k

/-- The context in whose program order an agent's operation stands: its own, or that of the copy. -/
def Agent.issuer : Agent → Option CtxId
  | .ctx c => some c
  | .engine c => some c
  | _ => none

/-- Whether an agent is a context. -/
def Agent.isCtx : Agent → Bool
  | .ctx _ => true
  | _ => false

/-- The core of an agent: of a context, of a copy engine, or the one that has subscribed the ring that Quarry serves. -/
def Agent.core : Agent → Option Nat
  | .ctx c => some c.core
  | .engine c => some c.core
  | .quarry n => some n
  | _ => none

/-! ### Scopes (R242) -/

/-- Whether an agent is a member of a scope that an operation of another agent names (Table 10.3). Quarry while it serves a
ring of a core is a member of that core's die. -/
def inScope (scope : BitVec 3) (a b : Agent) : Bool :=
  match b with
  | .host _ => scope == 5
  | .keystone => decide (3 ≤ scope.toNat)
  | .monitor => decide (3 ≤ scope.toNat)
  | b =>
    match a.core, b.core with
    | some x, some y =>
      let quarry := match b with | .quarry _ => true | _ => false
      (match scope.toNat with
       | 0 => x == y && !quarry
       | 1 => x / 8 == y / 8 && !quarry
       | 2 => x / 64 == y / 64
       | _ => true)
    | _, _ => decide (3 ≤ scope.toNat)

/-! ### Program order, releases and acquires (R239, R241, R244) -/

/-- Two operations of one context's program order (R239): copies stand where they issue. -/
def Ev.together (p q : Ev) : Bool := p.agent.issuer.isSome && p.agent.issuer == q.agent.issuer

/-- Program order of a context. -/
def Ev.poBefore (p q : Ev) : Bool := p.together q && decide (p.id < q.id)

/-- A fence, which is no memory operation (Table 10.1). -/
def Ev.isFence (f : Ev) : Bool :=
  match f.kind with
  | .fence _ _ => true
  | _ => false

/-- A fence whose mask names a class of another operation (R131, R240). -/
def Ev.fences (f p : Ev) : Bool :=
  match f.kind with
  | .fence m _ => m &&& p.classes != 0
  | _ => false

/-- The scope of a fence. -/
def Ev.scope (f : Ev) : BitVec 3 :=
  match f.kind with
  | .fence _ sc => sc
  | _ => 0

/-- A relaxed operation is neither a release nor an acquire (R241). -/
def Ev.relaxed (p : Ev) : Bool := p.release.isNone && p.acquire.isNone

/-- What a fence can make a release (R244): a relaxed atomic write, and BEAD and GLAUNCH, which count as one in every class. -/
def Ev.relaxedWrite (p : Ev) : Bool := (p.atomic && p.writes && p.relaxed) || p.kind == .post

/-- What a fence can make an acquire (R244). -/
def Ev.relaxedRead (p : Ev) : Bool := p.atomic && p.reads && p.relaxed

/-- The scopes at which an operation counts as a release (R241, R244): its own, and that of a fence before it that names its
class, where it is a relaxed atomic write. -/
def releaseScopes (h : List Ev) (w : Ev) : List (BitVec 3) :=
  w.release.toList ++ if w.relaxedWrite then (h.filter (fun f => f.fences w && f.poBefore w)).map Ev.scope else []

/-- The scopes at which an operation counts as an acquire (R241, R244): a fence behind it stands in where it is a relaxed
atomic read. -/
def acquireScopes (h : List Ev) (r : Ev) : List (BitVec 3) :=
  r.acquire.toList ++ if r.relaxedRead then (h.filter (fun f => f.fences r && r.poBefore f)).map Ev.scope else []

/-! ### Synchronisation (R243, R249) -/

/-- The events between two places. -/
def between (h : List Ev) (i j : Nat) : List Ev := (h.take j).drop (i + 1)

/-- The acquire at the later place synchronises with the release at the earlier one (R243, R244): at a location the acquire reads
what the release or a member of its release sequence wrote, since only RMWs wrote there in between. -/
def synchronises (h : List Ev) (i j : Nat) (p q : Ev) : Bool :=
  (releaseScopes h p).any (fun x => inScope x p.agent q.agent) &&
    (acquireScopes h q).any (fun x => inScope x q.agent p.agent) &&
    p.keys.any (fun k => p.writesAt k && q.readsAt k && (between h i j).all (fun e => !e.writesAt k || e.kind == .rmw))

/-- An arrival at a barrier that is not withdrawn, and its completion on a participant (R130). -/
def barrierPair (h : List Ev) (i j : Nat) (p q : Ev) : Bool :=
  match p.kind, q.kind with
  | .arrive n b, .complete m c =>
    n == m && b == c && (between h i j).all (fun e =>
      !(e.kind == .complete n b && e.id != q.id) && !(e.kind == .withdraw n b && e.agent == p.agent))
  | _, _ => false

/-- Whether an operation stands behind a bead or a launch of some origin: the NDONE of a slice of the node, the BEAD or GLAUNCH,
or a host write on the same link that went before it; and the data of a SLABWR, which the host has seen complete before (R363).
DESIGN CHOICE (log 50). -/
def Ev.leads (p : Ev) (gi : Nat) : Origin → Bool
  | .node n => p.kind == .ndone gi n
  | .ctx c id => p.kind == .post && p.agent == .ctx c && p.id == id
  | .host l => p.writes && (p.agent == .host l || p.agent == .monitor)
  | .other => false

/-- Among some events, a bead of a node that `p` leads to, whose arrival bit nothing clears behind it (R249, R289). -/
def beadStands (p : Ev) (gi m : Nat) : List Ev → Bool
  | [] => false
  | e :: es =>
    (match e.kind with
     | .bead src g n slot => g == gi && n == m && p.leads gi src && es.all (fun x => x.kind != .unbead gi m slot)
     | _ => false) || beadStands p gi m es

/-- NDONE, a BEAD or a host write, and entry to a slice of a node whose arrival bit its bead has set; GLAUNCH or a host write, and
entry to a slice of a node of the graph that it has launched. -/
def entryPair (h : List Ev) (i j : Nat) (p q : Ev) : Bool :=
  match q.kind with
  | .enter gi m =>
    beadStands p gi m (between h i j) || (between h i j).any (fun e =>
      match e.kind with | .launch src g => g == gi && p.leads gi src | _ => false)
  | _ => false

/-- What went before a launch, and Keystone's taking of it: what is written to the records before they run does not race with
Keystone (R286). DESIGN CHOICE (log 50). -/
def takenPair (p q : Ev) : Bool :=
  match q.kind with
  | .taken src => p.leads 0 src
  | _ => false

/-- Keystone's events of one graph, in their single order (R286). DESIGN CHOICE (log 50). -/
def keystoneOrder (p q : Ev) : Bool := p.agent == .keystone && q.agent == .keystone && p.id == q.id

/-- Whether an agent is Quarry. -/
def Agent.isQuarry : Agent → Bool
  | .quarry _ => true
  | _ => false

/-- Quarry's accesses at one slot of a ring (R248): what it moves, then its state-byte write; its read of the state byte, then
what it moves behind it. -/
def quarryOrder (p q : Ev) : Bool :=
  p.agent.isQuarry && p.agent == q.agent && p.id == q.id && ((q.atomic && q.writes) || (p.atomic && p.reads))

/-- The saving of an image, and its restoring. -/
def imagePair (h : List Ev) (i j : Nat) (p q : Ev) : Bool :=
  match p.kind, q.kind with
  | .save a, .restore b => a == b && (between h i j).all (fun e => e.kind != .save a)
  | _, _ => false

/-! ### The steps of happens-before (R245) -/

/-- The event ends the slice of another one without a release (R250): the slice stops, or its node becomes VOID. -/
def Ev.ends (a p : Ev) : Bool :=
  match a.kind with
  | .stop => a.together p && a.slice == p.slice
  | .voided g n => (match p.slice with | some (x, y, _) => x == g && y == n | none => false)
  | _ => false

/-- An entry to a slice, or the restoring of one. -/
def Ev.isEntry (e : Ev) : Bool :=
  match e.kind with
  | .enter _ _ => true
  | .restore _ => true
  | _ => false

/-- The slice of p ends without a release before Keystone starts the slice of q (R250): p happens before nothing of it by program
order, by completion or by an interlock. DESIGN CHOICE (log 50). -/
def disowned (h : List Ev) (p q : Ev) : Bool :=
  h.any (fun a => a.ends p && decide (p.id ≤ a.id) &&
    h.any (fun e => e.isEntry && e.agent.issuer == q.agent.issuer && decide (a.id ≤ e.id) && decide (e.id ≤ q.id)))

/-- Whether an access is none of the device-memory side of a copy, which only a WAIT and its class order (R238, R247). -/
def Ev.onOwnSide (p : Ev) : Bool :=
  match p.agent with
  | .engine _ => p.own
  | _ => true

/-- Local order (R245 step 1): one class, which an acquire or a release of the class shares; bytes that overlap; or a fence
between them whose mask names both classes. A copy comes after what precedes it in its class and, on its slab side, after
what overlaps it; nothing comes after a copy for its class alone (R238, R247). -/
def localOrder (h : List Ev) (p q : Ev) : Bool :=
  p.agent.isCtx && p.together q && decide (p.id ≤ q.id) && !p.isFence && !q.isFence && !disowned h p q &&
    (p.classes &&& q.classes != 0 || (q.onOwnSide && overlaps p.keys q.keys) ||
      h.any (fun f => f.fences p && f.fences q && p.poBefore f && f.poBefore q))

/-- An access of the saving or the restoring of an image. -/
def Ev.ofImage (p : Ev) : Bool := !p.atomic && (p.reads || p.writes) && p.classes == allClasses

/-- What completes every copy of its slice first: NDONE, and the saving of its image (R249). -/
def Ev.retires (q : Ev) : Bool :=
  match q.kind with
  | .ndone _ _ => true
  | .save _ => true
  | _ => q.ofImage

/-- Completion (R245 step 2): a unit of a copy, whose completion a WAIT has observed, and what comes in a later bundle than the
WAIT (R241, R247); or the NDONE or the saving of its slice, which complete every copy first (R249).
DESIGN CHOICE (log 50). -/
def completion (h : List Ev) (i j : Nat) (p q : Ev) : Bool :=
  let observed (c : CtxId) : Bool := (between h i j).any (fun w =>
    match w.kind with
    | .waited m => w.agent == .ctx c && decide (w.id / 16 < q.id / 16) && (between h i j).any (fun e =>
        match e.kind with
        | .copied id => e.agent == .engine c && e.id == p.id && m.getLsbD id.toNat
        | _ => false)
    | _ => false)
  (match p.agent with
   | .engine c => q.agent.issuer == some c && observed c && !disowned h p q
   | _ => false) ||
  ((match p.agent with | .engine _ => true | .quarry _ => true | _ => false) &&
    q.retires && p.slice.isSome && p.slice == q.slice && p.agent.core == q.agent.core)

/-- The granules of some bytes. -/
def granulesOfKeys (ks : List Nat) : List Nat := ks.map granule

/-- Interlock (R245 step 3): what a core accesses of a region of a copy, of ACCST or of an array operation, once the operation
is complete (R182, R219). Only writes of the copy slots wait for the reads of an array operation; a later copy or ACCST waits for
its region. The wait of ACCT, ACCMOV and RDC for registers is none. DESIGN CHOICE (log 50). -/
def interlock (h : List Ev) (p q : Ev) : Bool :=
  p.held != [] && p.agent.core == q.agent.core && q.agent.issuer.isSome && decide (p.id < q.id) && decide (16 * p.tick ≤ q.id) &&
    decide (5 ≤ q.id % 16) && decide (q.id % 16 ≤ 7) && (!p.agent.isCtx || p.both || q.id % 16 != 5) &&
    ((overlaps p.held q.held && (p.both || q.both)) ||
      (q.onOwnSide && overlaps p.held (granulesOfKeys q.keys) && (p.both || q.writes))) &&
    !disowned h p q

/-- A step of happens-before between the events at two places, the earlier one first (R245). -/
def stepOf (h : List Ev) (i j : Nat) (p q : Ev) : Bool :=
  localOrder h p q || completion h i j p q || interlock h p q || synchronises h i j p q || barrierPair h i j p q ||
    entryPair h i j p q || takenPair p q || keystoneOrder p q || quarryOrder p q || imagePair h i j p q

/-- A step of happens-before, by places. -/
def edge (h : List Ev) (i j : Nat) : Bool :=
  decide (i < j) && match h[i]?, h[j]? with
    | some p, some q => stepOf h i j p q
    | _, _ => false

/-- The places below `n` that a chain of steps leads from to one of some places, with these: the places are taken from the last
one down. DEDUCED (log 39). -/
def behind (h : List Ev) : Nat → List Nat → List Nat
  | 0, l => l
  | n + 1, l => behind h n (if l.any (fun j => edge h n j) then n :: l else l)

end Sys2Proof.Machine
end

