-- ==== Sys2Proof/Machine/Slices.lean ====
section
/-! DEFINITION. Slices on cores (R15 to R17, R282): start, stealing (R284), kill (R307, R308), pre-emption (R292, R293);
gating, waking and operating points (R294, R354, R355); a twin-pair mismatch (R350). -/

namespace Sys2Proof.Machine

/-! ### The slicing function (R282) -/

/-- The first iteration and the count of the slice of logical index c among P cores of T iterations. -/
def sliceOf (t p c : Nat) : Nat × Nat :=
  let q := t / p
  let m := t % p
  (c * q + min c m, if c < m then q + 1 else q)

/-! ### Start (R15, R17) -/

/-- The free context of a core that a slice starts on. -/
def State.freeOn (s : State) (n : Nat) : Option CtxId :=
  if (s.core n).ctx0.slice.isNone then some ⟨n, false⟩
  else if (s.core n).ctx1.slice.isNone then some ⟨n, true⟩
  else none

/-- Whether a course can run slices: it is powered (R355), and an odd core of a twin pair takes none (R295). -/
def State.awake (s : State) (n : Nat) : Bool :=
  let co := s.course (courseOf n)
  !co.gated && !co.waking && !(co.twin && n % 2 == 1)

/-- The node that an entry names. -/
def State.entryNode (s : State) (core : Nat) (e : DequeEntry) : Option (Nat × Nat) :=
  match (s.course (courseOf core)).space with
  | some sp => s.findNode sp e.node.toNat
  | none => none

/-- The state of a context that enters a prologue (R17, Table 1.4). -/
def entryState (g : Graph) (n : Node) (sl : Slice) : Ctx :=
  let sreg : List (Nat × Nat) :=
    [(1, sl.lidx), (2, n.cores.length), (3, sl.first), (4, sl.count), (5, n.addr.toNat), (6, g.addr.toNat)]
  let l := if sl.count = 0 then none else some sl.first
  { Ctx.reset with
    slice := some sl
    pc := n.pro
    npc := n.pro
    s := (sreg.map (fun p => (p.1, BitVec.ofNat 64 p.2))).filter (fun p => p.2 != 0)
    x := ((List.range 6).map (fun d => (d, n.index l d))).filter (fun p => p.2 != 0)
    nkey := n.nkey
    node := n.id
    own := n.cls }

/-- The node's first slice has started. -/
def State.nodeStarts (s : State) (gi ni : Nat) : State :=
  match s.nodeOf gi ni with
  | some n => if n.state = .ready then (s.updNode gi ni (fun n => { n with startedAt := some s.tick })).setNodeState gi ni .running else s
  | none => s

/-- The entry at HEAD of a core starts on a free context. An entry that names no node of a RUNNING graph of the
course's space is dropped; a saved slice runs on its home course in the modes that the course has. DESIGN CHOICE (log 65). -/
def State.startSlice (s : State) (core : Nat) (c : CtxId) (e : DequeEntry) : State :=
  let s := s.findDeque core
  let e' := s.entryNode core e
  let s := s.popEntry core
  let s := { s with declined := s.declined.filter (fun d => d.core != core) }
  match e' with
  | none => s
  | some (gi, ni) =>
    match s.graphs.find gi, s.nodeOf gi ni with
    | some g, some n =>
      let s := s.nodeStarts gi ni
      if e.res then
        match s.imageOf gi ni e.lidx with
        | some i => s.restore c g n i
        | none => s
      else
        let r := sliceOf n.trip n.cores.length e.lidx
        (s.enter c (entryState g n ⟨gi, ni, n.attempt, e.lidx, r.1, r.2, 0, .prologue, false⟩)).sync (.ctx c) s.stepId
          (.enter gi ni)
    | _, _ => s

/-- SLICE_START (R15). -/
def execSliceStart (core : Nat) (s : State) : Host.Outcome State Fault Refusal :=
  if !s.ksReady || !s.awake core then .next s
  else match s.freeOn core, (s.waiting core).head? with
    | some c, some e => .next ({ s with cur := c }.startSlice core c e)
    | _, _ => .next s

/-! ### Stealing (R284) -/

/-- The order in which a thief searches its victims (R284): the cores of another course from position 0 up. DESIGN CHOICE (log 73). -/
def victims (n : Nat) : List Nat :=
  let c := courseOf n
  let die := c / 8
  (List.range 7).map (fun i => 8 * c + (n % 8 + 1 + i) % 8) ++
    (((List.range 8).map (fun i => 8 * die + i)).filter (· != c)).flatMap (fun k => (List.range 8).map (fun p => 8 * k + p))

/-- Whether a core may take an entry of another. -/
def State.mayRob (s : State) (thief victim : Nat) : Bool :=
  let a := s.course (courseOf thief)
  let b := s.course (courseOf victim)
  a.space.isSome && a.space == b.space && a.twin == b.twin && a.plumb == b.plumb

/-- The newest entry that is not pinned: its place. -/
def newestFree (es : List DequeEntry) : Option Nat :=
  ((es.mapIdx (fun i e => (i, e))).reverse.find? (fun p => !p.2.pin)).map Prod.fst

/-- The victim of a thief, with the place of the entry and the entry. -/
def State.robbery (s : State) (thief : Nat) : Option (Nat × Nat × DequeEntry) :=
  (victims thief).findSome? (fun v =>
    if s.mayRob thief v && (s.core v).hasDeque then
      match newestFree (s.waiting v) with
      | some i => ((s.waiting v)[i]?).map (fun e => (v, i, e))
      | none => none
    else none)

/-- Whether a core is idle (R284). -/
def State.idleCore (s : State) (n : Nat) : Bool :=
  (s.core n).ctx0.slice.isNone && (s.core n).ctx1.slice.isNone && s.waiting n == []

/-- WORK_STEALING (R284). -/
def execWorkStealing (core : Nat) (s : State) : Host.Outcome State Fault Refusal :=
  if !s.ksReady || !s.awake core || (s.course (courseOf core)).plumb || !s.idleCore core then .next s
  else match s.robbery core with
    | some (v, i, e) => .next (((s.findDeque v).setWaiting v ((s.waiting v).eraseIdx i)).pushEntry core e)
    | none => .next s

/-! ### Kill (R307, R308) -/

/-- Whether a kill takes effect: at an IB boundary, or past the deadline. -/
def Ctx.killNow (c : Ctx) (cycle : Nat) (deadline : Bool) : Bool :=
  match c.request with
  | .kill k => if deadline then decide (k + 512 ≤ cycle) else c.lastIb
  | _ => false

/-- KILL (R308): the slice stops; once what it issued has completed, its context frees. -/
def execKillSlice (c : CtxId) (s : State) : Host.Outcome State Fault Refusal :=
  if s.boot ≠ .running then .next s else
  if (s.ctx c).killNow (s.core c.core).cycle false then .next (s.stopSlice c)
  else if (s.ctx c).request = .stopped && s.settled c then .next ((s.sync (.ctx c) s.stepId .stop).freeCtx c)
  else .next s

/-- KILL_DEADLINE (R307). -/
def execKillDeadline (c : CtxId) (s : State) : Host.Outcome State Fault Refusal :=
  if s.boot ≠ .running then .next s else
  if (s.ctx c).killNow (s.core c.core).cycle true then .next (s.stopSlice c) else .next s

/-- Every context of the device. -/
def allCtxs : List CtxId := (List.range 32).flatMap courseCtxs

/-- Keystone asks for a kill (R307). -/
def State.requestKill (s : State) (c : CtxId) : State :=
  let k := s.ctx c
  match k.request with
  | .kill _ => s
  | .stopped => s
  | .retiring => s
  | _ => s.setCtx c { k with request := .kill (s.core c.core).cycle }

/-- The slices of a node are killed, but for one that has stopped already or retires. -/
def State.killNode (s : State) (gi ni : Nat) : State :=
  allCtxs.foldl (fun s c => if (s.ctx c).runs gi ni then s.requestKill c else s) s

/-- A core's deque loses the entries of a node. -/
def State.dropEntries (s : State) (gi ni core : Nat) : State :=
  let es := s.waiting core
  let keep := es.filter (fun e => s.entryNode core e != some (gi, ni))
  if keep == es then s else s.setWaiting core keep

def State.dropAllEntries (s : State) (gi ni : Nat) (cores : List Nat) : State :=
  cores.foldl (fun s core => s.dropEntries gi ni core) s

/-- The saved images of a node are dropped. -/
def State.dropImages (s : State) (gi ni : Nat) : State :=
  match s.graphs.find gi with
  | some g => (s.images.filter (fun i => i.slice.graph == gi && i.slice.node == ni)).foldl (fun s i => s.freeImage g.space i) s
  | none => s

/-- The waiting entries of a node, and its saved images, go. -/
def State.dropWaiting (s : State) (gi ni : Nat) : State :=
  (s.dropAllEntries gi ni (List.range 256)).dropImages gi ni

/-- Whether a context holds a slice of a node. -/
def State.anyRuns (s : State) (gi ni : Nat) : Bool := allCtxs.any (fun c => (s.ctx c).runs gi ni)

/-! ### Pre-emption (R292, R293) -/

/-- The four outcomes of Table 14.8. -/
inductive Preempt where
  | drain
  | checkpoint
  | kill
  | wait
  deriving DecidableEq, Repr

/-- Table 14.8: the first row that applies. -/
def Node.preempt (n : Node) (ns drainth : Nat) : Preempt :=
  if n.drain ∧ n.estimate - ns < drainth then .drain
  else if n.ckpt then .checkpoint
  else if n.kill ∧ n.idem then .kill
  else .wait

/-- Nanoseconds of a number of steps (log 2): one step counts as one cycle of the nominal 3.6 GHz. -/
def nsOfTicks (t : Nat) : Nat := t * 5 / 18

/-- The node of the slice on a context. -/
def State.nodeOn (s : State) (c : CtxId) : Option (Slice × Node) :=
  match (s.ctx c).slice with
  | none => none
  | some sl => (s.nodeOf sl.graph sl.node).map (fun n => (sl, n))

/-- The victim on a core (R292). -/
def State.victim (s : State) (core : Nat) : Option (CtxId × Slice × Node) :=
  match s.nodeOn ⟨core, false⟩, s.nodeOn ⟨core, true⟩ with
  | some (sa, a), some (sb, b) =>
    if a.tokens < b.tokens then some (⟨core, false⟩, sa, a) else some (⟨core, true⟩, sb, b)
  | _, _ => none

/-- A pre-emption to decide on: the newcomer's entry and the victim. DESIGN CHOICE (log 44). -/
def State.contest (s : State) (core : Nat) : Option (DequeEntry × CtxId × Slice × Node) :=
  match (s.waiting core).head? with
  | none => none
  | some e =>
    match s.entryNode core e, s.victim core with
    | some (gi, ni), some (c, sl, v) =>
      (match s.nodeOf gi ni with
       | none => none
       | some n =>
         if v.tokens < n.tokens && !s.isPlumb gi && !s.isPlumb sl.graph && (s.ctx c).request == .none &&
             !(s.declined.contains ⟨core, e, sl.graph, sl.node, sl.lidx⟩) then some (e, c, sl, v) else none)
    | _, _ => none

/-- PREEMPTION_DECISION (R292). DESIGN CHOICE (log 44). -/
def execPreemptionDecision (core : Nat) (s : State) : Host.Outcome State Fault Refusal :=
  if !s.ksReady then .next s else
  match s.contest core with
  | none => .next s
  | some (e, c, sl, v) =>
    let ns := match v.startedAt with | some t => nsOfTicks (s.tick - t) | none => 0
    .next (match v.preempt ns s.mgmt.drainth.toNat with
      | .drain => s.updCtx c (fun k => { k with request := .drain })
      | .checkpoint => s.updCtx c (fun k => { k with request := .checkpoint })
      | .kill =>
        ((s.updNode sl.graph sl.node (fun n => { n with killing := true })).dropWaiting sl.graph sl.node).killNode sl.graph sl.node
      | .wait =>
        { s with declined := s.declined.filter (fun d => d.core != core) ++ [⟨core, e, sl.graph, sl.node, sl.lidx⟩] })

/-- Whether a fault of a node in an attempt waits to be handled. -/
def State.faultQueued (s : State) (gi ni attempt : Nat) : Bool :=
  s.ksq.any (fun m => match m with | .fault g n a _ _ _ => g == gi && n == ni && a == attempt | _ => false)

/-- PREEMPT_KILL_REQUEUE (R293): a slice that faulted before the kill has faulted the node (R287). -/
def execPreemptKillRequeue (gi ni : Nat) (s : State) : Host.Outcome State Fault Refusal :=
  if !s.ksReady then .next s else
  match s.nodeOf gi ni with
  | none => .next s
  | some n =>
    if n.state = .running && n.killing && n.unretired != 0 && !s.anyRuns gi ni && !s.faultQueued gi ni n.attempt then
      .next ((s.updNode gi ni (fun n => { n with killing := false, startedAt := none })).becomeReady gi ni)
    else .next s

/-! ### Completion of a node (R285, R352) -/

/-- The replica group of which a node is a boundary node. -/
def State.groupOf (s : State) (gi ni : Nat) : Option Replica :=
  match s.graphs.find gi with
  | some g => s.replicas.find? (fun r => r.space == g.space && r.graph == g.addr && r.boundary.contains ni)
  | none => none

/-- A replica group changes; there is one for each graph record of a space. -/
def State.putGroup (s : State) (r : Replica) : State :=
  { s with replicas := s.replicas.map (fun q => if q.space = r.space ∧ q.graph = r.graph then r else q) }

/-- Whether a boundary node has to wait, since the members have not agreed on an earlier one. DEDUCED (log 39). -/
def State.boundaryWaits (s : State) (gi ni : Nat) : Bool :=
  match s.groupOf gi ni with
  | some r => r.waiting.isSome
  | none => false

/-- The product by x in GF(2^128) (R352). -/
def gfDouble (v : BitVec 128) : BitVec 128 := if v.getLsbD 127 then (v <<< 1) ^^^ 0x87 else v <<< 1

/-- The product of two elements, from the top bit of the second down. -/
def gfMul (a b : BitVec 128) : BitVec 128 :=
  (List.range 128).foldl (fun r i => let r := gfDouble r; if b.getLsbD (127 - i) then r ^^^ a else r) 0

/-- H of R352. -/
def digestH : BitVec 128 := 0x9E3779B97F4A7C15

/-- The digest of a list of 16-byte blocks. -/
def digestBlocks (l : List (BitVec 128)) : BitVec 128 := l.foldl (fun d b => gfMul (d ^^^ b) digestH) 0

/-- The blocks of some bytes. -/
def blocksOf (bs : List Byte) : List (BitVec 128) :=
  (List.range (bs.length / 16)).map (fun i => BitVec.ofNat 128 (leNat bs (16 * i) 16))

/-- The bytes of the declared regions, in request order; none where one cannot be read. -/
def State.regionBytes (s : State) (space : Nat) : List Region → Option (List Byte)
  | [] => some []
  | r :: rs =>
    match s.ksRead space r.va.toNat r.len, State.regionBytes s space rs with
    | some a, some b => some (a ++ b)
    | _, _ => none

/-- Whether a copy or a ring has still to write some of those bytes. -/
def State.copyStoresTo (s : State) (core : Nat) (keys : List Nat) (q : CopyCmd) : Bool :=
  let hits (us : List CopyUnit) : Bool :=
    (s.resolveUnits core (unitBytes (Descr.of q.d).fmt) 0 us).1.any (fun u => overlaps u.2 keys)
  hits (s.copyUnits core q) || (match q.kind with
    | .ring x => (List.range x.slots).any (fun m => match s.ringStep core x m with
      | some st => hits (s.stepUnits core x (Descr.of q.d) m st)
      | none => false)
    | _ => false)

/-- Whether a host write that waits goes to some of those bytes. -/
def State.hostStoresTo (s : State) (keys : List Nat) (a : HostAccess) : Bool :=
  a.write && a.bar == .record && (match s.apertures.find (a.off / 2 ^ 32) with
    | some p => overlaps ((s.recordKeys p.1 .write (p.2.toNat + a.off % 2 ^ 32) a.size).getD []) keys
    | none => false)

/-- Whether a store to those bytes is still to perform: an operation of some context, a copy, a ring, those of stopped slices
among them, or a write of the host. DEDUCED (log 39). -/
def State.storesTo (s : State) (keys : List Nat) : Bool :=
  allCtxs.any (fun c =>
    (s.ctx c).ops.any (fun o => !o.performed && o.writes && overlaps (s.keysOf c.core o) keys) ||
    (s.ctx c).copies.any (fun p => match p.2 with
      | .running q => s.copyStoresTo c.core keys q
      | _ => false) ||
    (s.ctx c).orphans.any (s.copyStoresTo c.core keys)) || s.bus.any (s.hostStoresTo keys)

/-- The keys of the declared regions of a replica group, as far as they translate. -/
def State.regionKeys (s : State) (r : Replica) : List Nat :=
  r.regions.flatMap (fun x => match s.translateRange r.space .read x.va.toNat x.len with | .ok ks => ks | .error _ => [])

/-- The places in `past` of the NDONE of the slices of a node, in the attempt that has completed. DEDUCED (log 39). -/
def State.ndonePlaces (s : State) (gi ni : Nat) : List Nat :=
  match s.nodeOf gi ni with
  | none => []
  | some n => (List.range s.past.length).filter (fun j => match s.past[j]? with
    | some e => e.kind == .ndone gi ni && (match e.slice with | some (_, _, a, _) => a == n.attempt | none => false)
    | none => false)

/-- Whether a store to some bytes since the launch of the graph does not happen before the NDONE of a boundary node (R245, R352).
DEDUCED (log 39). -/
def State.racesDigest (s : State) (gi ni since : Nat) (keys : List Nat) : Bool :=
  let writes := (List.range s.past.length).filter (fun i => decide (since ≤ i) && (match s.past[i]? with
    | some e => e.writes && overlaps e.keys keys
    | none => false))
  let ordered := behind s.past s.past.length (s.ndonePlaces gi ni)
  writes.any (fun i => !ordered.contains i)

/-- D of the declared regions (R352): a free value where a store to them does not happen before the NDONE of the boundary node,
and so races with the reads; of a region that cannot be read the spec states none. DEDUCED (log 39). -/
def State.digest (s : State) (gi ni : Nat) (r : Replica) : BitVec 128 :=
  if s.storesTo (s.regionKeys r) || s.racesDigest gi ni r.since (s.regionKeys r) then Config.unpredictableDigest s.tick
  else match s.regionBytes r.space r.regions with
    | some bs => digestBlocks (blocksOf bs)
    | none => Config.unpredictableDigest s.tick

/-- Whether declared regions hold poison. -/
def State.regionsPoisoned (s : State) (r : Replica) : Bool := s.poison != [] && (s.regionKeys r).any s.poisoned

/-- Keystone reads the declared regions for the graph at hand, and finds the errors of their granules; poison that it meets counts
in a plumb graph (R258, R341). DEDUCED (log 34). -/
def State.findRegions (s : State) (gi : Nat) (r : Replica) : State :=
  let s := r.regions.foldl (fun s x => s.ksFind r.space x.va.toNat x.len) s
  if s.regionsPoisoned r then s.plumbEvent gi else s

/-- A boundary node is handled (R352): its beads are withheld, and D goes to every other member. -/
def State.holdBoundary (s : State) (gi ni : Nat) (r : Replica) : State :=
  let s := (s.updNode gi ni (fun n => { n with withheld := true })).findRegions gi r
  let d := s.digest gi ni r
  let others := r.members.filter (· != s.devid)
  { s.putGroup { r with waiting := some (gi, ni), mine := d } with
    sent := s.sent ++ others.map (fun m => ⟨m, r.graph, ni, d⟩) }

/-- NODE_COMPLETION (R285). The beads of a boundary node are withheld until the members agree (R352). -/
def execNodeCompletion (gi ni : Nat) (s : State) : Host.Outcome State Fault Refusal :=
  if !s.ksReady then .next s else
  match s.nodeOf gi ni with
  | none => .next s
  | some n =>
    if n.state = .running && n.unretired == 0 && !s.boundaryWaits gi ni then
      let s := (s.updNode gi ni (fun n => { n with killing := false })).setNodeState gi ni .done
      match s.groupOf gi ni with
      | some r => .next (s.holdBoundary gi ni r)
      | none => .next (s.finishNode gi ni)
    else .next s

/-! ### Power (R294, R354, R355) -/

/-- Whether a course meets the idle condition of R294. DEDUCED (log 45). -/
def State.idleCourse (s : State) (n : Nat) : Bool := s.courseFree n && s.noEntries n

/-- COURSE_GATING (R355): after 20 µs, which are 72,000 steps (log 2). -/
def execCourseGating (n : Nat) (s : State) : Host.Outcome State Fault Refusal :=
  let co := s.course n
  if s.boot = .running && s.idleCourse n && !co.gated && decide (co.idleSince + 72000 ≤ s.tick) then
    .next (s.setCourse n { co with gated := true, waking := false })
  else .next s

/-- WAKE_COMPLETE (R294). -/
def execWakeComplete (n : Nat) (s : State) : Host.Outcome State Fault Refusal :=
  let co := s.course n
  if co.waking then .next (s.setCourse n { co with gated := false, waking := false, idleSince := s.tick }) else .next s

/-- The operating points that the trusted monitor allows (R354): the nominal one, and others. -/
def allowsPoint (mhz mv : Nat) : Bool := (mhz == 3600 && mv == 675) || Config.allowsOther mhz mv

/-- OPERATING_POINT_CHANGE (R354): no plumb course changes its clock alone (R339). -/
def execOperatingPointChange (n mhz mv : Nat) (s : State) : Host.Outcome State Fault Refusal :=
  let co := s.course n
  if s.boot = .running && !co.plumb && allowsPoint mhz mv then .next (s.setCourse n { co with mhz := mhz, mv := mv }) else .next s

/-- POWER_EMERGENCY (R355): the operating point is lowered; a plumb course skips frames (R339). -/
def execPowerEmergency (n mhz mv : Nat) (s : State) : Host.Outcome State Fault Refusal :=
  let co := s.course n
  if s.boot = .running && !co.plumb && allowsPoint (min co.mhz mhz) (min co.mv mv) then
    .next (s.setCourse n { co with mhz := min co.mhz mhz, mv := min co.mv mv })
  else .next s

/-! ### A twin-pair mismatch (R348, R350) -/

/-- Whether something that a context did leaves a trace: flags that are all 0 do not. -/
def Commit.says : Commit → Bool
  | .fpsw f => f != 0
  | .ksw _ f => f != 0
  | _ => true

def Loc.code : Loc → List Nat
  | .key k => [0, k]
  | .dva va => [1, va.toNat]

def Rmw.code (op : Rmw) : Nat :=
  [Rmw.add, .fadd, .min, .max, .minu, .maxu, .and, .or, .xor, .swp, .cas].idxOf op

/-- Numbers that name what an operation does with its data. -/
def MemAct.code : MemAct → List Nat
  | .load _ => [0]
  | .store d => [1, d]
  | .rmw op d c dst => [2, op.code, d.toNat, c.toNat, if dst.isSome then 1 else 0]
  | .fence m sc => [3, m.toNat, sc.toNat]
  | .move k rows t => 4 :: k.toNat :: rows.toNat :: t.flatMap (fun e => [e.1, e.2.toNat])

def Site.code : Site → List Nat
  | .tile k => [0, k]
  | .codebook k => [1, k]
  | .piv => [2, 0]
  | .gf => [3, 0]
  | .brk => [4, 0]
  | .queue k => [5, k]
  | .landing k => [6, k]
  | .descriptor k => [7, k]

/-- Numbers that name what a context did, for its signature. DESIGN CHOICE (log 69). -/
def Commit.code : Commit → List Nat
  | .bundle pc ws => 0 :: pc.toNat :: ws.length :: ws.flatMap (fun w => [w.1, w.2.toNat])
  | .result d v => [1, d.site, (match d with | .cr n w => n.toNat + 256 * w.toNat | _ => 0), v.toNat]
  | .memory a act fs => 2 :: a.toNat :: act.code ++ fs.length :: fs.flatMap (fun f => [f.pos, f.len] ++ f.loc.code)
  | .copy opc d b => [3, opc, d.toNat, b.toNat]
  | .fpsw f => [4, f.toNat]
  | .ksw k f => [5, k, f.toNat]
  | .lands x vs => 6 :: x.code ++ vs.length :: vs

/-- The slice of a context faults with PAIR. DEDUCED (log 16). -/
def State.pairFault (s : State) (c : CtxId) (pc : DWord) : State :=
  let k := s.ctx c
  if k.slice.isNone || k.request == .stopped then s
  else s.take c ⟨k.seq, 0xF, false, pc, causePair, 0, none⟩ false 0 0

/-- What the odd core of a twin pair holds after a cycle of the even core: the even core's contexts two cycles back (R347,
R349). DEDUCED (log 16). -/
def Core.odd (k : Core) : Option (Ctx × Ctx) := k.pair[1]?

/-- The even core's contexts at the start of the cycle whose signature the odd core compares (R348): the odd core does in
its last cycle what they did two cycles before. DEDUCED (log 16). -/
def Core.compared (k : Core) : Option (Ctx × Ctx) := k.pair[2]?

/-- What each context did in that cycle, which they held at its end. DESIGN CHOICE (log 69). -/
def Core.comparedDid (k : Core) : List Commit :=
  match k.pair[1]? with
  | some (a, b) => (a.did ++ b.did).filter Commit.says
  | none => []

/-- The commit signature of that cycle, which each core of the pair forms and the odd one compares (R348).
DESIGN CHOICE (log 69). -/
def Core.signature (k : Core) : BitVec 64 := Config.commitSignature (k.comparedDid.flatMap Commit.code)

/-- PAIR_MISMATCH (R348, R350): a soft error shows as signatures that differ, of a cycle in which the pair did something that they
cover; the bundle is one that the pair had in hand in that cycle. Both contexts of the pair stop (R21).
DEDUCED (log 16). -/
def execPairMismatch (core : Nat) (pc : BitVec 64) (s : State) : Host.Outcome State Fault Refusal :=
  if s.boot = .running && (s.course (courseOf core)).twin && core % 2 == 0 then
    match (s.core core).compared with
    | some (a, b) =>
      if (s.core core).comparedDid != [] && (a.slice.isSome && a.pc == pc || b.slice.isSome && b.pc == pc) then
        .next ((s.pairFault ⟨core, false⟩ a.pc).pairFault ⟨core, true⟩ b.pc)
      else .next s
    | none => .next s
  else .next s

end Sys2Proof.Machine
end

