-- ==== Sys2Proof/Machine/Cancel.lean ====
section
/-! DEFINITION. Faults of nodes and cone cancellation (R287 to R290), the fault log (R346), the graph abort (R285), and
the agreement of replicas (R353). -/

namespace Sys2Proof.Machine

/-! ### The fault log (R346) -/

/-- MSI-X vectors (R342). -/
def vecLog : Nat := 0
def vecLink : Nat := 1

/-- A fault-log entry (Table 19.4). -/
def logEntry (graph : DWord) (node core : Nat) (cause : BitVec 8) (pc : DWord) : BitVec 256 :=
  BitVec.ofNat 256 (graph.toNat + node % 2 ^ 32 * 2 ^ 64 + cause.toNat * 2 ^ 96 + core % 256 * 2 ^ 104 + pc.toNat * 2 ^ 128)

/-- The unread entries. -/
def Mgmt.unread (m : Mgmt) : Nat := (m.fltail - m.flhead).toNat

/-- An entry joins the log, or is lost when it is full. -/
def Mgmt.logFault (m : Mgmt) (e : BitVec 256) : Mgmt :=
  if m.unread = 64 then { m with fllost := if m.fllost = 255 then m.fllost else m.fllost + 1 }
  else { m with flog := SMap.setD 0 m.flog (m.fltail.toNat % 64) e, fltail := m.fltail + 1 }

def State.logFault (s : State) (gi ni core : Nat) (cause : BitVec 8) (pc : DWord) : State :=
  match s.graphs.find gi with
  | some g => { s with mgmt := s.mgmt.logFault (logEntry g.addr ni core cause pc), msix := s.msix ++ [vecLog] }
  | none => s

/-! ### The cone (R288) -/

/-- A node that the search takes in. -/
def Graph.conable (g : Graph) (n : Nat) : Bool :=
  match g.nodes.find n with
  | some x => x.state != .done && x.state != .void
  | none => false

/-- The successors of a node, in entry order. -/
def Graph.succsOf (g : Graph) (n : Nat) : List (Nat × Nat) :=
  match g.nodes.find n with
  | some x => x.succs
  | none => []

/-- Breadth-first search: the nodes taken in so far, and how many of them have been searched. -/
def Graph.search (g : Graph) (f : Nat) : Nat → List Nat → Nat → List Nat
  | 0, found, _ => found
  | fuel + 1, found, i =>
    match found[i]? with
    | none => found
    | some m =>
      let found := (g.succsOf m).foldl (fun l p =>
        if p.1 != f && !l.contains p.1 && g.conable p.1 then l ++ [p.1] else l) found
      Graph.search g f fuel found (i + 1)

/-- The cone of a faulted node, in cone order. -/
def Graph.cone (g : Graph) (f : Nat) : List Nat :=
  let first := (g.succsOf f).foldl (fun l p => if p.1 != f && !l.contains p.1 && g.conable p.1 then l ++ [p.1] else l) []
  g.search f (g.nodes.length + 1) first 0

/-! ### C1 (R289) -/

/-- A node leaves its home course's ready queue. -/
def State.unready (s : State) (gi ni : Nat) : State :=
  match s.nodeOf gi ni with
  | some n =>
    let co := s.course n.home
    s.setCourse n.home { co with ready := co.ready.filter (fun e => e != (gi, ni)) }
  | none => s

/-- What runs or waits of a node goes. -/
def State.haltNode (s : State) (gi ni : Nat) : State :=
  match s.nodeOf gi ni with
  | some n =>
    if n.state = .ready ∨ n.state = .running then
      (((s.updNode gi ni (fun n => { n with killing := false })).unready gi ni).dropWaiting gi ni).killNode gi ni
    else s
  | none => s

def State.addCcnt (s : State) (gi ni : Nat) : State :=
  match s.nodeOf gi ni with
  | some n => s.setCcnt gi ni (n.ccnt + 1)
  | none => s

/-- A member of the cone is cancelled; a FAULTED one keeps its state (R290). -/
def State.cancelNode (s : State) (gi ni : Nat) : State :=
  let s := s.haltNode gi ni
  let s := match s.nodeOf gi ni with
    | some n => if n.state = NState.faulted then s else s.setNodeState gi ni .cancelled
    | none => s
  s.addCcnt gi ni

/-- The nodes whose slices a cancellation stops. -/
def Cancel.members (x : Cancel) : List Nat := x.node.toList ++ x.cone

/-- The writes of C1 behind the faulted node, in their order (R289): the members of the cone, and then, for each member, the arrival
bits of its successor entries that lie in the cone. DESIGN CHOICE (log 43). -/
def State.c1Writes (s : State) (x : Cancel) : List C1Write :=
  match s.graphs.find x.graph with
  | none => []
  | some g => x.cone.map .cancel ++ x.members.flatMap (fun m =>
      ((g.succsOf m).filter (fun p => x.cone.contains p.1)).map (fun p => .clear p.1 p.2))

/-- C1 goes on with some writes still to make, the k-th cancellation being in progress; behind the last one C1 is over (R291).
DESIGN CHOICE (log 43). -/
def State.restC1 (s : State) (k : Nat) (x : Cancel) (todo : List C1Write) : State :=
  { s with cancels := s.cancels.set k { x with todo := if todo = [] then none else some todo } }

/-- One write of C1. DESIGN CHOICE (log 43). -/
def State.writeC1 (s : State) (gi : Nat) : C1Write → State
  | .cancel m => s.cancelNode gi m
  | .clear m slot =>
    match s.nodeOf gi m with
    | some n => (s.setArrive gi m (n.arrive &&& ~~~(1#64 <<< slot))).sync .keystone gi (.unbead gi m slot)
    | none => s

/-- C1 makes its next write (R291). DESIGN CHOICE (log 43). -/
def State.stepC1 (s : State) (k : Nat) (x : Cancel) : State :=
  match x.todo with
  | none => s
  | some [] => s.restC1 k x []
  | some (w :: ws) => (s.writeC1 x.graph w).restC1 k x ws

/-- C1 of some cancellation begins behind what it does to the faulted node. -/
def State.beginC1 (s : State) (x : Cancel) : State :=
  { s with cancels := s.cancels ++ [x] }.restC1 s.cancels.length x (s.c1Writes x)

/-- C1 of a faulted node begins with that node. -/
def State.cancelC1 (s : State) (gi ni : Nat) : State :=
  match s.graphs.find gi with
  | none => s
  | some g =>
    (((s.haltNode gi ni).setNodeState gi ni .faulted).addCcnt gi ni).beginC1 ⟨gi, some ni, g.cone ni, none⟩

/-- The cancellation whose C1 is in progress. -/
def State.inC1 (s : State) : Option (Nat × Cancel) :=
  (s.cancels.mapIdx (fun k x => (k, x))).find? (fun p => p.2.todo.isSome)

/-- A fault of a node is logged, and starts a cancellation when the node is RUNNING, in the same attempt (R287). -/
def State.takeFault (s : State) (k : Nat) (gi ni attempt core : Nat) (cause : BitVec 8) (pc : DWord) : State :=
  let s := (s.dropMsg k).logFault gi ni core cause pc
  match s.nodeOf gi ni with
  | some n => if n.state = .running ∧ n.attempt = attempt then s.cancelC1 gi ni else s
  | none => s

/-- CANCELLATION_C1 (R289, R291): C1 in progress goes on, or a fault is taken. DESIGN CHOICE (log 43). -/
def execCancellationC1 (k : Nat) (s : State) : Host.Outcome State Fault Refusal :=
  if s.boot ≠ .running then .next s else
  match s.inC1, s.ksq[k]? with
  | some p, _ => .next (s.stepC1 p.1 p.2)
  | none, some (.fault gi ni attempt core cause pc) => .next (s.takeFault k gi ni attempt core cause pc)
  | _, _ => .next s

/-- The abort of a graph (R285): every node that is not DONE is cancelled, by R289 with no retry; this C1 begins.
DESIGN CHOICE (log 43). -/
def State.abortGraph (s : State) (gi : Nat) : State :=
  match s.graphs.find gi with
  | none => s
  | some g =>
    s.beginC1 ⟨gi, none, (List.range g.count).filter g.conable, none⟩

/-! ### C2 (R289) -/

/-- Whether every slice that C1 killed has stopped. -/
def State.allStopped (s : State) (x : Cancel) : Bool := x.members.all (fun n => !s.anyRuns x.graph n)

/-- Whether the faulted node is retried. -/
def State.retries (s : State) (x : Cancel) : Bool :=
  match x.node with
  | none => false
  | some f => (match s.nodeOf x.graph f with | some n => n.idem && decide (0 < n.left) | none => false)

/-- A retry is counted. DEDUCED (log 34). -/
def State.countRetry (s : State) (gi ni : Nat) : State :=
  match s.nodeOf gi ni with
  | none => s
  | some n =>
    let s := s.setLeft gi ni (n.left - 1)
    let s := s.updGraph gi (fun g => { g with retry := g.retry + 1 })
    let v := match s.graphs.find gi with | some g => g.retry | none => 0
    (s.writeGraph gi 28 4 v).plumbEvent gi

/-- A node becomes VOID. -/
def State.voidNode (s : State) (gi ni : Nat) : State :=
  let s := (s.setNodeState gi ni .void).sync .keystone s.stepId (.voided gi ni)
  let s := s.updGraph gi (fun g => { g with voided := g.voided + 1 })
  let v := match s.graphs.find gi with | some g => g.voided | none => 0
  s.writeGraph gi 24 4 v

/-- What C2 does to one member. -/
def State.settleNode (s : State) (gi : Nat) (retry : Bool) (ni : Nat) : State :=
  match s.nodeOf gi ni with
  | none => s
  | some n =>
    let s := s.setCcnt gi ni (n.ccnt - 1)
    if n.state = .void then s
    else if !retry then s.voidNode gi ni
    else if n.ccnt = 1 then
      let s := s.setNodeState gi ni .armed
      if n.pending = 0 then s.becomeReady gi ni else s
    else s

/-- CANCELLATION_C2 (R289). DESIGN CHOICE (log 43). -/
def execCancellationC2 (k : Nat) (s : State) : Host.Outcome State Fault Refusal :=
  if !s.ksReady then .next s else
  match s.cancels[k]? with
  | none => .next s
  | some x =>
    if s.allStopped x then
      let s := { s with cancels := s.cancels.eraseIdx k }
      let retry := s.retries x
      let s := match x.node with | some f => if retry then s.countRetry x.graph f else s | none => s
      .next ((x.members.foldl (fun s n => s.settleNode x.graph retry n) s).completeGraph x.graph)
    else .next s

/-! ### The agreement of replicas (R353, Table 20.1) -/

/-- The digests that a member holds: its own and those of the other members. -/
def Replica.digests (r : Replica) (self : Nat) : List (BitVec 128) :=
  r.mine :: (r.members.filter (· != self)).filterMap (fun m => r.held.find m)

/-- Whether this member's digest is that of a strict majority of the members. -/
def Replica.agrees (r : Replica) (self : Nat) : Bool :=
  decide (r.members.length < 2 * ((r.digests self).filter (· == r.mine)).length)

/-- Whether every member's digest is held. -/
def Replica.complete (r : Replica) (self : Nat) : Bool := (r.digests self).length == r.members.length

/-- The digest of a strict majority of the members that is not this member's (Table 20.1). DEDUCED (log 39). -/
def Replica.outvoted (r : Replica) (self : Nat) : Option (BitVec 128) :=
  (r.digests self).find? (fun d => d != r.mine && decide (r.members.length < 2 * ((r.digests self).filter (· == d)).length))

/-- Keystone or the monitor writes bytes at an address of a space; what is not performed counts as an error of a record (R259,
R286). DEDUCED (log 39). -/
def State.storeBytes (s : State) (who : Agent) (space va : Nat) (bs : List Byte) : State :=
  match s.recordKeys space .write va bs.length with
  | none => s.recordError
  | some ks =>
    let r := s.store (ks.zip bs)
    let t := r.1.notePlain who 0 .write 0 (ks.filter (fun k => !r.1.poisoned k))
    if r.2.isSome then t.recordError else t

/-- The declared regions are copied to the checkpoint area, one after another. DEDUCED (log 39). DEDUCED (log 34). -/
def State.copyRegions (s : State) (space area : Nat) : List Region → State
  | [] => s
  | r :: rs =>
    let s := s.ksFind space r.va.toNat r.len
    let s := match s.ksRead space r.va.toNat r.len with
      | some bs => s.storeBytes .keystone space area bs
      | none => s.recordError
    State.copyRegions s space (area + r.len) rs

/-- Where the regions go in the checkpoint area. -/
def areaRegions (area : Nat) : List Region → List Region
  | [] => []
  | r :: rs => ⟨BitVec.ofNat 64 area, r.len⟩ :: areaRegions (area + r.len) rs

/-- The regions are copied; poison that the copy reads, or that refuses a write of it, counts once in a plumb graph (R341).
DEDUCED (log 34). -/
def State.countPoison (s : State) (gi : Nat) (r : Replica) : State :=
  let t := s.copyRegions r.space r.area.toNat r.regions
  let refused : Bool := (areaRegions r.area.toNat r.regions).any (fun x =>
    ((t.recordKeys r.space .write x.va.toNat x.len).getD []).any t.poisoned)
  if t.regionsPoisoned r || refused then t.plumbEvent gi else t

/-- A graph halts at a boundary: every node that is not DONE becomes VOID, and the graph ends FAULT. -/
def State.haltGraph (s : State) (gi : Nat) : State :=
  let s := s.updGraph gi (fun g => { g with done := g.done + 1 })
  match s.graphs.find gi with
  | none => s
  | some g =>
    let s := s.writeGraph gi 20 4 g.done
    if (List.range g.count).any g.conable then s.abortGraph gi
    else (s.updGraph gi (fun g => { g with status := .fault })).writeGraph gi 3 1 GState.fault.code

/-- A boundary ends on this member: the withheld beads are posted, or the graph halts; one that is outvoted waits for the
monitor to reload its regions from a majority member. DEDUCED (log 39). -/
def State.decideReplica (s : State) (r : Replica) (gi ni : Nat) : State :=
  let s := s.putGroup { r with waiting := none, held := [], reload := (r.outvoted s.devid).map (fun d => (d, ni)) }
  let s := s.updNode gi ni (fun n => { n with withheld := false })
  if r.agrees s.devid then (s.countPoison gi r).finishNode gi ni else s.haltGraph gi

/-- The boundary that a group waits at, decided when all digests are held or when the time is up. -/
def State.tryDecide (s : State) (timeout : Bool) (r : Replica) : State :=
  match r.waiting with
  | none => s
  | some (gi, ni) => if timeout || r.complete s.devid then s.decideReplica r gi ni else s

/-- The group that a digest is for: of its graph record, with its sender. DEDUCED (log 39). -/
def State.hearer (s : State) (d : Digest) : Option Replica :=
  s.replicas.find? (fun r => r.graph == d.graph && r.members.contains d.member && d.member != s.devid)

/-- Whether a group that waits at a boundary node takes a digest: it is for that node, and the first of its sender. -/
def Replica.takes (r : Replica) (d : Digest) : Bool :=
  (match r.waiting with | some w => w.2 == d.node | none => false) && (r.held.find d.member).isNone

/-- Whether a digest that has come can be taken now; one that is for no group is dropped. DEDUCED (log 39). -/
def State.mayHear (s : State) (d : Digest) : Bool :=
  match s.hearer d with
  | none => true
  | some r => r.takes d

/-! ### The reload of an outvoted member (R353) -/

/-- Region data that the monitor reads from a majority member: the group's graph has halted, and the data have the digest of the
majority. DESIGN CHOICE (log 68). -/
def State.reloadDue (s : State) : Option (Nat × Replica × Nat) :=
  (s.reloads.mapIdx (fun i d => (i, d))).findSome? (fun p =>
    s.replicas.findSome? (fun r =>
      match r.reload, s.graphs.find? (fun g => g.2.space == r.space && g.2.addr == r.graph && g.2.status == .fault) with
      | some x, some g =>
        if r.graph = p.2.graph ∧ r.members.contains p.2.member ∧ p.2.member ≠ s.devid ∧
            p.2.data.length = (r.regions.map (·.len)).foldl (· + ·) 0 ∧ digestBlocks (blocksOf p.2.data) = x.1 then
          some (p.1, r, g.1)
        else none
      | _, _ => none))

/-- The declared regions take new bytes, in request order. DESIGN CHOICE (log 68). -/
def State.fillRegions (s : State) (space : Nat) : List Region → List Byte → State
  | [], _ => s
  | r :: rs, bs => State.fillRegions (s.storeBytes .monitor space r.va.toNat (bs.take r.len)) space rs (bs.drop r.len)

/-- The arrival bits that DONE nodes of a graph set at a node. -/
def Graph.doneBits (g : Graph) (n : Nat) : BitVec 64 :=
  g.nodes.foldl (fun a p => if p.2.state = .done then
    p.2.succs.foldl (fun a e => if e.1 = n then a ||| (1#64 <<< e.2) else a) a else a) 0

/-- A node that runs again holds the beads of the nodes that are DONE. -/
def State.rebead (s : State) (gi ni : Nat) : State :=
  match s.graphs.find gi, s.nodeOf gi ni with
  | some g, some n =>
    let s := ((List.range 64).filter n.arrive.getLsbD).foldl (fun s j => s.sync .keystone gi (.unbead gi ni j)) s
    let s := g.nodes.foldl (fun s p => if p.2.state = .done then
      p.2.succs.foldl (fun s e => if e.1 = ni then s.sync .keystone gi (.bead (.node p.1) gi ni e.2) else s) s else s) s
    s.setArrive gi ni (g.doneBits ni)
  | _, _ => s

/-- A halted graph runs again from its boundary (R353): every VOID node is ARMED again, with the beads of the nodes that are DONE,
the boundary node among them. DESIGN CHOICE (log 68). -/
def State.relaunch (s : State) (gi : Nat) : State :=
  match s.graphs.find gi with
  | none => s
  | some g =>
    let back := (g.nodes.filter (fun p => p.2.state == .void)).map Prod.fst
    let s := (s.updGraph gi (fun g => { g with status := .running, voided := 0 })).writeGraph gi 24 4 0
    let s := back.foldl (fun s n => ((s.rebead gi n).setCcnt gi n 0).setNodeState gi n .armed) s
    let s := s.writeGraph gi 3 1 1
    back.foldl (fun s n => match s.nodeOf gi n with
      | some x => if x.pending = 0 then s.becomeReady gi n else s
      | none => s) s

/-- The monitor reloads the regions, and relaunches. DESIGN CHOICE (log 68). -/
def State.reloadRegions (s : State) (i : Nat) (r : Replica) (gi : Nat) : State :=
  let data := match s.reloads[i]? with | some d => d.data | none => []
  let s := { s with reloads := s.reloads.eraseIdx i }.fillRegions r.space r.regions data
  (s.putGroup { r with reload := none, since := s.past.length }).relaunch gi

/-- DIGEST_ARRIVAL (R353): the first digest that can be taken, or the regions of a majority member that this member waits
for. -/
def execDigestArrival (s : State) : Host.Outcome State Fault Refusal :=
  if !s.ksReady then .next s else
  match s.digests.findIdx? s.mayHear with
  | none =>
    (match s.reloadDue with
     | some (i, r, gi) => .next (s.reloadRegions i r gi)
     | none => .next s)
  | some i =>
    match s.digests[i]? with
    | none => .next s
    | some d =>
      let s := { s with digests := s.digests.eraseIdx i }
      match s.hearer d with
      | none => .next s
      | some r =>
        let r := { r with held := r.held.put d.member d.value }
        .next ((s.putGroup r).tryDecide false r)

/-- DIGTIME_EXPIRY (R353): of the first group that waits. DEDUCED (log 39). -/
def execDigtimeExpiry (s : State) : Host.Outcome State Fault Refusal :=
  if !s.ksReady then .next s else
  match s.replicas.find? (fun r => r.waiting.isSome) with
  | some r => .next (s.tryDecide true r)
  | none => .next s

end Sys2Proof.Machine
end

