-- ==== Sys2Proof/Machine/Crypto.lean ====
section
/-! DEFINITION. What boot and attestation compute (R356, R359, R360): SHA-256 (FIPS 180-4) and the verification of an LMS
signature (NIST SP 800-208, RFC 8554) with LMS_SHA256_M32_H15 and LMOTS_SHA256_N32_W4. The spec names these standards and
does not repeat them. PRESUMED (log 55). -/

namespace Sys2Proof.Machine

/-! ### SHA-256 -/

/-- The largest number whose k-th power is at most n, of 36 bits: bit by bit from the top. -/
def rootOf (k n : Nat) : Nat :=
  (List.range 36).foldl (fun r b => if (r + 2 ^ (35 - b)) ^ k ≤ n then r + 2 ^ (35 - b) else r) 0

/-- The primes below a bound. -/
def primesBelow (n : Nat) : List Nat :=
  (List.range n).filter (fun p => decide (2 ≤ p) && (List.range p).all (fun d => decide (d < 2) || p % d != 0))

/-- The first 32 bits of the fractional part of the k-th root of a prime (FIPS 180-4). -/
def rootBits (k p : Nat) : Word := BitVec.ofNat 32 (rootOf k (p * 2 ^ (32 * k)))

/-- The constants of the 64 rounds: cube roots of the first 64 primes. -/
def shaConstants : List Word := (primesBelow 312).map (rootBits 3)

/-- The value that a hash begins with: square roots of the first 8 primes. -/
def shaInitial : List Word := (primesBelow 20).map (rootBits 2)

/-- Three copies of a word, moved right by some numbers of bits, and added without carry; the last one falls out at the end where
`out` says so. -/
def spread (out : Bool) (i j k : Nat) (w : Word) : Word :=
  w.rotateRight i ^^^ (w.rotateRight j ^^^ (if out then w >>> k else w.rotateRight k))

/-- Bit by bit the second word where the first has a 1, else the third; and the value that most of three bits have. -/
def chooseBits (x y z : Word) : Word := z ^^^ (x &&& (y ^^^ z))
def mostBits (x y z : Word) : Word := (x &&& (y ||| z)) ||| (y &&& z)

/-- A round on the eight words of a hash value: the sum of a constant and a schedule word goes in, every word moves on by one
place, and the first and the fifth of the new ones are sums. -/
def shaTurn (v : List Word) (kw : Word) : List Word :=
  match v with
  | [a, b, c, d, e, f, g, h] =>
    let into := kw + h + chooseBits e f g + spread false 6 11 25 e
    [into + mostBits a b c + spread false 2 13 22 a, a, b, c, d + into, e, f, g]
  | _ => v

/-- The next word of the message schedule, from the 16 words before it. -/
def nextWord (w : List Word) : Word :=
  spread true 17 19 10 (w.getD 14 0) + spread true 7 18 3 (w.getD 1 0) + w.getD 9 0 + w.getD 0 0

/-- A block of 16 words goes into a hash value; the schedule keeps 16 words, the next one first. -/
def shaBlock (block v : List Word) : List Word :=
  let r := shaConstants.foldl (fun (p : List Word × List Word) k =>
    (p.1.drop 1 ++ [nextWord p.1], shaTurn p.2 (k + p.1.headD 0))) (block, v)
  v.zipWith (· + ·) r.2

/-- A big-endian number of some bytes, and the bytes of one. -/
def natOfBe (bs : List Byte) : Nat := bs.foldl (fun n b => 256 * n + b.toNat) 0
def beBytes (n v : Nat) : List Byte := (List.range n).map (fun i => BitVec.ofNat 8 (v / 256 ^ (n - 1 - i)))

/-- The 16 words of block i of a padded message. -/
def shaWords (m : List Byte) (i : Nat) : List Word :=
  (List.range 16).map (fun j => BitVec.ofNat 32 (natOfBe ((m.drop (64 * i + 4 * j)).take 4)))

/-- A message with its padding: a 1 bit, zeros, and its length in bits. -/
def shaPad (m : List Byte) : List Byte :=
  m ++ [0x80] ++ List.replicate ((119 - m.length % 64) % 64) 0 ++ beBytes 8 (8 * m.length)

/-- SHA-256 of a message, as 32 bytes. PRESUMED (log 55). -/
def sha256 (m : List Byte) : List Byte :=
  let p := shaPad m
  ((List.range (p.length / 64)).foldl (fun v i => shaBlock (shaWords p i) v) shaInitial).flatMap (fun w => beBytes 4 w.toNat)

/-! ### LMS -/

/-- `n` bytes from an offset on. -/
def cut (bs : List Byte) (off n : Nat) : List Byte := (bs.drop off).take n

/-- The 4-bit digits of a string, the high one of each byte first. -/
def nibbles (bs : List Byte) : List Nat := bs.flatMap (fun b => [b.toNat / 16, b.toNat % 16])

/-- The digits that LMOTS_SHA256_N32_W4 signs: those of the hash and of its checksum. -/
def otsDigits (q : List Byte) : List Nat :=
  let ds := nibbles q
  ds ++ (nibbles (beBytes 2 (ds.foldl (fun s d => s + (15 - d)) 0 * 16))).take 3

/-- The end of the i-th chain from its digit on. -/
def otsChain (prefix_ : List Byte) (i digit : Nat) (y : List Byte) : List Byte :=
  (List.range (15 - digit)).foldl (fun t j => sha256 (prefix_ ++ beBytes 2 i ++ beBytes 1 (digit + j) ++ t)) y

/-- The LMOTS public key that a signature gives for a message. PRESUMED (log 55). -/
def otsKey (id : List Byte) (q : Nat) (sig message : List Byte) : List Byte :=
  let pre := id ++ beBytes 4 q
  let h := sha256 (pre ++ beBytes 2 0x8181 ++ cut sig 4 32 ++ message)
  let z := (otsDigits h).mapIdx (fun i d => otsChain pre i d (cut sig (36 + 32 * i) 32))
  sha256 (pre ++ beBytes 2 0x8080 ++ z.flatten)

/-- The root of the tree from a node up its path. PRESUMED (log 55). -/
def lmsRoot (id : List Byte) : Nat → List Byte → List (List Byte) → List Byte
  | _, t, [] => t
  | n, t, p :: ps =>
    let pre := id ++ beBytes 4 (n / 2) ++ beBytes 2 0x8383
    lmsRoot id (n / 2) (sha256 (if n % 2 = 1 then pre ++ p ++ t else pre ++ t ++ p)) ps

/-- The type codes of LMS_SHA256_M32_H15 and LMOTS_SHA256_N32_W4. -/
def lmsType : Nat := 7
def otsType : Nat := 3

/-- Whether a signature of a message verifies under an LMS public key. PRESUMED (log 55). -/
def lmsVerifies (key sig message : List Byte) : Bool :=
  let id := cut key 8 16
  let q := natOfBe (cut sig 0 4)
  let kc := otsKey id q (cut sig 4 2180) message
  let leaf := sha256 (id ++ beBytes 4 (2 ^ 15 + q) ++ beBytes 2 0x8282 ++ kc)
  key.length == 56 && sig.length == 2668 && natOfBe (cut key 0 4) == lmsType && natOfBe (cut key 4 4) == otsType &&
    natOfBe (cut sig 4 4) == otsType && natOfBe (cut sig 2184 4) == lmsType && decide (q < 2 ^ 15) &&
    lmsRoot id (2 ^ 15 + q) leaf ((List.range 15).map (fun i => cut sig (2188 + 32 * i) 32)) == cut key 24 32

/-! ### Attestation (R359) -/

/-- A string of n bytes: cut, or followed by zeros. -/
def fit (n : Nat) (bs : List Byte) : List Byte := bs.take n ++ List.replicate (n - bs.length) 0

/-- The identifier of an LMS tree of the attestation key, and the start of a chain of one of its leaves. -/
def treeId (level tree : Nat) : List Byte := fit 16 (Config.attestId level tree)
def chainStart (level tree q i : Nat) : List Byte := fit 32 (Config.attestSecret level tree q i)

/-- A chain from one digit on to another. -/
def otsWalk (pre : List Byte) (i first last : Nat) (y : List Byte) : List Byte :=
  (List.range (last - first)).foldl (fun t j => sha256 (pre ++ beBytes 2 i ++ beBytes 1 (first + j) ++ t)) y

/-- The LMOTS public key of a leaf. PRESUMED (log 55). -/
def leafKey (level tree q : Nat) : List Byte :=
  let pre := treeId level tree ++ beBytes 4 q
  sha256 (pre ++ beBytes 2 0x8080 ++ (List.range 67).flatMap (fun i => otsWalk pre i 0 15 (chainStart level tree q i)))

/-- The node of an LMS tree with a number, `h` levels above its leaves. PRESUMED (log 55). -/
def treeNode (level tree : Nat) : Nat → Nat → List Byte
  | 0, r => sha256 (treeId level tree ++ beBytes 4 r ++ beBytes 2 0x8282 ++ leafKey level tree (r - 2 ^ 15))
  | h + 1, r => sha256 (treeId level tree ++ beBytes 4 r ++ beBytes 2 0x8383 ++ treeNode level tree h (2 * r) ++
      treeNode level tree h (2 * r + 1))

/-- The LMS public key of a tree. PRESUMED (log 55). -/
def lmsKey (level tree : Nat) : List Byte :=
  beBytes 4 lmsType ++ beBytes 4 otsType ++ treeId level tree ++ treeNode level tree 15 1

/-- The LMS signature of a message by a leaf of a tree. PRESUMED (log 55). -/
def lmsSign (level tree q : Nat) (message : List Byte) : List Byte :=
  let pre := treeId level tree ++ beBytes 4 q
  let c := fit 32 (Config.attestRandom level tree q)
  let ds := otsDigits (sha256 (pre ++ beBytes 2 0x8181 ++ c ++ message))
  beBytes 4 q ++ beBytes 4 otsType ++ c ++ (ds.mapIdx (fun i d => otsWalk pre i 0 d (chainStart level tree q i))).flatten ++
    beBytes 4 lmsType ++ (List.range 15).flatMap (fun h => treeNode level tree h (((2 ^ 15 + q) / 2 ^ h) ^^^ 1))

/-- The HSS public key at L = 2. PRESUMED (log 55). -/
def hssKey : List Byte := beBytes 4 2 ++ lmsKey 0 0

/-- The HSS signature at L = 2 of a message by the n-th leaf: that of the second tree's key by a leaf of the first, the key, and
that of the message by a leaf of the second. PRESUMED (log 55). DESIGN CHOICE (log 14). -/
def hssSign (n : Nat) (message : List Byte) : List Byte :=
  let tree := n / 2 ^ 15
  beBytes 4 1 ++ lmsSign 0 0 tree (lmsKey 1 tree) ++ lmsKey 1 tree ++ lmsSign 1 tree (n % 2 ^ 15) message

/-- Whether boot accepts an image (R356, R359): its public key has the fused digest, its signature verifies, and its
version is not below that of the rollback fuses. DESIGN CHOICE (log 14). -/
def imageVerifies (image : List Byte) : Bool :=
  sha256 (Config.imageKey image) == Config.fusedDigest &&
    lmsVerifies (Config.imageKey image) (Config.imageSignature image) (Config.imageBody image) &&
    decide (Config.rollback.toNat ≤ Config.imageVersion image)

end Sys2Proof.Machine
end

