-- ==== Sys2Proof/Machine/Fabric.lean ====
section
/-! DEFINITION. The links (R335 to R338), the fatal state (R357) and the boot sequence (R356). -/

namespace Sys2Proof.Machine

/-! ### Rails and beats (R335, R336) -/

/-- A link that is a rail set: a scale-up port or a die-to-die link. -/
def isRailSet (l : Nat) : Bool := decide (l < 18)

/-- The rails erased in a beat, but for a fenced one, whose data the XOR rail carries. -/
def Port.erasures (p : Port) (erased : BitVec 5) : Nat :=
  ((List.range 5).filter (fun i => (erased &&& ~~~p.fenced).getLsbD i)).length

/-- A rail's consecutive erasures. -/
def Port.countRuns (p : Port) (erased : BitVec 5) : SMap Nat :=
  ((List.range 5).map (fun i => (i, if erased.getLsbD i then SMap.get 0 p.runs i + 1 else 0))).filter (fun q => q.2 != 0)

/-- A beat as Table 19.1 takes it. -/
def Port.beat (p : Port) (erased : BitVec 5) : Port :=
  let n := p.erasures erased
  let p := { p with runs := p.countRuns erased }
  if n = 0 then { p with fails := 0 }
  else if n = 1 ∧ p.fenced = 0 then { p with fails := 0, railfix := p.railfix + 1 }
  else { p with fails := p.fails + 1, replay := p.replay + 1 }

/-- Whether a beat is discarded for replay. -/
def Port.discards (p : Port) (erased : BitVec 5) : Bool :=
  let n := p.erasures erased
  decide (2 ≤ n) || (n == 1 && p.fenced != 0)

/-- A replay is an event of every plumb graph that runs (R341). DEDUCED (log 34). -/
def State.countReplay (s : State) : State :=
  s.graphs.foldl (fun s p => if p.2.status = .running then s.plumbEvent p.1 else s) s

/-- A transfer of a host link, which is no rail set: one that fails again and again takes the link down (R337).
DESIGN CHOICE (log 10). -/
def Port.transfer (p : Port) (bad : Bool) : Port := { p with fails := if bad then p.fails + 1 else 0 }

/-- RAIL_BEAT_RECEIVE (R336). DESIGN CHOICE (log 10). -/
def execRailBeatReceive (link : Nat) (erased : BitVec 5) (s : State) : Host.Outcome State Fault Refusal :=
  let p := s.port link
  if !p.up then .next s
  else if !isRailSet link then .next (s.setPort link (p.transfer (erased != 0)))
  else
    let s' := s.setPort link (p.beat erased)
    .next (if p.discards erased then s'.countReplay else s')

/-- The rail of a link that is due to be fenced. -/
def Port.toFence (p : Port) : Option Nat :=
  (List.range 5).find? (fun i => decide (16 ≤ SMap.get 0 p.runs i) && !p.fenced.getLsbD i)

/-- RAIL_FENCE (R336): the first rail that has been erased in 16 consecutive beats. A fence and a link that goes down are the link
and rail events of vector 1 (R342). DESIGN CHOICE (log 67). -/
def execRailFence (s : State) : Host.Outcome State Fault Refusal :=
  match (List.range 18).findSome? (fun l => (s.port l).toFence.map (fun i => (l, i))) with
  | some (l, i) =>
    let p := s.port l
    .next { s.setPort l { p with fenced := p.fenced ||| (1#5 <<< i) } with msix := s.msix ++ [vecLink] }
  | none => .next s

/-- RAIL_RETRAIN (R336): of every fenced rail of the link that the service firmware names next, if that link is up.
DESIGN CHOICE (log 67). -/
def execRailRetrain (s : State) : Host.Outcome State Fault Refusal :=
  match s.retrains with
  | [] => .next s
  | l :: ls =>
    let p := s.port l
    let s := { s with retrains := ls }
    if isRailSet l && p.up then .next (s.setPort l { p with fenced := 0, runs := [] }) else .next s

/-! ### A link goes down (R337) -/

/-- The peer and the physical address of a key. -/
def peerOf (k : Nat) : Option (Nat × Nat) :=
  if 2 ^ 58 ≤ k then some ((k - 2 ^ 58) / 2 ^ 52, (k - 2 ^ 58) % 2 ^ 52) else none

/-- The port of an access to a granule of a peer (R338). -/
def State.routePort (s : State) (k : Nat) : Option Nat :=
  match peerOf k with
  | none => none
  | some (dev, pa) =>
    match s.routes.find dev with
    | none => none
    | some m =>
      let l := (List.range 12).filter (fun p => m.getLsbD p && (s.port (scaleUpLink p)).up)
      l[pa / 64 % l.length]?

def State.usesPort (s : State) (port : Nat) (keys : List Nat) : Bool := keys.any (fun k => s.routePort k == some port)

/-- An operation in flight on a failing port fails with PEER, as its kind does. An RMW may have taken effect.
DEDUCED (log 38). -/
def State.cutOp (s : State) (c : CtxId) (o : MemOp) : State :=
  let x := o.addr.toNat
  let t := s.performOp c o
  let s := if o.isRmw && Config.cutRmwPerformed o.id then { s with mem := t.mem, log := t.log, past := t.past } else s
  s.updCtx c (fun k =>
    if o.posted then k.failPosted o (progress x xPeer 0 true o.opc 0 0)
    else k.failOp o causeXlat (progress x xPeer 0 false o.opc 0 0))

/-- The operations of a context that are in flight on a port. DEDUCED (log 38). -/
def State.opsOnPort (s : State) (port : Nat) (c : CtxId) : List MemOp :=
  (s.ctx c).ops.filter (fun o => s.mayPerform c o && s.usesPort port (s.keysOf c.core o))

/-- The first unit of a copy that goes over a port: its index and whether it is written there. -/
def State.unitOnPort (s : State) (port : Nat) (us : List (List Nat × List Nat)) : Option (Nat × Bool) :=
  (us.findIdx? (fun u => s.usesPort port u.1 || s.usesPort port u.2)).map (fun i =>
    (i, s.usesPort port (us.getD i ([], [])).2))

/-- A copy in flight on a failing port stops at its first unit there. DEDUCED (log 38). -/
def State.cutCopy (s : State) (port : Nat) (c : CtxId) (i : Nat) : State :=
  match (s.ctx c).copy i with
  | .running r =>
    let us := s.copyUnits c.core r
    let u := s.resolveUnits c.core (unitBytes (Descr.of r.d).fmt) 0 us
    (match s.unitOnPort port u.1 with
     | none => s
     | some (e, dir) =>
       let va := match us[e]? with
         | some x => (match (if dir then x.dst else x.src) with | .dva a => a.toNat | .key _ => 0)
         | none => 0
       (s.moveUnits c.core c.one r r.before (u.1.take e)).updCtx c (fun k =>
         k.setCopy (BitVec.ofNat 4 i) (.faulted (progress va xPeer i dir r.kind.opc 0 e))))
  | _ => s

/-- A ring whose next fill or pull-back at a slot goes over a failing port stops there (R264). DEDUCED (log 38). -/
def State.cutRing (s : State) (port : Nat) (c : CtxId) (i m : Nat) : State :=
  let id := BitVec.ofNat 4 i
  match (s.ctx c).ringOf id m with
  | none => s
  | some (q, r) =>
    match s.ringStep c.core r (m % 16) with
    | none => s
    | some st =>
      let us := s.stepUnits c.core r (Descr.of q.d) (m % 16) st
      let u := s.resolveUnits c.core (unitBytes (Descr.of q.d).fmt) 0 us
      (match s.unitOnPort port u.1 with
       | none => s
       | some (e, dir) =>
         let va := match us[e]? with
           | some x => (match (if dir then x.dst else x.src) with | .dva a => a.toNat | .key _ => 0)
           | none => 0
         s.stopRing c id q r m st (e, dir, xPeer, va))

/-- The copies and rings of a context on a failing port: by id, then the rings that stopped slices have left. -/
def State.cutCopies (s : State) (port : Nat) (c : CtxId) : State :=
  let s := (List.range 16).foldl (fun s i => (List.range 16).foldl (fun s m => s.cutRing port c i m) (s.cutCopy port c i)) s
  ((List.range (s.ctx c).orphans.length).reverse).foldl (fun s k =>
    (List.range 16).foldl (fun s m => s.cutRing port c 0 (16 * (k + 1) + m)) s) s

/-- What is in flight on a scale-up port fails. DEDUCED (log 38). -/
def State.cutPort (s : State) (port : Nat) : State :=
  allCtxs.foldl (fun s c => ((s.opsOnPort port c).foldl (fun s o => s.cutOp c o) s).cutCopies port c) s

/-- A link is down. DESIGN CHOICE (log 67). -/
def State.linkDown (s : State) (l : Nat) : State :=
  let cut := if l < 12 then s.cutPort l else s
  let p := cut.port l
  let t := { cut.setPort l { p with up := false, downs := p.downs + 1, fails := 0 } with msix := cut.msix ++ [vecLink] }
  if 12 ≤ l ∧ l < 18 then t.fatal else t

/-- LINK_DOWN (R337): the first link whose replay has failed 8 times in a row: its beat has been discarded 9 times.
DEDUCED (log 38). -/
def execLinkDown (s : State) : Host.Outcome State Fault Refusal :=
  match (List.range 20).find? (fun l => decide (9 ≤ (s.port l).fails) && (s.port l).up) with
  | some l => .next (s.linkDown l)
  | none => .next s

/-! ### Boot (R356) -/

/-- A core as the monitor sets it at step 3 (R261). -/
def Core.booted : Core := { Core.reset with dqbase := 0x0017F000, dqlim := 0x0017FB80 }

/-- What is left of the machine's own state at a device reset: what the world outside holds, what the domain has
assigned and the monotonic flash. -/
def State.afterReset (s : State) : State :=
  { State.reset with
    mem := s.mem.filter (fun p => decide (2 ^ 57 ≤ p.1))
    routes := s.routes
    devid := s.devid
    digests := s.digests
    sent := s.sent
    reloads := s.reloads
    bus := s.bus
    msix := s.msix
    leafIndex := s.leafIndex
    tick := s.tick
    agenda := s.agenda }

/-- A die-to-die link. -/
def isDieLink (l : Nat) : Bool := decide (12 ≤ l) && decide (l < 18)

/-- Step 3 has run: slabs and deques are set up. Links are up where they have been trained. No course has been idle before
(R355). -/
def State.setUp (s : State) (port : Nat → Port) : State :=
  { s with
    cores := (List.range 256).map (fun n => (n, Core.booted))
    courses := ((List.range 32).map (fun n => (n, { Course.reset with idleSince := s.tick }))).filter (fun p => p.2 != Course.reset)
    ports := ((List.range 20).map (fun l => (l, port l))).filter (fun p => p.2 != Port.reset) }

/-- A link that training has brought up. -/
def Port.trained : Port := { Port.reset with up := true }

/-- A link that training has failed to bring up is down, and counted (R337). -/
def Port.untrained : Port := { Port.reset with downs := 1 }

/-- Step 5 fails: the scale-up and host links are down (R337), each with MSI-X vector 1. DEDUCED (log 38). -/
def State.linksFail (s : State) : State :=
  let t := s.setUp (fun l => if isDieLink l then Port.trained else Port.untrained)
  { t with msix := t.msix ++ List.replicate 14 vecLink }

/-- The 64 KiB that the boot ROM reads as the monitor image (Table 20.2): a shorter image stands before zeros.
DESIGN CHOICE (log 14). -/
def romImage (image : List Byte) : List Byte := image.take 0x10000 ++ zeros (0x10000 - image.length)

/-- The monitor image and the firmware image of the boot that has run: those that LOAD brought, else those of the device. -/
def State.monitorImage (s : State) : List Byte := romImage (s.loaded.getD Config.monitorImage)
def State.firmwareImage (s : State) : List Byte := s.firmware.getD Config.firmwareImage

/-- The boot sequence (Table 20.2), with images that LOAD has brought or with the device's own. `bootFail` names the step
that fails in this sequence, 0 none. -/
def State.bootWith (s : State) (loaded firmware : Option (List Byte)) : State :=
  let f := s.bootFail
  let s := { s.afterReset with loaded := loaded, firmware := firmware }
  let dies := s.setUp (fun l => if isDieLink l then Port.trained else Port.reset)
  if f = 1 ∨ !imageVerifies s.monitorImage then { s with boot := .recovery, failedStep := 1 }
  else if f = 2 ∨ f = 3 then { s.fatal with failedStep := f }
  else if f = 4 ∨ !imageVerifies s.firmwareImage then { dies with boot := .recovery, failedStep := 4 }
  else if f = 5 then { s.linksFail with boot := .running }
  else { s.setUp (fun _ => Port.trained) with boot := .running }

/-- DEVICE_RESET (R356). -/
def execDeviceReset (s : State) : Host.Outcome State Fault Refusal := .next (s.bootWith none none)

end Sys2Proof.Machine
end

