-- ==== Sys2Proof/Machine/HostPort.lean ====
section
/-! DEFINITION. The host's side (R343 to R346): the bead port, the record window and the management window. The
accesses of both host links wait in `bus`, in the order in which they arrive. -/

namespace Sys2Proof.Machine

/-! ### The access at hand -/

/-- The next access is taken. -/
def State.popBus (s : State) : State := { s with bus := s.bus.drop 1 }

def State.countWinerr (s : State) : State := { s with mgmt := { s.mgmt with winerr := satInc s.mgmt.winerr } }

/-- The value of a host write of up to 8 bytes. -/
def HostAccess.value (a : HostAccess) : DWord := BitVec.ofNat 64 (leNat a.data 0 (min a.size 8))

/-- A host read completes with data. -/
def State.answerData (s : State) (a : HostAccess) (d : List Byte) : State := if a.write then s else { s with reply := .data d }

/-! ### The bead port (R344) -/

/-- A write that the BEAD register accepts. -/
def HostAccess.isBead (a : HostAccess) : Bool := a.bar == .bead && a.off % 4096 == 0 && a.size == 8

/-- OP of a BEAD write. -/
def beadOp (v : DWord) : Nat := (v.extractLsb' 62 2).toNat
def beadSlot (v : DWord) : Nat := (v.extractLsb' 56 6).toNat
def beadAddr (v : DWord) : Nat := (v.extractLsb' 0 56).toNat

/-- A write of the bead port that launches. -/
def HostAccess.launches (a : HostAccess) : Bool := a.write && a.isBead && beadOp a.value == 1

/-- A bead-port write: until boot is over it is dropped. -/
def State.beadWrite (s : State) (a : HostAccess) : State :=
  let v := a.value
  if s.boot ≠ .running then s
  else if !a.isBead then s.dropBead
  else match s.pages.find (a.off / 4096), beadOp v with
    | some sp, 0 => if beadAddr v % 128 = 0 then s.bead (.host a.link) sp (beadAddr v) (beadSlot v) else s.dropBead
    | some sp, 1 => if beadAddr v % 64 = 0 ∧ beadSlot v = 0 then s.launch (.host a.link) sp (beadAddr v) else s.dropBead
    | _, _ => s.dropBead

/-- BEAD_PORT_BEAD (R344): every write of the bead port that does not launch; BEAD reads as 0. A write waits for a C1 in progress
(R289). DESIGN CHOICE (log 43). -/
def execBeadPortBead (s : State) : Host.Outcome State Fault Refusal :=
  match s.bus.head? with
  | none => .next s
  | some a =>
    if a.bar ≠ .bead || a.launches || (a.write && s.boot == .running && s.c1Busy) then .next s
    else if a.write then .next (s.popBus.beadWrite a)
    else if a.isBead then .next (s.popBus.answerData a (zeros 8))
    else .next s

/-- BEAD_PORT_LAUNCH (R344). A write waits for a C1 in progress (R289). DESIGN CHOICE (log 43). -/
def execBeadPortLaunch (s : State) : Host.Outcome State Fault Refusal :=
  match s.bus.head? with
  | none => .next s
  | some a =>
    if !a.launches || (s.boot == .running && s.c1Busy) then .next s else .next (s.popBus.beadWrite a)

/-! ### The record window (R345) -/

def apertureSize : Nat := 2 ^ 32

/-- Whether the record window works: not before step 6 of the boot sequence has completed (R356), which a fatal state behind it
keeps. DEDUCED (log 40). -/
def State.windowOpen (s : State) : Bool := s.boot == .running || (s.boot == .fatal && s.failedStep == 0)

/-- The space and the address of an access to a bound aperture. -/
def State.aperture (s : State) (a : HostAccess) : Option (Nat × Nat) :=
  (s.apertures.find (a.off / apertureSize)).map (fun p => (p.1, p.2.toNat + a.off % apertureSize))

/-- The keys of an access to an aperture. -/
def State.apertureKeys (s : State) (a : HostAccess) (acc : AccessKind) : Option (List Nat) :=
  match s.aperture a with
  | some (sp, va) => s.recordKeys sp acc va a.size
  | none => none

/-- A record-window access that an event of its own takes. DEDUCED (log 40). -/
def State.atAperture (s : State) (a : HostAccess) : Bool := a.bar == .record && (!s.windowOpen || (s.aperture a).isSome)

/-- APERTURE_WRITE (R345). -/
def execApertureWrite (s : State) : Host.Outcome State Fault Refusal :=
  match s.bus.head? with
  | none => .next s
  | some a =>
    if !s.atAperture a || !a.write then .next s
    else if !s.windowOpen then .next s.popBus
    else match s.apertureKeys a .write with
      | none => .next s.popBus.countWinerr
      | some ks =>
        let r := s.popBus.store (ks.zip a.data)
        let t := r.1.notePlain (.host a.link) 0 .write 0 (ks.filter (fun k => !r.1.poisoned k))
        .next (if r.2.isSome then t.countWinerr else t)

/-- APERTURE_READ (R345). -/
def execApertureRead (s : State) : Host.Outcome State Fault Refusal :=
  match s.bus.head? with
  | none => .next s
  | some a =>
    if !s.atAperture a || a.write then .next s
    else if !s.windowOpen then .next { s.popBus with reply := .unsupported }
    else match s.apertureKeys a .read with
      | none => .next { s.popBus.countWinerr with reply := .unsupported }
      | some ks =>
        if ks.any s.unreadable then .next { s.popBus.countWinerr with reply := .unsupported }
        else .next ((s.popBus.notePlain (.host a.link) 0 .read 0 ks).answerData a (ks.map s.byte))

/-! ### The configuration space (R1, R342) -/

/-- What R342 says of the configuration space of a host function: its ids, its class code, the largest payload and read
request, the width of its tags, and its MSI-X vectors. -/
structure PciFunction where
  vendorId : BitVec 16
  deviceId : BitVec 16
  subsystemId : BitVec 16
  classCode : BitVec 24
  maxPayload : Nat
  maxReadRequest : Nat
  tagBits : Nat
  vectors : Nat
  deriving DecidableEq, Repr

/-- The configuration space of each host function: the Subsystem ID is the form code (R1). -/
def pciFunction : PciFunction := ⟨Config.vendorId, 0xB605, Config.formCode, 0x120000, 512, 4096, 14, 4⟩

/-! ### The management window (R346) -/

/-- GO. -/
def Mbox.go (m : Mbox) : Bool := m.phase != .idle

/-- CTRL as it reads (R361). -/
def Mbox.ctrl (m : Mbox) : DWord :=
  BitVec.ofNat 64 (m.cmd.toNat + m.status.toNat * 2 ^ 8 + m.len.toNat * 2 ^ 16 + (if m.go then 2 ^ 63 else 0))

/-- The payload's bytes from an offset on. -/
def Mbox.bytes (m : Mbox) (off n : Nat) : List Byte := (List.range n).map (fun i => SMap.get 0 m.pay (off + i))

/-- A word of a PORTk group. -/
def Port.word (p : Port) (w : Nat) : Nat :=
  match w with
  | 0 => (if p.up then 1 else 0) + p.fenced.toNat * 2
  | 1 => p.railfix
  | 2 => p.replay
  | _ => p.downs

/-- MBOX and its payload. -/
def mboxBase : Nat := 0x8000
def payBase : Nat := 0x8040

/-- The register at an 8-byte-aligned offset as it reads (Table 19.4). -/
def State.mgmtReg (s : State) (off : Nat) : Option DWord :=
  let m := s.mgmt
  if 0x1000 ≤ off ∧ off < 0x1800 then
    some ((SMap.get 0 m.flog ((off - 0x1000) / 32)).extractLsb' (8 * ((off - 0x1000) % 32)) 64)
  else if 0x4000 ≤ off ∧ off < 0x4500 then
    if off % 64 < 32 then some (BitVec.ofNat 64 ((s.port ((off - 0x4000) / 64)).word (off % 64 / 8))) else none
  else if mboxBase ≤ off ∧ off < 0x10000 then
    if s.boot = .booting then some 0
    else if off = mboxBase then some s.mbox.ctrl
    else if payBase ≤ off then some (BitVec.ofNat 64 (leNat (s.mbox.bytes (off - payBase) 8) 0 8))
    else some 0
  else match off with
    | 0x00 => some (BitVec.ofNat 64 (Config.formCode.toNat + s.devid % 256 * 2 ^ 16 + Config.stepping.toNat * 2 ^ 32))
    | 0x08 => some (m.drainth.setWidth 64)
    | 0x10 => some (m.beaddrop.setWidth 64)
    | 0x18 => some (m.winerr.setWidth 64)
    | 0x20 => some (m.gaspace.setWidth 64)
    | 0x28 => some 0
    | 0x30 => some (m.plumbbrk.setWidth 64)
    | 0x38 => some (m.recerr.setWidth 64)
    | 0x40 => some (m.flhead.setWidth 64)
    | 0x48 => some (BitVec.ofNat 64 (m.fltail.toNat + m.fllost.toNat * 2 ^ 8))
    | _ => none

/-- Whether a register is served: until boot is over and in the recovery state, DEVINFO and MBOX alone (R356).
DEDUCED (log 40). -/
def State.served (s : State) (off : Nat) : Bool :=
  s.windowOpen || off == 0 || (decide (mboxBase ≤ off) && decide (off < 0x10000))

/-- The 8-byte words that an access touches. -/
def HostAccess.words (a : HostAccess) : List Nat :=
  if a.size = 0 then [] else (List.range ((a.off + a.size - 1) / 8 - a.off / 8 + 1)).map (fun i => 8 * (a.off / 8 + i))

/-- An access that matches registers: one register, or a range of the fault log or of the payload.
DEDUCED (log 40). -/
def State.atMgmt (s : State) (a : HostAccess) : Bool :=
  let ws := a.words
  a.bar == .mgmt && ws != [] && ws.all (fun w => s.served w && (s.mgmtReg w).isSome) &&
    (ws.length == 1 || ws.all (fun w => decide (0x1000 ≤ w) && decide (w < 0x1800)) ||
      ws.all (fun w => decide (payBase ≤ w)))

/-- The bytes of a window read. -/
def State.mgmtBytes (s : State) (a : HostAccess) : List Byte :=
  (List.range a.size).map (fun i =>
    let w := (a.off + i) / 8 * 8
    (((s.mgmtReg w).getD 0).extractLsb' (8 * ((a.off + i) % 8)) 8))

/-- A register after a write of some of its bytes. DEDUCED (log 40). -/
def HostAccess.merged (a : HostAccess) (old : DWord) : DWord :=
  BitVec.ofNat 64 (natOfBytes ((List.range 8).map (fun i =>
    let p := a.off / 8 * 8 + i
    if a.off ≤ p ∧ p < a.off + a.size then a.data.getD (p - a.off) 0 else old.extractLsb' (8 * i) 8)))

/-- CTRL is written (R361): GO starts a request. -/
def Mbox.write (m : Mbox) (v : DWord) : Mbox :=
  { m with cmd := v.extractLsb' 0 8, len := v.extractLsb' 16 16, phase := if v.getLsbD 63 then .submitted else .idle }

/-- A register write with no row of its own (Table 19.4); a read-only register ignores it (R7). DEDUCED (log 40). -/
def State.mgmtWrite (s : State) (a : HostAccess) : State :=
  let off := a.off / 8 * 8
  let v := a.merged ((s.mgmtReg off).getD 0)
  let m := s.mgmt
  if mboxBase ≤ off then
    if s.boot = .booting then s
    else if off = mboxBase then { s with mbox := s.mbox.write v }
    else if payBase ≤ off then
      { s with mbox := { s.mbox with
          pay := (a.data.take a.size).mapIdx (fun i b => (a.off - payBase + i, b)) |>.foldl
            (fun p x => SMap.setD 0 p x.1 x.2) s.mbox.pay } }
    else s
  else match off with
    | 0x08 => { s with mgmt := { m with drainth := v.setWidth 32 } }
    | 0x10 => { s with mgmt := { m with beaddrop := v.setWidth 32 } }
    | 0x18 => { s with mgmt := { m with winerr := v.setWidth 32 } }
    | 0x20 => { s with mgmt := { m with gaspace := v.setWidth 16 } }
    | 0x30 => { s with mgmt := { m with plumbbrk := v.setWidth 32 } }
    | 0x38 => { s with mgmt := { m with recerr := v.setWidth 32 } }
    | _ => s

/-- The writes that have a row of their own. -/
inductive OwnRow where
  | gabort
  | flhead
  | ctrlWhileGo
  deriving DecidableEq, Repr

def State.ownRow (s : State) (a : HostAccess) : Option OwnRow :=
  if !s.atMgmt a || !a.write then none
  else if a.off / 8 * 8 = 0x28 then some .gabort
  else if a.off / 8 * 8 = 0x40 then some .flhead
  else if a.off / 8 * 8 = mboxBase ∧ s.mbox.go then some .ctrlWhileGo
  else none

/-- MANAGEMENT_REGISTER_WRITE (R346); a read of a register completes with its value. -/
def execManagementRegisterWrite (s : State) : Host.Outcome State Fault Refusal :=
  match s.bus.head? with
  | none => .next s
  | some a =>
    if !s.atMgmt a || (s.ownRow a).isSome then .next s
    else if a.write then .next (s.popBus.mgmtWrite a)
    else .next (s.popBus.answerData a (s.mgmtBytes a))

/-- GABORT (R285): of a graph of GASPACE that is RUNNING. DEDUCED (log 40). -/
def execGabort (s : State) : Host.Outcome State Fault Refusal :=
  match s.bus.head? with
  | none => .next s
  | some a =>
    if s.ownRow a ≠ some .gabort then .next s
    else
      let v := a.merged 0
      let s := s.popBus
      if v.extractLsb' 56 8 ≠ 0 || s.boot ≠ .running then .next s
      else match s.graphs.find? (fun p => p.2.status == .running && p.2.space == s.mgmt.gaspace.toNat &&
          p.2.addr == v) with
        | some p => .next (s.abortGraph p.1)
        | none => .next s

/-- FLHEAD (R346). -/
def execFlhead (s : State) : Host.Outcome State Fault Refusal :=
  match s.bus.head? with
  | none => .next s
  | some a =>
    if s.ownRow a ≠ some .flhead then .next s
    else
      let v : BitVec 7 := (a.merged (s.mgmt.flhead.setWidth 64)).setWidth 7
      let s := s.popBus
      if 64 < (s.mgmt.fltail - v).toNat then .next s.countWinerr
      else .next { s with mgmt := { s.mgmt with flhead := v } }

/-- CTRL_WRITE_WHILE_GO (R361). -/
def execCtrlWriteWhileGo (s : State) : Host.Outcome State Fault Refusal :=
  match s.bus.head? with
  | none => .next s
  | some a => if s.ownRow a = some .ctrlWhileGo then .next s.popBus.countWinerr else .next s

/-! ### Accesses that match nothing (R343) -/

/-- Whether an access matches no register and no aperture. A write of the bead port is R344's. -/
def State.unmatched (s : State) (a : HostAccess) : Bool :=
  match a.bar with
  | .bead => !a.write && !a.isBead
  | .record => !s.atAperture a
  | .mgmt => !s.atMgmt a

/-- UNMATCHED_BAR_ACCESS (R343). -/
def execUnmatchedBarAccess (s : State) : Host.Outcome State Fault Refusal :=
  match s.bus.head? with
  | none => .next s
  | some a => if s.unmatched a then .next ((s.popBus.answerData a (zeros a.size)).countWinerr) else .next s

end Sys2Proof.Machine
end

