-- ==== Sys2Proof/Machine/Monitor.lean ====
section
/-! DEFINITION. The trusted monitor's mailbox (R361 to R364): spaces, mappings and their tables (R266, R269), bindings,
pools, replica groups, attestation (R360), images (R356), assignment of courses (R362), slab writes (R363). The layouts
of payloads that the spec does not give are DESIGN CHOICE (log 12). -/

namespace Sys2Proof.Machine

/-! ### Requests -/

/-- A field of the payload. DESIGN CHOICE (log 12). -/
def State.pay (s : State) (off n : Nat) : Nat := leNat (s.mbox.bytes off n) 0 n

/-- A request is answered; it completes with MAILBOX_REQUEST_COMPLETE. -/
def State.answer (s : State) (status : BitVec 8) : State := { s with mbox := { s.mbox with phase := .answered status [] } }

/-- STATUS values (R361). -/
def stDone : BitVec 8 := 0
def stRefused : BitVec 8 := 1
def stMalformed : BitVec 8 := 2
def stUnknown : BitVec 8 := 3
def stExhausted : BitVec 8 := 4

/-- A request whose payload has at least `len` bytes, and at most 32,704, runs; in the recovery state it is refused (R356).
DESIGN CHOICE (log 12). -/
def request (cmd : BitVec 8) (len : Nat) (s : State) (f : State → State) : Host.Outcome State Fault Refusal :=
  if s.mbox.phase ≠ .submitted ∨ s.mbox.cmd ≠ cmd then .next s
  else match s.boot with
    | .running => .next (if s.mbox.len.toNat < len ∨ 32704 < s.mbox.len.toNat then s.answer stMalformed else f s)
    | .recovery => .next (s.answer stRefused)
    | _ => .next s

/-- A request completes after the invalidation of a space (R269). -/
def State.invalidate (s : State) (space : Nat) : State :=
  { s with mbox := { s.mbox with phase := .invalidating space }, invals := s.invals ++ [space] }

/-- Whether a graph of a space is RUNNING. -/
def State.spaceRuns (s : State) (space : Nat) : Bool := s.graphs.any (fun p => p.2.space == space && p.2.status == .running)

/-! ### Tables (R266) -/

/-- A fresh table of a size, aligned to it, in the reserved region. DESIGN CHOICE (log 12). -/
def State.newTable (s : State) (size : Nat) : Nat × State :=
  let off := (s.tables + size - 1) / size * size
  (hbmReserved + off, { s with tables := off + size })

/-- Write the leaf of a page, creating the tables above it. Poison in a table that the monitor reads or writes is an
uncorrectable error in its own data (R357). DEDUCED (log 57). -/
def State.putLeaf (s : State) (va size entry : Nat) : List Level → Nat → State
  | [], _ => s
  | l :: ls, base =>
    let k := hbmKey (base + 8 * (va / 2 ^ l.lo % l.entries))
    if s.unreadable k then s.fatal
    else if size = 2 ^ l.lo then s.writeNat k 8 entry
    else
      let e := s.readNat k 8
      if e % 2 = 1 then s.putLeaf va size entry ls (entryAddr (BitVec.ofNat 64 e))
      else
        let (t, s) := s.newTable l.next
        (s.writeNat k 8 (t + 1)).putLeaf va size entry ls t

/-- OPEN's tables: a root. -/
def State.openAs (s : State) (space : Nat) : State :=
  let (t, s) := s.newTable 2048
  { s with spaces := s.spaces.put space ⟨t, [], none, []⟩ }

/-! ### OPEN and CLOSE -/

/-- No space (R364). -/
def noSpace : Nat := 0xFFFF

/-- OPEN. -/
def execOpenSpace (s : State) : Host.Outcome State Fault Refusal :=
  request 0x01 2 s (fun s =>
    let sp := s.pay 0 2
    if sp = noSpace then s.answer stMalformed
    else if (s.spaces.find sp).isSome || decide (256 ≤ s.spaces.length) then s.answer stRefused
    else (s.openAs sp).answer stDone)

/-- The slabs of a course read as zero, its queues and tiles are empty (R35, R362). -/
def State.clearCourse (s : State) (n : Nat) : State :=
  let inside (k : Nat) : Bool := match coreOfKey k with | some c => courseOf c == n | none => false
  let s := { s with
    mem := s.mem.filter (fun p => !inside p.1)
    poison := s.poison.filter (fun g => !inside (64 * g))
    flaws := s.flaws.filter (fun f => !inside (64 * f.1)) }
  (List.range 8).foldl (fun s p => s.updCore (8 * n + p) (fun k =>
    { k with
      ctx0 := { k.ctx0 with k := [], q := [] }
      ctx1 := { k.ctx1 with k := [], q := [] }
      sq := []
      sqOvf := 0 })) s

/-- A course passes to a space, or to none (R362). -/
def State.assignCourse (s : State) (n : Nat) (space : Option Nat) : State :=
  let co := s.course n
  if co.space = space then s
  else
    let s := s.clearCourse n
    let s := s.setCourse n { co with space := space }
    (List.range 8).foldl (fun s p => s.updCore (8 * n + p) (fun k => { k with tag := space })) s

/-- CLOSE: its courses are left to none, cleared. DESIGN CHOICE (log 17). -/
def execCloseSpace (s : State) : Host.Outcome State Fault Refusal :=
  request 0x02 2 s (fun s =>
    let sp := s.pay 0 2
    if (s.spaces.find sp).isNone || s.spaceRuns sp then s.answer stRefused
    else
      let s := (s.coursesOf sp).foldl (fun s n => s.assignCourse n none) s
      { s with spaces := s.spaces.erase sp, tlb := s.tlb.filter (fun e => e.space != sp) }.answer stDone)

/-! ### MAP and UNMAP (R364) -/

/-- The page sizes. -/
def pageSizes : List Nat := [0x10000, 0x200000, 0x40000000]

/-- A leaf entry that passes R268 for a page size. -/
def State.leafOk (s : State) (e : DWord) (size : Nat) : Bool :=
  e.getLsbD 0 && e.getLsbD 1 && !entryReserved true e && entryAddr e % size == 0 &&
    (match entryTgt e with
     | 0 => decide (entryAddr e + size ≤ hbmReserved)
     | 1 => true
     | _ => entryDev e != s.devid && (s.routes.find (entryDev e)).isSome)

/-- Whether two ranges overlap. -/
def rangesMeet (a n b m : Nat) : Bool := decide (a < b + m) && decide (b < a + n)

/-- A leaf is written; one that stood there before is invalidated (R269). -/
def State.mapLeaf (s : State) (id : Nat) (sp : Space) (va size e : Nat) : State :=
  let s := s.putLeaf va size e levels sp.root
  if s.boot = .fatal then s
  else if sp.leaves.contains (Leaf.mk va size) then s.invalidate id
  else { s with spaces := SMap.put s.spaces id { sp with leaves := sp.leaves ++ [Leaf.mk va size] } }.answer stDone

/-- MAP. -/
def execMapPage (s : State) : Host.Outcome State Fault Refusal :=
  request 0x03 32 s (fun s =>
    let id := s.pay 0 2
    let va := s.pay 8 8
    let size := s.pay 16 8
    let e := s.pay 24 8
    match s.spaces.find id with
    | none => s.answer stRefused
    | some sp =>
      if !pageSizes.contains size || va % size != 0 || decide (2 ^ 56 < va + size) then s.answer stMalformed
      else if !s.leafOk (BitVec.ofNat 64 e) size ||
          sp.leaves.any (fun l => l.size != size && rangesMeet l.va l.size va size) then s.answer stRefused
      else s.mapLeaf id sp va size e)

/-- UNMAP: every leaf wholly inside the range goes. -/
def execUnmapPages (s : State) : Host.Outcome State Fault Refusal :=
  request 0x04 24 s (fun s =>
    let id := s.pay 0 2
    let va := s.pay 8 8
    let size := s.pay 16 8
    match s.spaces.find id with
    | none => s.answer stRefused
    | some sp =>
      let hit := sp.leaves.filter (fun l => rangesMeet l.va l.size va size)
      if hit.any (fun l => decide (l.va < va) || decide (va + size < l.va + l.size)) then s.answer stRefused
      else if hit = [] then s.answer stDone
      else
        let s := hit.foldl (fun s l => s.putLeaf l.va l.size 0 levels sp.root) s
        if s.boot = .fatal then s
        else { s with spaces := SMap.put s.spaces id { sp with leaves := sp.leaves.filter (fun l => !hit.contains l) } }.invalidate id)

/-- INVALIDATION_COMPLETE (R269): the caches hold nothing more of the space. DESIGN CHOICE (log 17). -/
def execInvalidationComplete (s : State) : Host.Outcome State Fault Refusal :=
  match s.invals with
  | [] => .next s
  | sp :: l =>
    let s := { s with invals := l, tlb := s.tlb.filter (fun e => e.space != sp) }
    .next (if s.mbox.phase = .invalidating sp then s.answer stDone else s)

/-! ### BIND and POOL -/

/-- BIND: a bead page (kind 0) or an aperture (kind 1) to a space, or to none. -/
def execBindWindow (s : State) : Host.Outcome State Fault Refusal :=
  request 0x05 16 s (fun s =>
    let id := s.pay 0 2
    let kind := s.pay 2 1
    let i := s.pay 4 4
    let va := s.pay 8 8
    let range := if kind = 0 then 256 else 16
    if decide (1 < kind) || decide (range ≤ i) || (kind == 1 && (va % apertureSize != 0 || decide (2 ^ 56 ≤ va))) then
      s.answer stMalformed
    else if id ≠ noSpace ∧ (s.spaces.find id).isNone then s.answer stRefused
    else if kind = 0 then
      { s with pages := if id = noSpace then s.pages.erase i else s.pages.put i id }.answer stDone
    else { s with apertures := if id = noSpace then s.apertures.erase i
                    else s.apertures.put i (id, BitVec.ofNat 64 va) }.answer stDone)

/-- Whether a range is mapped with RD and W: the leaf of every 64 KiB of it has both (R361). -/
def State.mappedRw (s : State) (space va n : Nat) : Bool :=
  (List.range (n / 0x10000)).all (fun i =>
    match s.leafOf space (va + 0x10000 * i) with
    | .ok l => grants l.entry .read && grants l.entry .write
    | .error _ => false)

/-- POOL: slots that hold an image of the space stay used. -/
def execSetPool (s : State) : Host.Outcome State Fault Refusal :=
  request 0x06 20 s (fun s =>
    let id := s.pay 0 2
    let va := s.pay 8 8
    let n := s.pay 16 4
    match s.spaces.find id with
    | none => s.answer stRefused
    | some sp =>
      if va % slotSize ≠ 0 ∨ 2 ^ 56 < va + slotSize * n then s.answer stMalformed
      else if !s.mappedRw id va (slotSize * n) then s.answer stRefused
      else
        let holds (i : Image) : Bool := match s.graphs.find i.slice.graph with | some g => g.space == id | none => false
        let used := (s.images.filter (fun i => holds i && decide (va ≤ i.va.toNat) && decide (i.va.toNat < va + slotSize * n))).map
          (fun i => (i.va.toNat - va) / slotSize)
        { s with spaces := SMap.put s.spaces id { sp with pool := some (BitVec.ofNat 64 va, n), used := used } }.answer stDone)

/-! ### REPLICA (R351) -/

/-- The request's regions, boundary nodes and members. DESIGN CHOICE (log 12). -/
def State.payReplica (s : State) : Replica :=
  let regions := s.pay 16 1
  let bounds := s.pay 17 1
  let members := s.pay 18 1
  { space := s.pay 0 2
    graph := BitVec.ofNat 64 (s.pay 8 8)
    regions := (List.range regions).map (fun i => ⟨BitVec.ofNat 64 (s.pay (40 + 16 * i) 8), s.pay (48 + 16 * i) 8⟩)
    boundary := (List.range bounds).map (fun i => s.pay (40 + 16 * regions + 4 * i) 4)
    members := (List.range members).map (fun i => s.pay (40 + 16 * regions + 4 * bounds + i) 1)
    area := BitVec.ofNat 64 (s.pay 32 8)
    digtime := s.pay 24 4
    waiting := none
    mine := 0
    held := []
    reload := none
    since := s.past.length }

/-- Whether the boundary nodes of a request are in range: below the node count of their graph, which is known where Keystone
holds the graph or its record can be read. DEDUCED (log 57). -/
def State.boundsOk (s : State) (r : Replica) : Bool :=
  let n := match s.graphs.find? (fun p => p.2.space == r.space && p.2.addr == r.graph) with
    | some p => some p.2.count
    | none => (s.ksRead r.space r.graph.toNat 64).map (fun bs => leNat bs 16 4)
  match n with
  | some n => r.boundary.all (fun b => decide (b < n))
  | none => r.boundary.all (fun b => decide (b < 2 ^ 24))

/-- Whether a request is in range and its members are in the domain, this device among them. -/
def State.replicaOk (s : State) (r : Replica) : Bool :=
  (s.spaces.find r.space).isSome && r.graph.toNat % 64 == 0 && decide (r.graph.toNat < 2 ^ 56) &&
    decide (r.regions.length ≤ 16) && decide (r.boundary.length ≤ 8) && decide (2 ≤ r.members.length) &&
    decide (r.members.length ≤ 8) && dedup r.members == r.members && r.members.contains s.devid &&
    r.members.all (fun m => m == s.devid || (s.routes.find m).isSome) &&
    r.regions.all (fun x => x.va.toNat % 16 == 0 && x.len % 16 == 0 && decide (x.va.toNat + x.len ≤ 2 ^ 56)) &&
    decide (r.area.toNat < 2 ^ 56) && s.boundsOk r

/-- A group is set up, in place of an earlier one of the same graph. -/
def State.addGroup (s : State) (r : Replica) : State :=
  { s with replicas := s.replicas.filter (fun q => q.space != r.space || q.graph != r.graph) ++ [r] }

/-- REPLICA: while members of an earlier group of the graph wait at a boundary, the request is refused.
DESIGN CHOICE (log 12). -/
def execReplica (s : State) : Host.Outcome State Fault Refusal :=
  request 0x07 40 s (fun s =>
    let r := s.payReplica
    if s.replicaOk r && !(s.replicas.any (fun q => q.space == r.space && q.graph == r.graph && q.waiting.isSome)) then
      (s.addGroup r).answer stDone
    else s.answer stRefused)

/-! ### ATTEST and LOAD (R356, R359, R360) -/

/-- The report (R360), with the images that have booted. -/
def State.report (s : State) : List Byte :=
  s.mbox.bytes 0 32 ++ sha256 s.monitorImage ++ sha256 s.firmwareImage ++ bytesOfNat 2 Config.formCode.toNat ++
    bytesOfNat 1 s.devid ++ bytesOfNat 1 Config.stepping.toNat ++ bytesOfNat 4 Config.rollback.toNat ++
    bytesOfNat 8 s.leafIndex ++ zeros 144

/-- ATTEST: the next leaf index is stored before the signature is released. DESIGN CHOICE (log 12). -/
def execAttest (s : State) : Host.Outcome State Fault Refusal :=
  request 0x08 32 s (fun s =>
    if Config.attestLeaves ≤ s.leafIndex then s.answer stExhausted
    else
      let r := s.report
      { s with
        leafIndex := s.leafIndex + 1
        mbox := { s.mbox with phase := .answered stDone (r ++ hssSign s.leafIndex r) } })

/-- LOAD: in the recovery state an image that verifies restarts the boot sequence with it, as the image of the step that failed: the
monitor's or the service firmware's. DESIGN CHOICE (log 14). -/
def execLoadImage (s : State) : Host.Outcome State Fault Refusal :=
  if s.mbox.phase ≠ .submitted ∨ s.mbox.cmd ≠ 0x09 then .next s
  else match s.boot with
    | .running => .next (s.answer stRefused)
    | .recovery =>
      let image := s.mbox.bytes 0 s.mbox.len.toNat
      if s.failedStep = 4 then
        (if imageVerifies image then .next (s.bootWith s.loaded (some image)) else .next (s.answer stRefused))
      else if imageVerifies (romImage image) then .next (s.bootWith (some image) s.firmware) else .next (s.answer stRefused)
    | _ => .next s

/-! ### ASSIGN and SLABWR (R362, R363) -/

/-- Whether an ASSIGN of a course is refused. -/
def State.assignRefused (s : State) (n : Nat) (space : Option Nat) : Bool :=
  !s.courseFree n || (match (s.course n).space with
    | some old => some old != space && s.spaceRuns old
    | none => false)

/-- ASSIGN. -/
def execAssign (s : State) : Host.Outcome State Fault Refusal :=
  request 0x0A 6 s (fun s =>
    let mask := s.pay 0 4
    let id := s.pay 4 2
    let space : Option Nat := if id = noSpace then none else some id
    let cs := (List.range 32).filter (fun n => mask.testBit n)
    if (id ≠ noSpace && (s.spaces.find id).isNone) || cs.any (fun n => s.assignRefused n space) then s.answer stRefused
    else (cs.foldl (fun s n => s.assignCourse n space) s).answer stDone)

/-- Whether a context of a core is occupied; the odd core of a twin pair runs the slices of the even one (R347).
DEDUCED (log 16). -/
def State.occupied (s : State) (core : Nat) : Bool :=
  let n := if (s.course (courseOf core)).twin then core / 2 * 2 else core
  (s.core core).ctx0.slice.isSome || (s.core core).ctx1.slice.isSome || (s.core n).ctx0.slice.isSome ||
    (s.core n).ctx1.slice.isSome

/-- Whether a core is the odd one of a twin pair, whose slab nothing writes (R349). -/
def State.isOddTwin (s : State) (core : Nat) : Bool := (s.course (courseOf core)).twin && core % 2 == 1

/-- SLABWR (R363): what a poisoned granule refuses (R259) makes the request a refused one. DEDUCED (log 57). -/
def execSlabwr (s : State) : Host.Outcome State Fault Refusal :=
  request 0x0B 16 s (fun s =>
    let id := s.pay 0 2
    let core := s.pay 2 1
    let off := s.pay 8 4
    let n := s.mbox.len.toNat - 16
    if (s.course (courseOf core)).space ≠ some id || s.occupied core || s.isOddTwin core ||
        decide (slabSize < off + n) || s.pay 3 5 != 0 || s.pay 12 4 != 0 then s.answer stRefused
    else
      let r := s.store (cellsAt (slabKey core off) (s.mbox.bytes 16 n))
      let keys := (List.range n).map (fun i => slabKey core off + i)
      (r.1.notePlain .monitor 0 .write 0 (keys.filter (fun k => !r.1.poisoned k))).answer
        (if r.2.isSome then stRefused else stDone))

/-! ### The end of a request -/

/-- UNKNOWN_CMD. -/
def execUnknownCmd (s : State) : Host.Outcome State Fault Refusal :=
  let c := s.mbox.cmd.toNat
  if s.mbox.phase ≠ .submitted || (decide (1 ≤ c) && decide (c ≤ 0x0B)) then .next s
  else match s.boot with
    | .running => .next (s.answer stUnknown)
    | .recovery => .next (s.answer stRefused)
    | _ => .next s

/-- MAILBOX_REQUEST_COMPLETE (R361): GO reads 0, STATUS and any response are in place. -/
def execMailboxRequestComplete (s : State) : Host.Outcome State Fault Refusal :=
  match s.mbox.phase with
  | .answered status resp =>
    let pay := if resp = [] then s.mbox.pay else
      (resp.mapIdx (fun i b => (i, b))).foldl (fun p x => SMap.setD 0 p x.1 x.2) ([] : SMap Byte)
    .next { s with mbox := { s.mbox with status := status, pay := pay, phase := .idle } }
  | _ => .next s

end Sys2Proof.Machine
end

