-- ==== Sys2Proof/Machine/Dispatch.lean ====
section
/-! DEFINITION. exec: one arm per instruction, each a direct call of its meaning. -/

namespace Sys2Proof.Machine

/-- The execution of one row of the opcode table. -/
def exec (i : Instr) (s : State) : Host.Outcome State Fault Refusal :=
  match i with
  | .bundleIssue core => Sys2Proof.Machine.execBundleIssue core s
  | .lookAheadNullifier c => Sys2Proof.Machine.execLookAheadNullifier c s
  | .resultLanding c k => Sys2Proof.Machine.execResultLanding c k s
  | .loopBackEdge c => Sys2Proof.Machine.execLoopBackEdge c s
  | .landingDue c l => Sys2Proof.Machine.execLandingDue c l s
  | .landingArrival c l => Sys2Proof.Machine.execLandingArrival c l s
  | .memoryAccessPerform c k err => Sys2Proof.Machine.execMemoryAccessPerform c k err s
  | .atomicAtHome c k => Sys2Proof.Machine.execAtomicAtHome c k s
  | .amoResponse c k => Sys2Proof.Machine.execAmoResponse c k s
  | .postedAcknowledge c k => Sys2Proof.Machine.execPostedAcknowledge c k s
  | .copyCompletion c n => Sys2Proof.Machine.execCopyCompletion c n s
  | .copyTranslationStop c n => Sys2Proof.Machine.execCopyTranslationStop c n s
  | .postedOperationFailure c k => Sys2Proof.Machine.execPostedOperationFailure c k s
  | .tableWalk space va acc => Sys2Proof.Machine.execTableWalk space va acc s
  | .arrayOperationCompletion core err => Sys2Proof.Machine.execArrayOperationCompletion core err s
  | .drainEntryWrite core => Sys2Proof.Machine.execDrainEntryWrite core s
  | .ringSlotFill c n m => Sys2Proof.Machine.execRingSlotFill c n m s
  | .ringPullBack c n m => Sys2Proof.Machine.execRingPullBack c n m s
  | .ringStop c n m => Sys2Proof.Machine.execRingStop c n m s
  | .lateFaultDetection c => Sys2Proof.Machine.execLateFaultDetection c s
  | .trapEntry c => Sys2Proof.Machine.execTrapEntry c s
  | .graphLaunch k => Sys2Proof.Machine.execGraphLaunch k s
  | .beadArrival k => Sys2Proof.Machine.execBeadArrival k s
  | .dispatch course => Sys2Proof.Machine.execDispatch course s
  | .sliceStart core => Sys2Proof.Machine.execSliceStart core s
  | .workStealing core => Sys2Proof.Machine.execWorkStealing core s
  | .nodeCompletion graph node => Sys2Proof.Machine.execNodeCompletion graph node s
  | .cancellationC1 k => Sys2Proof.Machine.execCancellationC1 k s
  | .cancellationC2 k => Sys2Proof.Machine.execCancellationC2 k s
  | .preemptionDecision core => Sys2Proof.Machine.execPreemptionDecision core s
  | .imageSave c => Sys2Proof.Machine.execImageSave c s
  | .killSlice c => Sys2Proof.Machine.execKillSlice c s
  | .killDeadline c => Sys2Proof.Machine.execKillDeadline c s
  | .preemptKillRequeue graph node => Sys2Proof.Machine.execPreemptKillRequeue graph node s
  | .courseGating course => Sys2Proof.Machine.execCourseGating course s
  | .wakeComplete course => Sys2Proof.Machine.execWakeComplete course s
  | .operatingPointChange course mhz mv => Sys2Proof.Machine.execOperatingPointChange course mhz mv s
  | .powerEmergency course mhz mv => Sys2Proof.Machine.execPowerEmergency course mhz mv s
  | .pairMismatch core pc => Sys2Proof.Machine.execPairMismatch core pc s
  | .railBeatReceive link erased => Sys2Proof.Machine.execRailBeatReceive link erased s
  | .wrcSeed c => Sys2Proof.Machine.execWrcSeed c s
  | .wrcFpctl c => Sys2Proof.Machine.execWrcFpctl c s
  | .wrcKsw c n => Sys2Proof.Machine.execWrcKsw c n s
  | .nop ib => Sys2Proof.Machine.execNop ib s
  | .rep adv stride count => Sys2Proof.Machine.execRep adv stride count s
  | .br u o => Sys2Proof.Machine.execBr u o s
  | .jmp u r => Sys2Proof.Machine.execJmp u r s
  | .call u o => Sys2Proof.Machine.execCall u o s
  | .ret u => Sys2Proof.Machine.execRet u s
  | .loop u l d r => Sys2Proof.Machine.execLoop u l d r s
  | .wait u k m => Sys2Proof.Machine.execWait u k m s
  | .bar u b m => Sys2Proof.Machine.execBar u b m s
  | .fence u r m => Sys2Proof.Machine.execFence u r m s
  | .trap u c => Sys2Proof.Machine.execTrap u c s
  | .eret u => Sys2Proof.Machine.execEret u s
  | .setpri u c => Sys2Proof.Machine.execSetpri u c s
  | .ctnOpen u o => Sys2Proof.Machine.execCtnOpen u o s
  | .ctnClose u => Sys2Proof.Machine.execCtnClose u s
  | .glaunch u r => Sys2Proof.Machine.execGlaunch u r s
  | .bead u r t => Sys2Proof.Machine.execBead u r t s
  | .ndone u => Sys2Proof.Machine.execNdone u s
  | .yield u => Sys2Proof.Machine.execYield u s
  | .halt u => Sys2Proof.Machine.execHalt u s
  | .sqrd u r => Sys2Proof.Machine.execSqrd u r s
  | .add u d a b => Sys2Proof.Machine.execAdd u d a b s
  | .sub u d a b => Sys2Proof.Machine.execSub u d a b s
  | .mul u d a b => Sys2Proof.Machine.execMul u d a b s
  | .mulh u d a b => Sys2Proof.Machine.execMulh u d a b s
  | .mulhu u d a b => Sys2Proof.Machine.execMulhu u d a b s
  | .div u d a b => Sys2Proof.Machine.execDiv u d a b s
  | .divu u d a b => Sys2Proof.Machine.execDivu u d a b s
  | .rem u d a b => Sys2Proof.Machine.execRem u d a b s
  | .remu u d a b => Sys2Proof.Machine.execRemu u d a b s
  | .and u d a b => Sys2Proof.Machine.execAnd u d a b s
  | .or u d a b => Sys2Proof.Machine.execOr u d a b s
  | .xor u d a b => Sys2Proof.Machine.execXor u d a b s
  | .shl u d a b => Sys2Proof.Machine.execShl u d a b s
  | .shr u d a b => Sys2Proof.Machine.execShr u d a b s
  | .ashr u d a b => Sys2Proof.Machine.execAshr u d a b s
  | .sel u d a p => Sys2Proof.Machine.execSel u d a p s
  | .min u d a b => Sys2Proof.Machine.execMin u d a b s
  | .max u d a b => Sys2Proof.Machine.execMax u d a b s
  | .minu u d a b => Sys2Proof.Machine.execMinu u d a b s
  | .maxu u d a b => Sys2Proof.Machine.execMaxu u d a b s
  | .clz u d a => Sys2Proof.Machine.execClz u d a s
  | .ctz u d a => Sys2Proof.Machine.execCtz u d a s
  | .popc u d a => Sys2Proof.Machine.execPopc u d a s
  | .addi u d a n => Sys2Proof.Machine.execAddi u d a n s
  | .andi u d a n => Sys2Proof.Machine.execAndi u d a n s
  | .ori u d a n => Sys2Proof.Machine.execOri u d a n s
  | .xori u d a n => Sys2Proof.Machine.execXori u d a n s
  | .shli u d a n => Sys2Proof.Machine.execShli u d a n s
  | .shri u d a n => Sys2Proof.Machine.execShri u d a n s
  | .ashri u d a n => Sys2Proof.Machine.execAshri u d a n s
  | .movi u d n => Sys2Proof.Machine.execMovi u d n s
  | .movs u d n => Sys2Proof.Machine.execMovs u d n s
  | .rdc u r c w => Sys2Proof.Machine.execRdc u r c w s
  | .wrc u r c w => Sys2Proof.Machine.execWrc u r c w s
  | .fcmple u p a b f w => Sys2Proof.Machine.execFcmple u p a b f w s
  | .fcmpun u p a b f w => Sys2Proof.Machine.execFcmpun u p a b f w s
  | .cmpeq u p a b => Sys2Proof.Machine.execCmpeq u p a b s
  | .cmpne u p a b => Sys2Proof.Machine.execCmpne u p a b s
  | .cmplt u p a b => Sys2Proof.Machine.execCmplt u p a b s
  | .cmpltu u p a b => Sys2Proof.Machine.execCmpltu u p a b s
  | .cmple u p a b => Sys2Proof.Machine.execCmple u p a b s
  | .cmpleu u p a b => Sys2Proof.Machine.execCmpleu u p a b s
  | .fcmpeq u p a b f w => Sys2Proof.Machine.execFcmpeq u p a b f w s
  | .fcmplt u p a b f w => Sys2Proof.Machine.execFcmplt u p a b f w s
  | .faddF32 u d a b f o => Sys2Proof.Machine.execFaddF32 u d a b f o s
  | .fsubF32 u d a b f o => Sys2Proof.Machine.execFsubF32 u d a b f o s
  | .fmulF32 u d a b f o => Sys2Proof.Machine.execFmulF32 u d a b f o s
  | .ffmaF32 u d a b f o => Sys2Proof.Machine.execFfmaF32 u d a b f o s
  | .fdivF32 u d a b f o => Sys2Proof.Machine.execFdivF32 u d a b f o s
  | .fsqrtF32 u d a f o => Sys2Proof.Machine.execFsqrtF32 u d a f o s
  | .faddF64 u d a b f o => Sys2Proof.Machine.execFaddF64 u d a b f o s
  | .fsubF64 u d a b f o => Sys2Proof.Machine.execFsubF64 u d a b f o s
  | .fmulF64 u d a b f o => Sys2Proof.Machine.execFmulF64 u d a b f o s
  | .ffmaF64 u d a b f o => Sys2Proof.Machine.execFfmaF64 u d a b f o s
  | .fdivF64 u d a b f o => Sys2Proof.Machine.execFdivF64 u d a b f o s
  | .fsqrtF64 u d a f o => Sys2Proof.Machine.execFsqrtF64 u d a f o s
  | .xadd u x a b => Sys2Proof.Machine.execXadd u x a b s
  | .xaddi u x a n => Sys2Proof.Machine.execXaddi u x a n s
  | .xsub u x a b => Sys2Proof.Machine.execXsub u x a b s
  | .xshli u x a n => Sys2Proof.Machine.execXshli u x a n s
  | .xshri u x a n => Sys2Proof.Machine.execXshri u x a n s
  | .xand u x a b => Sys2Proof.Machine.execXand u x a b s
  | .xpopc u x a => Sys2Proof.Machine.execXpopc u x a s
  | .xcmpadv u x a b c f => Sys2Proof.Machine.execXcmpadv u x a b c f s
  | .xpatd u x a k => Sys2Proof.Machine.execXpatd u x a k s
  | .xbnet u x a b e => Sys2Proof.Machine.execXbnet u x a b e s
  | .xbnld u e v => Sys2Proof.Machine.execXbnld u e v s
  | .xbperm u x a b c f => Sys2Proof.Machine.execXbperm u x a b c f s
  | .xfroms u x r => Sys2Proof.Machine.execXfroms u x r s
  | .xtos u x r => Sys2Proof.Machine.execXtos u x r s
  | .xmov u x a => Sys2Proof.Machine.execXmov u x a s
  | .xmovi u x n => Sys2Proof.Machine.execXmovi u x n s
  | .vadd u t d a b f o => Sys2Proof.Machine.execVadd u t d a b f o s
  | .vsub u t d a b f o => Sys2Proof.Machine.execVsub u t d a b f o s
  | .vmul u t d a b f o => Sys2Proof.Machine.execVmul u t d a b f o s
  | .vfma u t d a b f o => Sys2Proof.Machine.execVfma u t d a b f o s
  | .vfms u t d a b f o => Sys2Proof.Machine.execVfms u t d a b f o s
  | .vdiv u t d a b f o => Sys2Proof.Machine.execVdiv u t d a b f o s
  | .vsqrt u t d a f o => Sys2Proof.Machine.execVsqrt u t d a f o s
  | .vmin u t d a b f => Sys2Proof.Machine.execVmin u t d a b f s
  | .vmax u t d a b f => Sys2Proof.Machine.execVmax u t d a b f s
  | .vabs u t d a o => Sys2Proof.Machine.execVabs u t d a o s
  | .vneg u t d a o => Sys2Proof.Machine.execVneg u t d a o s
  | .vrcp u t d a f o => Sys2Proof.Machine.execVrcp u t d a f o s
  | .vrsq u t d a f o => Sys2Proof.Machine.execVrsq u t d a f o s
  | .vexp2 u t d a f o => Sys2Proof.Machine.execVexp2 u t d a f o s
  | .vlog2 u t d a f o => Sys2Proof.Machine.execVlog2 u t d a f o s
  | .vsel u c w d a b => Sys2Proof.Machine.execVsel u c w d a b s
  | .vand u t d a b => Sys2Proof.Machine.execVand u t d a b s
  | .vor u t d a b => Sys2Proof.Machine.execVor u t d a b s
  | .vxor u t d a b => Sys2Proof.Machine.execVxor u t d a b s
  | .vnot u t d a => Sys2Proof.Machine.execVnot u t d a s
  | .vshl u t d a b => Sys2Proof.Machine.execVshl u t d a b s
  | .vshr u t d a b => Sys2Proof.Machine.execVshr u t d a b s
  | .vashr u t d a b => Sys2Proof.Machine.execVashr u t d a b s
  | .vscn u t d a b f o => Sys2Proof.Machine.execVscn u t d a b f o s
  | .vcmpeq u t p a b f => Sys2Proof.Machine.execVcmpeq u t p a b f s
  | .vcmpne u t p a b f => Sys2Proof.Machine.execVcmpne u t p a b f s
  | .vcmplt u t p a b f => Sys2Proof.Machine.execVcmplt u t p a b f s
  | .vcmple u t p a b f => Sys2Proof.Machine.execVcmple u t p a b f s
  | .vcmpun u t p a b f => Sys2Proof.Machine.execVcmpun u t p a b f s
  | .vcvt u t d a q r f o => Sys2Proof.Machine.execVcvt u t d a q r f o s
  | .vcvtd u t d a r f o => Sys2Proof.Machine.execVcvtd u t d a r f o s
  | .vperm u t d a b => Sys2Proof.Machine.execVperm u t d a b s
  | .vbcast u t d a l => Sys2Proof.Machine.execVbcast u t d a l s
  | .vredadd u t d a f o => Sys2Proof.Machine.execVredadd u t d a f o s
  | .vredmax u t d a f => Sys2Proof.Machine.execVredmax u t d a f s
  | .vredmin u t d a f => Sys2Proof.Machine.execVredmin u t d a f s
  | .vpopq u d q => Sys2Proof.Machine.execVpopq u d q s
  | .vpopl u d l => Sys2Proof.Machine.execVpopl u d l s
  | .vrng u t d a => Sys2Proof.Machine.execVrng u t d a s
  | .prune u d a b k => Sys2Proof.Machine.execPrune u d a b k s
  | .topk u t d a b => Sys2Proof.Machine.execTopk u t d a b s
  | .qnt u d a b f => Sys2Proof.Machine.execQnt u d a b f s
  | .dq u d a b o => Sys2Proof.Machine.execDq u d a b o s
  | .spenc u t d a k => Sys2Proof.Machine.execSpenc u t d a k s
  | .spdec u t d a k => Sys2Proof.Machine.execSpdec u t d a k s
  | .vmvs u r v l => Sys2Proof.Machine.execVmvs u r v l s
  | .vmsv u r v l => Sys2Proof.Machine.execVmsv u r v l s
  | .vmoviI32 u m d n => Sys2Proof.Machine.execVmoviI32 u m d n s
  | .vmoviI64 u m d n => Sys2Proof.Machine.execVmoviI64 u m d n s
  | .vmoviF32 u m d n => Sys2Proof.Machine.execVmoviF32 u m d n s
  | .vmoviF64 u m d n => Sys2Proof.Machine.execVmoviF64 u m d n s
  | .vmoviF16 u m d n => Sys2Proof.Machine.execVmoviF16 u m d n s
  | .vmoviBf16 u m d n => Sys2Proof.Machine.execVmoviBf16 u m d n s
  | .vmoviH8 u m d n => Sys2Proof.Machine.execVmoviH8 u m d n s
  | .mma u p k a b z r f o => Sys2Proof.Machine.execMma u p k a b z r f o s
  | .mmaS u p k a b z r f o => Sys2Proof.Machine.execMmaS u p k a b z r f o s
  | .mmaK4 u k a b m => Sys2Proof.Machine.execMmaK4 u k a b m s
  | .trsm u k e w l => Sys2Proof.Machine.execTrsm u k e w l s
  | .getrf u k w l => Sys2Proof.Machine.execGetrf u k w l s
  | .potrf u k w l => Sys2Proof.Machine.execPotrf u k w l s
  | .givqr u k e w => Sys2Proof.Machine.execGivqr u k e w s
  | .rotapp u k e w l => Sys2Proof.Machine.execRotapp u k e w l s
  | .accz u k => Sys2Proof.Machine.execAccz u k s
  | .accld u k d => Sys2Proof.Machine.execAccld u k d s
  | .accst u a d => Sys2Proof.Machine.execAccst u a d s
  | .drain u a q => Sys2Proof.Machine.execDrain u a q s
  | .accmov u k a => Sys2Proof.Machine.execAccmov u k a s
  | .acct u d => Sys2Proof.Machine.execAcct u d s
  | .cbld u d c => Sys2Proof.Machine.execCbld u d c s
  | .spld u d => Sys2Proof.Machine.execSpld u d s
  | .ldV u v a c o => Sys2Proof.Machine.execLdV u v a c o s
  | .stV u v a c o => Sys2Proof.Machine.execStV u v a c o s
  | .ldVs u v a c w => Sys2Proof.Machine.execLdVs u v a c w s
  | .stVs u v a c w => Sys2Proof.Machine.execStVs u v a c w s
  | .ldVx u v a b c => Sys2Proof.Machine.execLdVx u v a b c s
  | .stVx u v a b c => Sys2Proof.Machine.execStVx u v a b c s
  | .ldrL u l a c t => Sys2Proof.Machine.execLdrL u l a c t s
  | .pf u d a c => Sys2Proof.Machine.execPf u d a c s
  | .ldS u a c e r w => Sys2Proof.Machine.execLdS u a c e r w s
  | .stS u a c e r w => Sys2Proof.Machine.execStS u a c e r w s
  | .amoAdd u a c e r w => Sys2Proof.Machine.execAmoAdd u a c e r w s
  | .amoFadd u a c e r w => Sys2Proof.Machine.execAmoFadd u a c e r w s
  | .amoMin u a c e r w => Sys2Proof.Machine.execAmoMin u a c e r w s
  | .amoMax u a c e r w => Sys2Proof.Machine.execAmoMax u a c e r w s
  | .amoMinu u a c e r w => Sys2Proof.Machine.execAmoMinu u a c e r w s
  | .amoMaxu u a c e r w => Sys2Proof.Machine.execAmoMaxu u a c e r w s
  | .amoAnd u a c e r w => Sys2Proof.Machine.execAmoAnd u a c e r w s
  | .amoOr u a c e r w => Sys2Proof.Machine.execAmoOr u a c e r w s
  | .amoXor u a c e r w => Sys2Proof.Machine.execAmoXor u a c e r w s
  | .amoSwp u a c e r w => Sys2Proof.Machine.execAmoSwp u a c e r w s
  | .amoCas u a c e r w => Sys2Proof.Machine.execAmoCas u a c e r w s
  | .redAdd u a c r w => Sys2Proof.Machine.execRedAdd u a c r w s
  | .redFadd u a c r w => Sys2Proof.Machine.execRedFadd u a c r w s
  | .redMin u a c r w => Sys2Proof.Machine.execRedMin u a c r w s
  | .redMax u a c r w => Sys2Proof.Machine.execRedMax u a c r w s
  | .redAnd u a c r w => Sys2Proof.Machine.execRedAnd u a c r w s
  | .redOr u a c r w => Sys2Proof.Machine.execRedOr u a c r w s
  | .redXor u a c r w => Sys2Proof.Machine.execRedXor u a c r w s
  | .cpIn u d a n c => Sys2Proof.Machine.execCpIn u d a n c s
  | .cpOut u d a n c => Sys2Proof.Machine.execCpOut u d a n c s
  | .cpSs u d a n c => Sys2Proof.Machine.execCpSs u d a n c s
  | .rsub u d a n c => Sys2Proof.Machine.execRsub u d a n c s
  | .srel u d a c => Sys2Proof.Machine.execSrel u d a c s
  | .fpush u v a c => Sys2Proof.Machine.execFpush u v a c s
  | .fpushq u q a c r => Sys2Proof.Machine.execFpushq u q a c r s
  | .stq u q a c r => Sys2Proof.Machine.execStq u q a c r s
  | .interlockedLdSLanding c k => Sys2Proof.Machine.execInterlockedLdSLanding c k s
  | .tileMoveCompletion c k => Sys2Proof.Machine.execTileMoveCompletion c k s
  | .deviceReset => Sys2Proof.Machine.execDeviceReset s
  | .digestArrival => Sys2Proof.Machine.execDigestArrival s
  | .digtimeExpiry => Sys2Proof.Machine.execDigtimeExpiry s
  | .railFence => Sys2Proof.Machine.execRailFence s
  | .railRetrain => Sys2Proof.Machine.execRailRetrain s
  | .linkDown => Sys2Proof.Machine.execLinkDown s
  | .beadPortBead => Sys2Proof.Machine.execBeadPortBead s
  | .beadPortLaunch => Sys2Proof.Machine.execBeadPortLaunch s
  | .apertureWrite => Sys2Proof.Machine.execApertureWrite s
  | .apertureRead => Sys2Proof.Machine.execApertureRead s
  | .unmatchedBarAccess => Sys2Proof.Machine.execUnmatchedBarAccess s
  | .gabort => Sys2Proof.Machine.execGabort s
  | .flhead => Sys2Proof.Machine.execFlhead s
  | .managementRegisterWrite => Sys2Proof.Machine.execManagementRegisterWrite s
  | .openSpace => Sys2Proof.Machine.execOpenSpace s
  | .closeSpace => Sys2Proof.Machine.execCloseSpace s
  | .mapPage => Sys2Proof.Machine.execMapPage s
  | .unmapPages => Sys2Proof.Machine.execUnmapPages s
  | .bindWindow => Sys2Proof.Machine.execBindWindow s
  | .setPool => Sys2Proof.Machine.execSetPool s
  | .replica => Sys2Proof.Machine.execReplica s
  | .attest => Sys2Proof.Machine.execAttest s
  | .loadImage => Sys2Proof.Machine.execLoadImage s
  | .assign => Sys2Proof.Machine.execAssign s
  | .slabwr => Sys2Proof.Machine.execSlabwr s
  | .invalidationComplete => Sys2Proof.Machine.execInvalidationComplete s
  | .mailboxRequestComplete => Sys2Proof.Machine.execMailboxRequestComplete s
  | .unknownCmd => Sys2Proof.Machine.execUnknownCmd s
  | .ctrlWriteWhileGo => Sys2Proof.Machine.execCtrlWriteWhileGo s

end Sys2Proof.Machine
end

