-- ==== Sys2Proof/Machine/Schedule.lean ====
section
/-! DEFINITION. DESIGN CHOICE (log 2): which event comes next where the agenda names none. Every order of events that
the spec allows is an agenda; this is one of them: what can happen at once happens before the next cycle of a core, and
the cores have their cycles in turn. And where a test places an instruction so that the next step runs it (log 8). -/

namespace Sys2Proof.Machine

/-! ### The outside -/

/-- The event of the access at the head of `bus`. -/
def State.busEvent (s : State) : Option Instr :=
  match s.bus.head? with
  | none => none
  | some a =>
    if s.unmatched a then some .unmatchedBarAccess
    else match a.bar with
      | .bead => some (if a.launches then .beadPortLaunch else .beadPortBead)
      | .record => some (if a.write then .apertureWrite else .apertureRead)
      | .mgmt => some (match s.ownRow a with
        | some .gabort => .gabort
        | some .flhead => .flhead
        | some .ctrlWhileGo => .ctrlWriteWhileGo
        | none => .managementRegisterWrite)

/-- The event of a request. -/
def commandEvent (cmd : BitVec 8) : Instr :=
  match cmd.toNat with
  | 0x01 => .openSpace
  | 0x02 => .closeSpace
  | 0x03 => .mapPage
  | 0x04 => .unmapPages
  | 0x05 => .bindWindow
  | 0x06 => .setPool
  | 0x07 => .replica
  | 0x08 => .attest
  | 0x09 => .loadImage
  | 0x0A => .assign
  | 0x0B => .slabwr
  | _ => .unknownCmd

def State.mboxEvent (s : State) : Option Instr :=
  match s.mbox.phase with
  | .idle => none
  | .submitted => some (commandEvent s.mbox.cmd)
  | .invalidating _ => if s.invals = [] then none else some .invalidationComplete
  | .answered _ _ => some .mailboxRequestComplete

/-! ### Cores -/

/-- The contexts of the cores that are listed. -/
def State.ctxs (s : State) : List CtxId := s.cores.flatMap (fun p => [⟨p.1, false⟩, ⟨p.1, true⟩])

/-- The event of an operation of a context, when it can happen. -/
def State.opEvent (s : State) (c : CtxId) (k : Nat) (o : MemOp) : Option Instr :=
  if o.isTile then
    if !((s.ctx c).ops.take k).any MemOp.isTile && (o.performed || s.mayPerform c o) then some (.tileMoveCompletion c k) else none
  else if o.performed then
    match o.act with
    | .rmw _ _ _ (some _) => some (.amoResponse c k)
    | .load (.sreg _) => some (.interlockedLdSLanding c k)
    | .load (.landing l) => some (.landingArrival c l)
    | _ => some (.postedAcknowledge c k)
  else if !s.mayPerform c o then none
  else if s.failsPosted c o then some (.postedOperationFailure c k)
  else if o.isRmw then some (.atomicAtHome c k)
  else some (.memoryAccessPerform c k .none)

/-- The event of a ring, whose slots have numbers from `base` on. -/
def State.ringEvent (s : State) (c : CtxId) (id : BitVec 4) (base : Nat) (q : CopyCmd) (r : Ring) : Option Instr :=
  (List.range r.slots).findSome? (fun m =>
    match s.ringStep c.core r m with
    | none => none
    | some st =>
      if (s.stepFails c.core r (Descr.of q.d) m st).isSome then some (.ringStop c id (base + m))
      else match st with
        | .pull _ => some (.ringPullBack c id (base + m))
        | _ => some (.ringSlotFill c id (base + m)))

/-- The event of the n-th ring that stopped slices have left. -/
def State.orphanEvent (s : State) (c : CtxId) (n : Nat) (q : CopyCmd) : Option Instr :=
  match q.kind with
  | .ring r => s.ringEvent c 0 (16 * (n + 1)) q r
  | _ => none

/-- The event of a copy id. -/
def State.copyEvent (s : State) (c : CtxId) (i : Nat) (x : CopyState) : Option Instr :=
  let id := BitVec.ofNat 4 i
  match x with
  | .running q =>
    (match q.kind with
     | .ring r => if s.ringDone c.core r then some (.copyCompletion c id) else s.ringEvent c id 0 q r
     | _ => some (if s.copyStops c.core q then .copyTranslationStop c id else .copyCompletion c id))
  | _ => none

/-- The first event of two, the second looked for only where the first is none. -/
def otherwise (a : Option Instr) (b : Unit → Option Instr) : Option Instr :=
  match a with
  | some i => some i
  | none => b ()

/-- The event of a context. -/
def State.ctxEvent (s : State) (c : CtxId) : Option Instr :=
  let k := s.ctx c
  if k.ops == [] && k.late == [] && k.copies == [] && k.orphans == [] && k.slice.isNone then none
  else
    otherwise ((k.ops.mapIdx (fun i o => (i, o))).findSome? (fun p => s.opEvent c p.1 p.2)) fun _ =>
    otherwise (k.copies.findSome? (fun p => s.copyEvent c p.1 p.2)) fun _ =>
    otherwise ((k.orphans.mapIdx (fun n q => (n, q))).findSome? (fun p => s.orphanEvent c p.1 p.2)) fun _ =>
    otherwise (if k.edge.isSome then some (.loopBackEdge c) else none) fun _ =>
    otherwise (if k.known.all k.waits then none else some (.lateFaultDetection c)) fun _ =>
    otherwise (if k.entering.isSome && !k.interlocked then some (.trapEntry c) else none) fun _ =>
    otherwise (if k.killNow (s.core c.core).cycle false || (k.request == .stopped && s.settled c) then some (.killSlice c) else none) fun _ =>
    otherwise (if k.killNow (s.core c.core).cycle true then some (.killDeadline c) else none) fun _ =>
    otherwise (if k.request == .saving && s.settled c && k.dataHere && k.late == [] then some (.imageSave c) else none) fun _ =>
    (if ((s.dropNext c).ctx c).seq ≠ k.seq then some (.lookAheadNullifier c) else none)

/-- The event of a core: an array operation takes the time in which its context issues, up to 8 bundles or 64 cycles.
DESIGN CHOICE (log 2). -/
def State.coreEvent (s : State) (n : Nat) : Option Instr :=
  match (s.core n).aq with
  | [] => none
  | a :: _ =>
    let k := s.ctx ⟨n, a.one⟩
    let issuing := k.lastIssue == some (s.core n).cycle && decide (k.seq < a.seq + 8)
    if issuing && (s.core n).cycle % 64 != 0 then none else some (.arrayOperationCompletion n .none)

/-! ### Keystone -/

/-- The event of a message to Keystone. -/
def State.msgEvent (s : State) (k : Nat) (m : KsMsg) : Option Instr :=
  if !s.mayTake k m then none
  else match m with
    | .bead _ _ _ _ => some (.beadArrival k)
    | .launch _ _ _ => some (.graphLaunch k)
    | .fault _ _ _ _ _ _ => some (.cancellationC1 k)

/-- The event of a node. -/
def State.nodeEvent (s : State) (gi ni : Nat) (n : Node) : Option Instr :=
  if n.state ≠ .running then none
  else if n.unretired = 0 then (if s.boundaryWaits gi ni then none else some (.nodeCompletion gi ni))
  else if n.killing && !s.anyRuns gi ni && !s.faultQueued gi ni n.attempt then some (.preemptKillRequeue gi ni)
  else none

/-- The event of a core's deque. -/
def State.startEvent (s : State) (n : Nat) : Option Instr :=
  if s.waiting n = [] then none
  else if !s.awake n then none
  else if (s.freeOn n).isSome then some (.sliceStart n)
  else if (s.contest n).isSome then some (.preemptionDecision n)
  else none

def State.keystoneEvent (s : State) : Option Instr :=
  otherwise (if s.inC1.isSome then some (.cancellationC1 0) else none) fun _ =>
  otherwise (s.courses.findSome? (fun p => if p.2.ready ≠ [] && (s.nextDispatch p.1).isSome then some (.dispatch p.1) else none)) fun _ =>
  otherwise ((s.ksq.mapIdx (fun k m => (k, m))).findSome? (fun p => s.msgEvent p.1 p.2)) fun _ =>
  otherwise ((s.cancels.mapIdx (fun k x => (k, x))).findSome? (fun p => if s.allStopped p.2 then some (.cancellationC2 p.1) else none)) fun _ =>
  otherwise (s.graphs.findSome? (fun g => g.2.nodes.findSome? (fun n => s.nodeEvent g.1 n.1 n.2))) fun _ =>
  otherwise (s.courses.findSome? (fun p => if p.2.waking then some (.wakeComplete p.1) else none)) fun _ =>
  otherwise (s.cores.findSome? (fun p => s.startEvent p.1)) fun _ =>
  otherwise (if s.graphs.any (fun g => g.2.status == .running) then
    s.cores.findSome? (fun p =>
      if s.awake p.1 && !(s.course (courseOf p.1)).plumb && s.idleCore p.1 && (s.robbery p.1).isSome then
        some (.workStealing p.1) else none) else none) fun _ =>
  (if s.digests.any s.mayHear || s.reloadDue.isSome then some .digestArrival else none)

/-! ### The next event -/

/-- The cores with an occupied context have their cycles in turn. -/
def State.nextCore (s : State) : Nat :=
  let busy := (s.cores.filter (fun p => p.2.ctx0.slice.isSome || p.2.ctx1.slice.isSome)).map Prod.fst
  ((busy.find? (fun n => decide (s.cur.core < n))) <|> busy.head?).getD 0

/-- The event that comes next. DESIGN CHOICE (log 2). -/
def State.defaultEvent (s : State) : Instr :=
  match s.boot with
  | .booting => .deviceReset
  | _ =>
    (otherwise (s.ctxs.findSome? s.ctxEvent) fun _ =>
      otherwise (s.cores.findSome? (fun p => s.coreEvent p.1)) fun _ =>
      otherwise s.keystoneEvent fun _ => otherwise s.mboxEvent fun _ => s.busEvent).getD (.bundleIssue s.nextCore)

/-! ### Placing an instruction (log 8) -/

/-- The words of a bundle that holds one instruction: the empty bundle, a prefix, or a slot word.
DESIGN CHOICE (log 8). -/
def bundleWords (w : Word) (i : Instr) : List Word :=
  match i with
  | .nop _ => [w]
  | .rep _ _ _ => [0x00010100, w]
  | i => [0x00010000 ||| (1#32 <<< (classOf i).slot), w]

/-- The words of an instruction as the table numbers them; a word that no class reads stands in slot S.
DESIGN CHOICE (log 6). DESIGN CHOICE (log 8). -/
def placedWords (nbits w : Nat) : List Word :=
  let x : Word := BitVec.ofNat 32 (w % 2 ^ nbits)
  match decodeTableWord nbits w with
  | some i => bundleWords x i
  | none => [0x00010002, x]

/-- Core 0 serves space 1, whose page at address 0 maps the first 64 KiB of HBM for instruction fetch; ctx0 runs a slice
at address 0, and is alone on its core. DESIGN CHOICE (log 8). -/
def State.placeFetch (s : State) (ws : List Word) : State :=
  let s := { s with boot := .running, tlb := s.tlb.filter (fun e => e.space != 1) }
  let s := s.openAs 1
  let root := match s.spaces.find 1 with | some sp => sp.root | none => 0
  let s := s.putLeaf 0 0x10000 0x13 levels root
  let s := (ws.mapIdx (fun i w => (i, w))).foldl (fun s p => s.writeNat (hbmKey (4 * p.1)) 4 p.2.toNat) s
  s.updCore 0 (fun k => { k with
    tag := some 1
    frozen := none
    ctx0 := { k.ctx0 with
      slice := some ⟨0, 0, 0, 0, 0, 1, 0, .prologue, false⟩
      request := .none
      pc := 0
      npc := 0
      held := []
      repcnt := 0
      loop := LoopSt.none
      edge := none
      entering := none
      stallUntil := 0 }
    ctx1 := { k.ctx1 with slice := none } })

end Sys2Proof.Machine
end

