-- ==== Sys2Proof/Machine/Step.lean ====
section
/-! DEFINITION. The step: the next event of the agenda, or the one that comes next on its own, happens. -/

namespace Sys2Proof.Machine

/-- One step of the machine (log 1): every step is the execution of one row of the table. -/
def step (s : State) : Host.Outcome State Fault Refusal :=
  match s.agenda with
  | [] => exec s.defaultEvent { s with tick := s.tick + 1, log := [] }
  | e :: es => exec e { s with tick := s.tick + 1, log := [], agenda := es }

/-- The machine with an instruction where the next step fetches (log 8): that step is a cycle of core 0. -/
def State.withFetchWord (s : State) (nbits w : Nat) : State :=
  { s.placeFetch (placedWords nbits w) with agenda := [.bundleIssue 0] }

end Sys2Proof.Machine
end

