-- ==== Sys2Proof/Laws/Bits.lean ====
section
/-! SUPPORT. The fields of a word that is written as a row of fields, and when the decoder accepts a word. -/

namespace Sys2Proof

theorem exLow {m n : Nat} (x : BitVec m) (y : BitVec n) (lo len : Nat) (h : lo + len ≤ n) : BitVec.extractLsb' lo len (x ++ y) = y.extractLsb' lo len := by
  ext i hi; simp [BitVec.getLsbD_append]; omega
theorem exHigh {m n : Nat} (x : BitVec m) (y : BitVec n) (lo len : Nat) (h : n ≤ lo) : BitVec.extractLsb' lo len (x ++ y) = x.extractLsb' (lo-n) len := by
  ext i hi; simp only [BitVec.getElem_extractLsb', BitVec.getLsbD_append]
  rw [if_neg (by omega)]; congr 1; omega
theorem bitLow {m n : Nat} (x : BitVec m) (y : BitVec n) (k : Nat) (h : k < n) : (x ++ y).getLsbD k = y.getLsbD k := by
  simp [BitVec.getLsbD_append, h]
theorem bitHigh {m n : Nat} (x : BitVec m) (y : BitVec n) (k : Nat) (h : n ≤ k) : (x ++ y).getLsbD k = x.getLsbD (k-n) := by
  simp only [BitVec.getLsbD_append]
  rw [if_neg (by omega)]
theorem andApp {m n : Nat} (x : BitVec m) (y : BitVec n) (k : Nat) :
    (x ++ y).toNat &&& k = (x.toNat &&& k / 2 ^ n) * 2 ^ n + (y.toNat &&& k % 2 ^ n) := by
  have h : (y.toNat &&& k % 2 ^ n) < 2 ^ n := Nat.lt_of_le_of_lt Nat.and_le_left y.isLt
  rw [Nat.mul_comm, Nat.two_pow_add_eq_or_of_lt h, BitVec.toNat_append, Nat.shiftLeft_eq]
  apply Nat.eq_of_testBit_eq
  intro i
  simp only [Nat.testBit_and, Nat.testBit_or, Nat.testBit_two_pow_mul, Nat.testBit_mul_two_pow, Nat.testBit_div_two_pow, Nat.testBit_mod_two_pow]
  by_cases hi : i < n
  · simp [hi, Nat.not_le.mpr hi]
  · have hy : y.toNat.testBit i = false := Nat.testBit_lt_two_pow (Nat.lt_of_lt_of_le y.isLt (Nat.pow_le_pow_right (by decide) (by omega)))
    simp [hi, hy, Bool.and_assoc, Nat.sub_add_cancel (Nat.le_of_not_lt hi)]
theorem exAll {n : Nat} (x : BitVec n) : BitVec.extractLsb' 0 n x = x := by simp
theorem bitOf (b : Bool) : (BitVec.ofBool b).getLsbD 0 = b := by cases b <;> rfl
/-- A number in a row of two fields. -/
theorem appNat {m n k : Nat} (x : BitVec m) (y : BitVec n) (w : BitVec k) (hw : w.toNat = (x ++ y).toNat) :
    w.toNat = x.toNat * 2 ^ n + y.toNat := by
  rw [hw, BitVec.toNat_append, Nat.shiftLeft_eq, Nat.mul_comm, Nat.two_pow_add_eq_or_of_lt y.isLt, Nat.mul_comm]

/-- OPC of a word of format VM: bit 20 is the lowest bit of OPC. -/
theorem opcOf_wide (p : BitVec 6) (k : BitVec 5) (m : Bool) (d : BitVec 5) (i : BitVec 15) :
    opcOf (p ++ k ++ BitVec.ofBool m ++ d ++ i) = 2 * k.toNat + m.toNat := by
  have h := appNat (p ++ k ++ BitVec.ofBool m ++ d) i (p ++ k ++ BitVec.ofBool m ++ d ++ i : Word) rfl
  rw [appNat (p ++ k ++ BitVec.ofBool m) d _ rfl, appNat (p ++ k) (BitVec.ofBool m) _ rfl, appNat p k _ rfl] at h
  have hb : (BitVec.ofBool m).toNat = m.toNat := by cases m <;> rfl
  rw [hb] at h
  have hm : m.toNat < 2 := by cases m <;> decide
  rw [opcOf, BitVec.extractLsb'_toNat, Nat.shiftRight_eq_div_pow, h]
  omega

/-- A word is its instruction when its opcode has the row and its fixed bits stand. -/
theorem decodeWord_ok {cl : SlotClass} {w : Word} {i : Instr} (k m f : Nat) (hb : fixedBits cl k = (m, f))
    (ho : opcOf w = k) (hr : rowOf cl k w = some i) (hf : w.toNat &&& m = f) : decodeWord cl w = .ok i := by
  subst ho
  simp only [decodeWord, hr, hb, hf, if_true]

end Sys2Proof
end

