-- ==== Sys2Proof/Laws/PerInstr.lean ====
section
/-! SUPPORT. The family Encoding: what the encoder writes, the decoder reads back, said and proved per instruction. -/

namespace Sys2Proof.Laws

set_option linter.unusedSimpArgs false

/-- The words of an instruction are read back as it: a slot word in its class (R80), the header of the empty bundle for
NOP (R46), the prefix word for REP (R69). A row without an encoding has no words. -/
def Encoding.Statement (i : Instr) : Prop :=
  match i.slotClass, encode i with
  | some cl, [w] => decodeWord cl w = .ok i
  | some _, _ => False
  | none, [w] => (match i with
    | .nop ib => decodeHeader w = some ⟨ib, false, 0⟩
    | i => decodePrefix w = some i)
  | none, ws => ws = []

theorem Encoding.bundleIssue (core : Nat) : Encoding.Statement (.bundleIssue core) := rfl
theorem Encoding.lookAheadNullifier (c : CtxId) : Encoding.Statement (.lookAheadNullifier c) := rfl
theorem Encoding.resultLanding (c : CtxId) (k : Nat) : Encoding.Statement (.resultLanding c k) := rfl
theorem Encoding.loopBackEdge (c : CtxId) : Encoding.Statement (.loopBackEdge c) := rfl
theorem Encoding.landingDue (c : CtxId) (l : BitVec 3) : Encoding.Statement (.landingDue c l) := rfl
theorem Encoding.landingArrival (c : CtxId) (l : BitVec 3) : Encoding.Statement (.landingArrival c l) := rfl
theorem Encoding.memoryAccessPerform (c : CtxId) (k : Nat) (err : ReadError) : Encoding.Statement (.memoryAccessPerform c k err) := rfl
theorem Encoding.atomicAtHome (c : CtxId) (k : Nat) : Encoding.Statement (.atomicAtHome c k) := rfl
theorem Encoding.amoResponse (c : CtxId) (k : Nat) : Encoding.Statement (.amoResponse c k) := rfl
theorem Encoding.postedAcknowledge (c : CtxId) (k : Nat) : Encoding.Statement (.postedAcknowledge c k) := rfl
theorem Encoding.copyCompletion (c : CtxId) (i : BitVec 4) : Encoding.Statement (.copyCompletion c i) := rfl
theorem Encoding.copyTranslationStop (c : CtxId) (i : BitVec 4) : Encoding.Statement (.copyTranslationStop c i) := rfl
theorem Encoding.postedOperationFailure (c : CtxId) (k : Nat) : Encoding.Statement (.postedOperationFailure c k) := rfl
theorem Encoding.tableWalk (space : Nat) (va : BitVec 64) (acc : AccessKind) : Encoding.Statement (.tableWalk space va acc) := rfl
theorem Encoding.arrayOperationCompletion (core : Nat) (err : ReadError) : Encoding.Statement (.arrayOperationCompletion core err) := rfl
theorem Encoding.drainEntryWrite (core : Nat) : Encoding.Statement (.drainEntryWrite core) := rfl
theorem Encoding.ringSlotFill (c : CtxId) (i : BitVec 4) (m : Nat) : Encoding.Statement (.ringSlotFill c i m) := rfl
theorem Encoding.ringPullBack (c : CtxId) (i : BitVec 4) (m : Nat) : Encoding.Statement (.ringPullBack c i m) := rfl
theorem Encoding.ringStop (c : CtxId) (i : BitVec 4) (m : Nat) : Encoding.Statement (.ringStop c i m) := rfl
theorem Encoding.lateFaultDetection (c : CtxId) : Encoding.Statement (.lateFaultDetection c) := rfl
theorem Encoding.trapEntry (c : CtxId) : Encoding.Statement (.trapEntry c) := rfl
theorem Encoding.graphLaunch (k : Nat) : Encoding.Statement (.graphLaunch k) := rfl
theorem Encoding.beadArrival (k : Nat) : Encoding.Statement (.beadArrival k) := rfl
theorem Encoding.dispatch (course : Nat) : Encoding.Statement (.dispatch course) := rfl
theorem Encoding.sliceStart (core : Nat) : Encoding.Statement (.sliceStart core) := rfl
theorem Encoding.workStealing (core : Nat) : Encoding.Statement (.workStealing core) := rfl
theorem Encoding.nodeCompletion (graph node : Nat) : Encoding.Statement (.nodeCompletion graph node) := rfl
theorem Encoding.cancellationC1 (k : Nat) : Encoding.Statement (.cancellationC1 k) := rfl
theorem Encoding.cancellationC2 (k : Nat) : Encoding.Statement (.cancellationC2 k) := rfl
theorem Encoding.preemptionDecision (core : Nat) : Encoding.Statement (.preemptionDecision core) := rfl
theorem Encoding.imageSave (c : CtxId) : Encoding.Statement (.imageSave c) := rfl
theorem Encoding.killSlice (c : CtxId) : Encoding.Statement (.killSlice c) := rfl
theorem Encoding.killDeadline (c : CtxId) : Encoding.Statement (.killDeadline c) := rfl
theorem Encoding.preemptKillRequeue (graph node : Nat) : Encoding.Statement (.preemptKillRequeue graph node) := rfl
theorem Encoding.courseGating (course : Nat) : Encoding.Statement (.courseGating course) := rfl
theorem Encoding.wakeComplete (course : Nat) : Encoding.Statement (.wakeComplete course) := rfl
theorem Encoding.operatingPointChange (course mhz mv : Nat) : Encoding.Statement (.operatingPointChange course mhz mv) := rfl
theorem Encoding.powerEmergency (course mhz mv : Nat) : Encoding.Statement (.powerEmergency course mhz mv) := rfl
theorem Encoding.deviceReset : Encoding.Statement (.deviceReset) := rfl
theorem Encoding.pairMismatch (core : Nat) (pc : BitVec 64) : Encoding.Statement (.pairMismatch core pc) := rfl
theorem Encoding.digestArrival : Encoding.Statement (.digestArrival) := rfl
theorem Encoding.digtimeExpiry : Encoding.Statement (.digtimeExpiry) := rfl
theorem Encoding.railBeatReceive (link : Nat) (erased : BitVec 5) : Encoding.Statement (.railBeatReceive link erased) := rfl
theorem Encoding.railFence : Encoding.Statement (.railFence) := rfl
theorem Encoding.railRetrain : Encoding.Statement (.railRetrain) := rfl
theorem Encoding.linkDown : Encoding.Statement (.linkDown) := rfl
theorem Encoding.beadPortBead : Encoding.Statement (.beadPortBead) := rfl
theorem Encoding.beadPortLaunch : Encoding.Statement (.beadPortLaunch) := rfl
theorem Encoding.apertureWrite : Encoding.Statement (.apertureWrite) := rfl
theorem Encoding.apertureRead : Encoding.Statement (.apertureRead) := rfl
theorem Encoding.unmatchedBarAccess : Encoding.Statement (.unmatchedBarAccess) := rfl
theorem Encoding.gabort : Encoding.Statement (.gabort) := rfl
theorem Encoding.flhead : Encoding.Statement (.flhead) := rfl
theorem Encoding.managementRegisterWrite : Encoding.Statement (.managementRegisterWrite) := rfl
theorem Encoding.openSpace : Encoding.Statement (.openSpace) := rfl
theorem Encoding.closeSpace : Encoding.Statement (.closeSpace) := rfl
theorem Encoding.mapPage : Encoding.Statement (.mapPage) := rfl
theorem Encoding.unmapPages : Encoding.Statement (.unmapPages) := rfl
theorem Encoding.bindWindow : Encoding.Statement (.bindWindow) := rfl
theorem Encoding.setPool : Encoding.Statement (.setPool) := rfl
theorem Encoding.replica : Encoding.Statement (.replica) := rfl
theorem Encoding.attest : Encoding.Statement (.attest) := rfl
theorem Encoding.loadImage : Encoding.Statement (.loadImage) := rfl
theorem Encoding.assign : Encoding.Statement (.assign) := rfl
theorem Encoding.slabwr : Encoding.Statement (.slabwr) := rfl
theorem Encoding.invalidationComplete : Encoding.Statement (.invalidationComplete) := rfl
theorem Encoding.mailboxRequestComplete : Encoding.Statement (.mailboxRequestComplete) := rfl
theorem Encoding.wrcSeed (c : CtxId) : Encoding.Statement (.wrcSeed c) := rfl
theorem Encoding.wrcFpctl (c : CtxId) : Encoding.Statement (.wrcFpctl c) := rfl
theorem Encoding.wrcKsw (c : CtxId) (n : BitVec 3) : Encoding.Statement (.wrcKsw c n) := rfl
theorem Encoding.nop (ib : Bool) : Encoding.Statement (.nop ib) := by cases ib <;> rfl
theorem Encoding.rep (adv stride : BitVec 4) (count : BitVec 16) : Encoding.Statement (.rep adv stride count) := by
  show decodePrefix (0#8 ++ adv ++ stride ++ count) = _
  simp (disch := decide) only [decodePrefix, exHigh, exLow, exAll, Nat.reduceSub]
  rfl
theorem Encoding.br (u : Grd) (o : BitVec 20) : Encoding.Statement (.br u o) :=
  decodeWord_ok 0 2147483648 0 rfl (by simp (disch := decide) only [opcOf, exHigh, exLow, Nat.reduceSub]; rfl)
    (congrArg some (by
      simp (disch := decide) only [grdOf, Grd.bits, exHigh, exLow, exAll, bitHigh, bitLow, bitOf, Nat.reduceSub]))
    (by
      simp only [Grd.bits, andApp, Nat.reduceDiv, Nat.reduceMod, Nat.reducePow, Nat.and_zero]; rfl)
theorem Encoding.jmp (u : Grd) (s : BitVec 6) : Encoding.Statement (.jmp u s) :=
  decodeWord_ok 1 2147500031 0 rfl (by simp (disch := decide) only [opcOf, exHigh, exLow, Nat.reduceSub]; rfl)
    (congrArg some (by
      simp (disch := decide) only [grdOf, Grd.bits, exHigh, exLow, exAll, bitHigh, bitLow, bitOf, Nat.reduceSub]))
    (by
      simp only [Grd.bits, andApp, Nat.reduceDiv, Nat.reduceMod, Nat.reducePow, Nat.and_zero]; rfl)
theorem Encoding.call (u : Grd) (o : BitVec 20) : Encoding.Statement (.call u o) :=
  decodeWord_ok 2 2147483648 0 rfl (by simp (disch := decide) only [opcOf, exHigh, exLow, Nat.reduceSub]; rfl)
    (congrArg some (by
      simp (disch := decide) only [grdOf, Grd.bits, exHigh, exLow, exAll, bitHigh, bitLow, bitOf, Nat.reduceSub]))
    (by
      simp only [Grd.bits, andApp, Nat.reduceDiv, Nat.reduceMod, Nat.reducePow, Nat.and_zero]; rfl)
theorem Encoding.ret (u : Grd) : Encoding.Statement (.ret u) :=
  decodeWord_ok 3 2148532223 0 rfl (by simp (disch := decide) only [opcOf, exHigh, exLow, Nat.reduceSub]; rfl)
    (congrArg some (by
      simp (disch := decide) only [grdOf, Grd.bits, exHigh, exLow, exAll, bitHigh, bitLow, bitOf, Nat.reduceSub]))
    (by
      simp only [Grd.bits, andApp, Nat.reduceDiv, Nat.reduceMod, Nat.reducePow, Nat.and_zero]; rfl)
theorem Encoding.loop (u : Grd) (l : BitVec 5) (d : BitVec 3) (s : BitVec 6) : Encoding.Statement (.loop u l d s) :=
  decodeWord_ok 4 2147483711 0 rfl (by simp (disch := decide) only [opcOf, exHigh, exLow, Nat.reduceSub]; rfl)
    (congrArg some (by
      simp (disch := decide) only [grdOf, Grd.bits, exHigh, exLow, exAll, bitHigh, bitLow, bitOf, Nat.reduceSub]))
    (by
      simp only [Grd.bits, andApp, Nat.reduceDiv, Nat.reduceMod, Nat.reducePow, Nat.and_zero]; rfl)
theorem Encoding.wait (u : Grd) (k : BitVec 2) (m : BitVec 16) : Encoding.Statement (.wait u k m) :=
  decodeWord_ok 5 2147680256 0 rfl (by simp (disch := decide) only [opcOf, exHigh, exLow, Nat.reduceSub]; rfl)
    (congrArg some (by
      simp (disch := decide) only [grdOf, Grd.bits, exHigh, exLow, exAll, bitHigh, bitLow, bitOf, Nat.reduceSub]))
    (by
      simp only [Grd.bits, andApp, Nat.reduceDiv, Nat.reduceMod, Nat.reducePow, Nat.and_zero]; rfl)
theorem Encoding.bar (u : Grd) (b : BitVec 4) (m : BitVec 8) : Encoding.Statement (.bar u b m) :=
  decodeWord_ok 6 2147548928 0 rfl (by simp (disch := decide) only [opcOf, exHigh, exLow, Nat.reduceSub]; rfl)
    (congrArg some (by
      simp (disch := decide) only [grdOf, Grd.bits, exHigh, exLow, exAll, bitHigh, bitLow, bitOf, Nat.reduceSub]))
    (by
      simp only [Grd.bits, andApp, Nat.reduceDiv, Nat.reduceMod, Nat.reducePow, Nat.and_zero]; rfl)
theorem Encoding.fence (u : Grd) (s : BitVec 3) (m : BitVec 16) : Encoding.Statement (.fence u s m) :=
  decodeWord_ok 7 2148007936 0 rfl (by simp (disch := decide) only [opcOf, exHigh, exLow, Nat.reduceSub]; rfl)
    (congrArg some (by
      simp (disch := decide) only [grdOf, Grd.bits, exHigh, exLow, exAll, bitHigh, bitLow, bitOf, Nat.reduceSub]))
    (by
      simp only [Grd.bits, andApp, Nat.reduceDiv, Nat.reduceMod, Nat.reducePow, Nat.and_zero]; rfl)
theorem Encoding.trap (u : Grd) (c : BitVec 16) : Encoding.Statement (.trap u c) :=
  decodeWord_ok 8 2148466688 0 rfl (by simp (disch := decide) only [opcOf, exHigh, exLow, Nat.reduceSub]; rfl)
    (congrArg some (by
      simp (disch := decide) only [grdOf, Grd.bits, exHigh, exLow, exAll, bitHigh, bitLow, bitOf, Nat.reduceSub]))
    (by
      simp only [Grd.bits, andApp, Nat.reduceDiv, Nat.reduceMod, Nat.reducePow, Nat.and_zero]; rfl)
theorem Encoding.eret (u : Grd) : Encoding.Statement (.eret u) :=
  decodeWord_ok 9 2148532223 0 rfl (by simp (disch := decide) only [opcOf, exHigh, exLow, Nat.reduceSub]; rfl)
    (congrArg some (by
      simp (disch := decide) only [grdOf, Grd.bits, exHigh, exLow, exAll, bitHigh, bitLow, bitOf, Nat.reduceSub]))
    (by
      simp only [Grd.bits, andApp, Nat.reduceDiv, Nat.reduceMod, Nat.reducePow, Nat.and_zero]; rfl)
theorem Encoding.setpri (u : Grd) (c : BitVec 2) : Encoding.Statement (.setpri u c) :=
  decodeWord_ok 10 2148532220 0 rfl (by simp (disch := decide) only [opcOf, exHigh, exLow, Nat.reduceSub]; rfl)
    (congrArg some (by
      simp (disch := decide) only [grdOf, Grd.bits, exHigh, exLow, exAll, bitHigh, bitLow, bitOf, Nat.reduceSub]))
    (by
      simp only [Grd.bits, andApp, Nat.reduceDiv, Nat.reduceMod, Nat.reducePow, Nat.and_zero]; rfl)
theorem Encoding.ctnOpen (u : Grd) (o : BitVec 20) : Encoding.Statement (.ctnOpen u o) :=
  decodeWord_ok 11 2147483648 0 rfl (by simp (disch := decide) only [opcOf, exHigh, exLow, Nat.reduceSub]; rfl)
    (congrArg some (by
      simp (disch := decide) only [grdOf, Grd.bits, exHigh, exLow, exAll, bitHigh, bitLow, bitOf, Nat.reduceSub]))
    (by
      simp only [Grd.bits, andApp, Nat.reduceDiv, Nat.reduceMod, Nat.reducePow, Nat.and_zero]; rfl)
theorem Encoding.ctnClose (u : Grd) : Encoding.Statement (.ctnClose u) :=
  decodeWord_ok 12 2148532223 0 rfl (by simp (disch := decide) only [opcOf, exHigh, exLow, Nat.reduceSub]; rfl)
    (congrArg some (by
      simp (disch := decide) only [grdOf, Grd.bits, exHigh, exLow, exAll, bitHigh, bitLow, bitOf, Nat.reduceSub]))
    (by
      simp only [Grd.bits, andApp, Nat.reduceDiv, Nat.reduceMod, Nat.reducePow, Nat.and_zero]; rfl)
theorem Encoding.glaunch (u : Grd) (s : BitVec 6) : Encoding.Statement (.glaunch u s) :=
  decodeWord_ok 13 2147500031 0 rfl (by simp (disch := decide) only [opcOf, exHigh, exLow, Nat.reduceSub]; rfl)
    (congrArg some (by
      simp (disch := decide) only [grdOf, Grd.bits, exHigh, exLow, exAll, bitHigh, bitLow, bitOf, Nat.reduceSub]))
    (by
      simp only [Grd.bits, andApp, Nat.reduceDiv, Nat.reduceMod, Nat.reducePow, Nat.and_zero]; rfl)
theorem Encoding.bead (u : Grd) (s t : BitVec 6) : Encoding.Statement (.bead u s t) :=
  decodeWord_ok 14 2147483903 0 rfl (by simp (disch := decide) only [opcOf, exHigh, exLow, Nat.reduceSub]; rfl)
    (congrArg some (by
      simp (disch := decide) only [grdOf, Grd.bits, exHigh, exLow, exAll, bitHigh, bitLow, bitOf, Nat.reduceSub]))
    (by
      simp only [Grd.bits, andApp, Nat.reduceDiv, Nat.reduceMod, Nat.reducePow, Nat.and_zero]; rfl)
theorem Encoding.ndone (u : Grd) : Encoding.Statement (.ndone u) :=
  decodeWord_ok 15 2148532223 0 rfl (by simp (disch := decide) only [opcOf, exHigh, exLow, Nat.reduceSub]; rfl)
    (congrArg some (by
      simp (disch := decide) only [grdOf, Grd.bits, exHigh, exLow, exAll, bitHigh, bitLow, bitOf, Nat.reduceSub]))
    (by
      simp only [Grd.bits, andApp, Nat.reduceDiv, Nat.reduceMod, Nat.reducePow, Nat.and_zero]; rfl)
theorem Encoding.yield (u : Grd) : Encoding.Statement (.yield u) :=
  decodeWord_ok 16 2148532223 0 rfl (by simp (disch := decide) only [opcOf, exHigh, exLow, Nat.reduceSub]; rfl)
    (congrArg some (by
      simp (disch := decide) only [grdOf, Grd.bits, exHigh, exLow, exAll, bitHigh, bitLow, bitOf, Nat.reduceSub]))
    (by
      simp only [Grd.bits, andApp, Nat.reduceDiv, Nat.reduceMod, Nat.reducePow, Nat.and_zero]; rfl)
theorem Encoding.halt (u : Grd) : Encoding.Statement (.halt u) :=
  decodeWord_ok 17 2148532223 0 rfl (by simp (disch := decide) only [opcOf, exHigh, exLow, Nat.reduceSub]; rfl)
    (congrArg some (by
      simp (disch := decide) only [grdOf, Grd.bits, exHigh, exLow, exAll, bitHigh, bitLow, bitOf, Nat.reduceSub]))
    (by
      simp only [Grd.bits, andApp, Nat.reduceDiv, Nat.reduceMod, Nat.reducePow, Nat.and_zero]; rfl)
theorem Encoding.sqrd (u : Grd) (s : BitVec 6) : Encoding.Statement (.sqrd u s) :=
  decodeWord_ok 18 2147500031 0 rfl (by simp (disch := decide) only [opcOf, exHigh, exLow, Nat.reduceSub]; rfl)
    (congrArg some (by
      simp (disch := decide) only [grdOf, Grd.bits, exHigh, exLow, exAll, bitHigh, bitLow, bitOf, Nat.reduceSub]))
    (by
      simp only [Grd.bits, andApp, Nat.reduceDiv, Nat.reduceMod, Nat.reducePow, Nat.and_zero]; rfl)
theorem Encoding.add (u : Pfx) (d a b : BitVec 6) : Encoding.Statement (.add u d a b) :=
  decodeWord_ok 0 3 0 rfl (by simp (disch := decide) only [opcOf, exHigh, exLow, Nat.reduceSub]; rfl)
    (congrArg some (by
      simp (disch := decide) only [pfxOf, Pfx.bits, exHigh, exLow, exAll, bitHigh, bitLow, bitOf, Nat.reduceSub]))
    (by
      simp only [andApp, Nat.reduceDiv, Nat.reduceMod, Nat.reducePow, Nat.and_zero]; rfl)
theorem Encoding.sub (u : Pfx) (d a b : BitVec 6) : Encoding.Statement (.sub u d a b) :=
  decodeWord_ok 1 3 0 rfl (by simp (disch := decide) only [opcOf, exHigh, exLow, Nat.reduceSub]; rfl)
    (congrArg some (by
      simp (disch := decide) only [pfxOf, Pfx.bits, exHigh, exLow, exAll, bitHigh, bitLow, bitOf, Nat.reduceSub]))
    (by
      simp only [andApp, Nat.reduceDiv, Nat.reduceMod, Nat.reducePow, Nat.and_zero]; rfl)
theorem Encoding.mul (u : Pfx) (d a b : BitVec 6) : Encoding.Statement (.mul u d a b) :=
  decodeWord_ok 2 3 0 rfl (by simp (disch := decide) only [opcOf, exHigh, exLow, Nat.reduceSub]; rfl)
    (congrArg some (by
      simp (disch := decide) only [pfxOf, Pfx.bits, exHigh, exLow, exAll, bitHigh, bitLow, bitOf, Nat.reduceSub]))
    (by
      simp only [andApp, Nat.reduceDiv, Nat.reduceMod, Nat.reducePow, Nat.and_zero]; rfl)
theorem Encoding.mulh (u : Pfx) (d a b : BitVec 6) : Encoding.Statement (.mulh u d a b) :=
  decodeWord_ok 3 3 0 rfl (by simp (disch := decide) only [opcOf, exHigh, exLow, Nat.reduceSub]; rfl)
    (congrArg some (by
      simp (disch := decide) only [pfxOf, Pfx.bits, exHigh, exLow, exAll, bitHigh, bitLow, bitOf, Nat.reduceSub]))
    (by
      simp only [andApp, Nat.reduceDiv, Nat.reduceMod, Nat.reducePow, Nat.and_zero]; rfl)
theorem Encoding.mulhu (u : Pfx) (d a b : BitVec 6) : Encoding.Statement (.mulhu u d a b) :=
  decodeWord_ok 4 3 0 rfl (by simp (disch := decide) only [opcOf, exHigh, exLow, Nat.reduceSub]; rfl)
    (congrArg some (by
      simp (disch := decide) only [pfxOf, Pfx.bits, exHigh, exLow, exAll, bitHigh, bitLow, bitOf, Nat.reduceSub]))
    (by
      simp only [andApp, Nat.reduceDiv, Nat.reduceMod, Nat.reducePow, Nat.and_zero]; rfl)
theorem Encoding.div (u : Pfx) (d a b : BitVec 6) : Encoding.Statement (.div u d a b) :=
  decodeWord_ok 5 3 0 rfl (by simp (disch := decide) only [opcOf, exHigh, exLow, Nat.reduceSub]; rfl)
    (congrArg some (by
      simp (disch := decide) only [pfxOf, Pfx.bits, exHigh, exLow, exAll, bitHigh, bitLow, bitOf, Nat.reduceSub]))
    (by
      simp only [andApp, Nat.reduceDiv, Nat.reduceMod, Nat.reducePow, Nat.and_zero]; rfl)
theorem Encoding.divu (u : Pfx) (d a b : BitVec 6) : Encoding.Statement (.divu u d a b) :=
  decodeWord_ok 6 3 0 rfl (by simp (disch := decide) only [opcOf, exHigh, exLow, Nat.reduceSub]; rfl)
    (congrArg some (by
      simp (disch := decide) only [pfxOf, Pfx.bits, exHigh, exLow, exAll, bitHigh, bitLow, bitOf, Nat.reduceSub]))
    (by
      simp only [andApp, Nat.reduceDiv, Nat.reduceMod, Nat.reducePow, Nat.and_zero]; rfl)
theorem Encoding.rem (u : Pfx) (d a b : BitVec 6) : Encoding.Statement (.rem u d a b) :=
  decodeWord_ok 7 3 0 rfl (by simp (disch := decide) only [opcOf, exHigh, exLow, Nat.reduceSub]; rfl)
    (congrArg some (by
      simp (disch := decide) only [pfxOf, Pfx.bits, exHigh, exLow, exAll, bitHigh, bitLow, bitOf, Nat.reduceSub]))
    (by
      simp only [andApp, Nat.reduceDiv, Nat.reduceMod, Nat.reducePow, Nat.and_zero]; rfl)
theorem Encoding.remu (u : Pfx) (d a b : BitVec 6) : Encoding.Statement (.remu u d a b) :=
  decodeWord_ok 8 3 0 rfl (by simp (disch := decide) only [opcOf, exHigh, exLow, Nat.reduceSub]; rfl)
    (congrArg some (by
      simp (disch := decide) only [pfxOf, Pfx.bits, exHigh, exLow, exAll, bitHigh, bitLow, bitOf, Nat.reduceSub]))
    (by
      simp only [andApp, Nat.reduceDiv, Nat.reduceMod, Nat.reducePow, Nat.and_zero]; rfl)
theorem Encoding.and (u : Pfx) (d a b : BitVec 6) : Encoding.Statement (.and u d a b) :=
  decodeWord_ok 9 3 0 rfl (by simp (disch := decide) only [opcOf, exHigh, exLow, Nat.reduceSub]; rfl)
    (congrArg some (by
      simp (disch := decide) only [pfxOf, Pfx.bits, exHigh, exLow, exAll, bitHigh, bitLow, bitOf, Nat.reduceSub]))
    (by
      simp only [andApp, Nat.reduceDiv, Nat.reduceMod, Nat.reducePow, Nat.and_zero]; rfl)
theorem Encoding.or (u : Pfx) (d a b : BitVec 6) : Encoding.Statement (.or u d a b) :=
  decodeWord_ok 10 3 0 rfl (by simp (disch := decide) only [opcOf, exHigh, exLow, Nat.reduceSub]; rfl)
    (congrArg some (by
      simp (disch := decide) only [pfxOf, Pfx.bits, exHigh, exLow, exAll, bitHigh, bitLow, bitOf, Nat.reduceSub]))
    (by
      simp only [andApp, Nat.reduceDiv, Nat.reduceMod, Nat.reducePow, Nat.and_zero]; rfl)
theorem Encoding.xor (u : Pfx) (d a b : BitVec 6) : Encoding.Statement (.xor u d a b) :=
  decodeWord_ok 11 3 0 rfl (by simp (disch := decide) only [opcOf, exHigh, exLow, Nat.reduceSub]; rfl)
    (congrArg some (by
      simp (disch := decide) only [pfxOf, Pfx.bits, exHigh, exLow, exAll, bitHigh, bitLow, bitOf, Nat.reduceSub]))
    (by
      simp only [andApp, Nat.reduceDiv, Nat.reduceMod, Nat.reducePow, Nat.and_zero]; rfl)
theorem Encoding.shl (u : Pfx) (d a b : BitVec 6) : Encoding.Statement (.shl u d a b) :=
  decodeWord_ok 12 3 0 rfl (by simp (disch := decide) only [opcOf, exHigh, exLow, Nat.reduceSub]; rfl)
    (congrArg some (by
      simp (disch := decide) only [pfxOf, Pfx.bits, exHigh, exLow, exAll, bitHigh, bitLow, bitOf, Nat.reduceSub]))
    (by
      simp only [andApp, Nat.reduceDiv, Nat.reduceMod, Nat.reducePow, Nat.and_zero]; rfl)
theorem Encoding.shr (u : Pfx) (d a b : BitVec 6) : Encoding.Statement (.shr u d a b) :=
  decodeWord_ok 13 3 0 rfl (by simp (disch := decide) only [opcOf, exHigh, exLow, Nat.reduceSub]; rfl)
    (congrArg some (by
      simp (disch := decide) only [pfxOf, Pfx.bits, exHigh, exLow, exAll, bitHigh, bitLow, bitOf, Nat.reduceSub]))
    (by
      simp only [andApp, Nat.reduceDiv, Nat.reduceMod, Nat.reducePow, Nat.and_zero]; rfl)
theorem Encoding.ashr (u : Pfx) (d a b : BitVec 6) : Encoding.Statement (.ashr u d a b) :=
  decodeWord_ok 14 3 0 rfl (by simp (disch := decide) only [opcOf, exHigh, exLow, Nat.reduceSub]; rfl)
    (congrArg some (by
      simp (disch := decide) only [pfxOf, Pfx.bits, exHigh, exLow, exAll, bitHigh, bitLow, bitOf, Nat.reduceSub]))
    (by
      simp only [andApp, Nat.reduceDiv, Nat.reduceMod, Nat.reducePow, Nat.and_zero]; rfl)
theorem Encoding.sel (u : Pfx) (d a : BitVec 6) (p : BitVec 4) : Encoding.Statement (.sel u d a p) :=
  decodeWord_ok 15 15 0 rfl (by simp (disch := decide) only [opcOf, exHigh, exLow, Nat.reduceSub]; rfl)
    (congrArg some (by
      simp (disch := decide) only [pfxOf, Pfx.bits, exHigh, exLow, exAll, bitHigh, bitLow, bitOf, Nat.reduceSub]))
    (by
      simp only [andApp, Nat.reduceDiv, Nat.reduceMod, Nat.reducePow, Nat.and_zero]; rfl)
theorem Encoding.min (u : Pfx) (d a b : BitVec 6) : Encoding.Statement (.min u d a b) :=
  decodeWord_ok 16 3 0 rfl (by simp (disch := decide) only [opcOf, exHigh, exLow, Nat.reduceSub]; rfl)
    (congrArg some (by
      simp (disch := decide) only [pfxOf, Pfx.bits, exHigh, exLow, exAll, bitHigh, bitLow, bitOf, Nat.reduceSub]))
    (by
      simp only [andApp, Nat.reduceDiv, Nat.reduceMod, Nat.reducePow, Nat.and_zero]; rfl)
theorem Encoding.max (u : Pfx) (d a b : BitVec 6) : Encoding.Statement (.max u d a b) :=
  decodeWord_ok 17 3 0 rfl (by simp (disch := decide) only [opcOf, exHigh, exLow, Nat.reduceSub]; rfl)
    (congrArg some (by
      simp (disch := decide) only [pfxOf, Pfx.bits, exHigh, exLow, exAll, bitHigh, bitLow, bitOf, Nat.reduceSub]))
    (by
      simp only [andApp, Nat.reduceDiv, Nat.reduceMod, Nat.reducePow, Nat.and_zero]; rfl)
theorem Encoding.minu (u : Pfx) (d a b : BitVec 6) : Encoding.Statement (.minu u d a b) :=
  decodeWord_ok 18 3 0 rfl (by simp (disch := decide) only [opcOf, exHigh, exLow, Nat.reduceSub]; rfl)
    (congrArg some (by
      simp (disch := decide) only [pfxOf, Pfx.bits, exHigh, exLow, exAll, bitHigh, bitLow, bitOf, Nat.reduceSub]))
    (by
      simp only [andApp, Nat.reduceDiv, Nat.reduceMod, Nat.reducePow, Nat.and_zero]; rfl)
theorem Encoding.maxu (u : Pfx) (d a b : BitVec 6) : Encoding.Statement (.maxu u d a b) :=
  decodeWord_ok 19 3 0 rfl (by simp (disch := decide) only [opcOf, exHigh, exLow, Nat.reduceSub]; rfl)
    (congrArg some (by
      simp (disch := decide) only [pfxOf, Pfx.bits, exHigh, exLow, exAll, bitHigh, bitLow, bitOf, Nat.reduceSub]))
    (by
      simp only [andApp, Nat.reduceDiv, Nat.reduceMod, Nat.reducePow, Nat.and_zero]; rfl)
theorem Encoding.clz (u : Pfx) (d a : BitVec 6) : Encoding.Statement (.clz u d a) :=
  decodeWord_ok 20 255 0 rfl (by simp (disch := decide) only [opcOf, exHigh, exLow, Nat.reduceSub]; rfl)
    (congrArg some (by
      simp (disch := decide) only [pfxOf, Pfx.bits, exHigh, exLow, exAll, bitHigh, bitLow, bitOf, Nat.reduceSub]))
    (by
      simp only [andApp, Nat.reduceDiv, Nat.reduceMod, Nat.reducePow, Nat.and_zero]; rfl)
theorem Encoding.ctz (u : Pfx) (d a : BitVec 6) : Encoding.Statement (.ctz u d a) :=
  decodeWord_ok 21 255 0 rfl (by simp (disch := decide) only [opcOf, exHigh, exLow, Nat.reduceSub]; rfl)
    (congrArg some (by
      simp (disch := decide) only [pfxOf, Pfx.bits, exHigh, exLow, exAll, bitHigh, bitLow, bitOf, Nat.reduceSub]))
    (by
      simp only [andApp, Nat.reduceDiv, Nat.reduceMod, Nat.reducePow, Nat.and_zero]; rfl)
theorem Encoding.popc (u : Pfx) (d a : BitVec 6) : Encoding.Statement (.popc u d a) :=
  decodeWord_ok 22 255 0 rfl (by simp (disch := decide) only [opcOf, exHigh, exLow, Nat.reduceSub]; rfl)
    (congrArg some (by
      simp (disch := decide) only [pfxOf, Pfx.bits, exHigh, exLow, exAll, bitHigh, bitLow, bitOf, Nat.reduceSub]))
    (by
      simp only [andApp, Nat.reduceDiv, Nat.reduceMod, Nat.reducePow, Nat.and_zero]; rfl)
theorem Encoding.addi (u : Pfx) (d a : BitVec 6) (i : BitVec 8) : Encoding.Statement (.addi u d a i) :=
  decodeWord_ok 24 0 0 rfl (by simp (disch := decide) only [opcOf, exHigh, exLow, Nat.reduceSub]; rfl)
    (congrArg some (by
      simp (disch := decide) only [pfxOf, Pfx.bits, exHigh, exLow, exAll, bitHigh, bitLow, bitOf, Nat.reduceSub]))
    (Nat.and_zero _)
theorem Encoding.andi (u : Pfx) (d a : BitVec 6) (i : BitVec 8) : Encoding.Statement (.andi u d a i) :=
  decodeWord_ok 25 0 0 rfl (by simp (disch := decide) only [opcOf, exHigh, exLow, Nat.reduceSub]; rfl)
    (congrArg some (by
      simp (disch := decide) only [pfxOf, Pfx.bits, exHigh, exLow, exAll, bitHigh, bitLow, bitOf, Nat.reduceSub]))
    (Nat.and_zero _)
theorem Encoding.ori (u : Pfx) (d a : BitVec 6) (i : BitVec 8) : Encoding.Statement (.ori u d a i) :=
  decodeWord_ok 26 0 0 rfl (by simp (disch := decide) only [opcOf, exHigh, exLow, Nat.reduceSub]; rfl)
    (congrArg some (by
      simp (disch := decide) only [pfxOf, Pfx.bits, exHigh, exLow, exAll, bitHigh, bitLow, bitOf, Nat.reduceSub]))
    (Nat.and_zero _)
theorem Encoding.xori (u : Pfx) (d a : BitVec 6) (i : BitVec 8) : Encoding.Statement (.xori u d a i) :=
  decodeWord_ok 27 0 0 rfl (by simp (disch := decide) only [opcOf, exHigh, exLow, Nat.reduceSub]; rfl)
    (congrArg some (by
      simp (disch := decide) only [pfxOf, Pfx.bits, exHigh, exLow, exAll, bitHigh, bitLow, bitOf, Nat.reduceSub]))
    (Nat.and_zero _)
theorem Encoding.shli (u : Pfx) (d a i : BitVec 6) : Encoding.Statement (.shli u d a i) :=
  decodeWord_ok 28 192 0 rfl (by simp (disch := decide) only [opcOf, exHigh, exLow, Nat.reduceSub]; rfl)
    (congrArg some (by
      simp (disch := decide) only [pfxOf, Pfx.bits, exHigh, exLow, exAll, bitHigh, bitLow, bitOf, Nat.reduceSub]))
    (by
      simp only [andApp, Nat.reduceDiv, Nat.reduceMod, Nat.reducePow, Nat.and_zero]; rfl)
theorem Encoding.shri (u : Pfx) (d a i : BitVec 6) : Encoding.Statement (.shri u d a i) :=
  decodeWord_ok 29 192 0 rfl (by simp (disch := decide) only [opcOf, exHigh, exLow, Nat.reduceSub]; rfl)
    (congrArg some (by
      simp (disch := decide) only [pfxOf, Pfx.bits, exHigh, exLow, exAll, bitHigh, bitLow, bitOf, Nat.reduceSub]))
    (by
      simp only [andApp, Nat.reduceDiv, Nat.reduceMod, Nat.reducePow, Nat.and_zero]; rfl)
theorem Encoding.ashri (u : Pfx) (d a i : BitVec 6) : Encoding.Statement (.ashri u d a i) :=
  decodeWord_ok 30 192 0 rfl (by simp (disch := decide) only [opcOf, exHigh, exLow, Nat.reduceSub]; rfl)
    (congrArg some (by
      simp (disch := decide) only [pfxOf, Pfx.bits, exHigh, exLow, exAll, bitHigh, bitLow, bitOf, Nat.reduceSub]))
    (by
      simp only [andApp, Nat.reduceDiv, Nat.reduceMod, Nat.reducePow, Nat.and_zero]; rfl)
theorem Encoding.movi (u : Pfx) (d : BitVec 6) (i : BitVec 14) : Encoding.Statement (.movi u d i) :=
  decodeWord_ok 31 0 0 rfl (by simp (disch := decide) only [opcOf, exHigh, exLow, Nat.reduceSub]; rfl)
    (congrArg some (by
      simp (disch := decide) only [pfxOf, Pfx.bits, exHigh, exLow, exAll, bitHigh, bitLow, bitOf, Nat.reduceSub]))
    (Nat.and_zero _)
theorem Encoding.movs (u : Pfx) (d : BitVec 6) (i : BitVec 14) : Encoding.Statement (.movs u d i) :=
  decodeWord_ok 32 0 0 rfl (by simp (disch := decide) only [opcOf, exHigh, exLow, Nat.reduceSub]; rfl)
    (congrArg some (by
      simp (disch := decide) only [pfxOf, Pfx.bits, exHigh, exLow, exAll, bitHigh, bitLow, bitOf, Nat.reduceSub]))
    (Nat.and_zero _)
theorem Encoding.rdc (u : Pfx) (s : BitVec 6) (c : BitVec 8) (w : BitVec 6) : Encoding.Statement (.rdc u s c w) :=
  decodeWord_ok 33 0 0 rfl (by simp (disch := decide) only [opcOf, exHigh, exLow, Nat.reduceSub]; rfl)
    (congrArg some (by
      simp (disch := decide) only [pfxOf, Pfx.bits, exHigh, exLow, exAll, bitHigh, bitLow, bitOf, Nat.reduceSub]))
    (Nat.and_zero _)
theorem Encoding.wrc (u : Pfx) (s : BitVec 6) (c : BitVec 8) (w : BitVec 6) : Encoding.Statement (.wrc u s c w) :=
  decodeWord_ok 34 0 0 rfl (by simp (disch := decide) only [opcOf, exHigh, exLow, Nat.reduceSub]; rfl)
    (congrArg some (by
      simp (disch := decide) only [pfxOf, Pfx.bits, exHigh, exLow, exAll, bitHigh, bitLow, bitOf, Nat.reduceSub]))
    (Nat.and_zero _)
theorem Encoding.fcmple (u : Pfx) (p : BitVec 4) (a b : BitVec 6) (f w : Bool) : Encoding.Statement (.fcmple u p a b f w) :=
  decodeWord_ok 35 49152 0 rfl (by simp (disch := decide) only [opcOf, exHigh, exLow, Nat.reduceSub]; rfl)
    (congrArg some (by
      simp (disch := decide) only [pfxOf, Pfx.bits, exHigh, exLow, exAll, bitHigh, bitLow, bitOf, Nat.reduceSub]))
    (by
      simp only [andApp, Nat.reduceDiv, Nat.reduceMod, Nat.reducePow, Nat.and_zero]; rfl)
theorem Encoding.fcmpun (u : Pfx) (p : BitVec 4) (a b : BitVec 6) (f w : Bool) : Encoding.Statement (.fcmpun u p a b f w) :=
  decodeWord_ok 36 49152 0 rfl (by simp (disch := decide) only [opcOf, exHigh, exLow, Nat.reduceSub]; rfl)
    (congrArg some (by
      simp (disch := decide) only [pfxOf, Pfx.bits, exHigh, exLow, exAll, bitHigh, bitLow, bitOf, Nat.reduceSub]))
    (by
      simp only [andApp, Nat.reduceDiv, Nat.reduceMod, Nat.reducePow, Nat.and_zero]; rfl)
theorem Encoding.cmpeq (u : Pfx) (p : BitVec 4) (a b : BitVec 6) : Encoding.Statement (.cmpeq u p a b) :=
  decodeWord_ok 40 49155 0 rfl (by simp (disch := decide) only [opcOf, exHigh, exLow, Nat.reduceSub]; rfl)
    (congrArg some (by
      simp (disch := decide) only [pfxOf, Pfx.bits, exHigh, exLow, exAll, bitHigh, bitLow, bitOf, Nat.reduceSub]))
    (by
      simp only [andApp, Nat.reduceDiv, Nat.reduceMod, Nat.reducePow, Nat.and_zero]; rfl)
theorem Encoding.cmpne (u : Pfx) (p : BitVec 4) (a b : BitVec 6) : Encoding.Statement (.cmpne u p a b) :=
  decodeWord_ok 41 49155 0 rfl (by simp (disch := decide) only [opcOf, exHigh, exLow, Nat.reduceSub]; rfl)
    (congrArg some (by
      simp (disch := decide) only [pfxOf, Pfx.bits, exHigh, exLow, exAll, bitHigh, bitLow, bitOf, Nat.reduceSub]))
    (by
      simp only [andApp, Nat.reduceDiv, Nat.reduceMod, Nat.reducePow, Nat.and_zero]; rfl)
theorem Encoding.cmplt (u : Pfx) (p : BitVec 4) (a b : BitVec 6) : Encoding.Statement (.cmplt u p a b) :=
  decodeWord_ok 42 49155 0 rfl (by simp (disch := decide) only [opcOf, exHigh, exLow, Nat.reduceSub]; rfl)
    (congrArg some (by
      simp (disch := decide) only [pfxOf, Pfx.bits, exHigh, exLow, exAll, bitHigh, bitLow, bitOf, Nat.reduceSub]))
    (by
      simp only [andApp, Nat.reduceDiv, Nat.reduceMod, Nat.reducePow, Nat.and_zero]; rfl)
theorem Encoding.cmpltu (u : Pfx) (p : BitVec 4) (a b : BitVec 6) : Encoding.Statement (.cmpltu u p a b) :=
  decodeWord_ok 43 49155 0 rfl (by simp (disch := decide) only [opcOf, exHigh, exLow, Nat.reduceSub]; rfl)
    (congrArg some (by
      simp (disch := decide) only [pfxOf, Pfx.bits, exHigh, exLow, exAll, bitHigh, bitLow, bitOf, Nat.reduceSub]))
    (by
      simp only [andApp, Nat.reduceDiv, Nat.reduceMod, Nat.reducePow, Nat.and_zero]; rfl)
theorem Encoding.cmple (u : Pfx) (p : BitVec 4) (a b : BitVec 6) : Encoding.Statement (.cmple u p a b) :=
  decodeWord_ok 44 49155 0 rfl (by simp (disch := decide) only [opcOf, exHigh, exLow, Nat.reduceSub]; rfl)
    (congrArg some (by
      simp (disch := decide) only [pfxOf, Pfx.bits, exHigh, exLow, exAll, bitHigh, bitLow, bitOf, Nat.reduceSub]))
    (by
      simp only [andApp, Nat.reduceDiv, Nat.reduceMod, Nat.reducePow, Nat.and_zero]; rfl)
theorem Encoding.cmpleu (u : Pfx) (p : BitVec 4) (a b : BitVec 6) : Encoding.Statement (.cmpleu u p a b) :=
  decodeWord_ok 45 49155 0 rfl (by simp (disch := decide) only [opcOf, exHigh, exLow, Nat.reduceSub]; rfl)
    (congrArg some (by
      simp (disch := decide) only [pfxOf, Pfx.bits, exHigh, exLow, exAll, bitHigh, bitLow, bitOf, Nat.reduceSub]))
    (by
      simp only [andApp, Nat.reduceDiv, Nat.reduceMod, Nat.reducePow, Nat.and_zero]; rfl)
theorem Encoding.fcmpeq (u : Pfx) (p : BitVec 4) (a b : BitVec 6) (f w : Bool) : Encoding.Statement (.fcmpeq u p a b f w) :=
  decodeWord_ok 46 49152 0 rfl (by simp (disch := decide) only [opcOf, exHigh, exLow, Nat.reduceSub]; rfl)
    (congrArg some (by
      simp (disch := decide) only [pfxOf, Pfx.bits, exHigh, exLow, exAll, bitHigh, bitLow, bitOf, Nat.reduceSub]))
    (by
      simp only [andApp, Nat.reduceDiv, Nat.reduceMod, Nat.reducePow, Nat.and_zero]; rfl)
theorem Encoding.fcmplt (u : Pfx) (p : BitVec 4) (a b : BitVec 6) (f w : Bool) : Encoding.Statement (.fcmplt u p a b f w) :=
  decodeWord_ok 47 49152 0 rfl (by simp (disch := decide) only [opcOf, exHigh, exLow, Nat.reduceSub]; rfl)
    (congrArg some (by
      simp (disch := decide) only [pfxOf, Pfx.bits, exHigh, exLow, exAll, bitHigh, bitLow, bitOf, Nat.reduceSub]))
    (by
      simp only [andApp, Nat.reduceDiv, Nat.reduceMod, Nat.reducePow, Nat.and_zero]; rfl)
theorem Encoding.faddF32 (u : Pfx) (d a b : BitVec 6) (f o : Bool) : Encoding.Statement (.faddF32 u d a b f o) :=
  decodeWord_ok 48 0 0 rfl (by simp (disch := decide) only [opcOf, exHigh, exLow, Nat.reduceSub]; rfl)
    (congrArg some (by
      simp (disch := decide) only [pfxOf, Pfx.bits, exHigh, exLow, exAll, bitHigh, bitLow, bitOf, Nat.reduceSub]))
    (Nat.and_zero _)
theorem Encoding.fsubF32 (u : Pfx) (d a b : BitVec 6) (f o : Bool) : Encoding.Statement (.fsubF32 u d a b f o) :=
  decodeWord_ok 49 0 0 rfl (by simp (disch := decide) only [opcOf, exHigh, exLow, Nat.reduceSub]; rfl)
    (congrArg some (by
      simp (disch := decide) only [pfxOf, Pfx.bits, exHigh, exLow, exAll, bitHigh, bitLow, bitOf, Nat.reduceSub]))
    (Nat.and_zero _)
theorem Encoding.fmulF32 (u : Pfx) (d a b : BitVec 6) (f o : Bool) : Encoding.Statement (.fmulF32 u d a b f o) :=
  decodeWord_ok 50 0 0 rfl (by simp (disch := decide) only [opcOf, exHigh, exLow, Nat.reduceSub]; rfl)
    (congrArg some (by
      simp (disch := decide) only [pfxOf, Pfx.bits, exHigh, exLow, exAll, bitHigh, bitLow, bitOf, Nat.reduceSub]))
    (Nat.and_zero _)
theorem Encoding.ffmaF32 (u : Pfx) (d a b : BitVec 6) (f o : Bool) : Encoding.Statement (.ffmaF32 u d a b f o) :=
  decodeWord_ok 51 0 0 rfl (by simp (disch := decide) only [opcOf, exHigh, exLow, Nat.reduceSub]; rfl)
    (congrArg some (by
      simp (disch := decide) only [pfxOf, Pfx.bits, exHigh, exLow, exAll, bitHigh, bitLow, bitOf, Nat.reduceSub]))
    (Nat.and_zero _)
theorem Encoding.fdivF32 (u : Pfx) (d a b : BitVec 6) (f o : Bool) : Encoding.Statement (.fdivF32 u d a b f o) :=
  decodeWord_ok 52 0 0 rfl (by simp (disch := decide) only [opcOf, exHigh, exLow, Nat.reduceSub]; rfl)
    (congrArg some (by
      simp (disch := decide) only [pfxOf, Pfx.bits, exHigh, exLow, exAll, bitHigh, bitLow, bitOf, Nat.reduceSub]))
    (Nat.and_zero _)
theorem Encoding.fsqrtF32 (u : Pfx) (d a : BitVec 6) (f o : Bool) : Encoding.Statement (.fsqrtF32 u d a f o) :=
  decodeWord_ok 53 252 0 rfl (by simp (disch := decide) only [opcOf, exHigh, exLow, Nat.reduceSub]; rfl)
    (congrArg some (by
      simp (disch := decide) only [pfxOf, Pfx.bits, exHigh, exLow, exAll, bitHigh, bitLow, bitOf, Nat.reduceSub]))
    (by
      simp only [andApp, Nat.reduceDiv, Nat.reduceMod, Nat.reducePow, Nat.and_zero]; rfl)
theorem Encoding.faddF64 (u : Pfx) (d a b : BitVec 6) (f o : Bool) : Encoding.Statement (.faddF64 u d a b f o) :=
  decodeWord_ok 56 0 0 rfl (by simp (disch := decide) only [opcOf, exHigh, exLow, Nat.reduceSub]; rfl)
    (congrArg some (by
      simp (disch := decide) only [pfxOf, Pfx.bits, exHigh, exLow, exAll, bitHigh, bitLow, bitOf, Nat.reduceSub]))
    (Nat.and_zero _)
theorem Encoding.fsubF64 (u : Pfx) (d a b : BitVec 6) (f o : Bool) : Encoding.Statement (.fsubF64 u d a b f o) :=
  decodeWord_ok 57 0 0 rfl (by simp (disch := decide) only [opcOf, exHigh, exLow, Nat.reduceSub]; rfl)
    (congrArg some (by
      simp (disch := decide) only [pfxOf, Pfx.bits, exHigh, exLow, exAll, bitHigh, bitLow, bitOf, Nat.reduceSub]))
    (Nat.and_zero _)
theorem Encoding.fmulF64 (u : Pfx) (d a b : BitVec 6) (f o : Bool) : Encoding.Statement (.fmulF64 u d a b f o) :=
  decodeWord_ok 58 0 0 rfl (by simp (disch := decide) only [opcOf, exHigh, exLow, Nat.reduceSub]; rfl)
    (congrArg some (by
      simp (disch := decide) only [pfxOf, Pfx.bits, exHigh, exLow, exAll, bitHigh, bitLow, bitOf, Nat.reduceSub]))
    (Nat.and_zero _)
theorem Encoding.ffmaF64 (u : Pfx) (d a b : BitVec 6) (f o : Bool) : Encoding.Statement (.ffmaF64 u d a b f o) :=
  decodeWord_ok 59 0 0 rfl (by simp (disch := decide) only [opcOf, exHigh, exLow, Nat.reduceSub]; rfl)
    (congrArg some (by
      simp (disch := decide) only [pfxOf, Pfx.bits, exHigh, exLow, exAll, bitHigh, bitLow, bitOf, Nat.reduceSub]))
    (Nat.and_zero _)
theorem Encoding.fdivF64 (u : Pfx) (d a b : BitVec 6) (f o : Bool) : Encoding.Statement (.fdivF64 u d a b f o) :=
  decodeWord_ok 60 0 0 rfl (by simp (disch := decide) only [opcOf, exHigh, exLow, Nat.reduceSub]; rfl)
    (congrArg some (by
      simp (disch := decide) only [pfxOf, Pfx.bits, exHigh, exLow, exAll, bitHigh, bitLow, bitOf, Nat.reduceSub]))
    (Nat.and_zero _)
theorem Encoding.fsqrtF64 (u : Pfx) (d a : BitVec 6) (f o : Bool) : Encoding.Statement (.fsqrtF64 u d a f o) :=
  decodeWord_ok 61 252 0 rfl (by simp (disch := decide) only [opcOf, exHigh, exLow, Nat.reduceSub]; rfl)
    (congrArg some (by
      simp (disch := decide) only [pfxOf, Pfx.bits, exHigh, exLow, exAll, bitHigh, bitLow, bitOf, Nat.reduceSub]))
    (by
      simp only [andApp, Nat.reduceDiv, Nat.reduceMod, Nat.reducePow, Nat.and_zero]; rfl)
theorem Encoding.xadd (u : Pfx) (x a b : BitVec 4) : Encoding.Statement (.xadd u x a b) :=
  decodeWord_ok 0 255 0 rfl (by simp (disch := decide) only [opcOf, exHigh, exLow, Nat.reduceSub]; rfl)
    (congrArg some (by
      simp (disch := decide) only [pfxOf, Pfx.bits, exHigh, exLow, exAll, bitHigh, bitLow, bitOf, Nat.reduceSub]))
    (by
      simp only [andApp, Nat.reduceDiv, Nat.reduceMod, Nat.reducePow, Nat.and_zero]; rfl)
theorem Encoding.xaddi (u : Pfx) (x a : BitVec 4) (i : BitVec 8) : Encoding.Statement (.xaddi u x a i) :=
  decodeWord_ok 1 3840 0 rfl (by simp (disch := decide) only [opcOf, exHigh, exLow, Nat.reduceSub]; rfl)
    (congrArg some (by
      simp (disch := decide) only [pfxOf, Pfx.bits, exHigh, exLow, exAll, bitHigh, bitLow, bitOf, Nat.reduceSub]))
    (by
      simp only [andApp, Nat.reduceDiv, Nat.reduceMod, Nat.reducePow, Nat.and_zero]; rfl)
theorem Encoding.xsub (u : Pfx) (x a b : BitVec 4) : Encoding.Statement (.xsub u x a b) :=
  decodeWord_ok 2 255 0 rfl (by simp (disch := decide) only [opcOf, exHigh, exLow, Nat.reduceSub]; rfl)
    (congrArg some (by
      simp (disch := decide) only [pfxOf, Pfx.bits, exHigh, exLow, exAll, bitHigh, bitLow, bitOf, Nat.reduceSub]))
    (by
      simp only [andApp, Nat.reduceDiv, Nat.reduceMod, Nat.reducePow, Nat.and_zero]; rfl)
theorem Encoding.xshli (u : Pfx) (x a : BitVec 4) (i : BitVec 5) : Encoding.Statement (.xshli u x a i) :=
  decodeWord_ok 3 4064 0 rfl (by simp (disch := decide) only [opcOf, exHigh, exLow, Nat.reduceSub]; rfl)
    (congrArg some (by
      simp (disch := decide) only [pfxOf, Pfx.bits, exHigh, exLow, exAll, bitHigh, bitLow, bitOf, Nat.reduceSub]))
    (by
      simp only [andApp, Nat.reduceDiv, Nat.reduceMod, Nat.reducePow, Nat.and_zero]; rfl)
theorem Encoding.xshri (u : Pfx) (x a : BitVec 4) (i : BitVec 5) : Encoding.Statement (.xshri u x a i) :=
  decodeWord_ok 4 4064 0 rfl (by simp (disch := decide) only [opcOf, exHigh, exLow, Nat.reduceSub]; rfl)
    (congrArg some (by
      simp (disch := decide) only [pfxOf, Pfx.bits, exHigh, exLow, exAll, bitHigh, bitLow, bitOf, Nat.reduceSub]))
    (by
      simp only [andApp, Nat.reduceDiv, Nat.reduceMod, Nat.reducePow, Nat.and_zero]; rfl)
theorem Encoding.xand (u : Pfx) (x a b : BitVec 4) : Encoding.Statement (.xand u x a b) :=
  decodeWord_ok 5 255 0 rfl (by simp (disch := decide) only [opcOf, exHigh, exLow, Nat.reduceSub]; rfl)
    (congrArg some (by
      simp (disch := decide) only [pfxOf, Pfx.bits, exHigh, exLow, exAll, bitHigh, bitLow, bitOf, Nat.reduceSub]))
    (by
      simp only [andApp, Nat.reduceDiv, Nat.reduceMod, Nat.reducePow, Nat.and_zero]; rfl)
theorem Encoding.xpopc (u : Pfx) (x a : BitVec 4) : Encoding.Statement (.xpopc u x a) :=
  decodeWord_ok 6 4095 0 rfl (by simp (disch := decide) only [opcOf, exHigh, exLow, Nat.reduceSub]; rfl)
    (congrArg some (by
      simp (disch := decide) only [pfxOf, Pfx.bits, exHigh, exLow, exAll, bitHigh, bitLow, bitOf, Nat.reduceSub]))
    (by
      simp only [andApp, Nat.reduceDiv, Nat.reduceMod, Nat.reducePow, Nat.and_zero]; rfl)
theorem Encoding.xcmpadv (u : Pfx) (x a b c : BitVec 4) (f : BitVec 2) : Encoding.Statement (.xcmpadv u x a b c f) :=
  decodeWord_ok 7 12 0 rfl (by simp (disch := decide) only [opcOf, exHigh, exLow, Nat.reduceSub]; rfl)
    (congrArg some (by
      simp (disch := decide) only [pfxOf, Pfx.bits, exHigh, exLow, exAll, bitHigh, bitLow, bitOf, Nat.reduceSub]))
    (by
      simp only [andApp, Nat.reduceDiv, Nat.reduceMod, Nat.reducePow, Nat.and_zero]; rfl)
theorem Encoding.xpatd (u : Pfx) (x a : BitVec 4) (k : BitVec 2) : Encoding.Statement (.xpatd u x a k) :=
  decodeWord_ok 8 4092 0 rfl (by simp (disch := decide) only [opcOf, exHigh, exLow, Nat.reduceSub]; rfl)
    (congrArg some (by
      simp (disch := decide) only [pfxOf, Pfx.bits, exHigh, exLow, exAll, bitHigh, bitLow, bitOf, Nat.reduceSub]))
    (by
      simp only [andApp, Nat.reduceDiv, Nat.reduceMod, Nat.reducePow, Nat.and_zero]; rfl)
theorem Encoding.xbnet (u : Pfx) (x a b : BitVec 4) (e : BitVec 3) : Encoding.Statement (.xbnet u x a b e) :=
  decodeWord_ok 9 31 0 rfl (by simp (disch := decide) only [opcOf, exHigh, exLow, Nat.reduceSub]; rfl)
    (congrArg some (by
      simp (disch := decide) only [pfxOf, Pfx.bits, exHigh, exLow, exAll, bitHigh, bitLow, bitOf, Nat.reduceSub]))
    (by
      simp only [andApp, Nat.reduceDiv, Nat.reduceMod, Nat.reducePow, Nat.and_zero]; rfl)
theorem Encoding.xbnld (u : Pfx) (e : BitVec 3) (v : BitVec 5) : Encoding.Statement (.xbnld u e v) :=
  decodeWord_ok 10 4095 0 rfl (by simp (disch := decide) only [opcOf, exHigh, exLow, Nat.reduceSub]; rfl)
    (congrArg some (by
      simp (disch := decide) only [pfxOf, Pfx.bits, exHigh, exLow, exAll, bitHigh, bitLow, bitOf, Nat.reduceSub]))
    (by
      simp only [andApp, Nat.reduceDiv, Nat.reduceMod, Nat.reducePow, Nat.and_zero]; rfl)
theorem Encoding.xbperm (u : Pfx) (x a b c f : BitVec 4) : Encoding.Statement (.xbperm u x a b c f) :=
  decodeWord_ok 11 0 0 rfl (by simp (disch := decide) only [opcOf, exHigh, exLow, Nat.reduceSub]; rfl)
    (congrArg some (by
      simp (disch := decide) only [pfxOf, Pfx.bits, exHigh, exLow, exAll, bitHigh, bitLow, bitOf, Nat.reduceSub]))
    (Nat.and_zero _)
theorem Encoding.xfroms (u : Pfx) (x : BitVec 4) (s : BitVec 6) : Encoding.Statement (.xfroms u x s) :=
  decodeWord_ok 12 1023 0 rfl (by simp (disch := decide) only [opcOf, exHigh, exLow, Nat.reduceSub]; rfl)
    (congrArg some (by
      simp (disch := decide) only [pfxOf, Pfx.bits, exHigh, exLow, exAll, bitHigh, bitLow, bitOf, Nat.reduceSub]))
    (by
      simp only [andApp, Nat.reduceDiv, Nat.reduceMod, Nat.reducePow, Nat.and_zero]; rfl)
theorem Encoding.xtos (u : Pfx) (x : BitVec 4) (s : BitVec 6) : Encoding.Statement (.xtos u x s) :=
  decodeWord_ok 13 1023 0 rfl (by simp (disch := decide) only [opcOf, exHigh, exLow, Nat.reduceSub]; rfl)
    (congrArg some (by
      simp (disch := decide) only [pfxOf, Pfx.bits, exHigh, exLow, exAll, bitHigh, bitLow, bitOf, Nat.reduceSub]))
    (by
      simp only [andApp, Nat.reduceDiv, Nat.reduceMod, Nat.reducePow, Nat.and_zero]; rfl)
theorem Encoding.xmov (u : Pfx) (x a : BitVec 4) : Encoding.Statement (.xmov u x a) :=
  decodeWord_ok 14 4095 0 rfl (by simp (disch := decide) only [opcOf, exHigh, exLow, Nat.reduceSub]; rfl)
    (congrArg some (by
      simp (disch := decide) only [pfxOf, Pfx.bits, exHigh, exLow, exAll, bitHigh, bitLow, bitOf, Nat.reduceSub]))
    (by
      simp only [andApp, Nat.reduceDiv, Nat.reduceMod, Nat.reducePow, Nat.and_zero]; rfl)
theorem Encoding.xmovi (u : Pfx) (x : BitVec 4) (i : BitVec 16) : Encoding.Statement (.xmovi u x i) :=
  decodeWord_ok 15 0 0 rfl (by simp (disch := decide) only [opcOf, exHigh, exLow, Nat.reduceSub]; rfl)
    (congrArg some (by
      simp (disch := decide) only [pfxOf, Pfx.bits, exHigh, exLow, exAll, bitHigh, bitLow, bitOf, Nat.reduceSub]))
    (Nat.and_zero _)
theorem Encoding.vadd (u : Pfx) (t : BitVec 3) (d a b : BitVec 5) (f o : Bool) : Encoding.Statement (.vadd u t d a b f o) :=
  decodeWord_ok 0 0 0 rfl (by simp (disch := decide) only [opcOf, exHigh, exLow, Nat.reduceSub]; rfl)
    (congrArg some (by
      simp (disch := decide) only [pfxOf, Pfx.bits, exHigh, exLow, exAll, bitHigh, bitLow, bitOf, Nat.reduceSub]))
    (Nat.and_zero _)
theorem Encoding.vsub (u : Pfx) (t : BitVec 3) (d a b : BitVec 5) (f o : Bool) : Encoding.Statement (.vsub u t d a b f o) :=
  decodeWord_ok 1 0 0 rfl (by simp (disch := decide) only [opcOf, exHigh, exLow, Nat.reduceSub]; rfl)
    (congrArg some (by
      simp (disch := decide) only [pfxOf, Pfx.bits, exHigh, exLow, exAll, bitHigh, bitLow, bitOf, Nat.reduceSub]))
    (Nat.and_zero _)
theorem Encoding.vmul (u : Pfx) (t : BitVec 3) (d a b : BitVec 5) (f o : Bool) : Encoding.Statement (.vmul u t d a b f o) :=
  decodeWord_ok 2 0 0 rfl (by simp (disch := decide) only [opcOf, exHigh, exLow, Nat.reduceSub]; rfl)
    (congrArg some (by
      simp (disch := decide) only [pfxOf, Pfx.bits, exHigh, exLow, exAll, bitHigh, bitLow, bitOf, Nat.reduceSub]))
    (Nat.and_zero _)
theorem Encoding.vfma (u : Pfx) (t : BitVec 3) (d a b : BitVec 5) (f o : Bool) : Encoding.Statement (.vfma u t d a b f o) :=
  decodeWord_ok 3 0 0 rfl (by simp (disch := decide) only [opcOf, exHigh, exLow, Nat.reduceSub]; rfl)
    (congrArg some (by
      simp (disch := decide) only [pfxOf, Pfx.bits, exHigh, exLow, exAll, bitHigh, bitLow, bitOf, Nat.reduceSub]))
    (Nat.and_zero _)
theorem Encoding.vfms (u : Pfx) (t : BitVec 3) (d a b : BitVec 5) (f o : Bool) : Encoding.Statement (.vfms u t d a b f o) :=
  decodeWord_ok 4 0 0 rfl (by simp (disch := decide) only [opcOf, exHigh, exLow, Nat.reduceSub]; rfl)
    (congrArg some (by
      simp (disch := decide) only [pfxOf, Pfx.bits, exHigh, exLow, exAll, bitHigh, bitLow, bitOf, Nat.reduceSub]))
    (Nat.and_zero _)
theorem Encoding.vdiv (u : Pfx) (t : BitVec 3) (d a b : BitVec 5) (f o : Bool) : Encoding.Statement (.vdiv u t d a b f o) :=
  decodeWord_ok 5 0 0 rfl (by simp (disch := decide) only [opcOf, exHigh, exLow, Nat.reduceSub]; rfl)
    (congrArg some (by
      simp (disch := decide) only [pfxOf, Pfx.bits, exHigh, exLow, exAll, bitHigh, bitLow, bitOf, Nat.reduceSub]))
    (Nat.and_zero _)
theorem Encoding.vsqrt (u : Pfx) (t : BitVec 3) (d a : BitVec 5) (f o : Bool) : Encoding.Statement (.vsqrt u t d a f o) :=
  decodeWord_ok 6 124 0 rfl (by simp (disch := decide) only [opcOf, exHigh, exLow, Nat.reduceSub]; rfl)
    (congrArg some (by
      simp (disch := decide) only [pfxOf, Pfx.bits, exHigh, exLow, exAll, bitHigh, bitLow, bitOf, Nat.reduceSub]))
    (by
      simp only [andApp, Nat.reduceDiv, Nat.reduceMod, Nat.reducePow, Nat.and_zero]; rfl)
theorem Encoding.vmin (u : Pfx) (t : BitVec 3) (d a b : BitVec 5) (f : Bool) : Encoding.Statement (.vmin u t d a b f) :=
  decodeWord_ok 7 1 0 rfl (by simp (disch := decide) only [opcOf, exHigh, exLow, Nat.reduceSub]; rfl)
    (congrArg some (by
      simp (disch := decide) only [pfxOf, Pfx.bits, exHigh, exLow, exAll, bitHigh, bitLow, bitOf, Nat.reduceSub]))
    (by
      simp only [andApp, Nat.reduceDiv, Nat.reduceMod, Nat.reducePow, Nat.and_zero]; rfl)
theorem Encoding.vmax (u : Pfx) (t : BitVec 3) (d a b : BitVec 5) (f : Bool) : Encoding.Statement (.vmax u t d a b f) :=
  decodeWord_ok 8 1 0 rfl (by simp (disch := decide) only [opcOf, exHigh, exLow, Nat.reduceSub]; rfl)
    (congrArg some (by
      simp (disch := decide) only [pfxOf, Pfx.bits, exHigh, exLow, exAll, bitHigh, bitLow, bitOf, Nat.reduceSub]))
    (by
      simp only [andApp, Nat.reduceDiv, Nat.reduceMod, Nat.reducePow, Nat.and_zero]; rfl)
theorem Encoding.vabs (u : Pfx) (t : BitVec 3) (d a : BitVec 5) (o : Bool) : Encoding.Statement (.vabs u t d a o) :=
  decodeWord_ok 9 126 0 rfl (by simp (disch := decide) only [opcOf, exHigh, exLow, Nat.reduceSub]; rfl)
    (congrArg some (by
      simp (disch := decide) only [pfxOf, Pfx.bits, exHigh, exLow, exAll, bitHigh, bitLow, bitOf, Nat.reduceSub]))
    (by
      simp only [andApp, Nat.reduceDiv, Nat.reduceMod, Nat.reducePow, Nat.and_zero]; rfl)
theorem Encoding.vneg (u : Pfx) (t : BitVec 3) (d a : BitVec 5) (o : Bool) : Encoding.Statement (.vneg u t d a o) :=
  decodeWord_ok 10 126 0 rfl (by simp (disch := decide) only [opcOf, exHigh, exLow, Nat.reduceSub]; rfl)
    (congrArg some (by
      simp (disch := decide) only [pfxOf, Pfx.bits, exHigh, exLow, exAll, bitHigh, bitLow, bitOf, Nat.reduceSub]))
    (by
      simp only [andApp, Nat.reduceDiv, Nat.reduceMod, Nat.reducePow, Nat.and_zero]; rfl)
theorem Encoding.vrcp (u : Pfx) (t : BitVec 3) (d a : BitVec 5) (f o : Bool) : Encoding.Statement (.vrcp u t d a f o) :=
  decodeWord_ok 11 124 0 rfl (by simp (disch := decide) only [opcOf, exHigh, exLow, Nat.reduceSub]; rfl)
    (congrArg some (by
      simp (disch := decide) only [pfxOf, Pfx.bits, exHigh, exLow, exAll, bitHigh, bitLow, bitOf, Nat.reduceSub]))
    (by
      simp only [andApp, Nat.reduceDiv, Nat.reduceMod, Nat.reducePow, Nat.and_zero]; rfl)
theorem Encoding.vrsq (u : Pfx) (t : BitVec 3) (d a : BitVec 5) (f o : Bool) : Encoding.Statement (.vrsq u t d a f o) :=
  decodeWord_ok 12 124 0 rfl (by simp (disch := decide) only [opcOf, exHigh, exLow, Nat.reduceSub]; rfl)
    (congrArg some (by
      simp (disch := decide) only [pfxOf, Pfx.bits, exHigh, exLow, exAll, bitHigh, bitLow, bitOf, Nat.reduceSub]))
    (by
      simp only [andApp, Nat.reduceDiv, Nat.reduceMod, Nat.reducePow, Nat.and_zero]; rfl)
theorem Encoding.vexp2 (u : Pfx) (t : BitVec 3) (d a : BitVec 5) (f o : Bool) : Encoding.Statement (.vexp2 u t d a f o) :=
  decodeWord_ok 13 124 0 rfl (by simp (disch := decide) only [opcOf, exHigh, exLow, Nat.reduceSub]; rfl)
    (congrArg some (by
      simp (disch := decide) only [pfxOf, Pfx.bits, exHigh, exLow, exAll, bitHigh, bitLow, bitOf, Nat.reduceSub]))
    (by
      simp only [andApp, Nat.reduceDiv, Nat.reduceMod, Nat.reducePow, Nat.and_zero]; rfl)
theorem Encoding.vlog2 (u : Pfx) (t : BitVec 3) (d a : BitVec 5) (f o : Bool) : Encoding.Statement (.vlog2 u t d a f o) :=
  decodeWord_ok 14 124 0 rfl (by simp (disch := decide) only [opcOf, exHigh, exLow, Nat.reduceSub]; rfl)
    (congrArg some (by
      simp (disch := decide) only [pfxOf, Pfx.bits, exHigh, exLow, exAll, bitHigh, bitLow, bitOf, Nat.reduceSub]))
    (by
      simp only [andApp, Nat.reduceDiv, Nat.reduceMod, Nat.reducePow, Nat.and_zero]; rfl)
theorem Encoding.vsel (u : Pfx) (c : BitVec 4) (w : Bool) (d a b : BitVec 5) : Encoding.Statement (.vsel u c w d a b) :=
  decodeWord_ok 15 0 0 rfl (by simp (disch := decide) only [opcOf, exHigh, exLow, Nat.reduceSub]; rfl)
    (congrArg some (by
      simp (disch := decide) only [pfxOf, Pfx.bits, exHigh, exLow, exAll, bitHigh, bitLow, bitOf, Nat.reduceSub]))
    (Nat.and_zero _)
theorem Encoding.vand (u : Pfx) (t : BitVec 3) (d a b : BitVec 5) : Encoding.Statement (.vand u t d a b) :=
  decodeWord_ok 16 3 0 rfl (by simp (disch := decide) only [opcOf, exHigh, exLow, Nat.reduceSub]; rfl)
    (congrArg some (by
      simp (disch := decide) only [pfxOf, Pfx.bits, exHigh, exLow, exAll, bitHigh, bitLow, bitOf, Nat.reduceSub]))
    (by
      simp only [andApp, Nat.reduceDiv, Nat.reduceMod, Nat.reducePow, Nat.and_zero]; rfl)
theorem Encoding.vor (u : Pfx) (t : BitVec 3) (d a b : BitVec 5) : Encoding.Statement (.vor u t d a b) :=
  decodeWord_ok 17 3 0 rfl (by simp (disch := decide) only [opcOf, exHigh, exLow, Nat.reduceSub]; rfl)
    (congrArg some (by
      simp (disch := decide) only [pfxOf, Pfx.bits, exHigh, exLow, exAll, bitHigh, bitLow, bitOf, Nat.reduceSub]))
    (by
      simp only [andApp, Nat.reduceDiv, Nat.reduceMod, Nat.reducePow, Nat.and_zero]; rfl)
theorem Encoding.vxor (u : Pfx) (t : BitVec 3) (d a b : BitVec 5) : Encoding.Statement (.vxor u t d a b) :=
  decodeWord_ok 18 3 0 rfl (by simp (disch := decide) only [opcOf, exHigh, exLow, Nat.reduceSub]; rfl)
    (congrArg some (by
      simp (disch := decide) only [pfxOf, Pfx.bits, exHigh, exLow, exAll, bitHigh, bitLow, bitOf, Nat.reduceSub]))
    (by
      simp only [andApp, Nat.reduceDiv, Nat.reduceMod, Nat.reducePow, Nat.and_zero]; rfl)
theorem Encoding.vnot (u : Pfx) (t : BitVec 3) (d a : BitVec 5) : Encoding.Statement (.vnot u t d a) :=
  decodeWord_ok 19 127 0 rfl (by simp (disch := decide) only [opcOf, exHigh, exLow, Nat.reduceSub]; rfl)
    (congrArg some (by
      simp (disch := decide) only [pfxOf, Pfx.bits, exHigh, exLow, exAll, bitHigh, bitLow, bitOf, Nat.reduceSub]))
    (by
      simp only [andApp, Nat.reduceDiv, Nat.reduceMod, Nat.reducePow, Nat.and_zero]; rfl)
theorem Encoding.vshl (u : Pfx) (t : BitVec 3) (d a b : BitVec 5) : Encoding.Statement (.vshl u t d a b) :=
  decodeWord_ok 20 3 0 rfl (by simp (disch := decide) only [opcOf, exHigh, exLow, Nat.reduceSub]; rfl)
    (congrArg some (by
      simp (disch := decide) only [pfxOf, Pfx.bits, exHigh, exLow, exAll, bitHigh, bitLow, bitOf, Nat.reduceSub]))
    (by
      simp only [andApp, Nat.reduceDiv, Nat.reduceMod, Nat.reducePow, Nat.and_zero]; rfl)
theorem Encoding.vshr (u : Pfx) (t : BitVec 3) (d a b : BitVec 5) : Encoding.Statement (.vshr u t d a b) :=
  decodeWord_ok 21 3 0 rfl (by simp (disch := decide) only [opcOf, exHigh, exLow, Nat.reduceSub]; rfl)
    (congrArg some (by
      simp (disch := decide) only [pfxOf, Pfx.bits, exHigh, exLow, exAll, bitHigh, bitLow, bitOf, Nat.reduceSub]))
    (by
      simp only [andApp, Nat.reduceDiv, Nat.reduceMod, Nat.reducePow, Nat.and_zero]; rfl)
theorem Encoding.vashr (u : Pfx) (t : BitVec 3) (d a b : BitVec 5) : Encoding.Statement (.vashr u t d a b) :=
  decodeWord_ok 22 3 0 rfl (by simp (disch := decide) only [opcOf, exHigh, exLow, Nat.reduceSub]; rfl)
    (congrArg some (by
      simp (disch := decide) only [pfxOf, Pfx.bits, exHigh, exLow, exAll, bitHigh, bitLow, bitOf, Nat.reduceSub]))
    (by
      simp only [andApp, Nat.reduceDiv, Nat.reduceMod, Nat.reducePow, Nat.and_zero]; rfl)
theorem Encoding.vscn (u : Pfx) (t : BitVec 3) (d a b : BitVec 5) (f o : Bool) : Encoding.Statement (.vscn u t d a b f o) :=
  decodeWord_ok 23 0 0 rfl (by simp (disch := decide) only [opcOf, exHigh, exLow, Nat.reduceSub]; rfl)
    (congrArg some (by
      simp (disch := decide) only [pfxOf, Pfx.bits, exHigh, exLow, exAll, bitHigh, bitLow, bitOf, Nat.reduceSub]))
    (Nat.and_zero _)
theorem Encoding.vcmpeq (u : Pfx) (t : BitVec 3) (p : BitVec 4) (a b : BitVec 5) (f : Bool) : Encoding.Statement (.vcmpeq u t p a b f) :=
  decodeWord_ok 24 4097 0 rfl (by simp (disch := decide) only [opcOf, exHigh, exLow, Nat.reduceSub]; rfl)
    (congrArg some (by
      simp (disch := decide) only [pfxOf, Pfx.bits, exHigh, exLow, exAll, bitHigh, bitLow, bitOf, Nat.reduceSub]))
    (by
      simp only [andApp, Nat.reduceDiv, Nat.reduceMod, Nat.reducePow, Nat.and_zero]; rfl)
theorem Encoding.vcmpne (u : Pfx) (t : BitVec 3) (p : BitVec 4) (a b : BitVec 5) (f : Bool) : Encoding.Statement (.vcmpne u t p a b f) :=
  decodeWord_ok 25 4097 0 rfl (by simp (disch := decide) only [opcOf, exHigh, exLow, Nat.reduceSub]; rfl)
    (congrArg some (by
      simp (disch := decide) only [pfxOf, Pfx.bits, exHigh, exLow, exAll, bitHigh, bitLow, bitOf, Nat.reduceSub]))
    (by
      simp only [andApp, Nat.reduceDiv, Nat.reduceMod, Nat.reducePow, Nat.and_zero]; rfl)
theorem Encoding.vcmplt (u : Pfx) (t : BitVec 3) (p : BitVec 4) (a b : BitVec 5) (f : Bool) : Encoding.Statement (.vcmplt u t p a b f) :=
  decodeWord_ok 26 4097 0 rfl (by simp (disch := decide) only [opcOf, exHigh, exLow, Nat.reduceSub]; rfl)
    (congrArg some (by
      simp (disch := decide) only [pfxOf, Pfx.bits, exHigh, exLow, exAll, bitHigh, bitLow, bitOf, Nat.reduceSub]))
    (by
      simp only [andApp, Nat.reduceDiv, Nat.reduceMod, Nat.reducePow, Nat.and_zero]; rfl)
theorem Encoding.vcmple (u : Pfx) (t : BitVec 3) (p : BitVec 4) (a b : BitVec 5) (f : Bool) : Encoding.Statement (.vcmple u t p a b f) :=
  decodeWord_ok 27 4097 0 rfl (by simp (disch := decide) only [opcOf, exHigh, exLow, Nat.reduceSub]; rfl)
    (congrArg some (by
      simp (disch := decide) only [pfxOf, Pfx.bits, exHigh, exLow, exAll, bitHigh, bitLow, bitOf, Nat.reduceSub]))
    (by
      simp only [andApp, Nat.reduceDiv, Nat.reduceMod, Nat.reducePow, Nat.and_zero]; rfl)
theorem Encoding.vcmpun (u : Pfx) (t : BitVec 3) (p : BitVec 4) (a b : BitVec 5) (f : Bool) : Encoding.Statement (.vcmpun u t p a b f) :=
  decodeWord_ok 28 4097 0 rfl (by simp (disch := decide) only [opcOf, exHigh, exLow, Nat.reduceSub]; rfl)
    (congrArg some (by
      simp (disch := decide) only [pfxOf, Pfx.bits, exHigh, exLow, exAll, bitHigh, bitLow, bitOf, Nat.reduceSub]))
    (by
      simp only [andApp, Nat.reduceDiv, Nat.reduceMod, Nat.reducePow, Nat.and_zero]; rfl)
theorem Encoding.vcvt (u : Pfx) (t : BitVec 3) (d a : BitVec 5) (s : BitVec 3) (r : BitVec 2) (f o : Bool) : Encoding.Statement (.vcvt u t d a s r f o) :=
  decodeWord_ok 29 0 0 rfl (by simp (disch := decide) only [opcOf, exHigh, exLow, Nat.reduceSub]; rfl)
    (congrArg some (by
      simp (disch := decide) only [pfxOf, Pfx.bits, exHigh, exLow, exAll, bitHigh, bitLow, bitOf, Nat.reduceSub]))
    (Nat.and_zero _)
theorem Encoding.vcvtd (u : Pfx) (t : BitVec 3) (d a : BitVec 5) (s : BitVec 3) (f o : Bool) : Encoding.Statement (.vcvtd u t d a s f o) :=
  decodeWord_ok 30 12 0 rfl (by simp (disch := decide) only [opcOf, exHigh, exLow, Nat.reduceSub]; rfl)
    (congrArg some (by
      simp (disch := decide) only [pfxOf, Pfx.bits, exHigh, exLow, exAll, bitHigh, bitLow, bitOf, Nat.reduceSub]))
    (by
      simp only [andApp, Nat.reduceDiv, Nat.reduceMod, Nat.reducePow, Nat.and_zero]; rfl)
theorem Encoding.vperm (u : Pfx) (t : BitVec 3) (d a b : BitVec 5) : Encoding.Statement (.vperm u t d a b) :=
  decodeWord_ok 31 3 0 rfl (by simp (disch := decide) only [opcOf, exHigh, exLow, Nat.reduceSub]; rfl)
    (congrArg some (by
      simp (disch := decide) only [pfxOf, Pfx.bits, exHigh, exLow, exAll, bitHigh, bitLow, bitOf, Nat.reduceSub]))
    (by
      simp only [andApp, Nat.reduceDiv, Nat.reduceMod, Nat.reducePow, Nat.and_zero]; rfl)
theorem Encoding.vbcast (u : Pfx) (t : BitVec 3) (d a l : BitVec 5) : Encoding.Statement (.vbcast u t d a l) :=
  decodeWord_ok 32 3 0 rfl (by simp (disch := decide) only [opcOf, exHigh, exLow, Nat.reduceSub]; rfl)
    (congrArg some (by
      simp (disch := decide) only [pfxOf, Pfx.bits, exHigh, exLow, exAll, bitHigh, bitLow, bitOf, Nat.reduceSub]))
    (by
      simp only [andApp, Nat.reduceDiv, Nat.reduceMod, Nat.reducePow, Nat.and_zero]; rfl)
theorem Encoding.vredadd (u : Pfx) (t : BitVec 3) (d a : BitVec 5) (f o : Bool) : Encoding.Statement (.vredadd u t d a f o) :=
  decodeWord_ok 33 124 0 rfl (by simp (disch := decide) only [opcOf, exHigh, exLow, Nat.reduceSub]; rfl)
    (congrArg some (by
      simp (disch := decide) only [pfxOf, Pfx.bits, exHigh, exLow, exAll, bitHigh, bitLow, bitOf, Nat.reduceSub]))
    (by
      simp only [andApp, Nat.reduceDiv, Nat.reduceMod, Nat.reducePow, Nat.and_zero]; rfl)
theorem Encoding.vredmax (u : Pfx) (t : BitVec 3) (d a : BitVec 5) (f : Bool) : Encoding.Statement (.vredmax u t d a f) :=
  decodeWord_ok 34 125 0 rfl (by simp (disch := decide) only [opcOf, exHigh, exLow, Nat.reduceSub]; rfl)
    (congrArg some (by
      simp (disch := decide) only [pfxOf, Pfx.bits, exHigh, exLow, exAll, bitHigh, bitLow, bitOf, Nat.reduceSub]))
    (by
      simp only [andApp, Nat.reduceDiv, Nat.reduceMod, Nat.reducePow, Nat.and_zero]; rfl)
theorem Encoding.vredmin (u : Pfx) (t : BitVec 3) (d a : BitVec 5) (f : Bool) : Encoding.Statement (.vredmin u t d a f) :=
  decodeWord_ok 35 125 0 rfl (by simp (disch := decide) only [opcOf, exHigh, exLow, Nat.reduceSub]; rfl)
    (congrArg some (by
      simp (disch := decide) only [pfxOf, Pfx.bits, exHigh, exLow, exAll, bitHigh, bitLow, bitOf, Nat.reduceSub]))
    (by
      simp only [andApp, Nat.reduceDiv, Nat.reduceMod, Nat.reducePow, Nat.and_zero]; rfl)
theorem Encoding.vpopq (u : Pfx) (d : BitVec 5) (q : BitVec 2) : Encoding.Statement (.vpopq u d q) :=
  decodeWord_ok 36 918527 0 rfl (by simp (disch := decide) only [opcOf, exHigh, exLow, Nat.reduceSub]; rfl)
    (congrArg some (by
      simp (disch := decide) only [pfxOf, Pfx.bits, exHigh, exLow, exAll, bitHigh, bitLow, bitOf, Nat.reduceSub]))
    (by
      simp only [andApp, Nat.reduceDiv, Nat.reduceMod, Nat.reducePow, Nat.and_zero]; rfl)
theorem Encoding.vpopl (u : Pfx) (d : BitVec 5) (l : BitVec 3) : Encoding.Statement (.vpopl u d l) :=
  decodeWord_ok 37 920703 0 rfl (by simp (disch := decide) only [opcOf, exHigh, exLow, Nat.reduceSub]; rfl)
    (congrArg some (by
      simp (disch := decide) only [pfxOf, Pfx.bits, exHigh, exLow, exAll, bitHigh, bitLow, bitOf, Nat.reduceSub]))
    (by
      simp only [andApp, Nat.reduceDiv, Nat.reduceMod, Nat.reducePow, Nat.and_zero]; rfl)
theorem Encoding.vrng (u : Pfx) (t : BitVec 3) (d a : BitVec 5) : Encoding.Statement (.vrng u t d a) :=
  decodeWord_ok 38 127 0 rfl (by simp (disch := decide) only [opcOf, exHigh, exLow, Nat.reduceSub]; rfl)
    (congrArg some (by
      simp (disch := decide) only [pfxOf, Pfx.bits, exHigh, exLow, exAll, bitHigh, bitLow, bitOf, Nat.reduceSub]))
    (by
      simp only [andApp, Nat.reduceDiv, Nat.reduceMod, Nat.reducePow, Nat.and_zero]; rfl)
theorem Encoding.prune (u : Pfx) (d a b : BitVec 5) (k : BitVec 2) : Encoding.Statement (.prune u d a b k) :=
  decodeWord_ok 39 917504 0 rfl (by simp (disch := decide) only [opcOf, exHigh, exLow, Nat.reduceSub]; rfl)
    (congrArg some (by
      simp (disch := decide) only [pfxOf, Pfx.bits, exHigh, exLow, exAll, bitHigh, bitLow, bitOf, Nat.reduceSub]))
    (by
      simp only [andApp, Nat.reduceDiv, Nat.reduceMod, Nat.reducePow, Nat.and_zero]; rfl)
theorem Encoding.topk (u : Pfx) (t : BitVec 3) (d a b : BitVec 5) : Encoding.Statement (.topk u t d a b) :=
  decodeWord_ok 40 3 0 rfl (by simp (disch := decide) only [opcOf, exHigh, exLow, Nat.reduceSub]; rfl)
    (congrArg some (by
      simp (disch := decide) only [pfxOf, Pfx.bits, exHigh, exLow, exAll, bitHigh, bitLow, bitOf, Nat.reduceSub]))
    (by
      simp only [andApp, Nat.reduceDiv, Nat.reduceMod, Nat.reducePow, Nat.and_zero]; rfl)
theorem Encoding.qnt (u : Pfx) (d a b : BitVec 5) (f : Bool) : Encoding.Statement (.qnt u d a b f) :=
  decodeWord_ok 41 917505 0 rfl (by simp (disch := decide) only [opcOf, exHigh, exLow, Nat.reduceSub]; rfl)
    (congrArg some (by
      simp (disch := decide) only [pfxOf, Pfx.bits, exHigh, exLow, exAll, bitHigh, bitLow, bitOf, Nat.reduceSub]))
    (by
      simp only [andApp, Nat.reduceDiv, Nat.reduceMod, Nat.reducePow, Nat.and_zero]; rfl)
theorem Encoding.dq (u : Pfx) (d a b : BitVec 5) (o : Bool) : Encoding.Statement (.dq u d a b o) :=
  decodeWord_ok 42 917506 0 rfl (by simp (disch := decide) only [opcOf, exHigh, exLow, Nat.reduceSub]; rfl)
    (congrArg some (by
      simp (disch := decide) only [pfxOf, Pfx.bits, exHigh, exLow, exAll, bitHigh, bitLow, bitOf, Nat.reduceSub]))
    (by
      simp only [andApp, Nat.reduceDiv, Nat.reduceMod, Nat.reducePow, Nat.and_zero]; rfl)
theorem Encoding.spenc (u : Pfx) (t : BitVec 3) (d a : BitVec 5) (k : BitVec 2) : Encoding.Statement (.spenc u t d a k) :=
  decodeWord_ok 43 124 0 rfl (by simp (disch := decide) only [opcOf, exHigh, exLow, Nat.reduceSub]; rfl)
    (congrArg some (by
      simp (disch := decide) only [pfxOf, Pfx.bits, exHigh, exLow, exAll, bitHigh, bitLow, bitOf, Nat.reduceSub]))
    (by
      simp only [andApp, Nat.reduceDiv, Nat.reduceMod, Nat.reducePow, Nat.and_zero]; rfl)
theorem Encoding.spdec (u : Pfx) (t : BitVec 3) (d a : BitVec 5) (k : BitVec 2) : Encoding.Statement (.spdec u t d a k) :=
  decodeWord_ok 44 124 0 rfl (by simp (disch := decide) only [opcOf, exHigh, exLow, Nat.reduceSub]; rfl)
    (congrArg some (by
      simp (disch := decide) only [pfxOf, Pfx.bits, exHigh, exLow, exAll, bitHigh, bitLow, bitOf, Nat.reduceSub]))
    (by
      simp only [andApp, Nat.reduceDiv, Nat.reduceMod, Nat.reducePow, Nat.and_zero]; rfl)
theorem Encoding.vmvs (u : Pfx) (s : BitVec 6) (v l : BitVec 5) : Encoding.Statement (.vmvs u s v l) :=
  decodeWord_ok 45 15 0 rfl (by simp (disch := decide) only [opcOf, exHigh, exLow, Nat.reduceSub]; rfl)
    (congrArg some (by
      simp (disch := decide) only [pfxOf, Pfx.bits, exHigh, exLow, exAll, bitHigh, bitLow, bitOf, Nat.reduceSub]))
    (by
      simp only [andApp, Nat.reduceDiv, Nat.reduceMod, Nat.reducePow, Nat.and_zero]; rfl)
theorem Encoding.vmsv (u : Pfx) (s : BitVec 6) (v l : BitVec 5) : Encoding.Statement (.vmsv u s v l) :=
  decodeWord_ok 46 15 0 rfl (by simp (disch := decide) only [opcOf, exHigh, exLow, Nat.reduceSub]; rfl)
    (congrArg some (by
      simp (disch := decide) only [pfxOf, Pfx.bits, exHigh, exLow, exAll, bitHigh, bitLow, bitOf, Nat.reduceSub]))
    (by
      simp only [andApp, Nat.reduceDiv, Nat.reduceMod, Nat.reducePow, Nat.and_zero]; rfl)
theorem Encoding.vmoviI32 (u : Pfx) (m : Bool) (d : BitVec 5) (i : BitVec 15) : Encoding.Statement (.vmoviI32 u m d i) := by
  have h : pfxOf (u.bits ++ 24#5 ++ BitVec.ofBool m ++ d ++ i) = u ∧
      (u.bits ++ 24#5 ++ BitVec.ofBool m ++ d ++ i : Word).getLsbD 20 = m ∧
      BitVec.extractLsb' 15 5 (u.bits ++ 24#5 ++ BitVec.ofBool m ++ d ++ i : Word) = d ∧
      BitVec.extractLsb' 0 15 (u.bits ++ 24#5 ++ BitVec.ofBool m ++ d ++ i : Word) = i := by
    simp (disch := decide) only [pfxOf, Pfx.bits, exHigh, exLow, exAll, bitHigh, bitLow, bitOf, Nat.reduceSub, true_and]
  have ho := opcOf_wide u.bits 24#5 m d i
  show decodeWord .v (u.bits ++ 24#5 ++ BitVec.ofBool m ++ d ++ i) = .ok (.vmoviI32 u m d i)
  generalize (u.bits ++ 24#5 ++ BitVec.ofBool m ++ d ++ i : Word) = w at h ho ⊢
  obtain ⟨rfl, rfl, rfl, rfl⟩ := h
  generalize hm : w.getLsbD 20 = m at ho ⊢
  cases m
  · exact decodeWord_ok 48 0 0 rfl ho (congrArg some (by rw [hm])) (Nat.and_zero _)
  · exact decodeWord_ok 49 0 0 rfl ho (congrArg some (by rw [hm])) (Nat.and_zero _)
theorem Encoding.vmoviI64 (u : Pfx) (m : Bool) (d : BitVec 5) (i : BitVec 15) : Encoding.Statement (.vmoviI64 u m d i) := by
  have h : pfxOf (u.bits ++ 25#5 ++ BitVec.ofBool m ++ d ++ i) = u ∧
      (u.bits ++ 25#5 ++ BitVec.ofBool m ++ d ++ i : Word).getLsbD 20 = m ∧
      BitVec.extractLsb' 15 5 (u.bits ++ 25#5 ++ BitVec.ofBool m ++ d ++ i : Word) = d ∧
      BitVec.extractLsb' 0 15 (u.bits ++ 25#5 ++ BitVec.ofBool m ++ d ++ i : Word) = i := by
    simp (disch := decide) only [pfxOf, Pfx.bits, exHigh, exLow, exAll, bitHigh, bitLow, bitOf, Nat.reduceSub, true_and]
  have ho := opcOf_wide u.bits 25#5 m d i
  show decodeWord .v (u.bits ++ 25#5 ++ BitVec.ofBool m ++ d ++ i) = .ok (.vmoviI64 u m d i)
  generalize (u.bits ++ 25#5 ++ BitVec.ofBool m ++ d ++ i : Word) = w at h ho ⊢
  obtain ⟨rfl, rfl, rfl, rfl⟩ := h
  generalize hm : w.getLsbD 20 = m at ho ⊢
  cases m
  · exact decodeWord_ok 50 0 0 rfl ho (congrArg some (by rw [hm])) (Nat.and_zero _)
  · exact decodeWord_ok 51 0 0 rfl ho (congrArg some (by rw [hm])) (Nat.and_zero _)
theorem Encoding.vmoviF32 (u : Pfx) (m : Bool) (d : BitVec 5) (i : BitVec 15) : Encoding.Statement (.vmoviF32 u m d i) := by
  have h : pfxOf (u.bits ++ 26#5 ++ BitVec.ofBool m ++ d ++ i) = u ∧
      (u.bits ++ 26#5 ++ BitVec.ofBool m ++ d ++ i : Word).getLsbD 20 = m ∧
      BitVec.extractLsb' 15 5 (u.bits ++ 26#5 ++ BitVec.ofBool m ++ d ++ i : Word) = d ∧
      BitVec.extractLsb' 0 15 (u.bits ++ 26#5 ++ BitVec.ofBool m ++ d ++ i : Word) = i := by
    simp (disch := decide) only [pfxOf, Pfx.bits, exHigh, exLow, exAll, bitHigh, bitLow, bitOf, Nat.reduceSub, true_and]
  have ho := opcOf_wide u.bits 26#5 m d i
  show decodeWord .v (u.bits ++ 26#5 ++ BitVec.ofBool m ++ d ++ i) = .ok (.vmoviF32 u m d i)
  generalize (u.bits ++ 26#5 ++ BitVec.ofBool m ++ d ++ i : Word) = w at h ho ⊢
  obtain ⟨rfl, rfl, rfl, rfl⟩ := h
  generalize hm : w.getLsbD 20 = m at ho ⊢
  cases m
  · exact decodeWord_ok 52 0 0 rfl ho (congrArg some (by rw [hm])) (Nat.and_zero _)
  · exact decodeWord_ok 53 0 0 rfl ho (congrArg some (by rw [hm])) (Nat.and_zero _)
theorem Encoding.vmoviF64 (u : Pfx) (m : Bool) (d : BitVec 5) (i : BitVec 15) : Encoding.Statement (.vmoviF64 u m d i) := by
  have h : pfxOf (u.bits ++ 27#5 ++ BitVec.ofBool m ++ d ++ i) = u ∧
      (u.bits ++ 27#5 ++ BitVec.ofBool m ++ d ++ i : Word).getLsbD 20 = m ∧
      BitVec.extractLsb' 15 5 (u.bits ++ 27#5 ++ BitVec.ofBool m ++ d ++ i : Word) = d ∧
      BitVec.extractLsb' 0 15 (u.bits ++ 27#5 ++ BitVec.ofBool m ++ d ++ i : Word) = i := by
    simp (disch := decide) only [pfxOf, Pfx.bits, exHigh, exLow, exAll, bitHigh, bitLow, bitOf, Nat.reduceSub, true_and]
  have ho := opcOf_wide u.bits 27#5 m d i
  show decodeWord .v (u.bits ++ 27#5 ++ BitVec.ofBool m ++ d ++ i) = .ok (.vmoviF64 u m d i)
  generalize (u.bits ++ 27#5 ++ BitVec.ofBool m ++ d ++ i : Word) = w at h ho ⊢
  obtain ⟨rfl, rfl, rfl, rfl⟩ := h
  generalize hm : w.getLsbD 20 = m at ho ⊢
  cases m
  · exact decodeWord_ok 54 0 0 rfl ho (congrArg some (by rw [hm])) (Nat.and_zero _)
  · exact decodeWord_ok 55 0 0 rfl ho (congrArg some (by rw [hm])) (Nat.and_zero _)
theorem Encoding.vmoviF16 (u : Pfx) (m : Bool) (d : BitVec 5) (i : BitVec 15) : Encoding.Statement (.vmoviF16 u m d i) := by
  have h : pfxOf (u.bits ++ 28#5 ++ BitVec.ofBool m ++ d ++ i) = u ∧
      (u.bits ++ 28#5 ++ BitVec.ofBool m ++ d ++ i : Word).getLsbD 20 = m ∧
      BitVec.extractLsb' 15 5 (u.bits ++ 28#5 ++ BitVec.ofBool m ++ d ++ i : Word) = d ∧
      BitVec.extractLsb' 0 15 (u.bits ++ 28#5 ++ BitVec.ofBool m ++ d ++ i : Word) = i := by
    simp (disch := decide) only [pfxOf, Pfx.bits, exHigh, exLow, exAll, bitHigh, bitLow, bitOf, Nat.reduceSub, true_and]
  have ho := opcOf_wide u.bits 28#5 m d i
  show decodeWord .v (u.bits ++ 28#5 ++ BitVec.ofBool m ++ d ++ i) = .ok (.vmoviF16 u m d i)
  generalize (u.bits ++ 28#5 ++ BitVec.ofBool m ++ d ++ i : Word) = w at h ho ⊢
  obtain ⟨rfl, rfl, rfl, rfl⟩ := h
  generalize hm : w.getLsbD 20 = m at ho ⊢
  cases m
  · exact decodeWord_ok 56 0 0 rfl ho (congrArg some (by rw [hm])) (Nat.and_zero _)
  · exact decodeWord_ok 57 0 0 rfl ho (congrArg some (by rw [hm])) (Nat.and_zero _)
theorem Encoding.vmoviBf16 (u : Pfx) (m : Bool) (d : BitVec 5) (i : BitVec 15) : Encoding.Statement (.vmoviBf16 u m d i) := by
  have h : pfxOf (u.bits ++ 29#5 ++ BitVec.ofBool m ++ d ++ i) = u ∧
      (u.bits ++ 29#5 ++ BitVec.ofBool m ++ d ++ i : Word).getLsbD 20 = m ∧
      BitVec.extractLsb' 15 5 (u.bits ++ 29#5 ++ BitVec.ofBool m ++ d ++ i : Word) = d ∧
      BitVec.extractLsb' 0 15 (u.bits ++ 29#5 ++ BitVec.ofBool m ++ d ++ i : Word) = i := by
    simp (disch := decide) only [pfxOf, Pfx.bits, exHigh, exLow, exAll, bitHigh, bitLow, bitOf, Nat.reduceSub, true_and]
  have ho := opcOf_wide u.bits 29#5 m d i
  show decodeWord .v (u.bits ++ 29#5 ++ BitVec.ofBool m ++ d ++ i) = .ok (.vmoviBf16 u m d i)
  generalize (u.bits ++ 29#5 ++ BitVec.ofBool m ++ d ++ i : Word) = w at h ho ⊢
  obtain ⟨rfl, rfl, rfl, rfl⟩ := h
  generalize hm : w.getLsbD 20 = m at ho ⊢
  cases m
  · exact decodeWord_ok 58 0 0 rfl ho (congrArg some (by rw [hm])) (Nat.and_zero _)
  · exact decodeWord_ok 59 0 0 rfl ho (congrArg some (by rw [hm])) (Nat.and_zero _)
theorem Encoding.vmoviH8 (u : Pfx) (m : Bool) (d : BitVec 5) (i : BitVec 15) : Encoding.Statement (.vmoviH8 u m d i) := by
  have h : pfxOf (u.bits ++ 30#5 ++ BitVec.ofBool m ++ d ++ i) = u ∧
      (u.bits ++ 30#5 ++ BitVec.ofBool m ++ d ++ i : Word).getLsbD 20 = m ∧
      BitVec.extractLsb' 15 5 (u.bits ++ 30#5 ++ BitVec.ofBool m ++ d ++ i : Word) = d ∧
      BitVec.extractLsb' 0 15 (u.bits ++ 30#5 ++ BitVec.ofBool m ++ d ++ i : Word) = i := by
    simp (disch := decide) only [pfxOf, Pfx.bits, exHigh, exLow, exAll, bitHigh, bitLow, bitOf, Nat.reduceSub, true_and]
  have ho := opcOf_wide u.bits 30#5 m d i
  show decodeWord .v (u.bits ++ 30#5 ++ BitVec.ofBool m ++ d ++ i) = .ok (.vmoviH8 u m d i)
  generalize (u.bits ++ 30#5 ++ BitVec.ofBool m ++ d ++ i : Word) = w at h ho ⊢
  obtain ⟨rfl, rfl, rfl, rfl⟩ := h
  generalize hm : w.getLsbD 20 = m at ho ⊢
  cases m
  · exact decodeWord_ok 60 0 0 rfl ho (congrArg some (by rw [hm])) (Nat.and_zero _)
  · exact decodeWord_ok 61 0 0 rfl ho (congrArg some (by rw [hm])) (Nat.and_zero _)
theorem Encoding.mma (u : Pfx) (p : BitVec 4) (k : BitVec 3) (a b : BitVec 4) (z s f o : Bool) : Encoding.Statement (.mma u p k a b z s f o) :=
  decodeWord_ok 0 1 0 rfl (by simp (disch := decide) only [opcOf, exHigh, exLow, Nat.reduceSub]; rfl)
    (congrArg some (by
      simp (disch := decide) only [pfxOf, Pfx.bits, exHigh, exLow, exAll, bitHigh, bitLow, bitOf, Nat.reduceSub]))
    (by
      simp only [andApp, Nat.reduceDiv, Nat.reduceMod, Nat.reducePow, Nat.and_zero]; rfl)
theorem Encoding.mmaS (u : Pfx) (p : BitVec 4) (k : BitVec 3) (a b : BitVec 4) (z s f o : Bool) : Encoding.Statement (.mmaS u p k a b z s f o) :=
  decodeWord_ok 1 1 0 rfl (by simp (disch := decide) only [opcOf, exHigh, exLow, Nat.reduceSub]; rfl)
    (congrArg some (by
      simp (disch := decide) only [pfxOf, Pfx.bits, exHigh, exLow, exAll, bitHigh, bitLow, bitOf, Nat.reduceSub]))
    (by
      simp only [andApp, Nat.reduceDiv, Nat.reduceMod, Nat.reducePow, Nat.and_zero]; rfl)
theorem Encoding.mmaK4 (u : Pfx) (k : BitVec 3) (a b : BitVec 4) (m : MulMode) : Encoding.Statement (.mmaK4 u k a b m) :=
  decodeWord_ok 2 1 0 rfl (by simp (disch := decide) only [opcOf, exHigh, exLow, Nat.reduceSub]; rfl)
    (congrArg some (by
      simp (disch := decide) only [pfxOf, Pfx.bits, exHigh, exLow, exAll, bitHigh, bitLow, bitOf, Nat.reduceSub]))
    (by
      simp only [andApp, Nat.reduceDiv, Nat.reduceMod, Nat.reducePow, Nat.and_zero]; rfl)
theorem Encoding.trsm (u : Pfx) (k e : BitVec 3) (w : Bool) (l : BitVec 4) : Encoding.Statement (.trsm u k e w l) :=
  decodeWord_ok 3 983071 0 rfl (by simp (disch := decide) only [opcOf, exHigh, exLow, Nat.reduceSub]; rfl)
    (congrArg some (by
      simp (disch := decide) only [pfxOf, Pfx.bits, exHigh, exLow, exAll, bitHigh, bitLow, bitOf, Nat.reduceSub]))
    (by
      simp only [andApp, Nat.reduceDiv, Nat.reduceMod, Nat.reducePow, Nat.and_zero]; rfl)
theorem Encoding.getrf (u : Pfx) (k : BitVec 3) (w l : Bool) : Encoding.Statement (.getrf u k w l) :=
  decodeWord_ok 4 990687 0 rfl (by simp (disch := decide) only [opcOf, exHigh, exLow, Nat.reduceSub]; rfl)
    (congrArg some (by
      simp (disch := decide) only [pfxOf, Pfx.bits, exHigh, exLow, exAll, bitHigh, bitLow, bitOf, Nat.reduceSub]))
    (by
      simp only [andApp, Nat.reduceDiv, Nat.reduceMod, Nat.reducePow, Nat.and_zero]; rfl)
theorem Encoding.potrf (u : Pfx) (k : BitVec 3) (w l : Bool) : Encoding.Statement (.potrf u k w l) :=
  decodeWord_ok 5 990687 0 rfl (by simp (disch := decide) only [opcOf, exHigh, exLow, Nat.reduceSub]; rfl)
    (congrArg some (by
      simp (disch := decide) only [pfxOf, Pfx.bits, exHigh, exLow, exAll, bitHigh, bitLow, bitOf, Nat.reduceSub]))
    (by
      simp only [andApp, Nat.reduceDiv, Nat.reduceMod, Nat.reducePow, Nat.and_zero]; rfl)
theorem Encoding.givqr (u : Pfx) (k e : BitVec 3) (w : Bool) : Encoding.Statement (.givqr u k e w) :=
  decodeWord_ok 6 983551 0 rfl (by simp (disch := decide) only [opcOf, exHigh, exLow, Nat.reduceSub]; rfl)
    (congrArg some (by
      simp (disch := decide) only [pfxOf, Pfx.bits, exHigh, exLow, exAll, bitHigh, bitLow, bitOf, Nat.reduceSub]))
    (by
      simp only [andApp, Nat.reduceDiv, Nat.reduceMod, Nat.reducePow, Nat.and_zero]; rfl)
theorem Encoding.rotapp (u : Pfx) (k e : BitVec 3) (w l : Bool) : Encoding.Statement (.rotapp u k e w l) :=
  decodeWord_ok 7 983519 0 rfl (by simp (disch := decide) only [opcOf, exHigh, exLow, Nat.reduceSub]; rfl)
    (congrArg some (by
      simp (disch := decide) only [pfxOf, Pfx.bits, exHigh, exLow, exAll, bitHigh, bitLow, bitOf, Nat.reduceSub]))
    (by
      simp only [andApp, Nat.reduceDiv, Nat.reduceMod, Nat.reducePow, Nat.and_zero]; rfl)
theorem Encoding.accz (u : Pfx) (k : BitVec 3) : Encoding.Statement (.accz u k) :=
  decodeWord_ok 8 131071 0 rfl (by simp (disch := decide) only [opcOf, exHigh, exLow, Nat.reduceSub]; rfl)
    (congrArg some (by
      simp (disch := decide) only [pfxOf, Pfx.bits, exHigh, exLow, exAll, bitHigh, bitLow, bitOf, Nat.reduceSub]))
    (by
      simp only [andApp, Nat.reduceDiv, Nat.reduceMod, Nat.reducePow, Nat.and_zero]; rfl)
theorem Encoding.accld (u : Pfx) (k : BitVec 3) (d : BitVec 4) : Encoding.Statement (.accld u k d) :=
  decodeWord_ok 9 115711 0 rfl (by simp (disch := decide) only [opcOf, exHigh, exLow, Nat.reduceSub]; rfl)
    (congrArg some (by
      simp (disch := decide) only [pfxOf, Pfx.bits, exHigh, exLow, exAll, bitHigh, bitLow, bitOf, Nat.reduceSub]))
    (by
      simp only [andApp, Nat.reduceDiv, Nat.reduceMod, Nat.reducePow, Nat.and_zero]; rfl)
theorem Encoding.accst (u : Pfx) (a : BitVec 3) (d : BitVec 4) : Encoding.Statement (.accst u a d) :=
  decodeWord_ok 10 918527 0 rfl (by simp (disch := decide) only [opcOf, exHigh, exLow, Nat.reduceSub]; rfl)
    (congrArg some (by
      simp (disch := decide) only [pfxOf, Pfx.bits, exHigh, exLow, exAll, bitHigh, bitLow, bitOf, Nat.reduceSub]))
    (by
      simp only [andApp, Nat.reduceDiv, Nat.reduceMod, Nat.reducePow, Nat.and_zero]; rfl)
theorem Encoding.drain (u : Pfx) (a : BitVec 3) (q : BitVec 2) : Encoding.Statement (.drain u a q) :=
  decodeWord_ok 11 933119 0 rfl (by simp (disch := decide) only [opcOf, exHigh, exLow, Nat.reduceSub]; rfl)
    (congrArg some (by
      simp (disch := decide) only [pfxOf, Pfx.bits, exHigh, exLow, exAll, bitHigh, bitLow, bitOf, Nat.reduceSub]))
    (by
      simp only [andApp, Nat.reduceDiv, Nat.reduceMod, Nat.reducePow, Nat.and_zero]; rfl)
theorem Encoding.accmov (u : Pfx) (k a : BitVec 3) : Encoding.Statement (.accmov u k a) :=
  decodeWord_ok 12 16383 0 rfl (by simp (disch := decide) only [opcOf, exHigh, exLow, Nat.reduceSub]; rfl)
    (congrArg some (by
      simp (disch := decide) only [pfxOf, Pfx.bits, exHigh, exLow, exAll, bitHigh, bitLow, bitOf, Nat.reduceSub]))
    (by
      simp only [andApp, Nat.reduceDiv, Nat.reduceMod, Nat.reducePow, Nat.and_zero]; rfl)
theorem Encoding.acct (u : Pfx) (d : BitVec 4) : Encoding.Statement (.acct u d) :=
  decodeWord_ok 13 1033215 0 rfl (by simp (disch := decide) only [opcOf, exHigh, exLow, Nat.reduceSub]; rfl)
    (congrArg some (by
      simp (disch := decide) only [pfxOf, Pfx.bits, exHigh, exLow, exAll, bitHigh, bitLow, bitOf, Nat.reduceSub]))
    (by
      simp only [andApp, Nat.reduceDiv, Nat.reduceMod, Nat.reducePow, Nat.and_zero]; rfl)
theorem Encoding.cbld (u : Pfx) (d : BitVec 4) (c : BitVec 2) : Encoding.Statement (.cbld u d c) :=
  decodeWord_ok 14 1033023 0 rfl (by simp (disch := decide) only [opcOf, exHigh, exLow, Nat.reduceSub]; rfl)
    (congrArg some (by
      simp (disch := decide) only [pfxOf, Pfx.bits, exHigh, exLow, exAll, bitHigh, bitLow, bitOf, Nat.reduceSub]))
    (by
      simp only [andApp, Nat.reduceDiv, Nat.reduceMod, Nat.reducePow, Nat.and_zero]; rfl)
theorem Encoding.spld (u : Pfx) (d : BitVec 4) : Encoding.Statement (.spld u d) :=
  decodeWord_ok 15 1033215 0 rfl (by simp (disch := decide) only [opcOf, exHigh, exLow, Nat.reduceSub]; rfl)
    (congrArg some (by
      simp (disch := decide) only [pfxOf, Pfx.bits, exHigh, exLow, exAll, bitHigh, bitLow, bitOf, Nat.reduceSub]))
    (by
      simp only [andApp, Nat.reduceDiv, Nat.reduceMod, Nat.reducePow, Nat.and_zero]; rfl)
theorem Encoding.ldV (u : Pfx) (v : BitVec 5) (a : BitVec 6) (c : BitVec 4) (o : BitVec 5) : Encoding.Statement (.ldV u v a c o) :=
  decodeWord_ok 0 0 0 rfl (by simp (disch := decide) only [opcOf, exHigh, exLow, Nat.reduceSub]; rfl)
    (congrArg some (by
      simp (disch := decide) only [pfxOf, Pfx.bits, exHigh, exLow, exAll, bitHigh, bitLow, bitOf, Nat.reduceSub]))
    (Nat.and_zero _)
theorem Encoding.stV (u : Pfx) (v : BitVec 5) (a : BitVec 6) (c : BitVec 4) (o : BitVec 5) : Encoding.Statement (.stV u v a c o) :=
  decodeWord_ok 1 0 0 rfl (by simp (disch := decide) only [opcOf, exHigh, exLow, Nat.reduceSub]; rfl)
    (congrArg some (by
      simp (disch := decide) only [pfxOf, Pfx.bits, exHigh, exLow, exAll, bitHigh, bitLow, bitOf, Nat.reduceSub]))
    (Nat.and_zero _)
theorem Encoding.ldVs (u : Pfx) (v : BitVec 5) (a : BitVec 6) (c : BitVec 4) (w : Bool) : Encoding.Statement (.ldVs u v a c w) :=
  decodeWord_ok 2 15 0 rfl (by simp (disch := decide) only [opcOf, exHigh, exLow, Nat.reduceSub]; rfl)
    (congrArg some (by
      simp (disch := decide) only [pfxOf, Pfx.bits, exHigh, exLow, exAll, bitHigh, bitLow, bitOf, Nat.reduceSub]))
    (by
      simp only [andApp, Nat.reduceDiv, Nat.reduceMod, Nat.reducePow, Nat.and_zero]; rfl)
theorem Encoding.stVs (u : Pfx) (v : BitVec 5) (a : BitVec 6) (c : BitVec 4) (w : Bool) : Encoding.Statement (.stVs u v a c w) :=
  decodeWord_ok 3 15 0 rfl (by simp (disch := decide) only [opcOf, exHigh, exLow, Nat.reduceSub]; rfl)
    (congrArg some (by
      simp (disch := decide) only [pfxOf, Pfx.bits, exHigh, exLow, exAll, bitHigh, bitLow, bitOf, Nat.reduceSub]))
    (by
      simp only [andApp, Nat.reduceDiv, Nat.reduceMod, Nat.reducePow, Nat.and_zero]; rfl)
theorem Encoding.ldVx (u : Pfx) (v : BitVec 5) (a : BitVec 6) (b : BitVec 5) (c : BitVec 4) : Encoding.Statement (.ldVx u v a b c) :=
  decodeWord_ok 4 0 0 rfl (by simp (disch := decide) only [opcOf, exHigh, exLow, Nat.reduceSub]; rfl)
    (congrArg some (by
      simp (disch := decide) only [pfxOf, Pfx.bits, exHigh, exLow, exAll, bitHigh, bitLow, bitOf, Nat.reduceSub]))
    (Nat.and_zero _)
theorem Encoding.stVx (u : Pfx) (v : BitVec 5) (a : BitVec 6) (b : BitVec 5) (c : BitVec 4) : Encoding.Statement (.stVx u v a b c) :=
  decodeWord_ok 5 0 0 rfl (by simp (disch := decide) only [opcOf, exHigh, exLow, Nat.reduceSub]; rfl)
    (congrArg some (by
      simp (disch := decide) only [pfxOf, Pfx.bits, exHigh, exLow, exAll, bitHigh, bitLow, bitOf, Nat.reduceSub]))
    (Nat.and_zero _)
theorem Encoding.ldrL (u : Pfx) (l : BitVec 3) (a : BitVec 6) (c : BitVec 4) (t : BitVec 7) : Encoding.Statement (.ldrL u l a c t) :=
  decodeWord_ok 6 0 0 rfl (by simp (disch := decide) only [opcOf, exHigh, exLow, Nat.reduceSub]; rfl)
    (congrArg some (by
      simp (disch := decide) only [pfxOf, Pfx.bits, exHigh, exLow, exAll, bitHigh, bitLow, bitOf, Nat.reduceSub]))
    (Nat.and_zero _)
theorem Encoding.pf (u : Pfx) (d : BitVec 4) (a : BitVec 6) (c : BitVec 4) : Encoding.Statement (.pf u d a c) :=
  decodeWord_ok 7 963 0 rfl (by simp (disch := decide) only [opcOf, exHigh, exLow, Nat.reduceSub]; rfl)
    (congrArg some (by
      simp (disch := decide) only [pfxOf, Pfx.bits, exHigh, exLow, exAll, bitHigh, bitLow, bitOf, Nat.reduceSub]))
    (by
      simp only [andApp, Nat.reduceDiv, Nat.reduceMod, Nat.reducePow, Nat.and_zero]; rfl)
theorem Encoding.ldS (u : Pfx) (a : BitVec 6) (c : BitVec 4) (e : BitVec 2) (s : BitVec 3) (w : BitVec 2) : Encoding.Statement (.ldS u a c e s w) :=
  decodeWord_ok 8 7 0 rfl (by simp (disch := decide) only [opcOf, exHigh, exLow, Nat.reduceSub]; rfl)
    (congrArg some (by
      simp (disch := decide) only [pfxOf, Pfx.bits, exHigh, exLow, exAll, bitHigh, bitLow, bitOf, Nat.reduceSub]))
    (by
      simp only [andApp, Nat.reduceDiv, Nat.reduceMod, Nat.reducePow, Nat.and_zero]; rfl)
theorem Encoding.stS (u : Pfx) (a : BitVec 6) (c : BitVec 4) (e : BitVec 2) (s : BitVec 3) (w : BitVec 2) : Encoding.Statement (.stS u a c e s w) :=
  decodeWord_ok 9 7 0 rfl (by simp (disch := decide) only [opcOf, exHigh, exLow, Nat.reduceSub]; rfl)
    (congrArg some (by
      simp (disch := decide) only [pfxOf, Pfx.bits, exHigh, exLow, exAll, bitHigh, bitLow, bitOf, Nat.reduceSub]))
    (by
      simp only [andApp, Nat.reduceDiv, Nat.reduceMod, Nat.reducePow, Nat.and_zero]; rfl)
theorem Encoding.amoAdd (u : Pfx) (a : BitVec 6) (c : BitVec 4) (e : BitVec 2) (s : BitVec 3) (w : BitVec 2) : Encoding.Statement (.amoAdd u a c e s w) :=
  decodeWord_ok 10 7 0 rfl (by simp (disch := decide) only [opcOf, exHigh, exLow, Nat.reduceSub]; rfl)
    (congrArg some (by
      simp (disch := decide) only [pfxOf, Pfx.bits, exHigh, exLow, exAll, bitHigh, bitLow, bitOf, Nat.reduceSub]))
    (by
      simp only [andApp, Nat.reduceDiv, Nat.reduceMod, Nat.reducePow, Nat.and_zero]; rfl)
theorem Encoding.amoFadd (u : Pfx) (a : BitVec 6) (c : BitVec 4) (e : BitVec 2) (s : BitVec 3) (w : BitVec 2) : Encoding.Statement (.amoFadd u a c e s w) :=
  decodeWord_ok 11 7 0 rfl (by simp (disch := decide) only [opcOf, exHigh, exLow, Nat.reduceSub]; rfl)
    (congrArg some (by
      simp (disch := decide) only [pfxOf, Pfx.bits, exHigh, exLow, exAll, bitHigh, bitLow, bitOf, Nat.reduceSub]))
    (by
      simp only [andApp, Nat.reduceDiv, Nat.reduceMod, Nat.reducePow, Nat.and_zero]; rfl)
theorem Encoding.amoMin (u : Pfx) (a : BitVec 6) (c : BitVec 4) (e : BitVec 2) (s : BitVec 3) (w : BitVec 2) : Encoding.Statement (.amoMin u a c e s w) :=
  decodeWord_ok 12 7 0 rfl (by simp (disch := decide) only [opcOf, exHigh, exLow, Nat.reduceSub]; rfl)
    (congrArg some (by
      simp (disch := decide) only [pfxOf, Pfx.bits, exHigh, exLow, exAll, bitHigh, bitLow, bitOf, Nat.reduceSub]))
    (by
      simp only [andApp, Nat.reduceDiv, Nat.reduceMod, Nat.reducePow, Nat.and_zero]; rfl)
theorem Encoding.amoMax (u : Pfx) (a : BitVec 6) (c : BitVec 4) (e : BitVec 2) (s : BitVec 3) (w : BitVec 2) : Encoding.Statement (.amoMax u a c e s w) :=
  decodeWord_ok 13 7 0 rfl (by simp (disch := decide) only [opcOf, exHigh, exLow, Nat.reduceSub]; rfl)
    (congrArg some (by
      simp (disch := decide) only [pfxOf, Pfx.bits, exHigh, exLow, exAll, bitHigh, bitLow, bitOf, Nat.reduceSub]))
    (by
      simp only [andApp, Nat.reduceDiv, Nat.reduceMod, Nat.reducePow, Nat.and_zero]; rfl)
theorem Encoding.amoMinu (u : Pfx) (a : BitVec 6) (c : BitVec 4) (e : BitVec 2) (s : BitVec 3) (w : BitVec 2) : Encoding.Statement (.amoMinu u a c e s w) :=
  decodeWord_ok 14 7 0 rfl (by simp (disch := decide) only [opcOf, exHigh, exLow, Nat.reduceSub]; rfl)
    (congrArg some (by
      simp (disch := decide) only [pfxOf, Pfx.bits, exHigh, exLow, exAll, bitHigh, bitLow, bitOf, Nat.reduceSub]))
    (by
      simp only [andApp, Nat.reduceDiv, Nat.reduceMod, Nat.reducePow, Nat.and_zero]; rfl)
theorem Encoding.amoMaxu (u : Pfx) (a : BitVec 6) (c : BitVec 4) (e : BitVec 2) (s : BitVec 3) (w : BitVec 2) : Encoding.Statement (.amoMaxu u a c e s w) :=
  decodeWord_ok 15 7 0 rfl (by simp (disch := decide) only [opcOf, exHigh, exLow, Nat.reduceSub]; rfl)
    (congrArg some (by
      simp (disch := decide) only [pfxOf, Pfx.bits, exHigh, exLow, exAll, bitHigh, bitLow, bitOf, Nat.reduceSub]))
    (by
      simp only [andApp, Nat.reduceDiv, Nat.reduceMod, Nat.reducePow, Nat.and_zero]; rfl)
theorem Encoding.amoAnd (u : Pfx) (a : BitVec 6) (c : BitVec 4) (e : BitVec 2) (s : BitVec 3) (w : BitVec 2) : Encoding.Statement (.amoAnd u a c e s w) :=
  decodeWord_ok 16 7 0 rfl (by simp (disch := decide) only [opcOf, exHigh, exLow, Nat.reduceSub]; rfl)
    (congrArg some (by
      simp (disch := decide) only [pfxOf, Pfx.bits, exHigh, exLow, exAll, bitHigh, bitLow, bitOf, Nat.reduceSub]))
    (by
      simp only [andApp, Nat.reduceDiv, Nat.reduceMod, Nat.reducePow, Nat.and_zero]; rfl)
theorem Encoding.amoOr (u : Pfx) (a : BitVec 6) (c : BitVec 4) (e : BitVec 2) (s : BitVec 3) (w : BitVec 2) : Encoding.Statement (.amoOr u a c e s w) :=
  decodeWord_ok 17 7 0 rfl (by simp (disch := decide) only [opcOf, exHigh, exLow, Nat.reduceSub]; rfl)
    (congrArg some (by
      simp (disch := decide) only [pfxOf, Pfx.bits, exHigh, exLow, exAll, bitHigh, bitLow, bitOf, Nat.reduceSub]))
    (by
      simp only [andApp, Nat.reduceDiv, Nat.reduceMod, Nat.reducePow, Nat.and_zero]; rfl)
theorem Encoding.amoXor (u : Pfx) (a : BitVec 6) (c : BitVec 4) (e : BitVec 2) (s : BitVec 3) (w : BitVec 2) : Encoding.Statement (.amoXor u a c e s w) :=
  decodeWord_ok 18 7 0 rfl (by simp (disch := decide) only [opcOf, exHigh, exLow, Nat.reduceSub]; rfl)
    (congrArg some (by
      simp (disch := decide) only [pfxOf, Pfx.bits, exHigh, exLow, exAll, bitHigh, bitLow, bitOf, Nat.reduceSub]))
    (by
      simp only [andApp, Nat.reduceDiv, Nat.reduceMod, Nat.reducePow, Nat.and_zero]; rfl)
theorem Encoding.amoSwp (u : Pfx) (a : BitVec 6) (c : BitVec 4) (e : BitVec 2) (s : BitVec 3) (w : BitVec 2) : Encoding.Statement (.amoSwp u a c e s w) :=
  decodeWord_ok 19 7 0 rfl (by simp (disch := decide) only [opcOf, exHigh, exLow, Nat.reduceSub]; rfl)
    (congrArg some (by
      simp (disch := decide) only [pfxOf, Pfx.bits, exHigh, exLow, exAll, bitHigh, bitLow, bitOf, Nat.reduceSub]))
    (by
      simp only [andApp, Nat.reduceDiv, Nat.reduceMod, Nat.reducePow, Nat.and_zero]; rfl)
theorem Encoding.amoCas (u : Pfx) (a : BitVec 6) (c : BitVec 4) (e : BitVec 2) (s : BitVec 3) (w : BitVec 2) : Encoding.Statement (.amoCas u a c e s w) :=
  decodeWord_ok 20 7 0 rfl (by simp (disch := decide) only [opcOf, exHigh, exLow, Nat.reduceSub]; rfl)
    (congrArg some (by
      simp (disch := decide) only [pfxOf, Pfx.bits, exHigh, exLow, exAll, bitHigh, bitLow, bitOf, Nat.reduceSub]))
    (by
      simp only [andApp, Nat.reduceDiv, Nat.reduceMod, Nat.reducePow, Nat.and_zero]; rfl)
theorem Encoding.redAdd (u : Pfx) (a : BitVec 6) (c : BitVec 4) (s : BitVec 3) (w : BitVec 2) : Encoding.Statement (.redAdd u a c s w) :=
  decodeWord_ok 24 775 0 rfl (by simp (disch := decide) only [opcOf, exHigh, exLow, Nat.reduceSub]; rfl)
    (congrArg some (by
      simp (disch := decide) only [pfxOf, Pfx.bits, exHigh, exLow, exAll, bitHigh, bitLow, bitOf, Nat.reduceSub]))
    (by
      simp only [andApp, Nat.reduceDiv, Nat.reduceMod, Nat.reducePow, Nat.and_zero]; rfl)
theorem Encoding.redFadd (u : Pfx) (a : BitVec 6) (c : BitVec 4) (s : BitVec 3) (w : BitVec 2) : Encoding.Statement (.redFadd u a c s w) :=
  decodeWord_ok 25 775 0 rfl (by simp (disch := decide) only [opcOf, exHigh, exLow, Nat.reduceSub]; rfl)
    (congrArg some (by
      simp (disch := decide) only [pfxOf, Pfx.bits, exHigh, exLow, exAll, bitHigh, bitLow, bitOf, Nat.reduceSub]))
    (by
      simp only [andApp, Nat.reduceDiv, Nat.reduceMod, Nat.reducePow, Nat.and_zero]; rfl)
theorem Encoding.redMin (u : Pfx) (a : BitVec 6) (c : BitVec 4) (s : BitVec 3) (w : BitVec 2) : Encoding.Statement (.redMin u a c s w) :=
  decodeWord_ok 26 775 0 rfl (by simp (disch := decide) only [opcOf, exHigh, exLow, Nat.reduceSub]; rfl)
    (congrArg some (by
      simp (disch := decide) only [pfxOf, Pfx.bits, exHigh, exLow, exAll, bitHigh, bitLow, bitOf, Nat.reduceSub]))
    (by
      simp only [andApp, Nat.reduceDiv, Nat.reduceMod, Nat.reducePow, Nat.and_zero]; rfl)
theorem Encoding.redMax (u : Pfx) (a : BitVec 6) (c : BitVec 4) (s : BitVec 3) (w : BitVec 2) : Encoding.Statement (.redMax u a c s w) :=
  decodeWord_ok 27 775 0 rfl (by simp (disch := decide) only [opcOf, exHigh, exLow, Nat.reduceSub]; rfl)
    (congrArg some (by
      simp (disch := decide) only [pfxOf, Pfx.bits, exHigh, exLow, exAll, bitHigh, bitLow, bitOf, Nat.reduceSub]))
    (by
      simp only [andApp, Nat.reduceDiv, Nat.reduceMod, Nat.reducePow, Nat.and_zero]; rfl)
theorem Encoding.redAnd (u : Pfx) (a : BitVec 6) (c : BitVec 4) (s : BitVec 3) (w : BitVec 2) : Encoding.Statement (.redAnd u a c s w) :=
  decodeWord_ok 28 775 0 rfl (by simp (disch := decide) only [opcOf, exHigh, exLow, Nat.reduceSub]; rfl)
    (congrArg some (by
      simp (disch := decide) only [pfxOf, Pfx.bits, exHigh, exLow, exAll, bitHigh, bitLow, bitOf, Nat.reduceSub]))
    (by
      simp only [andApp, Nat.reduceDiv, Nat.reduceMod, Nat.reducePow, Nat.and_zero]; rfl)
theorem Encoding.redOr (u : Pfx) (a : BitVec 6) (c : BitVec 4) (s : BitVec 3) (w : BitVec 2) : Encoding.Statement (.redOr u a c s w) :=
  decodeWord_ok 29 775 0 rfl (by simp (disch := decide) only [opcOf, exHigh, exLow, Nat.reduceSub]; rfl)
    (congrArg some (by
      simp (disch := decide) only [pfxOf, Pfx.bits, exHigh, exLow, exAll, bitHigh, bitLow, bitOf, Nat.reduceSub]))
    (by
      simp only [andApp, Nat.reduceDiv, Nat.reduceMod, Nat.reducePow, Nat.and_zero]; rfl)
theorem Encoding.redXor (u : Pfx) (a : BitVec 6) (c : BitVec 4) (s : BitVec 3) (w : BitVec 2) : Encoding.Statement (.redXor u a c s w) :=
  decodeWord_ok 30 775 0 rfl (by simp (disch := decide) only [opcOf, exHigh, exLow, Nat.reduceSub]; rfl)
    (congrArg some (by
      simp (disch := decide) only [pfxOf, Pfx.bits, exHigh, exLow, exAll, bitHigh, bitLow, bitOf, Nat.reduceSub]))
    (by
      simp only [andApp, Nat.reduceDiv, Nat.reduceMod, Nat.reducePow, Nat.and_zero]; rfl)
theorem Encoding.cpIn (u : Pfx) (d : BitVec 4) (a : BitVec 6) (i c : BitVec 4) : Encoding.Statement (.cpIn u d a i c) :=
  decodeWord_ok 32 3 0 rfl (by simp (disch := decide) only [opcOf, exHigh, exLow, Nat.reduceSub]; rfl)
    (congrArg some (by
      simp (disch := decide) only [pfxOf, Pfx.bits, exHigh, exLow, exAll, bitHigh, bitLow, bitOf, Nat.reduceSub]))
    (by
      simp only [andApp, Nat.reduceDiv, Nat.reduceMod, Nat.reducePow, Nat.and_zero]; rfl)
theorem Encoding.cpOut (u : Pfx) (d : BitVec 4) (a : BitVec 6) (i c : BitVec 4) : Encoding.Statement (.cpOut u d a i c) :=
  decodeWord_ok 33 3 0 rfl (by simp (disch := decide) only [opcOf, exHigh, exLow, Nat.reduceSub]; rfl)
    (congrArg some (by
      simp (disch := decide) only [pfxOf, Pfx.bits, exHigh, exLow, exAll, bitHigh, bitLow, bitOf, Nat.reduceSub]))
    (by
      simp only [andApp, Nat.reduceDiv, Nat.reduceMod, Nat.reducePow, Nat.and_zero]; rfl)
theorem Encoding.cpSs (u : Pfx) (d : BitVec 4) (a : BitVec 6) (i c : BitVec 4) : Encoding.Statement (.cpSs u d a i c) :=
  decodeWord_ok 34 3 0 rfl (by simp (disch := decide) only [opcOf, exHigh, exLow, Nat.reduceSub]; rfl)
    (congrArg some (by
      simp (disch := decide) only [pfxOf, Pfx.bits, exHigh, exLow, exAll, bitHigh, bitLow, bitOf, Nat.reduceSub]))
    (by
      simp only [andApp, Nat.reduceDiv, Nat.reduceMod, Nat.reducePow, Nat.and_zero]; rfl)
theorem Encoding.rsub (u : Pfx) (d : BitVec 4) (a : BitVec 6) (i c : BitVec 4) : Encoding.Statement (.rsub u d a i c) :=
  decodeWord_ok 35 3 0 rfl (by simp (disch := decide) only [opcOf, exHigh, exLow, Nat.reduceSub]; rfl)
    (congrArg some (by
      simp (disch := decide) only [pfxOf, Pfx.bits, exHigh, exLow, exAll, bitHigh, bitLow, bitOf, Nat.reduceSub]))
    (by
      simp only [andApp, Nat.reduceDiv, Nat.reduceMod, Nat.reducePow, Nat.and_zero]; rfl)
theorem Encoding.srel (u : Pfx) (d : BitVec 4) (a : BitVec 6) (c : BitVec 4) : Encoding.Statement (.srel u d a c) :=
  decodeWord_ok 36 963 0 rfl (by simp (disch := decide) only [opcOf, exHigh, exLow, Nat.reduceSub]; rfl)
    (congrArg some (by
      simp (disch := decide) only [pfxOf, Pfx.bits, exHigh, exLow, exAll, bitHigh, bitLow, bitOf, Nat.reduceSub]))
    (by
      simp only [andApp, Nat.reduceDiv, Nat.reduceMod, Nat.reducePow, Nat.and_zero]; rfl)
theorem Encoding.fpush (u : Pfx) (v : BitVec 5) (a : BitVec 6) (c : BitVec 4) : Encoding.Statement (.fpush u v a c) :=
  decodeWord_ok 37 31 0 rfl (by simp (disch := decide) only [opcOf, exHigh, exLow, Nat.reduceSub]; rfl)
    (congrArg some (by
      simp (disch := decide) only [pfxOf, Pfx.bits, exHigh, exLow, exAll, bitHigh, bitLow, bitOf, Nat.reduceSub]))
    (by
      simp only [andApp, Nat.reduceDiv, Nat.reduceMod, Nat.reducePow, Nat.and_zero]; rfl)
theorem Encoding.fpushq (u : Pfx) (q : BitVec 2) (a : BitVec 6) (c : BitVec 4) (s : BitVec 3) : Encoding.Statement (.fpushq u q a c s) :=
  decodeWord_ok 38 31 0 rfl (by simp (disch := decide) only [opcOf, exHigh, exLow, Nat.reduceSub]; rfl)
    (congrArg some (by
      simp (disch := decide) only [pfxOf, Pfx.bits, exHigh, exLow, exAll, bitHigh, bitLow, bitOf, Nat.reduceSub]))
    (by
      simp only [andApp, Nat.reduceDiv, Nat.reduceMod, Nat.reducePow, Nat.and_zero]; rfl)
theorem Encoding.stq (u : Pfx) (q : BitVec 2) (a : BitVec 6) (c : BitVec 4) (s : BitVec 3) : Encoding.Statement (.stq u q a c s) :=
  decodeWord_ok 39 31 0 rfl (by simp (disch := decide) only [opcOf, exHigh, exLow, Nat.reduceSub]; rfl)
    (congrArg some (by
      simp (disch := decide) only [pfxOf, Pfx.bits, exHigh, exLow, exAll, bitHigh, bitLow, bitOf, Nat.reduceSub]))
    (by
      simp only [andApp, Nat.reduceDiv, Nat.reduceMod, Nat.reducePow, Nat.and_zero]; rfl)
theorem Encoding.interlockedLdSLanding (c : CtxId) (k : Nat) : Encoding.Statement (.interlockedLdSLanding c k) := rfl
theorem Encoding.tileMoveCompletion (c : CtxId) (k : Nat) : Encoding.Statement (.tileMoveCompletion c k) := rfl
theorem Encoding.unknownCmd : Encoding.Statement (.unknownCmd) := rfl
theorem Encoding.ctrlWriteWhileGo : Encoding.Statement (.ctrlWriteWhileGo) := rfl

end Sys2Proof.Laws
end

