-- ==== Sys2Proof/Safety.lean ====
section
/-! DEFINITION. What counts as a safe run, in the terms that claims use: a run that no step stops, the canonical form of
memory, and, over what the steps of a run perform, coherence order, synchronisation, happens-before and the data race (R236
to R249). The machine itself gives a racing read the value of its step order (log 9); a claim about a program without a race
takes the absence of a race as its hypothesis. -/

namespace Sys2Proof.Safety

open Sys2Proof.Machine

/-! ### Runs -/

/-- States one step after another. -/
def IsRun : List State → Prop
  | s :: t :: r => step s = .next t ∧ IsRun (t :: r)
  | _ => True

/-- No step from a state stops. -/
def GoesOn (s : State) : Prop := ∃ t, step s = .next t

/-- The invariant of the machine's memory: the one canonical form. -/
def MemCanonical (s : State) : Prop := Memory.wf s.mem = true

/-! ### What a run performs (R236 to R238) -/

/-- Everything that performs in a run, in the order in which it performs (log 50): the operations of contexts, with the
slab reads of their array operations and their fetches, the units of copies and rings, the state bytes and record fields
that Quarry and Keystone write, host accesses, and the events of Table 10.4. At each location this is coherence order. -/
def history : List State → List Ev
  | _ :: t :: r => t.log ++ history (t :: r)
  | _ => []

/-- Happens-before over the history of a run, by places (R245): chains of steps. -/
inductive Before (r : List State) : Nat → Nat → Prop where
  | one {i j : Nat} : edge (history r) i j = true → Before r i j
  | trans {i j k : Nat} : Before r i j → Before r j k → Before r i k

/-! ### Races (R246) -/

/-- Agents whose accesses can race: two contexts, or a context and a copy engine or Quarry, its own included (R246); and
Keystone with a program or with the data of a SLABWR (R261, R286). -/
def mayRace (a b : Agent) : Bool :=
  let ctx (x : Agent) : Bool := match x with | .ctx _ => true | _ => false
  let copier (x : Agent) : Bool := match x with | .engine _ => true | .quarry _ => true | _ => false
  let beside (x y : Agent) : Bool := x == .keystone && (ctx y || copier y || y == .monitor)
  a != b && ((ctx a && ctx b) || (ctx a && copier b) || (copier a && ctx b) || beside a b || beside b a)

/-- A data race (R246). -/
def Race (r : List State) : Prop :=
  ∃ i j p q k, (history r)[i]? = some p ∧ (history r)[j]? = some q ∧ mayRace p.agent q.agent = true ∧
    p.keys.contains k = true ∧ q.keys.contains k = true ∧ (p.writesAt k || q.writesAt k) = true ∧
    (p.atomic && q.atomic) = false ∧ ¬ Before r i j ∧ ¬ Before r j i

/-- A safe run: every step goes on to the next state, and no two agents race (R246). -/
def SafeRun (r : List State) : Prop := IsRun r ∧ ¬ Race r

/-! ### Isolation (R35) -/

/-- What a context may reach: the bytes that its core's address space maps, and the slabs of cores with its tag. -/
def MayReach (s : State) (c : CtxId) (k : Nat) : Prop := s.refusedBy c.core k = false

end Sys2Proof.Safety

/-! ## The terms of the statements: issue, effects, frames, cycles -/

namespace Sys2Proof.Claim

open Sys2Proof.Machine

/-! ### The issue of one slot instruction -/

/-- The machine as the slot of an instruction reads it at issue: as it stands where a bundle has granted the slot; else
with the slot of its class named and the accesses to its own blocks performed. -/
def issuing (i : Instr) (s : State) : State :=
  if s.granted then s
  else
    let r := { s with slot := (classOf i).slot, heldNow := false }
    { r.settleBlocks i with stall := stallOf (isCounted i) (issueGranules i r) }

/-- The conditions under which a slot instruction has its effect (R24, R82, R87): a bundle that issues has granted it; or
it is well formed, is not wholly guarded off, its scoreboard conditions hold and no fault of R82 stops it. -/
def Issues (i : Instr) (s : State) : Prop :=
  s.granted = true ∨
    (s.boot = .running ∧ i.wf = true ∧
      ({ s with slot := (classOf i).slot, heldNow := false } : State).guardedOff (classOf i) (wordOf i) = false ∧
      slotReady (classOf i) (wordOf i) i { s with slot := (classOf i).slot, heldNow := false } = true ∧
      issueFault (classOf i) (wordOf i) i (issuing i s) = none ∧
      queueFault (issuing i s).here [⟨(classOf i).slot, false, wordOf i, wordOf i, i⟩] = none)

/-- Wherever a slot instruction issues, it completes, and `eff` is its whole effect. -/
def Runs (i : Instr) (eff : State → State) : Prop := ∀ s, Issues i s → exec i s = .next (eff (issuing i s))

/-! ### Frames -/

/-- Between `s` and `t` nothing outside the issuing context has changed, no byte of memory reads differently, and the
context is what `f` makes of the old one and the new one. -/
def Within (s t : State) (f : Ctx → Ctx → Ctx) : Prop :=
  t = { s with cores := t.cores } ∧
    (∀ n, t.core n = { s.core n with ctx0 := (t.core n).ctx0, ctx1 := (t.core n).ctx1 }) ∧
    (∀ c, c ≠ s.cur → t.ctx c = s.ctx c) ∧
    (∀ a, t.byte a = s.byte a) ∧
    t.here = f s.here t.here

/-- A register instruction changes results on their way and the faults they raise, and nothing else of the context. -/
def resultsOnly (old new : Ctx) : Ctx := { old with flight := new.flight, late := new.late }

/-- As before; VPOPQ also removes the entry it pops, and VPOPL empties its landing register. -/
def resultsAndPops (i : Instr) (old new : Ctx) : Ctx :=
  match i with
  | .vpopq _ _ _ => { old with flight := new.flight, late := new.late, q := new.q }
  | .vpopl _ _ _ => { old with flight := new.flight, late := new.late, l := new.l }
  | _ => resultsOnly old new

/-- The registers that an instruction of the S, X or V slots writes. -/
def writes (i : Instr) : List Dest := destsOf i

/-- The instructions of the S, X and V slots. -/
def isRegisterForm (i : Instr) : Bool := writes i != []

/-! ### Exact values and their rounding (R97, R98) -/

/-- A finite number stands for a real. -/
def Stands (x : ℝ) : Machine.Num → Prop
  | .fin n m e => x = (if n then -1 else 1) * (m : ℝ) * 2 ^ e
  | _ => False

/-- The multiple y of the spacing u that a rounding mode selects for the exact x (R97). -/
def Rounds (rm : Rm) (u x y : ℝ) : Prop :=
  ∃ k : ℤ, y = k * u ∧
    match rm with
    | .rne => |x - y| ≤ u / 2 ∧ (|x - y| = u / 2 → Even k)
    | .rmm => |x - y| ≤ u / 2 ∧ (|x - y| = u / 2 → |x| ≤ |y|)
    | .rtz => |y| ≤ |x| ∧ |x| - |y| < u ∧ 0 ≤ x * y
    | .rup => x ≤ y ∧ y - x < u
    | .rdn => y ≤ x ∧ x - y < u

/-- The largest finite value of a format (Table 4.1): the all-ones exponent is no number's. -/
def Largest (F : Fmt) (x : ℝ) : Prop := x = (2 ^ (F.f + 1) - 1 : ℝ) * 2 ^ ((F.top : ℤ) - 1 - F.bias - F.f)

/-- `r` is the pattern and the flags of the exact nonzero x rounded once to a format (R97, R98, Table 4.5): y is x rounded at
the spacing of the format, v is x rounded to p bits with an unbounded exponent range. -/
def Rounded (F : Fmt) (rm : Rm) (x : ℝ) (r : Nat × Flags) : Prop :=
  ∃ (e : ℤ) (y v w : ℝ), 2 ^ e ≤ |x| ∧ |x| < 2 ^ (e + 1) ∧ Rounds rm (2 ^ (max e F.emin - F.p + 1)) x y ∧
    Rounds rm (2 ^ (e - F.p + 1)) x v ∧ Largest F w ∧
    (w < |v| → r.2 = ofF ||| nxF ∧
      ((rm = .rne ∨ rm = .rmm ∨ (rm = .rup ∧ 0 < x) ∨ (rm = .rdn ∧ x < 0)) →
        ∃ n, F.value r.1 = .inf n ∧ (n = true ↔ x < 0)) ∧
      ((rm = .rtz ∨ (rm = .rup ∧ x < 0) ∨ (rm = .rdn ∧ 0 < x)) → Stands (if x < 0 then -w else w) (F.value r.1))) ∧
    (|v| ≤ w → Stands y (F.value r.1) ∧ ((F.value r.1).neg = true ↔ x < 0) ∧
      (y = x → r.2 = 0) ∧ (y ≠ x → 2 ^ F.emin ≤ |v| → r.2 = nxF) ∧ (y ≠ x → |v| < 2 ^ F.emin → r.2 = ufF ||| nxF))

/-! ### Steps (log 50), and Keystone's records (R286, R289) -/

/-- A state but for its log, and for what has performed beside a replica group (log 39). -/
def Same (t x : State) : Prop := ∃ l p : List Ev, t = { x with log := l, past := p }

/-- The state once an event has joined its log and, beside a replica group, what has performed before (log 39, log 50). -/
def noted (s : State) (e : Ev) : State :=
  { s with log := s.log ++ [e], past := if s.replicas = [] then s.past else s.past ++ [e] }

/-- The slice of a context as an event names it. -/
def sliceOf (c : Ctx) : Option (Nat × Nat × Nat × Nat) := c.slice.map (fun x => (x.graph, x.node, x.attempt, x.lidx))

/-- `exec i s` answers x, with a log of its own. -/
def Goes (i : Instr) (s x : State) : Prop := ∃ t, exec i s = .next t ∧ Same t x

/-- A counter that stops at its largest value. -/
def sat (x : BitVec 32) : BitVec 32 := if x = BitVec.allOnes 32 then x else x + 1

/-- Keystone writes `n` bytes of a record at `va` of a space (R286), where nothing is poisoned: they take the value, or the
write is lost and counted where it does not translate. -/
def field (s : State) (space va n v : Nat) : State :=
  match s.recordKeys space .write va n with
  | some ks => s.setCells (ks.zip (bytesOfNat n v))
  | none => { s with mgmt := { s.mgmt with recerr := sat s.mgmt.recerr } }

/-- A rejected launch (R275): STATUS 4, ERRIDX and ERRCODE of the graph record. -/
def rejected (s : State) (space addr index code : Nat) : State :=
  field (field (field s space (addr + 3) 1 4) space (addr + 32) 4 index) space (addr + 36) 1 code

/-- What C1 does to the nodes of a graph (R289, R290): it takes `members`, of which `cone` lie behind the fault.
Each is counted and ends as `end_` says; the arrival bits that members have set in the cone are cleared, and no others; none
stands in a ready queue any more, and the slices of those that were RUNNING or READY are to be killed. -/
def Cancelled (s t : State) (gi : Nat) (members cone : List Nat) (end_ : Nat → NState → NState) : Prop :=
  (∀ m ∈ members, ∀ n, s.nodeOf gi m = some n → ∃ x, t.nodeOf gi m = some x ∧ x.state = end_ m n.state ∧
    x.ccnt = n.ccnt + 1 ∧ (n.state = .ready ∨ n.state = .running → x.killing = false ∧ (gi, m) ∉ (t.course n.home).ready ∧
      ∀ c ∈ allCtxs, (s.ctx c).runs gi m = true → (t.ctx c).request = .stopped ∨ (t.ctx c).request = .retiring ∨
        ∃ k, (t.ctx c).request = .kill k) ∧
    (∀ j < 64, x.arrive.getLsbD j = (n.arrive.getLsbD j && !(cone.contains m && members.any (fun p =>
      match s.nodeOf gi p with | some y => y.succs.contains (m, j) | none => false)))) ∧
    (m ∈ cone → (∃ p ∈ members, ∃ y j, s.nodeOf gi p = some y ∧ (m, j) ∈ y.succs) →
      x.pending = n.pendInit - ((List.range 64).filter (fun j => x.arrive.getLsbD j)).length)) ∧
  ∀ m, m ∉ members → t.nodeOf gi m = s.nodeOf gi m

/-- NKEY of a node that becomes READY (R279). -/
def keyOf (s : State) (n : Node) : DWord :=
  (if n.seed = 0 then s.seed else n.seed) ^^^ (n.id.setWidth 64 * 0x9E3779B97F4A7C15)

/-- A bead for a slot of the node record at an address of a space takes effect on `u`, which leaves `t` (R278, Table 14.5): one
to no node of a RUNNING graph is dropped and counted; one to a node that is DONE, VOID or IDLE, or to a slot that has arrived,
does nothing; else its arrival bit is set, and an ARMED node becomes READY when none is pending. -/
def Beaded (u t : State) (sp addr slot : Nat) : Prop :=
  (u.findNode sp addr = none → Same t { u with mgmt := { u.mgmt with beaddrop := sat u.mgmt.beaddrop } }) ∧
  ∀ gi ni n, u.findNode sp addr = some (gi, ni) → u.nodeOf gi ni = some n →
    let deaf : Prop := n.state = .done ∨ n.state = .void ∨ n.state = .idle ∨ n.arrive.getLsbD slot = true
    (deaf → Same t u) ∧
    (¬ deaf → ∃ m, t.nodeOf gi ni = some m ∧ m.arrive = n.arrive ||| (1#64 <<< slot) ∧
      m.pending = n.pendInit - ((List.range 64).filter (fun j => m.arrive.getLsbD j)).length ∧
      (if n.state = .armed ∧ m.pending = 0 then m.state = .ready ∧ m.nkey = keyOf u n ∧ (gi, ni) ∈ (t.course n.home).ready
        else m.state = n.state ∧ m.nkey = n.nkey) ∧
      ∀ p, p ≠ (gi, ni) → t.nodeOf p.1 p.2 = u.nodeOf p.1 p.2)

/-- A launch from a space of the graph record at an address takes effect on `u`, where nothing is poisoned (R275 to R277): a
record that cannot be read is counted; a graph that is RUNNING is left alone; one that fails a check is rejected with its
code; one that passes is RUNNING with its counts at 0 and every node armed, or READY with its NKEY and in the ready queue of
its home course where it waits for no bead. -/
def Launched (u t : State) (sp addr : Nat) : Prop :=
  let is (x : State) : Prop := Same t x
  (u.ksRead sp addr 64 = none → is { u with mgmt := { u.mgmt with recerr := sat u.mgmt.recerr } }) ∧
  ∀ bs, u.ksRead sp addr 64 = some bs →
    let count := leNat bs 16 4
    let first := leNat bs 8 8
    let plumb := leNat bs 2 1 == 1
    let twin := BitVec.ofNat 32 (leNat bs 4 4)
    let runs : Prop := leNat bs 3 1 = 1 ∨ ∃ p ∈ u.graphs, p.2.space = sp ∧ p.2.addr.toNat = addr ∧ p.2.status = .running
    let nodes := u.readNodes sp count plumb twin first (List.range count)
    (runs → is u) ∧
    (¬ runs → ∀ e, u.graphError sp bs = some e → is (rejected u sp addr 0xFFFFFFFF e)) ∧
    (¬ runs → u.graphError sp bs = none →
      (∀ i e, nodes = .error (i, e) → is (rejected u sp addr i e)) ∧
      (∀ r, nodes = .ok r → plumb = true → Config.plumbFits (bs ++ r.2) = false → is (rejected u sp addr 0xFFFFFFFF 0x0D)) ∧
      (∀ r, nodes = .ok r → (plumb = true → Config.plumbFits (bs ++ r.2) = true) → ∃ g,
        t.launches = u.launches + 1 ∧ t.graphs.find u.launches = some g ∧
        g.space = sp ∧ g.addr = BitVec.ofNat 64 addr ∧ g.plumb = plumb ∧ g.twin = twin ∧ g.count = count ∧
        g.status = .running ∧ g.done = 0 ∧ g.voided = 0 ∧ g.retry = 0 ∧
        (∀ j h, j ≠ u.launches → t.graphs.find j = some h → ¬ (h.space = sp ∧ h.addr = BitVec.ofNat 64 addr)) ∧
        ∀ i < count, ∃ ns, u.ksRead sp (first + 128 * i) 128 = some ns ∧
          let x := nodeOfBytes (BitVec.ofNat 64 (first + 128 * i)) ns
          g.nodes.find i = some { x with
            state := if x.pendInit = 0 then .ready else .armed
            nkey := if x.pendInit = 0 then keyOf u x else 0 } ∧
          (x.pendInit = 0 → (u.launches, i) ∈ (t.course x.home).ready)))

/-! ### The array (R112, R222, R227 to R233) -/

/-- A tile as patterns of a format, by row and column. -/
abbrev Mat := Nat → Nat → Nat

def matOf (F : Fmt) (t : Tile) : Mat := fun i j => accPattern F (t.el i j)

/-- `f` is the union of the flags of some operations. -/
def Raised (f : Flags) (ops : List Flags) : Prop := ∀ b < 5, f.getLsbD b = true ↔ ∃ g ∈ ops, g.getLsbD b = true

/-- What an array operation has left in its tiles, in a codebook and in PIV, GF and BRK, as the commit signature has it (R348). -/
def landed (a : ArrayOp) (x : Ctx) : List Commit :=
  (tilesWritten a.instr).map (fun k => .lands (.tile k.toNat) ((x.tile k).flatMap (fun e => [e.1, e.2.toNat]))) ++
    (match a.instr with
     | .cbld _ _ n => [.lands (.codebook n.toNat) [(x.book n.toNat).ents.toNat, (x.book n.toNat).esc.toNat]]
     | _ => []) ++
    if isFactor a.instr then [.lands .piv [x.piv.toNat], .lands .gf [x.gf.toNat], .lands .brk [x.brk.toNat]] else []

/-- What the completion of the oldest array operation leaves (R218, R222): its context becomes x, with what has landed noted for
the commit signature (R348), its faults are recorded against its bundle, and behind a fault the later operations of its context are
withheld; nothing else runs, and no byte of memory changes. -/
def Completes (s t : State) (n : Nat) (a : ArrayOp) (rest : List ArrayOp) (x : Ctx) (fs : List FaultDetail) : Prop :=
  (t.core n).aq = (if fs = [] then rest else rest.filter (fun b => b.one != a.one)) ∧
    t.ctx ⟨n, a.one⟩ = { x with
      did := x.did ++ landed a x
      late := x.late ++ fs.map (fun f => ⟨a.seq, 5, a.held, a.pc, f.1, f.2, some (.array a)⟩)
      withheld := x.withheld ++ (if fs = [] then [] else rest.filter (fun b => b.one == a.one)) } ∧
    (∀ c, c ≠ ⟨n, a.one⟩ → t.ctx c = s.ctx c) ∧ (∀ b, t.byte b = s.byte b)

/-- A context whose array operation on tile k has raised flags (R101, R222, R348). -/
def flagged (x : Ctx) (k : BitVec 3) (f : BitVec 6) : Ctx :=
  { x with
    did := x.did ++ [.fpsw (f.setWidth 5), .ksw k.toNat f]
    fpsw := x.fpsw ||| (f.setWidth 5).setWidth 32
    ksw := SMap.setD 0 x.ksw k.toNat (SMap.get 0 x.ksw k.toNat ||| f.setWidth 32) }

/-- The trap of flags that are enabled (R102). -/
def enabledFaults (a : ArrayOp) (f : Flags) : List FaultDetail :=
  if f &&& a.en = 0 then [] else [(0x0B, (f &&& a.en).setWidth 128)]

/-- p is the pivot row of step s: the lowest row from s on with the largest magnitude in column s (R228). -/
def IsPivot (F : Fmt) (A : Mat) (s p : Nat) : Prop :=
  s ≤ p ∧ p < 16 ∧ (∀ i, s ≤ i → i < 16 → (F.value (A p s)).abs.lt (F.value (A i s)).abs = false) ∧
    ∀ i, s ≤ i → i < p → (F.value (A i s)).abs.lt (F.value (A p s)).abs = true

/-- Two rows exchanged. -/
def exchanged (s p : Nat) (A : Mat) : Mat := fun i j => if i = s then A p j else if i = p then A s j else A i j

/-- l of R228 for row i at step s. -/
def luFactor (F : Fmt) (rm : Rm) (s : Nat) (A : Mat) (i : Nat) : Nat × Flags := F.div rm (F.value (A i s)) (F.value (A s s))

/-- a(i, j) − l × a(s, j). -/
def luUpdate (F : Fmt) (rm : Rm) (s : Nat) (A : Mat) (i j : Nat) : Nat × Flags :=
  F.fma rm (F.value (luFactor F rm s A i).1).negate (F.value (A s j)) (F.value (A i j))

/-- Step s of R228 after the exchange. -/
def luStep (F : Fmt) (rm : Rm) (s : Nat) (A : Mat) : Mat := fun i j =>
  if i ≤ s ∨ j < s then A i j else if j = s then (luFactor F rm s A i).1 else (luUpdate F rm s A i j).1

/-- The flags of step s. -/
def luFlags (F : Fmt) (rm : Rm) (s : Nat) (A : Mat) : List Flags :=
  (List.range 16).flatMap (fun i => if i ≤ s then [] else (luFactor F rm s A i).2 ::
    (List.range 16).map (fun j => if j ≤ s then 0 else (luUpdate F rm s A i j).2))

/-- t less the products x(k) × y(k) for k from 0 to n − 1, each step rounded once, with its flags. -/
def descend (F : Fmt) (rm : Rm) (x y : Nat → Nat) (t : Nat) : Nat → Nat × Flags
  | 0 => (t, 0)
  | k + 1 =>
    let r := descend F rm x y t k
    let q := F.fma rm (F.value (x k)).negate (F.value (y k)) (F.value r.1)
    (q.1, r.2 ||| q.2)

/-- t of R230 at column j. -/
def cholPivot (F : Fmt) (rm : Rm) (A : Mat) (j : Nat) : Nat × Flags := descend F rm (A j) (A j) (A j j) j

/-- dg of R230. -/
def cholRoot (F : Fmt) (rm : Rm) (A : Mat) (j : Nat) : Nat × Flags := F.sqrt rm (F.value (cholPivot F rm A j).1)

/-- a(i, j) below the diagonal. -/
def cholBelow (F : Fmt) (rm : Rm) (A : Mat) (j i : Nat) : Nat × Flags :=
  let u := descend F rm (A i) (A j) (A i j) j
  let q := F.div rm (F.value u.1) (F.value (cholRoot F rm A j).1)
  (q.1, u.2 ||| q.2)

/-- Column j of R230. -/
def cholStep (F : Fmt) (rm : Rm) (j : Nat) (A : Mat) : Mat := fun i c =>
  if c ≠ j then A i c else if i < j then 0 else if i = j then (cholRoot F rm A j).1 else (cholBelow F rm A j i).1

/-- The flags of column j. -/
def cholFlags (F : Fmt) (rm : Rm) (j : Nat) (A : Mat) : List Flags :=
  (cholPivot F rm A j).2 :: (cholRoot F rm A j).2 ::
    (List.range 16).map (fun i => if i ≤ j then 0 else (cholBelow F rm A j i).2)

/-- Element number n, in the order of the solve, of one line of R231: `B` the line as it stands, `X` the solved one. -/
def solved (F : Fmt) (rm : Rm) (side unit : Bool) (opT : Mat) (order : Nat → Nat) (B X : Nat → Nat) (n : Nat) : Nat × Flags :=
  let i := order n
  let u := if side then descend F rm (fun m => X (order m)) (fun m => opT (order m) i) (B i) n
    else descend F rm (fun m => opT i (order m)) (fun m => X (order m)) (B i) n
  if unit then u else let q := F.div rm (F.value u.1) (F.value (opT i i)); (q.1, u.2 ||| q.2)

/-- The rotation of rows p and p + 1 by (c, s) from column `from_` on, with its flags (R232, R233). -/
def rotated (F : Fmt) (rm : Rm) (p from_ : Nat) (c s : Machine.Num) (A : Mat) (i j : Nat) : Nat × Flags :=
  if j < from_ then (A i j, 0)
  else if i = p then F.dot2 rm c (F.value (A p j)) s (F.value (A (p + 1) j))
  else if i = p + 1 then F.dot2 rm c (F.value (A (p + 1) j)) s.negate (F.value (A p j))
  else (A i j, 0)

/-- The rotation of GIVQR at row i and column j, and what it leaves. -/
def givens (F : Fmt) (A : Mat) (i j : Nat) : Nat × Nat × Flags := rotation (F.value (A (i - 1) j)) (F.value (A i j))

def givStep (F : Fmt) (rm : Rm) (i j : Nat) (A : Mat) : Mat := fun a b =>
  if a = i ∧ b = j then 0
  else (rotated F rm (i - 1) j (Fmt.f64.value (givens F A i j).1) (Fmt.f64.value (givens F A i j).2.1) A a b).1

def givFlags (F : Fmt) (rm : Rm) (i j : Nat) (A : Mat) : List Flags :=
  (givens F A i j).2.2 :: (List.range 256).map (fun e => if e / 16 = i ∧ e % 16 = j then 0 else
    (rotated F rm (i - 1) j (Fmt.f64.value (givens F A i j).1) (Fmt.f64.value (givens F A i j).2.1) A (e / 16) (e % 16)).2)

/-! ### A cycle of a core -/

/-- Core `n` at the start of its next cycle: back-edges that are due, retirements and due landing registers are past. -/
def cycleStart (s : State) (n : Nat) : State :=
  let s := (s.backEdge ⟨n, false⟩).backEdge ⟨n, true⟩
  ((s.retireDue ⟨n, false⟩).retireDue ⟨n, true⟩).landingsDue n

/-- Core `n` at the merge stage of its next cycle (R14, R21): back-edges and due landing registers are past, the clock has
moved on by one and what is due has landed. -/
def atMerge (s : State) (n : Nat) : State := (cycleStart s n).tickCore n

/-- Whether a late landing keeps the core frozen (R14). -/
def frozen (s : State) (n : Nat) : Bool := ((cycleStart s n).core n).frozen.isSome

/-- The machine at the start of a cycle of core `n`, whose first context is at hand. -/
def atCycle (s : State) (n : Nat) : State := { s with cur := ⟨n, false⟩ }

/-- The machine once the step has taken its event from the agenda (log 1). -/
def afterTick (s : State) (es : List Instr) : State := { s with tick := s.tick + 1, log := [], agenda := es }

end Sys2Proof.Claim
end

