-- ==== Sys2Proof/Certificates/Slice0/Obligations.lean ====
section
/-! DEFINITION. The statements about the model. Each docstring cites the rules of spec/ that the statement formalises. -/

open Sys2Proof Sys2Proof.Machine

/-! ### The machine as a whole -/

/-- No step stops: whatever the state, the step answers a next state. (Derived: the spec names an effect, a trap or a node
fault for every case; an event that cannot happen in a state changes nothing, log 1.)

Every row of the opcode table answers a next state in every state: no refusal, no fault of the model.

A step is the execution of one row of the table: of the head of the agenda, or of the event that comes next on its own
(the model's own choice, log 1 and log 2). -/
def Obligations.StepsAnswer : Prop :=
  (∀ s : State, ∃ t, step s = .next t) ∧
  (∀ (i : Instr) (s : State), ∃ t, exec i s = .next t) ∧
  (∀ s : State,
    (∀ e es, s.agenda = e :: es → step s = exec e (Claim.afterTick s es)) ∧
      (s.agenda = [] → step s = exec s.defaultEvent (Claim.afterTick s [])))

/-- A step runs the decoded instruction. When a cycle of core n comes, ctx1 is unoccupied, and the bundle at ctx0's PC holds
one word, of slot k, that decodes to a well-formed instruction i which may issue (R82, R87), then the step is exec of i at
the issue of that bundle, between the PC's move past the bundle and the end of the issue (R66). The words of a BAR are
left to the statement about barriers. That a step runs one row, and which comes next where the agenda is empty, are the
model's choices (log 1, log 2). -/
def Obligations.StepRunsDecoded : Prop :=
  ∀ (s : State) (n : Nat) (es : List Instr) (f : Fetched) (k : Nat) (w : Word) (i : Instr),
    s.boot = .running → s.agenda = .bundleIssue n :: es →
    Claim.frozen (Claim.atCycle (Claim.afterTick s es) n) n = false →
    let c : CtxId := ⟨n, false⟩
    let u := Claim.atMerge (Claim.atCycle (Claim.afterTick s es) n) n
    (u.ctx ⟨n, true⟩).slice = none → (u.ctx c).mayIssue (u.core n).cycle = true → (u.ctx c).held = [] →
    u.fetchBundle n (u.ctx c).pc = .ok f → f.bundle.pre = none → f.bundle.words = [(k, w)] →
    decodeWord (classOfSlot k) w = .ok i → i.wf = true →
    let o : SlotOp := ⟨k, false, w, w, i⟩
    let v : State := { u with cur := c }
    (v.atSlot o).guardedOff o.cl o.word = false → v.bundleReady [o] = true → k < 8 → barOf [o] = none →
    let r := v.settleBlocks i
    r.bundleFault [o] = none →
    let p : Planned := ⟨f, none, 0, [o]⟩
    let b := (r.noteFetch c (r.ctx c).pc f.size).beginIssue c p [o]
    (k ≠ 0 → ∃ t, exec i (b.atSlot o) = .next t ∧ step s = .next ((t.updCtx c (fun x => x.past p b.edgeOf)).endIssue c)) ∧
      (k = 0 → ∃ t, exec i ((b.updCtx c (fun x => x.past p b.edgeOf)).atSlot o) = .next t ∧ step s = .next (t.endIssue c))

/-- All slots of a bundle issue in one cycle: every slot but B in MASK order, then the bundle is past, then B (R66); each
slot's part is exec of its instruction. That each slot's part is one execution of its row is the model's choice (log 1). -/
def Obligations.BundleIssuesEverySlot : Prop :=
  ∀ (s : State) (c : CtxId) (p : Planned) (acting : List SlotOp),
    let b := (s.noteFetch c (s.ctx c).pc p.f.size).beginIssue c p acting
    s.issueBundle c p acting =
      (((inMaskOrder acting).filter (fun o => o.slot == 0)).foldl State.runSlot
        ((((inMaskOrder acting).filter (fun o => o.slot != 0)).foldl State.runSlot b).updCtx c
          (fun k => k.past p b.edgeOf))).endIssue c ∧
    ∀ o : SlotOp, o.instr.slotClass.isSome = true → exec o.instr (s.atSlot o) = .next (s.runSlot o)

/-- Decoding what the encoder writes gives the instruction back, for every instruction of the table and every value of its
operands (R62, R65, R69, R70, R80). -/
def Obligations.EncodeDecode : Prop := ∀ i : Instr, Laws.Encoding.Statement i

/-- Words of the spec decode to the instructions they stand for: the words it writes out (R120's addi, fence.pkg 0x0003 of
R131, eret of R132), words put together bit by bit from Tables 3.4 to 3.9 for every class, and a prefix and a bundle header (R63, R72). -/
def Obligations.SpecWordsDecode : Prop :=
  let u0 : Pfx := ⟨false, false, 0⟩
  let g0 : Grd := ⟨false, 0⟩
  (decodeWord .s 0x0981C7FC = .ok (.addi ⟨false, false, 2⟩ 7 7 0xFC) ∧ decodeWord .s 0x01F54001 = .ok (.movi u0 21 1) ∧
    decodeWord .s 0x021AC601 = .ok (.rdc u0 43 0x18 1)) ∧
  (decodeWord .b 0x00730003 = .ok (.fence g0 3 3) ∧ decodeWord .b 0x00900000 = .ok (.eret g0) ∧
    decodeWord .b 0x00409500 = .ok (.loop g0 1 1 20) ∧ decodeWord .b 0x040FFFE1 = .ok (.br ⟨false, 1⟩ (-31)) ∧
    decodeWord .b 0x00540003 = .ok (.wait g0 1 3)) ∧
  (decodeWord .x 0x00731232 = .ok (.xcmpadv u0 3 1 2 3 2) ∧ decodeWord .x 0x00941260 = .ok (.xbnet u0 4 1 2 3)) ∧
  (decodeWord .v 0x0032408A = .ok (.vfma u0 1 4 1 2 true false) ∧
    decodeWord .v 0x01D65304 = .ok (.vcvt u0 3 5 6 0 1 false false) ∧
    decodeWord .v 0x0351BFC0 = .ok (.vmoviF32 u0 true 3 0x3FC0)) ∧
  (decodeWord .m 0x00022464 = .ok (.mma u0 2 1 2 3 false false true false) ∧
    decodeWord .m 0x00302A80 = .ok (.trsm u0 1 2 true 4) ∧ decodeWord .m 0x00D01C00 = .ok (.acct u0 7)) ∧
  (decodeWord .c 0x00121442 = .ok (.stV u0 4 10 2 2) ∧ decodeWord .c 0x00828170 = .ok (.ldS u0 10 0 1 3 2) ∧
    decodeWord .c 0x02027940 = .ok (.cpIn u0 2 30 5 0)) ∧
  decodePrefix 0x00310004 = some (.rep 3 1 4) ∧ decodeHeader 0x00010108 = some ⟨false, true, 8⟩

/-- The memory keeps its canonical form in every step: keys rise, and no entry equals what an unlisted byte reads as. The byte
that an unlisted address reads as is the model's choice (log 4). -/
def Obligations.MemoryStaysCanonical : Prop :=
  ∀ s t : State, Safety.MemCanonical s → step s = .next t → Safety.MemCanonical t

/-- The memory of the state after reset has its canonical form. The byte that an unlisted address reads as is the model's
choice (log 4). -/
def Obligations.ResetMemoryCanonical : Prop := Safety.MemCanonical State.reset

/-- What reset leaves in every context (the Reset column of Table 1.4), and what RDC reads there of LOOPST, CTN, PRI, IFQ and
BRK.

What reset leaves in every core, course and in the device (the Reset column of Table 1.4), and the whole Reset column of
Table 19.4: DRAINTH, the counters, GASPACE, FLHEAD, FLTAIL, FLOG, the links and the mailbox, whose bytes and CTRL read 0.
The byte that an unwritten address reads as is the model's choice (log 4). -/
def Obligations.ResetState : Prop :=
  (∀ c : CtxId,
    let k := State.reset.ctx c
    let s : State := { State.reset with cur := c }
    k.pc = 0 ∧ (∀ r, s.readS r = 0) ∧ (∀ r, s.readV r = 0) ∧ s.readP 0 = BitVec.allOnes 32 ∧ (∀ r, r ≠ 0 → s.readP r = 0) ∧
      (∀ r, s.readX r = 0) ∧ (∀ n, k.tile n = []) ∧ (∀ n, SMap.get [] k.q n = []) ∧ (∀ n, SMap.get .empty k.l n = .empty) ∧
      (∀ d, k.desc d = 0) ∧ (∀ n, k.book n = ⟨0, 0⟩) ∧ (∀ r, s.readBn r = 0) ∧ k.held = [] ∧ k.fpctl = 0 ∧ k.fpsw = 0 ∧
      (∀ n, SMap.get 0 k.ksw n = 0) ∧ k.piv = 0 ∧ k.gf = 0 ∧ k.brk = 0 ∧ k.nkey = 0 ∧ k.repcnt = 0 ∧ k.loop.depth = 0 ∧
      k.node = 0xFFFFFFFF ∧ k.depth = 0 ∧ k.ifq = [] ∧ k.own = 0 ∧ (∀ n, k.copy n = .free) ∧ k.slice = none ∧
      (∀ w, s.readCr 0x07 w = 0) ∧ (∀ w, s.readCr 0x08 w = 0) ∧ s.readCr 0x02 0 = 0 ∧ s.readCr 0x09 0 = 0 ∧
      (∀ w, s.readCr 0x18 w = 0) ∧ (∀ w, s.readCr 0x1A w = 0) ∧ s.readCr 0x0A 0 = 0) ∧
  ((∀ n, (State.reset.core n).sq = [] ∧ (State.reset.core n).sqOvf = 0 ∧ (State.reset.core n).dqbase = 0 ∧
      (State.reset.core n).dqlim = 0) ∧
    (∀ n b, SMap.get none (State.reset.course n).barriers b = none) ∧
    (∀ n, (State.reset.course n).twin = false ∧ (State.reset.course n).plumb = false) ∧ State.reset.seed = 0 ∧
    State.reset.mgmt.drainth = 10000 ∧ State.reset.mgmt.beaddrop = 0 ∧ State.reset.mgmt.winerr = 0 ∧
    State.reset.mgmt.plumbbrk = 0 ∧ State.reset.mgmt.recerr = 0 ∧ State.reset.mgmt.gaspace = 0 ∧
    State.reset.mgmt.flhead = 0 ∧ State.reset.mgmt.fltail = 0 ∧ State.reset.mgmt.fllost = 0 ∧
    (∀ n, SMap.get 0 State.reset.mgmt.flog n = 0) ∧
    (∀ l, (State.reset.port l).up = false ∧ (State.reset.port l).fenced = 0 ∧ (State.reset.port l).railfix = 0 ∧
      (State.reset.port l).replay = 0 ∧ (State.reset.port l).downs = 0) ∧
    (let m := State.reset.mbox
     m.phase = .idle ∧ m.go = false ∧ m.cmd = 0 ∧ m.len = 0 ∧ m.status = 0 ∧ (∀ i, SMap.get 0 m.pay i = 0) ∧
      (∀ o, 0x8000 ≤ o → o < 0x10000 → State.reset.mgmtReg o = some 0)) ∧
    (∀ o ∈ [0x10, 0x18, 0x20, 0x30, 0x38, 0x40, 0x48], State.reset.mgmtReg o = some 0) ∧
    (∀ o, 0x1000 ≤ o → o < 0x1800 → State.reset.mgmtReg o = some 0) ∧
    (∀ k < 20, ∀ i < 4, State.reset.mgmtReg (0x4000 + 0x40 * k + 8 * i) = some 0) ∧ State.reset.mgmtReg 0x08 = some 10000 ∧
    (∀ k, State.reset.byte k = unwritten))

/-! ### Issue and results -/

/-- A slot wholly guarded off has no effect (R24), nor has one outside a bundle where the device does not run
(R357).

Operands that break a rule checked at decode are an illegal-operand trap, precise at the bundle, with the word as DETAIL
(R73, R82). That the guard does not matter is read from R24 and R82 (log 25).

A fault found at issue is raised, precise at the bundle, and no effect takes place (R82), but that the errors of a block
it has read are found (R258). That exec outside a bundle checks this itself is the model's choice (log 1).

A slot's scoreboard conditions (R87): no scalar register and no descriptor that it uses waits for a result; its form's own
wait has ended; an array operation finds room in the queue and no ACCMOV on its way to a tile of its own; no region it touches is
held: by a CP.IN against reads and writes, by a CP.OUT or CP.SS against writes (R182), by an ACCST against both, by array operations
against writes of the copy slots (R219). What waits has not completed, or has failed with its fault undetected (R299).

What a form waits for (R129, R138, R160, R198, R217, R219, R229, R303): WAIT for its copies, tiles or posted operations, or
a failed one; NDONE for all that its context has issued; ERET for every result; RDC and WRC of KSWn for the operations that write its
tile, of PIV, GF and BRK for the factorisation forms; a pop for a written entry; VPOPL for data that has landed; QNT and DQ for the
CBLD of their codebook, CBLD for its readers; a resumed GETRF or POTRF for the factorisation forms; ACCMOV for the array operations
on its tile; a command for its copy id; any other for nothing.

The queues over a bundle (R161, R235): it faults at its first slot, in MASK order, that pops a queue with no more entries than
its earlier slots pop, or that drains into one in which the entries left after every pop, and its own, are more than 16. VPOPL of an
empty landing register faults with 0x100 + l (R160); no other form of V or X faults at issue. -/
def Obligations.IssueGates : Prop :=
  (∀ (i : Instr) (s : State),
    let r : State := { s with slot := (classOf i).slot, heldNow := false }
    (i.slotClass.isSome = true → s.granted = false → s.boot ≠ .running → exec i s = .next s) ∧
    (i.slotClass.isSome = true → s.granted = false → s.boot = .running → i.wf = true → r.guardedOff (classOf i) (wordOf i) = true →
      exec i s = .next r)) ∧
  (∀ (i : Instr) (s : State),
    i.slotClass.isSome = true → s.granted = false → s.boot = .running → i.wf = false →
      exec i s = .next (({ s with slot := (classOf i).slot, heldNow := false } : State).raise s.cur (classOf i).slot false
        0x03 ((wordOf i).setWidth 128) 0)) ∧
  (∀ (i : Instr) (s : State) (x : BitVec 8) (dt : BitVec 128),
    let r : State := { s with slot := (classOf i).slot, heldNow := false }
    i.slotClass.isSome = true → s.granted = false → s.boot = .running → i.wf = true → r.guardedOff (classOf i) (wordOf i) = false →
      slotReady (classOf i) (wordOf i) i r = true → issueFault (classOf i) (wordOf i) i (Claim.issuing i s) = some (x, dt) →
      exec i s = .next ((((Claim.issuing i s).seeBlock i).upd (fun k => { k with named := namedBy i })).raise s.cur
        (classOf i).slot false x dt 0)) ∧
  (∀ (s : State) (cl : SlotClass) (w : Word) (i : Instr),
    let c := s.here
    let n := s.cur.core
    let both : List Ctx := [(s.core n).ctx0, (s.core n).ctx1]
    let copying (k : Ctx) (q : CopyCmd) : Prop := (∃ j, (j, CopyState.running q) ∈ k.copies) ∨ ∃ f ∈ k.late, ∃ j, f.op = some (.copy j q)
    let failed (k : Ctx) (o : MemOp) : Prop := ∃ f ∈ k.late, f.op = some (.mem o)
    let held (k : Ctx) (o : MemOp) : Prop := o ∈ k.ops ∨ failed k o
    let region (d : Descr) (g : Nat) : Prop := ∃ r < d.rows, ∃ j < d.rowBytes, g = (s.ownKey n (d.base + r * d.stride) + j) / 64
    (slotReady cl w i s = true ↔
      (∀ r ∈ sUses cl w, r ≠ 0 → ∀ o, held c o → o.interlocks.map BitVec.toNat ≠ some r) ∧
      (∀ d ∈ namedIn .d cl w, ∀ o, held c o → ∀ e, o.act = .load (.desc e) → e.toNat ≠ d) ∧
      formReady i s = true ∧
      (isArray i = true → (s.core n).arrays.length < 4 ∧ ∀ k ∈ tilesTouched i, ∀ o ∈ c.ops, ∀ rows t, o.act ≠ .move k rows t) ∧
      regionReady i s = true) ∧
    (regionReady i s = true ↔ ∀ g,
      ((g ∈ (slabUse i s).1 ∨ g ∈ (slabUse i s).2) →
        (∀ k ∈ both, ∀ q, copying k q → q.kind = .cpIn → ¬ region (Descr.of q.d) g) ∧
        ∀ k ∈ both, ∀ o, (o ∈ k.ops ∧ o.performed = false) ∨ failed k o → g ∉ o.region) ∧
      (g ∈ (slabUse i s).2 →
        (∀ k ∈ both, ∀ q, copying k q → q.kind = .cpOut ∨ q.kind = .cpSs → ¬ region (Descr.of q.d) g) ∧
        (i.slotClass = some .c → g ∉ s.arrayBusy n)))) ∧
  (∀ (s : State) (u : Pfx) (g : Grd) (k : BitVec 2) (m : BitVec 16) (r a : BitVec 6) (n : BitVec 8)
      (d b j : BitVec 5) (q : BitVec 2) (l t e : BitVec 3) (c x y : BitVec 4) (f : Bool),
    let h := s.here
    let busy (i : Nat) : Prop := (∃ z, h.copy i = .running z) ∨ ∃ z ∈ h.late, ∃ j v, z.op = some (.copy j v) ∧ j.toNat = i
    let arrays : List ArrayOp := (s.myCore.aq.filter (fun z => z.one == s.cur.one)) ++ h.withheld
    let array (z : ArrayOp) : Prop := z ∈ arrays ∨ ∃ v ∈ h.late, v.op = some (.array z)
    let quiet (j : BitVec 3) : Prop :=
      (∀ z, array z → j ∉ tilesWritten z.instr) ∧ ∀ o ∈ h.ops, ∀ rows v, o.act ≠ .move j rows v
    let factored : Prop := ∀ z, array z → isFactor z.instr = false
    let held (o : MemOp) : Prop := o ∈ h.ops ∨ ∃ z ∈ h.late, z.op = some (.mem o)
    let faulted (z : BitVec 16) : Prop := ∃ i < 16, z.getLsbD i = true ∧ ∃ v, h.copy i = .faulted v
    let posted (z : BitVec 16) : Prop := ∃ v ∈ h.failed, z.getLsbD v.1.toNat = true
    (formReady (.wait g 0 m) s = true ↔ (∀ i < 16, m.getLsbD i = true → ¬ busy i) ∨ faulted m) ∧
    (formReady (.wait g 1 m) s = true ↔ ∀ j < 8, m.getLsbD j = true → quiet (BitVec.ofNat 3 j)) ∧
    (formReady (.wait g 2 m) s = true ↔ (∀ o, held o → o.posted = true → m.getLsbD o.oc.toNat = false) ∨ posted m) ∧
    (formReady (.ndone g) s = true ↔ issueFault .b 0 (.ndone g) s ≠ none ∨ ((∀ i < 16, ¬ busy i) ∧ arrays = [] ∧ h.ops = [] ∧
      (∀ z ∈ h.l, ∀ i v w p, z.2 ≠ .pending i v w p) ∧ h.late = [] ∧ ∀ z ∈ s.ksq, z.isFrom s.cur = false)) ∧
    (formReady (.eret g) s = true ↔ issueFault .b 0 (.eret g) s ≠ none ∨
      ((∀ z ∈ h.flight, z.landed = true ∧ z.due ≤ s.cycle) ∧ ∀ z, ¬ array z)) ∧
    (∀ w, ∀ i ∈ [Instr.rdc u r n w, .wrc u r n w], formReady i s = true ↔
      (∀ j < 8, n.toNat = 0x10 + j → quiet (BitVec.ofNat 3 j)) ∧ (0x18 ≤ n.toNat → n.toNat ≤ 0x1A → factored)) ∧
    (∀ i ∈ [Instr.vpopq u d q, .fpushq u q a c e, .stq u q a c e], formReady i s = true ↔
      ∀ z ∈ (SMap.get [] h.q q.toNat).head?, z.written = true) ∧
    ((∀ z v p, SMap.get .empty h.l l.toNat = .landed z v p → (formReady (.vpopl u d l) s = true ↔
        v ≤ if h.lastIssue = none then h.stallUntil else s.cycle)) ∧
      (∀ i v w p, SMap.get .empty h.l l.toNat = .pending i v w p → formReady (.vpopl u d l) s = false) ∧
      (SMap.get .empty h.l l.toNat = .empty → (formReady (.vpopl u d l) s = true ↔
        ∀ z ∈ h.late, ∀ o, z.op = some (.mem o) → o.act ≠ .load (.landing l)))) ∧
    (formReady (.qnt u d j b f) s = true ↔ ∀ z, array z → cbLoaded z ≠ some ((s.readV b).toNat / 2 ^ 53 % 4)) ∧
    (formReady (.dq u d b j f) s = true ↔ ∀ z, array z → cbLoaded z ≠ some ((s.readV b).toNat / 2 ^ 208 % 4)) ∧
    (formReady (.cbld u x k) s = true ↔ ∀ z, array z → k.toNat ∉ cbRead z) ∧
    (∀ v, ∀ i ∈ [Instr.getrf u t f v, .potrf u t f v], formReady i s = true ↔ v = false ∨ factored) ∧
    (formReady (.accmov u t e) s = true ↔ ∀ z, array z → t ∉ tilesTouched z.instr) ∧
    (∀ i ∈ [Instr.cpIn u x r y c, .cpOut u x r y c, .cpSs u x r y c, .rsub u x r y c],
      formReady i s = true ↔ ¬ busy y.toNat) ∧
    ∀ i : Instr, (∀ u g k m r a n d b j q l t e c x y f v w, i ∉ [Instr.wait g k m, .ndone g, .eret g, .rdc u r n w, .wrc u r n w,
        .vpopq u d q, .fpushq u q a c e, .stq u q a c e, .vpopl u d l, .qnt u d j b f, .dq u d b j f, .cbld u x k, .getrf u t f v,
        .potrf u t f v, .accmov u t e, .cpIn u x r y c, .cpOut u x r y c, .cpSs u x r y c, .rsub u x r y c]) → formReady i s = true) ∧
  ((∀ (i : Instr) (q : BitVec 2), popsOf i = some q ↔ (∃ u d, i = .vpopq u d q) ∨ (∃ u a c r, i = .fpushq u q a c r) ∨
      ∃ u a c r, i = .stq u q a c r) ∧
    (∀ (c : Ctx) (ops : List SlotOp),
      let pops (q : BitVec 2) (l : List SlotOp) : Nat := (l.filter (fun o => popsOf o.instr == some q)).length
      let len (q : BitVec 2) : Nat := (SMap.get [] c.q q.toNat).length
      let fails (before : List SlotOp) (o : SlotOp) (q : BitVec 2) : Prop :=
        (popsOf o.instr = some q ∧ len q ≤ pops q before) ∨
        ∃ u a, o.instr = .drain u a q ∧ 16 < len q - pops q ops + (if c.af a = 1 then 16 else 8)
      (∀ p o r q, ops = p ++ o :: r → fails p o q → (∀ p' o' r' q', ops = p' ++ o' :: r' → p'.length < p.length → ¬ fails p' o' q') →
        queueFault c ops = some (o.slot, q)) ∧
      ((∀ p o r q, ops = p ++ o :: r → ¬ fails p o q) → queueFault c ops = none)) ∧
    (∀ (s : State) (w : Word) (u : Pfx) (d : BitVec 5) (l : BitVec 3), issueFault .v w (.vpopl u d l) s =
      if SMap.get .empty s.here.l l.toNat = .empty then some (0x08, BitVec.ofNat 128 (0x100 + l.toNat)) else none) ∧
    ∀ (s : State) (w : Word) (i : Instr), ((∀ u d l, i ≠ .vpopl u d l) → issueFault .v w i s = none) ∧ issueFault .x w i s = none)

/-- s0 reads 0 and p0 reads all ones in every state, and a write to s0 or p0 leaves every register as it was (R27).

A result that lands writes its register and no other, and ORs its flags into FPSW[4:0]; nothing else of the context
changes but what an unwind left unpredictable in that register (R84, R101, R305), and the result and its flags count among
what a commit signature covers (R348). What an unwind leaves unpredictable is a free value (log 5).

What a scalar, predicate or index result leaves in its register once it has landed (R27, R84, R119): the value, where
the result is still live.

What a vector result leaves in its register once it has landed, element by element (R84, R94, R142): the element of
the result where it is live, else the old one. -/
def Obligations.ResultsLandInRegisters : Prop :=
  ((∀ s : State, s.readS 0 = 0 ∧ s.readP 0 = BitVec.allOnes 32) ∧
      ∀ (c : Ctx) (v : Vec) (m : Part) (d : Dest),
        (c.store (.s 0) v m).stored d = c.stored d ∧ (c.store (.p 0) v m).stored d = c.stored d) ∧
  (∀ (c : Ctx) (f : Flight),
    (∀ d, d ≠ f.dest → (c.land f).stored d = c.stored d) ∧
      (c.land f).fpsw = c.fpsw ||| f.flags.setWidth 32 ∧
      c.land f = { c with
        s := (c.land f).s, v := (c.land f).v, p := (c.land f).p, x := (c.land f).x, bn := (c.land f).bn
        fpsw := (c.land f).fpsw, unpred := (c.land f).unpred
        did := c.did ++ [.result f.dest f.val, .fpsw f.flags] }) ∧
  ((∀ (c : Ctx) (f : Flight) (r : BitVec 6), f.dest = .s r → r ≠ 0 → f.live.getLsbD 0 = true →
      (c.land f).stored (.s r) = (f.val.setWidth 64).setWidth 1024) ∧
    (∀ (c : Ctx) (f : Flight) (r : BitVec 4), f.dest = .x r → f.live.getLsbD 0 = true →
      (c.land f).stored (.x r) = (f.val.setWidth 32).setWidth 1024) ∧
    (∀ (c : Ctx) (f : Flight) (r : BitVec 4) (j : Nat), f.dest = .p r → r ≠ 0 → j < 32 →
      ((c.land f).stored (.p r)).getLsbD j =
        if f.live.getLsbD j then f.val.getLsbD j else (c.stored (.p r)).getLsbD j)) ∧
  (∀ (c : Ctx) (f : Flight) (r : BitVec 5) (w : Nat) (xs : List Nat)
      (act : Nat → Bool) (i : Nat),
    w ∈ [8, 16, 32, 64] → f.dest = .v r → f.val = BitVec.ofNat 1024 (packElems w xs) → f.live = elemPart w act →
    i < 1024 / w → elem w ((c.land f).stored (.v r)) i =
      if act i then xs.getD i 0 % 2 ^ w else elem w (c.stored (.v r)) i)

/-- The frame of every instruction of the S, X and V slots: where it issues, no byte of memory, no other context, no state
of the core or of the device changes; of its own context only results on their way and the faults they raise change (and
the queue or landing register that a pop empties); and no register but the destinations reads differently (R66, R84). -/
def Obligations.RegisterFrame : Prop := ∀ (i : Instr) (s t : State),
  Claim.isRegisterForm i = true → Claim.Issues i s → exec i s = .next t →
    Claim.Within (Claim.issuing i s) t (Claim.resultsAndPops i) ∧
      ∀ d : Dest, d ∉ Claim.writes i → t.read d = (Claim.issuing i s).read d

/-! ### The S slot -/

/-- ADD, SUB, the multiplies and the bitwise forms (Table 5.1): the result, its bound and its register.

DIV, DIVU, REM and REMU (R117): truncated quotients and their remainders, with the fixed results of R118 where there is
no quotient; the bound is 24.

Shifts, minima and maxima (Table 5.1): shifts by b[5:0], arithmetic ones rounding down.

Counts (Table 5.1): CLZ and CTZ give 64 for 0, POPC the number of 1 bits.

Immediate forms and moves (Table 5.1, Table 4.7). MOVS shifts its destination left by 14 and puts the immediate in. -/
def Obligations.IntegerArithmetic : Prop :=
  (∀ (u : Pfx) (d a b : BitVec 6),
    Claim.Runs (.add u d a b) (fun s => s.putS 1 d (s.readS a + s.readS b) 0) ∧
    Claim.Runs (.sub u d a b) (fun s => s.putS 1 d (s.readS a - s.readS b) 0) ∧
    Claim.Runs (.mul u d a b) (fun s => s.putS 3 d (BitVec.ofNat 64 ((s.readS a).toNat * (s.readS b).toNat)) 0) ∧
    Claim.Runs (.mulh u d a b)
      (fun s => s.putS 3 d (BitVec.ofInt 64 ((s.readS a).toInt * (s.readS b).toInt / 2 ^ 64)) 0) ∧
    Claim.Runs (.mulhu u d a b)
      (fun s => s.putS 3 d (BitVec.ofNat 64 ((s.readS a).toNat * (s.readS b).toNat / 2 ^ 64)) 0) ∧
    Claim.Runs (.and u d a b) (fun s => s.putS 1 d (s.readS a &&& s.readS b) 0) ∧
    Claim.Runs (.or u d a b) (fun s => s.putS 1 d (s.readS a ||| s.readS b) 0) ∧
    Claim.Runs (.xor u d a b) (fun s => s.putS 1 d (s.readS a ^^^ s.readS b) 0)) ∧
  (∀ (u : Pfx) (d a b : BitVec 6),
    Claim.Runs (.div u d a b) (fun s => s.putS 24 d
      (if s.readS b = 0 then BitVec.allOnes 64 else BitVec.ofInt 64 ((s.readS a).toInt.tdiv (s.readS b).toInt)) 0) ∧
    Claim.Runs (.divu u d a b) (fun s => s.putS 24 d
      (if s.readS b = 0 then BitVec.allOnes 64 else BitVec.ofNat 64 ((s.readS a).toNat / (s.readS b).toNat)) 0) ∧
    Claim.Runs (.rem u d a b) (fun s => s.putS 24 d
      (if s.readS b = 0 then s.readS a else BitVec.ofInt 64 ((s.readS a).toInt.tmod (s.readS b).toInt)) 0) ∧
    Claim.Runs (.remu u d a b) (fun s => s.putS 24 d
      (if s.readS b = 0 then s.readS a else BitVec.ofNat 64 ((s.readS a).toNat % (s.readS b).toNat)) 0)) ∧
  (∀ (u : Pfx) (d a b : BitVec 6),
    Claim.Runs (.shl u d a b) (fun s => s.putS 1 d (BitVec.ofNat 64 ((s.readS a).toNat * 2 ^ ((s.readS b).toNat % 64))) 0) ∧
    Claim.Runs (.shr u d a b) (fun s => s.putS 1 d (BitVec.ofNat 64 ((s.readS a).toNat / 2 ^ ((s.readS b).toNat % 64))) 0) ∧
    Claim.Runs (.ashr u d a b) (fun s => s.putS 1 d (BitVec.ofInt 64 ((s.readS a).toInt / 2 ^ ((s.readS b).toNat % 64))) 0) ∧
    Claim.Runs (.min u d a b) (fun s => s.putS 1 d (BitVec.ofInt 64 (min (s.readS a).toInt (s.readS b).toInt)) 0) ∧
    Claim.Runs (.max u d a b) (fun s => s.putS 1 d (BitVec.ofInt 64 (max (s.readS a).toInt (s.readS b).toInt)) 0) ∧
    Claim.Runs (.minu u d a b) (fun s => s.putS 1 d (BitVec.ofNat 64 (min (s.readS a).toNat (s.readS b).toNat)) 0) ∧
    Claim.Runs (.maxu u d a b) (fun s => s.putS 1 d (BitVec.ofNat 64 (max (s.readS a).toNat (s.readS b).toNat)) 0)) ∧
  (∀ (u : Pfx) (d a : BitVec 6),
    Claim.Runs (.clz u d a) (fun s => s.putS 1 d (BitVec.ofNat 64 (64 - Nat.size (s.readS a).toNat)) 0) ∧
    Claim.Runs (.popc u d a)
      (fun s => s.putS 1 d (BitVec.ofNat 64 (Finset.univ.filter (fun j : Fin 64 => (s.readS a).getLsbD j)).card) 0) ∧
    ∀ s, Claim.Issues (.ctz u d a) s → ∃ n ≤ 64,
      (∀ j < n, ((Claim.issuing (.ctz u d a) s).readS a).getLsbD j = false) ∧
      (n < 64 → ((Claim.issuing (.ctz u d a) s).readS a).getLsbD n = true) ∧
      exec (.ctz u d a) s = .next ((Claim.issuing (.ctz u d a) s).putS 1 d (BitVec.ofNat 64 n) 0)) ∧
  (∀ (u : Pfx) (d a : BitVec 6) (i : BitVec 8) (k : BitVec 6) (m : BitVec 14),
    Claim.Runs (.addi u d a i) (fun s => s.putS 1 d (s.readS a + BitVec.ofInt 64 i.toInt) 0) ∧
    Claim.Runs (.andi u d a i) (fun s => s.putS 1 d (s.readS a &&& BitVec.ofNat 64 i.toNat) 0) ∧
    Claim.Runs (.ori u d a i) (fun s => s.putS 1 d (s.readS a ||| BitVec.ofNat 64 i.toNat) 0) ∧
    Claim.Runs (.xori u d a i) (fun s => s.putS 1 d (s.readS a ^^^ BitVec.ofNat 64 i.toNat) 0) ∧
    Claim.Runs (.shli u d a k) (fun s => s.putS 1 d (BitVec.ofNat 64 ((s.readS a).toNat * 2 ^ k.toNat)) 0) ∧
    Claim.Runs (.shri u d a k) (fun s => s.putS 1 d (BitVec.ofNat 64 ((s.readS a).toNat / 2 ^ k.toNat)) 0) ∧
    Claim.Runs (.ashri u d a k) (fun s => s.putS 1 d (BitVec.ofInt 64 ((s.readS a).toInt / 2 ^ k.toNat)) 0) ∧
    Claim.Runs (.movi u d m) (fun s => s.putS 1 d (BitVec.ofInt 64 m.toInt) 0) ∧
    Claim.Runs (.movs u d m) (fun s => s.putS 1 d (BitVec.ofNat 64 ((s.readS d).toNat * 2 ^ 14 + m.toNat)) 0))

/-- Division has fixed results in the cases that have no quotient, and none of them traps (R118): by 0, and of −2^63 by −1.
MOVS reads sd as a source at issue, with bound 1 (R118). -/
def Obligations.DivisionCorners : Prop := ∀ (u : Pfx) (d a b : BitVec 6) (m : BitVec 14),
  (∀ i ∈ [Instr.div u d a b, .divu u d a b, .rem u d a b, .remu u d a b], ∀ s, Claim.Issues i s →
    let t := Claim.issuing i s
    let x := t.readS a
    (t.readS b = 0 → exec i s = .next (t.putS 24 d
      (if i = .div u d a b then -1 else if i = .divu u d a b then BitVec.ofNat 64 (2 ^ 64 - 1) else x) 0)) ∧
    (x = BitVec.intMin 64 → t.readS b = -1 →
      (i = .div u d a b → exec i s = .next (t.putS 24 d (BitVec.intMin 64) 0)) ∧
      (i = .rem u d a b → exec i s = .next (t.putS 24 d 0 0)))) ∧
  Claim.Runs (.movs u d m) (fun s => s.putS 1 d (BitVec.ofNat 64 ((s.readS d).toNat * 2 ^ 14 + m.toNat)) 0)

/-- SEL writes sd := sa where pc[0] is 1, and performs no write at all where it is 0; with a false guard it has no effect;
the word of R120's example (R120). -/
def Obligations.SelectOrNothing : Prop := ∀ (u : Pfx) (d a : BitVec 6) (c : BitVec 4),
  Claim.Runs (.sel u d a c) (fun s => if (s.readP c).getLsbD 0 then s.putS 1 d (s.readS a) 0 else s) ∧
  (∀ s : State, s.granted = false → s.boot = .running → (Instr.sel u d a c).wf = true →
    (({ s with slot := 1, heldNow := false } : State).guard u.n u.g).getLsbD 0 = false →
      exec (.sel u d a c) s = .next { s with slot := 1, heldNow := false }) ∧
  opcOf (wordOf (.sel u d a c)) = 0x0F ∧ decodeWord .s 0x0981C7FC = .ok (.addi ⟨false, false, 2⟩ 7 7 0xFC)

/-- The integer compares write a whole predicate: all ones where the relation holds, else 0; a write to p0 is discarded;
their opcodes (R119). -/
def Obligations.IntegerCompares : Prop := ∀ (u : Pfx) (p : BitVec 4) (a b : BitVec 6),
  let all := BitVec.allOnes 32
  Claim.Runs (.cmpeq u p a b) (fun s => s.putP 1 p (if s.readS a = s.readS b then all else 0) all 0) ∧
  Claim.Runs (.cmpne u p a b) (fun s => s.putP 1 p (if s.readS a ≠ s.readS b then all else 0) all 0) ∧
  Claim.Runs (.cmplt u p a b) (fun s => s.putP 1 p (if (s.readS a).toInt < (s.readS b).toInt then all else 0) all 0) ∧
  Claim.Runs (.cmple u p a b) (fun s => s.putP 1 p (if (s.readS a).toInt ≤ (s.readS b).toInt then all else 0) all 0) ∧
  Claim.Runs (.cmpltu u p a b) (fun s => s.putP 1 p (if (s.readS a).toNat < (s.readS b).toNat then all else 0) all 0) ∧
  Claim.Runs (.cmpleu u p a b) (fun s => s.putP 1 p (if (s.readS a).toNat ≤ (s.readS b).toNat then all else 0) all 0) ∧
  [Instr.cmpeq u p a b, .cmpne u p a b, .cmplt u p a b, .cmpltu u p a b, .cmple u p a b, .cmpleu u p a b].map
    (fun i => opcOf (wordOf i)) = [0x28, 0x29, 0x2A, 0x2B, 0x2C, 0x2D] ∧
  (∀ w : Word, w.toNat / 2 ^ 20 % 64 ∈ List.range' 0x28 6 → w.toNat % 4 ≠ 0 → ∃ e, decodeWord .s w = .error e) ∧
  ∀ (c : Ctx) (v : Vec) (m : Part) (d : Dest), (c.store (.p 0) v m).stored d = c.stored d

/-- The scalar floating-point forms of FP32 (R121): operands from bits [31:0] after FTZI, one rounding by FPCTL.RM, the
result after FTZO zero-extended into sd; 4 cycles, 14 for FDIV and FSQRT.

The scalar floating-point forms of FP64 (R121): all 64 bits; 6 cycles, 22 for FDIV and FSQRT.

A NaN operand gives the canonical NaN of the format, and NV exactly where one is signalling (R103).

The floating-point compares (Table 5.2): the relation, the flag NV, and the bound of the width. -/
def Obligations.ScalarFloat : Prop :=
  (∀ (u : Pfx) (d a b : BitVec 6) (f o : Bool),
    let x (s : State) (r : BitVec 6) : Machine.Num := Fmt.f32.operand f ((s.readS r).toNat % 2 ^ 32)
    let res (s : State) (lat : Nat) (y : Nat × Flags) : State :=
      s.putS lat d (BitVec.ofNat 64 (Fmt.f32.flushOut o y).1) (Fmt.f32.flushOut o y).2
    Claim.Runs (.faddF32 u d a b f o) (fun s => res s 4 (Fmt.f32.add s.rm (x s a) (x s b))) ∧
    Claim.Runs (.fsubF32 u d a b f o) (fun s => res s 4 (Fmt.f32.sub s.rm (x s a) (x s b))) ∧
    Claim.Runs (.fmulF32 u d a b f o) (fun s => res s 4 (Fmt.f32.mul s.rm (x s a) (x s b))) ∧
    Claim.Runs (.ffmaF32 u d a b f o) (fun s => res s 4 (Fmt.f32.fma s.rm (x s a) (x s b) (x s d))) ∧
    Claim.Runs (.fdivF32 u d a b f o) (fun s => res s 14 (Fmt.f32.div s.rm (x s a) (x s b))) ∧
    Claim.Runs (.fsqrtF32 u d a f o) (fun s => res s 14 (Fmt.f32.sqrt s.rm (x s a)))) ∧
  (∀ (u : Pfx) (d a b : BitVec 6) (f o : Bool),
    let x (s : State) (r : BitVec 6) : Machine.Num := Fmt.f64.operand f (s.readS r).toNat
    let res (s : State) (lat : Nat) (y : Nat × Flags) : State :=
      s.putS lat d (BitVec.ofNat 64 (Fmt.f64.flushOut o y).1) (Fmt.f64.flushOut o y).2
    Claim.Runs (.faddF64 u d a b f o) (fun s => res s 6 (Fmt.f64.add s.rm (x s a) (x s b))) ∧
    Claim.Runs (.fsubF64 u d a b f o) (fun s => res s 6 (Fmt.f64.sub s.rm (x s a) (x s b))) ∧
    Claim.Runs (.fmulF64 u d a b f o) (fun s => res s 6 (Fmt.f64.mul s.rm (x s a) (x s b))) ∧
    Claim.Runs (.ffmaF64 u d a b f o) (fun s => res s 6 (Fmt.f64.fma s.rm (x s a) (x s b) (x s d))) ∧
    Claim.Runs (.fdivF64 u d a b f o) (fun s => res s 22 (Fmt.f64.div s.rm (x s a) (x s b))) ∧
    Claim.Runs (.fsqrtF64 u d a f o) (fun s => res s 22 (Fmt.f64.sqrt s.rm (x s a)))) ∧
  (∀ (F : Fmt) (rm : Rm) (a b : Machine.Num), (a.isNan || b.isNan) = true →
    let r : Nat × Flags := (F.canon, if a.isSnan || b.isSnan then nvF else 0)
    F.add rm a b = r ∧ F.sub rm a b = r ∧ F.mul rm a b = r ∧ F.div rm a b = r) ∧
  (∀ (u : Pfx) (p : BitVec 4) (a b : BitVec 6) (f w : Bool),
    let F := if w then Fmt.f64 else Fmt.f32
    let x (s : State) (r : BitVec 6) : Machine.Num := F.operand f ((s.readS r).toNat % 2 ^ F.width)
    let un (s : State) : Bool := (x s a).isNan || (x s b).isNan
    let sn (s : State) : Flags := if (x s a).isSnan || (x s b).isSnan then nvF else 0
    let an (s : State) : Flags := if un s then nvF else 0
    let res (s : State) (q : Bool) (fl : Flags) : State :=
      s.putP (if w then 6 else 4) p (if q then BitVec.allOnes 32 else 0) (BitVec.allOnes 32) fl
    Claim.Runs (.fcmpeq u p a b f w) (fun s => res s (!un s && (x s a).eq (x s b)) (sn s)) ∧
    Claim.Runs (.fcmplt u p a b f w) (fun s => res s (!un s && (x s a).lt (x s b)) (an s)) ∧
    Claim.Runs (.fcmple u p a b f w) (fun s => res s (!un s && ((x s a).lt (x s b) || (x s a).eq (x s b))) (an s)) ∧
    Claim.Runs (.fcmpun u p a b f w) (fun s => res s (un s) (sn s)))

/-- What the patterns of a format stand for (Table 4.2), what FTZI makes of an operand and FTZO of a result (R99), and the orders
by which values are compared: the order of the reals with the infinities at its ends, and that of R145, in which -0 is below +0.

Every result of the floating-point operations is the exact value rounded once to the format, with its flags (R97, R98):
the rounding itself, sums, products, fused sums, sums of two products, quotients and square roots of finite numbers; the sign
of an exact zero (R104); and the infinities, NaNs, invalid cases and division by zero of each of them (R103). That 0 × ∞ is
invalid in a fused sum whatever is added is the model's reading (DEDUCED, log 18). -/
def Obligations.RoundedOnce : Prop :=
  ((∀ F ∈ [Fmt.f64, Fmt.f32, Fmt.f16, Fmt.bf16, Fmt.h8], ∀ (n : Bool) (ex fr : Nat), ex < 2 ^ F.e → fr < 2 ^ F.f →
      let b := (if n then 2 ^ (F.e + F.f) else 0) + ex * 2 ^ F.f + fr
      let zero := if n then 2 ^ (F.e + F.f) else 0
      let sgn : ℝ := if n then -1 else 1
      let x := F.value b
      (ex = 0 → Claim.Stands (sgn * 2 ^ (1 - (F.bias : ℤ)) * (fr / 2 ^ F.f)) x ∧ x.neg = n ∧ (x.isZero = true ↔ fr = 0)) ∧
      (0 < ex → ex < 2 ^ F.e - 1 → Claim.Stands (sgn * 2 ^ ((ex : ℤ) - F.bias) * (1 + fr / 2 ^ F.f)) x ∧ x.neg = n) ∧
      (ex = 2 ^ F.e - 1 → fr = 0 → x = .inf n) ∧ (ex = 2 ^ F.e - 1 → fr ≠ 0 → x = .nan (decide (fr < 2 ^ (F.f - 1)))) ∧
      (ex = 0 ∧ fr ≠ 0 → ∀ g : Flags,
        (Claim.Stands 0 (F.operand true b) ∧ (F.operand true b).neg = n ∧ (F.operand true b).isZero = true) ∧
          F.flushOut true (b, g) = (zero, g ||| ufF ||| nxF) ∧ F.flushedPattern true b = zero) ∧
      ∀ (f : Bool) (g : Flags), f = false ∨ ¬ (ex = 0 ∧ fr ≠ 0) →
        F.operand f b = x ∧ F.flushOut f (b, g) = (b, g) ∧ F.flushedPattern f b = b) ∧
    (∀ (a b : Machine.Num) (x y : ℝ), Claim.Stands x a → Claim.Stands y b →
      (a.lt b = true ↔ x < y) ∧ (a.eq b = true ↔ x = y) ∧
      (a.ltSigned b = true ↔ x < y ∨ (x = 0 ∧ y = 0 ∧ a.neg = true ∧ b.neg = false)) ∧
      ∀ n, (a.lt (.inf n) = !n) ∧ ((Machine.Num.inf n).lt a = n) ∧ a.eq (.inf n) = false ∧ (Machine.Num.inf n).eq a = false ∧
        (a.ltSigned (.inf n) = !n) ∧ (Machine.Num.inf n).ltSigned a = n) ∧
    ∀ n k, (Machine.Num.inf n).lt (.inf k) = (n && !k) ∧ (Machine.Num.inf n).eq (.inf k) = (n == k) ∧
      (Machine.Num.inf n).ltSigned (.inf k) = (n && !k)) ∧
  (∀ F ∈ [Fmt.f64, Fmt.f32, Fmt.f16, Fmt.bf16, Fmt.h8], ∀ rm : Rm,
    let inf (x : Machine.Num) : Bool := x.isInf
    let void (a b : Machine.Num) : Prop := (inf a = true ∧ b.isZero = true) ∨ (a.isZero = true ∧ inf b = true)
    (∀ (n : Bool) (m : Nat) (e : ℤ), 0 < m →
      Claim.Rounded F rm ((if n then -1 else 1) * (m : ℝ) * 2 ^ e) (F.round rm n m e)) ∧
    (∀ (a b c : Machine.Num) (x y z : ℝ), Claim.Stands x a → Claim.Stands y b → Claim.Stands z c →
      (x + y ≠ 0 → Claim.Rounded F rm (x + y) (F.add rm a b)) ∧
      (x + y = 0 → F.add rm a b = (F.zero (if a.isZero ∧ a.neg = b.neg then a.neg else rm == .rdn), 0)) ∧
      F.sub rm a b = F.add rm a b.negate ∧
      (x * y ≠ 0 → Claim.Rounded F rm (x * y) (F.mul rm a b)) ∧
      (x * y = 0 → F.mul rm a b = (F.zero (a.neg != b.neg), 0)) ∧
      (x * y + z ≠ 0 → Claim.Rounded F rm (x * y + z) (F.fma rm a b c)) ∧
      (x * y + z = 0 →
        F.fma rm a b c = (F.zero (if c.isZero ∧ (a.neg != b.neg) = c.neg then c.neg else rm == .rdn), 0)) ∧
      (x ≠ 0 → y ≠ 0 → Claim.Rounded F rm (x / y) (F.div rm a b)) ∧
      (x = 0 → y ≠ 0 → F.div rm a b = (F.zero (a.neg != b.neg), 0)) ∧
      (x ≠ 0 → y = 0 → F.div rm a b = (F.inf (a.neg != b.neg), dzF)) ∧
      (x = 0 → y = 0 → F.div rm a b = (F.canon, nvF)) ∧
      (0 < x → Claim.Rounded F rm (Real.sqrt x) (F.sqrt rm a)) ∧
      (x = 0 → F.sqrt rm a = (F.zero a.neg, 0)) ∧ (x < 0 → F.sqrt rm a = (F.canon, nvF)) ∧
      (∀ n, F.add rm (.inf n) b = (F.inf n, 0) ∧ F.add rm b (.inf n) = (F.inf n, 0) ∧
        (y = 0 → F.mul rm (.inf n) b = (F.canon, nvF) ∧ F.mul rm b (.inf n) = (F.canon, nvF)) ∧
        (y ≠ 0 → F.mul rm (.inf n) b = (F.inf (n != b.neg), 0) ∧ F.mul rm b (.inf n) = (F.inf (b.neg != n), 0)) ∧
        F.div rm (.inf n) b = (F.inf (n != b.neg), 0) ∧ F.div rm b (.inf n) = (F.zero (b.neg != n), 0) ∧
        F.fma rm a b (.inf n) = (F.inf n, 0))) ∧
    (∀ (a b c d : Machine.Num) (w x y z : ℝ), Claim.Stands w a → Claim.Stands x b → Claim.Stands y c → Claim.Stands z d →
      (w * x + y * z ≠ 0 → Claim.Rounded F rm (w * x + y * z) (F.dot2 rm a b c d)) ∧
      (w * x + y * z = 0 → F.dot2 rm a b c d = (F.zero (if (a.isZero || b.isZero) ∧ (a.neg != b.neg) = (c.neg != d.neg) then
        a.neg != b.neg else rm == .rdn), 0))) ∧
    (∀ n k, F.add rm (.inf n) (.inf k) = (if n = k then (F.inf n, 0) else (F.canon, nvF)) ∧
      F.mul rm (.inf n) (.inf k) = (F.inf (n != k), 0) ∧ F.div rm (.inf n) (.inf k) = (F.canon, nvF)) ∧
    (F.sqrt rm (.inf false) = (F.inf false, 0) ∧ F.sqrt rm (.inf true) = (F.canon, nvF) ∧
      ∀ s, F.sqrt rm (.nan s) = (F.canon, if s then nvF else 0)) ∧
    (∀ a b c : Machine.Num, let p := a.neg != b.neg
      (void a b → F.fma rm a b c = (F.canon, nvF)) ∧
      (¬ void a b → (a.isNan || b.isNan || c.isNan) = true →
        F.fma rm a b c = (F.canon, if a.isSnan || b.isSnan || c.isSnan then nvF else 0)) ∧
      (¬ void a b → (a.isNan || b.isNan || c.isNan) = false → (inf a || inf b) = true →
        F.fma rm a b c = if inf c = true ∧ c.neg ≠ p then (F.canon, nvF) else (F.inf p, 0))) ∧
    ∀ a b c d : Machine.Num, let p := a.neg != b.neg; let q := c.neg != d.neg
      let nan : Prop := (a.isNan || b.isNan || c.isNan || d.isNan) = true
      (nan ∨ void a b ∨ void c d → ((F.dot2 rm a b c d).1 = F.canon ∧
        ((a.isSnan || b.isSnan || c.isSnan || d.isSnan) = true ∨ void a b ∨ void c d → (F.dot2 rm a b c d).2 = nvF) ∧
        (¬ ((a.isSnan || b.isSnan || c.isSnan || d.isSnan) = true ∨ void a b ∨ void c d) → (F.dot2 rm a b c d).2 = 0))) ∧
      (¬ (nan ∨ void a b ∨ void c d) →
        ((inf a || inf b) = true → (inf c || inf d) = true → F.dot2 rm a b c d = if p = q then (F.inf p, 0) else (F.canon, nvF)) ∧
        ((inf a || inf b) = true → (inf c || inf d) = false → F.dot2 rm a b c d = (F.inf p, 0)) ∧
        ((inf a || inf b) = false → (inf c || inf d) = true → F.dot2 rm a b c d = (F.inf q, 0))))

/-- RDC writes the word that Table 5.3 gives to sd, and a WRC takes effect one cycle later, from the next bundle; both have
a bound of 1 (R123, R66). The words of Table 5.3, register by register: those of PRI, CTN, IFQ, SQ, TWIN and PLUMB as
Tables 1.3, 5.4, 5.6 and 5.9 lay them out, the others whole.

What a WRC leaves, register by register: FPCTL, FPSW, KSWn and BRK keep their defined bits, PRI takes OWN, SEED and GF
the whole word, PIV and BRK the word of their index and keep the other, SQ its overflow count; a read-only register ignores
it (R7, R27, R96, R100, R123, R124).

The S slot at issue (R82, R96, R110, R216): a WRC of FPCTL with RM 5 to 7, or of KSWn with AF 3, is an illegal operand; nothing
else of the S slot has a fault at issue. -/
def Obligations.ControlRegisters : Prop :=
  (∀ (u : Pfx) (r : BitVec 6) (n : BitVec 8) (w : BitVec 6),
    Claim.Runs (.rdc u r n w) (fun s => s.putS 1 r (s.readCr n w) 0) ∧
    Claim.Runs (.wrc u r n w) (fun s => s.result 1 (.cr n w) ((s.readS r).setWidth 1024) 1 0 none) ∧
    ∀ s : State,
      let k := s.here
      let co := s.course (s.cur.core / 8)
      s.readCr 0x00 0 = k.fpctl.setWidth 64 ∧ s.readCr 0x01 0 = k.fpsw.setWidth 64 ∧
      ((s.readCr 0x02 0).extractLsb' 0 2 = k.own ∧ ((s.readCr 0x02 0).extractLsb' 2 6 = 0) ∧
        (s.eff s.cur < 2 ^ 56 → (s.readCr 0x02 0).toNat / 2 ^ 8 = s.eff s.cur)) ∧
      s.readCr 0x03 0 = k.node.setWidth 64 ∧ s.readCr 0x04 0 = k.nkey ∧ s.readCr 0x05 0 = s.seed ∧
      s.readCr 0x06 0 = k.repcnt.setWidth 64 ∧
      (k.loop.depth < 8 → k.loop.pos < 32 →
        let i (d : Nat) : Nat := (SMap.get 0 k.loop.idx d).toNat
        (s.readCr 0x07 0).extractLsb' 61 3 = BitVec.ofNat 3 k.loop.depth ∧ (s.readCr 0x07 0).extractLsb' 56 5 = k.loop.len ∧
        (s.readCr 0x07 0).extractLsb' 0 56 = k.loop.body.setWidth 56 &&& 0xFFFFFFFFFFFFFC ∧
        (s.readCr 0x07 1).toNat = k.loop.grp.toNat * 2 ^ 56 + i 1 * 2 ^ 28 + i 0 ∧
        (s.readCr 0x07 2).toNat = k.loop.pos * 2 ^ 56 + i 3 * 2 ^ 28 + i 2 ∧
        (s.readCr 0x07 3).toNat = i 5 * 2 ^ 28 + i 4) ∧
      s.readCr 0x08 0 = k.depth.setWidth 64 ∧
      (∀ j < 4, s.readCr 0x08 (BitVec.ofNat 6 (j + 1)) = SMap.get 0 k.hand j) ∧
      (∀ t, k.trap = some t → s.readCr 0x09 0 = BitVec.ofNat 64 t.ifq.length) ∧
      (k.trap = none → s.readCr 0x09 0 = BitVec.ofNat 64 k.ifq.length) ∧
      (s.myCore.sq.length ≤ 256 → (s.readCr 0x0A 0).toNat = s.myCore.sq.length + s.myCore.sqOvf.toNat * 2 ^ 16) ∧
      s.readCr 0x0B 0 = s.myCore.dqbase.setWidth 64 ∧ s.readCr 0x0C 0 = s.myCore.dqlim.setWidth 64 ∧
      s.readCr 0x0D 0 = (if co.twin then 1 else 0) ∧ s.readCr 0x0E 0 = (if co.plumb then 1 else 0) ∧
      (∀ j < 8, s.readCr (BitVec.ofNat 8 (0x10 + j)) 0 = (SMap.get 0 k.ksw j).setWidth 64) ∧
      s.readCr 0x18 0 = k.piv.extractLsb' 0 64 ∧ s.readCr 0x18 1 = k.piv.extractLsb' 64 64 ∧ s.readCr 0x19 0 = k.gf ∧
      s.readCr 0x1A 0 = k.brk.extractLsb' 0 64 ∧ s.readCr 0x1A 1 = k.brk.extractLsb' 64 64) ∧
  (∀ (s : State) (c : CtxId) (w : BitVec 6) (v : DWord),
    s.writeCr c 0x00 w v = s.updCtx c (fun k => { k with fpctl := v.setWidth 32 &&& 0x00001F07 }) ∧
    s.writeCr c 0x01 w v = s.updCtx c (fun k => { k with fpsw := v.setWidth 32 &&& 0x00001F1F }) ∧
    s.writeCr c 0x02 w v = s.updCtx c (fun k => { k with own := v.extractLsb' 0 2 }) ∧
    s.writeCr c 0x05 w v = { s with seed := v } ∧
    s.writeCr c 0x0A w v = s.updCore c.core (fun k => { k with sqOvf := v.extractLsb' 16 32 }) ∧
    s.writeCr c 0x19 w v = s.updCtx c (fun k => { k with gf := v }) ∧
    (∀ j < 8, s.writeCr c (BitVec.ofNat 8 (0x10 + j)) w v = s.updCtx c (fun k => { k with
      ksw := SMap.setD 0 k.ksw j (v.setWidth 32 &&& 0xC000003F) })) ∧
    s.writeCr c 0x18 0 v = s.updCtx c (fun k => { k with piv := k.piv.extractLsb' 64 64 ++ v }) ∧
    s.writeCr c 0x18 1 v = s.updCtx c (fun k => { k with piv := v ++ k.piv.extractLsb' 0 64 }) ∧
    s.writeCr c 0x1A 0 v = s.updCtx c (fun k => { k with
      brk := (k.brk.extractLsb' 64 64 ++ v) &&& 0xFFFFFFFFFFFFFFFF0000000007FFFFFF }) ∧
    s.writeCr c 0x1A 1 v = s.updCtx c (fun k => { k with
      brk := (v ++ k.brk.extractLsb' 0 64) &&& 0xFFFFFFFFFFFFFFFF0000000007FFFFFF }) ∧
    (∀ n ∈ [0x03, 0x04, 0x06, 0x07, 0x08, 0x09, 0x0B, 0x0C, 0x0D, 0x0E], s.writeCr c (BitVec.ofNat 8 n) w v = s)) ∧
  (∀ (s : State) (w : Word),
    (∀ (u : Pfx) (a k : BitVec 6) (n : BitVec 8),
      let v := s.readS a
      let bad : Prop := (n = 0x00 ∧ 5 ≤ v.toNat % 8) ∨ (0x10 ≤ n.toNat ∧ n.toNat ≤ 0x17 ∧ v.toNat / 2 ^ 30 % 4 = 3)
      (bad → issueFault .s w (.wrc u a n k) s = some (0x03, w.setWidth 128)) ∧
      (¬ bad → issueFault .s w (.wrc u a n k) s = none)) ∧
    ∀ i : Instr, (∀ u a n k, i ≠ .wrc u a n k) → issueFault .s w i s = none)

/-! ### The X slot -/

/-- The index arithmetic and the moves between files (R190).

The sorted-list merge step, pattern decoding, bit routing and byte permutation (R191 to R194).

XPATD (R192): the kept positions are the ascending ones whose colex number is N; a number at or above the pattern
count gives 0x8000_0000. -/
def Obligations.IndexForms : Prop :=
  (∀ (u : Pfx) (x a b : BitVec 4) (i : BitVec 8) (k : BitVec 5) (m : BitVec 16)
      (r : BitVec 6),
    Claim.Runs (.xadd u x a b) (fun s => s.putX 1 x (s.readX a + s.readX b)) ∧
    Claim.Runs (.xaddi u x a i) (fun s => s.putX 1 x (s.readX a + BitVec.ofInt 32 i.toInt)) ∧
    Claim.Runs (.xsub u x a b) (fun s => s.putX 1 x (s.readX a - s.readX b)) ∧
    Claim.Runs (.xshli u x a k) (fun s => s.putX 1 x (BitVec.ofNat 32 ((s.readX a).toNat * 2 ^ k.toNat))) ∧
    Claim.Runs (.xshri u x a k) (fun s => s.putX 1 x (BitVec.ofNat 32 ((s.readX a).toNat / 2 ^ k.toNat))) ∧
    Claim.Runs (.xand u x a b) (fun s => s.putX 1 x (s.readX a &&& s.readX b)) ∧
    Claim.Runs (.xpopc u x a)
      (fun s => s.putX 1 x (BitVec.ofNat 32 (Finset.univ.filter (fun j : Fin 32 => (s.readX a).getLsbD j)).card)) ∧
    Claim.Runs (.xfroms u x r) (fun s => s.putX 1 x ((s.readS r).setWidth 32)) ∧
    Claim.Runs (.xtos u x r) (fun s => s.putS 1 r ((s.readX x).setWidth 64) 0) ∧
    Claim.Runs (.xmov u x a) (fun s => s.putX 1 x (s.readX a)) ∧
    Claim.Runs (.xmovi u x m) (fun s => s.putX 1 x (BitVec.ofInt 32 m.toInt))) ∧
  (∀ (u : Pfx) (x a b c : BitVec 4) (f : BitVec 2) (f4 : BitVec 4) (e : BitVec 3)
      (v : BitVec 5) (s : State),
    (Claim.Issues (.xcmpadv u x a b c f) s →
      let r := Claim.issuing (.xcmpadv u x a b c f) s
      let lt := if f.getLsbD 0 then (r.readX a).toInt < (r.readX b).toInt else (r.readX a).toNat < (r.readX b).toNat
      let gt := if f.getLsbD 0 then (r.readX b).toInt < (r.readX a).toInt else (r.readX b).toNat < (r.readX a).toNat
      let eq := r.readX a = r.readX b
      let i := (r.readX c).toNat % 2 ^ 15
      let j := (r.readX c).toNat / 2 ^ 16 % 2 ^ 15
      let i' := if lt ∨ (eq ∧ f.getLsbD 1 = true) then (i + 1) % 2 ^ 15 else i
      let j' := if gt ∨ (eq ∧ f.getLsbD 1 = true) then (j + 1) % 2 ^ 15 else j
      exec (.xcmpadv u x a b c f) s = .next (r.putX 1 x
        (BitVec.ofNat 32 ((if gt then 2 ^ 31 else 0) + j' * 2 ^ 16 + (if eq then 2 ^ 15 else 0) + i')))) ∧
    (Claim.Issues (.xbnet u x a b e) s →
      let r := Claim.issuing (.xbnet u x a b e) s
      ∃ out : BitVec 64,
        (∀ k < 64, out.getLsbD k =
          let t := (r.readBn e).toNat / 2 ^ (7 * k) % 128
          if t < 32 then (r.readX a).getLsbD t else if t < 64 then (r.readX b).getLsbD (t - 32) else t % 2 == 1) ∧
        exec (.xbnet u x a b e) s =
          .next ((r.putX 2 x (out.extractLsb' 0 32)).putX 2 (x + 1) (out.extractLsb' 32 32))) ∧
    (Claim.Issues (.xbnld u e v) s →
      let r := Claim.issuing (.xbnld u e v) s
      ∃ p : BitVec 448, (∀ k < 64, p.extractLsb' (7 * k) 7 = (r.readV v).extractLsb' (8 * k) 7) ∧
        exec (.xbnld u e v) s = .next (r.result 1 (.bn e) (p.setWidth 1024) 1 0 none)) ∧
    (Claim.Issues (.xbperm u x a b c f4) s →
      let r := Claim.issuing (.xbperm u x a b c f4) s
      ∃ out : BitVec 32,
        (∀ m < 4,
          let sel := (r.readX c).toNat / 2 ^ (4 * m) % 16
          let src := if sel % 8 < 4 then (r.readX a).extractLsb' (8 * (sel % 8)) 8
            else (r.readX b).extractLsb' (8 * (sel % 8 - 4)) 8
          out.extractLsb' (8 * m) 8 =
            if f4.getLsbD m then (if 8 ≤ sel ∧ src.getLsbD 7 = true then 0xFF else 0) else src) ∧
        exec (.xbperm u x a b c f4) s = .next (r.putX 1 x out))) ∧
  (∀ (u : Pfx) (x a : BitVec 4) (k : BitVec 2) (s : State),
    Claim.Issues (.xpatd u x a k) s → k ≠ 3 →
      let r := Claim.issuing (.xpatd u x a k) s
      let n := if k = 2 then 4 else 2
      let g := if k = 0 then 4 else 8
      let N := (r.readX a).toNat % 2 ^ (if k = 0 then 3 else if k = 1 then 5 else 7)
      (Nat.choose g n ≤ N → exec (.xpatd u x a k) s = .next (r.putX 1 x 0x80000000)) ∧
      (N < Nat.choose g n → ∃ p : List Nat, p.length = n ∧ p.Pairwise (· < ·) ∧ (∀ c ∈ p, c < g) ∧
        N = (p.mapIdx (fun m c => Nat.choose c (m + 1))).sum ∧
        exec (.xpatd u x a k) s = .next (r.putX 1 x
          (BitVec.ofNat 32 ((p.map (fun c => 2 ^ c)).sum + (p.mapIdx (fun m c => c * 2 ^ (8 + 3 * m))).sum)))))

/-! ### The V slots -/

/-- The floating-point forms of VADD, VSUB, VMUL, VFMA, VFMS, VDIV and VSQRT (R144): one element at a time, operands
after FTZI, one rounding under FPCTL.RM, the result after FTZO, in the active elements; bounds of Table 3.17.

The special functions (R147, Table 6.3): 1/a and 1/sqrt(a) are the exact values rounded once; so are 2^a of an integer a
or beyond the range of the format, and log2(a) of a power of two; any other 2^a and log2(a) is one rounding of a real that
agrees with the exact value to 1,200 bits; and the special cases. That this precision decides every rounding is the
model's choice (log 19).

VMIN, VMAX, VABS and VNEG of floating-point types (R145, R146): the minimum and maximum order −0 below +0 and prefer
a number to a NaN; VABS clears the sign bit and VNEG inverts it; the bound is 2. -/
def Obligations.VectorFloat : Prop :=
  (∀ (u : Pfx) (t : BitVec 3) (d a b : BitVec 5) (f o : Bool),
    tyFloat t = true →
      let F := typeFmt t
      let x (s : State) (r : BitVec 5) (i : Nat) : Machine.Num := F.operand f (elem (typeW t) (s.readV r) i)
      let each (s : State) (lat : Nat) (op : Nat → Nat × Flags) : State :=
        s.vmap u (typeW t) (typeN t) lat d (fun i => F.flushOut o (op i))
      let lat (p q : Nat) : Nat := if t = 1 then q else p
      Claim.Runs (.vadd u t d a b f o) (fun s => each s (lat 4 6) (fun i => F.add s.rm (x s a i) (x s b i))) ∧
      Claim.Runs (.vsub u t d a b f o) (fun s => each s (lat 4 6) (fun i => F.sub s.rm (x s a i) (x s b i))) ∧
      Claim.Runs (.vmul u t d a b f o) (fun s => each s (lat 4 6) (fun i => F.mul s.rm (x s a i) (x s b i))) ∧
      Claim.Runs (.vfma u t d a b f o)
        (fun s => each s (lat 4 6) (fun i => F.fma s.rm (x s a i) (x s b i) (x s d i))) ∧
      Claim.Runs (.vfms u t d a b f o)
        (fun s => each s (lat 4 6) (fun i => F.fma s.rm (x s a i).negate (x s b i) (x s d i))) ∧
      Claim.Runs (.vdiv u t d a b f o) (fun s => each s (lat 14 22) (fun i => F.div s.rm (x s a i) (x s b i))) ∧
      Claim.Runs (.vsqrt u t d a f o) (fun s => each s (lat 14 22) (fun i => F.sqrt s.rm (x s a i))) ∧
      Claim.Runs (.vrcp u t d a f o) (fun s => each s 8 (fun i => F.rcp s.rm (x s a i))) ∧
      Claim.Runs (.vrsq u t d a f o) (fun s => each s 8 (fun i => F.rsq s.rm (x s a i))) ∧
      Claim.Runs (.vexp2 u t d a f o) (fun s => each s 8 (fun i => F.exp2 s.rm (x s a i))) ∧
      Claim.Runs (.vlog2 u t d a f o) (fun s => each s 8 (fun i => F.log2 s.rm (x s a i)))) ∧
  (∀ F ∈ [Fmt.f64, Fmt.f32], ∀ (rm : Rm) (p : Nat), p < 2 ^ F.width →
    let a := F.value p
    (a.isNan = true → ∀ g ∈ [F.rcp rm a, F.rsq rm a, F.exp2 rm a, F.log2 rm a], g = (F.canon, if a.isSnan then nvF else 0)) ∧
    (∀ n, a = .inf n → F.rcp rm a = (F.zero n, 0) ∧ F.rsq rm a = (if n then (F.canon, nvF) else (F.zero false, 0)) ∧
      F.exp2 rm a = (if n then (F.zero false, 0) else (F.inf false, 0)) ∧
      F.log2 rm a = (if n then (F.canon, nvF) else (F.inf false, 0))) ∧
    ∀ x : ℝ, Claim.Stands x a →
      (x = 0 → F.rcp rm a = (F.inf a.neg, dzF) ∧ F.rsq rm a = (F.inf a.neg, dzF) ∧ F.log2 rm a = (F.inf true, dzF)) ∧
      (x < 0 → F.rsq rm a = (F.canon, nvF) ∧ F.log2 rm a = (F.canon, nvF)) ∧
      (x ≠ 0 → Claim.Rounded F rm (1 / x) (F.rcp rm a)) ∧ (0 < x → Claim.Rounded F rm (1 / Real.sqrt x) (F.rsq rm a)) ∧
      ((∃ k : ℤ, x = k) ∨ 2 ^ F.e + 64 ≤ |x| → Claim.Rounded F rm ((2 : ℝ) ^ x) (F.exp2 rm a)) ∧
      (|x| < 2 ^ F.e + 64 → ∃ y : ℝ, |y - (2 : ℝ) ^ x| * 2 ^ 1200 ≤ (2 : ℝ) ^ x ∧ Claim.Rounded F rm y (F.exp2 rm a)) ∧
      (x = 1 → F.log2 rm a = (F.zero false, 0)) ∧
      (0 < x → x ≠ 1 → (∃ k : ℤ, x = 2 ^ k) → Claim.Rounded F rm (Real.logb 2 x) (F.log2 rm a)) ∧
      (0 < x → x ≠ 1 → ∃ y : ℝ, |y - Real.logb 2 x| * 2 ^ 1200 ≤ |Real.logb 2 x| ∧ Claim.Rounded F rm y (F.log2 rm a))) ∧
  (∀ (u : Pfx) (t : BitVec 3) (d a b : BitVec 5) (f o : Bool),
    tyFloat t = true →
      let F := typeFmt t
      let w := typeW t
      let p (s : State) (r : BitVec 5) (i : Nat) : Nat := F.flushedPattern f (elem w (s.readV r) i)
      let pick (max : Bool) (x y : Nat) : Nat :=
        if (F.value x).isNan && (F.value y).isNan then F.canon
        else if (F.value x).isNan then y else if (F.value y).isNan then x
        else if max then (if (F.value x).ltSigned (F.value y) then y else x)
        else (if (F.value y).ltSigned (F.value x) then y else x)
      let nv (x y : Nat) : Flags := if (F.value x).isSnan || (F.value y).isSnan then nvF else 0
      let each (s : State) (op : Nat → Nat × Flags) : State := s.vmap u w (typeN t) 2 d op
      Claim.Runs (.vmin u t d a b f) (fun s => each s (fun i => (pick false (p s a i) (p s b i), nv (p s a i) (p s b i)))) ∧
      Claim.Runs (.vmax u t d a b f) (fun s => each s (fun i => (pick true (p s a i) (p s b i), nv (p s a i) (p s b i)))) ∧
      Claim.Runs (.vabs u t d a o) (fun s => each s (fun i => (elem w (s.readV a) i % 2 ^ (w - 1), 0))) ∧
      Claim.Runs (.vneg u t d a o) (fun s => each s (fun i => (elem w (s.readV a) i ^^^ 2 ^ (w - 1), 0))))

/-- The integer forms compute each active element exactly and reduce it once: saturated where SAT is 1, else wrapped; the
bound is 2 and no flag is raised (R148). -/
def Obligations.VectorIntegerArithmetic : Prop := ∀ (u : Pfx) (t : BitVec 3) (d a b : BitVec 5) (f o : Bool),
  tyInt t = true →
    let w := typeW t
    let signed := t ≠ 6
    let x (s : State) (r : BitVec 5) (i : Nat) : Int := toIntW signed w (elem w (s.readV r) i)
    let lo : Int := if signed then -2 ^ (w - 1) else 0
    let hi : Int := if signed then 2 ^ (w - 1) - 1 else 2 ^ w - 1
    let red (sat : Bool) (y : Int) : Nat := ((if sat then max lo (min hi y) else y) % 2 ^ w).toNat
    let each (s : State) (sat : Bool) (op : Nat → Int) : State :=
      s.vmap u w (typeN t) 2 d (fun i => (red sat (op i), 0))
    Claim.Runs (.vadd u t d a b f o) (fun s => each s o (fun i => x s a i + x s b i)) ∧
    Claim.Runs (.vsub u t d a b f o) (fun s => each s o (fun i => x s a i - x s b i)) ∧
    Claim.Runs (.vmul u t d a b f o) (fun s => each s o (fun i => x s a i * x s b i)) ∧
    Claim.Runs (.vmin u t d a b f) (fun s => each s false (fun i => min (x s a i) (x s b i))) ∧
    Claim.Runs (.vmax u t d a b f) (fun s => each s false (fun i => max (x s a i) (x s b i))) ∧
    Claim.Runs (.vabs u t d a o) (fun s => each s o (fun i => |x s a i|)) ∧
    Claim.Runs (.vneg u t d a o) (fun s => each s o (fun i => -x s a i))

/-- Logic, shifts, permutes, broadcasts and selects copy or combine patterns, raise no flag and have a bound of 2 (R149,
R151, R154).

Lane moves (R153), immediates (R105, R106, R152) and pops (R159, R160).

The values of VMOVI's immediates (R105, R106): a number or an infinity widens exactly, with no flag; to FP16 and H8 it is
rounded once; a NaN becomes the canonical one, with no flag; and R106's example. -/
def Obligations.VectorBitsAndMoves : Prop :=
  (∀ (u : Pfx) (t : BitVec 3) (d a b l : BitVec 5) (c : BitVec 4) (w64 : Bool),
    let w := typeW t
    let x (s : State) (r : BitVec 5) (i : Nat) : Nat := elem w (s.readV r) i
    let each (s : State) (op : Nat → Nat) : State := s.vmap u w (typeN t) 2 d (fun i => (op i, 0))
    Claim.Runs (.vand u t d a b) (fun s => each s (fun i => x s a i &&& x s b i)) ∧
    Claim.Runs (.vor u t d a b) (fun s => each s (fun i => x s a i ||| x s b i)) ∧
    Claim.Runs (.vxor u t d a b) (fun s => each s (fun i => x s a i ^^^ x s b i)) ∧
    Claim.Runs (.vnot u t d a) (fun s => each s (fun i => 2 ^ w - 1 - x s a i)) ∧
    Claim.Runs (.vshl u t d a b) (fun s => each s (fun i => x s a i * 2 ^ (x s b i % w))) ∧
    Claim.Runs (.vshr u t d a b) (fun s => each s (fun i => x s a i / 2 ^ (x s b i % w))) ∧
    Claim.Runs (.vashr u t d a b)
      (fun s => each s (fun i => ((toIntW true w (x s a i) / 2 ^ (x s b i % w)) % 2 ^ w).toNat)) ∧
    Claim.Runs (.vperm u t d a b)
      (fun s => each s (fun i => if 2 ^ (w - 1) ≤ x s b i then 0 else x s a (x s b i % typeN t))) ∧
    Claim.Runs (.vbcast u t d a l) (fun s => each s (fun _ => x s a l.toNat)) ∧
    Claim.Runs (.vsel u c w64 d a b) (fun s =>
      let e := if w64 then 64 else 32
      s.vmap u e (1024 / e) 2 d
        (fun i => (if (s.readP c).getLsbD i then elem e (s.readV a) i else elem e (s.readV b) i, 0)))) ∧
  (∀ (u : Pfx) (m : Bool) (d v l : BitVec 5) (r : BitVec 6) (i : BitVec 15)
      (q : BitVec 2) (n : BitVec 3),
    let imm : BitVec 16 := BitVec.ofBool m ++ i
    let all (s : State) (w : Nat) (x : Nat × Flags) : State :=
      s.putV 2 d (BitVec.ofNat 1024 (packElems w (List.replicate (1024 / w) x.1)))
        (elemPart w (fun i => s.active u (if w < 32 then i * w / 32 else i))) x.2
    Claim.Runs (.vmvs u r v l) (fun s => s.putS 2 r (((s.readV v).extractLsb' (32 * l.toNat) 32).setWidth 64) 0) ∧
    Claim.Runs (.vmsv u r v l) (fun s =>
      s.putV 2 v ((((s.readS r).setWidth 32).setWidth 1024 : Vec) <<< (32 * l.toNat)) (elemPart 32 (fun i => i == l.toNat)) 0) ∧
    Claim.Runs (.vmoviI32 u m d i) (fun s => all s 32 ((BitVec.ofInt 32 imm.toInt).toNat, 0)) ∧
    Claim.Runs (.vmoviI64 u m d i) (fun s => all s 64 ((BitVec.ofInt 64 imm.toInt).toNat, 0)) ∧
    Claim.Runs (.vmoviF32 u m d i) (fun s => all s 32 (immFp Fmt.f32 s.rm imm.toNat)) ∧
    Claim.Runs (.vmoviF64 u m d i) (fun s => all s 64 (immFp Fmt.f64 s.rm imm.toNat)) ∧
    Claim.Runs (.vmoviF16 u m d i) (fun s => all s 16 (immFp Fmt.f16 s.rm imm.toNat)) ∧
    Claim.Runs (.vmoviBf16 u m d i) (fun s => all s 16 (imm.toNat, 0)) ∧
    Claim.Runs (.vmoviH8 u m d i) (fun s => all s 8 (immFp Fmt.h8 s.rm imm.toNat)) ∧
    (∀ s e es, Claim.Issues (.vpopq u d q) s →
      SMap.get [] (Claim.issuing (.vpopq u d q) s).here.q q.toNat = e :: es →
      exec (.vpopq u d q) s = .next
        (((Claim.issuing (.vpopq u d q) s).upd (fun c => { c with q := SMap.setD [] c.q q.toNat es })).putV 2 d e.data
          (lanePart ((Claim.issuing (.vpopq u d q) s).guard u.n u.g)) 0)) ∧
    (∀ s x nb, Claim.Issues (.vpopl u d n) s →
      SMap.get .empty (Claim.issuing (.vpopl u d n) s).here.l n.toNat = .landed x nb none →
      exec (.vpopl u d n) s = .next
        (((Claim.issuing (.vpopl u d n) s).upd (fun c => { c with l := SMap.setD .empty c.l n.toNat .empty })).putV 2 d x
          (lanePart ((Claim.issuing (.vpopl u d n) s).guard u.n u.g)) 0))) ∧
  ((∀ F ∈ [Fmt.f64, Fmt.f32, Fmt.f16, Fmt.h8], ∀ (rm : Rm) (i : Nat), i < 2 ^ 16 →
      let x := Fmt.bf16.value i
      (x.isNan = true → immFp F rm i = (F.canon, 0)) ∧ (∀ n, x = .inf n → immFp F rm i = (F.inf n, 0)) ∧
      ∀ z : ℝ, Claim.Stands z x → (z = 0 → immFp F rm i = (F.zero x.neg, 0)) ∧
        (z ≠ 0 → Claim.Rounded F rm z (immFp F rm i)) ∧
        (F = Fmt.f64 ∨ F = Fmt.f32 → Claim.Stands z (F.value (immFp F rm i).1) ∧ (immFp F rm i).2 = 0)) ∧
    ∀ rm, immFp Fmt.f16 rm 0x3F81 = (0x3C08, 0) ∧ immFp Fmt.h8 .rne 0x3F81 = (0x40, nxF) ∧ immFp Fmt.h8 .rup 0x3F81 = (0x41, nxF))

/-- The vector compares (R95, R96, R103, R150) write the active bits of pd, and 0 into bits 31:16 where the type has 16
elements: the relation of each active element, unordered where an operand is a NaN. NV is raised by a signalling NaN, and
under LT and LE by any NaN, of an active element, and no other flag is; the bound is 2 for integers, 4 for F32 and 6 for F64.

What an element-wise result of n elements of w bits writes (R142, R144): the results of the active elements, and no others,
with the union of their flags; and where a conversion places them (R155): in a destination narrower than 32 bits positions n and
above are written 0, in a wider one they are not written.

The conversions (R155 to R157): N elements from the source width to the destination width, under the mode of the word
(VCVT) or FPCTL.RM (VCVTD, VSCN); bounds 3 and 6. That an inactive position below N of a destination wider than its source
is left unwritten is the model's reading (DEDUCED, log 22).

The values of the conversions (Table 6.4, R92, R107): a BF16 pattern widens to FP32 with 16 zero bits; another number of a
format is rounded once to the destination, or to an integer that saturates with NV; an integer is rounded once, or saturates; and
VSCN's quotient is rounded once, with the special cases of R107. -/
def Obligations.VectorComparesAndConversions : Prop :=
  (∀ (u : Pfx) (t : BitVec 3) (p : BitVec 4) (a b : BitVec 5) (f : Bool),
    let x (s : State) (q : BitVec 5) (k : Nat) : Nat := elem (typeW t) (s.readV q) k
    let num (s : State) (q : BitVec 5) (k : Nat) : Machine.Num := (typeFmt t).operand f (x s q k)
    let int (s : State) (q : BitVec 5) (k : Nat) : Int := toIntW (t != 6) (typeW t) (x s q k)
    let un (s : State) (k : Nat) : Bool := (num s a k).isNan || (num s b k).isNan
    let sn (s : State) (k : Nat) : Bool := (num s a k).isSnan || (num s b k).isSnan
    let eq (s : State) (k : Nat) : Bool := !un s k && (num s a k).eq (num s b k)
    let lt (s : State) (k : Nat) : Bool := !un s k && (num s a k).lt (num s b k)
    let goes (i : Instr) (holds whole nv : State → Nat → Bool) : Prop :=
      ∀ r, Claim.Issues i r → ∃ (v m : BitVec 32) (fl : Flags),
        let s := Claim.issuing i r
        (∀ k < 32, m.getLsbD k = if ty64 t && decide (16 ≤ k) then true else s.active u k) ∧
        (∀ k < 32, v.getLsbD k =
          (decide (k < typeN t) && s.active u k && (if tyFloat t then holds s k else whole s k))) ∧
        fl = (if tyFloat t ∧ (∃ k < typeN t, s.active u k = true ∧ nv s k = true) then nvF else 0) ∧
        exec i r = .next (s.putP (if tyFloat t then (if t = 1 then 6 else 4) else 2) p v m fl)
    goes (.vcmpeq u t p a b f) eq (fun s k => decide (int s a k = int s b k)) sn ∧
    goes (.vcmpne u t p a b f) (fun s k => !eq s k) (fun s k => decide (int s a k ≠ int s b k)) sn ∧
    goes (.vcmplt u t p a b f) lt (fun s k => decide (int s a k < int s b k)) un ∧
    goes (.vcmple u t p a b f) (fun s k => lt s k || eq s k) (fun s k => decide (int s a k ≤ int s b k)) un ∧
    goes (.vcmpun u t p a b f) un (fun _ _ => false) sn) ∧
  (∀ (s : State) (u : Pfx) (w n lat : Nat) (d : BitVec 5) (f : Nat → Nat × Flags),
    w ∈ [8, 16, 32, 64] → n ≤ 1024 / w → ∃ (v : Vec) (m : Part) (fl : Flags),
      (∀ i < n, s.active u i = true → elem w v i = (f i).1 % 2 ^ w) ∧ (∀ i, n ≤ i → i < 1024 / w → elem w v i = 0) ∧
      Claim.Raised fl (((List.range n).filter (s.active u)).map (fun i => (f i).2)) ∧
      s.vmap u w n lat d f = s.putV lat d v (elemPart w (fun i => decide (i < n) && s.active u i)) fl ∧
      (∀ b < 128, m.getLsbD b = if 8 * b / w < n then s.active u (8 * b / w) else decide (w < 32)) ∧
      s.vplace u w n lat d f = s.putV lat d v m fl) ∧
  (∀ (u : Pfx) (t q : BitVec 3) (d a b : BitVec 5) (m : BitVec 2) (f o : Bool),
    let n := if ty64 t || ty64 q then 16 else 32
    let S := if t = 0 then Fmt.f64 else Fmt.f32
    let x (s : State) (r : BitVec 5) (i : Nat) : Machine.Num := S.operand f (elem S.width (s.readV r) i)
    Claim.Runs (.vcvt u t d a q m f o) (fun s => s.vplace u (anyW t) n 3 d
      (fun i => convertElem t q (Rm.of (m.setWidth 3)) f o (elem (anyW q) (s.readV a) i))) ∧
    Claim.Runs (.vcvtd u t d a q f o) (fun s => s.vplace u (anyW t) n 3 d
      (fun i => convertElem t q s.rm f o (elem (anyW q) (s.readV a) i))) ∧
    Claim.Runs (.vscn u t d a b f o) (fun s => s.vplace u (anyW t) (if t = 0 then 16 else 32) 6 d
      (fun i => (typeFmt t).flushOut o (scaleNarrow (typeFmt t) s.rm (x s a i) (x s b i))))) ∧
  (∀ (t q : BitVec 3) (rm : Rm) (f o : Bool) (b : Nat),
    let S := typeFmt q
    let D := typeFmt t
    let x := S.operand f b
    let r := convertElem t q rm f o b
    let w := typeW t
    let lo : Int := if t = 6 then 0 else -2 ^ (w - 1)
    let hi : Int := if t = 6 then 2 ^ w - 1 else 2 ^ (w - 1) - 1
    let int := toIntW (q != 6) (typeW q) b
    (q = 3 → t = 0 → b < 2 ^ 16 →
      r = ((if f = true ∧ b / 2 ^ 7 % 2 ^ 8 = 0 then b / 2 ^ 15 * 2 ^ 15 else b) * 2 ^ 16, 0)) ∧
    (tyInt q = false → tyInt t = false → ¬ (q = 3 ∧ t = 0) →
      (∀ n, x = .nan n → r = (D.canon, if n then nvF else 0)) ∧ (∀ n, x = .inf n → r = (D.inf n, 0)) ∧
      ∀ z : ℝ, Claim.Stands z x → (z = 0 → r = (D.zero x.neg, 0)) ∧
        (z ≠ 0 → ∃ y, Claim.Rounded D rm z y ∧ r = D.flushOut o y)) ∧
    (tyInt q = false → tyInt t = true →
      (∀ n, x = .nan n → r = (0, nvF)) ∧ (∀ n, x = .inf n → r = (((if n then lo else hi) % 2 ^ w).toNat, nvF)) ∧
      ∀ z : ℝ, Claim.Stands z x → ∃ k : ℤ, Claim.Rounds rm 1 z k ∧
        ((k < lo ∨ hi < k) → r = ((max lo (min hi k) % 2 ^ w).toNat, nvF)) ∧
        (lo ≤ k → k ≤ hi → ((k : ℝ) = z → r = ((k % 2 ^ w).toNat, 0)) ∧ ((k : ℝ) ≠ z → r = ((k % 2 ^ w).toNat, nxF)))) ∧
    (tyInt q = true → tyInt t = false → (int = 0 → r = (0, 0)) ∧ (int ≠ 0 → Claim.Rounded D rm (int : ℝ) r)) ∧
    (tyInt q = true → tyInt t = true → r = ((max lo (min hi int) % 2 ^ w).toNat, 0)) ∧
    ∀ (F : Fmt) (x s : Machine.Num), F ∈ [Fmt.f32, Fmt.f16, Fmt.bf16, Fmt.h8] →
      let v := scaleNarrow F rm x s
      let sign := x.neg != s.neg
      (x.isNan = true ∨ s.isNan = true → v = (F.canon, if x.isSnan || s.isSnan then nvF else 0)) ∧
      (∀ n k, x = .inf n → s = .inf k → v = (F.canon, nvF)) ∧
      ∀ y z : ℝ,
        (Claim.Stands y x → Claim.Stands z s → (y ≠ 0 → z ≠ 0 → Claim.Rounded F rm (y / z) v) ∧
          (y = 0 → z ≠ 0 → v = (F.zero sign, 0)) ∧ (y ≠ 0 → z = 0 → v = (F.inf sign, dzF)) ∧
          (y = 0 → z = 0 → v = (F.canon, nvF))) ∧
        (∀ n, Claim.Stands y x → s = .inf n → v = (F.zero sign, 0)) ∧
        (∀ n, x = .inf n → Claim.Stands z s → v = (F.inf sign, 0)))

/-- The reductions write y to element 0 and 0 to the others (R158): the ordered sum of the active elements with bound 40
(8 for integers, whose sum is exact), the maximum and the minimum with bound 8.

VRNG maps counters through cg32 keyed by NKEY (R162), PRUNE keeps at most n of a group of the elements that survive
their threshold (R163), TOPK writes the leading k active elements and their indices (R164).

The folds and the orders of the reductions and selections: the ordered sum from −0, each step rounded and flushed, with
its special cases, the integer sum and the fold of minima and maxima (R158); cg32 with R162's example (R109); the elements
that survive and the order of PRUNE (R163); the order of TOPK (R164); and a stable sort. That a lone +0 under RDN, or a
lone subnormal under FTZO, goes through VREDADD's fold like any other is the model's reading (DEDUCED, log 53). -/
def Obligations.VectorReductionsAndSelection : Prop :=
  (∀ (u : Pfx) (t : BitVec 3) (d a : BitVec 5) (f o : Bool),
    let w := typeW t
    let F := typeFmt t
    let act (s : State) : List Nat := (List.range (typeN t)).filter (fun i => (s.guard u.n u.g).getLsbD i)
    let ints (s : State) : List Int := (act s).map (fun i => toIntW (t != 6) w (elem w (s.readV a) i))
    let all (s : State) (lat v : Nat) (fl : Flags) : State := s.putV lat d (BitVec.ofNat 1024 v) (BitVec.allOnes 128) fl
    (tyFloat t = true →
      Claim.Runs (.vredadd u t d a f o) (fun s =>
        let r := reduceAdd F s.rm o ((act s).map (fun i => F.operand f (elem w (s.readV a) i)))
        all s 40 r.1 r.2) ∧
      Claim.Runs (.vredmax u t d a f) (fun s =>
        let r := reduceMinMax F true ((act s).map (fun i => F.flushedPattern f (elem w (s.readV a) i)))
        all s 8 r.1 r.2) ∧
      Claim.Runs (.vredmin u t d a f) (fun s =>
        let r := reduceMinMax F false ((act s).map (fun i => F.flushedPattern f (elem w (s.readV a) i)))
        all s 8 r.1 r.2)) ∧
    (tyFloat t = false →
      Claim.Runs (.vredadd u t d a f o) (fun s => all s 8 (reduceInt t o (ints s).sum) 0) ∧
      Claim.Runs (.vredmax u t d a f) (fun s => match ints s with
        | [] => s
        | y :: ys => all s 8 ((ys.foldl max y) % 2 ^ w).toNat 0) ∧
      Claim.Runs (.vredmin u t d a f) (fun s => match ints s with
        | [] => s
        | y :: ys => all s 8 ((ys.foldl min y) % 2 ^ w).toNat 0))) ∧
  (∀ (u : Pfx) (t : BitVec 3) (d a b : BitVec 5) (k : BitVec 2),
    let draw (s : State) (n : Nat) : Nat := (cg32 s.here.nkey (BitVec.ofNat 32 n)).toNat
    let num (s : State) (i : Nat) : Machine.Num := Fmt.f32.value (elem 32 (s.readV a) i)
    let stay (s : State) (i : Nat) : Bool := s.active u i && survives (num s i) (Fmt.f32.value (elem 32 (s.readV b) i))
      ⟨draw s (elem 32 (s.readV d) i) / 2 ^ 8, -24⟩
    let keep := if k = 2 then 4 else 2
    let g := if k = 0 then 4 else 8
    let order (s : State) : List Nat := sortBy
      (fun i j => topBefore t (elem 32 (s.readV a) i) (elem 32 (s.readV a) j)) ((List.range 32).filter (s.active u))
    let row (s : State) : List (Nat × Nat) := (List.range (min (elem 32 (s.readV b) 0) 32)).map (fun r =>
      match (order s)[r]? with
      | some i => (elem 32 (s.readV a) i, i)
      | none => (if t = 0 then 0xFF800000 else if t = 5 then 0x80000000 else 0, 0xFFFF))
    let top (s : State) : Part := elemPart 32 (fun i => decide (i < min (elem 32 (s.readV b) 0) 32))
    (2 ≤ t → Claim.Runs (.vrng u t d a) (fun s =>
      s.vmap u (typeW t) (typeN t) 3 d (fun i => (draw s (elem (typeW t) (s.readV a) i), 0)))) ∧
    Claim.Runs (.vrng u 0 d a) (fun s => s.vmap u 32 32 3 d
      (fun i => ((Fmt.f32.round .rne false (draw s (elem 32 (s.readV a) i) / 2 ^ 8) (-24)).1, 0))) ∧
    Claim.Runs (.vrng u 1 d a) (fun s => s.vmap u 64 16 3 d
      (fun i =>
        let n := elem 64 (s.readV a) i % 2 ^ 32
        ((Fmt.f64.round .rne false (draw s n * 2 ^ 21 + draw s (n + 1) / 2 ^ 11) (-53)).1, 0))) ∧
    (k ≠ 3 → Claim.Runs (.prune u d a b k) (fun s => s.vmap u 32 32 8 d (fun i =>
      let group := ((List.range g).map (fun j => i / g * g + j)).filter (stay s)
      (if ((sortBy (fun p q => magBefore (num s p) (num s q)) group).take keep).contains i then elem 32 (s.readV a) i
        else 0, 0)))) ∧
    Claim.Runs (.topk u t d a b) (fun s =>
      (s.putV 12 d (BitVec.ofNat 1024 (packElems 32 ((row s).map Prod.fst))) (top s) 0).putV 12 (d + 1)
        (BitVec.ofNat 1024 (packElems 32 ((row s).map Prod.snd))) (top s) 0)) ∧
  ((∀ F ∈ [Fmt.f64, Fmt.f32], ∀ (rm : Rm) (o : Bool) (xs : List Machine.Num),
      let nan := ∃ x ∈ xs, x.isNan = true
      let both := Machine.Num.inf false ∈ xs ∧ Machine.Num.inf true ∈ xs
      (nan ∨ both → (reduceAdd F rm o xs).1 = F.canon ∧
        ((reduceAdd F rm o xs).2 = nvF ↔ (∃ x ∈ xs, x.isSnan = true) ∨ both) ∧
        ((reduceAdd F rm o xs).2 = 0 ↔ ¬ ((∃ x ∈ xs, x.isSnan = true) ∨ both))) ∧
      (¬ nan → ¬ both → ∀ n, Machine.Num.inf n ∈ xs → reduceAdd F rm o xs = (F.inf n, 0)) ∧
      (¬ nan → (∀ n, Machine.Num.inf n ∉ xs) → ∃ c : Nat → Nat × Flags, c 0 = (F.zero true, 0) ∧
        (∀ k x, xs[k]? = some x → c (k + 1) =
          ((F.flushOut o (F.add rm (F.value (c k).1) x)).1, (c k).2 ||| (F.flushOut o (F.add rm (F.value (c k).1) x)).2)) ∧
        reduceAdd F rm o xs = c xs.length)) ∧
    (∀ F ∈ [Fmt.f64, Fmt.f32], ∀ (max : Bool) (p : Nat) (ps : List Nat),
      let pick (x y : Nat) : Nat :=
        if (F.value x).isNan && (F.value y).isNan then F.canon
        else if (F.value x).isNan then y else if (F.value y).isNan then x
        else if max then (if (F.value x).ltSigned (F.value y) then y else x)
        else (if (F.value y).ltSigned (F.value x) then y else x)
      let nv (x y : Nat) : Flags := if (F.value x).isSnan || (F.value y).isSnan then nvF else 0
      ∃ c : Nat → Nat × Flags,
        c 0 = (if (F.value p).isNan then (F.canon, if (F.value p).isSnan then nvF else 0) else (p, 0)) ∧
        (∀ k q, ps[k]? = some q → c (k + 1) = (pick (c k).1 q, (c k).2 ||| nv (c k).1 q)) ∧
        reduceMinMax F max (p :: ps) = c ps.length) ∧
    (∀ (t : BitVec 3) (sat : Bool) (y : Int),
      let w := typeW t
      let lo : Int := if t = 6 then 0 else -2 ^ (w - 1)
      let hi : Int := if t = 6 then 2 ^ w - 1 else 2 ^ (w - 1) - 1
      reduceInt t sat y = ((if sat then max lo (min hi y) else y) % 2 ^ w).toNat) ∧
    (∀ (key : DWord) (n : BitVec 32),
      let h0 := (n.toNat + key.toNat % 2 ^ 32) % 2 ^ 32
      let h1 := (h0 ^^^ h0 / 2 ^ 16) * 0x7FEB352D % 2 ^ 32
      let h2 := (h1 ^^^ h1 / 2 ^ 15) * 0x846CA68B % 2 ^ 32
      (cg32 key n).toNat = h2 ^^^ h2 / 2 ^ 16 ^^^ key.toNat / 2 ^ 32) ∧ cg32 0x0000000500000000 1 = 0x688990C5 ∧
    (∀ (x tau : Machine.Num) (u : Nat) (y z : ℝ),
      (tau.isNan = true ∨ tau = .inf true ∨ (Claim.Stands z tau ∧ z ≤ 0) → survives x tau ⟨u, -24⟩ = true) ∧
      (tau = .inf false → survives x tau ⟨u, -24⟩ = (x.isInf || x.isNan)) ∧
      (Claim.Stands z tau → 0 < z → x.isNan = true ∨ x.isInf = true → survives x tau ⟨u, -24⟩ = true) ∧
      (Claim.Stands z tau → 0 < z → Claim.Stands y x →
        (survives x tau ⟨u, -24⟩ = true ↔ z ≤ |y| ∨ (u : ℝ) / 2 ^ 24 * z < |y|))) ∧
    (∀ (x y : Machine.Num) (v w : ℝ),
      (x.isNan = true → y.isNan = false → magBefore x y = true) ∧
      (y.isNan = true → magBefore x y = false) ∧
      (x.isInf = true → Claim.Stands w y → magBefore x y = true) ∧ (x.isNan = false → y.isInf = true → magBefore x y = false) ∧
      (Claim.Stands v x → Claim.Stands w y → (magBefore x y = true ↔ |w| < |v|))) ∧
    (∀ (p q : Nat) (v w : ℝ),
      let x := Fmt.f32.value p
      let y := Fmt.f32.value q
      (x.isNan = true → topBefore 0 p q = false) ∧ (x.isNan = false → y.isNan = true → topBefore 0 p q = true) ∧
      (Claim.Stands v x → Claim.Stands w y → (topBefore 0 p q = true ↔ w < v)) ∧
      (∀ n, x = .inf n → Claim.Stands w y → topBefore 0 p q = !n) ∧ (∀ n, Claim.Stands v x → y = .inf n → topBefore 0 p q = n) ∧
      (∀ n k, x = .inf n → y = .inf k → topBefore 0 p q = (!n && k)) ∧
      (∀ t : BitVec 3, t ≠ 0 → (topBefore t p q = true ↔ toIntW (t != 6) 32 q < toIntW (t != 6) 32 p))) ∧
    ∀ (before : Nat → Nat → Bool) (l : List Nat), (∀ i, before i i = false) →
      (∀ i j, before i j = true → before j i = false) →
      (∀ i j k, before i j = true → before i k = true ∨ before k j = true) → l.Pairwise (· < ·) →
      (sortBy before l).Perm l ∧ (sortBy before l).Pairwise (fun i j => before i j = true ∨ (before j i = false ∧ i < j)))

/-- The codebook and sparsity forms (R205, R207, R210, R211): their whole effect, with the faults they raise. The position
that a fault's DETAIL gives, and which entries SPENC and SPDEC check, are the model's reading (DEDUCED, log 21).

The contents of QNT's and DQ's vectors, opened. QNT (R205): the scale byte from the largest magnitude and the largest live
entry, clamped with NX; the nearest live code, ties to the lower; which elements qualify, and which the CAP elects, by magnitude and
then by index; NaN or infinite input, and inputs that are all zero. The block vector's fields (R204), the spall entry of an
elected element, the value of one lane of DQ (R200, R207), and the checks of its entries (R201). -/
def Obligations.BlockForms : Prop :=
  (∀ (u : Pfx) (t : BitVec 3) (d a b : BitVec 5) (k : BitVec 2) (f : Bool),
    Claim.Runs (.qnt u d a b f) (fun s =>
      let y := s.readV b
      let cb := (y.toNat / 2 ^ 53) % 4
      let base := (y.toNat / 2 ^ 37) % 256 * 32
      let book := s.here.book cb
      let cap := if book.esc = 0 then 0 else min (y.toNat / 2 ^ 48 % 32) 16
      if book = ⟨0, 0⟩ then s.late causeCbbad (spDetail 0 cb 0)
      else
        let q := quantise book ((List.range 32).map (fun i =>
          if s.active u i then Fmt.f32.operand f (elem 32 (s.readV a) i) else .fin false 0 0)) (Fmt.f32.value (elem 32 y 0)) cap
        let es := q.elected.map (spallEntry q base)
        let s' := (s.putV 16 d (BitVec.ofNat 1024 (blockVector q base cb)) (BitVec.allOnes 128)
            (q.flags ||| orAll (es.map Prod.snd))).putV 16 (d + 1) (BitVec.ofNat 1024 (packElems 64 (es.map Prod.fst)))
            (BitVec.allOnes 128) 0
        if q.stat % 2 = 1 ∧ (y.toNat / 2 ^ 56) % 2 = 0 then s'.late causeSpovf (spDetail 0 cb 0) else s') ∧
    Claim.Runs (.dq u d a b f) (fun s =>
      let x := (s.readV a).toNat
      let e := x / 2 ^ 128 % 256
      let cb := x / 2 ^ 208 % 4
      let base := x / 2 ^ 197 % 256 * 32
      let book := s.here.book cb
      let es := (List.range 16).map (fun i => (s.readV b).extractLsb' (64 * i) 64)
      let lane (i : Nat) : Option (Nat × Flags) := expandElem book s.rm f e (elem 4 (s.readV a) i) (spallValue es (base + i))
      let s' := s.vmap u 32 32 6 d (fun i => (lane i).getD (0x7FC00000, 0))
      if book = ⟨0, 0⟩ then s.late causeCbbad (spDetail 0 cb 0)
      else match scanFault 8192 es, (List.range 32).find? (fun i => s.active u i && (lane i).isNone) with
        | some r, _ => s'.late r.1 (spDetail 0 cb r.2)
        | none, some i => s'.late causeSpmiss (spDetail 0 cb (base + i))
        | none, none => s') ∧
    (k ≠ 3 →
      let n := if k = 2 then 4 else 2
      let g := if k = 0 then 4 else 8
      let w := if k = 0 then 3 else if k = 1 then 5 else 7
      let groups := List.range (32 / g)
      Claim.Runs (.spenc u t d a k) (fun s =>
        let lane (i : Nat) : Nat := if s.active u i then elem 32 (s.readV a) i else 0
        let nz (j : Nat) : List Nat := (List.range g).filter (fun i => lane (j * g + i) != 0)
        let others (j : Nat) : List Nat := (List.range g).filter (fun i => lane (j * g + i) == 0)
        let kept (j : Nat) : List Nat :=
          if (nz j).length ≤ n then
            (List.range g).filter (fun i => (nz j).contains i || ((others j).take (n - (nz j).length)).contains i)
          else (nz j).take n
        let number (j : Nat) : Nat := ((kept j).mapIdx (fun m c => Nat.choose c (m + 1))).sum
        s.putV 8 d (BitVec.ofNat 1024 (packElems 32 (groups.flatMap (fun j => (kept j).map (fun i => lane (j * g + i)))) +
          (groups.map (fun j => if (nz j).length ≤ n then 0 else 2 ^ j)).sum * 2 ^ 960 +
          (groups.map (fun j => number j * 2 ^ (w * j))).sum * 2 ^ 992)) (BitVec.allOnes 128) 0) ∧
      ∀ s, Claim.Issues (.spdec u t d a k) s →
        let r := Claim.issuing (.spdec u t d a k) s
        let x := r.readV a
        let number (j : Nat) : Nat := elem 32 x 31 / 2 ^ (w * j) % 2 ^ w
        let bad := 2 ^ (w * (32 / g)) ≤ elem 32 x 31 ∨ ∃ j < 32 / g, Nat.choose g n ≤ number j
        ∃ f : Nat → Nat,
          (∀ i < 32, Nat.choose g n ≤ number (i / g) → f i = 0) ∧
          (∀ i < 32, ∀ p : List Nat, p.length = n → p.Pairwise (· < ·) → (∀ c ∈ p, c < g) →
            (p.mapIdx (fun m c => Nat.choose c (m + 1))).sum = number (i / g) →
            f i = match p.findIdx? (· == i % g) with | some m => elem 32 x (i / g * n + m) | none => 0) ∧
          let t' := r.vmap u 32 32 8 d (fun i => (f i, 0))
          (bad → exec (.spdec u t d a k) s = .next (t'.late causeSppat 0)) ∧
          (¬ bad → exec (.spdec u t d a k) s = .next t'))) ∧
  ((∀ (b : Codebook) (xs : List Machine.Num) (theta : Machine.Num) (cap : Nat), xs.length = 32 →
      let q := quantise b xs theta cap
      let zeros := List.replicate 32 0
      ((∃ x ∈ xs, x.isNan = true ∨ x.isInf = true) → q = ⟨zeros, 255, [], [], 0, 4, nvF⟩) ∧
      ((∀ x ∈ xs, x.isZero = true) → q = ⟨zeros, 0, [], [], 0, 0, 0⟩) ∧
      ∀ (X V : Nat → ℝ) (top big : ℤ),
        let live (j : Nat) : Prop := j < 16 ∧ b.esc.getLsbD j = false
        (∀ i < 32, ∃ x, xs[i]? = some x ∧ Claim.Stands (X i) x) →
        (∀ j, live j → Claim.Stands (V j) (Fmt.bf16.value (b.ents.extractLsb' (16 * j) 16).toNat)) →
        (∃ i < 32, 2 ^ top ≤ |X i|) → (∀ i < 32, |X i| < 2 ^ (top + 1)) →
        (∃ j, live j ∧ 2 ^ big ≤ |V j|) → (∀ j, live j → |V j| < 2 ^ (big + 1)) →
        let e := max 1 (min 254 (top - big + 127))
        let y (i : Nat) : ℝ := X i / 2 ^ (e - 127)
        let far (i c : Nat) : Prop := y i ≠ 0 ∧ (theta = .inf true ∨ ∃ t, Claim.Stands t theta ∧ t * |y i| < |y i - V c|)
        ∃ c : Nat → Nat,
          (∀ i < 32, live (c i) ∧ ∀ j, live j → |y i - V (c i)| ≤ |y i - V j| ∧ (|y i - V (c i)| = |y i - V j| → c i ≤ j)) ∧
          ∃ qs : Finset Nat, (∀ i, i ∈ qs ↔ i < 32 ∧ far i (c i)) ∧ q.qualified = qs.card ∧
            q.elected.Pairwise (· < ·) ∧
            (∀ i, i ∈ q.elected ↔ i ∈ qs ∧ ∃ before : Finset Nat,
              (∀ j, j ∈ before ↔ j ∈ qs ∧ (|X i| < |X j| ∨ (|X j| = |X i| ∧ j < i))) ∧ before.card < cap) ∧
            (q.scale : ℤ) = e ∧ q.codes.length = 32 ∧
            (∀ i < 32, (i ∉ q.elected → q.codes[i]? = some (c i)) ∧ (i ∈ q.elected → ∀ m < 16, b.esc.getLsbD m = true →
              (∀ j < m, b.esc.getLsbD j = false) → q.codes[i]? = some m)) ∧
            (∀ i < 32, ∃ z, q.quotients[i]? = some z ∧ Claim.Stands (y i) z) ∧
            q.stat = (if cap < qs.card then 1 else 0) + (if e = top - big + 127 then 0 else 2) ∧
            q.flags = (if e = top - big + 127 then 0 else nxF)) ∧
    (∀ (q : Quantised) (base cb : Nat), q.codes.length = 32 → (∀ c ∈ q.codes, c < 16) → q.scale < 256 → q.stat < 256 →
      q.qualified < 256 → q.elected.Pairwise (· < ·) → (∀ i ∈ q.elected, i < 32) → base < 2 ^ 13 → cb < 4 →
      let v := blockVector q base cb
      (∀ i < 32, q.codes[i]? = some (v / 2 ^ (4 * i) % 16)) ∧ v / 2 ^ 128 % 256 = q.scale ∧
      v / 2 ^ 136 % 256 = q.elected.length ∧ v / 2 ^ 144 % 256 = q.stat ∧ v / 2 ^ 152 % 256 = q.qualified ∧
      (∀ i < 32, v / 2 ^ (160 + i) % 2 = if i ∈ q.elected then 1 else 0) ∧ v / 2 ^ 192 % 2 ^ 16 = base ∧ v / 2 ^ 208 = cb) ∧
    (∀ (q : Quantised) (base i m : Nat) (n : Bool) (e : ℤ), q.quotients[i]? = some (.fin n m e) → base + i < 2 ^ 13 →
      let r := Fmt.f32.round .rne n m e
      spallEntry q base i = (r.1 * 2 ^ 32 + (base + i) / 2048 * 2 ^ 12 + 2 ^ 11 + (base + i) % 2048, r.2)) ∧
    (∀ (book : Codebook) (rm : Rm) (o : Bool) (e c v : Nat) (val : Option Nat), c < 16 →
      let r := expandElem book rm o e c val
      let scaled (z : ℝ) (neg : Bool) (r : Option (Nat × Flags)) : Prop :=
        (z = 0 → r = some (Fmt.f32.zero neg, 0)) ∧
        (z ≠ 0 → ∃ y, Claim.Rounded Fmt.f32 rm (z * 2 ^ ((e : ℤ) - 127)) y ∧ r = some (Fmt.f32.flushOut o y))
      (e = 0 → r = some (0, 0)) ∧ (e = 255 → r = some (Fmt.f32.canon, 0)) ∧
      (0 < e → e < 255 → book.esc.getLsbD c = true → (val = none → r = none) ∧
        (val = some v → (∀ n, Fmt.f32.value v = .nan n → r = some (Fmt.f32.canon, if n then nvF else 0)) ∧
          (∀ n, Fmt.f32.value v = .inf n → r = some (Fmt.f32.inf n, 0)) ∧
          ∀ z, Claim.Stands z (Fmt.f32.value v) → scaled z (Fmt.f32.value v).neg r)) ∧
      (0 < e → e < 255 → book.esc.getLsbD c = false → ∀ z,
        Claim.Stands z (Fmt.bf16.value (book.ents.extractLsb' (16 * c) 16).toNat) →
          scaled z (Fmt.bf16.value (book.ents.extractLsb' (16 * c) 16).toNat).neg r)) ∧
    (∀ (es : List DWord) (p npos : Nat),
      let valid (e : DWord) : Bool := e.getLsbD 11
      let pos (e : DWord) : Nat := e.toNat / 2 ^ 12 % 4 * 2048 + e.toNat % 2048
      let at_ := es.filter (fun e => valid e && pos e == p)
      let wrong (e : DWord) : Prop := valid e = true ∧ (e.toNat / 2 ^ 14 % 2 ^ 18 ≠ 0 ∨ npos ≤ pos e)
      (∀ e, at_ = [e] → spallValue es p = some (e.toNat / 2 ^ 32)) ∧ (at_.length ≠ 1 → spallValue es p = none) ∧
      (∀ pre e post, es = pre ++ e :: post → wrong e → (∀ x ∈ pre, ¬ wrong x) → scanFault npos es = some (0x10, pos e)) ∧
      ((∀ e ∈ es, ¬ wrong e) → ∀ ps, ps = (es.filter valid).map pos →
        (ps.Pairwise (· < ·) → scanFault npos es = none) ∧
        ∀ pre a b post, ps = pre ++ a :: b :: post → (pre ++ [a]).Pairwise (· < ·) → b ≤ a → scanFault npos es = some (0x11, b))))

/-! ### The copy slots -/

/-- Where the accesses of the copy slots go (R166, R168 to R170, R172, R174, R175, R177, R188, R189): LD.V at sa + 128 × OFF5,
element i of LD.VS at base + i × stride, lane i of LD.VX at sa + sext(vb[i]); LD.S, ST.S, AMO and RED at a tagged address aligned to their width; FPUSH and FPUSHQ at a tagged address, STQ in
the own slab, 128 bytes of 64-byte alignment, of which the queued forms write the lanes of the entry's mask; a tagged address
names a slab where bit 63 is 1, else a device virtual address; an address of the wrong form or alignment has the fault of
its kind.

A slab address of a core and the Wall address of the same byte (R29, R30, Table 1.5): below 1.5 MiB it names the core's
own slab, in a window the slab of core n; elsewhere, and in the odd window of a twin pair (R349), there is none. -/
def Obligations.AddressForms : Prop :=
  (∀ (s : State) (u : Pfx) (v b : BitVec 5) (a : BitVec 6) (c : BitVec 4)
      (o : BitVec 5) (w64 : Bool) (w : BitVec 2) (l : BitVec 3) (t : BitVec 7) (e q : BitVec 2) (sc : BitVec 3),
    (accessOf (.ldV u v a c o) s).parts = [(0, s.placeOwn (s.readS a + BitVec.ofInt 64 (128 * o.toInt)) 128 64, 128)] ∧
    (accessOf (.stV u v a c o) s).parts = (accessOf (.ldV u v a c o) s).parts ∧
    (let n := if w64 then 8 else 4
     (accessOf (.ldVs u v a c w64) s).parts = (List.range (128 / n)).map (fun i =>
       (n * i, s.placeOwn (s.readS a + BitVec.ofNat 64 i * s.readS (a + 1)) n n, n))) ∧
    (accessOf (.stVs u v a c w64) s).parts = (accessOf (.ldVs u v a c w64) s).parts ∧
    (accessOf (.ldVx u v a b c) s).parts = (List.range 32).map (fun i =>
      (4 * i, s.placeOwn (s.readS a + BitVec.ofInt 64 ((s.readV b).extractLsb' (32 * i) 32).toInt) 4 4, 4)) ∧
    (accessOf (.stVx u v a b c) s).parts = (accessOf (.ldVx u v a b c) s).parts ∧
    (accessOf (.ldrL u l a c t) s).parts = [(0, s.placeAny (s.readS a) 128 64, 128)] ∧
    (accessOf (.ldS u a c e sc w) s).parts =
      [(0, s.placeTagged (s.readS a) (2 ^ w.toNat) (2 ^ w.toNat), 2 ^ w.toNat)] ∧
    (accessOf (.stS u a c e sc w) s).parts = (accessOf (.ldS u a c e sc w) s).parts ∧
    (∀ i ∈ [Instr.amoAdd u a c e sc w, .amoFadd u a c e sc w, .amoMin u a c e sc w, .amoMax u a c e sc w, .amoMinu u a c e sc w,
        .amoMaxu u a c e sc w, .amoAnd u a c e sc w, .amoOr u a c e sc w, .amoXor u a c e sc w, .amoSwp u a c e sc w,
        .amoCas u a c e sc w, .redAdd u a c sc w, .redFadd u a c sc w, .redMin u a c sc w, .redMax u a c sc w, .redAnd u a c sc w,
        .redOr u a c sc w, .redXor u a c sc w],
      (accessOf i s).parts = [(0, s.placeTagged (s.readS a) (2 ^ w.toNat) (2 ^ w.toNat), 2 ^ w.toNat)] ∧
        (accessOf i s).addr = s.readS a ∧ (accessOf i s).read = true ∧ (accessOf i s).write = true) ∧
    (accessOf (.fpush u v a c) s).parts = [(0, s.placeTagged (s.readS a) 128 64, 128)] ∧
    (accessOf (.fpushq u q a c sc) s).parts = [(0, s.placeTagged (s.readS a) 128 64, 128)] ∧
    (accessOf (.stq u q a c sc) s).parts = [(0, s.placeOwn (s.readS a) 128 64, 128)] ∧
    (∀ (m : BitVec 32) (k : Nat) (x : DWord) (f : Frag),
      (f ∈ maskedFrags (.slab k) m ↔ ∃ i < 32, m.getLsbD i = true ∧ f = ⟨4 * i, .key (k + 4 * i), 4⟩) ∧
      (f ∈ maskedFrags (.dva x) m ↔ ∃ i < 32, m.getLsbD i = true ∧ f = ⟨4 * i, .dva (x + BitVec.ofNat 64 (4 * i)), 4⟩)) ∧
    ∀ (x : DWord) (len al : Nat),
      (∀ k, s.placeOwn x len al = .slab k ↔
        x.toNat % al = 0 ∧ s.slab s.cur.core x.toNat len = some k ∧ coreOfKey k = some s.cur.core) ∧
      (∀ k, s.placeAny x len al = .slab k ↔ x.toNat % al = 0 ∧ s.slab s.cur.core x.toNat len = some k) ∧
      (¬ (∃ k, s.placeOwn x len al = .slab k) → (s.placeOwn x len al).fault = some causeSlabaddr) ∧
      (¬ (∃ k, s.placeAny x len al = .slab k) → (s.placeAny x len al).fault = some causeSlabaddr) ∧
      (x.getLsbD 63 = true → x.toNat / 2 ^ 32 % 2 ^ 31 = 0 →
        s.placeTagged x len al = s.placeAny (BitVec.ofNat 64 (x.toNat % 2 ^ 32)) len al) ∧
      (x.getLsbD 63 = true → x.toNat / 2 ^ 32 % 2 ^ 31 ≠ 0 → (s.placeTagged x len al).fault = some causeSlabaddr) ∧
      (x.getLsbD 63 = false → x.toNat < 2 ^ 56 → x.toNat % al = 0 → s.placeTagged x len al = .dva x) ∧
      (x.getLsbD 63 = false → 2 ^ 56 ≤ x.toNat ∨ x.toNat % al ≠ 0 → (s.placeTagged x len al).fault = some causeAddr)) ∧
  (∀ (s : State) (core a len : Nat),
    (a + len ≤ 0x180000 → s.slab core a len = some (0x20000000 + core * 0x200000 + a)) ∧
    (∀ n off, n < 256 → off < 0x200000 → a = 0x20000000 + n * 0x200000 + off →
      s.slab core a len = if off + len ≤ 0x180000 ∧ ¬((s.course (n / 8)).twin = true ∧ n % 2 = 1) then some a else none) ∧
    (0x180000 < a + len → a < 0x20000000 ∨ 0x40000000 ≤ a → s.slab core a len = none) ∧
    ∀ k, s.ownSlab core a len = some k ↔ s.slab core a len = some k ∧ k / 0x200000 = 0x100 + core ∧ core < 256)

/-- The banks of a slab (R31): the bank is A[10:6], the row A[20:11], the byte A[5:0]; granules rotate through the 32 banks,
each of 768 rows of 64 bytes; group 0 is banks 0 to 15. -/
def Obligations.BanksOfASlab : Prop := ∀ (n a : Nat), n < 256 → a < 0x180000 →
  let k := 0x20000000 + n * 0x200000 + a
  bankOf k = a / 2 ^ 6 % 2 ^ 5 ∧ a / 2 ^ 11 < 768 ∧ a = a / 2 ^ 11 * 2 ^ 11 + bankOf k * 2 ^ 6 + a % 2 ^ 6 ∧
    bankOf (k + 64) = (bankOf k + 1) % 32 ∧
    (∀ bank row byte, bank < 32 → row < 768 → byte < 64 →
      row * 2048 + bank * 64 + byte < 0x180000 ∧ bankOf (0x20000000 + n * 0x200000 + (row * 2048 + bank * 64 + byte)) = bank) ∧
    groupOf k = a / 2 ^ 10 % 2 ∧ (groupOf k = 0 ↔ bankOf k < 16) ∧ (groupOf k = 1 ↔ 16 ≤ bankOf k)

/-- Loads and stores (R168 to R170, R172 to R174, R187 to R189): each issues one memory operation of its class; a load of
the own slab has a bound of 6, which a gather or a strided one counts from the end of its bundle's stall, a remote load a due cycle, another LD.S an interlock; STQ and FPUSHQ
pop the oldest entry and write its lanes; PF has no visible effect.

The AMO and the RED of an operation of Table 7.3; MINU and MAXU of unsigned operands have no RED of their own, nor have
SWP and CAS.

What stops an access of the copy slots at issue (R82, R166, R172): the fault of the first of its places that has one. LDR.L: a DUE
below the minimum of Table 7.2 (12 in the course, 28 on the die, 64 beyond) for the slab in which its address lies is an illegal
operand, ahead of the slab-address fault; a landing register that is not empty is the queue fault (R173). Where the address lies in no
slab, the minimum is 12, as the model reads it (log 51). -/
def Obligations.LoadsAndStores : Prop :=
  (∀ (u : Pfx) (v b : BitVec 5) (a : BitVec 6) (c d : BitVec 4) (o : BitVec 5)
      (w64 : Bool) (w : BitVec 2) (l : BitVec 3) (t : BitVec 7) (e q : BitVec 2) (sc : BitVec 3),
    let load (i : Instr) (opc bound : Nat) (s : State) : State :=
      (s.memOp c 0 0 128 opc (accessOf i s).addr (accessOf i s).frags (.load .flight)).result bound (.v v) 0
        (BitVec.allOnes 128) 0 (some s.freshId)
    let store (i : Instr) (opc : Nat) (s : State) : State :=
      s.memOp c 0 0 128 opc (accessOf i s).addr (accessOf i s).frags (.store (s.readV v).toNat)
    let push (i : Instr) (opc : Nat) (p : Place) (s : State) (x : QEntry) (r : List QEntry) : State :=
      (s.upd (fun k => { k with q := SMap.setD [] k.q q.toNat r })).memOp c (if sc = 0 then 0 else 2) sc 128 opc
        (accessOf i s).addr (maskedFrags p x.mask) (.store x.data.toNat)
    Claim.Runs (.ldV u v a c o) (load (.ldV u v a c o) 0x00 6) ∧
    Claim.Runs (.ldVs u v a c w64) (fun s => load (.ldVs u v a c w64) 0x02 (6 + s.stall) s) ∧
    Claim.Runs (.ldVx u v a b c) (fun s => load (.ldVx u v a b c) 0x04 (6 + s.stall) s) ∧
    Claim.Runs (.stV u v a c o) (store (.stV u v a c o) 0x01) ∧
    Claim.Runs (.stVs u v a c w64) (store (.stVs u v a c w64) 0x03) ∧
    Claim.Runs (.stVx u v a b c) (store (.stVx u v a b c) 0x05) ∧
    Claim.Runs (.fpush u v a c) (store (.fpush u v a c) 0x25) ∧
    Claim.Runs (.ldrL u l a c t) (fun s =>
      let x := accessOf (.ldrL u l a c t) s
      (s.memOp c 0 0 128 0x06 x.addr x.frags (.load (.landing l))).upd (fun k => { k with
        l := SMap.setD .empty k.l l.toNat (.pending s.freshId (s.cycle + t.toNat) none none) })) ∧
    Claim.Runs (.pf u d a c) (fun s => s) ∧
    Claim.Runs (.ldS u a c e sc w) (fun s =>
      let i : Instr := .ldS u a c e sc w
      let x := accessOf i s
      if x.isOwn s.cur.core then
        ((s.claim (a + 1)).memOp c e sc (2 ^ w.toNat) 0x08 x.addr x.frags (.load .flight)).result 6 (.s (a + 1)) 0
          1 0 (some s.freshId)
      else (s.claim (a + 1)).memOp c e sc (2 ^ w.toNat) 0x08 x.addr x.frags (.load (.sreg (a + 1)))) ∧
    Claim.Runs (.stS u a c e sc w) (fun s =>
      let x := accessOf (.stS u a c e sc w) s
      s.memOp c e sc (2 ^ w.toNat) 0x09 x.addr x.frags (.store (s.readS (a + 1)).toNat)) ∧
    (∀ s x r, Claim.Issues (.stq u q a c sc) s →
      let t := Claim.issuing (.stq u q a c sc) s
      SMap.get [] t.here.q q.toNat = x :: r →
      exec (.stq u q a c sc) s = .next (push (.stq u q a c sc) 0x27 (t.placeOwn (t.readS a) 128 64) t x r)) ∧
    (∀ s x r, Claim.Issues (.fpushq u q a c sc) s →
      let t := Claim.issuing (.fpushq u q a c sc) s
      SMap.get [] t.here.q q.toNat = x :: r →
      exec (.fpushq u q a c sc) s = .next (push (.fpushq u q a c sc) 0x26 (t.placeTagged (t.readS a) 128 64) t x r))) ∧
  (∀ (u : Pfx) (a : BitVec 6) (c : BitVec 4) (e : BitVec 2) (sc : BitVec 3)
      (w : BitVec 2),
    let amo (i : Instr) (op : Rmw) (opc : Nat) (s : State) : State :=
      (s.claim (a + 1)).memOp c e sc (2 ^ w.toNat) opc (accessOf i s).addr (accessOf i s).frags
        (.rmw op (s.readS (a + 1)) (if op = .cas then s.readS (a + 2) else 0) (some (a + 1)))
    let red (i : Instr) (op : Rmw) (opc : Nat) (s : State) : State :=
      s.memOp c 0 sc (2 ^ w.toNat) opc (accessOf i s).addr (accessOf i s).frags (.rmw op (s.readS (a + 1)) 0 none)
    Claim.Runs (.amoAdd u a c e sc w) (amo (.amoAdd u a c e sc w) .add 0x0A) ∧
    Claim.Runs (.amoFadd u a c e sc w) (amo (.amoFadd u a c e sc w) .fadd 0x0B) ∧
    Claim.Runs (.amoMin u a c e sc w) (amo (.amoMin u a c e sc w) .min 0x0C) ∧
    Claim.Runs (.amoMax u a c e sc w) (amo (.amoMax u a c e sc w) .max 0x0D) ∧
    Claim.Runs (.amoMinu u a c e sc w) (amo (.amoMinu u a c e sc w) .minu 0x0E) ∧
    Claim.Runs (.amoMaxu u a c e sc w) (amo (.amoMaxu u a c e sc w) .maxu 0x0F) ∧
    Claim.Runs (.amoAnd u a c e sc w) (amo (.amoAnd u a c e sc w) .and 0x10) ∧
    Claim.Runs (.amoOr u a c e sc w) (amo (.amoOr u a c e sc w) .or 0x11) ∧
    Claim.Runs (.amoXor u a c e sc w) (amo (.amoXor u a c e sc w) .xor 0x12) ∧
    Claim.Runs (.amoSwp u a c e sc w) (amo (.amoSwp u a c e sc w) .swp 0x13) ∧
    Claim.Runs (.amoCas u a c e sc w) (amo (.amoCas u a c e sc w) .cas 0x14) ∧
    Claim.Runs (.redAdd u a c sc w) (red (.redAdd u a c sc w) .add 0x18) ∧
    Claim.Runs (.redFadd u a c sc w) (red (.redFadd u a c sc w) .fadd 0x19) ∧
    Claim.Runs (.redMin u a c sc w) (red (.redMin u a c sc w) .min 0x1A) ∧
    Claim.Runs (.redMax u a c sc w) (red (.redMax u a c sc w) .max 0x1B) ∧
    Claim.Runs (.redAnd u a c sc w) (red (.redAnd u a c sc w) .and 0x1C) ∧
    Claim.Runs (.redOr u a c sc w) (red (.redOr u a c sc w) .or 0x1D) ∧
    Claim.Runs (.redXor u a c sc w) (red (.redXor u a c sc w) .xor 0x1E)) ∧
  (∀ (s : State) (w : Word),
    (∀ i : Instr, i.slotClass = some .c → copyIdOf i = none → (∀ u d a c, i ≠ .srel u d a c) → (∀ u l a c t, i ≠ .ldrL u l a c t) →
      (∀ p x q f, (accessOf i s).parts = p ++ x :: q → (∀ y ∈ p, y.2.1.fault = none) → x.2.1.fault = some f →
        issueFault .c w i s = some (f, 0)) ∧
      ((∀ y ∈ (accessOf i s).parts, y.2.1.fault = none) → issueFault .c w i s = none)) ∧
    ∀ (u : Pfx) (l : BitVec 3) (a : BitVec 6) (c : BitVec 4) (t : BitVec 7),
      let n := s.cur.core
      let adr := (s.readS a).toNat
      let least : Nat := match s.slab n adr 1 with
        | some k => let m := k / 0x200000 - 0x100
          if m / 8 = n / 8 then 12 else if m / 64 = n / 64 then 28 else 64
        | none => 12
      let slab : Prop := adr % 64 = 0 ∧ s.slab n adr 128 ≠ none
      let free : Prop := SMap.get .empty s.here.l l.toNat = .empty
      let gives (x : Option FaultDetail) : Prop := issueFault .c w (.ldrL u l a c t) s = x
      n < 256 →
      (t.toNat < least → gives (some (0x03, w.setWidth 128))) ∧ (least ≤ t.toNat → ¬ slab → gives (some (0x06, 0))) ∧
      (least ≤ t.toNat → slab → ¬ free → gives (some (0x08, BitVec.ofNat 128 (0x100 + l.toNat)))) ∧
      (least ≤ t.toNat → slab → free → gives none))

/-- The copies and the ring commands (R167, R180, R181, R185, R186): a copy takes its id with the descriptor and the nest block
as they stand at issue; RSUB writes FREE to the state bytes of its slots, after what its context has issued to them, and keeps
what they held for the other copy slot; SREL stores DONE to its state byte as a release at .die scope.

The nest block (R179, R180, Table 7.4) and the ring block (R184, R185, Table 7.6) by the offsets of their fields: DEPTH is 1 to
6, an extent at least 1 below DEPTH and zero above it, a stride zero above it, reserved bytes are zero, and the extents of a nest
multiply to the descriptor's units; SLOTS is 1 to 16. A block that fails has no meaning, and its command is an illegal operand.
(That a stride at or above DEPTH is checked, log 20, and that SLOTSTEP is not, log 49, are the model's readings.)

A command whose block holds poison consumes it (R259): it is a late fault POISON of its bundle, with the address of the
first poisoned byte, and the command has no other effect. (That no other effect follows is the model's choice, log 60.)

What stops a copy or ring command at issue, in the order of R82 (R180, R181, R185, R186, R214): a bad descriptor or block is an
illegal operand; a device address that some unit leaves (R28) the address fault; a block or region outside the own slab, or a
destination of CP.SS outside one slab window, the slab-address fault; SREL of a byte that is not FULL the queue fault; a copy id
that has faulted its record (R183). Their order for SREL is the model's choice (log 49), and so is that CP.SS asks no alignment of its
destination (log 47); that device addresses are exact sums is its reading (log 20). -/
def Obligations.CopyCommands : Prop :=
  (∀ (u : Pfx) (d i c : BitVec 4) (a : BitVec 6) (s : State),
    let cmd (t : State) (kind : CopyKind) (base : DWord) (dst : Nat) (n : Nest) (seen : List (Nat × Byte)) : CopyCmd :=
      ⟨kind, t.here.desc d, base, dst, n.exts, n.strides, c, t.here.seq, t.slot, t.heldNow, t.here.pc, t.freshId,
        t.here.slice.map (fun x => x.graph), seen, []⟩
    let take (t : State) (opc : Nat) (x : CopyCmd) : State :=
      t.upd (fun k => { k with
        copies := SMap.setD .free k.copies i.toNat (.running x), did := k.did ++ [.copy opc (t.here.desc d) x.base] })
    let read (t : State) (keys : List Nat) : State := Claim.noted t
      ⟨.ctx t.cur, t.freshId, .read, false, 1#16 <<< c.toNat, keys, none, none, Claim.sliceOf t.here, false, [], false, t.tick⟩
    let block (k n : Nat) : List Nat := (List.range n).map (fun j => k + j)
    let clean (t : State) (keys : List Nat) : Prop := t.flaws = [] ∧ ∀ k ∈ keys, t.poisoned k = false
    (∀ kind ∈ [CopyKind.cpIn, .cpOut],
      let f : Instr := if kind = .cpIn then .cpIn u d a i c else .cpOut u d a i c
      ∀ k n, Claim.Issues f s →
        let t := Claim.issuing f s
        (t.readS (a + 1)).toNat % 64 = 0 → t.ownSlab t.cur.core (t.readS (a + 1)).toNat 64 = some k →
        t.nestBlock k ((Descr.of (t.here.desc d)).rows * (Descr.of (t.here.desc d)).rowUnits) = some n → clean t (block k 64) →
        exec f s = .next (take (read t (block k 64)) (if kind = .cpIn then 0x20 else 0x21)
          (cmd t kind (t.readS a) 0 n t.overwrote))) ∧
    (Claim.Issues (.cpSs u d a i c) s →
      let t := Claim.issuing (.cpSs u d a i c) s
      exec (.cpSs u d a i c) s = .next (take t 0x22
        (cmd t .cpSs (t.readS a) ((t.readS (a + 1)).toNat % 2 ^ 32) ⟨[], []⟩ t.overwrote))) ∧
    ((∀ p ∈ s.here.copies, ∀ q r, p.2 = .running q → q.kind = .ring r → q.before / 16 ≠ s.freshId / 16) → s.overwrote = []) ∧
    (∀ k r, Claim.Issues (.rsub u d a i c) s →
      let t := Claim.issuing (.rsub u d a i c) s
      t.ringAt a = some k → t.ringBlock k = some r → clean t (block k 128) →
      let keys := (List.range r.slots).map (fun m => t.ownKey t.cur.core (r.state + m))
      let b := read t (block k 128)
      let p := (b.performBefore t.cur (b.lastAcc 0 (keys.map (fun k => (k, 1))))).readFirst t.cur t.freshId keys
      let z := (p.store (keys.map (fun k => (k, 0)))).1.noteAtomic (.quarry t.cur.core) 0 .write keys (some 2) none
      exec (.rsub u d a i c) s =
          .next (take z 0x23 (cmd z (.ring r) 0 0 ⟨[], []⟩ (keys.map (fun k => (k, p.byte k))))) ∧
        (∀ k ∈ keys, z.poisoned k = false → z.byte k = 0) ∧
        (t.pends t.cur = [] → t.poison = [] → (∀ k ∈ keys, p.byte k = t.byte k) ∧ ∀ k, k ∉ keys → z.byte k = t.byte k)) ∧
    (∀ b k, Claim.Issues (.srel u d a c) s →
      let t := Claim.issuing (.srel u d a c) s
      t.ringAt a = some b → t.srelByte d a = some k → clean t (block b 128 ++ [k]) →
      exec (.srel u d a c) s = .next ((read t (block b 128 ++ [k])).memOp c 2 2 1 0x24 (BitVec.ofNat 64 k) [⟨0, .key k, 1⟩]
        (.store 2)))) ∧
  (∀ (s : State) (k units : Nat),
    let le (off n : Nat) : Nat := ((List.range n).map (fun j => (s.byte (k + (off + j))).toNat * 256 ^ j)).sum
    let dim (depth e d : Nat) : Prop := 1 ≤ depth ∧ depth ≤ 6 ∧
      ∀ i < 6, (i < depth → le (e + 2 * i) 2 ≠ 0) ∧ (depth ≤ i → le (e + 2 * i) 2 = 0 ∧ le (d + 8 * i) 8 = 0)
    let exts (depth e : Nat) : List Nat := (List.range depth).map (fun i => le (e + 2 * i) 2)
    let strides (depth d : Nat) : List DWord := (List.range depth).map (fun i => BitVec.ofNat 64 (le (d + 8 * i) 8))
    let nest : Prop := dim (le 0 1) 4 16 ∧ le 1 3 = 0 ∧ (exts (le 0 1) 4).prod = units
    let ring : Prop := dim (le 32 1) 36 48 ∧ 1 ≤ le 33 1 ∧ le 33 1 ≤ 16 ∧ le 34 2 = 0 ∧ ∀ j < 28, s.byte (k + (100 + j)) = 0
    (nest → s.nestBlock k units = some ⟨exts (le 0 1) 4, strides (le 0 1) 16⟩) ∧
    (¬ nest → s.nestBlock k units = none) ∧
    (ring → s.ringBlock k = some {
      input := BitVec.ofNat 64 (le 0 8), output := BitVec.ofNat 64 (le 8 8), rowstep := BitVec.ofNat 64 (le 16 8)
      slot0 := le 24 4, slotstep := le 28 4, slots := le 33 1
      exts := exts (le 32 1) 36, strides := strides (le 32 1) 48, state := le 96 4, taken := [] }) ∧
    (¬ ring → s.ringBlock k = none)) ∧
  (∀ (u : Pfx) (d i c : BitVec 4) (a : BitVec 6) (s : State),
    ∀ x ∈ [(Instr.cpIn u d a i c, a + 1, 64), (.cpOut u d a i c, a + 1, 64), (.rsub u d a i c, a, 128), (.srel u d a c, a, 128)],
      Claim.Issues x.1 s →
      let t := Claim.issuing x.1 s
      ∀ k j, t.ownSlab t.cur.core (t.readS x.2.1).toNat x.2.2 = some k → (t.readS x.2.1).toNat % x.2.2 = 0 → t.flaws = [] →
        j < x.2.2 → t.poisoned (k + j) = true → (∀ m < j, t.poisoned (k + m) = false) →
        ∃ r, exec x.1 s = .next r ∧ Claim.Same r (t.late 0x1A (BitVec.ofNat 128 (k + j - (0x20000000 + t.cur.core * 0x200000))))) ∧
  (∀ (s : State) (w : Word) (u : Pfx) (d i c : BitVec 4) (a : BitVec 6),
    let n := s.cur.core
    let x := Descr.of (s.here.desc d)
    let adr (r : BitVec 6) : Nat := (s.readS r).toNat
    let bad : Prop := x.bad = true
    let region : Prop := s.regionOk n x = true
    let clean (k len : Nat) : Prop := ∀ j < len, s.unreadable (k + j) = false
    let ill : Option FaultDetail := some (0x03, w.setWidth 128)
    let gives (f : Instr) (y : Option FaultDetail) : Prop := issueFault .c w f s = y
    let passes (f : Instr) : Prop := (∀ r, s.here.copy i.toNat = .faulted r → gives f (some (0x0C, r))) ∧
      ((∀ r, s.here.copy i.toNat ≠ .faulted r) → gives f none)
    (∀ f ∈ [Instr.cpIn u d a i c, .cpOut u d a i c],
      let block (k : Nat) : Prop := adr (a + 1) % 64 = 0 ∧ s.ownSlab n (adr (a + 1)) 64 = some k
      (bad → gives f ill) ∧
      (∀ k, ¬ bad → block k → clean k 64 →
        (s.nestBlock k (x.rows * x.rowUnits) = none → gives f ill) ∧
        ∀ z, s.nestBlock k (x.rows * x.rowUnits) = some z →
          let high : Prop := 2 ^ 56 ≤ adr a ∨ inDevice (s.readS a) z.exts z.strides = false
          (high → gives f (some (0x05, 0))) ∧ (¬ high → ¬ region → gives f (some (0x06, 0))) ∧ (¬ high → region → passes f)) ∧
      (¬ bad → (∀ k, ¬ block k) → gives f (if 2 ^ 56 ≤ adr a then some (0x05, 0) else some (0x06, 0)))) ∧
    (let at_ (r : Nat) : Nat := (s.readS a + BitVec.ofNat 64 (r * (adr (a + 1) % 2 ^ 32))).toNat
     let placed : Prop := ∀ r < x.rows, s.slab n (at_ r) x.rowBytes ≠ none ∧ (at_ r < 0x20000000 ↔ at_ 0 < 0x20000000) ∧
       (0x20000000 ≤ at_ r → at_ r / 0x200000 = at_ 0 / 0x200000)
     (bad → gives (.cpSs u d a i c) ill) ∧ (¬ bad → ¬ (region ∧ placed) → gives (.cpSs u d a i c) (some (0x06, 0))) ∧
     (¬ bad → region → placed → passes (.cpSs u d a i c))) ∧
    (let f : Instr := .rsub u d a i c
     (bad → gives f ill) ∧ (¬ bad → s.ringAt a = none → gives f (some (0x06, 0))) ∧
     ∀ k, ¬ bad → s.ringAt a = some k → clean k 128 →
      (s.ringBlock k = none → gives f ill) ∧
      ∀ r, s.ringBlock k = some r →
        let ok : Prop := r.slot0 = x.base ∧ ∀ m < r.slots,
          s.ownSlab n (r.slot0 + m * r.slotstep) ((x.rows - 1) * x.stride + x.rowBytes) ≠ none ∧ s.ownSlab n (r.state + m) 1 ≠ none
        (¬ ok → gives f ill) ∧ (ok → r.inDevice x = false → gives f (some (0x05, 0))) ∧
        (ok → r.inDevice x = true → ¬ region → gives f (some (0x06, 0))) ∧ (ok → r.inDevice x = true → region → passes f)) ∧
    (let f : Instr := .srel u d a c
     (bad → gives f ill) ∧ (¬ bad → s.ringAt a = none → gives f (some (0x06, 0))) ∧
     ∀ k, ¬ bad → s.ringAt a = some k → clean k 128 →
      (s.ringBlock k = none → gives f ill) ∧
      ∀ r, s.ringBlock k = some r →
        (let slot (m : Nat) : Prop := m < r.slots ∧ x.base = r.slot0 + m * r.slotstep ∧ (r.slotstep = 0 → m = 0)
         ((∀ m, ¬ slot m) → gives f ill) ∧
         ∀ m, slot m → (s.ownSlab n (r.state + m) 1 = none → gives f ill) ∧
          ∀ y, s.ownSlab n (r.state + m) 1 = some y → s.srelByte d a = some y ∧ (¬ region → gives f (some (0x06, 0))) ∧
            (region → s.unreadable y = false → (s.byte y = 1 → gives f none) ∧ (s.byte y ≠ 1 → gives f (some (0x08, 0)))))) ∧
    ((s.readS a).toNat % 128 = 0 → s.ringAt a = s.ownSlab n (adr a) 128) ∧ ((s.readS a).toNat % 128 ≠ 0 → s.ringAt a = none) ∧
    ∀ (base : DWord) (exts : List Nat) (strides : List DWord), exts.length = strides.length → (∀ e ∈ exts, e ≠ 0) →
      (inDevice base exts strides = true ↔ ∀ j < exts.prod,
        let at_ : Int := base.toNat + ((List.range exts.length).map (fun e =>
          ((j / (exts.take e).prod % exts.getD e 1 : Nat) : Int) * (strides.getD e 0).toInt)).sum
        0 ≤ at_ ∧ at_ < 2 ^ 56))

/-- The frame of every instruction of the copy slots but RSUB: where it issues, no byte of memory reads differently, no
other context, core or course changes; of its own context only the operations on their way, the results that wait for
them, the copy ids, what the commit signature covers, and the landing registers and queues that it names change (R165, R237,
R348). A command that reads a block of the own slab (CP.IN, CP.OUT, SREL) also finds the errors that stand there (R258), and may
raise a late fault. -/
def Obligations.MemoryIssueFrame : Prop := ∀ (i : Instr) (s t : State),
  i.slotClass = some .c → (∀ u d a k c, i ≠ .rsub u d a k c) → Claim.Issues i s → exec i s = .next t →
    let reads : Prop := ∃ u d a k c, i = .cpIn u d a k c ∨ i = .cpOut u d a k c ∨ i = .srel u d a c
    let new (old k : Ctx) : Ctx := { old with
      ops := k.ops, flight := k.flight, copies := k.copies, did := k.did
      q := (match i with | .fpushq _ _ _ _ _ => k.q | .stq _ _ _ _ _ => k.q | _ => old.q)
      l := (match i with | .ldrL _ _ _ _ _ => k.l | _ => old.l) }
    (¬ reads → Claim.Within (Claim.issuing i s) t new) ∧
    (reads →
      let r := Claim.issuing i s
      t = { r with cores := t.cores, log := t.log, past := t.past, poison := t.poison, flaws := t.flaws } ∧
      (∀ n, t.core n = { r.core n with
        ctx0 := (t.core n).ctx0, ctx1 := (t.core n).ctx1, sq := (t.core n).sq, sqOvf := (t.core n).sqOvf }) ∧
      (∀ n, n ≠ s.cur.core → t.core n = r.core n) ∧
      (r.flaws = [] → t.flaws = [] ∧ t.poison = r.poison ∧ ∀ n, (t.core n).sq = (r.core n).sq ∧ (t.core n).sqOvf = (r.core n).sqOvf) ∧
      (∀ c, c ≠ s.cur → t.ctx c = r.ctx c) ∧ (∀ a, t.byte a = r.byte a) ∧
      t.here = { new r.here t.here with late := t.here.late })

/-! ### Memory -/

/-- A memory operation that may perform does so (R167, R237 to R240): a store writes each of its bytes at its home, a later
fragment over an earlier one, and no other byte; it waits for its acknowledgement, and nothing else changes, but that the
other copy slot of its bundle keeps what stood in the bytes that change: both slots read before either writes; and a copy
of C0 leaves alone what C1 writes. That the bytes of an access perform in one step is the model's choice (log 11).

A load that may perform takes the bytes that stand at its places, or stood there before the other copy slot of its bundle
wrote them (R167, R237, R238): it changes no byte of memory, its value goes to the result that waits for it (own slab), or
stays with the operation until it lands. That the bytes of an access perform in one step is the model's choice (log 11). -/
def Obligations.AccessesPerform : Prop :=
  (∀ (s : State) (c : CtxId) (k data : Nat) (o : MemOp) (l : List (Nat × Nat)),
    s.opAt c k = some o → o.act = .store data → s.mayPerform c o = true →
    s.locate c.core .write o.frags = .ok l → (∀ p ∈ l, s.refusedBy c.core p.2 = false) → s.poison = [] → s.flaws = [] →
      let keys := l.map Prod.snd
      let kept (old new : List (Nat × Byte)) : Prop := ∀ a ∈ keys, new.find? (fun b => b.1 == a) =
        some (a, ((old.find? (fun b => b.1 == a)).map Prod.snd).getD (s.byte a))
      ∃ t, exec (.memoryAccessPerform c k .none) s = .next t ∧
        (∀ a, a ∉ keys → t.byte a = s.byte a) ∧
        (∀ p q a b, l = p ++ (a, b) :: q → b ∉ q.map Prod.snd → t.byte b = byteAt data a) ∧
        Claim.Same t { ((s.writeFirst c o).updCtx c (fun x => x.updOp o.id (fun o => { o with performed := true }))) with
          mem := t.mem } ∧
        t.log = s.log ++ [{ o.event c keys with slice := Claim.sliceOf (s.ctx c), tick := s.tick }] ∧
        (∀ e ∈ (s.ctx c).ops, e.id / 16 ≠ o.id / 16 ∨ e.id = o.id ∨ e.performed = true →
          (if e.id = o.id then { e with performed := true } else e) ∈ (t.ctx c).ops) ∧
        (6 ≤ o.id % 16 → (∀ e ∈ (s.ctx c).ops, e.id / 16 = o.id / 16 → e.id ≠ o.id → 6 ≤ e.id % 16 → e.performed = false →
          ∃ f ∈ (t.ctx c).ops, f = { e with seen := f.seen } ∧ kept e.seen f.seen) ∧
          ∀ j q, (s.ctx c).copy j = .running q → q.before / 16 = o.id / 16 → q.before ≠ o.id → 6 ≤ q.before % 16 →
            ∃ r, (t.ctx c).copy j = .running r ∧ r = { q with seen := r.seen, keep := r.keep } ∧ kept q.seen r.seen ∧
              (q.before < o.id → r.keep = q.keep ++ keys) ∧ (o.id < q.before → r.keep = q.keep))) ∧
  (∀ (s : State) (c : CtxId) (k : Nat) (o : MemOp) (dst : LoadTo)
      (l : List (Nat × Nat)),
    s.opAt c k = some o → o.act = .load dst → s.mayPerform c o = true →
    s.locate c.core .read o.frags = .ok l → (∀ p ∈ l, s.refusedBy c.core p.2 = false) →
    (∀ p ∈ l, s.poisoned p.2 = false) → s.flaws = [] →
      let was (a : Nat) : Byte := ((o.seen.find? (fun b => b.1 == a)).map Prod.snd).getD (s.byte a)
      let v := (l.map (fun p => (was p.2).toNat * 256 ^ p.1)).sum
      let r : State := Claim.noted s { o.event c (l.map Prod.snd) with slice := Claim.sliceOf (s.ctx c), tick := s.tick }
      (dst = .flight → exec (.memoryAccessPerform c k .none) s = .next (r.updCtx c (fun x =>
        { x with
          ops := x.ops.filter (fun p => p.id != o.id)
          flight := x.flight.map (fun f => if f.src = some o.id then { f with val := BitVec.ofNat 1024 v, src := none } else f) }))) ∧
      (∀ d, dst = .sreg d → exec (.memoryAccessPerform c k .none) s = .next (r.updCtx c (fun x =>
        { x with ops := x.ops.map (fun p => if p.id = o.id then { p with performed := true, val := v } else p) }))) ∧
      (dst ≠ .flight → ∃ t, exec (.memoryAccessPerform c k .none) s = .next t ∧ (∀ a, t.byte a = s.byte a) ∧
        ((t.ctx c).findOp o.id).map (fun p => (p.performed, p.val)) = some (true, v)))

/-- AMO and RED at the home of their location (R167, R175 to R178, Table 7.3): old is read (of a byte that the other copy slot
of the bundle has changed, what stood there before), m′ is written to the same bytes and to no other, and old waits for the
response with the flags of an FADD, which raises them by the sum rounded under RNE (R176); a RED.FADD that raises any writes a
record of kind 0x03 to the core's SQ (R140, R177). The old value, the operand and the compare value are read at the width. Host memory takes ADD, SWP and CAS of 32 and 64
bits (R178). An AMO that does not translate, whose host memory does not support it, or that finds poison (R259) is a late fault. -/
def Obligations.AtomicPerforms : Prop := ∀ (s : State) (c : CtxId) (k : Nat) (o : MemOp) (op : Rmw) (d m : DWord)
    (r : Option (BitVec 6)),
  s.opAt c k = some o → o.act = .rmw op d m r → s.mayPerform c o = true →
  let supported (l : List (Nat × Nat)) : Prop := ∀ p ∈ l, 2 ^ 57 ≤ p.2 → p.2 < 2 ^ 58 →
    (op = .add ∨ op = .swp ∨ op = .cas) ∧ (o.width = 4 ∨ o.width = 8)
  let fails (x : BitVec 8) (detail : BitVec 128) : Prop :=
    exec (.atomicAtHome c k) s = .next ((s.writeFirst c o).updCtx c (fun y => { y with
      ops := y.ops.filter (fun p => p.id != o.id)
      flight := y.flight.filter (fun f => f.src != some o.id)
      late := y.late ++ [⟨o.seq, o.slot, o.held, o.pc, x, detail, some (.mem o)⟩] }))
  (∀ l, s.locate c.core o.access o.frags = .ok l → (∀ p ∈ l, s.refusedBy c.core p.2 = false) → s.flaws = [] →
    (supported l → (∀ p ∈ l, s.poisoned p.2 = false) → (l.map Prod.snd).Nodup →
      let w := 8 * o.width
      let was (a : Nat) : Byte := ((o.seen.find? (fun b => b.1 == a)).map Prod.snd).getD (s.byte a)
      let old := (l.map (fun p => (was p.2).toNat * 256 ^ p.1)).sum
      let dw := d.toNat % 2 ^ w
      let signed (x : Nat) : Int := toIntW true w x
      let new : Nat := match op with
        | .add => (old + dw) % 2 ^ w
        | .fadd => ((if w = 32 then Fmt.f32 else Fmt.f64).add .rne
            ((if w = 32 then Fmt.f32 else Fmt.f64).value old) ((if w = 32 then Fmt.f32 else Fmt.f64).value dw)).1
        | .min => if signed dw < signed old then dw else old
        | .max => if signed old < signed dw then dw else old
        | .minu => min old dw
        | .maxu => max old dw
        | .and => old &&& dw
        | .or => old ||| dw
        | .xor => old ^^^ dw
        | .swp => dw
        | .cas => if old = m.toNat % 2 ^ w then dw else old
      let fl : Flags := if op = .fadd then ((if w = 32 then Fmt.f32 else Fmt.f64).add .rne
        ((if w = 32 then Fmt.f32 else Fmt.f64).value old) ((if w = 32 then Fmt.f32 else Fmt.f64).value dw)).2 else 0
      let sq := (s.core c.core).sq
      let reported : Prop := r = none ∧ fl ≠ 0
      let record : BitVec 128 := BitVec.ofNat 128
        ((if c.one then 2 ^ 127 else 0) + fl.toNat * 2 ^ 64 + 3 * 2 ^ 56 + o.pc.toNat % 2 ^ 56)
      ∃ t, exec (.atomicAtHome c k) s = .next t ∧
        (∀ a, a ∉ l.map Prod.snd → t.byte a = s.byte a) ∧ (∀ p ∈ l, t.byte p.2 = byteAt new p.1) ∧
        ((t.ctx c).findOp o.id).map (fun p => (p.performed, p.val, p.flags)) = some (true, old, fl) ∧
        (¬ reported → (t.core c.core).sq = sq ∧ (t.core c.core).sqOvf = (s.core c.core).sqOvf) ∧
        (reported → sq.length < 256 → (t.core c.core).sq = sq ++ [record] ∧ (t.core c.core).sqOvf = (s.core c.core).sqOvf) ∧
        (reported → 256 ≤ sq.length → (t.core c.core).sq = sq.drop 1 ++ [record] ∧
          (t.core c.core).sqOvf = Claim.sat (s.core c.core).sqOvf)) ∧
    (r ≠ none → ¬ supported l → fails 0x0D (progress o.addr.toNat 7 0 false o.opc 0 0)) ∧
    (r ≠ none → supported l → (∃ p ∈ l, s.poisoned p.2 = true) → fails 0x1A (o.addr.setWidth 128))) ∧
  (∀ x va, r ≠ none → s.locate c.core o.access o.frags = .error (x, va) →
    fails (if x = 7 then 0x0D else 0x0C) (progress va x 0 false o.opc 0 0))

/-- Responses (R129, R174 to R176): an AMO's old value lands in its register with its flags but DZ in FPSW.AMO, the value of an
LD.S that is not of the own slab lands in its register, a posted operation that has performed is acknowledged; each ends
its operation, and a result that lands counts among what a commit signature covers (R348).

A posted operation whose address does not translate is recorded against its class, with its progress record (R183,
Table 13.5), and ends; memory is unchanged, and so is all else (but for what the other copy slot has read first, R167). So is a
RED that its host memory does not support, or that finds poison (R178, R259); poison, of a page-table entry too, counts in a plumb
graph (R341). (Which events count there is the model's reading, log 34; VA and DIR of a RED at a slab address its choice, log 71.) -/
def Obligations.Responses : Prop :=
  (∀ (s : State) (c : CtxId) (k : Nat) (o : MemOp),
    let lands (x : Ctx) (r : BitVec 6) : Ctx :=
      ((x.dropOp o.id).store (.s r) (BitVec.ofNat 1024 o.val) 1).commit (.result (.s r) (BitVec.ofNat 1024 o.val))
    s.opAt c k = some o → o.performed = true →
      (∀ op d m r, o.act = .rmw op d m (some r) → (s.ctx c).request ≠ .stopped →
        exec (.amoResponse c k) s = .next (s.updCtx c (fun x =>
          let f := o.flags &&& ~~~(2#5)
          { lands x r with did := (lands x r).did ++ [.fpsw f], fpsw := (lands x r).fpsw ||| (f.setWidth 32 <<< 8) }))) ∧
      (∀ r, o.act = .load (.sreg r) → (s.ctx c).request ≠ .stopped →
        exec (.interlockedLdSLanding c k) s = .next (s.updCtx c (fun x => lands x r))) ∧
      (o.posted = true → o.isTile = false →
        exec (.postedAcknowledge c k) s = .next (s.updCtx c (fun x => { x with ops := x.ops.filter (fun p => p.id != o.id) })))) ∧
  (∀ (s : State) (c : CtxId) (k data : Nat) (o : MemOp) (op : Rmw) (d m : DWord),
    let plumb : Bool := match (s.ctx c).slice with
      | some x => (match s.graphs.find x.graph with | some g => g.plumb | none => false)
      | none => false
    let fails (x : BitVec 4) (va : Nat) : State := { (s.writeFirst c o).updCtx c (fun y =>
      { y with ops := y.ops.filter (fun p => p.id != o.id), failed := y.failed ++ [(o.oc, progress va x 0 true o.opc 0 0)] }) with
        mgmt := { s.mgmt with plumbbrk := if plumb ∧ x = 8 then Claim.sat s.mgmt.plumbbrk else s.mgmt.plumbbrk } }
    s.opAt c k = some o → s.mayPerform c o = true →
      (∀ x va, o.act = .store data → s.locate c.core .write o.frags = .error (x, va) →
        exec (.postedOperationFailure c k) s = .next (fails x va)) ∧
      (o.act = .rmw op d m none →
        (∀ x va, s.locate c.core .red o.frags = .error (x, va) → exec (.postedOperationFailure c k) s = .next (fails x va)) ∧
        (∀ l, s.locate c.core .red o.frags = .ok l → (∀ p ∈ l, s.refusedBy c.core p.2 = false) → s.flaws = [] →
          let supported : Prop := ∀ p ∈ l, 2 ^ 57 ≤ p.2 → p.2 < 2 ^ 58 →
            (op = .add ∨ op = .swp ∨ op = .cas) ∧ (o.width = 4 ∨ o.width = 8)
          (¬ supported → exec (.postedOperationFailure c k) s = .next (fails 7 o.addr.toNat)) ∧
          (supported → (∃ p ∈ l, s.poisoned p.2 = true) → exec (.postedOperationFailure c k) s = .next (fails 8 o.addr.toNat)))))

/-! ### The B slot -/

/-- Branches, jumps, calls and returns (R125, R67, R128): the PC goes to the header plus 4 × OFF, to sa or to s63; CALL
writes the address after its bundle to s63; a taken transfer ends every hold and an active loop. That LOOPST keeps its other
fields, and nothing else changes, is the model's choice (log 24). -/
def Obligations.Branches : Prop := ∀ (u : Grd) (o : BitVec 20) (r : BitVec 6),
  let go (s : State) (a : DWord) : State :=
    s.upd (fun k => { k with npc := a, held := [], loop := { k.loop with depth := 0 }, edge := none })
  Claim.Runs (.br u o) (fun s => go s (s.here.pc + BitVec.ofInt 64 (4 * o.toInt))) ∧
  Claim.Runs (.jmp u r) (fun s => go s (s.readS r)) ∧
  Claim.Runs (.ret u) (fun s => go s (s.readS 63)) ∧
  ∀ s, Claim.Issues (.call u o) s →
    let t := Claim.issuing (.call u o) s
    (∀ x ∈ t.here.ops, x.interlocks ≠ some 63) →
      exec (.call u o) s = .next (go (t.putS 1 63 t.here.npc 0) (t.here.pc + BitVec.ofInt 64 (4 * o.toInt)))

/-- LOOP (R126, R127): LOOPST takes the nest over the following LEN + 1 bundles, or, where a count is 0, control skips the
body: the PC goes past the LEN + 1 bundles that stand there, as far as they can be fetched, in one step, which is the model's
choice (log 24). A LOOP that a kernel runs outside a handler after an earlier one has ended opens a pass of the next
iteration, with its indices (R16, R17), as the model reads it (log 30).

The back-edge (R127): dimension 0 is innermost; the first dimension whose index can still rise advances, those below it
return to 0, its target register takes target + stride, and control returns to the body; when none can, the loop ends. That
the registers are read with the last body bundle, and that the end changes DEPTH alone, are the model's choices (log 24). The
back-edge of a kernel's outermost dimension ends a pass: the iteration counts and the loop indices of the next one go to x0
to x5 (R16, R17); where a kernel's loop ends, its last iteration counts and no pass is open. A loop of a trap handler counts
none, and what a pass is where no loop is active is the model's reading (log 30). -/
def Obligations.Loops : Prop :=
  (∀ (u : Grd) (l : BitVec 5) (d : BitVec 3) (a : BitVec 6) (s : State),
    Claim.Issues (.loop u l d a) s →
      let t := Claim.issuing (.loop u l d a) s
      let count (j : Nat) : Nat := (t.readS (a + BitVec.ofNat 6 (2 * j))).toNat % 2 ^ 28
      ((∀ j ≤ d.toNat, count j ≠ 0) →
        (∀ sl, t.here.slice = some sl → sl.phase = .kernel → sl.passOpen = true ∨ t.here.trap ≠ none) →
        exec (.loop u l d a) s = .next (t.upd (fun k => { k with loop := ⟨d.toNat + 1, l, 0, a, k.npc, []⟩ }))) ∧
      (∀ sl n, (∀ j ≤ d.toNat, count j ≠ 0) → t.here.slice = some sl → sl.phase = .kernel → sl.passOpen = false →
        t.here.trap = none → t.nodeOf sl.graph sl.node = some n → ∃ r, exec (.loop u l d a) s = .next r ∧
          r.here.loop = ⟨d.toNat + 1, l, 0, a, t.here.npc, []⟩ ∧ r.here.slice = some { sl with passOpen := true } ∧
          ∀ e < 6, ∃ f ∈ r.here.flight, f.dest = .x (BitVec.ofNat 4 e) ∧
            f.val = (n.index (some (sl.first + sl.iter)) e).setWidth 1024) ∧
      ((∃ j ≤ d.toNat, count j = 0) → exec (.loop u l d a) s =
        .next (t.upd (fun k => { k with npc := t.skipBundles t.cur.core (l.toNat + 1) t.here.npc }))) ∧
      (∀ n pc, t.skipBundles t.cur.core 0 pc = pc ∧ t.skipBundles t.cur.core (n + 1) pc = (match t.fetchBundle t.cur.core pc with
        | .ok f => t.skipBundles t.cur.core n (pc + BitVec.ofNat 64 f.size)
        | .error _ => pc))) ∧
  ((∀ s : State,
      let l := s.here.loop
      let ctl (d : Nat) : DWord := s.readS (l.grp + BitVec.ofNat 6 (2 * d))
      let more (d : Nat) : Prop := (SMap.get 0 l.idx d).toNat + 1 < (ctl d).toNat % 2 ^ 28
      ((∀ d < l.depth, ¬ more d) → s.edgeOf.dim = none) ∧
      (∀ j < l.depth, more j → (∀ d < j, ¬ more d) → s.edgeOf = ⟨some j, (ctl j).extractLsb' 32 6,
        s.readS ((ctl j).extractLsb' 32 6) + s.readS (l.grp + BitVec.ofNat 6 (2 * j + 1))⟩)) ∧
    (∀ (c : Ctx) (e : Edge), (c.loop.depth = 0 → c.pastBody e = c) ∧
      (c.loop.depth ≠ 0 → c.loop.len.toNat ≤ c.loop.pos → c.pastBody e = { c with edge := some e }) ∧
      (c.loop.depth ≠ 0 → c.loop.pos < c.loop.len.toNat →
        c.pastBody e = { c with loop := { c.loop with pos := c.loop.pos + 1 } })) ∧
    ∀ (s : State) (c : CtxId),
      let k := s.ctx c
      let l := k.loop
      (k.edge = none ∨ s.boot ≠ .running → exec (.loopBackEdge c) s = .next s) ∧
      (s.boot = .running →
      (∀ e, k.edge = some e → e.dim = none → k.inKernel = false →
        exec (.loopBackEdge c) s = .next (s.updCtx c (fun k => { k with loop := { l with depth := 0 }, edge := none }))) ∧
      (∀ e sl, k.edge = some e → e.dim = none → k.slice = some sl → sl.phase = .kernel → k.trap = none → k.request = .none →
        exec (.loopBackEdge c) s = .next (s.updCtx c (fun k => { k with
          loop := { l with depth := 0 }, edge := none
          slice := some { sl with iter := if sl.passOpen then sl.iter + 1 else sl.iter, passOpen := false } }))) ∧
      (∀ e j, k.edge = some e → e.dim = some j → k.request = .none →
        ∃ t, exec (.loopBackEdge c) s = .next t ∧ (t.ctx c).pc = l.body ∧ (t.ctx c).npc = l.body ∧ (t.ctx c).edge = none ∧
          (t.ctx c).loop.pos = 0 ∧ (t.ctx c).loop.depth = l.depth ∧
          SMap.get 0 (t.ctx c).loop.idx j = BitVec.ofNat 28 ((SMap.get 0 l.idx j).toNat + 1) ∧
          (∀ d < j, SMap.get 0 (t.ctx c).loop.idx d = 0) ∧
          (∀ d, j < d → SMap.get 0 (t.ctx c).loop.idx d = SMap.get 0 l.idx d) ∧
          (∀ a, t.byte a = s.byte a) ∧
          (e.target ≠ 0 → ∃ f ∈ (t.ctx c).flight, f.dest = .s e.target ∧ f.val = e.value.setWidth 1024) ∧
          (k.trap ≠ none → (t.ctx c).slice = k.slice) ∧
          (∀ sl n, k.slice = some sl → sl.phase = .kernel → k.trap = none → j + 1 = l.depth →
            s.nodeOf sl.graph sl.node = some n →
            let iter := if sl.passOpen then sl.iter + 1 else sl.iter
            (t.ctx c).slice = some { sl with iter := iter, passOpen := true } ∧
            ∀ d < 6, ∃ f ∈ (t.ctx c).flight, f.dest = .x (BitVec.ofNat 4 d) ∧
              f.val = (n.index (some (sl.first + iter)) d).setWidth 1024))))

/-- Containment regions (R134): CTN.OPEN stores the handler in H(DEPTH) and raises DEPTH; CTN.CLOSE lowers it. At DEPTH 4,
and at DEPTH 0, they raise the illegal-operand trap and change nothing else. Outside a bundle, where the device runs, they complete
wherever they are not guarded off and DEPTH allows them: no scoreboard condition holds them (R87).

The B slot at issue (R82): an address with bits 63 to 56, or not a multiple of 4 (JMP, RET: R125), 64 (GLAUNCH: R135) or 128
(BEAD: R136), is the address fault; LOOP while one is active, or of a control word with reserved bits (R126, R128), BAR without the
own bit (R130), ERET outside a trap or at another DEPTH (R303), CTN.OPEN at DEPTH 4 and CTN.CLOSE at 0 (R134), YIELD in the epilogue,
in a loop or a region (R137), and NDONE elsewhere than in the epilogue, in a loop or a region (R138), are illegal operands. WAIT of a
failed copy, or of a failed posted operation of its classes, reports the first one's progress record (R183); NDONE faults on the first
queue that is not empty, then reports what WAIT would. The others have no fault at issue. -/
def Obligations.ContainmentRegions : Prop :=
  (∀ (u : Grd) (o : BitVec 20) (s : State),
    (Claim.Issues (.ctnOpen u o) s →
      let t := Claim.issuing (.ctnOpen u o) s
      exec (.ctnOpen u o) s = .next (t.upd (fun k => { k with
        hand := SMap.setD 0 k.hand k.depth.toNat (BitVec.ofNat 64 ((k.pc + BitVec.ofInt 64 (4 * o.toInt)).toNat % 2 ^ 56))
        depth := k.depth + 1 }))) ∧
    (Claim.Issues (.ctnClose u) s →
      exec (.ctnClose u) s = .next ((Claim.issuing (.ctnClose u) s).upd (fun k => { k with
        depth := k.depth - 1
        trap := k.trap.map (fun t => { t with floor := if k.depth - 1 < t.floor then k.depth - 1 else t.floor }) }))) ∧
    (let r : State := { s with slot := 0, heldNow := false }
     s.granted = false → s.boot = .running →
      (r.guardedOff .b (wordOf (.ctnOpen u o)) = false → s.here.depth ≠ 4 → ∃ t, exec (.ctnOpen u o) s = .next t ∧
        t.here.depth = s.here.depth + 1 ∧ SMap.get 0 t.here.hand s.here.depth.toNat =
          BitVec.ofNat 64 ((s.here.pc + BitVec.ofInt 64 (4 * o.toInt)).toNat % 2 ^ 56) ∧ ∀ a, t.byte a = s.byte a) ∧
      (r.guardedOff .b (wordOf (.ctnClose u)) = false → s.here.depth ≠ 0 → ∃ t, exec (.ctnClose u) s = .next t ∧
        t.here.depth = s.here.depth - 1 ∧ t.here.hand = s.here.hand ∧ ∀ a, t.byte a = s.byte a)) ∧
    (∀ i ∈ [Instr.ctnOpen u o, .ctnClose u], s.granted = false → s.boot = .running →
      (i = .ctnOpen u o → s.here.depth = 4) → (i = .ctnClose u → s.here.depth = 0) →
      let r : State := { s with slot := 0, heldNow := false }
      r.guardedOff .b (wordOf i) = false → slotReady .b (wordOf i) i r = true →
        exec i s = .next (((Claim.issuing i s).upd (fun k => { k with named := namedBy i })).raise s.cur 0 false 0x03
          ((wordOf i).setWidth 128) 0))) ∧
  (∀ (s : State) (w : Word) (u : Grd) (r t : BitVec 6) (o : BitVec 20) (l : BitVec 5)
      (d sc : BitVec 3) (k : BitVec 2) (m : BitVec 16) (b : BitVec 4) (z : BitVec 8),
    let h := s.here
    let ill : Option FaultDetail := some (0x03, w.setWidth 128)
    let only (p : Prop) (i : Instr) (x : Option FaultDetail) : Prop :=
      (p → issueFault .b w i s = x) ∧ (¬ p → issueFault .b w i s = none)
    let at_ (a : DWord) (n : Nat) : Prop := 2 ^ 56 ≤ a.toNat ∨ a.toNat % n ≠ 0
    let ctl (j : Nat) : Nat := (s.readS (r + BitVec.ofNat 6 (2 * j))).toNat
    let epilogue : Prop := ∃ x, h.slice = some x ∧ x.phase = .epilogue
    let faulted (y : BitVec 16) (x : BitVec 128) : Prop := ∃ j < 16, y.getLsbD j = true ∧ h.copy j = .faulted x ∧
      ∀ n < j, y.getLsbD n = true → ∀ v, h.copy n ≠ .faulted v
    let posted (y : BitVec 16) (x : BitVec 128) : Prop := ∃ p c q, h.failed = p ++ (c, x) :: q ∧ y.getLsbD c.toNat = true ∧
      ∀ v ∈ p, y.getLsbD v.1.toNat = false
    let reports (i : Instr) (p : BitVec 128 → Prop) (else_ : Prop) : Prop :=
      (∀ x, p x → issueFault .b w i s = some (0x0C, x)) ∧ ((∀ x, ¬ p x) → else_)
    only (at_ (s.readS r) 4) (.jmp u r) (some (0x05, 0)) ∧ only (at_ (s.readS 63) 4) (.ret u) (some (0x05, 0)) ∧
    only (at_ (s.readS r) 64) (.glaunch u r) (some (0x05, 0)) ∧ only (at_ (s.readS r) 128) (.bead u r t) (some (0x05, 0)) ∧
    only (h.loop.depth ≠ 0 ∨ ∃ j ≤ d.toNat, ctl j / 2 ^ 28 % 16 ≠ 0 ∨ ctl j / 2 ^ 38 ≠ 0) (.loop u l d r) ill ∧
    only (z.getLsbD (s.cur.core % 8) = false) (.bar u b z) ill ∧
    only (∀ x, h.trap = some x → x.depth ≠ h.depth) (.eret u) ill ∧
    only (h.depth = 4) (.ctnOpen u o) ill ∧ only (h.depth = 0) (.ctnClose u) ill ∧
    only (epilogue ∨ h.loop.depth ≠ 0 ∨ h.depth ≠ 0) (.yield u) ill ∧
    reports (.wait u 0 m) (faulted m) (issueFault .b w (.wait u 0 m) s = none) ∧
    reports (.wait u 2 m) (posted m) (issueFault .b w (.wait u 2 m) s = none) ∧
    (k ≠ 0 → k ≠ 2 → issueFault .b w (.wait u k m) s = none) ∧
    (let early : Prop := ¬ epilogue ∨ h.loop.depth ≠ 0 ∨ h.depth ≠ 0
     (early → issueFault .b w (.ndone u) s = ill) ∧
     (¬ early →
      (∀ q < 4, SMap.get [] h.q q ≠ [] → (∀ j < q, SMap.get [] h.q j = []) →
        issueFault .b w (.ndone u) s = some (0x08, BitVec.ofNat 128 q)) ∧
      ((∀ q < 4, SMap.get [] h.q q = []) → reports (.ndone u) (faulted (BitVec.allOnes 16))
        (reports (.ndone u) (posted (BitVec.allOnes 16)) (issueFault .b w (.ndone u) s = none))))) ∧
    ∀ i ∈ [Instr.br u o, .call u o, .fence u sc m, .trap u m, .setpri u k, .halt u, .sqrd u r], issueFault .b w i s = none)

/-- SETPRI sets PRI.OWN, and nothing else (R133).

Waits, fences, messages and the statistics queue (R129, R131, R135, R136, R140): a WAIT that issues has no further
effect, what it waits for having come; a FENCE of a nonempty mask joins the operations on their way; GLAUNCH and BEAD
join the messages to Keystone behind what the context issued before, which a message leaves its context after (log 48); SQRD removes
the oldest record into a pair. The log of a step, which notes a WAIT of kind copy in no class, is the model's own (log 50). -/
def Obligations.WaitsAndMessages : Prop :=
  (∀ (u : Grd) (n : BitVec 2),
    Claim.Runs (.setpri u n) (fun s => s.upd (fun k => { k with own := n }))) ∧
  (∀ (u : Grd) (k : BitVec 2) (m : BitVec 16) (sc : BitVec 3) (r q : BitVec 6),
    Claim.Runs (.wait u k m) (fun s => if k = 0 then Claim.noted s ⟨.ctx s.cur, s.freshId, .waited m, false, 0, [], none, none,
      Claim.sliceOf s.here, false, [], false, s.tick⟩ else s) ∧
    Claim.Runs (.fence u sc m) (fun s => if m = 0 then s else s.memOp 0 0 sc 0 0 0 [] (.fence m sc)) ∧
    (∀ s sp, Claim.Issues (.glaunch u r) s →
      let t := Claim.issuing (.glaunch u r) s
      t.spaceOf t.cur.core = some sp →
      exec (.glaunch u r) s = .next { t with ksq := t.ksq ++ [.launch (some ⟨t.cur, t.freshId, false⟩) sp (t.readS r)] }) ∧
    (∀ s sp, Claim.Issues (.bead u r q) s →
      let t := Claim.issuing (.bead u r q) s
      t.spaceOf t.cur.core = some sp →
      exec (.bead u r q) s = .next { t with ksq := t.ksq ++ [.bead (some ⟨t.cur, t.freshId, false⟩) sp (t.readS r) q.toNat] }) ∧
    (∀ s, Claim.Issues (.sqrd u r) s →
      let t := Claim.issuing (.sqrd u r) s
      (∀ x ∈ t.here.ops, x.interlocks = none) →
      exec (.sqrd u r) s = .next (((t.updCore t.cur.core (fun k => { k with sq := k.sq.drop 1 })).putS 2 r
        ((t.myCore.sq.headD 0).setWidth 64) 0).putS 2 (r + 1) (BitVec.ofNat 64 ((t.myCore.sq.headD 0).toNat / 2 ^ 64)) 0)))

/-- BAR (R130): an arrival binds an idle barrier to the node and the mask, joins one that is bound to both, and completes
it when the mask has arrived, which frees it and releases every participant that waits there; the only participant completes
it at once; a different node or mask, or a second arrival, is a mismatch. Whether an arrival waits at its BAR bundle is the
model's own note (log 42).

A BAR whose barrier has completed goes on, and its context has arrived there no more (R130); one that has not arrived
yet, and whose earlier operations have performed, arrives, and waits where its barrier has not completed. One that mismatches
raises the barrier mismatch, with the barrier as DETAIL, and nothing arrives. That an arrival waits for what was issued
before is the model's reading (log 42). -/
def Obligations.Barriers : Prop :=
  (∀ (s : State) (c : CtxId) (b : BitVec 4) (mask : BitVec 8) (sl : Slice),
    (s.ctx c).slice = some sl →
      let n := courseOf c.core
      let bit : BitVec 8 := 1#8 <<< (c.core % 8)
      let bar := SMap.get none (s.course n).barriers b.toNat
      let after (t : State) : Option Barrier := SMap.get none (t.course n).barriers b.toNat
      let here (t : State) (passed : Bool) : Prop := (t.ctx c).arrived.find b.toNat = some ⟨(s.ctx c).pc, true, passed⟩
      (bar = none → mask ≠ bit → ∃ t, s.arrive c b mask = some t ∧ after t = some ⟨sl.graph, sl.node, mask, bit⟩ ∧
        here t false) ∧
      (bar = none → mask = bit → (s.ctx c).runs sl.graph sl.node = true → ∃ t, s.arrive c b mask = some t ∧ after t = none ∧
        here t true) ∧
      (∀ r, bar = some r → r.graph = sl.graph → r.node = sl.node → r.mask = mask → r.arrived &&& bit = 0 →
        r.arrived ||| bit ≠ mask → ∃ t, s.arrive c b mask = some t ∧
          after t = some { r with arrived := r.arrived ||| bit } ∧ here t false) ∧
      (∀ r, bar = some r → r.graph = sl.graph → r.node = sl.node → r.mask = mask → r.arrived &&& bit = 0 →
        r.arrived ||| bit = mask → mask.getLsbD (c.core % 8) = true → ∃ t, s.arrive c b mask = some t ∧ after t = none ∧
          here t true ∧
          ∀ w ∈ courseCtxs n, w ≠ c → mask.getLsbD (w.core % 8) = true → (s.ctx w).runs sl.graph sl.node = true →
            ∀ a, (s.ctx w).arrived.find b.toNat = some a → a.waits = true →
              (t.ctx w).arrived.find b.toNat = some { a with passed := true }) ∧
      (∀ r, bar = some r → (r.graph ≠ sl.graph ∨ r.node ≠ sl.node ∨ r.mask ≠ mask ∨ r.arrived &&& bit ≠ 0) →
        s.arrive c b mask = none)) ∧
  (∀ (u : Grd) (b : BitVec 4) (m : BitVec 8) (s : State) (a : Arrival),
    Claim.Issues (.bar u b m) s →
      let t := Claim.issuing (.bar u b m) s
      (t.here.arrived.find b.toNat = some a → a.waits = true → a.pc = t.here.pc → a.passed = true →
        exec (.bar u b m) s = .next (t.upd (fun k => { k with arrived := k.arrived.erase b.toNat }))) ∧
      (t.here.arrived.find b.toNat = some a → a.waits = true → a.pc = t.here.pc → a.passed = false →
        exec (.bar u b m) s = .next t) ∧
      (∀ r, t.here.arrived.find b.toNat = none → t.pends t.cur = [] → t.arrive t.cur b m = some r →
        r.here.arrived.find b.toNat = some ⟨r.here.pc, true, false⟩ → exec (.bar u b m) s = .next r) ∧
      (∀ r, t.here.arrived.find b.toNat = none → t.pends t.cur = [] → t.arrive t.cur b m = some r →
        r.here.arrived.find b.toNat = some ⟨r.here.pc, true, true⟩ →
          exec (.bar u b m) s = .next (r.upd (fun k => { k with arrived := k.arrived.erase b.toNat }))) ∧
      (t.here.arrived.find b.toNat = none → t.pends t.cur = [] → t.arrive t.cur b m = none →
        exec (.bar u b m) s = .next (t.raise t.cur 0 false 0x09 (b.setWidth 128) 0)))

/-! ### Exceptions -/

/-- Trap entry (R301): the trap state saves RETPC, DEPTH, the holds, LOOPST, REPCNT, x15 and the IFQ; holds, loop and
repetition end; x15 takes the address of the trap record, and the PC that of the innermost handler. The record stands at
0x17FB80 + 0x40 × context of the own slab, with the cause, the slot, DEPTH, FAULTPC and RETPC where Table 15.2 puts them. -/
def Obligations.TrapEntry : Prop := ∀ (s : State) (c : CtxId) (i : TrapInfo),
  s.boot = .running → (s.ctx c).entering = some i → (s.ctx c).interlocked = false → s.pends c = [] →
  s.poison = [] → i.ifq.length < 256 → (s.ctx c).withheld.length < 256 →
    let k := s.ctx c
    let a := 0x20000000 + c.core * 0x200000 + 0x17FB80 + (if c.one then 0x40 else 0)
    ∃ t, exec (.trapEntry c) s = .next t ∧
      (t.ctx c).trap = some ⟨i.retpc, k.depth, k.depth, k.held, k.loop, k.repcnt, SMap.get 0 k.x 15, i.ifq, k.withheld⟩ ∧
      (t.ctx c).entering = none ∧ (t.ctx c).held = [] ∧ (t.ctx c).loop.depth = 0 ∧ (t.ctx c).repcnt = 0 ∧
      (t.ctx c).pc = SMap.get 0 k.hand (k.depth.toNat - 1) ∧ (t.ctx c).npc = (t.ctx c).pc ∧
      (t.ctx c).stored (.x 15) = BitVec.ofNat 1024 (0x17FB80 + (if c.one then 0x40 else 0)) ∧
      (∀ d, d ≠ .x 15 → (t.ctx c).stored d = k.stored d) ∧ (t.ctx c).depth = k.depth ∧
      (∀ b, b < a ∨ a + 64 ≤ b → t.byte b = s.byte b) ∧
      t.readNat a 1 = 1 ∧ t.readNat (a + 1) 1 = i.cause.toNat ∧
      t.readNat (a + 2) 1 = i.slot % 16 + (if i.held then 0x10 else 0) + (if k.trap.isSome then 0x20 else 0) +
        (if i.multi then 0x80 else 0) ∧
      t.readNat (a + 3) 1 = k.depth.toNat ∧ t.readNat (a + 4) 4 = i.arg.toNat ∧ t.readNat (a + 8) 8 = i.faultpc.toNat ∧
      t.readNat (a + 16) 8 = i.retpc.toNat ∧ t.readNat (a + 24) 16 = i.detail.toNat ∧
      t.readNat (a + 40) 1 = k.withheld.length ∧ t.readNat (a + 41) 1 = i.ifq.length

/-- The outcome of a cause (R296): the node causes fault the node; UE and POISON unwind to the innermost region, outside
any they fault the node, in a handler they unwind only to a region opened in it; every other cause traps where a region is
open and no trap is being handled, else it faults the node. The floor of a trap is the least depth since its entry, so that
regions above it are the handler's own.

TRAP (R132, R296, R301): in a region, with nothing on its way, the software trap is taken after its bundle: cause
0x0A, the code as ARG, RETPC the bundle after it; the trap state is saved and control is at the handler.

HALT (R139, R296, R306): the slice stops, Keystone is told that its node has faulted, and the trap record of the
context, and no other byte of memory, is written: kind 3, cause 0x20, the address of the HALT bundle as FAULTPC (Table
15.2).

A late fault (R299, R301): a fault that is known against an issued bundle, alone, in a region and outside a handler, is
taken before the next bundle: both contexts stop while the IFQ is filled, and the trap is entered with the fault's bundle
as FAULTPC and the next bundle as RETPC. That the filling takes a free number of cycles up to 40 is the model's choice
(log 59). The step between a fault that is known and its entry is the model's (log 1). -/
def Obligations.CausesTaken : Prop :=
  (∀ (c : Ctx) (x : BitVec 8),
    (x ∈ [0x20#8, 0x21#8, 0x22#8, 0x23#8] → c.taking x = .nodeFault) ∧
    (x ∈ [0x19#8, 0x1A#8] → c.trap = none → c.depth = 0 → c.taking x = .nodeFault) ∧
    (x ∈ [0x19#8, 0x1A#8] → c.trap = none → c.depth ≠ 0 → c.taking x = .unwind) ∧
    (x ∈ [0x19#8, 0x1A#8] → ∀ t, c.trap = some t → c.taking x = if t.floor < c.depth then .unwind else .nodeFault) ∧
    (x ∉ [0x20#8, 0x21#8, 0x22#8, 0x23#8, 0x19#8, 0x1A#8] →
      c.taking x = if c.depth ≠ 0 ∧ c.trap = none then .trap else .nodeFault)) ∧
  (∀ (u : Grd) (c : BitVec 16) (s : State),
    Claim.Issues (.trap u c) s →
      let t := Claim.issuing (.trap u c) s
      let k := t.here
      let a := 0x20000000 + t.cur.core * 0x200000 + 0x17FB80 + (if t.cur.one then 0x40 else 0)
      t.boot = .running → k.edge = none → k.ops = [] → k.flight = [] → k.late = [] → k.ifq = [] → k.trap = none →
      k.depth ≠ 0 →
        ∃ n, exec (.trap u c) s = .next n ∧
          exec (.trapEntry t.cur) (t.upd (fun k => { k with
            entering := some ⟨k.seq, 0x0A, t.slot, false, false, c.setWidth 32, k.pc, k.npc, 0, []⟩ })) = .next n ∧
          n.here.trap = some ⟨k.npc, k.depth, k.depth, k.held, k.loop, k.repcnt, SMap.get 0 k.x 15, [], k.withheld⟩ ∧
          n.here.pc = SMap.get 0 k.hand (k.depth.toNat - 1) ∧ n.here.npc = n.here.pc ∧ n.here.held = [] ∧
          n.here.loop.depth = 0 ∧ n.here.repcnt = 0 ∧ n.here.depth = k.depth ∧
          n.here.stored (.x 15) = BitVec.ofNat 1024 (0x17FB80 + (if t.cur.one then 0x40 else 0)) ∧
          (∀ d, d ≠ .x 15 → n.here.stored d = k.stored d) ∧
          (t.pends t.cur = [] → t.poison = [] → (∀ b, b < a ∨ a + 64 ≤ b → n.byte b = t.byte b) ∧
            n.readNat a 1 = 1 ∧ n.readNat (a + 1) 1 = 0x0A ∧ n.readNat (a + 4) 4 = c.toNat ∧
            n.readNat (a + 8) 8 = k.pc.toNat ∧ n.readNat (a + 16) 8 = k.npc.toNat)) ∧
  (∀ (u : Grd) (s : State),
    Claim.Issues (.halt u) s →
      let t := Claim.issuing (.halt u) s
      let a := 0x20000000 + t.cur.core * 0x200000 + 0x17FB80 + (if t.cur.one then 0x40 else 0)
      ∀ sl, t.here.slice = some sl → t.here.edge = none → t.here.late = [] → t.here.ops = [] →
        ∃ n, exec (.halt u) s = .next n ∧
          (t.pends t.cur = [] → n.ksq = t.ksq ++ [.fault sl.graph sl.node sl.attempt t.cur.core 0x20 t.here.pc]) ∧
          n.here.request = .stopped ∧ n.here.flight = [] ∧ n.here.ifq = [] ∧ n.here.trap = none ∧ n.here.held = [] ∧
          n.here.slice = some sl ∧ n.here.pc = t.here.pc ∧ (∀ d, n.here.stored d = t.here.stored d) ∧
          (t.pends t.cur = [] → t.poison = [] → (∀ b, b < a ∨ a + 64 ≤ b → n.byte b = t.byte b) ∧
            n.readNat a 1 = 3 ∧ n.readNat (a + 1) 1 = 0x20 ∧ n.readNat (a + 4) 4 = 0 ∧
            n.readNat (a + 8) 8 = t.here.pc.toNat ∧ n.readNat (a + 16) 8 = 0)) ∧
  (∀ (s : State) (c : CtxId) (f : LateFault),
    s.boot = .running → (s.ctx c).late = [f] → (s.ctx c).slice.isSome = true → (s.ctx c).request ≠ .stopped →
    (s.ctx c).edge = none → (s.ctx c).entering = none → (s.ctx c).ops = [] → (s.ctx c).flight = [] → (s.ctx c).ifq = [] →
    (s.ctx c).trap = none → (s.ctx c).depth ≠ 0 → (s.ctx c).taking f.cause = .trap → s.nextFault c = [] →
    f.seq ≤ (s.ctx c).seq → f.cause ≠ 0x0A →
      let k := s.ctx c
      let stop (n : Nat) (x : Ctx) : Ctx := x.stopUntil (max x.stallUntil ((s.core c.core).cycle + 1 + n))
      ∃ m n, m ≤ 40 ∧ exec (.lateFaultDetection c) s = .next n ∧
        exec (.trapEntry c) ((s.updCore c.core (fun x => { x with ctx0 := stop m x.ctx0, ctx1 := stop m x.ctx1 })).updCtx c
          (fun k => { k with
            late := []
            entering := some ⟨f.seq, f.cause, f.slot, f.held, false, 0, f.pc, k.pc, f.detail, []⟩ })) = .next n ∧
        (n.ctx c).trap = some ⟨k.pc, k.depth, k.depth, k.held, k.loop, k.repcnt, SMap.get 0 k.x 15, [], k.withheld⟩ ∧
        (n.ctx c).pc = SMap.get 0 k.hand (k.depth.toNat - 1) ∧ (n.ctx c).late = [] ∧ (n.ctx c).entering = none ∧
        (∀ d, d ≠ .x 15 → (n.ctx c).stored d = k.stored d) ∧
        (∀ (x : Ctx) (u : Nat), (x.stopUntil u).stallUntil = u ∧ (x.lastIssue ≠ none → x.stopUntil u = { x with stallUntil := u })))

/-- ERET (R303): the trap ends; x15 and the IFQ are restored; the PC goes to the RETPC of the trap record, and the holds,
LOOPST and REPCNT come back where the record's RETPC is the saved one, else they end; the withheld array operations issue
again. A RETPC that reads as poison is a late fault against the ERET (R259), and nothing returns. -/
def Obligations.ReturnFromTrap : Prop := ∀ (u : Grd) (s : State) (r : TrapState),
  Claim.Issues (.eret u) s →
    let t := Claim.issuing (.eret u) s
    t.here.trap = some r →
    let p := t.beforeReturn t.cur
    let a := 0x20000000 + t.cur.core * 0x200000 + 0x17FB80 + (if t.cur.one then 0x40 else 0)
    let pc : DWord := BitVec.ofNat 64 (p.readNat (a + 16) 8)
    let error : Prop := ∃ f ∈ p.flaws, f.1 = (a + 16) / 64 ∧ f.2 = true
    (p.poisoned (a + 16) = true ∨ error → ∃ n, exec (.eret u) s = .next n ∧ n.here = { p.here with
      late := p.here.late ++ [⟨p.here.seq, 0, false, p.here.pc, if p.poisoned (a + 16) then 0x1A else 0x19,
        BitVec.ofNat 128 (0x17FB80 + (if t.cur.one then 0x40 else 0) + 16), none⟩] } ∧ (∀ b, n.byte b = p.byte b)) ∧
    (p.poisoned (a + 16) = false → ¬ error →
    ∃ n, exec (.eret u) s = .next n ∧ n.here.trap = none ∧ n.here.ifq = r.ifq ∧ n.here.npc = pc ∧
      n.here.stored (.x 15) = r.x15.setWidth 1024 ∧ (∀ d, d ≠ .x 15 → n.here.stored d = p.here.stored d) ∧
      (pc = r.retpc → n.here.held = r.held ∧ n.here.loop = r.loop ∧ n.here.repcnt = r.repcnt) ∧
      (pc ≠ r.retpc → n.here.held = [] ∧ n.here.loop.depth = 0 ∧ n.here.repcnt = 0) ∧
      n.here.depth = p.here.depth ∧ (∀ b, n.byte b = p.byte b) ∧
      n.myCore.aq = p.myCore.aq ++ r.withheld.map (fun x => { x with before := p.freshId, seen := none }))

/-- An unwind (R305): the IFQ is filled, the innermost region closes, and its handler is entered outside any trap, with the
record's address in x15. What the IFQ held, and what a trap that was being handled had saved of it, is discarded: those
destinations read as unpredictable values (a free value: log 5) until they are written again, and no other register
changes. Whatever was on its way or being handled, the record (kind 2) is the only memory written. -/
def Obligations.Unwind : Prop := ∀ (s : State) (c : CtxId) (f : LateFault) (multi : Bool),
    let k := s.ctx c
    let q := s.capture c
    let t := s.unwind c f multi
    let a := 0x20000000 + c.core * 0x200000 + 0x17FB80 + (if c.one then 0x40 else 0)
    let base := match k.lastIssue with | some n => n + 1 | none => 0
    (t.ctx c).depth = k.depth - 1 ∧ (t.ctx c).pc = SMap.get 0 k.hand (k.depth.toNat - 1) ∧ (t.ctx c).trap = none ∧
      (t.ctx c).late = [] ∧ (t.ctx c).flight = [] ∧ (t.ctx c).ifq = [] ∧ (t.ctx c).held = [] ∧ (t.ctx c).repcnt = 0 ∧
      (t.ctx c).loop.depth = 0 ∧ (t.ctx c).withheld = [] ∧ (t.ctx c).npc = (t.ctx c).pc ∧
      (t.ctx c).stored (.x 15) = BitVec.ofNat 1024 (0x17FB80 + (if c.one then 0x40 else 0)) ∧
      (∀ d, d ≠ .x 15 → (t.ctx c).stored d = (q.1.ctx c).stored d) ∧
      ((s.ctx c).ops = [] → q.2 = k.ifq ++ (k.flight.filter (fun g => decide (base < g.due))).map (Flight.entry base) ∧
        ((∀ g ∈ k.flight, base < g.due) → ∀ d, (q.1.ctx c).stored d = k.stored d)) ∧
      (∀ e, e ∈ q.2 ∨ (∃ r, k.trap = some r ∧ e ∈ r.ifq) → e.dest ≠ .x 15 → ∀ j < 128, e.lanes.getLsbD j = true →
        (SMap.get 0 (t.ctx c).unpred e.dest.site).getLsbD j = true) ∧
      (s.pends c = [] → s.poison = [] → k.withheld.length < 256 →
        (∀ b, b < a ∨ a + 64 ≤ b → t.byte b = s.byte b) ∧ t.readNat a 1 = 2 ∧ t.readNat (a + 1) 1 = f.cause.toNat ∧
        t.readNat (a + 2) 1 = f.slot % 16 + (if f.held then 0x10 else 0) + (if k.trap.isSome then 0x20 else 0) +
          (if multi then 0x80 else 0) ∧
        t.readNat (a + 3) 1 = k.depth.toNat ∧ t.readNat (a + 8) 8 = f.pc.toNat ∧ t.readNat (a + 16) 8 = 0 ∧
        t.readNat (a + 24) 16 = f.detail.toNat ∧ t.readNat (a + 40) 1 = k.withheld.length ∧ t.readNat (a + 41) 1 = 0)

/-! ### Cycles and phases -/

/-- The cycle of a core (R14, R19, R20, R21): a frozen core counts its freeze and issues nothing; else its clock moves on,
what is due lands, and the merge stage issues the bundles that its contexts offer: both where they pair, else that of the
winner. Two bundles pair (R19, R339) where no slot is in both effective masks, neither has a repeat prefix, no bank is
touched by both, and not both hold a remote load in a plumb course; an effective mask is the header's and the held slots'.
That a cycle of one core is one event of the model is its choice (log 1, log 2).

The effective class of a context (R23) is the least one that is at least its own class and at least the class of every
context that waits at a barrier where it is a participant that has not arrived.

The winner of a collision (R20): the higher effective class; then the earlier last issue cycle; ctx0 where both last
issued in the same cycle, or neither has issued since node entry. -/
def Obligations.CoreCycle : Prop :=
  (∀ (s : State) (n : Nat), s.boot = .running →
    let r := Claim.atCycle s n
    let u := Claim.atMerge r n
    let w := Claim.cycleStart r n
    (∀ one l k, (w.core n).frozen = some (one, l, k) →
      exec (.bundleIssue n) s = .next (w.updCore n (fun x => { x with frozen := some (one, l, k + 1) }))) ∧
    (Claim.frozen r n = false → exec (.bundleIssue n) s = .next (u.merge n)) ∧
    (∀ p x q y, (u.head ⟨n, false⟩).2 = .ready p x → ((u.head ⟨n, false⟩).1.head ⟨n, true⟩).2 = .ready q y →
      let v := ((u.head ⟨n, false⟩).1.head ⟨n, true⟩).1
      u.merge n =
        if v.pairs n p q x y then (v.issueBundle ⟨n, false⟩ p x).issueBundle ⟨n, true⟩ q y
        else if v.oneWins n then v.issueBundle ⟨n, true⟩ q y else v.issueBundle ⟨n, false⟩ p x) ∧
    (∀ p x, (u.head ⟨n, false⟩).2 = .ready p x → ((u.head ⟨n, false⟩).1.head ⟨n, true⟩).2 = .idle →
      u.merge n = ((u.head ⟨n, false⟩).1.head ⟨n, true⟩).1.issueBundle ⟨n, false⟩ p x) ∧
    (∀ q y, (u.head ⟨n, false⟩).2 = .idle → ((u.head ⟨n, false⟩).1.head ⟨n, true⟩).2 = .ready q y →
      u.merge n = ((u.head ⟨n, false⟩).1.head ⟨n, true⟩).1.issueBundle ⟨n, true⟩ q y) ∧
    (∀ (v : State) (c : CtxId) (p : Planned) (j : Nat), j < 8 →
      ((v.effMask c p).getLsbD j = true ↔ p.f.bundle.hdr.mask.getLsbD j = true ∨ ∃ h ∈ (v.ctx c).held, h.1 = j)) ∧
    (∀ (v : State) (p q : Planned) (x y : List SlotOp), v.pairs n p q x y = true ↔
      (∀ j < 8, ¬ ((v.effMask ⟨n, false⟩ p).getLsbD j = true ∧ (v.effMask ⟨n, true⟩ q).getLsbD j = true)) ∧
      p.rep = none ∧ q.rep = none ∧
      (∀ b ∈ v.banksOf ⟨n, false⟩ x, b ∉ v.banksOf ⟨n, true⟩ y) ∧
      ((v.course (n / 8)).plumb = true → ¬ ((∃ o ∈ x, isRemote o = true) ∧ ∃ o ∈ y, isRemote o = true)))) ∧
  (∀ (s : State) (n : Nat),
    let bar (b : Nat) : Option Barrier := SMap.get none (s.course n).barriers b
    let waits (w c : CtxId) : Prop := ∃ b a r, (b, a) ∈ (s.ctx w).arrived ∧ a.waits = true ∧ a.passed = false ∧
      a.pc = (s.ctx w).pc ∧ bar b = some r ∧ r.mask.getLsbD (c.core % 8) = true ∧
      r.arrived.getLsbD (c.core % 8) = false ∧ (s.ctx c).runs r.graph r.node = true
    (∀ c ∈ courseCtxs n, (s.ctx c).own.toNat ≤ s.eff c ∧ ∀ w ∈ courseCtxs n, waits w c → s.eff w ≤ s.eff c) ∧
    ∀ f : CtxId → Nat, (∀ c ∈ courseCtxs n, (s.ctx c).own.toNat ≤ f c ∧ ∀ w ∈ courseCtxs n, waits w c → f w ≤ f c) →
      ∀ c ∈ courseCtxs n, s.eff c ≤ f c) ∧
  (∀ (s : State) (n : Nat),
    let a : CtxId := ⟨n, false⟩
    let b : CtxId := ⟨n, true⟩
    (s.eff b < s.eff a → s.oneWins n = false) ∧ (s.eff a < s.eff b → s.oneWins n = true) ∧
    (s.eff a = s.eff b →
      (∀ x y, (s.ctx a).lastIssue = some x → (s.ctx b).lastIssue = some y → (s.oneWins n = true ↔ y < x)) ∧
      ((s.ctx a).lastIssue = none → (s.ctx b).lastIssue = none → s.oneWins n = false)))

/-- The empty bundle and the repeat prefix over it (R46, R63, R72): where the context at hand may issue, no other condition
stands against it and it holds no words, the PC moves on past the header, and a prefix counts its repetitions in REPCNT.

The look-ahead nullifier (R25, R86): a bundle without a prefix, all of whose slots are guarded off by predicates
written at least two bundles earlier, is dropped: only what is due lands, the bundle counts, its IB is honoured and the PC moves past. -/
def Obligations.EmptyBundles : Prop :=
  (∀ (s : State) (ib : Bool) (adv stride : BitVec 4) (count : BitVec 16),
    let c := s.cur
    let u := Claim.atMerge s c.core
    let k := u.ctx c
    s.boot = .running → Claim.frozen s c.core = false → k.mayIssue (u.core c.core).cycle = true → k.held = [] →
    k.flight = [] → k.ifq = [] → k.loop.depth = 0 → k.lastIssue ≠ none → u.cur = c →
      (∃ t, exec (.nop ib) s = .next t ∧ (t.ctx c).pc = k.pc + 4 ∧ (t.ctx c).lastIb = ib ∧ (t.ctx c).seq = k.seq + 1 ∧
        (∀ d, (t.ctx c).stored d = k.stored d) ∧ (∀ b, t.byte b = u.byte b)) ∧
      (count ≠ 0 → k.repcnt = 0 → ∃ t, exec (.rep adv stride count) s = .next t ∧
        (t.ctx c).pc = (if count = 1 then k.pc + 8 else k.pc) ∧
        (t.ctx c).repcnt = (if count = 1 then 0 else 0x10001) ∧ (t.ctx c).seq = k.seq + 1 ∧
        (∀ d, (t.ctx c).stored d = k.stored d) ∧ (∀ b, t.byte b = u.byte b))) ∧
  (∀ (s : State) (c : CtxId) (f : Fetched) (p : Planned),
    let d := s.landDue c ((s.core c.core).cycle + 1)
    let v := d.nextCycle c
    s.boot = .running → v.here.mayIssue v.cycle = true → s.fetchBundle c.core v.here.pc = .ok f →
    v.here.plan f = .ok p → v.droppable p (v.acting p.ops) = true → (d.ctx c).loop.depth = 0 →
    (d.ctx c).edge = none →
      exec (.lookAheadNullifier c) s = .next ((d.noteFetch c v.here.pc f.size).updCtx c (fun k => { k with
        seq := k.seq + 1, pos := k.pos + 1, lastIb := f.bundle.hdr.ib
        pc := k.pc + BitVec.ofNat 64 f.size, npc := k.pc + BitVec.ofNat 64 f.size })))

/-- A result that lands before its bound has elapsed (R83, R84), and the three writes of control registers that have an event
of their own (R96, R124, R217), which count among what a commit signature covers (R348). That a result may land before its
bound, and when, is left open by the spec: the event that lands it is the model's (log 3).

Landing registers (R14, R160, R173): at its due cycle one whose data has arrived becomes landed; else the core's clock
freezes until the data arrives, which lands it and ends the freeze. The freeze ends with a record in the SQ of the core: kind
0x02, the context and the bundle of the load, the cycles that the freeze took and the landing register (Table 5.10); a full SQ
drops its oldest record and counts it in SQ.OVF. That the record comes at the end of the freeze is the model's reading
(log 29). In a plumb course no freeze occurs: the data of the load has come by its due cycle. -/
def Obligations.EarlyLandings : Prop :=
  (∀ (s : State) (c : CtxId) (k : Nat) (f : Flight),
    (s.ctx c).flight[k]? = some f → f.landed = false → f.src = none →
      let mark (t : State) : State :=
        t.updCtx c (fun x => { x with flight := x.flight.modify k (fun f => { f with landed := true }) })
      ((∀ n w, f.dest ≠ .cr n w) → exec (.resultLanding c k) s = .next (mark (s.updCtx c (fun x => x.land f)))) ∧
      (∀ n w, f.dest = .cr n w → f.live.getLsbD 0 = true →
        let t := mark ((s.writeCr c n w (f.val.setWidth 64)).updCtx c (fun x => { x with did := x.did ++ [.result f.dest f.val] }))
        (n = 0x05 → (s.ctx c).pendingWrc (fun r => r == 0x05) = some k → exec (.wrcSeed c) s = .next t) ∧
        (n = 0x00 → (s.ctx c).pendingWrc (fun r => r == 0x00) = some k → exec (.wrcFpctl c) s = .next t) ∧
        (∀ j : BitVec 3, n = 0x10 + j.setWidth 8 → (s.ctx c).pendingWrc (fun r => r == 0x10#8 + j.setWidth 8) = some k →
          exec (.wrcKsw c j) s = .next t))) ∧
  (∀ (s : State) (c : CtxId) (l : BitVec 3) (op due : Nat) (data : Option Vec)
      (p : Option Nat),
    SMap.get .empty (s.ctx c).l l.toNat = .pending op due data p →
      let core := s.core c.core
      let plumb := (s.course (c.core / 8)).plumb
      let late : Prop := due ≤ core.cycle + 1 ∧ data = none
      (core.cycle + 1 < due → exec (.landingDue c l) s = .next s) ∧
      (due ≤ core.cycle + 1 → ∀ d, data = some d → exec (.landingDue c l) s =
        .next (s.updCtx c (fun k => { k with
          l := SMap.setD .empty k.l l.toNat (.landed d 0 p), did := k.did ++ [.lands (.landing l.toNat) [d.toNat]] }))) ∧
      (late → plumb = false → core.frozen = none → exec (.landingDue c l) s =
        .next (s.updCore c.core (fun k => { k with frozen := some (c.one, l, 0) }))) ∧
      (late → plumb = false → core.frozen ≠ none → exec (.landingDue c l) s = .next s) ∧
      (late → plumb = true → ∀ o, (s.ctx c).findOp op = some o → (∀ x ∈ (s.ctx c).ops, x.id = op → x.performed = true) →
        exec (.landingDue c l) s = .next (s.updCtx c (fun k => { k.dropOp op with
          l := SMap.setD .empty k.l l.toNat (.landed (BitVec.ofNat 1024 o.val) 0 p)
          did := k.did ++ [.lands (.landing l.toNat) [(BitVec.ofNat 1024 o.val).toNat]] }))) ∧
      (∀ o, (s.ctx c).landingOp l = some o → o.id = op → ∃ t, exec (.landingArrival c l) s = .next t ∧
        (core.frozen = none →
          SMap.get .empty (t.ctx c).l l.toNat = .pending op due (some (BitVec.ofNat 1024 o.val)) p ∧
          (t.core c.core).sq = core.sq) ∧
        (∀ n, core.frozen = some (c.one, l, n) →
          SMap.get .empty (t.ctx c).l l.toNat = .landed (BitVec.ofNat 1024 o.val) 0 p ∧ (t.core c.core).frozen = none ∧
          ∃ r : BitVec 128, r.extractLsb' 0 56 = o.pc.setWidth 56 ∧ r.extractLsb' 56 8 = 0x02 ∧
            r.extractLsb' 64 32 = BitVec.ofNat 32 n ∧ r.extractLsb' 96 31 = l.setWidth 31 ∧ r.getLsbD 127 = c.one ∧
            (core.sq.length < 256 → (t.core c.core).sq = core.sq ++ [r] ∧ (t.core c.core).sqOvf = core.sqOvf) ∧
            (256 ≤ core.sq.length → (t.core c.core).sq = core.sq.drop 1 ++ [r] ∧
              (t.core c.core).sqOvf = Claim.sat core.sqOvf)) ∧
        (∀ a, t.byte a = s.byte a)))

/-- What a read returns (R66, R83, R84, R300, R305): a part of a register that a result on its way writes, or an entry that
the IFQ holds, or that an unwind has left, reads as an unpredictable value (a free value: log 5) until the bound of the result
has passed and it has landed; a result of the reader's own bundle does not count. That only the parts that a result writes are
hidden so, while every other part reads as it stands, is the model's choice (log 3). A result that issues writes its whole part, but for what later slots of its own bundle write; an earlier result to the same
destination loses that part, whatever lands first. When a cycle begins every result whose bound has passed has landed, but for
one whose load has no value yet. -/
def Obligations.ResultsOnTheirWay : Prop := ∀ (s : State) (d : Dest) (lat : Nat) (v : Vec) (m : Part) (fl : Flags)
    (r : BitVec 5),
  let k := s.here
  let out (f : Flight) (j : Nat) : Prop := f.lanes.getLsbD j = true ∧ (f.landed = false ∨ s.cycle < f.due) ∧
    ¬ (s.granted = true ∧ f.seq = k.seq)
  let held : List IfqEntry := k.ifq ++ (match k.trap with | some t => t.ifq | none => [])
  let hidden (e : Dest) (j : Nat) : Prop := (∃ f ∈ k.flight, f.dest = e ∧ out f j) ∨
    (∃ x ∈ held, x.dest = e ∧ x.lanes.getLsbD j = true) ∨ (SMap.get 0 k.unpred e.site).getLsbD j = true
  let free (e : Dest) : Vec := Config.unpredictable s.tick (1024 * s.slot + e.site)
  (∀ j < 128, (¬ hidden (.v r) j → (s.readV r).extractLsb' (8 * j) 8 = (SMap.get 0 k.v r.toNat).extractLsb' (8 * j) 8) ∧
    (hidden (.v r) j → (s.readV r).extractLsb' (8 * j) 8 = (free (.v r)).extractLsb' (8 * j) 8)) ∧
  (∀ q : BitVec 6, q ≠ 0 → (¬ hidden (.s q) 0 → s.readS q = SMap.get 0 k.s q.toNat) ∧
    (hidden (.s q) 0 → s.readS q = (free (.s q)).setWidth 64)) ∧
  (∀ q : BitVec 4, q ≠ 0 → ∀ j < 32, (¬ hidden (.p q) j → (s.readP q).getLsbD j = (SMap.get 0 k.p q.toNat).getLsbD j) ∧
    (hidden (.p q) j → (s.readP q).getLsbD j = (free (.p q)).getLsbD j)) ∧
  (s.readS 0 = 0 ∧ s.readP 0 = BitVec.allOnes 32) ∧
  (let t := s.result lat d v m fl none
   let later (g : Flight) : Prop := g.seq = k.seq ∧ s.slot < g.slot
   (∃ f ∈ t.here.flight, f.dest = d ∧ f.val = v ∧ f.lanes = m ∧ f.due = s.cycle + lat ∧ f.seq = k.seq ∧ f.slot = s.slot ∧
     f.flags = fl ∧ f.landed = false ∧ ∀ j < 128, f.live.getLsbD j = true ↔
       m.getLsbD j = true ∧ ∀ g ∈ k.flight, later g → g.dest = d → g.lanes.getLsbD j = false) ∧
   ∀ g ∈ k.flight, ¬ later g → ∃ f ∈ t.here.flight, f = { g with
     live := if g.dest = d then g.live &&& ~~~m else g.live }) ∧
  (∀ n one, ∀ f ∈ ((s.tickCore n).ctx ⟨n, one⟩).flight,
    f.landed = false → (s.core n).cycle + 1 < f.due ∨ f.src.isSome = true)

/-- YIELD (R16, R137): from the prologue or a kernel pass the next pass follows while iterations remain, then the epilogue;
a pass that is open counts its iteration, and a pass that no loop opened counts none, as the model reads it (log 30). The
holds end; the PC goes to the phase's entry.

NDONE (R138): where nothing that its own bundle issued is on its way, the slice retires; its context is free, and its
node has one slice less that has not. Else the context issues no more, and retires in a later cycle (log 36).

The entry state of a slice (R15, R17, and the column At node entry of Table 1.4): the PC at the prologue; s1 to s6 the
logical index, the number of cores, the first iteration, the count and the addresses of the node and graph records; x0 to
x5 the indices of the first iteration; NODE, NKEY and OWN those of the node; everything else as reset leaves it; SEED, SQ,
DQBASE, DQLIM and the course unchanged. -/
def Obligations.SlicePhases : Prop :=
  (∀ (u : Grd) (s : State) (sl : Slice) (n : Node),
    Claim.Issues (.yield u) s →
      let t := Claim.issuing (.yield u) s
      t.here.slice = some sl → t.nodeOf sl.graph sl.node = some n → t.here.request = .none →
      let iter := if sl.phase = .kernel ∧ sl.passOpen = true then sl.iter + 1 else sl.iter
      ∃ r, exec (.yield u) s = .next r ∧ r.here.held = [] ∧
        r.here.npc = (if iter < sl.count then n.ker else n.epi) ∧
        r.here.slice = some { sl with
          iter := iter, phase := if iter < sl.count then .kernel else .epilogue, passOpen := decide (iter < sl.count) } ∧
        (∀ a, r.byte a = t.byte a) ∧ (∀ d, r.here.stored d = t.here.stored d)) ∧
  (∀ (u : Grd) (s : State) (sl : Slice) (n : Node),
    Claim.Issues (.ndone u) s →
      let t := Claim.issuing (.ndone u) s
      t.here.slice = some sl → t.nodeOf sl.graph sl.node = some n →
      let done := t.settled t.cur && t.here.late.isEmpty && !t.here.pendingLanding
      (done = true → ∃ r, exec (.ndone u) s = .next r ∧ r.here.slice = none ∧ r.here.request = .none ∧
        r.here.held = [] ∧ r.nodeOf sl.graph sl.node = some { n with unretired := n.unretired - 1 } ∧
        (∀ a, r.byte a = t.byte a) ∧ (∀ d, r.here.stored d = t.here.stored d) ∧
        (∀ c, c ≠ t.cur → (r.ctx c) = t.ctx c)) ∧
      (done = false → exec (.ndone u) s = .next (t.upd (fun k => { k with request := .retiring }))) ∧
      (∀ (x : State) (c : CtxId), (x.ctx c).request = .retiring → x.retireDue c = x.retire c ∧
        ∀ y, (x.ctx c).mayIssue y = false)) ∧
  (∀ (s : State) (core : Nat) (c : CtxId) (e : DequeEntry) (gi ni : Nat) (g : Graph)
      (n : Node),
    s.boot = .running → (∀ x ∈ s.cancels, x.todo = none) → s.awake core = true → s.freeOn core = some c → (s.waiting core).head? = some e →
    s.entryNode core e = some (gi, ni) → e.res = false → s.graphs.find gi = some g → s.nodeOf gi ni = some n →
    s.flaws = [] →
      let r := sliceOf n.trip n.cores.length e.lidx
      ∃ t, exec (.sliceStart core) s = .next t ∧
        (t.ctx c).slice = some ⟨gi, ni, n.attempt, e.lidx, r.1, r.2, 0, .prologue, false⟩ ∧
        (t.ctx c).pc = n.pro ∧ (t.ctx c).nkey = n.nkey ∧ (t.ctx c).node = n.id ∧ (t.ctx c).own = n.cls ∧
        (t.ctx c).stored (.s 1) = (BitVec.ofNat 64 e.lidx).setWidth 1024 ∧
        (t.ctx c).stored (.s 2) = (BitVec.ofNat 64 n.cores.length).setWidth 1024 ∧
        (t.ctx c).stored (.s 3) = (BitVec.ofNat 64 r.1).setWidth 1024 ∧
        (t.ctx c).stored (.s 4) = (BitVec.ofNat 64 r.2).setWidth 1024 ∧
        (t.ctx c).stored (.s 5) = n.addr.setWidth 1024 ∧ (t.ctx c).stored (.s 6) = g.addr.setWidth 1024 ∧
        (∀ r : BitVec 6, 6 < r → (t.ctx c).stored (.s r) = 0) ∧ (∀ r, (t.ctx c).stored (.v r) = 0) ∧
        (∀ d < 6, (t.ctx c).stored (.x (BitVec.ofNat 4 d)) =
          (n.index (if r.2 = 0 then none else some r.1) d).setWidth 1024) ∧
        (∀ x : BitVec 4, 6 ≤ x → (t.ctx c).stored (.x x) = 0) ∧ (∀ p : BitVec 4, p ≠ 0 → (t.ctx c).stored (.p p) = 0) ∧
        (∀ e, (t.ctx c).stored (.bn e) = 0) ∧ (∀ k, (t.ctx c).tile k = []) ∧ (∀ q, SMap.get [] (t.ctx c).q q = []) ∧
        (∀ l, SMap.get .empty (t.ctx c).l l = .empty) ∧ (∀ d, (t.ctx c).desc d = 0) ∧ (∀ b, (t.ctx c).book b = ⟨0, 0⟩) ∧
        (t.ctx c).held = [] ∧ (t.ctx c).fpctl = 0 ∧ (t.ctx c).fpsw = 0 ∧ (∀ k, SMap.get 0 (t.ctx c).ksw k = 0) ∧
        (t.ctx c).piv = 0 ∧ (t.ctx c).gf = 0 ∧ (t.ctx c).brk = 0 ∧ (t.ctx c).repcnt = 0 ∧ (t.ctx c).loop = LoopSt.none ∧
        (t.ctx c).depth = 0 ∧ (∀ j, SMap.get 0 (t.ctx c).hand j = 0) ∧ (t.ctx c).trap = none ∧ (t.ctx c).ifq = [] ∧
        (t.ctx c).flight = [] ∧ (t.ctx c).late = [] ∧ (∀ i, (t.ctx c).copy i = .free) ∧ (t.ctx c).request = .none ∧
        t.seed = s.seed ∧ (t.core core).sq = (s.core core).sq ∧ (t.core core).dqbase = (s.core core).dqbase ∧
        (t.core core).dqlim = (s.core core).dqlim ∧ (t.course (core / 8)).barriers = (s.course (core / 8)).barriers ∧
        (t.course (core / 8)).twin = (s.course (core / 8)).twin ∧ (t.course (core / 8)).plumb = (s.course (core / 8)).plumb ∧
        (∀ m, m ≠ ni → t.nodeOf gi m = s.nodeOf gi m) ∧
        (n.state = .ready → (t.nodeOf gi ni).map Node.state = some .running))

/-- The slicing function (R282): first(c) and count(c), which go to s3 and s4; the slices cover the iterations 0 to T − 1 one
after another; a linear index becomes loop indices through PERM, which go to x registers before each kernel pass; the example.
That YIELD counts the iteration of a pass that is open is the model's reading (log 30). -/
def Obligations.SlicesCover : Prop :=
  (∀ t p c : Nat, 0 < p → sliceOf t p c = (c * (t / p) + min c (t % p), if c < t % p then t / p + 1 else t / p)) ∧
  (∀ t p : Nat, 0 < p → (sliceOf t p 0).1 = 0 ∧
    (∀ c, c + 1 < p → (sliceOf t p (c + 1)).1 = (sliceOf t p c).1 + (sliceOf t p c).2) ∧
    (sliceOf t p (p - 1)).1 + (sliceOf t p (p - 1)).2 = t) ∧
  (∀ (n : Node) (l k d : Nat), n.perm[k]? = some d → n.perm.Nodup →
    n.index (some l) d =
      BitVec.ofNat 32 (l / ((n.perm.take k).map (fun e => n.exts.getD e 1)).prod % n.exts.getD d 1)) ∧
  (∀ (g : Graph) (n : Node) (sl : Slice),
    (entryState g n sl).stored (.s 3) = (BitVec.ofNat 64 sl.first).setWidth 1024 ∧
    (entryState g n sl).stored (.s 4) = (BitVec.ofNat 64 sl.count).setWidth 1024) ∧
  (∀ (u : Grd) (s : State) (sl : Slice) (n : Node), Claim.Issues (.yield u) s →
    let t := Claim.issuing (.yield u) s
    let iter := if sl.phase = .kernel ∧ sl.passOpen = true then sl.iter + 1 else sl.iter
    t.here.slice = some sl → t.nodeOf sl.graph sl.node = some n → t.here.request = .none → iter < sl.count →
    ∃ r, exec (.yield u) s = .next r ∧ r.here.npc = n.ker ∧ ∀ d < 6,
      ∃ f ∈ r.here.flight, f.dest = .x (BitVec.ofNat 4 d) ∧
        f.val = (n.index (some (sl.first + iter)) d).setWidth 1024 ∧ f.due = t.cycle + 1) ∧
  (List.range 4).map (sliceOf 10 4) = [(0, 3), (3, 3), (6, 2), (8, 2)] ∧
  loopIndices [5, 2] [1, 0] 7 = [(1, 1), (0, 3)] ∧ loopIndices [5, 2] [0, 1] 7 = [(0, 2), (1, 1)]

/-! ### Copies, rings and the array -/

/-- Copies (R179 to R183, R247): once what comes before it has performed, a copy completes: the bytes of each unit are written
at its destination, no other byte changes, and its id is free. Where a unit fails to translate, the units before it are
written and the id is faulted with the progress record of Table 13.5. Both copy slots of a bundle read before either
writes (R167): the other one's command has then read the bytes that the copy is about to write, and leaves them to the
copy where that is of C1; where a command keeps what it has read so, and what it leaves, is the model's form (log 41).
That a copy performs all its units at its completion is the model's choice (log 11).

The units that a copy and a step of a ring move (R179 to R181, R184): a row holds its elements, or its bytes in a format
narrower than 8 bits; unit n of a region stands in row n / u at unit n % u, with u units in a row; element n of a nest lies at
base + Σ i(d) × S(d), dimension 0 fastest; a row of CP.SS goes to base + row × stride; tile t of a ring starts at element t of
its nest from IN or OUT, with ROWSTEP between rows, and has no units where IN, or OUT, is 0.

Rings (R184, R185, R250, R264): a FREE slot is filled with its next tile and becomes FULL, or END when no tile remains; a
DONE slot is copied out and becomes FREE, or END; a slot whose step fails gets 0xFF, and the id is faulted; one whose
state byte is poisoned stops too, and counts in a plumb graph (R341), as the model reads it (log 33, log 34); a ring whose
slots are all END is complete. A slot number from 16 on names a slot of a ring that a stopped slice has left running,
which ends with its last slot. That a FREE slot becomes END where no tile remains is its reading too (log 33).

A table walk (R268, R269): a translation that succeeds enters a cache of the device, one that fails does not, and neither
changes anything else. The form of the translation cache is the model's choice (log 17). -/
def Obligations.CopiesAndRings : Prop :=
  (∀ (s : State) (c : CtxId) (i : BitVec 4) (r : CopyCmd),
    (s.ctx c).copy i.toNat = .running r → (∀ g, r.kind ≠ .ring g) → s.poison = [] → s.flaws = [] →
    (∀ p ∈ s.pends c, r.before ≤ p.id) →
      let us := s.copyUnits c.core r
      let u := s.resolveUnits c.core (unitBytes (Descr.of r.d).fmt) 0 us
      (∀ p ∈ u.1, ∀ k ∈ p.2, s.refusedBy c.core k = false) →
      let read (k : Nat) : Byte := match r.seen.find? (fun x => x.1 == k) with | some x => x.2 | none => s.byte k
      let cells := (u.1.flatMap (fun p => p.2.zip (p.1.map read))).filter (fun x => !r.keep.contains x.1)
      let keys := u.1.flatMap Prod.snd
      let other (id : Nat) : Bool := r.before / 16 == id / 16 && r.before != id && decide (6 ≤ r.before % 16) && decide (6 ≤ id % 16)
      let save (l : List (Nat × Byte)) : List (Nat × Byte) :=
        l ++ (keys.filter (fun k => !l.any (fun x => x.1 == k))).map (fun k => (k, s.byte k))
      let told (k : Ctx) : Ctx := { k with
        ops := k.ops.map (fun o => if other o.id && !o.performed then { o with seen := save o.seen } else o)
        copies := k.copies.map (fun p => (p.1, match p.2 with
          | .running q => if other q.before
              then .running { q with seen := save q.seen, keep := if q.before < r.before then q.keep ++ keys else q.keep } else p.2
          | x => x)) }
      let moved (x : CopyState) : State := (s.setCells cells).updCtx c (fun k =>
        { told k with copies := SMap.setD .free (told k).copies i.toNat x })
      (u.2 = none → Claim.Goes (.copyCompletion c i) s (moved .free)) ∧
      (∀ e w x va, u.2 = some (e, w, x, va) →
        Claim.Goes (.copyTranslationStop c i) s (moved (.faulted (progress va x i.toNat w r.kind.opc 0 e)))) ∧
      (∀ x a, a ∉ cells.map Prod.fst → (moved x).byte a = s.byte a) ∧
      ((cells.map Prod.fst).Nodup → ∀ x, ∀ y ∈ cells, (moved x).byte y.1 = y.2)) ∧
  (∀ (s : State) (n : Nat) (q : CopyCmd) (r : Ring) (m t : Nat) (d : Descr),
    let place (base : DWord) (exts : List Nat) (strides : List DWord) (j : Nat) : DWord :=
      (List.range exts.length).foldl (fun a e =>
        a + BitVec.ofNat 64 (j / (exts.take e).prod % exts.getD e 1) * strides.getD e 0) base
    let key (x : Descr) (j : Nat) : Loc :=
      .key (s.ownKey n (x.base + j / x.rowUnits * x.stride) + j % x.rowUnits * unitBytes x.fmt)
    let x := Descr.of q.d
    let y : Descr := { d with base := r.slot0 + m * r.slotstep }
    let dev (base : DWord) (j : Nat) : Loc := .dva (place base r.exts r.strides t +
      BitVec.ofNat 64 (j / y.rowUnits) * r.rowstep + BitVec.ofNat 64 (j % y.rowUnits * unitBytes y.fmt))
    (List.range 11).map unitBytes = [4, 8, 2, 2, 1, 4, 4, 8, 1, 1, 1] ∧
    d.rowUnits = (if d.fmt = 10 then d.cols / 2 else d.cols) ∧
    (∀ a k, s.ownSlab n a 1 = some k → s.ownKey n a = k) ∧
    (q.exts.length = q.strides.length →
      (q.kind = .cpIn → s.copyUnits n q = (List.range (x.rows * x.rowUnits)).map (fun j =>
        ⟨.dva (place q.base q.exts q.strides j), key x j⟩)) ∧
      (q.kind = .cpOut → s.copyUnits n q = (List.range (x.rows * x.rowUnits)).map (fun j =>
        ⟨key x j, .dva (place q.base q.exts q.strides j)⟩))) ∧
    (q.kind = .cpSs → s.copyUnits n q = (List.range (x.rows * x.rowUnits)).map (fun j => ⟨key x j,
      .key ((s.slab n (q.base + BitVec.ofNat 64 (j / x.rowUnits * q.dstStride)).toNat x.rowBytes).getD 0 +
        j % x.rowUnits * unitBytes x.fmt)⟩)) ∧
    (r.exts.length = r.strides.length →
      s.stepUnits n r d m (.fill t) = (if r.input = 0 then [] else (List.range (y.rows * y.rowUnits)).map (fun j =>
        ⟨dev r.input j, key y j⟩)) ∧
      s.stepUnits n r d m (.pull t) = (if r.output = 0 then [] else (List.range (y.rows * y.rowUnits)).map (fun j =>
        ⟨key y j, dev r.output j⟩))) ∧
    s.stepUnits n r d m .finish = [] ∧ s.stepUnits n r d m (.lost t) = []) ∧
  (∀ (s : State) (c : CtxId) (i : BitVec 4) (q : CopyCmd) (r : Ring) (m t : Nat),
    (s.ctx c).ringOf i m = some (q, r) → m % 16 < r.slots → s.flaws = [] →
      let n := c.core
      let e := m % 16
      let key := s.ownKey n (r.state + e)
      let us (st : RingStep) := s.resolveUnits n (unitBytes (Descr.of q.d).fmt) 0 (s.stepUnits n r (Descr.of q.d) e st)
      let moved (st : RingStep) (v : Byte) : State :=
        (s.setCells ((us st).1.flatMap (fun p => p.2.zip (p.1.map s.byte)))).setByte key v
      let allEnd (x : State) : Bool := (List.range r.slots).all (fun j => x.byte (x.ownKey n (r.state + j)) == 3)
      let closed (x : State) : State :=
        if 16 ≤ m ∧ allEnd x = true then x.updCtx c (fun k => { k with orphans := k.orphans.eraseIdx (m / 16 - 1) }) else x
      let goesOn (k : Ctx) (q : CopyCmd) : Ctx :=
        if m < 16 then { k with copies := SMap.setD .free k.copies i.toNat (.running q) }
        else { k with orphans := k.orphans.set (m / 16 - 1) q }
      let ends (k : Ctx) (x : CopyState) : Ctx :=
        if m < 16 then { k with copies := SMap.setD .free k.copies i.toNat x }
        else { k with orphans := k.orphans.eraseIdx (m / 16 - 1) }
      let left := r.tileOf e (r.takenOf e)
      (s.poison = [] →
        (s.byte key = 0 → left = some t → (us (.fill t)).2 = none → Claim.Goes (.ringSlotFill c i m) s
          ((moved (.fill t) 1).updCtx c (fun k => goesOn k
            { q with kind := .ring { r with taken := SMap.setD 0 r.taken e (r.takenOf e + 1) } }))) ∧
        (s.byte key = 0 → left = none → Claim.Goes (.ringSlotFill c i m) s (closed (moved .finish 3))) ∧
        (∀ j, s.byte key = 2 → r.takenOf e = j + 1 → r.tileOf e j = some t → (us (.pull t)).2 = none →
          Claim.Goes (.ringPullBack c i m) s (closed (moved (.pull t) (if left.isSome then 0 else 3)))) ∧
        (∀ f w x va, s.byte key = 0 → left = some t → (us (.fill t)).2 = some (f, w, x, va) →
          Claim.Goes (.ringStop c i m) s
            ((moved (.fill t) 0xFF).updCtx c (fun k => ends k (.faulted (progress va x i.toNat w 0x23 t f))))) ∧
        (∀ j f w x va, s.byte key = 2 → r.takenOf e = j + 1 → r.tileOf e j = some t → (us (.pull t)).2 = some (f, w, x, va) →
          Claim.Goes (.ringStop c i m) s
            ((moved (.pull t) 0xFF).updCtx c (fun k => ends k (.faulted (progress va x i.toNat w 0x23 t f))))) ∧
        (m < 16 → allEnd s = true → exec (.copyCompletion c i) s =
          .next (s.updCtx c (fun k => { k with copies := SMap.setD .free k.copies i.toNat .free })))) ∧
      (s.poisoned key = true → Claim.Goes (.ringStop c i m) s
        ((match q.graph with | some g => s.plumbEvent g | none => s).updCtx c (fun k =>
          ends k (.faulted (progress 0 8 i.toNat false 0x23 (e + (r.takenOf e - 1) * r.slots) 0)))))) ∧
  (∀ (s : State) (space : Nat) (va : BitVec 64) (acc : AccessKind) (sp : Space),
    s.spaces.find space = some sp → s.cached space (va.toNat % 2 ^ 56) = none →
      (∀ l, s.walkFrom (va.toNat % 2 ^ 56) levels sp.root = .ok l → exec (.tableWalk space va acc) s =
        .next { s with tlb := s.tlb ++ [⟨space, va.toNat % 2 ^ 56 - va.toNat % 2 ^ 56 % l.size, l.size, l.entry⟩] }) ∧
      (∀ x, s.walkFrom (va.toNat % 2 ^ 56) levels sp.root = .error x → exec (.tableWalk space va acc) s = .next s))

/-- The M-slot forms at issue (R215, R216, R218, R222, R234, R235): an array operation joins the core's array with what it
reads at issue (its descriptors, its guard, FPCTL, BRK and the AF of its tile), and changes no tile, flag or byte; ACCLD and
GIVQR set AF, DRAIN counts its entries; behind a fault of the array that waits, an operation is withheld. That one which is
withheld has set AF or counted its entries all the same is the model's reading (log 28).

The M slot at issue. A descriptor is bad by R214 step 1; its region, its alignment, META and SPALL are checked next, the slab-address
fault; then the bank groups of A and B (R32). A multiply needs the formats, AF and K of Table 4.9 and the shapes of Table 9.7
(R224); a factorisation form the AF of its tiles (R227), a resumed one the BRK of R229 and R230; ACCLD and ACCST 16 × 16 of a format
that fits (R234), CBLD 64 bytes on a multiple of 64 (R198), SPLD K4 (R203).

The tile moves at issue (R215, R216, R219, R234): ACCT reads the 32 staging bytes of its descriptor, ACCMOV copies the
active rows with AF and keeps a tile that it moves onto itself, ACCST is a posted store of class 0 of the active rows, whose interlock
is the region of its descriptor, whatever the guard (R182). Both
read the tile as it stands where neither a move nor an array operation is still to write it. -/
def Obligations.ArrayFormsIssue : Prop :=
  (∀ (u : Pfx) (p a4 b4 d : BitVec 4) (k e : BitVec 3) (q cb : BitVec 2)
      (z r f o w l : Bool),
    let joins (i : Instr) (da db : BitVec 256) (af : BitVec 2) (s : State) : State :=
      let x : ArrayOp := ⟨s.freshId, s.cur.one, s.here.seq, s.heldNow, s.here.pc, i, da, db, s.guard u.n u.g,
        s.here.fpctl.extractLsb' 0 3, s.here.fpctl.extractLsb' 8 5, af, s.here.brk, 0, s.freshId, none⟩
      if s.here.withheld ≠ [] ∨ (∃ f ∈ s.here.late, f.array.isSome = true) then
        s.upd (fun c => { c with withheld := c.withheld ++ [x] })
      else s.updCore s.cur.core (fun n => { n with aq := n.aq ++ [x] })
    let two (i : Instr) (s : State) : State := joins i (s.here.desc a4) (s.here.desc b4) (s.here.af k) s
    let own (i : Instr) (s : State) : State := joins i 0 0 (s.here.af k) s
    Claim.Runs (.mma u p k a4 b4 z r f o) (two (.mma u p k a4 b4 z r f o)) ∧
    Claim.Runs (.mmaS u p k a4 b4 z r f o) (two (.mmaS u p k a4 b4 z r f o)) ∧
    Claim.Runs (.mmaK4 u k a4 b4 ⟨p, z, r, f, o⟩) (two (.mmaK4 u k a4 b4 ⟨p, z, r, f, o⟩)) ∧
    Claim.Runs (.trsm u k e w p) (own (.trsm u k e w p)) ∧
    Claim.Runs (.getrf u k w l) (own (.getrf u k w l)) ∧
    Claim.Runs (.potrf u k w l) (own (.potrf u k w l)) ∧
    Claim.Runs (.rotapp u k e w l) (own (.rotapp u k e w l)) ∧
    Claim.Runs (.accz u k) (own (.accz u k)) ∧
    Claim.Runs (.givqr u k e w) (fun s => joins (.givqr u k e w) 0 0 (s.here.af k) (s.upd (fun c => c.setAf e 1))) ∧
    Claim.Runs (.accld u k d) (fun s =>
      let fmt := (s.here.desc d).toNat / 2 ^ 96 % 16
      let af : BitVec 2 := if fmt = 0 then 0 else if fmt = 1 then 1 else 2
      joins (.accld u k d) (s.here.desc d) 0 af (s.upd (fun c => c.setAf k af))) ∧
    Claim.Runs (.drain u k q) (fun s =>
      let new : List QEntry := List.replicate (drainEntries (s.here.af k)) ⟨0, 0, false, s.freshId⟩
      joins (.drain u k q) 0 0 (s.here.af k)
        (s.upd (fun c => { c with q := SMap.setD [] c.q q.toNat (SMap.get [] c.q q.toNat ++ new) }))) ∧
    Claim.Runs (.cbld u d cb) (fun s => joins (.cbld u d cb) (s.here.desc d) 0 0 s) ∧
    Claim.Runs (.spld u d) (fun s => joins (.spld u d) (s.here.desc d) 0 0 s)) ∧
  (∀ (s : State) (w : Word) (u : Pfx) (np : BitVec 4) (k e : BitVec 3) (d x : BitVec 4)
      (q cb : BitVec 2) (md : MulMode) (z sa fi fo wd l : Bool),
    let c := s.here
    let n := s.cur.core
    let of (y : BitVec 4) : Descr := Descr.of (c.desc y)
    let bad (y : Descr) : Prop := y.reserved = true ∨ 11 ≤ y.fmt ∨ y.rows = 0 ∨ y.cols = 0 ∨ (y.fmt = 10 ∧ y.cols % 2 = 1) ∨
      (1 < y.rows ∧ y.stride < y.rowBytes)
    let own (a len : Nat) : Prop := s.ownSlab n a len ≠ none
    let region (y : Descr) : Prop := y.base % unitBytes y.fmt = 0 ∧ (y.rows = 1 ∨ y.stride % unitBytes y.fmt = 0) ∧
      own y.base ((y.rows - 1) * y.stride + y.rowBytes)
    let placed (y : Descr) (hasMeta spall : Prop) : Prop := region y ∧ y.base % 8 = 0 ∧ y.stride % 8 = 0 ∧
      (hasMeta → y.metaAddr % 4 = 0 ∧ own y.metaAddr (max y.metaBytes 1)) ∧
      (spall → y.spall = 0 ∨ (y.spall % 8 = 0 ∧ own y.spall 8))
    let group (y : Descr) (g : Nat) : Prop := ∀ r < y.rows, ∀ j < y.rowBytes, groupOf (s.ownKey n (y.base + r * y.stride) + j) = g
    let rows : List (Nat × Nat × Nat × Nat × Nat) := [(0, 4, 1, 1, 16), (0, 4, 0, 0, 16), (0, 4, 0, 1, 16), (0, 4, 2, 0, 32),
      (0, 4, 2, 1, 32), (0, 4, 3, 0, 32), (0, 4, 3, 1, 32), (0, 4, 4, 0, 64), (6, 6, 4, 0, 64), (6, 6, 10, 0, 128)]
    let deep (p : Nat) (a b : Descr) (kk : Nat) : Prop :=
      (a.fmt = b.fmt ∧ ∃ y ∈ rows, y.1 ≤ p ∧ p ≤ y.2.1 ∧ y.2.2.1 = a.fmt ∧ y.2.2.2.1 = (c.af k).toNat ∧ y.2.2.2.2 = kk) ∨
      (p = 5 ∧ (a.fmt = 8 ∨ a.fmt = 9) ∧ (b.fmt = 8 ∨ b.fmt = 9) ∧ c.af k = 2 ∧ kk = 64)
    let fits (p : Nat) (k4 : Prop) (kind : Descr → Prop) : Prop := ¬ bad (of d) ∧ ¬ bad (of x) ∧ ∃ kk, deep p (of d) (of x) kk ∧
      ((of d).fmt = 10 ↔ k4) ∧ kind (of d) ∧ (of d).rows = 16 ∧ (of d).cols = kk ∧ (of x).spk = 0 ∧
      (of x).rows = kk * (keptOf (of d).spk).2 / (keptOf (of d).spk).1 ∧ (of x).cols = 16
    let gives (i : Instr) (y : Option FaultDetail) : Prop := issueFault .m w i s = y
    let ill : Option FaultDetail := some (0x03, w.setWidth 128)
    let multiply (i : Instr) (p : Nat) (k4 : Prop) (kind : Descr → Prop) : Prop :=
      let laid : Prop := placed (of d) ((of d).fmt = 10 ∨ (of d).spk ≠ 0) k4 ∧ placed (of x) ((of x).fmt = 10 ∨ (of x).spk ≠ 0) k4
      (¬ fits p k4 kind → gives i ill) ∧ (fits p k4 kind → ¬ laid → gives i (some (0x06, 0))) ∧
      (fits p k4 kind → laid → ¬ (group (of d) 0 ∧ group (of x) 1) → gives i (some (0x07, 0))) ∧
      (fits p k4 kind → laid → group (of d) 0 ∧ group (of x) 1 → gives i none)
    let first (i : Instr) (illegal slab : Prop) : Prop :=
      (illegal → gives i ill) ∧ (¬ illegal → slab → gives i (some (0x06, 0))) ∧ (¬ illegal → ¬ slab → gives i none)
    let off (y : BitVec 3) : Prop := c.af y ≠ if wd then 1 else 0
    let brk (lo n : Nat) : Nat := c.brk.toNat / 2 ^ lo % 2 ^ n
    let square (y : Descr) : Prop := y.rows = 16 ∧ y.cols = 16
    (∀ i, i = Instr.mma u np k d x z sa fi fo → multiply i np.toNat False (fun y => y.spk = 0)) ∧
    (∀ i, i = Instr.mmaS u np k d x z sa fi fo → multiply i np.toNat False (fun y => y.spk ≠ 0)) ∧
    multiply (.mmaK4 u k d x md) md.np.toNat True (fun _ => True) ∧
    first (.trsm u k e wd np) (off k ∨ off e) False ∧ first (.givqr u k e wd) (off k) False ∧
    first (.rotapp u k e wd l) (off k ∨ c.af e ≠ 1) False ∧
    first (.getrf u k wd l) (off k ∨ (l = true ∧ ((brk 0 8 ≠ 1 ∧ brk 0 8 ≠ 2) ∨ brk 24 3 ≠ k.toNat ∨ 15 < brk 16 8))) False ∧
    first (.potrf u k wd l) (off k ∨ (l = true ∧ (brk 0 8 ≠ 3 ∨ brk 24 3 ≠ k.toNat ∨ 15 < brk 16 8))) False ∧
    first (.accld u k d) (bad (of d) ∨ ¬ square (of d) ∨ (of d).fmt ∉ [0, 1, 5, 6]) (¬ placed (of d) False False) ∧
    first (.accst u k d) (bad (of d) ∨ ¬ square (of d) ∨ ¬ ((c.af k = 0 ∧ (of d).fmt = 0) ∨ (c.af k = 1 ∧ (of d).fmt = 1) ∨
      (c.af k ≠ 0 ∧ c.af k ≠ 1 ∧ ((of d).fmt = 5 ∨ (of d).fmt = 6)))) (¬ placed (of d) False False) ∧
    first (.cbld u d cb) (bad (of d)) ((of d).base % 64 ≠ 0 ∨ ¬ own (of d).base 64 ∨ ¬ placed (of d) False False) ∧
    first (.spld u d) (bad (of d) ∨ (of d).fmt ≠ 10) (¬ placed (of d) True True) ∧
    ∀ i ∈ [Instr.accz u k, .accmov u k e, .drain u k q, .acct u d], gives i none) ∧
  (∀ (u : Pfx) (d : BitVec 4) (k a : BitVec 3),
    let op (s : State) (addr : DWord) (opc width : Nat) (fs : List Frag) (x : MemAct)
        (region : List Nat) : State :=
      s.upd (fun c => { c with
        did := c.did ++ [.memory addr x fs]
        ops := c.ops ++ [⟨s.freshId, addr, c.seq, s.slot, s.heldNow, c.pc, 0, 0, 0, width, opc, fs, x, false, 0, 0, [], region⟩] })
    Claim.Runs (.acct u d) (fun s =>
      let at_ := 0x17FC00 + (if s.cur.one then 0x200 else 0) + 0x20 * d.toNat
      op s (BitVec.ofNat 64 at_) 0x0D 32 [⟨0, .key (0x20000000 + s.cur.core * 0x200000 + at_), 32⟩] (.load (.desc d)) []) ∧
    Claim.Runs (.accmov u k a) (fun s =>
      if k = a then s
      else op (s.upd (fun c => c.setAf k (c.af a))) 0 0x0C 0 [] (.move k ((s.guard u.n u.g).setWidth 16) (s.sourceTile a)) []) ∧
    Claim.Runs (.accst u a d) (fun s =>
      let x := Descr.of (s.here.desc d)
      let n := if s.here.af a = 1 then 8 else 4
      let n' := s.cur.core
      let rows := (List.range 16).filter (fun i => (s.guard u.n u.g).getLsbD i)
      op s (BitVec.ofNat 64 x.base) 0x0A (16 * n)
        (rows.map (fun i => ⟨16 * n * i, .key (s.regionRow s.cur.core x i), 16 * n⟩))
        (.store (packElems (8 * n) ((List.range 256).map (fun e => ((s.sourceTile a).el (e / 16) (e % 16)).toNat))))
        (s.regionGranules n' x)) ∧
    ∀ (s : State) (i j : Nat), (∀ o ∈ s.here.ops, ∀ rows t, o.act ≠ .move a rows t) →
      (∀ x ∈ s.myArray, a ∉ tilesWritten x.instr) → (s.sourceTile a).el i j = (s.here.tile a).el i j ∧
        ∀ (n g : Nat) (x : Descr), g ∈ s.regionGranules n x ↔
          ∃ r < x.rows, ∃ b < x.rowBytes, g = (s.ownKey n (x.base + r * x.stride) + b) / 64)

/-- The array completes its operations in order (R218, R222, R234): each has the result that `runArray` names, which the
obligations on the results open; an operation that faults is recorded against its bundle, and the context's later ones are
withheld; nothing else changes but that a WRC to KSW, PIV, GF or BRK of no later bundle has taken effect (R84, R217). ACCZ
zeroes the active rows of its tile and keeps the others. A DRAIN writes its entries from entry 0 upward (R235): entry m
takes row m of a tile of FP64, an element a pair of lanes, else rows 2m and 2m + 1, an element a lane, and 0 in a lane
whose guard bit is 0, with the guard as its mask; it takes the place of the DRAIN's first counted entry and can be popped
from then on; completing, it writes the rest. When each operation completes is left open by the spec; that they complete
in order is R218's (log 41).

A tile move completes (R215, R218, R234).

ACCLD, CBLD and SPLD when they complete (R198, R203, R220, R234), where no earlier access is still to perform and nothing
is poisoned: ACCLD copies the active rows of its region, CBLD loads its slot or raises CBBAD and keeps it, SPLD changes
nothing and raises the first fault of its checks. The order of an array operation's reads and what follows it is the
model's reading (log 41).

The checks of a K4 tile (R200, R201, R203, R208, R225, R226), in their order: a codebook slot as reset leaves it is CBBAD; a list
header with CAP 0, above 64 or below COUNT, with a reserved bit, or with entries past the own slab is SPFMT; of its entries 0 to COUNT
− 1, those with V = 1, one with a reserved bit or a position at or above the tile's is SPFMT, one whose position does not rise SPORD; an
active element that escapes without one entry at its position is SPMISS, at the lowest; an active row with a bad pattern word is
SPPAT. DETAIL names the descriptor, the codebook slot and, as the model reads it, the position (log 21). -/
def Obligations.ArrayCompletes : Prop :=
  (∀ (s : State) (n : Nat) (a : ArrayOp) (rest : List ArrayOp),
    (s.core n).aq = a :: rest → s.flaws = [] → (∀ p ∈ s.pends ⟨n, a.one⟩, a.before ≤ p.id) →
      let c : CtxId := ⟨n, a.one⟩
      let early (f : Flight) : Prop := f.landed = false ∧ f.seq ≤ a.seq ∧ ∃ m w, f.dest = .cr m w ∧ 0x10 ≤ m ∧ m ≤ 0x1A
      let v := s.landCr c a.seq
      let r := ((v.updCore n (fun k => { k with aq := rest })).asSeen a.seen).runArray c a
        (match a.seen with | some x => x.was | none => s.poison)
      ((∀ f ∈ (v.ctx c).flight, ¬ early f) ∧ (∀ d, (v.ctx c).stored d = (s.ctx c).stored d) ∧
        (∀ k, (v.ctx c).tile k = (s.ctx c).tile k) ∧ ((∀ f ∈ (s.ctx c).flight, ¬ early f) → v.ctx c = s.ctx c) ∧
        ∀ f, (s.ctx c).flight = [f] → early f → ∀ m w, f.dest = .cr m w → f.live.getLsbD 0 = true →
          v.ctx c = ((s.writeCr c m w (f.val.setWidth 64)).updCtx c (fun k => { k with
            flight := [{ f with landed := true }], did := k.did ++ [.result f.dest f.val] })).ctx c) ∧
      (∃ t, exec (.arrayOperationCompletion n .none) s = .next t ∧ Claim.Completes v t n a rest r.1 r.2 ∧
        s = { t with cores := s.cores, log := s.log, past := s.past }) ∧
      (∀ u k, a.instr = .accz u k → r.2 = [] ∧
        (∀ i < 16, ∀ j < 16, (r.1.tile k).el i j = if a.guard.getLsbD i then 0 else ((s.ctx c).tile k).el i j) ∧
        ∀ k', k' ≠ k → r.1.tile k' = (s.ctx c).tile k') ∧
      (∀ u k q, a.instr = .drain u k q →
        let count := if a.af = 1 then 16 else 8
        (a.drained < count → exec (.drainEntryWrite n) s = .next ((s.updCore n (fun x => { x with
          aq := { a with drained := a.drained + 1 } :: rest })).updCtx c (fun x => x.drainWrite a k q a.drained))) ∧
        r = ((List.range count).foldl (fun x m => if m < a.drained then x else x.drainWrite a k q m) (v.ctx c), []) ∧
        ∀ (x : Ctx) (m : Nat), m < count →
          let lane (l : Nat) : BitVec 32 := if a.guard.getLsbD l = false then 0
            else if a.af = 1 then ((x.tile k).el m (l / 2)).extractLsb' (32 * (l % 2)) 32
            else ((x.tile k).el (2 * m + l / 16) (l % 16)).extractLsb' 0 32
          ∃ e : Vec, (∀ l < 32, e.extractLsb' (32 * l) 32 = lane l) ∧ ∀ h y z, SMap.get [] x.q q.toNat = h ++ y :: z →
            y.op = a.id → y.written = false → (∀ w ∈ h, w.op = a.id → w.written = true) → x.drainWrite a k q m = { x with
              did := x.did ++ [.lands (.queue q.toNat) [e.toNat, a.guard.toNat]]
              q := SMap.setD [] x.q q.toNat (h ++ ⟨e, a.guard, true, a.id⟩ :: z) })) ∧
  (∀ (s : State) (c : CtxId) (o : MemOp) (rest : List MemOp),
    (s.ctx c).ops = o :: rest → o.slot = 5 → o.id % 16 = 5 → (∀ p ∈ rest, p.id ≠ o.id) →
      (∀ k rows t, o.act = .move k rows t → o.performed = false → ∃ n, exec (.tileMoveCompletion c 0) s = .next n ∧
        (n.ctx c).ops = rest ∧ (∀ b, n.byte b = s.byte b) ∧
        (∀ i < 16, ∀ j < 16, ((n.ctx c).tile k).el i j = if rows.getLsbD i then t.el i j else ((s.ctx c).tile k).el i j) ∧
        ∀ k', k' ≠ k → (n.ctx c).tile k' = (s.ctx c).tile k') ∧
      (∀ d, o.act = .load (.desc d) → o.performed = true → ∃ n, exec (.tileMoveCompletion c 0) s = .next n ∧
        (n.ctx c).ops = rest ∧ (n.ctx c).desc d = BitVec.ofNat 256 o.val ∧
        (∀ d', d' ≠ d → (n.ctx c).desc d' = (s.ctx c).desc d') ∧ (∀ b, n.byte b = s.byte b)) ∧
      (∀ data l, o.act = .store data → s.mayPerform c o = true → s.locate c.core .write o.frags = .ok l →
        (∀ p ∈ l, s.refusedBy c.core p.2 = false) → s.poison = [] → s.flaws = [] →
        Claim.Goes (.tileMoveCompletion c 0) s
          ((s.setCells (l.map (fun p => (p.2, byteAt data p.1)))).updCtx c (fun x => { x with ops := rest })))) ∧
  (∀ (s : State) (n : Nat) (a : ArrayOp) (rest : List ArrayOp) (u : Pfx) (d : BitVec 4)
      (k : BitVec 3) (cb : BitVec 2),
    (s.core n).aq = a :: rest → s.poison = [] → s.flaws = [] → (∀ y, a.seen = some y → y.bad = []) →
    (∀ p ∈ s.pends ⟨n, a.one⟩, a.before ≤ p.id) →
      let v := s.landCr ⟨n, a.one⟩ a.seq
      let x := v.ctx ⟨n, a.one⟩
      let m := v.asSeen a.seen
      let A := Descr.of a.da
      let act (i : Nat) : Bool := a.guard.getLsbD i
      (a.instr = .accld u k d → A.cols = 16 → ∃ (t : State) (y : Tile),
        exec (.arrayOperationCompletion n .none) s = .next t ∧
        (∀ i < 16, ∀ j < 16, y.el i j = if act i then
          BitVec.ofNat 64 (m.readNat (m.regionRow n A i + j * unitBytes A.fmt) (unitBytes A.fmt)) else (x.tile k).el i j) ∧
        Claim.Completes v t n a rest { x with k := SMap.setD [] x.k k.toNat y } []) ∧
      (a.instr = .cbld u d cb →
        let key := m.ownKey n A.base
        let ent (j : Nat) : Nat := m.readNat (key + 2 * j) 2
        let esc : BitVec 16 := BitVec.ofNat 16 (m.readNat (key + 32) 2)
        let live (j : Nat) : Prop := j < 16 ∧ esc.getLsbD j = false
        let val (j : Nat) : Machine.Num := Fmt.bf16.value (ent j)
        let bad : Prop := ent 0 ≠ 0 ∨ esc.getLsbD 0 = true ∨ (∃ i, 34 ≤ i ∧ i < 64 ∧ m.byte (key + i) ≠ 0) ∨
          (∃ j, live j ∧ ((val j).isNan = true ∨ (val j).isInf = true)) ∨ (∀ j, live j → (val j).isZero = true)
        ∃ t, exec (.arrayOperationCompletion n .none) s = .next t ∧
          (bad → Claim.Completes v t n a rest x [(0x0F, spDetail d.toNat cb.toNat 0)]) ∧
          (¬ bad → ∃ b : Codebook, (∀ j < 16, (b.ents.extractLsb' (16 * j) 16).toNat = ent j) ∧ b.esc = esc ∧
            Claim.Completes v t n a rest { x with cb := SMap.setD ⟨0, 0⟩ x.cb cb.toNat b } [])) ∧
      (a.instr = .spld u d → ∃ t, exec (.arrayOperationCompletion n .none) s = .next t ∧
        Claim.Completes v t n a rest x (m.k4Fault x n []
          [⟨A, d.toNat, A.rows != 16, BitVec.allOnes 32⟩]).toList)) ∧
  (∀ (s : State) (x : Ctx) (n : Nat) (t : K4) (was : List Nat),
    let d := t.d
    let key := s.ownKey n d.spall
    let count := s.readNat key 2
    let cap := s.readNat (key + 2) 2
    let bad : Prop := cap = 0 ∨ 64 < cap ∨ cap < count ∨ s.readNat key 8 / 2 ^ 33 ≠ 0 ∨ s.ownSlab n d.spall (8 + 8 * cap) = none
    let es : List DWord := (List.range count).map (fun i => BitVec.ofNat 64 (s.readNat (key + 8 + 8 * i) 8))
    let valid (e : DWord) : Bool := e.getLsbD 11
    let pos (e : DWord) : Nat := e.toNat / 2 ^ 12 % 4 * 2048 + e.toNat % 2 ^ 11
    let wrong (e : DWord) : Prop := valid e = true ∧ (e.toNat / 2 ^ 14 % 2 ^ 18 ≠ 0 ∨ d.rows * d.cols ≤ pos e)
    let detail (p : Nat) : BitVec 128 := BitVec.ofNat 128 (t.dn + 16 * d.cb + 2 ^ 16 * p)
    let place (p : Nat) : Nat × Nat := if t.b then (p % d.rows, p / d.rows) else (p / d.cols, p % d.cols)
    let active (r : Nat) : Bool := t.b || t.act.getLsbD r
    let scale (p : Nat) : Nat := (s.byte (s.ownKey n (d.metaAddr + p / 32))).toNat
    let code (p : Nat) : Nat := (s.byte (s.ownKey n (d.base + (place p).1 * d.stride) + (place p).2 / 2)).toNat /
      (if (place p).2 % 2 = 1 then 16 else 1) % 16
    let list : List DWord := if d.spall = 0 then [] else es
    let lost (p : Nat) : Prop := p < d.rows * d.cols ∧ active (place p).1 = true ∧ scale p ≠ 0 ∧ scale p ≠ 255 ∧
      (x.book d.cb).esc.getLsbD (code p) = true ∧ ∀ e, list.filter (fun y => valid y && pos y == p) ≠ [e]
    let grp := (keptOf d.spk).2
    let dense := d.cols * grp / (keptOf d.spk).1
    let odd (i : Nat) : Prop := active i = true ∧ ∃ w, i * dense / 32 ≤ w ∧ w ≤ (i * dense + dense - 1) / 32 ∧
      patternBad (BitVec.ofNat 2 (d.spk - 1)) (s.readNat (s.ownKey n (d.patterns + 4 * w)) 4) = true
    x.k4Book t = (if x.book d.cb = ⟨0, 0⟩ then some (0x0F, detail 0) else none) ∧
    (d.spall = 0 → s.k4ListFault n t = none ∧ s.k4Entries n t = []) ∧
    (d.spall ≠ 0 → bad → s.k4ListFault n t = some (0x10, detail 0) ∧ s.k4Entries n t = []) ∧
    (d.spall ≠ 0 → ¬ bad → s.k4Entries n t = es ∧
      (∀ p e q, es = p ++ e :: q → wrong e → (∀ y ∈ p, ¬ wrong y) → s.k4ListFault n t = some (0x10, detail (pos e))) ∧
      ((∀ e ∈ es, ¬ wrong e) →
        (∀ p a b q, es.filter valid = p ++ a :: b :: q → pos b ≤ pos a → (p ++ [a]).Pairwise (fun y z => pos y < pos z) →
          s.k4ListFault n t = some (0x11, detail (pos b))) ∧
        ((es.filter valid).Pairwise (fun y z => pos y < pos z) → s.k4ListFault n t = none))) ∧
    (d.spall = 0 ∨ ¬ bad →
      (∀ p, lost p → (∀ q < p, ¬ lost q) → s.k4Miss x n t = some (0x12, detail p)) ∧
      ((∀ p, ¬ lost p) → s.k4Miss x n t = none)) ∧
    (d.spk = 0 → s.patternFault n d t.dn t.active = none) ∧
    (d.spk ≠ 0 → dense ≠ 0 → ((∃ i < d.rows, odd i) → s.patternFault n d t.dn t.active = some (0x13, detail 0)) ∧
      ((∀ i < d.rows, ¬ odd i) → s.patternFault n d t.dn t.active = none)) ∧
    (s.poison = [] → ∀ ts : List K4, s.k4Fault x n was ts = (ts.map x.k4Book ++ ts.map (s.k4ListFault n) ++ ts.map (s.k4Miss x n) ++
      ts.map (fun t => s.patternFault n t.d t.dn t.active)).findSome? id))

/-- GETRF and POTRF when they complete (R216, R222, R227 to R230). GETRF goes from step BRK.COL (RES 1) or 0 through the steps
of R228, each on the matrix that the step before leaves, up to step 16 or to the first whose candidates hold a NaN or are all
±0; BRK is read as it stood at issue (R66); POTRF likewise through the columns of R230, up to the first whose t is a NaN or at most 0. The tile holds what the steps
leave, FPSW and KSW take their flags, and PIV, GF, BRK and the breakdown fault are as R228 to R230 say; a step that breaks
down changes nothing. That the breakdown stands before FPX among the faults is the model's reading (log 27).

TRSM, GIVQR and ROTAPP when they complete (R222, R227, R231 to R233): TRSM overwrites kd with the solution, line by line
in the order of R231, or raises ZDIAG and leaves kd; GIVQR makes its 120 rotations in their order and writes them to ke,
whose last 16 elements are +0; ROTAPP applies those of ke to every column of kd, forwards or, with INV, backwards; FPSW and
KSW of kd take the flags. rot is the five rounded steps of R232. -/
def Obligations.FactorResults : Prop :=
  (∀ (s : State) (n : Nat) (a : ArrayOp) (rest : List ArrayOp) (u : Pfx) (k : BitVec 3)
      (w res : Bool),
    (s.core n).aq = a :: rest →
      let c : CtxId := ⟨n, a.one⟩
      let v := s.landCr c a.seq
      let x := v.ctx c
      let F := if a.af = 1 then Fmt.f64 else Fmt.f32
      let rm := Rm.of a.rm
      let s0 := if res then a.brk.toNat / 2 ^ 16 % 2 ^ 8 else 0
      let tileIs (y : Tile) (A : Claim.Mat) : Prop := ∀ i < 16, ∀ j < 16, accPattern F (y.el i j) = A i j % 2 ^ F.width
      let record (cause step value : Nat) : BitVec 128 :=
        BitVec.ofNat 128 (cause + step * 2 ^ 8 + step * 2 ^ 16 + k.toNat * 2 ^ 24 + value % 2 ^ 64 * 2 ^ 64)
      let isNan (b : Nat) : Bool := (F.value b).isNan
      let isZero (b : Nat) : Bool := (F.value b).isZero
      (a.instr = .getrf u k w res → s0 < 16 → ∃ (t : State) (e : Nat) (p : Nat → Nat) (A : Nat → Claim.Mat) (f : Flags)
          (y : Tile) (piv : BitVec 128),
        let big (l : List Nat) : Nat := maxMagnitude (l.map (fun q => F.value (A e (q / 16) (q % 16))))
        let m := if res then a.brk.toNat / 2 ^ 64 % 2 ^ 64
          else maxMagnitude ((List.range 256).map (fun q => F.value (A s0 (q / 16) (q % 16))))
        let z (g : DWord) (b : BitVec 128) : Ctx :=
          Claim.flagged { x with k := SMap.setD [] x.k k.toNat y, piv := piv, gf := g, brk := b } k (f.setWidth 6)
        exec (.arrayOperationCompletion n .none) s = .next t ∧ s0 ≤ e ∧ e ≤ 16 ∧ A s0 = Claim.matOf F (x.tile k) ∧
        (∀ j, s0 ≤ j → j < e → (∀ i, j ≤ i → i < 16 → isNan (A j i j) = false) ∧
          (∃ i, j ≤ i ∧ i < 16 ∧ isZero (A j i j) = false) ∧ Claim.IsPivot F (A j) j (p j) ∧
          A (j + 1) = Claim.luStep F rm j (Claim.exchanged j (p j) (A j))) ∧
        tileIs y (A e) ∧ (e = s0 → ∀ i < 16, ∀ j < 16, y.el i j = (x.tile k).el i j) ∧
        Claim.Raised f ((List.range' s0 (e - s0)).flatMap (fun j => Claim.luFlags F rm j (Claim.exchanged j (p j) (A j)))) ∧
        (∀ j < 16, (piv.extractLsb' (8 * j) 8).toNat = if j < s0 then (x.piv.extractLsb' (8 * j) 8).toNat
          else if j < e then p j else 0xFF) ∧
        (e = 16 → Claim.Completes v t n a rest
          (z (BitVec.ofNat 64 (Fmt.f64.div .rne
            (Fmt.f64.value (big ((List.range 256).filter (fun q => q / 16 ≤ q % 16)))) (Fmt.f64.value m)).1) 0)
          (Claim.enabledFaults a f)) ∧
        (e < 16 → ∃ cause, ((∃ i, e ≤ i ∧ i < 16 ∧ isNan (A e i e) = true) ∧ cause = 2 ∨
            (∀ i, e ≤ i → i < 16 → isZero (A e i e) = true) ∧ cause = 1) ∧
          Claim.Completes v t n a rest (z x.gf (record cause e m))
            ((if cause = 1 then 0x15#8 else 0x16, record cause e m) :: Claim.enabledFaults a f))) ∧
      (a.instr = .potrf u k w res → s0 < 16 → ∃ (t : State) (e : Nat) (A : Nat → Claim.Mat) (f : Flags) (y : Tile),
        let low (j : Nat) : Bool := let v := F.value (Claim.cholPivot F rm (A j) j).1; v.isNan || v.isZero || v.neg
        let z (b : BitVec 128) : Ctx :=
          Claim.flagged { x with k := SMap.setD [] x.k k.toNat y, brk := b } k (f.setWidth 6)
        exec (.arrayOperationCompletion n .none) s = .next t ∧ s0 ≤ e ∧ e ≤ 16 ∧ A s0 = Claim.matOf F (x.tile k) ∧
        (∀ j, s0 ≤ j → j < e → low j = false ∧ A (j + 1) = Claim.cholStep F rm j (A j)) ∧
        tileIs y (A e) ∧ (e = s0 → ∀ i < 16, ∀ j < 16, y.el i j = (x.tile k).el i j) ∧
        Claim.Raised f ((List.range' s0 (e - s0)).flatMap (fun j => Claim.cholFlags F rm j (A j)) ++
          (if e < 16 then [(Claim.cholPivot F rm (A e) e).2] else [])) ∧
        (e = 16 → Claim.Completes v t n a rest (z 0) (Claim.enabledFaults a f)) ∧
        (e < 16 → low e = true ∧
          let b := record 3 e (widen F (Claim.cholPivot F rm (A e) e).1)
          Claim.Completes v t n a rest (z b) ((0x17#8, b) :: Claim.enabledFaults a f))) ∧
      (∀ l : List Machine.Num, (l.any (fun q => q.isNan) = true → maxMagnitude l = Fmt.f64.canon) ∧
        (l.any (fun q => q.isNan) = false → l.any (fun q => q.isInf) = true → maxMagnitude l = Fmt.f64.inf false) ∧
        (l.any (fun q => q.isNan) = false → l.any (fun q => q.isInf) = false → ∀ q ∈ l, (∀ r ∈ l, q.abs.lt r.abs = false) →
          maxMagnitude l = (Fmt.f64.roundDy .rne q.abs.dy false).1))) ∧
  ((∀ (s : State) (n : Nat) (a : ArrayOp) (rest : List ArrayOp) (u : Pfx) (k e : BitVec 3) (w inv : Bool) (fl : BitVec 4),
    (s.core n).aq = a :: rest →
      let c : CtxId := ⟨n, a.one⟩
      let v := s.landCr c a.seq
      let x := v.ctx c
      let F := if a.af = 1 then Fmt.f64 else Fmt.f32
      let rm := Rm.of a.rm
      let B := Claim.matOf F (x.tile k)
      let T := Claim.matOf F (x.tile e)
      let tileIs (y : Tile) (A : Claim.Mat) : Prop := ∀ i < 16, ∀ j < 16, accPattern F (y.el i j) = A i j % 2 ^ F.width
      let side := fl.getLsbD 3
      let unit := fl.getLsbD 1
      let tr := fl.getLsbD 0
      let opT : Claim.Mat := fun i j => if tr then T j i else T i j
      let fwd : Bool := side == (fl.getLsbD 2 != tr)
      let order (m : Nat) : Nat := if fwd then m else 15 - m
      let cell (o i : Nat) : Nat × Nat := if side then (o, i) else (i, o)
      (a.instr = .trsm u k e w fl →
        (∀ d < 16, unit = false → (F.value (T d d)).isZero = true → (∀ i < d, (F.value (T i i)).isZero = false) →
          let b := BitVec.ofNat 128 (4 + d * 2 ^ 16 + k.toNat * 2 ^ 24 + widen F (T d d) % 2 ^ 64 * 2 ^ 64)
          ∃ t, exec (.arrayOperationCompletion n .none) s = .next t ∧
            Claim.Completes v t n a rest { x with brk := b } [(0x18, b)]) ∧
        (unit = true ∨ (∀ i < 16, (F.value (T i i)).isZero = false) → ∃ (t : State) (X : Claim.Mat) (f : Flags) (y : Tile),
          exec (.arrayOperationCompletion n .none) s = .next t ∧ tileIs y X ∧
          (∀ o < 16, ∀ m < 16, X (cell o (order m)).1 (cell o (order m)).2 = (Claim.solved F rm side unit opT order
            (fun i => B (cell o i).1 (cell o i).2) (fun i => X (cell o i).1 (cell o i).2) m).1) ∧
          Claim.Raised f ((List.range 256).map (fun q => (Claim.solved F rm side unit opT order
            (fun i => B (cell (q / 16) i).1 (cell (q / 16) i).2) (fun i => X (cell (q / 16) i).1 (cell (q / 16) i).2)
            (q % 16)).2)) ∧
          Claim.Completes v t n a rest
            (Claim.flagged { x with k := SMap.setD [] x.k k.toNat y, brk := 0 } k (f.setWidth 6)) (Claim.enabledFaults a f))) ∧
      (a.instr = .givqr u k e w → ∃ (t : State) (A : Nat → Claim.Mat) (f : Flags) (y q : Tile),
        let at_ (r : Nat) : Nat × Nat := rotations.getD r (0, 0)
        exec (.arrayOperationCompletion n .none) s = .next t ∧ A 0 = B ∧ tileIs y (A 120) ∧
        (∀ r < 120, A (r + 1) = Claim.givStep F rm (at_ r).1 (at_ r).2 (A r) ∧
          let g := Claim.givens F (A r) (at_ r).1 (at_ r).2
          q.el (2 * r / 16) (2 * r % 16) = BitVec.ofNat 64 g.1 ∧
          q.el ((2 * r + 1) / 16) ((2 * r + 1) % 16) = BitVec.ofNat 64 g.2.1) ∧
        (∀ j < 16, q.el 15 j = 0) ∧
        Claim.Raised f ((List.range 120).flatMap (fun r => Claim.givFlags F rm (at_ r).1 (at_ r).2 (A r))) ∧
        Claim.Completes v t n a rest (Claim.flagged { x with
          k := SMap.setD [] (SMap.setD [] x.k k.toNat y) e.toNat q } k (f.setWidth 6)) (Claim.enabledFaults a f)) ∧
      (a.instr = .rotapp u k e w inv → ∃ (t : State) (A : Nat → Claim.Mat) (f : Flags) (y : Tile),
        let rot (m : Nat) : Nat := if inv then 119 - m else m
        let p (m : Nat) : Nat := (rotations.getD (rot m) (0, 0)).1 - 1
        let el (q : Nat) : Machine.Num := Fmt.f64.value ((x.tile e).el (q / 16) (q % 16)).toNat
        let sn (m : Nat) : Machine.Num := if inv then (el (2 * rot m + 1)).negate else el (2 * rot m + 1)
        let go (m : Nat) (i j : Nat) : Nat × Flags := Claim.rotated F rm (p m) 0 (el (2 * rot m)) (sn m) (A m) i j
        exec (.arrayOperationCompletion n .none) s = .next t ∧ A 0 = B ∧ tileIs y (A 120) ∧
        (∀ m < 120, A (m + 1) = fun i j => (go m i j).1) ∧
        Claim.Raised f ((List.range 120).flatMap (fun m => (List.range 256).map (fun q => (go m (q / 16) (q % 16)).2))) ∧
        Claim.Completes v t n a rest
          (Claim.flagged { x with k := SMap.setD [] x.k k.toNat y } k (f.setWidth 6)) (Claim.enabledFaults a f))) ∧
    rotations.length = 120 ∧
    (∀ j < 15, ∀ i, j < i → i < 16 → rotations[15 * j - j * (j - 1) / 2 + (15 - i)]? = some (i, j)) ∧
    (∀ x y : Machine.Num,
      let D := Fmt.f64
      let one : Machine.Num := .fin false 1 0
      let steps (num den : Machine.Num) : Nat × Nat × Flags :=
        let τ := D.div .rne num den
        let w := D.fma .rne (D.value τ.1) (D.value τ.1) one
        let u := D.sqrt .rne (D.value w.1)
        let q := D.div .rne one (D.value u.1)
        let q' : Nat := if den.neg ∧ (D.value q.1).isNan = false then (if q.1 < 2 ^ 63 then q.1 + 2 ^ 63 else q.1 - 2 ^ 63) else q.1
        let o := D.mul .rne (D.value q') (D.value τ.1)
        (q', o.1, τ.2 ||| w.2 ||| u.2 ||| q.2 ||| o.2)
      ((x.isNan || y.isNan) = true → rotation x y = (D.canon, D.canon, if x.isSnan || y.isSnan then nvF else 0)) ∧
      ((x.isNan || y.isNan) = false → y.isZero = true → rotation x y = (0x3FF0000000000000, 0, 0)) ∧
      ((x.isNan || y.isNan) = false → y.isZero = false → x.abs.lt y.abs = false → rotation x y = steps y x) ∧
      ((x.isNan || y.isNan) = false → x.abs.lt y.abs = true →
        rotation x y = ((steps x y).2.1, (steps x y).1, (steps x y).2.2))))

/-- The multiply forms when they complete (R112, R114, R195, R196, R200, R209, R220, R223, R225, R226), where no earlier
access is still to perform and nothing is poisoned: every element of an active row becomes the element that R112 to R115
make of the row of A, the column of B and the old value, or 0 with Z; a stored element of a sparse A stands at its kept
position, every other is +0; a K4 element takes its value by R200; the other elements stay, and FPSW and KSW take the
flags. A bad pattern word, or a fault of R226, leaves the tile and raises no flag. The order of an array operation's reads
and what follows it is the model's reading (log 41).

The sum of a numerics profile (R112 to R115): special values first; then NP0 adds one product at a time, NP1 sums of 4, NP2
windowed sums of 8, NP3 and NP4 windowed sums of 8 and 16 rounded before they are added, NP6 sums of 32, rounded RNE and not flushed
whatever FPCTL.RM and FTZO are (R110, R115). A group's sum is exact, and one of a window drops what lies below the window of W bits
under the largest product. Each addition is one rounding of an exact sum, to the accumulator's format; an accumulator that has become
infinite stays. -/
def Obligations.MultiplyResults : Prop :=
  (∀ (s : State) (n : Nat) (a : ArrayOp) (rest : List ArrayOp) (u : Pfx)
      (pr a4 b4 : BitVec 4) (k : BitVec 3) (z st fi fo : Bool),
    (s.core n).aq = a :: rest → s.poison = [] → s.flaws = [] → (∀ y, a.seen = some y → y.bad = []) →
    (∀ p ∈ s.pends ⟨n, a.one⟩, a.before ≤ p.id) →
      let v := s.landCr ⟨n, a.one⟩ a.seq
      let x := v.ctx ⟨n, a.one⟩
      let m := v.asSeen a.seen
      let A := Descr.of a.da
      let B := Descr.of a.db
      let kept := (keptOf A.spk).1
      let grp := (keptOf A.spk).2
      let K := A.cols * grp / kept
      let zero : Machine.Num := .fin false 0 0
      let act (i : Nat) : Bool := a.guard.getLsbD i
      let kind : BitVec 2 := BitVec.ofNat 2 (A.spk - 1)
      let word (w : Nat) : Nat := m.readNat (m.ownKey n (A.patterns + 4 * w)) 4
      let column (i κ : Nat) : Option Nat := if A.spk = 0 then some κ else
        (((keptAt kind (groupNumber kind (word ((i * K + κ) / 32)) ((i * K + κ) % 32 / grp))).getD []).findIdx?
          (fun p => p == κ % grp)).map (fun p => κ / grp * kept + p)
      let stored (d : Descr) (r c : Nat) : Nat := m.readNat (m.regionRow n d r + c * unitBytes d.fmt) (unitBytes d.fmt)
      let fits : Prop := B.cols = 16 ∧ B.rows = K ∧ A.cols % kept = 0 ∧ A.rows = 16 ∧ A.spk < 4
      let bad : Prop := ∃ i < 16, act i = true ∧ A.spk ≠ 0 ∧ ∃ κ < K, patternBad kind (word ((i * K + κ) / 32)) = true
      let ends (r : Nat → Nat → Nat × Flags) : Prop := ∃ (t : State) (y : Tile) (f : Flags),
        exec (.arrayOperationCompletion n .none) s = .next t ∧
        (∀ i < 16, ∀ j < 16, y.el i j = if act i then BitVec.ofNat 64 (r i j).1 else (x.tile k).el i j) ∧
        Claim.Raised f ((List.range 256).map (fun q => if act (q / 16) then (r (q / 16) (q % 16)).2 else 0)) ∧
        Claim.Completes v t n a rest (Claim.flagged { x with k := SMap.setD [] x.k k.toNat y } k (f.setWidth 6))
          (Claim.enabledFaults a f)
      let old (F : Fmt) (i j : Nat) : Machine.Num := if z then zero else F.operand fi (accPattern F ((x.tile k).el i j))
      let book (d : Descr) : Codebook := x.book d.cb
      let value (d : Descr) (b : Bool) (r c : Nat) : Machine.Num :=
        let p := if b then c * d.rows + r else r * d.cols + c
        let es := m.k4Entries n ⟨d, 0, b, a.guard⟩
        let e := (m.byte (m.ownKey n (d.metaAddr + p / 32))).toNat
        let code := (m.byte (m.regionRow n d r + c / 2)).toNat / (if c % 2 = 1 then 16 else 1) % 16
        if e = 0 then zero else if e = 255 then .nan false
        else if (book d).esc.getLsbD code then
          (match spallValue es p with | some v => (Fmt.f32.value v).scale ((e : Int) - 127) | none => zero)
        else ((book d).value code).scale ((e : Int) - 127)
      (a.instr = .mma u pr k a4 b4 z st fi fo ∨ a.instr = .mmaS u pr k a4 b4 z st fi fo → fits →
        (bad → ∃ t, exec (.arrayOperationCompletion n .none) s = .next t ∧
          Claim.Completes v t n a rest x [(0x13, spDetail a4.toNat A.cb 0)]) ∧
        (¬ bad → pr ≠ 5 →
          let F := if a.af = 1 then Fmt.f64 else Fmt.f32
          let at_ (d : Descr) (r c : Nat) : Machine.Num := (fmtOfCode A.fmt).operand fi (stored d r c)
          ends (fun i j => multiplyElem pr.toNat F (Rm.of a.rm) fo (2 * (fmtOfCode A.fmt).p + 8) (old F i j)
            ((List.range K).map (fun κ => ((match column i κ with | some q => at_ A i q | none => zero), at_ B κ j))))) ∧
        (¬ bad → pr = 5 → ∃ (t : State) (y : Tile) (sf : Bool),
          let num (d : Descr) (b : Nat) : Int := if d.fmt = 8 ∧ 128 ≤ b then (b : Int) - 256 else b
          let el (i κ : Nat) : Int := match column i κ with | some q => num A (stored A i q) | none => 0
          let sum (i j : Nat) : Int := (if z then 0 else (((x.tile k).el i j).extractLsb' 0 32).toInt) +
            ((List.range K).map (fun κ => el i κ * num B (stored B κ j))).sum
          let sat32 (v : Int) : Int := max (-(2 ^ 31)) (min (2 ^ 31 - 1) v)
          exec (.arrayOperationCompletion n .none) s = .next t ∧
          (∀ i < 16, ∀ j < 16, y.el i j = if act i then
            (BitVec.ofInt 32 (if st then sat32 (sum i j) else sum i j)).setWidth 64 else (x.tile k).el i j) ∧
          (sf = true ↔ st = true ∧ ∃ i < 16, ∃ j < 16, act i = true ∧ sat32 (sum i j) ≠ sum i j) ∧
          Claim.Completes v t n a rest
            (Claim.flagged { x with k := SMap.setD [] x.k k.toNat y } k (if sf then 0x20 else 0)) [])) ∧
      (a.instr = .mmaK4 u k a4 b4 ⟨pr, z, st, fi, fo⟩ → fits →
        let ts : List K4 := [⟨A, a4.toNat, false, a.guard⟩, ⟨B, b4.toNat, true, 0⟩]
        (∀ f, m.k4Fault x n [] ts = some f → ∃ t, exec (.arrayOperationCompletion n .none) s = .next t ∧
          Claim.Completes v t n a rest x [f]) ∧
        (m.k4Fault x n [] ts = none → ends (fun i j => multiplyElem 6 Fmt.f32 .rne false 0
          (if z then zero else Fmt.f32.operand false (accPattern Fmt.f32 ((x.tile k).el i j)))
          ((List.range K).map (fun κ => ((match column i κ with | some q => value A false i q | none => zero),
            value B true κ j))))) ∧
        m.k4Fault x n [] ts = (ts.map x.k4Book ++ ts.map (m.k4ListFault n) ++ ts.map (m.k4Miss x n) ++
          ts.map (fun t => m.patternFault n t.d t.dn t.active)).findSome? id)) ∧
  (∀ F ∈ [Fmt.f32, Fmt.f64], ∀ (rm : Rm) (o : Bool) (w : Nat) (c : Machine.Num)
      (ps : List (Machine.Num × Machine.Num)),
    let ts := ps.filterMap (fun p => p.1.prod p.2)
    let all := c :: (ps.map Prod.fst ++ ps.map Prod.snd)
    let invalid : Prop := (∃ p ∈ ps, p.1.isNan = false ∧ p.2.isNan = false ∧ p.1.prod p.2 = none) ∨
      (∃ x ∈ c :: (ps.filter (fun p => !p.1.isNan && !p.2.isNan)).filterMap (fun p => p.1.prod p.2), x = .inf true) ∧
      (∃ x ∈ c :: (ps.filter (fun p => !p.1.isNan && !p.2.isNan)).filterMap (fun p => p.1.prod p.2), x = .inf false)
    let add (r : Nat × Flags) (t : Machine.Num × Flags) : Nat × Flags :=
      let q := F.flushOut o (F.fpAdd rm (F.value r.1) t.1)
      (q.1, r.2 ||| q.2 ||| t.2)
    let run (r : List (Machine.Num × Flags)) : Nat × Flags := r.foldl add ((F.roundDy .rne c.dy c.neg).1, 0)
    let grp (n i : Nat) : List Machine.Num := (ts.drop (n * i)).take n
    let rnd (G : Fmt) (h : Machine.Num × Flags) : Machine.Num × Flags :=
      let q := G.flushOut o (G.roundDy rm h.1.dy h.1.neg)
      (G.value q.1, h.2 ||| q.2)
    (∀ np, ((∃ x ∈ all, x.isNan = true) ∨ invalid) → ((multiplyElem np F rm o w c ps).1 = F.canon ∧
      ((multiplyElem np F rm o w c ps).2 = nvF ∨ (multiplyElem np F rm o w c ps).2 = 0) ∧
      ((multiplyElem np F rm o w c ps).2 = nvF ↔ (∃ x ∈ all, x.isSnan = true) ∨ invalid))) ∧
    (∀ np b, (∀ x ∈ all, x.isNan = false) → ¬ invalid → (.inf b ∈ c :: ts) → multiplyElem np F rm o w c ps = (F.inf b, 0)) ∧
    ((∀ x ∈ c :: ts, ∃ b m e, x = .fin b m e) → (∀ x ∈ all, x.isNan = false) → ¬ invalid →
      multiplyElem 0 F rm o w c ps = run (ts.map (fun t => (t, 0))) ∧
      multiplyElem 1 F rm o w c ps = run ((List.range (ts.length / 4)).map (fun i => (gsum (grp 4 i), 0))) ∧
      multiplyElem 2 F rm o w c ps = run ((List.range (ts.length / 8)).map (fun i => wsum w (grp 8 i))) ∧
      multiplyElem 3 F rm o w c ps = run ((List.range (ts.length / 8)).map (fun i => rnd Fmt.f32 (wsum w (grp 8 i)))) ∧
      multiplyElem 4 F rm o w c ps = run ((List.range (ts.length / 16)).map (fun i => rnd F (wsum w (grp 16 i)))) ∧
      multiplyElem 6 F rm o w c ps = ((List.range (ts.length / 32)).map (fun i => gsum (grp 32 i))).foldl (fun r t =>
        let q := F.fpAdd .rne (F.value r.1) t
        (q.1, r.2 ||| q.2)) ((F.roundDy .rne c.dy c.neg).1, 0)) ∧
    (∀ (a b : Machine.Num) (x y : ℝ), Claim.Stands x a → Claim.Stands y b →
      (x + y ≠ 0 → Claim.Rounded F rm (x + y) (F.fpAdd rm a b)) ∧
      (x + y = 0 → F.fpAdd rm a b = (F.zero (if a.isZero ∧ a.neg = b.neg then a.neg else rm == .rdn), 0)) ∧
      (x ≠ 0 → Claim.Rounded F rm x (F.roundDy rm a.dy a.neg)) ∧ (x = 0 → F.roundDy rm a.dy a.neg = (F.zero a.neg, 0)) ∧
      ∀ n, F.fpAdd rm (.inf n) b = (F.inf n, 0)) ∧
    (∀ (l : List Machine.Num) (v : List ℝ), List.Forall₂ Claim.Stands v l →
      Claim.Stands v.sum (gsum l) ∧ (v.sum = 0 → (gsum l).neg = (l.all (fun t => t.isZero && t.neg))) ∧
      (∀ e : ℤ, (∃ r ∈ v, (2 : ℝ) ^ e ≤ |r|) → (∀ r ∈ v, |r| < (2 : ℝ) ^ (e + 1)) →
        let u : ℝ := 2 ^ (e - w + 1)
        let cut (r : ℝ) : ℝ := (if r < 0 then -1 else 1) * (⌊|r| / u⌋ : ℤ) * u
        Claim.Stands (v.map cut).sum (wsum w l).1 ∧ (wsum w l).2 = (if ∃ r ∈ v, cut r ≠ r then nxF else 0)) ∧
      ((∀ r ∈ v, r = 0) → wsum w l = (gsum l, 0))))

/-! ### Graphs and nodes -/

/-- Launches and beads (R249, R275 to R279): one whose context has performed what it issued before leaves the queue and takes
effect. A graph record that cannot be read is counted; one that is RUNNING is left alone; one that fails a check is
rejected with its code; one that passes is RUNNING with its counts at 0 and every node armed, or READY with its NKEY and
in the ready queue of its home course where it waits for no bead. A bead to no node of a RUNNING graph is dropped and
counted; one to a node that is DONE, VOID or IDLE, or to a slot that has arrived, does nothing; else its arrival bit is
set, and an ARMED node becomes READY when none is pending. When a renewed NKEY is drawn and what a message still on its
way does are the model's readings (log 43, log 45).

The checks of a launch (R275, Table 14.3): a graph record, and then a node record, is rejected with the lowest ERRCODE
among the checks that it fails, by the offsets of Tables 14.1 and 14.2. That bits [23:18] of PERM are reserved is the model's
reading (log 45). -/
def Obligations.GraphMessages : Prop :=
  (∀ (s : State) (k : Nat) (b : Option Behind) (sp slot : Nat) (a : DWord),
    s.boot = .running → (∀ x ∈ s.cancels, x.todo = none) → s.poison = [] → s.flaws = [] →
      let u : State := { s with ksq := s.ksq.eraseIdx k }
      (s.ksq[k]? = some (.launch b sp a) → s.mayTake k (.launch b sp a) = true →
        ∃ t, exec (.graphLaunch k) s = .next t ∧ Claim.Launched u t sp a.toNat) ∧
      (s.ksq[k]? = some (.bead b sp a slot) → s.mayTake k (.bead b sp a slot) = true →
        ∃ t, exec (.beadArrival k) s = .next t ∧ Claim.Beaded u t sp a.toNat slot)) ∧
  (∀ (s : State) (space count : Nat) (plumb : Bool) (twin : BitVec 32) (bs : List Byte),
    let f (off n : Nat) : Nat := leNat bs off n
    let least (r : Option Nat) (fails : List (Nat × Prop)) : Prop :=
      (r = none ↔ ∀ p ∈ fails, ¬ p.2) ∧ ∀ e, r = some e ↔ (∃ p ∈ fails, p.1 = e ∧ p.2) ∧ ∀ p ∈ fails, p.1 < e → ¬ p.2
    (∀ off n, leNat bs off 0 = 0 ∧ leNat bs off (n + 1) = (match bs[off]? with | some b => b.toNat + 256 * leNat bs (off + 1) n | none => 0)) ∧
    least (s.graphError space bs) [
      (0x01, 2 ≤ f 2 1 ∨ ∃ b ∈ bs.drop 37, b ≠ 0),
      (0x02, 4 < f 3 1 ∨ f 8 8 % 128 ≠ 0 ∨ f 16 4 = 0 ∨ 2 ^ 24 < f 16 4 ∨ s.spaces.find (f 0 2) = none),
      (0x0B, f 0 2 ≠ space)] ∧
    (let depth := f 55 1 % 8
     let nsucc := f 54 1 % 8
     let ext (d : Nat) : Nat := f (36 + 2 * d) 2
     let perm (m : Nat) : Nat := f 48 3 / 8 ^ m % 8
     let succ (j : Nat) : Nat := f (112 + 4 * j) 4
     let place := (List.range 256).filter (fun n => (f 80 32).testBit n)
     let badCode (off : Nat) : Prop := 2 ^ 56 ≤ f off 8 ∨ f off 8 % 4 ≠ 0
     least (s.nodeError space count plumb twin bs) [
      (0x01, 128 ≤ f 5 1 ∨ 64 ≤ f 6 1 ∨ 8 ≤ f 54 1 ∨ 8 ≤ f 55 1 ∨ f 61 3 ≠ 0 ∨
        (∃ j < 4, succ j / 64 % 4 ≠ 0) ∨ ∃ j < 4, nsucc ≤ j ∧ succ j ≠ 0),
      (0x03, f 0 4 = 0xFFFFFFFF ∨ 7 < f 4 1),
      (0x04, depth = 0 ∨ 6 < depth ∨ (∃ d < 6, d < depth ∧ ext d = 0) ∨ (∃ d < 6, depth ≤ d ∧ ext d ≠ 0) ∨
        f 32 4 ≠ ((List.range 6).filter (fun d => decide (d < depth))).foldl (fun x d => x * ext d) 1),
      (0x05, (∃ d < depth, ∀ m < 6, m < depth → perm m ≠ d) ∨ ∃ m < 6, depth ≤ m ∧ perm m ≠ 0),
      (0x06, place = []),
      (0x07, badCode 8 ∨ badCode 16 ∨ badCode 24),
      (0x08, 64 < f 7 1 ∨ 4 < nsucc ∨ ∃ j < 4, j < nsucc ∧ count ≤ succ j / 256),
      (0x09, plumb = true ∧ f 5 1 / 4 % 2 = 0),
      (0x0A, ∃ n ∈ place, n % 2 = 1 ∧ twin.getLsbD (n / 8) = true),
      (0x0C, if f 5 1 / 4 % 2 = 1 then ∃ n ∈ place, (s.course (n / 8)).space ≠ some space
        else 8 * ((List.range 32).filter (fun n => (s.course n).space == some space)).length < place.length)]))

/-- Keystone's copy of a record and the record (R286, Tables 14.1, 14.2): where nothing is poisoned, a change of STATE, ARRIVE
and PENDING, BUDGET, CCNT or a field of the graph record is written at its place in the record; a write that does not
translate is lost and counted in RECERR. An entry that joins an empty deque takes the place of TAIL, which moves on; one
that is taken moves HEAD, counts modulo 2Q (R283; the counts are the model's choice, log 13; that it dates the idle period
of the course is its reading, log 45). What Keystone does where a granule of a deque is poisoned is the model's reading
(DEDUCED, log 58).

Dispatch, stealing and the end of nodes (R280, R284, R285, R292, R293, R295, R352). A dispatch takes the node out of the
ready queue, gives its courses the modes of its graph, and one entry to each core of its placement. A node whose slices
have all retired is DONE and counted, its beads set the arrival bits of its successors, and a graph with no undecided node
ends; the beads of a boundary node are withheld until its members agree, and D goes to the other members. A pre-emption
that has to wait is noted as declined, one per core, until the entry or the victim is another (the model's choice, log
44). When an event that may come does come is the model's choice (log 1, log 2).

The stop of slices (R124, R250, R293, R307 to R309): a kill takes effect at a bundle boundary after an IB bundle, or past
the deadline of 512 cycles. The slice that stops issues no more, what is on its way to registers and in the IFQ is
discarded and its arrivals are withdrawn; its memory operations and copies go on, and no byte changes with the stop. A
stopped context whose operations have completed frees; that its rings run on without it, and that this dates the idle
period of its course, are the model's readings (log 33, log 45). When an event that may come does come is the model's
choice (log 1, log 2). -/
def Obligations.NodesMove : Prop :=
  (∀ (s : State) (gi ni off w v core : Nat) (g : Graph) (n : Node) (e : DequeEntry)
      (a : BitVec 64) (x : NState),
    s.poison = [] → s.flaws = [] → s.graphs.find gi = some g → s.nodeOf gi ni = some n →
      let same (t u : State) : Prop := Claim.Same t u
      let node (t : State) (off w v : Nat) : State := Claim.field t g.space (n.addr.toNat + off) w v
      let code : Nat := match x with
        | .idle => 0 | .armed => 1 | .ready => 2 | .running => 3 | .done => 4 | .faulted => 5 | .cancelled => 6 | .void => 7
      let pending := n.pendInit - ((List.range 64).filter (fun j => a.getLsbD j)).length
      same (s.writeGraph gi off w v) (Claim.field s g.space (g.addr.toNat + off) w v) ∧
      same (s.setNodeState gi ni x) (node (s.updNode gi ni (fun n => { n with state := x })) 4 1 code) ∧
      same (s.setArrive gi ni a)
        (node (node (s.updNode gi ni (fun n => { n with arrive := a, pending := pending })) 64 8 a.toNat) 51 1 pending) ∧
      same (s.setLeft gi ni v) (node (s.updNode gi ni (fun n => { n with left := v })) 6 1 (n.retries + 8 * v)) ∧
      same (s.setCcnt gi ni v) (node (s.updNode gi ni (fun n => { n with ccnt := v })) 60 1 v) ∧
      (let k := s.core core
       let q := (k.dqlim.toNat - k.dqbase.toNat - 64) / 16
       let base := 0x20000000 + core * 0x200000 + k.dqbase.toNat
       let head := s.readNat base 4
       let entry := e.node.toNat % 2 ^ 56 + e.lidx % 256 * 2 ^ 64 + (if e.pin then 2 ^ 72 else 0) + (if e.res then 2 ^ 73 else 0)
       k.dqbase ≠ k.dqlim →
         (s.waiting core = [] → same (s.pushEntry core e)
           ({ s with declined := s.declined.filter (fun d => d.core != core || d.entry == e) }.setCells
             (cellsAt (base + 64 + 16 * (head % q)) (bytesOfNat 16 entry) ++
               cellsAt (base + 4) (bytesOfNat 4 ((head + 1) % (2 * q)))))) ∧
         same (s.popEntry core) ((s.setCells (cellsAt base (bytesOfNat 4 ((head + 1) % (2 * q))))).setCourse (core / 8)
           { s.course (core / 8) with idleSince := s.tick }))) ∧
  (∀ (s : State), s.boot = .running → (∀ x ∈ s.cancels, x.todo = none) →
    (∀ n gi ni l g x, s.nextDispatch n = some ((gi, ni), l) → s.graphs.find gi = some g → s.nodeOf gi ni = some x →
      let serve (u : State) (c : Nat) : State := u.setCourse c { u.course c with
        waking := (u.course c).waking || (u.course c).gated
        plumb := g.plumb
        twin := g.twin.getLsbD c
        mhz := if g.plumb then 3600 else (u.course c).mhz
        mv := if g.plumb then 675 else (u.course c).mv }
      let v := s.setCourse n { s.course n with ready := (s.course n).ready.filter (fun e => e != (gi, ni)) }
      let w := ((dedup (l.map (· / 8))).foldl serve v).updNode gi ni (fun y => { y with
        cores := l, unretired := l.length, startedAt := none, killing := false, attempt := y.attempt + 1 })
      exec (.dispatch n) s = .next
        ((l.mapIdx (fun i k => (i, k))).foldl (fun u p => u.pushEntry p.2 ⟨false, x.pin, p.1, x.addr⟩) w)) ∧
    (∀ n v i e, s.awake n = true → (s.course (n / 8)).plumb = false → s.idleCore n = true → s.robbery n = some (v, i, e) →
      s.flaws = [] → s.poison = [] → exec (.workStealing n) s = .next ((s.setWaiting v ((s.waiting v).eraseIdx i)).pushEntry n e)) ∧
    (∀ gi ni n g, s.graphs.find gi = some g → s.nodeOf gi ni = some n → n.state = .running → n.unretired = 0 →
      (s.groupOf gi ni = none → ∃ t h, exec (.nodeCompletion gi ni) s = .next t ∧ t.graphs.find gi = some h ∧
        (∃ m, h.nodes.find ni = some m ∧ m.state = .done ∧ m.killing = false) ∧ h.done = g.done + 1 ∧
        h.status = (if g.status = .running ∧ h.nodes.all (fun p => (p.2.state == .done && !p.2.withheld) || p.2.state == .void)
          then (if g.voided = 0 then .done else .fault) else g.status) ∧
        ∀ p ∈ n.succs, p.1 ≠ ni → p.2 < 64 → ∀ m, s.nodeOf gi p.1 = some m →
          m.state ≠ .done → m.state ≠ .void → m.state ≠ .idle → ∃ m', h.nodes.find p.1 = some m' ∧
            m'.arrive.getLsbD p.2 = true ∧ (m.state = .armed → m'.state = .armed ∨ m'.state = .ready)) ∧
      (let v := ((s.updNode gi ni (fun n => { n with killing := false })).setNodeState gi ni .done).updNode gi ni
          (fun n => { n with withheld := true })
       ∀ r, v.groupOf gi ni = some r → r.waiting = none → s.flaws = [] → s.poison = [] →
        let d := v.digest gi ni r
        exec (.nodeCompletion gi ni) s = .next { v with
          replicas := v.replicas.map (fun q =>
            if q.space = r.space ∧ q.graph = r.graph then { r with waiting := some (gi, ni), mine := d } else q)
          sent := s.sent ++ (r.members.filter (· != s.devid)).map (fun m => ⟨m, r.graph, ni, d⟩) })) ∧
    (∀ core e c sl v, s.contest core = some (e, c, sl, v) →
      let ns := match v.startedAt with | some t => (s.tick - t) * 5 / 18 | none => 0
      (v.drain = true → v.estimate - ns < s.mgmt.drainth.toNat →
        exec (.preemptionDecision core) s = .next (s.updCtx c (fun k => { k with request := .drain }))) ∧
      (¬ (v.drain = true ∧ v.estimate - ns < s.mgmt.drainth.toNat) → v.ckpt = true →
        exec (.preemptionDecision core) s = .next (s.updCtx c (fun k => { k with request := .checkpoint }))) ∧
      (¬ (v.drain = true ∧ v.estimate - ns < s.mgmt.drainth.toNat) → v.ckpt = false → (v.kill && v.idem) = true →
        exec (.preemptionDecision core) s = .next
          (((s.updNode sl.graph sl.node (fun n => { n with killing := true })).dropWaiting sl.graph sl.node).killNode
            sl.graph sl.node)) ∧
      (¬ (v.drain = true ∧ v.estimate - ns < s.mgmt.drainth.toNat) → v.ckpt = false → (v.kill && v.idem) = false →
        exec (.preemptionDecision core) s = .next { s with
          declined := s.declined.filter (fun d => d.core != core) ++ [⟨core, e, sl.graph, sl.node, sl.lidx⟩] })) ∧
    (∀ gi ni n, s.nodeOf gi ni = some n → n.state = .running → n.killing = true → n.unretired ≠ 0 →
      s.anyRuns gi ni = false →
      ((∃ core x pc, .fault gi ni n.attempt core x pc ∈ s.ksq) → exec (.preemptKillRequeue gi ni) s = .next s) ∧
      ((∀ core x pc, .fault gi ni n.attempt core x pc ∉ s.ksq) → ∃ t m, exec (.preemptKillRequeue gi ni) s = .next t ∧ t.nodeOf gi ni = some m ∧
        m.state = .ready ∧ m.killing = false ∧ m.startedAt = none ∧ (gi, ni) ∈ (t.course n.home).ready ∧
        m.nkey = Claim.keyOf s n))) ∧
  (∀ (s : State) (c : CtxId) (k : Nat), s.boot = .running →
    let stops (i : Instr) : Prop := ∃ t, exec i s = .next t ∧ (t.ctx c).request = .stopped ∧ (t.ctx c).flight = [] ∧
      (t.ctx c).ifq = [] ∧ (t.ctx c).trap = none ∧ (t.ctx c).entering = none ∧ (t.ctx c).held = [] ∧ (t.ctx c).late = [] ∧
      (t.ctx c).withheld = [] ∧ (t.ctx c).loop = LoopSt.none ∧ (t.ctx c).repcnt = 0 ∧ (t.ctx c).q = [] ∧ (t.ctx c).l = [] ∧
      (t.ctx c).arrived = [] ∧ (t.ctx c).slice = (s.ctx c).slice ∧ (t.ctx c).ops = (s.ctx c).ops ∧
      (t.ctx c).copies = (s.ctx c).copies ∧ (∀ b, t.byte b = s.byte b) ∧ ∀ d, (t.ctx c).stored d = (s.ctx c).stored d
    ((s.ctx c).request = .kill k → (s.ctx c).lastIb = true → stops (.killSlice c)) ∧
    ((s.ctx c).request = .kill k → k + 512 ≤ (s.core c.core).cycle → stops (.killDeadline c)) ∧
    ((s.ctx c).request = .stopped → s.settled c = true → Claim.Goes (.killSlice c) s ((s.updCtx c (fun x => { x with
      slice := none
      request := .none
      copies := []
      orphans := x.orphans ++ x.copies.filterMap (fun p => p.2.ring) })).setCourse (c.core / 8)
        { s.course (c.core / 8) with idleSince := s.tick })))

/-- The cancellation of a faulted node (R285, R287 to R291, R346). A fault is logged, or lost and counted where the log is
full; where its node is RUNNING in the same attempt, C1 begins: it writes the node FAULTED, and then the nodes of its
cone, in cone order, CANCELLED, each counted; behind the last one the arrival bits go, one after another. Each of these
writes is one event, and Keystone takes no other between them, which is the model's form of an atomic C1 (log 43). Once
every slice that was killed has stopped, the node and its cone are retried, if it is idempotent and has retries left, or
else become VOID (C2), and the graph may end. An abort cancels every node that is not DONE or VOID, with no retry. What a
fault of an earlier attempt does is the model's reading (log 43).

The members of a cone lie behind the faulted node (R288): every one is a successor of the node or of another member,
is neither DONE nor VOID, and stands there once. -/
def Obligations.Cancellation : Prop :=
  (∀ (s : State) (k gi ni core attempt : Nat) (x : BitVec 8) (pc : DWord) (g : Graph),
    s.boot = .running → (∀ x ∈ s.cancels, x.todo = none) → s.graphs.find gi = some g →
      let after (u : State) : State := match exec (.cancellationC1 k) u with | .next t => t | _ => u
      let left (l : List C1Write) : Option (List C1Write) := if l = [] then none else some l
      let writes (cone members : List Nat) : List C1Write := cone.map .cancel ++ members.flatMap (fun m =>
        ((g.succsOf m).filter (fun p => cone.contains p.1)).map (fun p => .clear p.1 p.2))
      (s.ksq[k]? = some (.fault gi ni attempt core x pc) →
        let m := s.mgmt
        let entry : BitVec 256 := BitVec.ofNat 256
          (g.addr.toNat + ni % 2 ^ 32 * 2 ^ 64 + x.toNat * 2 ^ 96 + core % 256 * 2 ^ 104 + pc.toNat * 2 ^ 128)
        let logged : Mgmt := if (m.fltail - m.flhead).toNat = 64
          then { m with fllost := if m.fllost = 255 then m.fllost else m.fllost + 1 }
          else { m with flog := SMap.setD 0 m.flog (m.fltail.toNat % 64) entry, fltail := m.fltail + 1 }
        let u : State := { s with ksq := s.ksq.eraseIdx k, mgmt := logged, msix := s.msix ++ [0] }
        (∀ n, s.nodeOf gi ni = some n → n.state ≠ .running ∨ n.attempt ≠ attempt → exec (.cancellationC1 k) s = .next u) ∧
        (∀ n, s.nodeOf gi ni = some n → n.state = .running → n.attempt = attempt →
          let cone := g.cone ni
          let at_ (j : Nat) : State := after^[j + 1] s
          let ws := writes cone (ni :: cone)
          exec (.cancellationC1 k) s = .next (at_ 0) ∧ (at_ 0).ksq = s.ksq.eraseIdx k ∧ (at_ 0).msix = s.msix ++ [0] ∧
          (at_ 0).mgmt.flog = logged.flog ∧ (at_ 0).mgmt.fltail = logged.fltail ∧ (at_ 0).mgmt.fllost = logged.fllost ∧
          (∀ j ≤ ws.length, (at_ j).cancels = s.cancels ++ [⟨gi, some ni, cone, left (ws.drop j)⟩] ∧
            ∀ m n, s.nodeOf gi m = some n → ∃ y, (at_ j).nodeOf gi m = some y ∧
              (m ≠ ni → m ∉ cone.take j → y.state = n.state ∧ y.ccnt = n.ccnt) ∧
              (m = ni → y.state = .faulted ∧ y.ccnt = n.ccnt + 1) ∧
              (m ∈ cone.take j → y.ccnt = n.ccnt + 1 ∧
                y.state = if n.state = .faulted then .faulted else .cancelled) ∧
              ∀ e < 64, y.arrive.getLsbD e = (n.arrive.getLsbD e && !(ws.take j).contains (.clear m e))) ∧
          Claim.Cancelled s (at_ ws.length) gi (ni :: cone) cone
            (fun m z => if m = ni ∨ z = .faulted then .faulted else .cancelled))) ∧
      (let cone := (List.range g.count).filter g.conable
       let ws := writes cone cone
       (s.abortGraph gi).cancels = s.cancels ++ [⟨gi, none, cone, left ws⟩] ∧
       Claim.Cancelled s (after^[ws.length] (s.abortGraph gi)) gi cone cone
         (fun _ z => if z = .faulted then .faulted else .cancelled)) ∧
      (∀ y, s.cancels[k]? = some y → y.graph = gi → s.allStopped y = true → y.members.Nodup →
        (∀ m ∈ y.members, (s.nodeOf gi m).isSome = true) →
        let retry : Bool := match y.node with
          | some f => (match s.nodeOf gi f with | some n => n.idem && decide (0 < n.left) | none => false)
          | none => false
        ∃ t h, exec (.cancellationC2 k) s = .next t ∧ t.cancels = s.cancels.eraseIdx k ∧ t.graphs.find gi = some h ∧
          h.retry = g.retry + (if retry then 1 else 0) ∧
          h.voided = g.voided + (if retry then 0 else (y.members.filter (fun m =>
            (s.nodeOf gi m).map Node.state != some .void)).length) ∧
          h.status = (if g.status = .running ∧ h.nodes.all (fun p => (p.2.state == .done && !p.2.withheld) || p.2.state == .void)
            then (if h.voided = 0 then .done else .fault) else g.status) ∧
          (∀ m, m ∉ y.members → t.nodeOf gi m = s.nodeOf gi m) ∧
          ∀ m ∈ y.members, ∀ n, s.nodeOf gi m = some n → ∃ n', t.nodeOf gi m = some n' ∧ n'.ccnt = n.ccnt - 1 ∧
            n'.left = (if retry = true ∧ y.node = some m then n.left - 1 else n.left) ∧
            n'.state = (if n.state = .void ∨ retry = false then .void
              else if n.ccnt = 1 then (if n.pending = 0 then .ready else .armed) else n.state) ∧
            (n.state ≠ .void → retry = true → n.ccnt = 1 → n.pending = 0 → (gi, m) ∈ (t.course n.home).ready))) ∧
  (∀ (g : Graph) (f m : Nat), m ∈ g.cone f →
    m ≠ f ∧ g.conable m = true ∧ (∃ j ∈ f :: g.cone f, ∃ slot, (m, slot) ∈ g.succsOf j) ∧ (g.cone f).Nodup)

/-- The save and the restore of a checkpoint (R293, R309 to R315). Once everything of a slice has completed, its image (the
context's, with its footprint) is written in a free slot of its space's pool, the context frees, and the slice waits in a
deque with RES 1, on its own core where it is pinned; with no free slot, or one that cannot be written, its node faults
with SAVE; with a stopped command, or a footprint that d15 does not declare in form, the slice runs on. A slice that waits
with RES 1 starts from its image: the registers are those of the image, the footprint is written back and the slot is
free; where the image cannot be read or fails a check, its node faults with RESTORE at the PC of its boundary. The rings
of a freed context run on without it, and its course's idle period is dated then, as the model reads it (log 33, log 45).
When a save comes, and what a stopped command does to it, are the model's readings (log 2, log 15).

The image of a context (R310, R312, R313, Tables 15.3 to 15.5), by the offsets of the tables, and what a restore reads
from it: the registers that the save found. What an image says of bytes that the tables reserve or that an unwind left
unpredictable is the model's reading (DEDUCED, log 15; whole lanes, log 35). -/
def Obligations.Checkpoints : Prop :=
  (∀ (s : State) (c : CtxId) (sl : Slice) (g : Graph) (n : Node) (gi ni : Nat),
    s.boot = .running → s.flaws = [] → s.poison = [] → s.graphs.find gi = some g → s.nodeOf gi ni = some n →
      let k := s.ctx c
      let q := s.core c.core
      (k.request = .saving → s.settled c = true → k.dataHere = true → k.late = [] → k.slice = some sl → sl.graph = gi →
        sl.node = ni → (∀ l < 8, (SMap.get .empty k.l l).poisoned = false) →
        let runsOn : Prop := ∃ t, exec (.imageSave c) s = .next t ∧ t.ctx c = { k with request := .none } ∧
          t.images = s.images ∧ ∀ b, t.byte b = s.byte b
        (footprint (SMap.get 0 k.d 15) q.dqbase.toNat q.dqlim.toNat = none → runsOn) ∧
        ∀ f, footprint (SMap.get 0 k.d 15) q.dqbase.toNat q.dqlim.toNat = some f →
          let bs := (k.toSave (Config.unpredictable s.tick)).image q.cycle sl.lidx f
            (s.bytes (0x20000000 + c.core * 0x200000 + f.base) f.len)
          let failed : State := s.take c ⟨k.seq, 0xF, false, k.pc, 0x23, 0, none⟩ false 0 0
          (k.hasStopped = true → runsOn) ∧
          (k.hasStopped = false → s.freeSlot g.space = none → exec (.imageSave c) s = .next failed) ∧
          (k.hasStopped = false → ∀ sp i va, s.freeSlot g.space = some (sp, i, va) →
            (s.recordKeys g.space .write va bs.length = none → exec (.imageSave c) s = .next failed) ∧
            (∀ keys, s.recordKeys g.space .write va bs.length = some keys →
              let u : State := { s.setCells (keys.zip bs) with
                spaces := s.spaces.put g.space { sp with used := sp.used ++ [i] }
                images := s.images ++ [⟨sl, k.pc, BitVec.ofNat 64 va⟩] }
              let v := (u.updCtx c (fun x => { x with
                slice := none
                request := .none
                copies := []
                orphans := x.orphans ++ x.copies.filterMap (fun p => p.2.ring) })).setCourse (c.core / 8)
                  { s.course (c.core / 8) with idleSince := s.tick }
              let home := if n.pin then c.core
                else (((List.range 8).map (fun p => 8 * n.home + p)).find? v.hasRoom).getD (8 * n.home)
              let w := v.pushEntry home ⟨true, n.pin, sl.lidx, n.addr⟩
              Claim.Goes (.imageSave c) s (w.setCourse (home / 8) { w.course (home / 8) with
                waking := (w.course (home / 8)).waking || (w.course (home / 8)).gated })))) ∧
      (∀ e i, (∀ x ∈ s.cancels, x.todo = none) → s.awake c.core = true → s.freeOn c.core = some c → (s.waiting c.core).head? = some e → e.res = true →
        s.entryNode c.core e = some (gi, ni) → s.imageOf gi ni e.lidx = some i →
        let v := ({ s with cur := c } : State).popEntry c.core
        let w := ({ v with declined := v.declined.filter (fun d => d.core != c.core) } : State).nodeStarts gi ni
        let good (bs : List Byte) : Bool := imageOk bs n.id i.slice.lidx q.dqbase.toNat q.dqlim.toNat (q.cycle + 1)
        ∃ t, exec (.sliceStart c.core) s = .next t ∧ i ∉ t.images ∧
          (∀ bs, (w.readImage c g.space i.va).2 = some bs → good bs = true →
            t.ctx c = { Ctx.ofImage bs (q.cycle + 1) with
              slice := some { i.slice with attempt := n.attempt }, orphans := k.orphans } ∧
            (let at_ := 0x20000000 + c.core * 0x200000 + leNat bs 32 4
             ∀ b, t.byte b = if at_ ≤ b ∧ b < at_ + (bs.length - 0xA440) then bs.getD (0xA440 + (b - at_)) 0 else w.byte b)) ∧
          (((w.readImage c g.space i.va).2 = none ∨ ∃ bs, (w.readImage c g.space i.va).2 = some bs ∧ good bs = false) →
            (s.pends c = [] → t.ksq = s.ksq ++ [.fault i.slice.graph i.slice.node i.slice.attempt c.core 0x22 i.pc]) ∧
            (t.ctx c).request = .stopped ∧ (t.ctx c).slice = some i.slice))) ∧
  (∀ (x : Ctx) (cycle lidx n : Nat) (f : Footprint) (data : List Byte),
    data.length = f.len → f.len < 2 ^ 32 → f.base < 2 ^ 32 → x.ifq.length ≤ 64 →
    (∀ i < 4, (SMap.get [] x.q i).length ≤ 16) →
      let bs := x.image cycle lidx f data
      let at_ (off len : Nat) : Nat := leNat bs off len
      let y := Ctx.ofImage bs n
      bs.length = 0xA440 + f.len ∧ at_ 0 4 = 0x49434742 ∧ at_ 4 4 = 1 ∧ at_ 8 4 = x.node.toNat ∧ at_ 12 4 = lidx % 256 ∧
      at_ 16 8 = 0xA440 + f.len ∧ at_ 24 4 = (crc32c (bs.drop 64)).toNat ∧ at_ 28 4 = f.len ∧ at_ 32 4 = f.base ∧
      at_ 0x40 8 = x.pc.toNat ∧ (∀ i, 1 ≤ i → i < 64 → at_ (0x40 + 8 * i) 8 = (SMap.get 0 x.s i).toNat) ∧
      (∀ i < 32, at_ (0x240 + 128 * i) 128 = (SMap.get 0 x.v i).toNat) ∧
      (∀ i, 1 ≤ i → i < 16 → at_ (0x1240 + 4 * i) 4 = (SMap.get 0 x.p i).toNat) ∧
      (∀ i < 16, at_ (0x1280 + 4 * i) 4 = (SMap.get 0 x.x i).toNat) ∧
      (∀ i < 8, ∀ e < 256, at_ (0x12C0 + 2048 * i + 8 * e) 8 = (SMap.get 0 (SMap.get [] x.k i) e).toNat) ∧
      (∀ i < 4, at_ (0x52C0 + 2240 * i) 1 = (SMap.get [] x.q i).length ∧
        ∀ j e, (SMap.get [] x.q i)[j]? = some e → at_ (0x52C0 + 2240 * i + 64 + 136 * j) 128 = e.data.toNat ∧
          at_ (0x52C0 + 2240 * i + 192 + 136 * j) 4 = e.mask.toNat) ∧
      (∀ i < 8, at_ (0x75C0 + 144 * i + 128) 4 = if SMap.get .empty x.l i = .empty then 0 else 2) ∧
      (∀ i < 16, at_ (0x7A40 + 32 * i) 32 = (SMap.get 0 x.d i).toNat) ∧
      (∀ i < 4, at_ (0x7C40 + 64 * i) 32 = (x.book i).ents.toNat ∧ at_ (0x7C60 + 64 * i) 4 = (x.book i).esc.toNat) ∧
      (∀ i < 8, ∀ e < 64, at_ (0x7D40 + 64 * i + e) 1 = ((SMap.get 0 x.bn i).extractLsb' (7 * e) 7).toNat) ∧
      at_ 0x7F40 4 = x.fpctl.toNat ∧ at_ 0x7F44 4 = x.fpsw.toNat ∧
      (∀ i < 8, at_ (0x7F48 + 4 * i) 4 = (SMap.get 0 x.ksw i).toNat) ∧ at_ 0x7F68 4 = x.own.toNat ∧
      at_ 0x7F6C 4 = x.repcnt.toNat ∧ at_ 0x7F70 4 = x.node.toNat ∧ at_ 0x7F78 8 = x.nkey.toNat ∧ at_ 0x7F80 8 = x.gf.toNat ∧
      at_ 0x7F88 16 = x.piv.toNat ∧ at_ 0x7F98 16 = x.brk.toNat ∧ at_ 0x7FC8 8 = x.depth.toNat ∧
      (∀ i < 4, at_ (0x7FD0 + 8 * i) 8 = (SMap.get 0 x.hand i).toNat) ∧
      (∀ i < 8, at_ (0x7FF0 + 4 * i) 4 = (SMap.get 0 x.held i).toNat) ∧ at_ 0x8010 4 = x.ifq.length ∧
      (∀ j e, x.ifq[j]? = some e → at_ (0x8040 + 144 * j) 128 = e.val.toNat ∧ at_ (0x80C8 + 144 * j) 4 = e.delay % 2 ^ 32) ∧
      (∀ j < f.len, bs.getD (0xA440 + j) 0 = data.getD j 0) ∧
      y.pc = x.pc ∧ y.npc = x.pc ∧ (∀ r : BitVec 6, r ≠ 0 → y.stored (.s r) = x.stored (.s r)) ∧
      (∀ r, y.stored (.v r) = x.stored (.v r)) ∧ (∀ r : BitVec 4, r ≠ 0 → y.stored (.p r) = x.stored (.p r)) ∧
      (∀ r, y.stored (.x r) = x.stored (.x r)) ∧ (∀ r, y.stored (.bn r) = x.stored (.bn r)) ∧
      (∀ k, ∀ i < 16, ∀ j < 16, (y.tile k).el i j = (x.tile k).el i j) ∧ (∀ r, y.desc r = x.desc r) ∧
      (∀ i < 4, y.book i = x.book i) ∧ y.own = x.own ∧ y.node = x.node ∧ y.nkey = x.nkey ∧ y.gf = x.gf ∧ y.piv = x.piv ∧
      y.depth = x.depth ∧ (∀ i < 4, SMap.get 0 y.hand i = SMap.get 0 x.hand i))

/-! ### The device and its host -/

/-- The agreement of replicas (R351 to R353, Table 20.1). D is the fold of the regions' blocks over multiplication by H in
GF(2^128), where no store to them is still to perform and each that has performed since the launch happens before an NDONE
of the boundary node's attempt (R245); else the reads race, and D is a free value (the model's choice, log 39). A digest
of another member is held, and decides the boundary when it is the last; DIGTIME decides it with those that have come. A
member of a strict majority copies its regions and posts the withheld beads; another one halts its graph, and one that a
strict majority outvotes waits for a majority member's regions, which its monitor writes back before the graph runs again
(the model's choice, log 68). The form of a digest on its way is the model's choice (log 10), and which group takes it the
model's reading (log 39).

Courses (R294, R339, R354, R355) and twin pairs (R347, R348, R350): gating after 20 µs idle, waking, allowed operating
points, an emergency that only lowers them. The odd core of a pair is two cycles behind and compares the signature of what
both contexts did in a cycle; where those of a cycle in which the pair did something differ, both slices stop with PAIR,
at the bundles in hand then. The model's steps stand for a time of 5/18 ns each (log 2), and when a pair's signatures can
differ is its reading (log 16).

Links (R335 to R337, R357): one erasure is rebuilt and counted, two are discarded for replay; a rail erased in 16
consecutive beats is fenced and signalled; what a retrain restores and vector 1 signals are the model's choices (log 67).
A link whose beat has been discarded 9 times (the model's reading, log 38) is down; what is in flight on a scale-up port
fails with PEER; a die-to-die link leaves the fatal state. What the links do comes from the model's outside world (log
10). -/
def Obligations.DevicePower : Prop :=
  (∀ (s : State) (i j gi ni : Nat) (d : Digest) (r : Replica) (g : Graph) (n : Node)
      (a b c : BitVec 128) (l : List (BitVec 128)) (x : Region) (xs : List Region) (bs : List Byte) (ks : List Nat),
    s.boot = .running → (∀ x ∈ s.cancels, x.todo = none) →
      let held : Replica := { r with held := r.held.put d.member d.value }
      let put (q : Replica) (u : State) : State :=
        { u with replicas := u.replicas.map (fun p => if p.space = q.space ∧ p.graph = q.graph then q else p) }
      let u : State := { s with digests := s.digests.eraseIdx i }
      (digestBlocks [] = 0 ∧ digestBlocks (l ++ [a]) = gfMul (digestBlocks l ^^^ a) 0x9E3779B97F4A7C15 ∧
        gfMul a 1 = a ∧ gfMul a (b ^^^ c) = gfMul a b ^^^ gfMul a c ∧
        (c.getLsbD 127 = false → gfMul a (c <<< 1) =
          (gfMul a c <<< 1) ^^^ (if (gfMul a c).getLsbD 127 then 0x87 else 0))) ∧
      (s.racesDigest gi ni r.since (s.regionKeys r) = true ↔ ∃ p e, s.past[p]? = some e ∧ r.since ≤ p ∧
        (e.kind = .write ∨ e.kind = .rmw) ∧ (∃ k ∈ e.keys, k ∈ s.regionKeys r) ∧
        ¬ ∃ q f z x y l, s.past[q]? = some f ∧ f.kind = .ndone gi ni ∧ s.nodeOf gi ni = some z ∧
          f.slice = some (x, y, z.attempt, l) ∧ Relation.TransGen (fun a b => edge s.past a b = true) p q) ∧
      (s.storesTo (s.regionKeys r) = false → s.racesDigest gi ni r.since (s.regionKeys r) = false →
        s.regionBytes r.space r.regions = some bs →
        s.digest gi ni r = digestBlocks ((List.range (bs.length / 16)).map (fun i => BitVec.ofNat 128 (leNat bs (16 * i) 16)))) ∧
      (s.digests.findIdx? s.mayHear = some i → s.digests[i]? = some d →
        (s.hearer d = none → exec .digestArrival s = .next u) ∧
        (s.hearer d = some r → held.complete s.devid = false → exec .digestArrival s = .next (put held u)) ∧
        (s.hearer d = some r → held.complete s.devid = true → r.waiting = some (gi, ni) →
          exec .digestArrival s = .next ((put held u).decideReplica held gi ni))) ∧
      (s.replicas.find? (fun r => r.waiting.isSome) = some r → r.waiting = some (gi, ni) →
        exec .digtimeExpiry s = .next (s.decideReplica r gi ni)) ∧
      (let all := r.mine :: (r.members.filter (· != s.devid)).filterMap (fun m => r.held.find m)
       let most (d : BitVec 128) : Prop := r.members.length < 2 * (all.filter (fun e => e == d)).length
       (r.complete s.devid = true ↔ all.length = r.members.length) ∧ (r.agrees s.devid = true ↔ most r.mine) ∧
       (r.outvoted s.devid = none ↔ ∀ d ∈ all, d ≠ r.mine → ¬ most d) ∧
       ∀ d, r.outvoted s.devid = some d → d ∈ all ∧ d ≠ r.mine ∧ most d) ∧
      (let v := (put { r with waiting := none, held := [], reload := (r.outvoted s.devid).map (fun d => (d, ni)) } s).updNode gi ni
         (fun n => { n with withheld := false })
       (r.agrees s.devid = true → s.poison = [] → s.flaws = [] →
         s.decideReplica r gi ni = (v.copyRegions r.space r.area.toNat r.regions).finishNode gi ni) ∧
       (r.agrees s.devid = false → s.graphs.find gi = some g → s.nodeOf gi ni = some n →
         let cone := (List.range g.count).filter g.conable
         let ws : List C1Write := cone.map .cancel ++ cone.flatMap (fun m =>
           ((g.succsOf m).filter (fun p => cone.contains p.1)).map (fun p => .clear p.1 p.2))
         ∃ h, (s.decideReplica r gi ni).graphs.find gi = some h ∧ h.done = g.done + 1 ∧
           (cone ≠ [] → (s.decideReplica r gi ni).cancels = s.cancels ++ [⟨gi, none, cone, some ws⟩]) ∧
           (cone = [] → h.status = .fault))) ∧
      (s.poison = [] → s.flaws = [] → s.ksRead r.space x.va.toNat x.len = some bs →
        s.recordKeys r.space .write i x.len = some ks → ∃ t, Claim.Same t (s.setCells (ks.zip bs)) ∧
          s.copyRegions r.space i (x :: xs) = t.copyRegions r.space (i + x.len) xs) ∧
      (s.digests.findIdx? s.mayHear = none → s.reloadDue = some (j, r, gi) → s.graphs.find gi = some g →
        (s.graphs.map Prod.fst).Nodup → (g.nodes.map Prod.fst).Nodup →
        let x := ({ s with reloads := s.reloads.eraseIdx j } : State).fillRegions r.space r.regions
          (((s.reloads[j]?).map (·.data)).getD [])
        let v := put { r with reload := none, since := x.past.length } x
        (∃ y z, s.reloads[j]? = some y ∧ r.reload = some z ∧ y.graph = r.graph ∧ y.member ∈ r.members ∧ y.member ≠ s.devid ∧
          digestBlocks (blocksOf y.data) = z.1 ∧ g.status = .fault) ∧
        ∃ t h, exec .digestArrival s = .next t ∧ t = v.relaunch gi ∧ t.graphs.find gi = some h ∧ h.status = .running ∧
          h.voided = 0 ∧ ∀ m n, g.nodes.find m = some n → ∃ y, h.nodes.find m = some y ∧
            (n.state ≠ .void → y = n) ∧ (n.state = .void → (y.state = .armed ∨ y.state = .ready) ∧ y.ccnt = 0 ∧
              ∀ e < 64, y.arrive.getLsbD e = g.nodes.any (fun p => p.2.state == .done && p.2.succs.contains (m, e)))) ∧
      (s.poison = [] → s.flaws = [] → s.recordKeys r.space .write x.va.toNat x.len = some ks → x.len ≤ bs.length → ∃ t,
        Claim.Same t (s.setCells (ks.zip (bs.take x.len))) ∧
          s.fillRegions r.space (x :: xs) bs = t.fillRegions r.space xs (bs.drop x.len))) ∧
  (∀ (s : State) (n mhz mv : Nat) (pc : BitVec 64),
    let co := s.course n
    (s.boot = .running → s.idleCourse n = true → co.gated = false → co.idleSince + 72000 ≤ s.tick →
      exec (.courseGating n) s = .next (s.setCourse n { co with gated := true, waking := false })) ∧
    (co.waking = true → exec (.wakeComplete n) s =
      .next (s.setCourse n { co with gated := false, waking := false, idleSince := s.tick })) ∧
    allowsPoint 3600 675 = true ∧
    (s.boot = .running → co.plumb = false → allowsPoint mhz mv = true → exec (.operatingPointChange n mhz mv) s =
      .next (s.setCourse n { co with mhz := mhz, mv := mv })) ∧
    (co.plumb = true ∨ allowsPoint mhz mv = false → exec (.operatingPointChange n mhz mv) s = .next s) ∧
    (s.boot = .running → co.plumb = false → allowsPoint (min co.mhz mhz) (min co.mv mv) = true →
      exec (.powerEmergency n mhz mv) s =
        .next (s.setCourse n { co with mhz := min co.mhz mhz, mv := min co.mv mv })) ∧
    (∀ core, ((s.course (core / 8)).twin = true → core % 2 = 0 →
        ((s.tickCore core).core core).pair = (((s.core core).ctx0, (s.core core).ctx1) :: (s.core core).pair).take 3) ∧
      ((s.core core).odd = (s.core core).pair[1]? ∧ (s.core core).compared = (s.core core).pair[2]?)) ∧
    (∀ core, (s.core core).signature = Config.commitSignature ((s.core core).comparedDid.flatMap Commit.code) ∧
      (s.core core).comparedDid = (match (s.core core).pair[1]? with
        | some (p, q) => (p.did ++ q.did).filter (fun x => match x with
          | .fpsw f => f != 0
          | .ksw _ f => f != 0
          | _ => true)
        | none => []) ∧
      ((s.core core).comparedDid = [] → exec (.pairMismatch core pc) s = .next s)) ∧
    (∀ core a b, s.boot = .running → (s.course (core / 8)).twin = true → core % 2 = 0 → (s.core core).comparedDid ≠ [] →
      (∀ one, s.pends ⟨core, one⟩ = []) →
      (s.core core).pair[2]? = some (a, b) → (a.slice.isSome = true ∧ a.pc = pc) ∨ (b.slice.isSome = true ∧ b.pc = pc) →
      let faults (one : Bool) (at_ : DWord) : List KsMsg := match (s.ctx ⟨core, one⟩).slice with
        | some sl => if (s.ctx ⟨core, one⟩).request = .stopped then []
          else [.fault sl.graph sl.node sl.attempt core 0x21 at_]
        | none => []
      ∃ t, exec (.pairMismatch core pc) s = .next t ∧ t.ksq = s.ksq ++ faults false a.pc ++ faults true b.pc ∧
        ∀ one, (s.ctx ⟨core, one⟩).slice.isSome = true → (t.ctx ⟨core, one⟩).request = .stopped)) ∧
  (∀ (s : State) (l i : Nat) (erased : BitVec 5),
    let p := s.port l
    let n := ((List.range 5).filter (fun j => (erased &&& ~~~p.fenced).getLsbD j)).length
    (l < 18 → p.up = true → ∃ t, exec (.railBeatReceive l erased) s = .next t ∧ (t.port l).up = true ∧
      (t.port l).fenced = p.fenced ∧
      (n = 0 → (t.port l).fails = 0 ∧ (t.port l).railfix = p.railfix ∧ (t.port l).replay = p.replay) ∧
      (n = 1 → p.fenced = 0 → (t.port l).fails = 0 ∧ (t.port l).railfix = p.railfix + 1 ∧ (t.port l).replay = p.replay) ∧
      (2 ≤ n ∨ (n = 1 ∧ p.fenced ≠ 0) → (t.port l).fails = p.fails + 1 ∧ (t.port l).replay = p.replay + 1) ∧
      ∀ j < 5, SMap.get 0 (t.port l).runs j = if erased.getLsbD j then SMap.get 0 p.runs j + 1 else 0) ∧
    (18 ≤ l → p.up = true → exec (.railBeatReceive l erased) s =
      .next (s.setPort l { p with fails := if erased = 0 then 0 else p.fails + 1 })) ∧
    (∀ p : Port, (p.toFence = none ↔ ∀ j < 5, ¬ (16 ≤ SMap.get 0 p.runs j ∧ p.fenced.getLsbD j = false)) ∧
      ∀ i, p.toFence = some i → i < 5 ∧ 16 ≤ SMap.get 0 p.runs i ∧ p.fenced.getLsbD i = false ∧
        ∀ j < i, ¬ (16 ≤ SMap.get 0 p.runs j ∧ p.fenced.getLsbD j = false)) ∧
    ((List.range 18).findSome? (fun l => (s.port l).toFence.map (fun i => (l, i))) = some (l, i) →
      exec .railFence s = .next { s.setPort l { p with fenced := p.fenced ||| (1#5 <<< i) } with msix := s.msix ++ [1] }) ∧
    (∀ ls, s.retrains = l :: ls → l < 18 → p.up = true → exec .railRetrain s =
      .next { s.setPort l { p with fenced := 0, runs := [] } with retrains := ls }) ∧
    ((List.range 20).find? (fun l => decide (9 ≤ (s.port l).fails) && (s.port l).up) = some l → ∃ t,
      exec .linkDown s = .next t ∧ (t.port l).up = false ∧ (t.port l).downs = p.downs + 1 ∧ (t.port l).fails = 0 ∧
      (12 ≤ l → l < 18 → t.boot = .fatal ∧ t.msix = s.msix ++ [1, 2]) ∧
      (18 ≤ l → t.boot = s.boot ∧ t.msix = s.msix ++ [1]) ∧
      (∀ c o, l < 12 → c ∈ allCtxs → (s.ctx c).ops = [o] → s.opsOnPort l c = [o] → o.isRmw = false →
        (s.ctx c).copies = [] → (s.ctx c).orphans = [] →
        (∀ d, d ≠ c → (s.ctx d).ops = [] ∧ (s.ctx d).copies = [] ∧ (s.ctx d).orphans = []) →
        (t.ctx c).ops = [] ∧ (∀ b, t.byte b = s.byte b) ∧
        (o.posted = true → (t.ctx c).failed = (s.ctx c).failed ++ [(o.oc, progress o.addr.toNat 5 0 true o.opc 0 0)]) ∧
        (o.posted = false → (t.ctx c).late = (s.ctx c).late ++
          [⟨o.seq, o.slot, o.held, o.pc, 0x0C, progress o.addr.toNat 5 0 false o.opc 0 0, some (.mem o)⟩]))))

/-- The host window (R343 to R346, Table 19.4): each access at the head of the bus takes its effect and leaves the bus. What
matches nothing is dropped, or reads as 0, and WINERR counts it; a register reads as its value; an aligned 8-byte write
changes a register that software may write, and no other; a record window moves bytes of its space. It is closed until
step 6 of the boot sequence has completed (R356): it stays open in a fatal state that comes later. The bus of pending host
accesses is the model's (log 10, log 40).

The bead port (R344): a write to a bound bead page with OP 0 posts a bead of the page's space, one with OP 1 launches a
graph of it. A bead to an ADDR that is no multiple of 128, a launch with an ADDR that is no multiple of 64 or with a SLOT,
another OP, a page that is not bound, and a write of another size or to another offset are dropped and counted; until boot is
over every write is dropped. A write waits for a C1 in progress (R289; the model's form of it, log 43). BEAD reads as 0. -/
def Obligations.HostWindow : Prop :=
  (∀ (s : State) (a : HostAccess) (r : List HostAccess) (v : DWord), s.bus = a :: r →
    let t : State := { s with bus := r }
    let counted (x : State) : State := { x with mgmt := { x.mgmt with winerr := Claim.sat x.mgmt.winerr } }
    let m := s.mgmt
    (s.windowOpen = true ↔ s.boot = .running ∨ (s.boot = .fatal ∧ s.failedStep = 0)) ∧
    (s.unmatched a = true → a.write = true → exec .unmatchedBarAccess s = .next (counted t)) ∧
    (s.unmatched a = true → a.write = false →
      exec .unmatchedBarAccess s = .next (counted { t with reply := .data (List.replicate a.size 0) })) ∧
    (s.ownRow a = some .ctrlWhileGo → exec .ctrlWriteWhileGo s = .next (counted t)) ∧
    (s.ownRow a = some .flhead →
      let v : BitVec 7 := (a.merged (m.flhead.setWidth 64)).setWidth 7
      exec .flhead s = .next (if 64 < (m.fltail - v).toNat then counted t else { t with mgmt := { m with flhead := v } })) ∧
    (s.ownRow a = some .gabort → s.boot = .running → (a.merged 0).toNat < 2 ^ 56 →
      let hit := s.graphs.find? (fun p => p.2.status == .running && p.2.space == m.gaspace.toNat && p.2.addr == a.merged 0)
      (∀ p, hit = some p → exec .gabort s = .next (t.abortGraph p.1)) ∧ (hit = none → exec .gabort s = .next t)) ∧
    (a.bar = .mgmt → a.size = 8 → s.windowOpen = true →
      let at_ (off : Nat) : Prop := a.off = off
      let reads (x : DWord) : Prop :=
        exec .managementRegisterWrite s = .next { t with reply := .data (bytesOfNat 8 x.toNat) }
      let writes (x : State) : Prop := exec .managementRegisterWrite s = .next x
      (a.write = false →
        (at_ 0x00 → reads (BitVec.ofNat 64 (Config.formCode.toNat + s.devid % 256 * 2 ^ 16 + Config.stepping.toNat * 2 ^ 32))) ∧
        (at_ 0x08 → reads (m.drainth.setWidth 64)) ∧ (at_ 0x10 → reads (m.beaddrop.setWidth 64)) ∧
        (at_ 0x18 → reads (m.winerr.setWidth 64)) ∧ (at_ 0x20 → reads (m.gaspace.setWidth 64)) ∧ (at_ 0x28 → reads 0) ∧
        (at_ 0x30 → reads (m.plumbbrk.setWidth 64)) ∧ (at_ 0x38 → reads (m.recerr.setWidth 64)) ∧
        (at_ 0x40 → reads (m.flhead.setWidth 64)) ∧
        (at_ 0x48 → reads (BitVec.ofNat 64 (m.fltail.toNat + m.fllost.toNat * 2 ^ 8))) ∧
        (∀ i < 64, ∀ w < 4, at_ (0x1000 + 32 * i + 8 * w) → reads ((SMap.get 0 m.flog i).extractLsb' (64 * w) 64)) ∧
        (∀ k < 20, let p := s.port k
          (at_ (0x4000 + 64 * k) → reads (BitVec.ofNat 64 ((if p.up then 1 else 0) + p.fenced.toNat * 2))) ∧
          (at_ (0x4008 + 64 * k) → reads (BitVec.ofNat 64 p.railfix)) ∧
          (at_ (0x4010 + 64 * k) → reads (BitVec.ofNat 64 p.replay)) ∧
          (at_ (0x4018 + 64 * k) → reads (BitVec.ofNat 64 p.downs))) ∧
        (at_ 0x8000 → reads (BitVec.ofNat 64 (s.mbox.cmd.toNat + s.mbox.status.toNat * 2 ^ 8 + s.mbox.len.toNat * 2 ^ 16 +
          (if s.mbox.phase = .idle then 0 else 2 ^ 63)))) ∧
        (∀ k < 4088, at_ (0x8040 + 8 * k) → reads (BitVec.ofNat 64
          (natOfBytes ((List.range 8).map (fun j => SMap.get 0 s.mbox.pay (8 * k + j))))))) ∧
      (a.write = true → a.data = bytesOfNat 8 v.toNat →
        (at_ 0x08 → writes { t with mgmt := { m with drainth := v.setWidth 32 } }) ∧
        (at_ 0x10 → writes { t with mgmt := { m with beaddrop := v.setWidth 32 } }) ∧
        (at_ 0x18 → writes { t with mgmt := { m with winerr := v.setWidth 32 } }) ∧
        (at_ 0x20 → writes { t with mgmt := { m with gaspace := v.setWidth 16 } }) ∧
        (at_ 0x30 → writes { t with mgmt := { m with plumbbrk := v.setWidth 32 } }) ∧
        (at_ 0x38 → writes { t with mgmt := { m with recerr := v.setWidth 32 } }) ∧
        (at_ 0x00 ∨ at_ 0x48 ∨ (∃ i < 256, at_ (0x1000 + 8 * i)) ∨ (∃ k < 20, ∃ w < 4, at_ (0x4000 + 64 * k + 8 * w)) →
          writes t) ∧
        (at_ 0x8000 → s.mbox.phase = .idle → writes { t with mbox := { s.mbox with
          cmd := v.setWidth 8
          len := v.extractLsb' 16 16
          phase := if v.getLsbD 63 then .submitted else .idle } }) ∧
        (∀ k < 4088, at_ (0x8040 + 8 * k) → ∃ x, writes { t with mbox := { s.mbox with pay := x } } ∧
          ∀ i, SMap.get 0 x i = if 8 * k ≤ i ∧ i < 8 * k + 8 then v.extractLsb' (8 * (i - 8 * k)) 8
            else SMap.get 0 s.mbox.pay i))) ∧
    (s.atAperture a = true → a.write = true → (s.windowOpen = false → exec .apertureWrite s = .next t) ∧
      (s.windowOpen = true → s.apertureKeys a .write = none → exec .apertureWrite s = .next (counted t)) ∧
      (∀ ks, s.windowOpen = true → s.apertureKeys a .write = some ks → s.poison = [] → s.flaws = [] →
        Claim.Goes .apertureWrite s (t.setCells (ks.zip a.data)))) ∧
    (s.atAperture a = true → a.write = false →
      (s.windowOpen = false → exec .apertureRead s = .next { t with reply := .unsupported }) ∧
      (s.windowOpen = true → s.apertureKeys a .read = none →
        exec .apertureRead s = .next { counted t with reply := .unsupported }) ∧
      (∀ ks, s.windowOpen = true → s.apertureKeys a .read = some ks →
        (ks.any s.unreadable = true → exec .apertureRead s = .next { counted t with reply := .unsupported }) ∧
        (ks.any s.unreadable = false → Claim.Goes .apertureRead s { t with reply := .data (ks.map s.byte) })))) ∧
  (∀ (s : State) (a : HostAccess) (r : List HostAccess) (v : DWord),
    s.bus = a :: r → a.bar = .bead →
      let t : State := { s with bus := r }
      let dropped : State := { t with mgmt := { s.mgmt with beaddrop := Claim.sat s.mgmt.beaddrop } }
      let op := v.toNat / 2 ^ 62
      let addr := v.toNat % 2 ^ 56
      let slot := v.toNat / 2 ^ 56 % 64
      let page := s.pages.find (a.off / 4096)
      let port : Prop := a.off % 4096 = 0 ∧ a.size = 8
      (s.boot = .running → a.write = true → (∃ x ∈ s.cancels, x.todo ≠ none) →
        exec .beadPortBead s = .next s ∧ exec .beadPortLaunch s = .next s) ∧
      (s.boot = .running → a.write = true → port → (∀ x ∈ s.cancels, x.todo = none) → a.data = bytesOfNat 8 v.toNat →
        (∀ sp, page = some sp → op = 0 → addr % 128 = 0 →
          ∃ u, exec .beadPortBead s = .next u ∧ Claim.Beaded t u sp addr slot) ∧
        (∀ sp, page = some sp → op = 1 → addr % 64 = 0 → slot = 0 → s.poison = [] → s.flaws = [] →
          ∃ u, exec .beadPortLaunch s = .next u ∧ Claim.Launched t u sp addr) ∧
        (op = 0 → addr % 128 ≠ 0 ∨ page = none → exec .beadPortBead s = .next dropped) ∧
        (op = 1 → addr % 64 ≠ 0 ∨ slot ≠ 0 ∨ page = none → exec .beadPortLaunch s = .next dropped) ∧
        (2 ≤ op → exec .beadPortBead s = .next dropped)) ∧
      (s.boot = .running → a.write = true → ¬ port → (∀ x ∈ s.cancels, x.todo = none) → exec .beadPortBead s = .next dropped) ∧
      (s.boot ≠ .running → a.write = true → a.launches = false → exec .beadPortBead s = .next t) ∧
      (s.boot ≠ .running → a.launches = true → exec .beadPortLaunch s = .next t) ∧
      (a.write = false → port → exec .beadPortBead s = .next { t with reply := .data (List.replicate 8 0) }))

/-- Reset and boot (R356, R357, R359, Table 20.2): a step that fails ends in the state of the table; else the mailbox is open,
every core is set up, slabs and HBM are clear and every link is up. An image is accepted where its key has the fused
digest, its signature verifies and its version is not below the fuses. How the boot ROM reads a short image (log 14), and
that die-to-die links stay up where step 5 fails (log 38), are the model's choices.

Mailbox requests (R266, R351, R356, R359 to R364): where a request is submitted, its command runs and is answered with its
STATUS: 0 when it is done, 1 refused, 2 malformed, 3 unknown, 4 exhausted; in the recovery state every command but LOAD is
refused. The request completes with GO 0, STATUS and any response. A page that is mapped is found by a walk of the tables,
one that is unmapped is not, and a change of a leaf is answered once the caches hold nothing more of the space. A pool is
refused where a 64 KiB of it is not mapped with RD and W. LOAD brings the image of the step that failed (log 14). That
OPEN starts with a new root (log 17), and that SLABWR is refused while the even core of a twin pair runs (log 16), are the
model's choices. The layout of a payload is the model's choice (log 12), and so is where an image carries its signature
(log 14); SHA-256 and LMS are taken from their standards (PRESUMED, log 55). -/
def Obligations.MailboxRequests : Prop :=
  (∀ s : State, ∃ t, exec .deviceReset s = .next t ∧
    t.tick = s.tick ∧ t.agenda = s.agenda ∧ (∀ k, k < 2 ^ 57 → t.byte k = unwritten) ∧ t.mbox.phase = .idle ∧
    t.leafIndex = s.leafIndex ∧ t.bootFail = 0 ∧ t.loaded = none ∧ t.firmware = none ∧
    (∀ image, imageVerifies image = true ↔ sha256 (Config.imageKey image) = Config.fusedDigest ∧
      lmsVerifies (Config.imageKey image) (Config.imageSignature image) (Config.imageBody image) = true ∧
      Config.rollback.toNat ≤ Config.imageVersion image) ∧
    (∀ image : List Byte, (romImage image).length = 0x10000 ∧
      ∀ i < 0x10000, (romImage image).getD i 0 = image.getD i 0) ∧
    (let m := imageVerifies (romImage Config.monitorImage)
     let f := imageVerifies Config.firmwareImage
     (s.bootFail = 1 ∨ m = false → t.boot = .recovery ∧ t.failedStep = 1) ∧
     (m = true → s.bootFail = 2 ∨ s.bootFail = 3 → t.boot = .fatal ∧ t.failedStep = s.bootFail ∧ t.msix = s.msix ++ [2]) ∧
     (m = true → s.bootFail = 4 ∨ ((s.bootFail = 0 ∨ s.bootFail = 5) ∧ f = false) → t.boot = .recovery ∧ t.failedStep = 4) ∧
     (m = true → f = true → s.bootFail = 0 ∨ s.bootFail = 5 → t.boot = .running ∧ t.failedStep = 0 ∧
       (∀ n < 256, t.core n = { Core.reset with dqbase := 0x0017F000, dqlim := 0x0017FB80 }) ∧
       (∀ n < 32, t.course n = { Course.reset with idleSince := s.tick }) ∧
       (∀ l < 20, (t.port l).up = (s.bootFail == 0 || (decide (12 ≤ l) && decide (l < 18))))))) ∧
  (∀ (s : State),
    let answered (x : State) (st : BitVec 8) : State := { x with mbox := { x.mbox with phase := .answered st [] } }
    let run (cmd : BitVec 8) : Prop := s.mbox.phase = .submitted ∧ s.mbox.cmd = cmd ∧ s.boot = .running
    let fits (n : Nat) : Prop := n ≤ s.mbox.len.toNat ∧ s.mbox.len.toNat ≤ 32704
    let id := s.pay 0 2
    let clean : Prop := s.poison = [] ∧ s.flaws = []
    (∀ p ∈ [(0x01#8, 2, Instr.openSpace), (0x02#8, 2, .closeSpace), (0x03#8, 32, .mapPage), (0x04#8, 24, .unmapPages),
        (0x05#8, 16, .bindWindow), (0x06#8, 20, .setPool), (0x07#8, 40, .replica), (0x08#8, 32, .attest), (0x0A#8, 6, .assign),
        (0x0B#8, 16, .slabwr)],
      (run p.1 → ¬ fits p.2.1 → exec p.2.2 s = .next (answered s 2)) ∧
      (s.mbox.phase = .submitted → s.mbox.cmd = p.1 → s.boot = .recovery → exec p.2.2 s = .next (answered s 1))) ∧
    (run 0x01 → fits 2 → id = 0xFFFF → exec .openSpace s = .next (answered s 2)) ∧
    (run 0x01 → fits 2 → id ≠ 0xFFFF → s.spaces.find id = none → s.spaces.length < 256 →
      let off := (s.tables + 2047) / 2048 * 2048
      exec .openSpace s = .next (answered { s with
        tables := off + 2048, spaces := s.spaces.put id ⟨0x9402F90000 + off, [], none, []⟩ } 0)) ∧
    (run 0x01 → fits 2 → id ≠ 0xFFFF → (s.spaces.find id).isSome = true ∨ 256 ≤ s.spaces.length →
      exec .openSpace s = .next (answered s 1)) ∧
    (run 0x02 → fits 2 → (s.spaces.find id).isSome = true → s.spaceRuns id = false → ∃ t, exec .closeSpace s = .next t ∧
      t.spaces.find id = none ∧ t.mbox.phase = .answered 0 [] ∧ (∀ e ∈ t.tlb, e.space ≠ id) ∧
      ∀ n < 32, (s.course n).space = some id → (t.course n).space = none) ∧
    (run 0x02 → fits 2 → (s.spaces.find id = none ∨ s.spaceRuns id = true) → exec .closeSpace s = .next (answered s 1)) ∧
    (∀ sp, run 0x03 → fits 32 → s.spaces.find id = some sp →
      let va := s.pay 8 8
      let size := s.pay 16 8
      let e := s.pay 24 8
      let u := s.putLeaf va size e levels sp.root
      (size ∉ [0x10000, 0x200000, 0x40000000] ∨ va % size ≠ 0 ∨ 2 ^ 56 < va + size → exec .mapPage s = .next (answered s 2)) ∧
      (size ∈ [0x10000, 0x200000, 0x40000000] → va % size = 0 → va + size ≤ 2 ^ 56 →
        let fine : Prop := s.leafOk (BitVec.ofNat 64 e) size = true ∧
          ∀ l ∈ sp.leaves, l.size ≠ size → l.va + l.size ≤ va ∨ va + size ≤ l.va
        (¬ fine → exec .mapPage s = .next (answered s 1)) ∧
        (fine → clean →
          (⟨va, size⟩ ∉ sp.leaves → exec .mapPage s = .next
            (answered { u with spaces := u.spaces.put id { sp with leaves := sp.leaves ++ [⟨va, size⟩] } } 0)) ∧
          (⟨va, size⟩ ∈ sp.leaves → exec .mapPage s = .next
            { u with mbox := { u.mbox with phase := .invalidating id }, invals := u.invals ++ [id] }) ∧
          (s.readNat (hbmKey (sp.root + 8 * (va / 2 ^ 48 % 256))) 8 % 2 = 0 → 0x9402F90000 ≤ sp.root → sp.root % 8 = 0 →
            sp.root + 2048 ≤ 0x9402F90000 + s.tables → s.tables ≤ 2 ^ 31 →
            (∀ k, hbmKey (0x9402F90000 + s.tables) ≤ k → k < hbmKey 0x9502F90000 → s.byte k = 0) →
            u.walkFrom va levels sp.root = .ok ⟨BitVec.ofNat 64 e, size⟩)))) ∧
    (∀ sp, run 0x04 → fits 24 → s.spaces.find id = some sp →
      let va := s.pay 8 8
      let size := s.pay 16 8
      let hit := sp.leaves.filter (fun l => rangesMeet l.va l.size va size)
      let u := hit.foldl (fun s l => s.putLeaf l.va l.size 0 levels sp.root) s
      ((∃ l ∈ hit, l.va < va ∨ va + size < l.va + l.size) → exec .unmapPages s = .next (answered s 1)) ∧
      (hit = [] → exec .unmapPages s = .next (answered s 0)) ∧
      (hit ≠ [] → (∀ l ∈ hit, va ≤ l.va ∧ l.va + l.size ≤ va + size) → clean → exec .unmapPages s = .next { u with
        spaces := u.spaces.put id { sp with leaves := sp.leaves.filter (fun l => !hit.contains l) }
        mbox := { u.mbox with phase := .invalidating id }
        invals := u.invals ++ [id] }) ∧
      (∀ l x, hit = [l] → clean → sp.root % 8 = 0 → s.walkFrom l.va levels sp.root = .ok ⟨x, l.size⟩ →
        u.walkFrom l.va levels sp.root = .error 1)) ∧
    (run 0x05 → fits 16 →
      let kind := s.pay 2 1
      let n := s.pay 4 4
      let va := s.pay 8 8
      let here : Prop := id = 0xFFFF ∨ (s.spaces.find id).isSome = true
      (1 < kind ∨ (kind = 0 ∧ 256 ≤ n) ∨ (kind = 1 ∧ (16 ≤ n ∨ va % 2 ^ 32 ≠ 0 ∨ 2 ^ 56 ≤ va)) →
        exec .bindWindow s = .next (answered s 2)) ∧
      (kind = 0 → n < 256 → here → exec .bindWindow s = .next
        (answered { s with pages := if id = 0xFFFF then s.pages.erase n else s.pages.put n id } 0)) ∧
      (kind = 1 → n < 16 → va % 2 ^ 32 = 0 → va < 2 ^ 56 → here → exec .bindWindow s = .next (answered { s with
        apertures := if id = 0xFFFF then s.apertures.erase n else s.apertures.put n (id, BitVec.ofNat 64 va) } 0)) ∧
      (kind = 0 → n < 256 → ¬ here → exec .bindWindow s = .next (answered s 1)) ∧
      (kind = 1 → n < 16 → va % 2 ^ 32 = 0 → va < 2 ^ 56 → ¬ here → exec .bindWindow s = .next (answered s 1))) ∧
    (run 0x06 → fits 20 →
      let va := s.pay 8 8
      let len := 2 ^ 21 * s.pay 16 4
      (s.spaces.find id = none → exec .setPool s = .next (answered s 1)) ∧
      ((s.spaces.find id).isSome = true → va % 2 ^ 21 ≠ 0 ∨ 2 ^ 56 < va + len → exec .setPool s = .next (answered s 2)) ∧
      ((s.spaces.find id).isSome = true → va % 2 ^ 21 = 0 → va + len ≤ 2 ^ 56 → s.mappedRw id va len = false →
        exec .setPool s = .next (answered s 1)) ∧
      (s.mappedRw id va len = true ↔ ∀ i < len / 2 ^ 16, ∃ l, s.leafOf id (va + 2 ^ 16 * i) = .ok l ∧
        l.entry.getLsbD 2 = true ∧ l.entry.getLsbD 3 = true)) ∧
    (∀ sp, run 0x06 → fits 20 → s.spaces.find id = some sp → s.pay 8 8 % 2 ^ 21 = 0 →
      s.pay 8 8 + 2 ^ 21 * s.pay 16 4 ≤ 2 ^ 56 → s.mappedRw id (s.pay 8 8) (2 ^ 21 * s.pay 16 4) = true → ∃ t x,
        exec .setPool s = .next t ∧ t.spaces.find id = some x ∧ x.pool = some (BitVec.ofNat 64 (s.pay 8 8), s.pay 16 4) ∧
        x.root = sp.root ∧ t.mbox.phase = .answered 0 []) ∧
    (run 0x07 → fits 40 →
      let r := s.payReplica
      let busy : Prop := ∃ q ∈ s.replicas, q.space = r.space ∧ q.graph = r.graph ∧ q.waiting.isSome = true
      (s.replicaOk r = true → ¬ busy → exec .replica s = .next (answered { s with
        replicas := s.replicas.filter (fun q => q.space != r.space || q.graph != r.graph) ++ [r] } 0)) ∧
      (s.replicaOk r = false ∨ busy → exec .replica s = .next (answered s 1))) ∧
    s.report = s.mbox.bytes 0 32 ++ sha256 s.monitorImage ++ sha256 s.firmwareImage ++
      bytesOfNat 2 Config.formCode.toNat ++ bytesOfNat 1 s.devid ++ bytesOfNat 1 Config.stepping.toNat ++
      bytesOfNat 4 Config.rollback.toNat ++ bytesOfNat 8 s.leafIndex ++ List.replicate 144 0 ∧ s.report.length = 256 ∧
    (run 0x08 → fits 32 → s.leafIndex < Config.attestLeaves → exec .attest s = .next { s with
      leafIndex := s.leafIndex + 1, mbox := { s.mbox with phase := .answered 0 (s.report ++ hssSign s.leafIndex s.report) } }) ∧
    (∀ n m, hssSign n m = [0, 0, 0, 1] ++ lmsSign 0 0 (n / 2 ^ 15) (lmsKey 1 (n / 2 ^ 15)) ++ lmsKey 1 (n / 2 ^ 15) ++
      lmsSign 1 (n / 2 ^ 15) (n % 2 ^ 15) m ∧ (hssSign n m).length = 5396 ∧ ∀ l t, (lmsKey l t).length = 56 ∧
        (lmsSign l t n m).length = 2668 ∧ hssKey = [0, 0, 0, 2] ++ lmsKey 0 0) ∧
    (run 0x08 → fits 32 → Config.attestLeaves ≤ s.leafIndex → exec .attest s = .next (answered s 4)) ∧
    (s.mbox.phase = .submitted → s.mbox.cmd = 0x09 →
      let image := (List.range s.mbox.len.toNat).map (fun i => SMap.get 0 s.mbox.pay (0 + i))
      (s.boot = .recovery → s.failedStep ≠ 4 → exec .loadImage s =
        .next (if imageVerifies (romImage image) then s.bootWith (some image) s.firmware else answered s 1)) ∧
      (s.boot = .recovery → s.failedStep = 4 → exec .loadImage s =
        .next (if imageVerifies image then s.bootWith s.loaded (some image) else answered s 1)) ∧
      (s.boot = .running → exec .loadImage s = .next (answered s 1)) ∧
      (s.bootFail = 0 → imageVerifies (romImage image) = true → imageVerifies s.firmwareImage = true →
        let t := s.bootWith (some image) s.firmware
        t.boot = .running ∧ t.monitorImage = romImage image ∧ t.firmwareImage = s.firmwareImage) ∧
      (s.bootFail = 0 → imageVerifies s.monitorImage = true → imageVerifies image = true →
        let t := s.bootWith s.loaded (some image)
        t.boot = .running ∧ t.firmwareImage = image ∧ t.monitorImage = s.monitorImage)) ∧
    (run 0x0A → fits 6 →
      let space : Option Nat := if s.pay 4 2 = 0xFFFF then none else some (s.pay 4 2)
      let cs := (List.range 32).filter (fun n => (s.pay 0 4).testBit n)
      let refused : Prop := (s.pay 4 2 ≠ 0xFFFF ∧ s.spaces.find (s.pay 4 2) = none) ∨
        ∃ n ∈ cs, s.courseFree n = false ∨
          ∃ old, (s.course n).space = some old ∧ some old ≠ space ∧ s.spaceRuns old = true
      (refused → exec .assign s = .next (answered s 1)) ∧
      (¬ refused → ∃ t, exec .assign s = .next t ∧ t.mbox.phase = .answered 0 [] ∧
        (∀ n ∈ cs, (t.course n).space = space) ∧ (∀ n, n ∉ cs → t.course n = s.course n) ∧
        ∀ n ∈ cs, (s.course n).space ≠ space → ∀ p < 8, let core := 8 * n + p
          (t.core core).tag = space ∧ (t.core core).sq = [] ∧ (t.core core).sqOvf = 0 ∧
          (∀ one, (t.ctx ⟨core, one⟩).k = [] ∧ (t.ctx ⟨core, one⟩).q = []) ∧
          ∀ off < 0x180000, t.byte (0x20000000 + core * 0x200000 + off) = 0)) ∧
    (run 0x0B → fits 16 →
      let core := s.pay 2 1
      let n := s.mbox.len.toNat - 16
      let even := if (s.course (core / 8)).twin then core / 2 * 2 else core
      let free : Prop := ∀ one, (s.ctx ⟨core, one⟩).slice = none ∧ (s.ctx ⟨even, one⟩).slice = none
      let odd : Prop := (s.course (core / 8)).twin = true ∧ core % 2 = 1
      let keys := (List.range n).map (fun i => 0x20000000 + core * 0x200000 + s.pay 8 4 + i)
      let fine : Prop := (s.course (core / 8)).space = some id ∧ free ∧ ¬ odd ∧ s.pay 8 4 + n ≤ 0x180000 ∧ s.pay 3 5 = 0 ∧ s.pay 12 4 = 0
      (fine → clean → Claim.Goes .slabwr s
        (answered (s.setCells (cellsAt (0x20000000 + core * 0x200000 + s.pay 8 4) (s.mbox.bytes 16 n))) 0)) ∧
      (fine → (∃ k ∈ keys, s.poisoned k = true ∧ ∃ e < 64, k / 64 * 64 + e ∉ keys) → ∃ t, exec .slabwr s = .next t ∧
        t.mbox.phase = .answered 1 []) ∧
      (¬ fine → exec .slabwr s = .next (answered s 1))) ∧
    (s.mbox.phase = .submitted → s.mbox.cmd = 0 ∨ 0x0B < s.mbox.cmd.toNat →
      (s.boot = .running → exec .unknownCmd s = .next (answered s 3)) ∧
      (s.boot = .recovery → exec .unknownCmd s = .next (answered s 1))) ∧
    (∀ sp l, s.invals = sp :: l → s.mbox.phase = .invalidating sp → exec .invalidationComplete s =
      .next (answered { s with invals := l, tlb := s.tlb.filter (fun e => e.space != sp) } 0)) ∧
    (∀ st resp, s.mbox.phase = .answered st resp → ∃ t, exec .mailboxRequestComplete s = .next t ∧ t.mbox.go = false ∧
      t.mbox.status = st ∧ (resp = [] → t.mbox.pay = s.mbox.pay) ∧
      (resp ≠ [] → ∀ i < resp.length, SMap.get 0 t.mbox.pay i = resp.getD i 0)))
end

