-- ==== Sys2Proof/Laws/SMap.lean ====
section
/-! SUPPORT. Sparse maps: what is read after a write, and that every operation keeps the canonical form. -/

namespace Sys2Proof.Machine

variable {α : Type}

theorem SMap.get_erase (d : α) (m : SMap α) (k j : Nat) : (m.erase k).get d j = if j = k then d else m.get d j := by
  induction m with
  | nil => simp [SMap.erase, SMap.get]
  | cons p m ih =>
    obtain ⟨i, v⟩ := p
    by_cases hk : k = i
    · subst hk
      by_cases hj : j = k
      · subst hj; simp [SMap.erase, ih]
      · simp [SMap.erase, SMap.get, ih, hj]
    · by_cases hj : j = i
      · subst hj; simp [SMap.erase, SMap.get, hk, Ne.symm hk]
      · simp [SMap.erase, SMap.get, hk, hj, ih]

theorem SMap.get_put (d : α) (m : SMap α) (k j : Nat) (v : α) : (m.put k v).get d j = if j = k then v else m.get d j := by
  induction m with
  | nil => rfl
  | cons p m ih =>
    obtain ⟨i, u⟩ := p
    unfold SMap.put
    by_cases hlt : k < i
    · simp [hlt, SMap.get]
    · by_cases hk : k = i
      · subst hk; by_cases hj : j = k <;> simp [SMap.get, hj]
      · by_cases hj : j = i
        · subst hj; simp [hlt, hk, SMap.get, Ne.symm hk]
        · simp [hlt, hk, hj, SMap.get, ih]

/-- A read after a write gives what was written; every other key reads as before. -/
theorem SMap.get_setD [DecidableEq α] (d : α) (m : SMap α) (k j : Nat) (v : α) :
    (SMap.setD d m k v).get d j = if j = k then v else m.get d j := by
  unfold SMap.setD
  split
  · next h => rw [SMap.get_erase, h]
  · rw [SMap.get_put]

@[simp] theorem SMap.get_setD_same [DecidableEq α] (d : α) (m : SMap α) (k : Nat) (v : α) :
    (SMap.setD d m k v).get d k = v := by rw [SMap.get_setD, if_pos rfl]

theorem SMap.get_setD_other [DecidableEq α] (d : α) (m : SMap α) {k j : Nat} (v : α) (h : j ≠ k) :
    (SMap.setD d m k v).get d j = m.get d j := by rw [SMap.get_setD, if_neg h]

/-- A second write to a key replaces the first. -/
theorem SMap.put_put (m : SMap α) (k : Nat) (v w : α) : (m.put k v).put k w = m.put k w := by
  induction m with
  | nil => simp [SMap.put]
  | cons p m ih =>
    obtain ⟨j, u⟩ := p
    simp only [SMap.put]
    by_cases h : k < j
    · simp [h, SMap.put]
    · by_cases h2 : k = j
      · simp [h2, SMap.put]
      · simp [h, h2, SMap.put, ih]

theorem SMap.setD_setD [DecidableEq α] (d : α) (m : SMap α) (k : Nat) {v w : α} (hv : v ≠ d) (hw : w ≠ d) :
    SMap.setD d (SMap.setD d m k v) k w = SMap.setD d m k w := by
  simp [SMap.setD, hv, hw, SMap.put_put]

theorem SMap.find_put (m : SMap α) (k j : Nat) (v : α) : (m.put k v).find j = if j = k then some v else m.find j := by
  induction m with
  | nil => rfl
  | cons p m ih =>
    obtain ⟨i, u⟩ := p
    unfold SMap.put
    by_cases hlt : k < i
    · simp [hlt, SMap.find]
    · by_cases hk : k = i
      · subst hk; by_cases hj : j = k <;> simp [SMap.find, hj]
      · by_cases hj : j = i
        · subst hj; simp [hlt, hk, SMap.find, Ne.symm hk]
        · simp [hlt, hk, hj, SMap.find, ih]

/-! ### The canonical form -/

/-- A bound below which no key lies. -/
theorem SMap.wfFrom_weaken [DecidableEq α] {d : α} {b : Nat} {m : SMap α} {c : Option Nat}
    (hc : ∀ a, c = some a → a ≤ b) (h : SMap.wfFrom d (some b) m = true) : SMap.wfFrom d c m = true := by
  cases m with
  | nil => rfl
  | cons p m =>
    obtain ⟨k, v⟩ := p
    simp only [SMap.wfFrom, Bool.and_eq_true, decide_eq_true_eq] at h ⊢
    refine ⟨⟨?_, h.1.2⟩, h.2⟩
    cases c with
    | none => rfl
    | some a => simpa [SMap.above] using Nat.lt_of_le_of_lt (hc a rfl) (by simpa [SMap.above] using h.1.1)

theorem SMap.above_of {b : Option Nat} {k : Nat} (h : ∀ a, b = some a → a < k) : SMap.above b k = true := by
  cases b with
  | none => rfl
  | some a => simpa [SMap.above] using h a rfl

theorem SMap.wfFrom_erase [DecidableEq α] {d : α} (k : Nat) : ∀ {m : SMap α} {b : Option Nat},
    SMap.wfFrom d b m = true → SMap.wfFrom d b (m.erase k) = true
  | [], _, h => h
  | (j, v) :: m, b, h => by
    have h' := h
    simp only [SMap.wfFrom, Bool.and_eq_true, decide_eq_true_eq] at h
    unfold SMap.erase
    split
    · refine SMap.wfFrom_weaken (b := j) ?_ (SMap.wfFrom_erase k h.2)
      rintro a rfl
      simpa using Nat.le_of_lt (by simpa [SMap.above] using h.1.1)
    · simp only [SMap.wfFrom, Bool.and_eq_true, decide_eq_true_eq]
      exact ⟨h.1, SMap.wfFrom_erase k h.2⟩

theorem SMap.wfFrom_put [DecidableEq α] {d : α} (k : Nat) (v : α) (hv : v ≠ d) : ∀ {m : SMap α} {b : Option Nat},
    (∀ a, b = some a → a < k) → SMap.wfFrom d b m = true → SMap.wfFrom d b (m.put k v) = true
  | [], b, hb, _ => by
    simp only [SMap.put, SMap.wfFrom, Bool.and_true, Bool.and_eq_true, decide_eq_true_eq]
    exact ⟨SMap.above_of hb, hv⟩
  | (j, u) :: m, b, hb, h => by
    simp only [SMap.wfFrom, Bool.and_eq_true, decide_eq_true_eq] at h
    have hbk := SMap.above_of hb
    unfold SMap.put
    split
    · next hlt =>
      simp only [SMap.wfFrom, Bool.and_eq_true, decide_eq_true_eq]
      exact ⟨⟨hbk, hv⟩, ⟨by simpa [SMap.above] using hlt, h.1.2⟩, h.2⟩
    · split
      · next hk =>
        subst hk
        simp only [SMap.wfFrom, Bool.and_eq_true, decide_eq_true_eq]
        exact ⟨⟨hbk, hv⟩, h.2⟩
      · next hlt hk =>
        simp only [SMap.wfFrom, Bool.and_eq_true, decide_eq_true_eq]
        refine ⟨h.1, SMap.wfFrom_put k v hv ?_ h.2⟩
        rintro a ⟨⟩
        omega

theorem SMap.wf_erase [DecidableEq α] {d : α} {m : SMap α} (k : Nat) (h : SMap.wf d m = true) : SMap.wf d (m.erase k) = true :=
  SMap.wfFrom_erase k h

/-- A write keeps the canonical form. -/
theorem SMap.wf_setD [DecidableEq α] {d : α} {m : SMap α} (k : Nat) (v : α) (h : SMap.wf d m = true) :
    SMap.wf d (SMap.setD d m k v) = true := by
  unfold SMap.setD
  split
  · exact SMap.wf_erase k h
  · next hv => exact SMap.wfFrom_put k v hv (fun _ h => nomatch h) h

theorem SMap.wfFrom_filter [DecidableEq α] {d : α} (p : Nat × α → Bool) : ∀ {m : SMap α} {b : Option Nat},
    SMap.wfFrom d b m = true → SMap.wfFrom d b (m.filter p) = true
  | [], _, h => h
  | (j, v) :: m, b, h => by
    simp only [SMap.wfFrom, Bool.and_eq_true, decide_eq_true_eq] at h
    rw [List.filter_cons]
    split
    · simp only [SMap.wfFrom, Bool.and_eq_true, decide_eq_true_eq]
      exact ⟨h.1, SMap.wfFrom_filter p h.2⟩
    · refine SMap.wfFrom_weaken (b := j) ?_ (SMap.wfFrom_filter p h.2)
      rintro a rfl
      simpa using Nat.le_of_lt (by simpa [SMap.above] using h.1.1)

/-- Taking entries out keeps the canonical form. -/
theorem SMap.wf_filter [DecidableEq α] {d : α} {m : SMap α} (p : Nat × α → Bool) (h : SMap.wf d m = true) :
    SMap.wf d (m.filter p) = true := SMap.wfFrom_filter p h

/-- In the canonical form equal contents are equal lists: a listed key reads as its value. -/
theorem SMap.find_of_lt [DecidableEq α] {d : α} : ∀ {m : SMap α} {b : Nat} (j : Nat), j ≤ b →
    SMap.wfFrom d (some b) m = true → m.get d j = d
  | [], _, _, _, _ => rfl
  | (k, v) :: m, b, j, hj, h => by
    simp only [SMap.wfFrom, Bool.and_eq_true, decide_eq_true_eq] at h
    have hb : b < k := by simpa [SMap.above] using h.1.1
    rw [SMap.get, if_neg (by omega)]
    exact SMap.find_of_lt j (by omega) h.2

end Sys2Proof.Machine
end

