-- ==== Sys2Proof/Laws/State.lean ====
section
/-! SUPPORT. The named updates of the state: what each leaves as it was, field by field, and what is read after it. -/

namespace Sys2Proof.Machine

/-! ### Fields that an update leaves -/

@[simp] theorem State.setByte_cores (s : State) (k : Nat) (b : Byte) : (s.setByte k b).cores = s.cores := rfl
@[simp] theorem State.setByte_courses (s : State) (k : Nat) (b : Byte) : (s.setByte k b).courses = s.courses := rfl
@[simp] theorem State.setByte_poison (s : State) (k : Nat) (b : Byte) : (s.setByte k b).poison = s.poison := rfl
@[simp] theorem State.setByte_flaws (s : State) (k : Nat) (b : Byte) : (s.setByte k b).flaws = s.flaws := rfl
@[simp] theorem State.setByte_seed (s : State) (k : Nat) (b : Byte) : (s.setByte k b).seed = s.seed := rfl
@[simp] theorem State.setByte_spaces (s : State) (k : Nat) (b : Byte) : (s.setByte k b).spaces = s.spaces := rfl
@[simp] theorem State.setByte_tlb (s : State) (k : Nat) (b : Byte) : (s.setByte k b).tlb = s.tlb := rfl
@[simp] theorem State.setByte_tables (s : State) (k : Nat) (b : Byte) : (s.setByte k b).tables = s.tables := rfl
@[simp] theorem State.setByte_pages (s : State) (k : Nat) (b : Byte) : (s.setByte k b).pages = s.pages := rfl
@[simp] theorem State.setByte_apertures (s : State) (k : Nat) (b : Byte) : (s.setByte k b).apertures = s.apertures := rfl
@[simp] theorem State.setByte_graphs (s : State) (k : Nat) (b : Byte) : (s.setByte k b).graphs = s.graphs := rfl
@[simp] theorem State.setByte_launches (s : State) (k : Nat) (b : Byte) : (s.setByte k b).launches = s.launches := rfl
@[simp] theorem State.setByte_ksq (s : State) (k : Nat) (b : Byte) : (s.setByte k b).ksq = s.ksq := rfl
@[simp] theorem State.setByte_cancels (s : State) (k : Nat) (b : Byte) : (s.setByte k b).cancels = s.cancels := rfl
@[simp] theorem State.setByte_images (s : State) (k : Nat) (b : Byte) : (s.setByte k b).images = s.images := rfl
@[simp] theorem State.setByte_declined (s : State) (k : Nat) (b : Byte) : (s.setByte k b).declined = s.declined := rfl
@[simp] theorem State.setByte_mgmt (s : State) (k : Nat) (b : Byte) : (s.setByte k b).mgmt = s.mgmt := rfl
@[simp] theorem State.setByte_mbox (s : State) (k : Nat) (b : Byte) : (s.setByte k b).mbox = s.mbox := rfl
@[simp] theorem State.setByte_invals (s : State) (k : Nat) (b : Byte) : (s.setByte k b).invals = s.invals := rfl
@[simp] theorem State.setByte_ports (s : State) (k : Nat) (b : Byte) : (s.setByte k b).ports = s.ports := rfl
@[simp] theorem State.setByte_retrains (s : State) (k : Nat) (b : Byte) : (s.setByte k b).retrains = s.retrains := rfl
@[simp] theorem State.setByte_routes (s : State) (k : Nat) (b : Byte) : (s.setByte k b).routes = s.routes := rfl
@[simp] theorem State.setByte_devid (s : State) (k : Nat) (b : Byte) : (s.setByte k b).devid = s.devid := rfl
@[simp] theorem State.setByte_replicas (s : State) (k : Nat) (b : Byte) : (s.setByte k b).replicas = s.replicas := rfl
@[simp] theorem State.setByte_digests (s : State) (k : Nat) (b : Byte) : (s.setByte k b).digests = s.digests := rfl
@[simp] theorem State.setByte_sent (s : State) (k : Nat) (b : Byte) : (s.setByte k b).sent = s.sent := rfl
@[simp] theorem State.setByte_reloads (s : State) (k : Nat) (b : Byte) : (s.setByte k b).reloads = s.reloads := rfl
@[simp] theorem State.setByte_bus (s : State) (k : Nat) (b : Byte) : (s.setByte k b).bus = s.bus := rfl
@[simp] theorem State.setByte_reply (s : State) (k : Nat) (b : Byte) : (s.setByte k b).reply = s.reply := rfl
@[simp] theorem State.setByte_boot (s : State) (k : Nat) (b : Byte) : (s.setByte k b).boot = s.boot := rfl
@[simp] theorem State.setByte_bootFail (s : State) (k : Nat) (b : Byte) : (s.setByte k b).bootFail = s.bootFail := rfl
@[simp] theorem State.setByte_failedStep (s : State) (k : Nat) (b : Byte) : (s.setByte k b).failedStep = s.failedStep := rfl
@[simp] theorem State.setByte_loaded (s : State) (k : Nat) (b : Byte) : (s.setByte k b).loaded = s.loaded := rfl
@[simp] theorem State.setByte_firmware (s : State) (k : Nat) (b : Byte) : (s.setByte k b).firmware = s.firmware := rfl
@[simp] theorem State.setByte_msix (s : State) (k : Nat) (b : Byte) : (s.setByte k b).msix = s.msix := rfl
@[simp] theorem State.setByte_leafIndex (s : State) (k : Nat) (b : Byte) : (s.setByte k b).leafIndex = s.leafIndex := rfl
@[simp] theorem State.setByte_cur (s : State) (k : Nat) (b : Byte) : (s.setByte k b).cur = s.cur := rfl
@[simp] theorem State.setByte_slot (s : State) (k : Nat) (b : Byte) : (s.setByte k b).slot = s.slot := rfl
@[simp] theorem State.setByte_heldNow (s : State) (k : Nat) (b : Byte) : (s.setByte k b).heldNow = s.heldNow := rfl
@[simp] theorem State.setByte_granted (s : State) (k : Nat) (b : Byte) : (s.setByte k b).granted = s.granted := rfl
@[simp] theorem State.setByte_stall (s : State) (k : Nat) (b : Byte) : (s.setByte k b).stall = s.stall := rfl
@[simp] theorem State.setByte_tick (s : State) (k : Nat) (b : Byte) : (s.setByte k b).tick = s.tick := rfl
@[simp] theorem State.setByte_log (s : State) (k : Nat) (b : Byte) : (s.setByte k b).log = s.log := rfl
@[simp] theorem State.setByte_agenda (s : State) (k : Nat) (b : Byte) : (s.setByte k b).agenda = s.agenda := rfl
@[simp] theorem State.setByte_past (s : State) (k : Nat) (b : Byte) : (s.setByte k b).past = s.past := rfl

@[simp] theorem State.setCourse_cores (s : State) (n : Nat) (c : Course) : (s.setCourse n c).cores = s.cores := rfl
@[simp] theorem State.setCourse_mem (s : State) (n : Nat) (c : Course) : (s.setCourse n c).mem = s.mem := rfl
@[simp] theorem State.setCourse_poison (s : State) (n : Nat) (c : Course) : (s.setCourse n c).poison = s.poison := rfl
@[simp] theorem State.setCourse_flaws (s : State) (n : Nat) (c : Course) : (s.setCourse n c).flaws = s.flaws := rfl
@[simp] theorem State.setCourse_seed (s : State) (n : Nat) (c : Course) : (s.setCourse n c).seed = s.seed := rfl
@[simp] theorem State.setCourse_spaces (s : State) (n : Nat) (c : Course) : (s.setCourse n c).spaces = s.spaces := rfl
@[simp] theorem State.setCourse_tlb (s : State) (n : Nat) (c : Course) : (s.setCourse n c).tlb = s.tlb := rfl
@[simp] theorem State.setCourse_tables (s : State) (n : Nat) (c : Course) : (s.setCourse n c).tables = s.tables := rfl
@[simp] theorem State.setCourse_pages (s : State) (n : Nat) (c : Course) : (s.setCourse n c).pages = s.pages := rfl
@[simp] theorem State.setCourse_apertures (s : State) (n : Nat) (c : Course) : (s.setCourse n c).apertures = s.apertures := rfl
@[simp] theorem State.setCourse_graphs (s : State) (n : Nat) (c : Course) : (s.setCourse n c).graphs = s.graphs := rfl
@[simp] theorem State.setCourse_launches (s : State) (n : Nat) (c : Course) : (s.setCourse n c).launches = s.launches := rfl
@[simp] theorem State.setCourse_ksq (s : State) (n : Nat) (c : Course) : (s.setCourse n c).ksq = s.ksq := rfl
@[simp] theorem State.setCourse_cancels (s : State) (n : Nat) (c : Course) : (s.setCourse n c).cancels = s.cancels := rfl
@[simp] theorem State.setCourse_images (s : State) (n : Nat) (c : Course) : (s.setCourse n c).images = s.images := rfl
@[simp] theorem State.setCourse_declined (s : State) (n : Nat) (c : Course) : (s.setCourse n c).declined = s.declined := rfl
@[simp] theorem State.setCourse_mgmt (s : State) (n : Nat) (c : Course) : (s.setCourse n c).mgmt = s.mgmt := rfl
@[simp] theorem State.setCourse_mbox (s : State) (n : Nat) (c : Course) : (s.setCourse n c).mbox = s.mbox := rfl
@[simp] theorem State.setCourse_invals (s : State) (n : Nat) (c : Course) : (s.setCourse n c).invals = s.invals := rfl
@[simp] theorem State.setCourse_ports (s : State) (n : Nat) (c : Course) : (s.setCourse n c).ports = s.ports := rfl
@[simp] theorem State.setCourse_retrains (s : State) (n : Nat) (c : Course) : (s.setCourse n c).retrains = s.retrains := rfl
@[simp] theorem State.setCourse_routes (s : State) (n : Nat) (c : Course) : (s.setCourse n c).routes = s.routes := rfl
@[simp] theorem State.setCourse_devid (s : State) (n : Nat) (c : Course) : (s.setCourse n c).devid = s.devid := rfl
@[simp] theorem State.setCourse_replicas (s : State) (n : Nat) (c : Course) : (s.setCourse n c).replicas = s.replicas := rfl
@[simp] theorem State.setCourse_digests (s : State) (n : Nat) (c : Course) : (s.setCourse n c).digests = s.digests := rfl
@[simp] theorem State.setCourse_sent (s : State) (n : Nat) (c : Course) : (s.setCourse n c).sent = s.sent := rfl
@[simp] theorem State.setCourse_reloads (s : State) (n : Nat) (c : Course) : (s.setCourse n c).reloads = s.reloads := rfl
@[simp] theorem State.setCourse_bus (s : State) (n : Nat) (c : Course) : (s.setCourse n c).bus = s.bus := rfl
@[simp] theorem State.setCourse_reply (s : State) (n : Nat) (c : Course) : (s.setCourse n c).reply = s.reply := rfl
@[simp] theorem State.setCourse_boot (s : State) (n : Nat) (c : Course) : (s.setCourse n c).boot = s.boot := rfl
@[simp] theorem State.setCourse_bootFail (s : State) (n : Nat) (c : Course) : (s.setCourse n c).bootFail = s.bootFail := rfl
@[simp] theorem State.setCourse_failedStep (s : State) (n : Nat) (c : Course) : (s.setCourse n c).failedStep = s.failedStep := rfl
@[simp] theorem State.setCourse_loaded (s : State) (n : Nat) (c : Course) : (s.setCourse n c).loaded = s.loaded := rfl
@[simp] theorem State.setCourse_firmware (s : State) (n : Nat) (c : Course) : (s.setCourse n c).firmware = s.firmware := rfl
@[simp] theorem State.setCourse_msix (s : State) (n : Nat) (c : Course) : (s.setCourse n c).msix = s.msix := rfl
@[simp] theorem State.setCourse_leafIndex (s : State) (n : Nat) (c : Course) : (s.setCourse n c).leafIndex = s.leafIndex := rfl
@[simp] theorem State.setCourse_cur (s : State) (n : Nat) (c : Course) : (s.setCourse n c).cur = s.cur := rfl
@[simp] theorem State.setCourse_slot (s : State) (n : Nat) (c : Course) : (s.setCourse n c).slot = s.slot := rfl
@[simp] theorem State.setCourse_heldNow (s : State) (n : Nat) (c : Course) : (s.setCourse n c).heldNow = s.heldNow := rfl
@[simp] theorem State.setCourse_granted (s : State) (n : Nat) (c : Course) : (s.setCourse n c).granted = s.granted := rfl
@[simp] theorem State.setCourse_stall (s : State) (n : Nat) (c : Course) : (s.setCourse n c).stall = s.stall := rfl
@[simp] theorem State.setCourse_tick (s : State) (n : Nat) (c : Course) : (s.setCourse n c).tick = s.tick := rfl
@[simp] theorem State.setCourse_log (s : State) (n : Nat) (c : Course) : (s.setCourse n c).log = s.log := rfl
@[simp] theorem State.setCourse_agenda (s : State) (n : Nat) (c : Course) : (s.setCourse n c).agenda = s.agenda := rfl
@[simp] theorem State.setCourse_past (s : State) (n : Nat) (c : Course) : (s.setCourse n c).past = s.past := rfl

@[simp] theorem State.setPort_cores (s : State) (n : Nat) (p : Port) : (s.setPort n p).cores = s.cores := rfl
@[simp] theorem State.setPort_courses (s : State) (n : Nat) (p : Port) : (s.setPort n p).courses = s.courses := rfl
@[simp] theorem State.setPort_mem (s : State) (n : Nat) (p : Port) : (s.setPort n p).mem = s.mem := rfl
@[simp] theorem State.setPort_poison (s : State) (n : Nat) (p : Port) : (s.setPort n p).poison = s.poison := rfl
@[simp] theorem State.setPort_flaws (s : State) (n : Nat) (p : Port) : (s.setPort n p).flaws = s.flaws := rfl
@[simp] theorem State.setPort_seed (s : State) (n : Nat) (p : Port) : (s.setPort n p).seed = s.seed := rfl
@[simp] theorem State.setPort_spaces (s : State) (n : Nat) (p : Port) : (s.setPort n p).spaces = s.spaces := rfl
@[simp] theorem State.setPort_tlb (s : State) (n : Nat) (p : Port) : (s.setPort n p).tlb = s.tlb := rfl
@[simp] theorem State.setPort_tables (s : State) (n : Nat) (p : Port) : (s.setPort n p).tables = s.tables := rfl
@[simp] theorem State.setPort_pages (s : State) (n : Nat) (p : Port) : (s.setPort n p).pages = s.pages := rfl
@[simp] theorem State.setPort_apertures (s : State) (n : Nat) (p : Port) : (s.setPort n p).apertures = s.apertures := rfl
@[simp] theorem State.setPort_graphs (s : State) (n : Nat) (p : Port) : (s.setPort n p).graphs = s.graphs := rfl
@[simp] theorem State.setPort_launches (s : State) (n : Nat) (p : Port) : (s.setPort n p).launches = s.launches := rfl
@[simp] theorem State.setPort_ksq (s : State) (n : Nat) (p : Port) : (s.setPort n p).ksq = s.ksq := rfl
@[simp] theorem State.setPort_cancels (s : State) (n : Nat) (p : Port) : (s.setPort n p).cancels = s.cancels := rfl
@[simp] theorem State.setPort_images (s : State) (n : Nat) (p : Port) : (s.setPort n p).images = s.images := rfl
@[simp] theorem State.setPort_declined (s : State) (n : Nat) (p : Port) : (s.setPort n p).declined = s.declined := rfl
@[simp] theorem State.setPort_mgmt (s : State) (n : Nat) (p : Port) : (s.setPort n p).mgmt = s.mgmt := rfl
@[simp] theorem State.setPort_mbox (s : State) (n : Nat) (p : Port) : (s.setPort n p).mbox = s.mbox := rfl
@[simp] theorem State.setPort_invals (s : State) (n : Nat) (p : Port) : (s.setPort n p).invals = s.invals := rfl
@[simp] theorem State.setPort_retrains (s : State) (n : Nat) (p : Port) : (s.setPort n p).retrains = s.retrains := rfl
@[simp] theorem State.setPort_routes (s : State) (n : Nat) (p : Port) : (s.setPort n p).routes = s.routes := rfl
@[simp] theorem State.setPort_devid (s : State) (n : Nat) (p : Port) : (s.setPort n p).devid = s.devid := rfl
@[simp] theorem State.setPort_replicas (s : State) (n : Nat) (p : Port) : (s.setPort n p).replicas = s.replicas := rfl
@[simp] theorem State.setPort_digests (s : State) (n : Nat) (p : Port) : (s.setPort n p).digests = s.digests := rfl
@[simp] theorem State.setPort_sent (s : State) (n : Nat) (p : Port) : (s.setPort n p).sent = s.sent := rfl
@[simp] theorem State.setPort_reloads (s : State) (n : Nat) (p : Port) : (s.setPort n p).reloads = s.reloads := rfl
@[simp] theorem State.setPort_bus (s : State) (n : Nat) (p : Port) : (s.setPort n p).bus = s.bus := rfl
@[simp] theorem State.setPort_reply (s : State) (n : Nat) (p : Port) : (s.setPort n p).reply = s.reply := rfl
@[simp] theorem State.setPort_boot (s : State) (n : Nat) (p : Port) : (s.setPort n p).boot = s.boot := rfl
@[simp] theorem State.setPort_bootFail (s : State) (n : Nat) (p : Port) : (s.setPort n p).bootFail = s.bootFail := rfl
@[simp] theorem State.setPort_failedStep (s : State) (n : Nat) (p : Port) : (s.setPort n p).failedStep = s.failedStep := rfl
@[simp] theorem State.setPort_loaded (s : State) (n : Nat) (p : Port) : (s.setPort n p).loaded = s.loaded := rfl
@[simp] theorem State.setPort_firmware (s : State) (n : Nat) (p : Port) : (s.setPort n p).firmware = s.firmware := rfl
@[simp] theorem State.setPort_msix (s : State) (n : Nat) (p : Port) : (s.setPort n p).msix = s.msix := rfl
@[simp] theorem State.setPort_leafIndex (s : State) (n : Nat) (p : Port) : (s.setPort n p).leafIndex = s.leafIndex := rfl
@[simp] theorem State.setPort_cur (s : State) (n : Nat) (p : Port) : (s.setPort n p).cur = s.cur := rfl
@[simp] theorem State.setPort_slot (s : State) (n : Nat) (p : Port) : (s.setPort n p).slot = s.slot := rfl
@[simp] theorem State.setPort_heldNow (s : State) (n : Nat) (p : Port) : (s.setPort n p).heldNow = s.heldNow := rfl
@[simp] theorem State.setPort_granted (s : State) (n : Nat) (p : Port) : (s.setPort n p).granted = s.granted := rfl
@[simp] theorem State.setPort_stall (s : State) (n : Nat) (p : Port) : (s.setPort n p).stall = s.stall := rfl
@[simp] theorem State.setPort_tick (s : State) (n : Nat) (p : Port) : (s.setPort n p).tick = s.tick := rfl
@[simp] theorem State.setPort_log (s : State) (n : Nat) (p : Port) : (s.setPort n p).log = s.log := rfl
@[simp] theorem State.setPort_agenda (s : State) (n : Nat) (p : Port) : (s.setPort n p).agenda = s.agenda := rfl
@[simp] theorem State.setPort_past (s : State) (n : Nat) (p : Port) : (s.setPort n p).past = s.past := rfl

@[simp] theorem State.setCore_courses (s : State) (n : Nat) (k : Core) : (s.setCore n k).courses = s.courses := rfl
@[simp] theorem State.setCore_mem (s : State) (n : Nat) (k : Core) : (s.setCore n k).mem = s.mem := rfl
@[simp] theorem State.setCore_poison (s : State) (n : Nat) (k : Core) : (s.setCore n k).poison = s.poison := rfl
@[simp] theorem State.setCore_flaws (s : State) (n : Nat) (k : Core) : (s.setCore n k).flaws = s.flaws := rfl
@[simp] theorem State.setCore_seed (s : State) (n : Nat) (k : Core) : (s.setCore n k).seed = s.seed := rfl
@[simp] theorem State.setCore_spaces (s : State) (n : Nat) (k : Core) : (s.setCore n k).spaces = s.spaces := rfl
@[simp] theorem State.setCore_tlb (s : State) (n : Nat) (k : Core) : (s.setCore n k).tlb = s.tlb := rfl
@[simp] theorem State.setCore_tables (s : State) (n : Nat) (k : Core) : (s.setCore n k).tables = s.tables := rfl
@[simp] theorem State.setCore_pages (s : State) (n : Nat) (k : Core) : (s.setCore n k).pages = s.pages := rfl
@[simp] theorem State.setCore_apertures (s : State) (n : Nat) (k : Core) : (s.setCore n k).apertures = s.apertures := rfl
@[simp] theorem State.setCore_graphs (s : State) (n : Nat) (k : Core) : (s.setCore n k).graphs = s.graphs := rfl
@[simp] theorem State.setCore_launches (s : State) (n : Nat) (k : Core) : (s.setCore n k).launches = s.launches := rfl
@[simp] theorem State.setCore_ksq (s : State) (n : Nat) (k : Core) : (s.setCore n k).ksq = s.ksq := rfl
@[simp] theorem State.setCore_cancels (s : State) (n : Nat) (k : Core) : (s.setCore n k).cancels = s.cancels := rfl
@[simp] theorem State.setCore_images (s : State) (n : Nat) (k : Core) : (s.setCore n k).images = s.images := rfl
@[simp] theorem State.setCore_declined (s : State) (n : Nat) (k : Core) : (s.setCore n k).declined = s.declined := rfl
@[simp] theorem State.setCore_mgmt (s : State) (n : Nat) (k : Core) : (s.setCore n k).mgmt = s.mgmt := rfl
@[simp] theorem State.setCore_mbox (s : State) (n : Nat) (k : Core) : (s.setCore n k).mbox = s.mbox := rfl
@[simp] theorem State.setCore_invals (s : State) (n : Nat) (k : Core) : (s.setCore n k).invals = s.invals := rfl
@[simp] theorem State.setCore_ports (s : State) (n : Nat) (k : Core) : (s.setCore n k).ports = s.ports := rfl
@[simp] theorem State.setCore_retrains (s : State) (n : Nat) (k : Core) : (s.setCore n k).retrains = s.retrains := rfl
@[simp] theorem State.setCore_routes (s : State) (n : Nat) (k : Core) : (s.setCore n k).routes = s.routes := rfl
@[simp] theorem State.setCore_devid (s : State) (n : Nat) (k : Core) : (s.setCore n k).devid = s.devid := rfl
@[simp] theorem State.setCore_replicas (s : State) (n : Nat) (k : Core) : (s.setCore n k).replicas = s.replicas := rfl
@[simp] theorem State.setCore_digests (s : State) (n : Nat) (k : Core) : (s.setCore n k).digests = s.digests := rfl
@[simp] theorem State.setCore_sent (s : State) (n : Nat) (k : Core) : (s.setCore n k).sent = s.sent := rfl
@[simp] theorem State.setCore_reloads (s : State) (n : Nat) (k : Core) : (s.setCore n k).reloads = s.reloads := rfl
@[simp] theorem State.setCore_bus (s : State) (n : Nat) (k : Core) : (s.setCore n k).bus = s.bus := rfl
@[simp] theorem State.setCore_reply (s : State) (n : Nat) (k : Core) : (s.setCore n k).reply = s.reply := rfl
@[simp] theorem State.setCore_boot (s : State) (n : Nat) (k : Core) : (s.setCore n k).boot = s.boot := rfl
@[simp] theorem State.setCore_bootFail (s : State) (n : Nat) (k : Core) : (s.setCore n k).bootFail = s.bootFail := rfl
@[simp] theorem State.setCore_failedStep (s : State) (n : Nat) (k : Core) : (s.setCore n k).failedStep = s.failedStep := rfl
@[simp] theorem State.setCore_loaded (s : State) (n : Nat) (k : Core) : (s.setCore n k).loaded = s.loaded := rfl
@[simp] theorem State.setCore_firmware (s : State) (n : Nat) (k : Core) : (s.setCore n k).firmware = s.firmware := rfl
@[simp] theorem State.setCore_msix (s : State) (n : Nat) (k : Core) : (s.setCore n k).msix = s.msix := rfl
@[simp] theorem State.setCore_leafIndex (s : State) (n : Nat) (k : Core) : (s.setCore n k).leafIndex = s.leafIndex := rfl
@[simp] theorem State.setCore_cur (s : State) (n : Nat) (k : Core) : (s.setCore n k).cur = s.cur := rfl
@[simp] theorem State.setCore_slot (s : State) (n : Nat) (k : Core) : (s.setCore n k).slot = s.slot := rfl
@[simp] theorem State.setCore_heldNow (s : State) (n : Nat) (k : Core) : (s.setCore n k).heldNow = s.heldNow := rfl
@[simp] theorem State.setCore_granted (s : State) (n : Nat) (k : Core) : (s.setCore n k).granted = s.granted := rfl
@[simp] theorem State.setCore_stall (s : State) (n : Nat) (k : Core) : (s.setCore n k).stall = s.stall := rfl
@[simp] theorem State.setCore_tick (s : State) (n : Nat) (k : Core) : (s.setCore n k).tick = s.tick := rfl
@[simp] theorem State.setCore_log (s : State) (n : Nat) (k : Core) : (s.setCore n k).log = s.log := rfl
@[simp] theorem State.setCore_agenda (s : State) (n : Nat) (k : Core) : (s.setCore n k).agenda = s.agenda := rfl
@[simp] theorem State.setCore_past (s : State) (n : Nat) (k : Core) : (s.setCore n k).past = s.past := rfl

@[simp] theorem State.updCore_courses (s : State) (n : Nat) (f : Core → Core) : (s.updCore n f).courses = s.courses := rfl
@[simp] theorem State.updCore_mem (s : State) (n : Nat) (f : Core → Core) : (s.updCore n f).mem = s.mem := rfl
@[simp] theorem State.updCore_poison (s : State) (n : Nat) (f : Core → Core) : (s.updCore n f).poison = s.poison := rfl
@[simp] theorem State.updCore_flaws (s : State) (n : Nat) (f : Core → Core) : (s.updCore n f).flaws = s.flaws := rfl
@[simp] theorem State.updCore_seed (s : State) (n : Nat) (f : Core → Core) : (s.updCore n f).seed = s.seed := rfl
@[simp] theorem State.updCore_spaces (s : State) (n : Nat) (f : Core → Core) : (s.updCore n f).spaces = s.spaces := rfl
@[simp] theorem State.updCore_tlb (s : State) (n : Nat) (f : Core → Core) : (s.updCore n f).tlb = s.tlb := rfl
@[simp] theorem State.updCore_tables (s : State) (n : Nat) (f : Core → Core) : (s.updCore n f).tables = s.tables := rfl
@[simp] theorem State.updCore_pages (s : State) (n : Nat) (f : Core → Core) : (s.updCore n f).pages = s.pages := rfl
@[simp] theorem State.updCore_apertures (s : State) (n : Nat) (f : Core → Core) : (s.updCore n f).apertures = s.apertures := rfl
@[simp] theorem State.updCore_graphs (s : State) (n : Nat) (f : Core → Core) : (s.updCore n f).graphs = s.graphs := rfl
@[simp] theorem State.updCore_launches (s : State) (n : Nat) (f : Core → Core) : (s.updCore n f).launches = s.launches := rfl
@[simp] theorem State.updCore_ksq (s : State) (n : Nat) (f : Core → Core) : (s.updCore n f).ksq = s.ksq := rfl
@[simp] theorem State.updCore_cancels (s : State) (n : Nat) (f : Core → Core) : (s.updCore n f).cancels = s.cancels := rfl
@[simp] theorem State.updCore_images (s : State) (n : Nat) (f : Core → Core) : (s.updCore n f).images = s.images := rfl
@[simp] theorem State.updCore_declined (s : State) (n : Nat) (f : Core → Core) : (s.updCore n f).declined = s.declined := rfl
@[simp] theorem State.updCore_mgmt (s : State) (n : Nat) (f : Core → Core) : (s.updCore n f).mgmt = s.mgmt := rfl
@[simp] theorem State.updCore_mbox (s : State) (n : Nat) (f : Core → Core) : (s.updCore n f).mbox = s.mbox := rfl
@[simp] theorem State.updCore_invals (s : State) (n : Nat) (f : Core → Core) : (s.updCore n f).invals = s.invals := rfl
@[simp] theorem State.updCore_ports (s : State) (n : Nat) (f : Core → Core) : (s.updCore n f).ports = s.ports := rfl
@[simp] theorem State.updCore_retrains (s : State) (n : Nat) (f : Core → Core) : (s.updCore n f).retrains = s.retrains := rfl
@[simp] theorem State.updCore_routes (s : State) (n : Nat) (f : Core → Core) : (s.updCore n f).routes = s.routes := rfl
@[simp] theorem State.updCore_devid (s : State) (n : Nat) (f : Core → Core) : (s.updCore n f).devid = s.devid := rfl
@[simp] theorem State.updCore_replicas (s : State) (n : Nat) (f : Core → Core) : (s.updCore n f).replicas = s.replicas := rfl
@[simp] theorem State.updCore_digests (s : State) (n : Nat) (f : Core → Core) : (s.updCore n f).digests = s.digests := rfl
@[simp] theorem State.updCore_sent (s : State) (n : Nat) (f : Core → Core) : (s.updCore n f).sent = s.sent := rfl
@[simp] theorem State.updCore_reloads (s : State) (n : Nat) (f : Core → Core) : (s.updCore n f).reloads = s.reloads := rfl
@[simp] theorem State.updCore_bus (s : State) (n : Nat) (f : Core → Core) : (s.updCore n f).bus = s.bus := rfl
@[simp] theorem State.updCore_reply (s : State) (n : Nat) (f : Core → Core) : (s.updCore n f).reply = s.reply := rfl
@[simp] theorem State.updCore_boot (s : State) (n : Nat) (f : Core → Core) : (s.updCore n f).boot = s.boot := rfl
@[simp] theorem State.updCore_bootFail (s : State) (n : Nat) (f : Core → Core) : (s.updCore n f).bootFail = s.bootFail := rfl
@[simp] theorem State.updCore_failedStep (s : State) (n : Nat) (f : Core → Core) : (s.updCore n f).failedStep = s.failedStep := rfl
@[simp] theorem State.updCore_loaded (s : State) (n : Nat) (f : Core → Core) : (s.updCore n f).loaded = s.loaded := rfl
@[simp] theorem State.updCore_firmware (s : State) (n : Nat) (f : Core → Core) : (s.updCore n f).firmware = s.firmware := rfl
@[simp] theorem State.updCore_msix (s : State) (n : Nat) (f : Core → Core) : (s.updCore n f).msix = s.msix := rfl
@[simp] theorem State.updCore_leafIndex (s : State) (n : Nat) (f : Core → Core) : (s.updCore n f).leafIndex = s.leafIndex := rfl
@[simp] theorem State.updCore_cur (s : State) (n : Nat) (f : Core → Core) : (s.updCore n f).cur = s.cur := rfl
@[simp] theorem State.updCore_slot (s : State) (n : Nat) (f : Core → Core) : (s.updCore n f).slot = s.slot := rfl
@[simp] theorem State.updCore_heldNow (s : State) (n : Nat) (f : Core → Core) : (s.updCore n f).heldNow = s.heldNow := rfl
@[simp] theorem State.updCore_granted (s : State) (n : Nat) (f : Core → Core) : (s.updCore n f).granted = s.granted := rfl
@[simp] theorem State.updCore_stall (s : State) (n : Nat) (f : Core → Core) : (s.updCore n f).stall = s.stall := rfl
@[simp] theorem State.updCore_tick (s : State) (n : Nat) (f : Core → Core) : (s.updCore n f).tick = s.tick := rfl
@[simp] theorem State.updCore_log (s : State) (n : Nat) (f : Core → Core) : (s.updCore n f).log = s.log := rfl
@[simp] theorem State.updCore_agenda (s : State) (n : Nat) (f : Core → Core) : (s.updCore n f).agenda = s.agenda := rfl
@[simp] theorem State.updCore_past (s : State) (n : Nat) (f : Core → Core) : (s.updCore n f).past = s.past := rfl

@[simp] theorem State.setCtx_courses (s : State) (c : CtxId) (x : Ctx) : (s.setCtx c x).courses = s.courses := rfl
@[simp] theorem State.setCtx_mem (s : State) (c : CtxId) (x : Ctx) : (s.setCtx c x).mem = s.mem := rfl
@[simp] theorem State.setCtx_poison (s : State) (c : CtxId) (x : Ctx) : (s.setCtx c x).poison = s.poison := rfl
@[simp] theorem State.setCtx_flaws (s : State) (c : CtxId) (x : Ctx) : (s.setCtx c x).flaws = s.flaws := rfl
@[simp] theorem State.setCtx_seed (s : State) (c : CtxId) (x : Ctx) : (s.setCtx c x).seed = s.seed := rfl
@[simp] theorem State.setCtx_spaces (s : State) (c : CtxId) (x : Ctx) : (s.setCtx c x).spaces = s.spaces := rfl
@[simp] theorem State.setCtx_tlb (s : State) (c : CtxId) (x : Ctx) : (s.setCtx c x).tlb = s.tlb := rfl
@[simp] theorem State.setCtx_tables (s : State) (c : CtxId) (x : Ctx) : (s.setCtx c x).tables = s.tables := rfl
@[simp] theorem State.setCtx_pages (s : State) (c : CtxId) (x : Ctx) : (s.setCtx c x).pages = s.pages := rfl
@[simp] theorem State.setCtx_apertures (s : State) (c : CtxId) (x : Ctx) : (s.setCtx c x).apertures = s.apertures := rfl
@[simp] theorem State.setCtx_graphs (s : State) (c : CtxId) (x : Ctx) : (s.setCtx c x).graphs = s.graphs := rfl
@[simp] theorem State.setCtx_launches (s : State) (c : CtxId) (x : Ctx) : (s.setCtx c x).launches = s.launches := rfl
@[simp] theorem State.setCtx_ksq (s : State) (c : CtxId) (x : Ctx) : (s.setCtx c x).ksq = s.ksq := rfl
@[simp] theorem State.setCtx_cancels (s : State) (c : CtxId) (x : Ctx) : (s.setCtx c x).cancels = s.cancels := rfl
@[simp] theorem State.setCtx_images (s : State) (c : CtxId) (x : Ctx) : (s.setCtx c x).images = s.images := rfl
@[simp] theorem State.setCtx_declined (s : State) (c : CtxId) (x : Ctx) : (s.setCtx c x).declined = s.declined := rfl
@[simp] theorem State.setCtx_mgmt (s : State) (c : CtxId) (x : Ctx) : (s.setCtx c x).mgmt = s.mgmt := rfl
@[simp] theorem State.setCtx_mbox (s : State) (c : CtxId) (x : Ctx) : (s.setCtx c x).mbox = s.mbox := rfl
@[simp] theorem State.setCtx_invals (s : State) (c : CtxId) (x : Ctx) : (s.setCtx c x).invals = s.invals := rfl
@[simp] theorem State.setCtx_ports (s : State) (c : CtxId) (x : Ctx) : (s.setCtx c x).ports = s.ports := rfl
@[simp] theorem State.setCtx_retrains (s : State) (c : CtxId) (x : Ctx) : (s.setCtx c x).retrains = s.retrains := rfl
@[simp] theorem State.setCtx_routes (s : State) (c : CtxId) (x : Ctx) : (s.setCtx c x).routes = s.routes := rfl
@[simp] theorem State.setCtx_devid (s : State) (c : CtxId) (x : Ctx) : (s.setCtx c x).devid = s.devid := rfl
@[simp] theorem State.setCtx_replicas (s : State) (c : CtxId) (x : Ctx) : (s.setCtx c x).replicas = s.replicas := rfl
@[simp] theorem State.setCtx_digests (s : State) (c : CtxId) (x : Ctx) : (s.setCtx c x).digests = s.digests := rfl
@[simp] theorem State.setCtx_sent (s : State) (c : CtxId) (x : Ctx) : (s.setCtx c x).sent = s.sent := rfl
@[simp] theorem State.setCtx_reloads (s : State) (c : CtxId) (x : Ctx) : (s.setCtx c x).reloads = s.reloads := rfl
@[simp] theorem State.setCtx_bus (s : State) (c : CtxId) (x : Ctx) : (s.setCtx c x).bus = s.bus := rfl
@[simp] theorem State.setCtx_reply (s : State) (c : CtxId) (x : Ctx) : (s.setCtx c x).reply = s.reply := rfl
@[simp] theorem State.setCtx_boot (s : State) (c : CtxId) (x : Ctx) : (s.setCtx c x).boot = s.boot := rfl
@[simp] theorem State.setCtx_bootFail (s : State) (c : CtxId) (x : Ctx) : (s.setCtx c x).bootFail = s.bootFail := rfl
@[simp] theorem State.setCtx_failedStep (s : State) (c : CtxId) (x : Ctx) : (s.setCtx c x).failedStep = s.failedStep := rfl
@[simp] theorem State.setCtx_loaded (s : State) (c : CtxId) (x : Ctx) : (s.setCtx c x).loaded = s.loaded := rfl
@[simp] theorem State.setCtx_firmware (s : State) (c : CtxId) (x : Ctx) : (s.setCtx c x).firmware = s.firmware := rfl
@[simp] theorem State.setCtx_msix (s : State) (c : CtxId) (x : Ctx) : (s.setCtx c x).msix = s.msix := rfl
@[simp] theorem State.setCtx_leafIndex (s : State) (c : CtxId) (x : Ctx) : (s.setCtx c x).leafIndex = s.leafIndex := rfl
@[simp] theorem State.setCtx_cur (s : State) (c : CtxId) (x : Ctx) : (s.setCtx c x).cur = s.cur := rfl
@[simp] theorem State.setCtx_slot (s : State) (c : CtxId) (x : Ctx) : (s.setCtx c x).slot = s.slot := rfl
@[simp] theorem State.setCtx_heldNow (s : State) (c : CtxId) (x : Ctx) : (s.setCtx c x).heldNow = s.heldNow := rfl
@[simp] theorem State.setCtx_granted (s : State) (c : CtxId) (x : Ctx) : (s.setCtx c x).granted = s.granted := rfl
@[simp] theorem State.setCtx_stall (s : State) (c : CtxId) (x : Ctx) : (s.setCtx c x).stall = s.stall := rfl
@[simp] theorem State.setCtx_tick (s : State) (c : CtxId) (x : Ctx) : (s.setCtx c x).tick = s.tick := rfl
@[simp] theorem State.setCtx_log (s : State) (c : CtxId) (x : Ctx) : (s.setCtx c x).log = s.log := rfl
@[simp] theorem State.setCtx_agenda (s : State) (c : CtxId) (x : Ctx) : (s.setCtx c x).agenda = s.agenda := rfl
@[simp] theorem State.setCtx_past (s : State) (c : CtxId) (x : Ctx) : (s.setCtx c x).past = s.past := rfl

@[simp] theorem State.updCtx_courses (s : State) (c : CtxId) (f : Ctx → Ctx) : (s.updCtx c f).courses = s.courses := rfl
@[simp] theorem State.updCtx_mem (s : State) (c : CtxId) (f : Ctx → Ctx) : (s.updCtx c f).mem = s.mem := rfl
@[simp] theorem State.updCtx_poison (s : State) (c : CtxId) (f : Ctx → Ctx) : (s.updCtx c f).poison = s.poison := rfl
@[simp] theorem State.updCtx_flaws (s : State) (c : CtxId) (f : Ctx → Ctx) : (s.updCtx c f).flaws = s.flaws := rfl
@[simp] theorem State.updCtx_seed (s : State) (c : CtxId) (f : Ctx → Ctx) : (s.updCtx c f).seed = s.seed := rfl
@[simp] theorem State.updCtx_spaces (s : State) (c : CtxId) (f : Ctx → Ctx) : (s.updCtx c f).spaces = s.spaces := rfl
@[simp] theorem State.updCtx_tlb (s : State) (c : CtxId) (f : Ctx → Ctx) : (s.updCtx c f).tlb = s.tlb := rfl
@[simp] theorem State.updCtx_tables (s : State) (c : CtxId) (f : Ctx → Ctx) : (s.updCtx c f).tables = s.tables := rfl
@[simp] theorem State.updCtx_pages (s : State) (c : CtxId) (f : Ctx → Ctx) : (s.updCtx c f).pages = s.pages := rfl
@[simp] theorem State.updCtx_apertures (s : State) (c : CtxId) (f : Ctx → Ctx) : (s.updCtx c f).apertures = s.apertures := rfl
@[simp] theorem State.updCtx_graphs (s : State) (c : CtxId) (f : Ctx → Ctx) : (s.updCtx c f).graphs = s.graphs := rfl
@[simp] theorem State.updCtx_launches (s : State) (c : CtxId) (f : Ctx → Ctx) : (s.updCtx c f).launches = s.launches := rfl
@[simp] theorem State.updCtx_ksq (s : State) (c : CtxId) (f : Ctx → Ctx) : (s.updCtx c f).ksq = s.ksq := rfl
@[simp] theorem State.updCtx_cancels (s : State) (c : CtxId) (f : Ctx → Ctx) : (s.updCtx c f).cancels = s.cancels := rfl
@[simp] theorem State.updCtx_images (s : State) (c : CtxId) (f : Ctx → Ctx) : (s.updCtx c f).images = s.images := rfl
@[simp] theorem State.updCtx_declined (s : State) (c : CtxId) (f : Ctx → Ctx) : (s.updCtx c f).declined = s.declined := rfl
@[simp] theorem State.updCtx_mgmt (s : State) (c : CtxId) (f : Ctx → Ctx) : (s.updCtx c f).mgmt = s.mgmt := rfl
@[simp] theorem State.updCtx_mbox (s : State) (c : CtxId) (f : Ctx → Ctx) : (s.updCtx c f).mbox = s.mbox := rfl
@[simp] theorem State.updCtx_invals (s : State) (c : CtxId) (f : Ctx → Ctx) : (s.updCtx c f).invals = s.invals := rfl
@[simp] theorem State.updCtx_ports (s : State) (c : CtxId) (f : Ctx → Ctx) : (s.updCtx c f).ports = s.ports := rfl
@[simp] theorem State.updCtx_retrains (s : State) (c : CtxId) (f : Ctx → Ctx) : (s.updCtx c f).retrains = s.retrains := rfl
@[simp] theorem State.updCtx_routes (s : State) (c : CtxId) (f : Ctx → Ctx) : (s.updCtx c f).routes = s.routes := rfl
@[simp] theorem State.updCtx_devid (s : State) (c : CtxId) (f : Ctx → Ctx) : (s.updCtx c f).devid = s.devid := rfl
@[simp] theorem State.updCtx_replicas (s : State) (c : CtxId) (f : Ctx → Ctx) : (s.updCtx c f).replicas = s.replicas := rfl
@[simp] theorem State.updCtx_digests (s : State) (c : CtxId) (f : Ctx → Ctx) : (s.updCtx c f).digests = s.digests := rfl
@[simp] theorem State.updCtx_sent (s : State) (c : CtxId) (f : Ctx → Ctx) : (s.updCtx c f).sent = s.sent := rfl
@[simp] theorem State.updCtx_reloads (s : State) (c : CtxId) (f : Ctx → Ctx) : (s.updCtx c f).reloads = s.reloads := rfl
@[simp] theorem State.updCtx_bus (s : State) (c : CtxId) (f : Ctx → Ctx) : (s.updCtx c f).bus = s.bus := rfl
@[simp] theorem State.updCtx_reply (s : State) (c : CtxId) (f : Ctx → Ctx) : (s.updCtx c f).reply = s.reply := rfl
@[simp] theorem State.updCtx_boot (s : State) (c : CtxId) (f : Ctx → Ctx) : (s.updCtx c f).boot = s.boot := rfl
@[simp] theorem State.updCtx_bootFail (s : State) (c : CtxId) (f : Ctx → Ctx) : (s.updCtx c f).bootFail = s.bootFail := rfl
@[simp] theorem State.updCtx_failedStep (s : State) (c : CtxId) (f : Ctx → Ctx) : (s.updCtx c f).failedStep = s.failedStep := rfl
@[simp] theorem State.updCtx_loaded (s : State) (c : CtxId) (f : Ctx → Ctx) : (s.updCtx c f).loaded = s.loaded := rfl
@[simp] theorem State.updCtx_firmware (s : State) (c : CtxId) (f : Ctx → Ctx) : (s.updCtx c f).firmware = s.firmware := rfl
@[simp] theorem State.updCtx_msix (s : State) (c : CtxId) (f : Ctx → Ctx) : (s.updCtx c f).msix = s.msix := rfl
@[simp] theorem State.updCtx_leafIndex (s : State) (c : CtxId) (f : Ctx → Ctx) : (s.updCtx c f).leafIndex = s.leafIndex := rfl
@[simp] theorem State.updCtx_cur (s : State) (c : CtxId) (f : Ctx → Ctx) : (s.updCtx c f).cur = s.cur := rfl
@[simp] theorem State.updCtx_slot (s : State) (c : CtxId) (f : Ctx → Ctx) : (s.updCtx c f).slot = s.slot := rfl
@[simp] theorem State.updCtx_heldNow (s : State) (c : CtxId) (f : Ctx → Ctx) : (s.updCtx c f).heldNow = s.heldNow := rfl
@[simp] theorem State.updCtx_granted (s : State) (c : CtxId) (f : Ctx → Ctx) : (s.updCtx c f).granted = s.granted := rfl
@[simp] theorem State.updCtx_stall (s : State) (c : CtxId) (f : Ctx → Ctx) : (s.updCtx c f).stall = s.stall := rfl
@[simp] theorem State.updCtx_tick (s : State) (c : CtxId) (f : Ctx → Ctx) : (s.updCtx c f).tick = s.tick := rfl
@[simp] theorem State.updCtx_log (s : State) (c : CtxId) (f : Ctx → Ctx) : (s.updCtx c f).log = s.log := rfl
@[simp] theorem State.updCtx_agenda (s : State) (c : CtxId) (f : Ctx → Ctx) : (s.updCtx c f).agenda = s.agenda := rfl
@[simp] theorem State.updCtx_past (s : State) (c : CtxId) (f : Ctx → Ctx) : (s.updCtx c f).past = s.past := rfl

@[simp] theorem State.setHere_courses (s : State) (x : Ctx) : (s.setHere x).courses = s.courses := rfl
@[simp] theorem State.setHere_mem (s : State) (x : Ctx) : (s.setHere x).mem = s.mem := rfl
@[simp] theorem State.setHere_poison (s : State) (x : Ctx) : (s.setHere x).poison = s.poison := rfl
@[simp] theorem State.setHere_flaws (s : State) (x : Ctx) : (s.setHere x).flaws = s.flaws := rfl
@[simp] theorem State.setHere_seed (s : State) (x : Ctx) : (s.setHere x).seed = s.seed := rfl
@[simp] theorem State.setHere_spaces (s : State) (x : Ctx) : (s.setHere x).spaces = s.spaces := rfl
@[simp] theorem State.setHere_tlb (s : State) (x : Ctx) : (s.setHere x).tlb = s.tlb := rfl
@[simp] theorem State.setHere_tables (s : State) (x : Ctx) : (s.setHere x).tables = s.tables := rfl
@[simp] theorem State.setHere_pages (s : State) (x : Ctx) : (s.setHere x).pages = s.pages := rfl
@[simp] theorem State.setHere_apertures (s : State) (x : Ctx) : (s.setHere x).apertures = s.apertures := rfl
@[simp] theorem State.setHere_graphs (s : State) (x : Ctx) : (s.setHere x).graphs = s.graphs := rfl
@[simp] theorem State.setHere_launches (s : State) (x : Ctx) : (s.setHere x).launches = s.launches := rfl
@[simp] theorem State.setHere_ksq (s : State) (x : Ctx) : (s.setHere x).ksq = s.ksq := rfl
@[simp] theorem State.setHere_cancels (s : State) (x : Ctx) : (s.setHere x).cancels = s.cancels := rfl
@[simp] theorem State.setHere_images (s : State) (x : Ctx) : (s.setHere x).images = s.images := rfl
@[simp] theorem State.setHere_declined (s : State) (x : Ctx) : (s.setHere x).declined = s.declined := rfl
@[simp] theorem State.setHere_mgmt (s : State) (x : Ctx) : (s.setHere x).mgmt = s.mgmt := rfl
@[simp] theorem State.setHere_mbox (s : State) (x : Ctx) : (s.setHere x).mbox = s.mbox := rfl
@[simp] theorem State.setHere_invals (s : State) (x : Ctx) : (s.setHere x).invals = s.invals := rfl
@[simp] theorem State.setHere_ports (s : State) (x : Ctx) : (s.setHere x).ports = s.ports := rfl
@[simp] theorem State.setHere_retrains (s : State) (x : Ctx) : (s.setHere x).retrains = s.retrains := rfl
@[simp] theorem State.setHere_routes (s : State) (x : Ctx) : (s.setHere x).routes = s.routes := rfl
@[simp] theorem State.setHere_devid (s : State) (x : Ctx) : (s.setHere x).devid = s.devid := rfl
@[simp] theorem State.setHere_replicas (s : State) (x : Ctx) : (s.setHere x).replicas = s.replicas := rfl
@[simp] theorem State.setHere_digests (s : State) (x : Ctx) : (s.setHere x).digests = s.digests := rfl
@[simp] theorem State.setHere_sent (s : State) (x : Ctx) : (s.setHere x).sent = s.sent := rfl
@[simp] theorem State.setHere_reloads (s : State) (x : Ctx) : (s.setHere x).reloads = s.reloads := rfl
@[simp] theorem State.setHere_bus (s : State) (x : Ctx) : (s.setHere x).bus = s.bus := rfl
@[simp] theorem State.setHere_reply (s : State) (x : Ctx) : (s.setHere x).reply = s.reply := rfl
@[simp] theorem State.setHere_boot (s : State) (x : Ctx) : (s.setHere x).boot = s.boot := rfl
@[simp] theorem State.setHere_bootFail (s : State) (x : Ctx) : (s.setHere x).bootFail = s.bootFail := rfl
@[simp] theorem State.setHere_failedStep (s : State) (x : Ctx) : (s.setHere x).failedStep = s.failedStep := rfl
@[simp] theorem State.setHere_loaded (s : State) (x : Ctx) : (s.setHere x).loaded = s.loaded := rfl
@[simp] theorem State.setHere_firmware (s : State) (x : Ctx) : (s.setHere x).firmware = s.firmware := rfl
@[simp] theorem State.setHere_msix (s : State) (x : Ctx) : (s.setHere x).msix = s.msix := rfl
@[simp] theorem State.setHere_leafIndex (s : State) (x : Ctx) : (s.setHere x).leafIndex = s.leafIndex := rfl
@[simp] theorem State.setHere_cur (s : State) (x : Ctx) : (s.setHere x).cur = s.cur := rfl
@[simp] theorem State.setHere_slot (s : State) (x : Ctx) : (s.setHere x).slot = s.slot := rfl
@[simp] theorem State.setHere_heldNow (s : State) (x : Ctx) : (s.setHere x).heldNow = s.heldNow := rfl
@[simp] theorem State.setHere_granted (s : State) (x : Ctx) : (s.setHere x).granted = s.granted := rfl
@[simp] theorem State.setHere_stall (s : State) (x : Ctx) : (s.setHere x).stall = s.stall := rfl
@[simp] theorem State.setHere_tick (s : State) (x : Ctx) : (s.setHere x).tick = s.tick := rfl
@[simp] theorem State.setHere_log (s : State) (x : Ctx) : (s.setHere x).log = s.log := rfl
@[simp] theorem State.setHere_agenda (s : State) (x : Ctx) : (s.setHere x).agenda = s.agenda := rfl
@[simp] theorem State.setHere_past (s : State) (x : Ctx) : (s.setHere x).past = s.past := rfl

@[simp] theorem State.upd_courses (s : State) (f : Ctx → Ctx) : (s.upd f).courses = s.courses := rfl
@[simp] theorem State.upd_mem (s : State) (f : Ctx → Ctx) : (s.upd f).mem = s.mem := rfl
@[simp] theorem State.upd_poison (s : State) (f : Ctx → Ctx) : (s.upd f).poison = s.poison := rfl
@[simp] theorem State.upd_flaws (s : State) (f : Ctx → Ctx) : (s.upd f).flaws = s.flaws := rfl
@[simp] theorem State.upd_seed (s : State) (f : Ctx → Ctx) : (s.upd f).seed = s.seed := rfl
@[simp] theorem State.upd_spaces (s : State) (f : Ctx → Ctx) : (s.upd f).spaces = s.spaces := rfl
@[simp] theorem State.upd_tlb (s : State) (f : Ctx → Ctx) : (s.upd f).tlb = s.tlb := rfl
@[simp] theorem State.upd_tables (s : State) (f : Ctx → Ctx) : (s.upd f).tables = s.tables := rfl
@[simp] theorem State.upd_pages (s : State) (f : Ctx → Ctx) : (s.upd f).pages = s.pages := rfl
@[simp] theorem State.upd_apertures (s : State) (f : Ctx → Ctx) : (s.upd f).apertures = s.apertures := rfl
@[simp] theorem State.upd_graphs (s : State) (f : Ctx → Ctx) : (s.upd f).graphs = s.graphs := rfl
@[simp] theorem State.upd_launches (s : State) (f : Ctx → Ctx) : (s.upd f).launches = s.launches := rfl
@[simp] theorem State.upd_ksq (s : State) (f : Ctx → Ctx) : (s.upd f).ksq = s.ksq := rfl
@[simp] theorem State.upd_cancels (s : State) (f : Ctx → Ctx) : (s.upd f).cancels = s.cancels := rfl
@[simp] theorem State.upd_images (s : State) (f : Ctx → Ctx) : (s.upd f).images = s.images := rfl
@[simp] theorem State.upd_declined (s : State) (f : Ctx → Ctx) : (s.upd f).declined = s.declined := rfl
@[simp] theorem State.upd_mgmt (s : State) (f : Ctx → Ctx) : (s.upd f).mgmt = s.mgmt := rfl
@[simp] theorem State.upd_mbox (s : State) (f : Ctx → Ctx) : (s.upd f).mbox = s.mbox := rfl
@[simp] theorem State.upd_invals (s : State) (f : Ctx → Ctx) : (s.upd f).invals = s.invals := rfl
@[simp] theorem State.upd_ports (s : State) (f : Ctx → Ctx) : (s.upd f).ports = s.ports := rfl
@[simp] theorem State.upd_retrains (s : State) (f : Ctx → Ctx) : (s.upd f).retrains = s.retrains := rfl
@[simp] theorem State.upd_routes (s : State) (f : Ctx → Ctx) : (s.upd f).routes = s.routes := rfl
@[simp] theorem State.upd_devid (s : State) (f : Ctx → Ctx) : (s.upd f).devid = s.devid := rfl
@[simp] theorem State.upd_replicas (s : State) (f : Ctx → Ctx) : (s.upd f).replicas = s.replicas := rfl
@[simp] theorem State.upd_digests (s : State) (f : Ctx → Ctx) : (s.upd f).digests = s.digests := rfl
@[simp] theorem State.upd_sent (s : State) (f : Ctx → Ctx) : (s.upd f).sent = s.sent := rfl
@[simp] theorem State.upd_reloads (s : State) (f : Ctx → Ctx) : (s.upd f).reloads = s.reloads := rfl
@[simp] theorem State.upd_bus (s : State) (f : Ctx → Ctx) : (s.upd f).bus = s.bus := rfl
@[simp] theorem State.upd_reply (s : State) (f : Ctx → Ctx) : (s.upd f).reply = s.reply := rfl
@[simp] theorem State.upd_boot (s : State) (f : Ctx → Ctx) : (s.upd f).boot = s.boot := rfl
@[simp] theorem State.upd_bootFail (s : State) (f : Ctx → Ctx) : (s.upd f).bootFail = s.bootFail := rfl
@[simp] theorem State.upd_failedStep (s : State) (f : Ctx → Ctx) : (s.upd f).failedStep = s.failedStep := rfl
@[simp] theorem State.upd_loaded (s : State) (f : Ctx → Ctx) : (s.upd f).loaded = s.loaded := rfl
@[simp] theorem State.upd_firmware (s : State) (f : Ctx → Ctx) : (s.upd f).firmware = s.firmware := rfl
@[simp] theorem State.upd_msix (s : State) (f : Ctx → Ctx) : (s.upd f).msix = s.msix := rfl
@[simp] theorem State.upd_leafIndex (s : State) (f : Ctx → Ctx) : (s.upd f).leafIndex = s.leafIndex := rfl
@[simp] theorem State.upd_cur (s : State) (f : Ctx → Ctx) : (s.upd f).cur = s.cur := rfl
@[simp] theorem State.upd_slot (s : State) (f : Ctx → Ctx) : (s.upd f).slot = s.slot := rfl
@[simp] theorem State.upd_heldNow (s : State) (f : Ctx → Ctx) : (s.upd f).heldNow = s.heldNow := rfl
@[simp] theorem State.upd_granted (s : State) (f : Ctx → Ctx) : (s.upd f).granted = s.granted := rfl
@[simp] theorem State.upd_stall (s : State) (f : Ctx → Ctx) : (s.upd f).stall = s.stall := rfl
@[simp] theorem State.upd_tick (s : State) (f : Ctx → Ctx) : (s.upd f).tick = s.tick := rfl
@[simp] theorem State.upd_log (s : State) (f : Ctx → Ctx) : (s.upd f).log = s.log := rfl
@[simp] theorem State.upd_agenda (s : State) (f : Ctx → Ctx) : (s.upd f).agenda = s.agenda := rfl
@[simp] theorem State.upd_past (s : State) (f : Ctx → Ctx) : (s.upd f).past = s.past := rfl

@[simp] theorem State.atSlot_cores (s : State) (o : SlotOp) : (s.atSlot o).cores = s.cores := rfl
@[simp] theorem State.atSlot_courses (s : State) (o : SlotOp) : (s.atSlot o).courses = s.courses := rfl
@[simp] theorem State.atSlot_mem (s : State) (o : SlotOp) : (s.atSlot o).mem = s.mem := rfl
@[simp] theorem State.atSlot_poison (s : State) (o : SlotOp) : (s.atSlot o).poison = s.poison := rfl
@[simp] theorem State.atSlot_flaws (s : State) (o : SlotOp) : (s.atSlot o).flaws = s.flaws := rfl
@[simp] theorem State.atSlot_seed (s : State) (o : SlotOp) : (s.atSlot o).seed = s.seed := rfl
@[simp] theorem State.atSlot_spaces (s : State) (o : SlotOp) : (s.atSlot o).spaces = s.spaces := rfl
@[simp] theorem State.atSlot_tlb (s : State) (o : SlotOp) : (s.atSlot o).tlb = s.tlb := rfl
@[simp] theorem State.atSlot_tables (s : State) (o : SlotOp) : (s.atSlot o).tables = s.tables := rfl
@[simp] theorem State.atSlot_pages (s : State) (o : SlotOp) : (s.atSlot o).pages = s.pages := rfl
@[simp] theorem State.atSlot_apertures (s : State) (o : SlotOp) : (s.atSlot o).apertures = s.apertures := rfl
@[simp] theorem State.atSlot_graphs (s : State) (o : SlotOp) : (s.atSlot o).graphs = s.graphs := rfl
@[simp] theorem State.atSlot_launches (s : State) (o : SlotOp) : (s.atSlot o).launches = s.launches := rfl
@[simp] theorem State.atSlot_ksq (s : State) (o : SlotOp) : (s.atSlot o).ksq = s.ksq := rfl
@[simp] theorem State.atSlot_cancels (s : State) (o : SlotOp) : (s.atSlot o).cancels = s.cancels := rfl
@[simp] theorem State.atSlot_images (s : State) (o : SlotOp) : (s.atSlot o).images = s.images := rfl
@[simp] theorem State.atSlot_declined (s : State) (o : SlotOp) : (s.atSlot o).declined = s.declined := rfl
@[simp] theorem State.atSlot_mgmt (s : State) (o : SlotOp) : (s.atSlot o).mgmt = s.mgmt := rfl
@[simp] theorem State.atSlot_mbox (s : State) (o : SlotOp) : (s.atSlot o).mbox = s.mbox := rfl
@[simp] theorem State.atSlot_invals (s : State) (o : SlotOp) : (s.atSlot o).invals = s.invals := rfl
@[simp] theorem State.atSlot_ports (s : State) (o : SlotOp) : (s.atSlot o).ports = s.ports := rfl
@[simp] theorem State.atSlot_retrains (s : State) (o : SlotOp) : (s.atSlot o).retrains = s.retrains := rfl
@[simp] theorem State.atSlot_routes (s : State) (o : SlotOp) : (s.atSlot o).routes = s.routes := rfl
@[simp] theorem State.atSlot_devid (s : State) (o : SlotOp) : (s.atSlot o).devid = s.devid := rfl
@[simp] theorem State.atSlot_replicas (s : State) (o : SlotOp) : (s.atSlot o).replicas = s.replicas := rfl
@[simp] theorem State.atSlot_digests (s : State) (o : SlotOp) : (s.atSlot o).digests = s.digests := rfl
@[simp] theorem State.atSlot_sent (s : State) (o : SlotOp) : (s.atSlot o).sent = s.sent := rfl
@[simp] theorem State.atSlot_reloads (s : State) (o : SlotOp) : (s.atSlot o).reloads = s.reloads := rfl
@[simp] theorem State.atSlot_bus (s : State) (o : SlotOp) : (s.atSlot o).bus = s.bus := rfl
@[simp] theorem State.atSlot_reply (s : State) (o : SlotOp) : (s.atSlot o).reply = s.reply := rfl
@[simp] theorem State.atSlot_boot (s : State) (o : SlotOp) : (s.atSlot o).boot = s.boot := rfl
@[simp] theorem State.atSlot_bootFail (s : State) (o : SlotOp) : (s.atSlot o).bootFail = s.bootFail := rfl
@[simp] theorem State.atSlot_failedStep (s : State) (o : SlotOp) : (s.atSlot o).failedStep = s.failedStep := rfl
@[simp] theorem State.atSlot_loaded (s : State) (o : SlotOp) : (s.atSlot o).loaded = s.loaded := rfl
@[simp] theorem State.atSlot_firmware (s : State) (o : SlotOp) : (s.atSlot o).firmware = s.firmware := rfl
@[simp] theorem State.atSlot_msix (s : State) (o : SlotOp) : (s.atSlot o).msix = s.msix := rfl
@[simp] theorem State.atSlot_leafIndex (s : State) (o : SlotOp) : (s.atSlot o).leafIndex = s.leafIndex := rfl
@[simp] theorem State.atSlot_cur (s : State) (o : SlotOp) : (s.atSlot o).cur = s.cur := rfl
@[simp] theorem State.atSlot_granted (s : State) (o : SlotOp) : (s.atSlot o).granted = s.granted := rfl
@[simp] theorem State.atSlot_stall (s : State) (o : SlotOp) : (s.atSlot o).stall = s.stall := rfl
@[simp] theorem State.atSlot_tick (s : State) (o : SlotOp) : (s.atSlot o).tick = s.tick := rfl
@[simp] theorem State.atSlot_log (s : State) (o : SlotOp) : (s.atSlot o).log = s.log := rfl
@[simp] theorem State.atSlot_agenda (s : State) (o : SlotOp) : (s.atSlot o).agenda = s.agenda := rfl
@[simp] theorem State.atSlot_past (s : State) (o : SlotOp) : (s.atSlot o).past = s.past := rfl

/-! ### Reading after an update -/

@[simp] theorem State.byte_setByte (s : State) (k j : Nat) (b : Byte) :
    (s.setByte k b).byte j = if j = k then b else s.byte j := SMap.get_setD _ _ _ _ _

@[simp] theorem State.core_setCore_same (s : State) (n : Nat) (k : Core) : (s.setCore n k).core n = k :=
  SMap.get_setD_same _ _ _ _

theorem State.core_setCore_other (s : State) {n m : Nat} (k : Core) (h : m ≠ n) : (s.setCore n k).core m = s.core m :=
  SMap.get_setD_other _ _ _ h

@[simp] theorem State.core_updCore_same (s : State) (n : Nat) (f : Core → Core) : (s.updCore n f).core n = f (s.core n) :=
  State.core_setCore_same _ _ _

theorem State.core_updCore_other (s : State) {n m : Nat} (f : Core → Core) (h : m ≠ n) :
    (s.updCore n f).core m = s.core m := State.core_setCore_other _ _ h

@[simp] theorem State.course_setCourse_same (s : State) (n : Nat) (c : Course) : (s.setCourse n c).course n = c :=
  SMap.get_setD_same _ _ _ _

theorem State.course_setCourse_other (s : State) {n m : Nat} (c : Course) (h : m ≠ n) :
    (s.setCourse n c).course m = s.course m := SMap.get_setD_other _ _ _ h

@[simp] theorem State.port_setPort_same (s : State) (n : Nat) (p : Port) : (s.setPort n p).port n = p :=
  SMap.get_setD_same _ _ _ _

@[simp] theorem Core.ctx_setCtx_same (k : Core) (b : Bool) (c : Ctx) : (k.setCtx b c).ctx b = c := by
  cases b <;> rfl

theorem Core.ctx_setCtx_other (k : Core) {a b : Bool} (c : Ctx) (h : b ≠ a) : (k.setCtx a c).ctx b = k.ctx b := by
  cases a <;> cases b <;> first | rfl | exact absurd rfl h

/-- A context reads as it was written. -/
@[simp] theorem State.ctx_setCtx_same (s : State) (c : CtxId) (x : Ctx) : (s.setCtx c x).ctx c = x := by
  simp [State.setCtx, State.ctx]

/-- A write to one context leaves every other. -/
theorem State.ctx_setCtx_other (s : State) {c d : CtxId} (x : Ctx) (h : d ≠ c) : (s.setCtx c x).ctx d = s.ctx d := by
  by_cases hc : d.core = c.core
  · have hone : d.one ≠ c.one := fun e => h (by cases c; cases d; cases hc; cases e; rfl)
    simp only [State.setCtx, State.ctx, hc, State.core_setCore_same]
    exact Core.ctx_setCtx_other _ _ hone
  · simp only [State.setCtx, State.ctx, State.core_setCore_other _ _ hc]

@[simp] theorem State.ctx_updCtx_same (s : State) (c : CtxId) (f : Ctx → Ctx) : (s.updCtx c f).ctx c = f (s.ctx c) :=
  State.ctx_setCtx_same _ _ _

theorem State.ctx_updCtx_other (s : State) {c d : CtxId} (f : Ctx → Ctx) (h : d ≠ c) : (s.updCtx c f).ctx d = s.ctx d :=
  State.ctx_setCtx_other _ _ h

@[simp] theorem State.here_upd (s : State) (f : Ctx → Ctx) : (s.upd f).here = f s.here :=
  State.ctx_setCtx_same _ _ _

theorem State.ctx_upd_other (s : State) {d : CtxId} (f : Ctx → Ctx) (h : d ≠ s.cur) : (s.upd f).ctx d = s.ctx d :=
  State.ctx_setCtx_other _ _ h

/-- The clock of a core is not a context's. -/
@[simp] theorem State.cycle_upd (s : State) (f : Ctx → Ctx) : (s.upd f).cycle = s.cycle := by
  simp only [State.cycle, State.myCore, State.upd_cur]
  simp only [State.upd, State.setHere, State.setCtx, State.core_setCore_same]
  cases s.cur.one <;> rfl

end Sys2Proof.Machine
end

