-- ==== Sys2Proof/Laws/Canonical.lean ====
section
/-! SUPPORT. Memory keeps its canonical form: which operations leave the memory as it is, and that every other one keeps
the form. -/

namespace Sys2Proof.Machine

set_option linter.unusedSimpArgs false
set_option linter.unusedVariables false

/-! ### Cells -/

theorem State.setByte_wf {s : State} (k : Nat) (b : Byte) (h : Memory.wf s.mem = true) :
    Memory.wf (s.setByte k b).mem = true := SMap.wf_setD k b h

@[simp] theorem State.setCells_wf (s : State) (cs : List (Nat × Byte)) (h : Memory.wf s.mem = true) :
    Memory.wf (s.setCells cs).mem = true := by
  induction cs generalizing s with
  | nil => exact h
  | cons c cs ih => exact ih _ (State.setByte_wf _ _ h)

@[simp] theorem State.writeNat_wf (s : State) (k n v : Nat) (h : Memory.wf s.mem = true) :
    Memory.wf (s.writeNat k n v).mem = true := State.setCells_wf _ _ h

@[simp] theorem State.store_wf (s : State) (cells : List (Nat × Byte)) (h : Memory.wf s.mem = true) :
    Memory.wf (s.store cells).1.mem = true := by
  unfold State.store
  split
  · exact State.setCells_wf _ _ h
  · exact State.setCells_wf _ _ h

/-! ### Folds -/

theorem foldl_mem {β : Type} {f : State → β → State} (hf : ∀ s x, (f s x).mem = s.mem) (l : List β) (s : State) :
    (l.foldl f s).mem = s.mem := by
  induction l generalizing s with
  | nil => rfl
  | cons x l ih => rw [List.foldl_cons, ih, hf]

theorem foldl_wf {β : Type} {f : State → β → State}
    (hf : ∀ s x, Memory.wf s.mem = true → Memory.wf (f s x).mem = true)
    (l : List β) {s : State} (h : Memory.wf s.mem = true) : Memory.wf (l.foldl f s).mem = true := by
  induction l generalizing s with
  | nil => exact h
  | cons x l ih => exact ih (hf s x h)


theorem ite_wf {p : Prop} [Decidable p] {a b : State} (ha : Memory.wf a.mem = true) (hb : Memory.wf b.mem = true) :
    Memory.wf (if p then a else b).mem = true := by
  split
  · exact ha
  · exact hb

/-! ### Function by function -/

@[simp] theorem State.poisonGranule_mem (s : State) (g : Nat) : (s.poisonGranule g).mem = s.mem := rfl

@[simp] theorem State.unpoison_mem (s : State) (g : Nat) : (s.unpoison g).mem = s.mem := rfl

@[simp] theorem State.cacheWalk_mem (s : State) (space va : Nat) : (s.cacheWalk space va).mem = s.mem := by
  dsimp only [State.cacheWalk]
  (repeat' split) <;> simp

@[simp] theorem State.late_mem (s : State) (cause : BitVec 8) (detail : BitVec 128) :
    (s.late cause detail).mem = s.mem := rfl

@[simp] theorem State.result_mem (s : State) (lat : Nat) (d : Dest) (v : Vec) (m : Part) (fl : Flags)
    (src : Option Nat) : (s.result lat d v m fl src).mem = s.mem := by
  dsimp only [State.result]
  (repeat' split) <;> simp

@[simp] theorem State.putS_mem (s : State) (lat : Nat) (r : BitVec 6) (v : DWord) (fl : Flags) :
    (s.putS lat r v fl).mem = s.mem := by
  dsimp only [State.putS]
  simp

@[simp] theorem State.putX_mem (s : State) (lat : Nat) (r : BitVec 4) (v : BitVec 32) :
    (s.putX lat r v).mem = s.mem := by
  dsimp only [State.putX]
  simp

@[simp] theorem State.putP_mem (s : State) (lat : Nat) (r : BitVec 4) (v m : BitVec 32) (fl : Flags) :
    (s.putP lat r v m fl).mem = s.mem := by
  dsimp only [State.putP]
  simp

@[simp] theorem State.putV_mem (s : State) (lat : Nat) (r : BitVec 5) (v : Vec) (m : Part) (fl : Flags) :
    (s.putV lat r v m fl).mem = s.mem := by
  dsimp only [State.putV]
  simp

@[simp] theorem State.record_mem (s : State) (core : Nat) (r : BitVec 128) : (s.record core r).mem = s.mem := rfl

@[simp] theorem State.thaw_mem (s : State) (c : CtxId) (r : BitVec 3) (pc : DWord) : (s.thaw c r pc).mem = s.mem := by
  dsimp only [State.thaw]
  (repeat' split) <;> simp

@[simp] theorem State.findFlaw_mem (s : State) (one : Bool) (pc : DWord) (f : Nat × Bool) :
    (s.findFlaw one pc f).mem = s.mem := by
  dsimp only [State.findFlaw]
  (repeat' split) <;> simp

@[simp] theorem State.find_mem (s : State) (one : Bool) (pc : DWord) (keys : List Nat) :
    (s.find one pc keys).mem = s.mem := by
  dsimp only [State.find]
  exact foldl_mem (fun _ _ => by simp) _ _

@[simp] theorem State.fatal_mem (s : State) : (s.fatal).mem = s.mem := rfl

@[simp] theorem State.bring_mem (s : State) (x0 : ReadError) : (s.bring x0).mem = s.mem := by
  dsimp only [State.bring]
  (repeat' split) <;> simp

@[simp] theorem State.updGraph_mem (s : State) (graph : Nat) (f : Graph → Graph) :
    (s.updGraph graph f).mem = s.mem := by
  dsimp only [State.updGraph]
  (repeat' split) <;> simp

@[simp] theorem State.updNode_mem (s : State) (graph node : Nat) (f : Node → Node) :
    (s.updNode graph node f).mem = s.mem := by
  dsimp only [State.updNode]
  simp

@[simp] theorem State.plumbEvent_mem (s : State) (graph : Nat) : (s.plumbEvent graph).mem = s.mem := by
  dsimp only [State.plumbEvent]
  (repeat' split) <;> simp

@[simp] theorem State.findAny_mem (s : State) (keys : List Nat) : (s.findAny keys).mem = s.mem := by
  dsimp only [State.findAny]
  simp

@[simp] theorem State.ksFind_mem (s : State) (space va n : Nat) : (s.ksFind space va n).mem = s.mem := by
  dsimp only [State.ksFind]
  (repeat' split) <;> simp

@[simp] theorem State.recordError_mem (s : State) : (s.recordError).mem = s.mem := rfl

@[simp] theorem State.ksWrite_wf (s : State) (gi space va n v : Nat) (h : Memory.wf s.mem = true) : Memory.wf
    (s.ksWrite gi space va n v).mem = true := by
  dsimp only [State.ksWrite]
  (repeat' split) <;> simp [h]

@[simp] theorem State.rejectLaunch_wf (s : State) (space addr index code : Nat) (h : Memory.wf s.mem = true) :
    Memory.wf (s.rejectLaunch space addr index code).mem = true := by
  exact State.ksWrite_wf _ _ _ _ _ _ (State.ksWrite_wf _ _ _ _ _ _ (State.ksWrite_wf _ _ _ _ _ _ h))

@[simp] theorem State.writeField_wf (s : State) (gi : Nat) (g : Graph) (va n v : Nat) (h : Memory.wf s.mem = true) :
    Memory.wf (s.writeField gi g va n v).mem = true := by
  dsimp only [State.writeField]
  (repeat' split) <;> simp [h]

@[simp] theorem State.writeNode_wf (s : State) (gi ni off n v : Nat) (h : Memory.wf s.mem = true) : Memory.wf
    (s.writeNode gi ni off n v).mem = true := by
  dsimp only [State.writeNode]
  (repeat' split) <;> simp [h]

@[simp] theorem State.writeGraph_wf (s : State) (gi off n v : Nat) (h : Memory.wf s.mem = true) : Memory.wf
    (s.writeGraph gi off n v).mem = true := by
  dsimp only [State.writeGraph]
  (repeat' split) <;> simp [h]

@[simp] theorem State.setNodeState_wf (s : State) (gi ni : Nat) (x : NState) (h : Memory.wf s.mem = true) :
    Memory.wf (s.setNodeState gi ni x).mem = true := by
  dsimp only [State.setNodeState]
  simp [h]

@[simp] theorem State.setArrive_wf (s : State) (gi ni : Nat) (a : BitVec 64) (h : Memory.wf s.mem = true) :
    Memory.wf (s.setArrive gi ni a).mem = true := by
  dsimp only [State.setArrive]
  (repeat' split) <;> simp [h]

@[simp] theorem State.setLeft_wf (s : State) (gi ni left : Nat) (h : Memory.wf s.mem = true) : Memory.wf
    (s.setLeft gi ni left).mem = true := by
  dsimp only [State.setLeft]
  (repeat' split) <;> simp [h]

@[simp] theorem State.setCcnt_wf (s : State) (gi ni v : Nat) (h : Memory.wf s.mem = true) : Memory.wf
    (s.setCcnt gi ni v).mem = true := by
  dsimp only [State.setCcnt]
  simp [h]

@[simp] theorem State.becomeReady_wf (s : State) (gi ni : Nat) (h : Memory.wf s.mem = true) : Memory.wf
    (s.becomeReady gi ni).mem = true := by
  dsimp only [State.becomeReady]
  (repeat' split) <;> simp [h]

@[simp] theorem State.applyBead_wf (s : State) (src : Origin) (gi ni slot : Nat) (h : Memory.wf s.mem = true) :
    Memory.wf (s.applyBead src gi ni slot).mem = true := by
  dsimp only [State.applyBead]
  (repeat' split) <;> simp [h]

@[simp] theorem State.dropBead_mem (s : State) : (s.dropBead).mem = s.mem := rfl

@[simp] theorem State.bead_wf (s : State) (src : Origin) (space addr slot : Nat) (h : Memory.wf s.mem = true) :
    Memory.wf (s.bead src space addr slot).mem = true := by
  dsimp only [State.bead]
  (repeat' split) <;> simp [h]

@[simp] theorem State.armGraph_wf (s : State) (src : Origin) (g : Graph) (h : Memory.wf s.mem = true) :
    Memory.wf (s.armGraph src g).mem = true := by
  dsimp only [State.armGraph]
  refine foldl_wf ?_ _ ?_
  · intro s i h
    split
    · split
      · exact State.becomeReady_wf _ _ _ h
      · exact h
    · exact h
  · refine State.writeGraph_wf _ _ _ _ _ (State.writeGraph_wf _ _ _ _ _ (State.writeGraph_wf _ _ _ _ _
      (State.writeGraph_wf _ _ _ _ _ (State.writeGraph_wf _ _ _ _ _ (State.writeGraph_wf _ _ _ _ _ ?_)))))
    refine foldl_wf ?_ _ h
    intro s i h
    split
    · exact State.setNodeState_wf _ _ _ _
        (State.setCcnt_wf _ _ _ _ (State.setLeft_wf _ _ _ _ (State.setArrive_wf _ _ _ _ h)))
    · exact h

@[simp] theorem State.launchPoison_mem (s : State) (plumb : Bool) (e : Nat × Nat) (space first : Nat) :
    (s.launchPoison plumb e space first).mem = s.mem := by
  dsimp only [State.launchPoison]
  (repeat' split) <;> simp

@[simp] theorem State.tryLaunch_wf (s : State) (src : Origin) (space addr : Nat) (h : Memory.wf s.mem = true) :
    Memory.wf (s.tryLaunch src space addr).mem = true := by
  dsimp only [State.tryLaunch]
  (repeat' split) <;> simp [h]

@[simp] theorem State.launch_wf (s : State) (src : Origin) (space addr : Nat) (h : Memory.wf s.mem = true) :
    Memory.wf (s.launch src space addr).mem = true :=
  State.tryLaunch_wf _ _ _ _ (by simp [h])

@[simp] theorem State.dropMsg_mem (s : State) (k : Nat) : (s.dropMsg k).mem = s.mem := rfl

@[simp] theorem State.notePost_mem (s : State) (m : KsMsg) : (s.notePost m).mem = s.mem := by
  dsimp only [State.notePost]
  (repeat' split) <;> simp

@[simp] theorem State.sendMsg_mem (s : State) (k : Nat) (m : KsMsg) : (s.sendMsg k m).mem = s.mem :=
  State.notePost_mem _ _

@[simp] theorem State.takeMsg_wf (s : State) (k : Nat) (m : KsMsg) (h : Memory.wf s.mem = true) :
    Memory.wf (s.takeMsg k m).mem = true := by
  dsimp only [State.takeMsg]
  (repeat' split) <;> simp [h]

@[simp] theorem State.plumbFor_mem (s : State) (c : CtxId) : (s.plumbFor c).mem = s.mem := by
  dsimp only [State.plumbFor]
  (repeat' split) <;> simp

@[simp] theorem State.plumbCore_mem (s : State) (core : Nat) : (s.plumbCore core).mem = s.mem := by
  dsimp only [State.plumbCore]
  (repeat' split) <;> simp

@[simp] theorem State.readFirst_mem (s : State) (c : CtxId) (id : Nat) (keys : List Nat) :
    (s.readFirst c id keys).mem = s.mem := rfl

@[simp] theorem State.writeFirst_mem (s : State) (c : CtxId) (o : MemOp) : (s.writeFirst c o).mem = s.mem := by
  dsimp only [State.writeFirst]
  (repeat' split) <;> simp

@[simp] theorem State.ksStore_wf (s : State) (k n v : Nat) (h : Memory.wf s.mem = true) : Memory.wf
    (s.ksStore k n v).mem = true := by
  dsimp only [State.ksStore]
  (repeat' split) <;> simp [h]

@[simp] theorem State.performLoad_mem (s : State) (c : CtxId) (o : MemOp) (dst : LoadTo) :
    (s.performLoad c o dst).mem = s.mem := by
  dsimp only [State.performLoad]
  (repeat' split) <;> simp

@[simp] theorem State.postedFails_mem (s : State) (c : CtxId) (o : MemOp) (x : BitVec 4) (va : Nat) :
    (s.postedFails c o x va).mem = s.mem := by
  dsimp only [State.postedFails]
  (repeat' split) <;> simp

@[simp] theorem State.performStore_wf (s : State) (c : CtxId) (o : MemOp) (data : Nat) (h : Memory.wf s.mem = true) :
    Memory.wf (s.performStore c o data).mem = true := by
  dsimp only [State.performStore]
  (repeat' split) <;> simp [h]

@[simp] theorem State.performRmw_wf (s : State) (c : CtxId) (o : MemOp) (op : Rmw) (d cmp : DWord) (red : Bool)
    (h : Memory.wf s.mem = true) : Memory.wf (s.performRmw c o op d cmp red).mem = true := by
  dsimp only [State.performRmw]
  (repeat' split) <;> simp [h]

@[simp] theorem State.performOp_wf (s : State) (c : CtxId) (o : MemOp) (h : Memory.wf s.mem = true) : Memory.wf
    (s.performOp c o).mem = true := by
  dsimp only [State.performOp]
  (repeat' split) <;> simp [h]

@[simp] theorem State.foreOp_wf (s : State) (core : Nat) (o : MemOp) (h : Memory.wf s.mem = true) : Memory.wf
    (s.foreOp core o).mem = true := by
  dsimp only [State.foreOp]
  (repeat' split) <;> simp [h]

@[simp] theorem State.foreseen_wf (s : State) (c : CtxId) (before : Nat) (h : Memory.wf s.mem = true) : Memory.wf
    (s.foreseen c before).mem = true := by
  dsimp only [State.foreseen]
  exact foldl_wf (fun _ _ h => by simp [h]) _ (by simp [h])

/-- Reading step by step changes no byte. -/
@[simp] theorem State.readSteps_mem (s : State) (one stop : Bool) (pc : DWord) (l : List ReadStep) :
    (s.readSteps one stop pc l).1.mem = s.mem := by
  induction l generalizing s with
  | nil => rfl
  | cons p ps ih =>
    dsimp only [State.readSteps]
    split
    · simp
    · exact (ih _).trans (by simp)

@[simp] theorem State.noteArray_mem (s : State) (c : CtxId) (a : ArrayOp) (ks : List Nat) :
    (s.noteArray c a ks).mem = s.mem := by
  dsimp only [State.noteArray]
  (repeat' split) <;> simp

@[simp] theorem State.readArray_mem (s : State) (c : CtxId) (a : ArrayOp) : (s.readArray c a).mem = s.mem := by
  dsimp only [State.readArray]
  simp

@[simp] theorem State.performPend_wf (s : State) (c : CtxId) (x0 : Pend) (h : Memory.wf s.mem = true) : Memory.wf
    (s.performPend c x0).mem = true := by
  dsimp only [State.performPend]
  (repeat' split) <;> simp [h]

@[simp] theorem State.performAll_wf (s : State) (c : CtxId) (ps : List Pend) (h : Memory.wf s.mem = true) :
    Memory.wf (s.performAll c ps).mem = true := by
  exact foldl_wf (fun _ _ h => State.performPend_wf _ _ _ h) _ h

@[simp] theorem State.performFor_wf (s : State) (c : CtxId) (p : Pend → Bool) (h : Memory.wf s.mem = true) :
    Memory.wf (s.performFor c p).mem = true := by
  dsimp only [State.performFor]
  simp [h]

@[simp] theorem State.performBefore_wf (s : State) (c : CtxId) (y : Acc) (h : Memory.wf s.mem = true) : Memory.wf
    (s.performBefore c y).mem = true := by
  dsimp only [State.performBefore]
  simp [h]

@[simp] theorem State.performLoads_wf (s : State) (c : CtxId) (p : MemOp → Bool) (h : Memory.wf s.mem = true) :
    Memory.wf (s.performLoads c p).mem = true := by
  dsimp only [State.performLoads]
  simp [h]

@[simp] theorem State.writeCr_mem (s : State) (c : CtxId) (n : BitVec 8) (w : BitVec 6) (v : DWord) :
    (s.writeCr c n w v).mem = s.mem := by
  dsimp only [State.writeCr]
  (repeat' split) <;> simp

@[simp] theorem State.land_mem (s : State) (c : CtxId) (f : Flight) : (s.land c f).mem = s.mem := by
  dsimp only [State.land]
  (repeat' split) <;> simp

@[simp] theorem State.landAll_mem (s : State) (c : CtxId) (fs : List Flight) : (s.landAll c fs).mem = s.mem := by
  dsimp only [State.landAll]
  rw [foldl_mem (fun _ _ => by simp), foldl_mem (fun _ _ => by simp)]

@[simp] theorem State.writeRecord_wf (s : State) (c : CtxId) (r : Nat) (h : Memory.wf s.mem = true) : Memory.wf
    (s.writeRecord c r).mem = true := by
  dsimp only [State.writeRecord]
  simp [h]

@[simp] theorem State.capture_wf (s : State) (c : CtxId) (h : Memory.wf s.mem = true) : Memory.wf
    (s.capture c).1.mem = true := by
  dsimp only [State.capture]
  simp [h]

@[simp] theorem State.plumbBreak_mem (s : State) (c : CtxId) : (s.plumbBreak c).mem = s.mem := by
  dsimp only [State.plumbBreak]
  simp

@[simp] theorem State.plumbPoison_mem (s : State) (c : CtxId) (f : LateFault) : (s.plumbPoison c f).mem = s.mem := by
  dsimp only [State.plumbPoison]
  (repeat' split) <;> simp

@[simp] theorem State.enterTrap_wf (s : State) (c : CtxId) (h : Memory.wf s.mem = true) : Memory.wf
    (s.enterTrap c).mem = true := by
  dsimp only [State.enterTrap]
  (repeat' split) <;> simp [h]

@[simp] theorem State.unwind_wf (s : State) (c : CtxId) (f : LateFault) (multi : Bool) (h : Memory.wf s.mem = true) :
    Memory.wf (s.unwind c f multi).mem = true := by
  dsimp only [State.unwind]
  simp [h]

@[simp] theorem State.unarrive_mem (s : State) (core b : Nat) : (s.unarrive core b).mem = s.mem := by
  dsimp only [State.unarrive]
  (repeat' split) <;> simp

@[simp] theorem State.withdraw_mem (s : State) (c : CtxId) : (s.withdraw c).mem = s.mem := by
  dsimp only [State.withdraw]
  exact foldl_mem (fun _ _ => by simp) _ _

@[simp] theorem State.landWrites_mem (s : State) (c : CtxId) : (s.landWrites c).mem = s.mem := by
  dsimp only [State.landWrites]
  simp

@[simp] theorem State.stopSlice_mem (s : State) (c : CtxId) : (s.stopSlice c).mem = s.mem := by
  dsimp only [State.stopSlice]
  simp

@[simp] theorem State.nodeFault_wf (s : State) (c : CtxId) (f : LateFault) (multi : Bool) (arg : BitVec 32)
    (h : Memory.wf s.mem = true) : Memory.wf (s.nodeFault c f multi arg).mem = true := by
  dsimp only [State.nodeFault]
  (repeat' split) <;> simp [h]

@[simp] theorem State.take_wf (s : State) (c : CtxId) (f : LateFault) (multi : Bool) (arg : BitVec 32)
    (retpc : DWord) (h : Memory.wf s.mem = true) : Memory.wf (s.take c f multi arg retpc).mem = true := by
  dsimp only [State.take]
  (repeat' split) <;> simp [h]

@[simp] theorem State.takeKnown_wf (s : State) (c : CtxId) (fs : List LateFault) (arg : BitVec 32) (retpc : DWord)
    (h : Memory.wf s.mem = true) : Memory.wf (s.takeKnown c fs arg retpc).mem = true := by
  dsimp only [State.takeKnown]
  (repeat' split) <;> simp [h]

@[simp] theorem State.settle_wf (s : State) (c : CtxId) (h : Memory.wf s.mem = true) : Memory.wf
    (s.settle c).mem = true := by
  dsimp only [State.settle]
  simp [h]

@[simp] theorem State.raise_wf (s : State) (c : CtxId) (slot : Nat) (held : Bool) (cause : BitVec 8)
    (detail : BitVec 128) (arg : BitVec 32) (h : Memory.wf s.mem = true) : Memory.wf
    (s.raise c slot held cause detail arg).mem = true := by
  dsimp only [State.raise]
  simp [h]

@[simp] theorem State.raiseAfter_wf (s : State) (c : CtxId) (cause : BitVec 8) (arg : BitVec 32) (pc : DWord)
    (h : Memory.wf s.mem = true) : Memory.wf (s.raiseAfter c cause arg pc).mem = true := by
  dsimp only [State.raiseAfter]
  simp [h]

@[simp] theorem State.fillStop_mem (s : State) (core : Nat) : (s.fillStop core).mem = s.mem := rfl

@[simp] theorem State.detect_wf (s : State) (c : CtxId) (next : List LateFault) (h : Memory.wf s.mem = true) :
    Memory.wf (s.detect c next).mem = true := by
  dsimp only [State.detect]
  (repeat' split) <;> simp [h]

@[simp] theorem State.beforeReturn_wf (s : State) (c : CtxId) (h : Memory.wf s.mem = true) : Memory.wf
    (s.beforeReturn c).mem = true := by
  dsimp only [State.beforeReturn]
  simp [h]

@[simp] theorem State.returnFromTrap_wf (s : State) (c : CtxId) (h : Memory.wf s.mem = true) : Memory.wf
    (s.returnFromTrap c).mem = true := by
  dsimp only [State.returnFromTrap]
  (repeat' split) <;> simp [h]

@[simp] theorem State.settleBlocks_wf (s : State) (i : Instr) (h : Memory.wf s.mem = true) : Memory.wf
    (s.settleBlocks i).mem = true := by
  dsimp only [State.settleBlocks]
  (repeat' split) <;> simp [h]

@[simp] theorem State.alu2_mem (s : State) (lat : Nat) (d a b : BitVec 6) (f : DWord → DWord → DWord) :
    (s.alu2 lat d a b f).mem = s.mem := by
  dsimp only [State.alu2]
  simp

@[simp] theorem State.alu1_mem (s : State) (d a : BitVec 6) (f : DWord → DWord) : (s.alu1 d a f).mem = s.mem := by
  dsimp only [State.alu1]
  simp

@[simp] theorem State.cmpResult_mem (s : State) (lat : Nat) (p : BitVec 4) (b : Bool) (fl : Flags) :
    (s.cmpResult lat p b fl).mem = s.mem := by
  dsimp only [State.cmpResult]
  (repeat' split) <;> simp

@[simp] theorem State.cmp2_mem (s : State) (p : BitVec 4) (a b : BitVec 6) (f : DWord → DWord → Bool) :
    (s.cmp2 p a b f).mem = s.mem := by
  dsimp only [State.cmp2]
  simp

@[simp] theorem State.fpResult_mem (s : State) (w64 ftzo : Bool) (lat : Nat) (d : BitVec 6) (r : Nat × Flags) :
    (s.fpResult w64 ftzo lat d r).mem = s.mem := by
  dsimp only [State.fpResult]
  simp

@[simp] theorem State.fp2_mem (s : State) (w64 f o : Bool) (lat : Nat) (d a b : BitVec 6)
    (op : Fmt → Rm → Num → Num → Nat × Flags) : (s.fp2 w64 f o lat d a b op).mem = s.mem := by
  dsimp only [State.fp2]
  simp

@[simp] theorem State.fpFma_mem (s : State) (w64 f o : Bool) (lat : Nat) (d a b : BitVec 6) :
    (s.fpFma w64 f o lat d a b).mem = s.mem := by
  dsimp only [State.fpFma]
  simp

@[simp] theorem State.fpSqrt_mem (s : State) (w64 f o : Bool) (lat : Nat) (d a : BitVec 6) :
    (s.fpSqrt w64 f o lat d a).mem = s.mem := by
  dsimp only [State.fpSqrt]
  simp

@[simp] theorem State.fpCmp_mem (s : State) (r : Rel) (p : BitVec 4) (a b : BitVec 6) (f w : Bool) :
    (s.fpCmp r p a b f w).mem = s.mem := by
  dsimp only [State.fpCmp]
  (repeat' split) <;> simp

@[simp] theorem State.wrc_mem (s : State) (n : BitVec 8) (w : BitVec 6) (v : DWord) : (s.wrc n w v).mem = s.mem := by
  dsimp only [State.wrc]
  simp

@[simp] theorem State.x2_mem (s : State) (d a b : BitVec 4) (f : BitVec 32 → BitVec 32 → BitVec 32) :
    (s.x2 d a b f).mem = s.mem := by
  dsimp only [State.x2]
  simp

@[simp] theorem State.x1_mem (s : State) (d a : BitVec 4) (f : BitVec 32 → BitVec 32) : (s.x1 d a f).mem = s.mem := by
  dsimp only [State.x1]
  simp

@[simp] theorem State.vmap_mem (s : State) (u : Pfx) (w n lat : Nat) (d : BitVec 5) (f : Nat → Nat × Flags) :
    (s.vmap u w n lat d f).mem = s.mem := by
  dsimp only [State.vmap]
  simp

@[simp] theorem State.vwhole_mem (s : State) (lat : Nat) (d : BitVec 5) (v : Nat) (fl : Flags) :
    (s.vwhole lat d v fl).mem = s.mem := by
  dsimp only [State.vwhole]
  simp

@[simp] theorem State.vfp2_mem (s : State) (u : Pfx) (t : BitVec 3) (lat : Nat) (d a b : BitVec 5) (f o : Bool)
    (op : Fmt → Rm → Num → Num → Nat × Flags) : (s.vfp2 u t lat d a b f o op).mem = s.mem := by
  dsimp only [State.vfp2]
  simp

@[simp] theorem State.vfp1_mem (s : State) (u : Pfx) (t : BitVec 3) (lat : Nat) (d a : BitVec 5) (f o : Bool)
    (op : Fmt → Rm → Num → Nat × Flags) : (s.vfp1 u t lat d a f o op).mem = s.mem := by
  dsimp only [State.vfp1]
  simp

@[simp] theorem State.vfma3_mem (s : State) (u : Pfx) (t : BitVec 3) (neg : Bool) (d a b : BitVec 5) (f o : Bool) :
    (s.vfma3 u t neg d a b f o).mem = s.mem := by
  dsimp only [State.vfma3]
  (repeat' split) <;> simp

@[simp] theorem State.vint2_mem (s : State) (u : Pfx) (t : BitVec 3) (satBit : Bool) (d a b : BitVec 5)
    (op : Int → Int → Int) : (s.vint2 u t satBit d a b op).mem = s.mem := by
  dsimp only [State.vint2]
  simp

@[simp] theorem State.vint1_mem (s : State) (u : Pfx) (t : BitVec 3) (satBit : Bool) (d a : BitVec 5)
    (op : Int → Int) : (s.vint1 u t satBit d a op).mem = s.mem := by
  dsimp only [State.vint1]
  simp

@[simp] theorem State.varith_mem (s : State) (u : Pfx) (t : BitVec 3) (d a b : BitVec 5) (f o : Bool)
    (fp : Fmt → Rm → Num → Num → Nat × Flags) (int : Int → Int → Int) :
    (s.varith u t d a b f o fp int).mem = s.mem := by
  dsimp only [State.varith]
  (repeat' split) <;> simp

@[simp] theorem State.vminmax_mem (s : State) (u : Pfx) (t : BitVec 3) (d a b : BitVec 5) (f : Bool) (mx : Bool) :
    (s.vminmax u t d a b f mx).mem = s.mem := by
  dsimp only [State.vminmax]
  (repeat' split) <;> simp

@[simp] theorem State.vsign_mem (s : State) (u : Pfx) (t : BitVec 3) (d a : BitVec 5) (o : Bool) (neg : Bool) :
    (s.vsign u t d a o neg).mem = s.mem := by
  dsimp only [State.vsign]
  (repeat' split) <;> simp

@[simp] theorem State.vbits2_mem (s : State) (u : Pfx) (t : BitVec 3) (d a b : BitVec 5) (op : Nat → Nat → Nat) :
    (s.vbits2 u t d a b op).mem = s.mem := by
  dsimp only [State.vbits2]
  simp

@[simp] theorem State.vcmp_mem (s : State) (u : Pfx) (t : BitVec 3) (p : BitVec 4) (a b : BitVec 5) (f : Bool)
    (r : Rel) : (s.vcmp u t p a b f r).mem = s.mem := by
  dsimp only [State.vcmp]
  (repeat' split) <;> simp

@[simp] theorem State.vplace_mem (s : State) (u : Pfx) (wd n lat : Nat) (d : BitVec 5) (f : Nat → Nat × Flags) :
    (s.vplace u wd n lat d f).mem = s.mem := by
  dsimp only [State.vplace]
  simp

@[simp] theorem State.vconvert_mem (s : State) (u : Pfx) (dt : BitVec 3) (d a : BitVec 5) (st : BitVec 3) (rm : Rm)
    (f o : Bool) : (s.vconvert u dt d a st rm f o).mem = s.mem := by
  dsimp only [State.vconvert]
  (repeat' split) <;> simp

@[simp] theorem State.vscale_mem (s : State) (u : Pfx) (t : BitVec 3) (d a b : BitVec 5) (f o : Bool) :
    (s.vscale u t d a b f o).mem = s.mem := by
  dsimp only [State.vscale]
  (repeat' split) <;> simp

@[simp] theorem State.vredadd_mem (s : State) (u : Pfx) (t : BitVec 3) (d a : BitVec 5) (f o : Bool) :
    (s.vredadd u t d a f o).mem = s.mem := by
  dsimp only [State.vredadd]
  (repeat' split) <;> simp

@[simp] theorem State.vredmm_mem (s : State) (u : Pfx) (t : BitVec 3) (d a : BitVec 5) (f mx : Bool) :
    (s.vredmm u t d a f mx).mem = s.mem := by
  dsimp only [State.vredmm]
  (repeat' split) <;> simp

@[simp] theorem State.prune_mem (s : State) (u : Pfx) (d a b : BitVec 5) (k : BitVec 2) :
    (s.prune u d a b k).mem = s.mem := by
  dsimp only [State.prune]
  simp

@[simp] theorem State.topk_mem (s : State) (u : Pfx) (t : BitVec 3) (d a b : BitVec 5) :
    (s.topk u t d a b).mem = s.mem := by
  dsimp only [State.topk]
  simp

@[simp] theorem State.popQueue_mem (s : State) (q : BitVec 2) : (s.popQueue q).mem = s.mem := rfl

@[simp] theorem State.vpopq_mem (s : State) (u : Pfx) (d : BitVec 5) (q : BitVec 2) :
    (s.vpopq u d q).mem = s.mem := by
  dsimp only [State.vpopq]
  (repeat' split) <;> simp

@[simp] theorem State.vpopl_mem (s : State) (u : Pfx) (d : BitVec 5) (l : BitVec 3) :
    (s.vpopl u d l).mem = s.mem := by
  dsimp only [State.vpopl]
  (repeat' split) <;> simp

@[simp] theorem State.vmovi_mem (s : State) (u : Pfx) (w : Nat) (d : BitVec 5) (r : Nat × Flags) :
    (s.vmovi u w d r).mem = s.mem := by
  dsimp only [State.vmovi]
  (repeat' split) <;> simp

@[simp] theorem State.qnt_mem (s : State) (u : Pfx) (d a b : BitVec 5) (f : Bool) :
    (s.qnt u d a b f).mem = s.mem := by
  dsimp only [State.qnt]
  (repeat' split) <;> simp

@[simp] theorem State.dq_mem (s : State) (u : Pfx) (d a b : BitVec 5) (o : Bool) : (s.dq u d a b o).mem = s.mem := by
  dsimp only [State.dq]
  (repeat' split) <;> simp

@[simp] theorem State.spenc_mem (s : State) (u : Pfx) (d a : BitVec 5) (k : BitVec 2) :
    (s.spenc u d a k).mem = s.mem := by
  dsimp only [State.spenc]
  simp

@[simp] theorem State.spdec_mem (s : State) (u : Pfx) (d a : BitVec 5) (k : BitVec 2) :
    (s.spdec u d a k).mem = s.mem := by
  dsimp only [State.spdec]
  (repeat' split) <;> simp

@[simp] theorem State.issueArray_mem (s : State) (u : Pfx) (i : Instr) (da db : BitVec 256) (af : BitVec 2) :
    (s.issueArray u i da db af).mem = s.mem := by
  dsimp only [State.issueArray]
  (repeat' split) <;> simp

@[simp] theorem State.tileOp_mem (s : State) (addr : DWord) (opc width : Nat) (frags : List Frag) (act : MemAct)
    (region : List Nat) : (s.tileOp addr opc width frags act region).mem = s.mem := rfl

@[simp] theorem State.accmov_mem (s : State) (u : Pfx) (k a : BitVec 3) : (s.accmov u k a).mem = s.mem := by
  dsimp only [State.accmov]
  (repeat' split) <;> simp

@[simp] theorem State.accst_mem (s : State) (u : Pfx) (a : BitVec 3) (d : BitVec 4) :
    (s.accst u a d).mem = s.mem := rfl

@[simp] theorem State.failArray_mem (s : State) (c : CtxId) (a : ArrayOp) (fs : List FaultDetail) :
    (s.failArray c a fs).mem = s.mem := rfl

@[simp] theorem State.beforeArray_wf (s : State) (c : CtxId) (a : ArrayOp) (h : Memory.wf s.mem = true) : Memory.wf
    (s.beforeArray c a).mem = true := by
  dsimp only [State.beforeArray]
  (repeat' split) <;> simp [h]

@[simp] theorem State.asSeen_wf (s : State) (x0 : Option Seen) (h : Memory.wf s.mem = true) : Memory.wf
    (s.asSeen x0).mem = true := by
  dsimp only [State.asSeen]
  (repeat' split) <;> simp [h]

@[simp] theorem State.landCr_mem (s : State) (c : CtxId) (seq : Nat) : (s.landCr c seq).mem = s.mem := by
  dsimp only [State.landCr]
  simp

@[simp] theorem State.readFor_mem (s : State) (c : CtxId) (a : ArrayOp) : (s.readFor c a).mem = s.mem := by
  dsimp only [State.readFor]
  (repeat' split) <;> simp

@[simp] theorem State.completeArray_wf (s : State) (core : Nat) (h : Memory.wf s.mem = true) : Memory.wf
    (s.completeArray core).mem = true := by
  dsimp only [State.completeArray]
  (repeat' split) <;> simp [h]

@[simp] theorem State.drainStep_mem (s : State) (core : Nat) : (s.drainStep core).mem = s.mem := by
  dsimp only [State.drainStep]
  (repeat' split) <;> simp

@[simp] theorem State.memOp_mem (s : State) (oc : BitVec 4) (sem : BitVec 2) (scope : BitVec 3) (width opc : Nat)
    (addr : DWord) (frags : List Frag) (act : MemAct) :
    (s.memOp oc sem scope width opc addr frags act).mem = s.mem := rfl

@[simp] theorem State.boundLoad_mem (s : State) (i : Instr) (oc : BitVec 4) (width opc : Nat) (d : Dest) :
    (s.boundLoad i oc width opc d).mem = s.mem := by
  dsimp only [State.boundLoad]
  simp

@[simp] theorem State.storeV_mem (s : State) (i : Instr) (oc : BitVec 4) (opc : Nat) (v : BitVec 5) :
    (s.storeV i oc opc v).mem = s.mem := rfl

@[simp] theorem State.claim_mem (s : State) (r : BitVec 6) : (s.claim r).mem = s.mem := rfl

@[simp] theorem State.loadS_mem (s : State) (i : Instr) (a : BitVec 6) (oc : BitVec 4) (sem : BitVec 2)
    (sc : BitVec 3) (w : BitVec 2) : (s.loadS i a oc sem sc w).mem = s.mem := by
  dsimp only [State.loadS]
  (repeat' split) <;> simp

@[simp] theorem State.amo_mem (s : State) (i : Instr) (op : Rmw) (opc : Nat) (a : BitVec 6) (oc : BitVec 4)
    (sem : BitVec 2) (sc : BitVec 3) (w : BitVec 2) : (s.amo i op opc a oc sem sc w).mem = s.mem := rfl

@[simp] theorem State.red_mem (s : State) (i : Instr) (op : Rmw) (opc : Nat) (a : BitVec 6) (oc : BitVec 4)
    (sc : BitVec 3) (w : BitVec 2) : (s.red i op opc a oc sc w).mem = s.mem := rfl

@[simp] theorem State.startCopy_mem (s : State) (i : BitVec 4) (oc : BitVec 4) (kind : CopyKind) (d : BitVec 256)
    (base : DWord) (dst : Nat) (n : Nest) (seen : List (Nat × Byte)) :
    (s.startCopy i oc kind d base dst n seen).mem = s.mem := rfl

@[simp] theorem State.seeBlock_mem (s : State) (i : Instr) : (s.seeBlock i).mem = s.mem := by
  dsimp only [State.seeBlock]
  (repeat' split) <;> simp

theorem State.readBlock_wf (s : State) (i : Instr) {go : State → State}
    (hg : ∀ s, Memory.wf s.mem = true → Memory.wf (go s).mem = true) (h : Memory.wf s.mem = true) :
    Memory.wf (s.readBlock i go).mem = true := by
  dsimp only [State.readBlock]
  split
  · simp [h]
  · exact hg _ (by simp [h])

@[simp] theorem State.copyNest_mem (s : State) (kind : CopyKind) (d : BitVec 4) (a : BitVec 6) (i oc : BitVec 4) :
    (s.copyNest kind d a i oc).mem = s.mem := rfl

@[simp] theorem State.subscribe_wf (s : State) (d : BitVec 4) (a : BitVec 6) (i oc : BitVec 4)
    (h : Memory.wf s.mem = true) : Memory.wf (s.subscribe d a i oc).mem = true := by
  dsimp only [State.subscribe]
  (repeat' split) <;> simp [h]

@[simp] theorem State.pushQueue_mem (s : State) (i : Instr) (opc : Nat) (q : BitVec 2) (oc : BitVec 4)
    (sc : BitVec 3) : (s.pushQueue i opc q oc sc).mem = s.mem := by
  dsimp only [State.pushQueue]
  (repeat' split) <;> simp

@[simp] theorem State.boundary_wf (s : State) (c : CtxId) (h : Memory.wf s.mem = true) : Memory.wf
    (s.boundary c).mem = true := by
  dsimp only [State.boundary]
  (repeat' split) <;> simp [h]

@[simp] theorem State.asLast_mem (s : State) (c : CtxId) (slot : Nat) (f : State → State)
    (hf : ∀ s, (f s).mem = s.mem) :
    (s.asLast c slot f).mem = s.mem := hf _

@[simp] theorem State.addStride_mem (s : State) (c : CtxId) (r : BitVec 6) (v : DWord) :
    (s.addStride c r v).mem = s.mem := by
  dsimp only [State.addStride]
  (repeat' split) <;> simp

@[simp] theorem State.writeIndices_mem (s : State) (c : CtxId) (n : Node) (l : Option Nat) (ds : List Nat) :
    (s.writeIndices c n l ds).mem = s.mem := by
  exact State.asLast_mem _ _ _ _ (fun _ => foldl_mem (fun _ _ => by simp) ds _)

@[simp] theorem State.endPass_wf (s : State) (c : CtxId) (more : Bool) (h : Memory.wf s.mem = true) : Memory.wf
    (s.endPass c more).mem = true := by
  dsimp only [State.endPass]
  (repeat' split) <;> simp [h]

@[simp] theorem State.backEdge_wf (s : State) (c : CtxId) (h : Memory.wf s.mem = true) : Memory.wf
    (s.backEdge c).mem = true := by
  dsimp only [State.backEdge]
  (repeat' split) <;> simp [h]

@[simp] theorem State.openPass_mem (s : State) : (s.openPass).mem = s.mem := by
  dsimp only [State.openPass]
  (repeat' split) <;> simp

@[simp] theorem State.startLoop_mem (s : State) (len : BitVec 5) (depth : Nat) (a : BitVec 6) :
    (s.startLoop len depth a).mem = s.mem := by
  dsimp only [State.startLoop]
  (repeat' split) <;> simp

@[simp] theorem State.transfer_mem (s : State) (a : DWord) : (s.transfer a).mem = s.mem := rfl

@[simp] theorem State.putFirst_mem (s : State) (lat : Nat) (r : BitVec 6) (v : DWord) :
    (s.putFirst lat r v).mem = s.mem := by
  dsimp only [State.putFirst]
  (repeat' split) <;> simp

theorem State.arrive_mem {s t : State} {c : CtxId} {b : BitVec 4} {mask : BitVec 8}
    (ht : s.arrive c b mask = some t) :
    t.mem = s.mem := by
  dsimp only [State.arrive] at ht
  split at ht
  · cases ht; rfl
  · split at ht
    · cases ht
    · split at ht
      · cases ht
        rw [foldl_mem (fun _ _ => by split <;> simp)]
        simp
      · cases ht; simp

@[simp] theorem State.bar_wf (s : State) (b : BitVec 4) (mask : BitVec 8) (h : Memory.wf s.mem = true) :
    Memory.wf (s.bar b mask).mem = true := by
  dsimp only [State.bar]
  split
  · simp [h]
  · split
    · exact h
    · split
      · next t ht =>
        rw [← State.arrive_mem ht] at h
        split <;> simp [h]
      · exact State.raise_wf _ _ _ _ _ _ _ h

@[simp] theorem State.enterPhase_wf (s : State) (c : CtxId) (sl : Slice) (n : Node) (iter : Nat) (more : Bool)
    (h : Memory.wf s.mem = true) : Memory.wf (s.enterPhase c sl n iter more).mem = true := by
  dsimp only [State.enterPhase]
  (repeat' split) <;> simp [h]

@[simp] theorem State.endPhase_wf (s : State) (h : Memory.wf s.mem = true) : Memory.wf (s.endPhase).mem = true := by
  dsimp only [State.endPhase]
  (repeat' split) <;> simp [h]

@[simp] theorem State.retired_mem (s : State) (c : CtxId) : (s.retired c).mem = s.mem := by
  dsimp only [State.retired]
  (repeat' split) <;> simp

@[simp] theorem State.retire_mem (s : State) (c : CtxId) : (s.retire c).mem = s.mem := by
  dsimp only [State.retire]
  (repeat' split) <;> simp

@[simp] theorem State.retireDue_mem (s : State) (c : CtxId) : (s.retireDue c).mem = s.mem := by
  dsimp only [State.retireDue]
  (repeat' split) <;> simp

@[simp] theorem State.post_mem (s : State) (f : Option Behind → Nat → KsMsg) : (s.post f).mem = s.mem := by
  dsimp only [State.post]
  (repeat' split) <;> simp

@[simp] theorem State.popSq_mem (s : State) (r : BitVec 6) : (s.popSq r).mem = s.mem := by
  dsimp only [State.popSq]
  simp

@[simp] theorem State.landDue_wf (s : State) (c : CtxId) (cycle : Nat) (h : Memory.wf s.mem = true) : Memory.wf
    (s.landDue c cycle).mem = true := by
  dsimp only [State.landDue]
  simp [h]

@[simp] theorem State.arriveByDue_wf (s : State) (c : CtxId) (l op : Nat) (h : Memory.wf s.mem = true) :
    Memory.wf (s.arriveByDue c l op).mem = true := by
  dsimp only [State.arriveByDue]
  (repeat' split) <;> simp [h]

@[simp] theorem State.landingDue_wf (s : State) (c : CtxId) (l : Nat) (h : Memory.wf s.mem = true) :
    Memory.wf (s.landingDue c l).mem = true := by
  dsimp only [State.landingDue]
  (repeat' split) <;> simp [h]

@[simp] theorem State.landingsDue_wf (s : State) (n : Nat) (h : Memory.wf s.mem = true) :
    Memory.wf (s.landingsDue n).mem = true := by
  dsimp only [State.landingsDue]
  exact foldl_wf (fun _ _ h => by simp [h]) _ (foldl_wf (fun _ _ h => by simp [h]) _ h)

@[simp] theorem State.tickCore_wf (s : State) (n : Nat) (h : Memory.wf s.mem = true) : Memory.wf
    (s.tickCore n).mem = true := by
  dsimp only [State.tickCore]
  simp [h]

@[simp] theorem State.afterPops_mem (s : State) (acting : List SlotOp) (o : SlotOp) :
    (s.afterPops acting o).mem = s.mem := by
  dsimp only [State.afterPops]
  (repeat' split) <;> simp

@[simp] theorem State.atBarrier_mem (s : State) (c : CtxId) (p : Planned) (acting : List SlotOp) (j : Option Nat) :
    (s.atBarrier c p acting j).1.mem = s.mem := by
  dsimp only [State.atBarrier]
  split
  · rfl
  · split
    · rfl
    · split
      · rfl
      · split
        · rfl
        · next t ht => exact State.arrive_mem ht

@[simp] theorem State.seeBlocks_mem (s : State) (l : List SlotOp) (n : Nat) : (s.seeBlocks l n).mem = s.mem := by
  dsimp only [State.seeBlocks]
  exact foldl_mem (fun s o => State.seeBlock_mem (s.atSlot o) o.instr) _ _

@[simp] theorem State.headOf_wf (s : State) (c : CtxId) (f : Fetched) (h : Memory.wf s.mem = true) :
    Memory.wf (s.headOf c f).1.mem = true := by
  dsimp only [State.headOf]
  split
  · exact h
  · split
    · exact h
    · split
      · simp [h]
      · split
        · exact h
        · split
          · rw [State.upd_mem, State.seeBlocks_mem]
            exact foldl_wf (fun _ _ h => State.settleBlocks_wf _ _ h) _ h
          · rw [State.atBarrier_mem]
            exact foldl_wf (fun _ _ h => State.settleBlocks_wf _ _ h) _ (by exact h)

@[simp] theorem State.head_wf (s : State) (c : CtxId) (h : Memory.wf s.mem = true) : Memory.wf
    (s.head c).1.mem = true := by
  dsimp only [State.head]
  (repeat' split) <;> simp [h]

@[simp] theorem State.beginIssue_mem (s : State) (c : CtxId) (p : Planned) (acting : List SlotOp) :
    (s.beginIssue c p acting).mem = s.mem := by
  dsimp only [State.beginIssue]
  (repeat' split) <;> simp

@[simp] theorem State.endIssue_mem (s : State) (c : CtxId) : (s.endIssue c).mem = s.mem := rfl

@[simp] theorem State.noteFetch_mem (s : State) (c : CtxId) (pc : DWord) (size : Nat) :
    (s.noteFetch c pc size).mem = s.mem := rfl

@[simp] theorem State.raiseHead_wf (s : State) (c : CtxId) (x0 : Head) (h : Memory.wf s.mem = true) : Memory.wf
    (s.raiseHead c x0).mem = true := by
  dsimp only [State.raiseHead]
  (repeat' split) <;> simp [h]

@[simp] theorem State.inCycle_wf (s : State) (n : Nat) {go : State → State}
    (hg : ∀ s, Memory.wf s.mem = true → Memory.wf (go s).mem = true) (h : Memory.wf s.mem = true) :
    Memory.wf (s.inCycle n go).mem = true := by
  have hb : Memory.wf
    (((((s.backEdge ⟨n, false⟩).backEdge ⟨n, true⟩).retireDue ⟨n, false⟩).retireDue ⟨n, true⟩).landingsDue n).mem
      = true := State.landingsDue_wf _ _ (by simp [h])
  dsimp only [State.inCycle]
  split
  · rw [State.updCore_mem]; exact hb
  · exact hg _ (State.tickCore_wf _ _ hb)

@[simp] theorem State.nextCycle_mem (s : State) (c : CtxId) : (s.nextCycle c).mem = s.mem := rfl

@[simp] theorem State.dropNext_wf (s : State) (c : CtxId) (h : Memory.wf s.mem = true) : Memory.wf
    (s.dropNext c).mem = true := by
  dsimp only [State.dropNext]
  (repeat' split) <;> simp [h]

@[simp] theorem State.landOne_mem (s : State) (c : CtxId) (k : Nat) : (s.landOne c k).mem = s.mem := by
  dsimp only [State.landOne]
  (repeat' split) <;> simp

@[simp] theorem State.landWrc_mem (s : State) (c : CtxId) (p : BitVec 8 → Bool) : (s.landWrc c p).mem = s.mem := by
  dsimp only [State.landWrc]
  (repeat' split) <;> simp

@[simp] theorem State.landingArrives_mem (s : State) (c : CtxId) (l : BitVec 3) (o : MemOp) :
    (s.landingArrives c l o).mem = s.mem := by
  dsimp only [State.landingArrives]
  (repeat' split) <;> simp

@[simp] theorem State.moveUnits_wf (s : State) (core : Nat) (one : Bool) (q : CopyCmd) (id : Nat)
    (us : List (List Nat × List Nat)) (h : Memory.wf s.mem = true) :
    Memory.wf (s.moveUnits core one q id us).mem = true := by
  dsimp only [State.moveUnits]
  have hs : ∀ cells, Memory.wf ((s.find one q.pc (us.flatMap Prod.fst)).store cells).1.mem = true :=
    fun cells => State.store_wf _ _ (by simp [h])
  have hp : ∀ (l : List Nat) (t : State), Memory.wf t.mem = true →
      Memory.wf (l.foldl (fun s g => s.poisonGranule g) t).mem = true :=
    fun l t ht => foldl_wf (f := fun s g => s.poisonGranule g) (fun _ _ h => by simp [h]) l ht
  have hn : ∀ (t : State) (a : Agent) (b : Nat) (c : BitVec 16) (o p e : Bool) (g : List Nat), Memory.wf t.mem = true →
      Memory.wf (us.foldl (fun s u => (s.noteHeld a b .read c u.1 o g e).noteHeld a b .write c u.2 p g e) t).mem = true :=
    fun t a b c o p e g ht => foldl_wf (fun _ _ h => by simp [h]) us ht
  generalize (match q.kind with | .ring _ => true | _ => false) = ring
  (repeat' split) <;> first
    | exact hn _ _ _ _ _ _ _ _ (hp _ _ (hs _))
    | (rw [State.plumbEvent_mem]; exact hn _ _ _ _ _ _ _ _ (hp _ _ (hs _)))

@[simp] theorem State.plumbAt_mem (s : State) (x : BitVec 4) (g : Option Nat) : (s.plumbAt x g).mem = s.mem := by
  dsimp only [State.plumbAt]
  (repeat' split) <;> simp

@[simp] theorem State.beforeCopy_wf (s : State) (c : CtxId) (r : CopyCmd) (h : Memory.wf s.mem = true) : Memory.wf
    (s.beforeCopy c r).mem = true := by
  dsimp only [State.beforeCopy]
  simp [h]

@[simp] theorem State.firstSlot_wf (s : State) (c : CtxId) (r : CopyCmd) (keys : List Nat) (h : Memory.wf s.mem = true) :
    Memory.wf (s.firstSlot c r keys).mem = true := by
  dsimp only [State.firstSlot]
  simp [h]

@[simp] theorem State.runCopy_wf (s : State) (c : CtxId) (i : BitVec 4) (r : CopyCmd) (h : Memory.wf s.mem = true) :
    Memory.wf (s.runCopy c i r).mem = true := by
  have hf : ∀ keys, Memory.wf ((s.beforeCopy c r).firstSlot c r keys).mem = true :=
    fun _ => State.firstSlot_wf _ _ _ _ (State.beforeCopy_wf _ _ _ h)
  dsimp only [State.runCopy]
  (repeat' split) <;> simp [h, hf]

@[simp] theorem State.putSlotState_wf (s : State) (core : Nat) (q : CopyCmd) (r : Ring) (m : Nat) (v : Byte)
    (h : Memory.wf s.mem = true) : Memory.wf (s.putSlotState core q r m v).mem = true := by
  dsimp only [State.putSlotState]
  simp [h]

@[simp] theorem State.closeRing_mem (s : State) (c : CtxId) (i : BitVec 4) (m : Nat) (r : Ring) :
    (s.closeRing c i m r).mem = s.mem := by
  dsimp only [State.closeRing]
  (repeat' split) <;> simp

@[simp] theorem State.peekSlot_mem (s : State) (c : CtxId) (q : CopyCmd) (r : Ring) (m : Nat) :
    (s.peekSlot c q r m).mem = s.mem := by
  dsimp only [State.peekSlot]
  (repeat' split) <;> simp

@[simp] theorem State.runRing_wf (s : State) (c : CtxId) (i : BitVec 4) (q : CopyCmd) (r : Ring) (m : Nat)
    (st : RingStep) (h : Memory.wf s.mem = true) : Memory.wf (s.runRing c i q r m st).mem = true := by
  dsimp only [State.runRing]
  (repeat' split) <;> simp [h]

@[simp] theorem State.stopRing_wf (s : State) (c : CtxId) (i : BitVec 4) (q : CopyCmd) (r : Ring) (m : Nat)
    (st : RingStep) (e : Nat × Bool × BitVec 4 × Nat) (h : Memory.wf s.mem = true) : Memory.wf
    (s.stopRing c i q r m st e).mem = true := by
  dsimp only [State.stopRing]
  (repeat' split) <;> simp [h]

@[simp] theorem State.quarry_wf (s : State) (c : CtxId) (i : BitVec 4) (m : Nat) (stop : Bool)
    (may : RingStep → Bool) (h : Memory.wf s.mem = true) : Memory.wf (s.quarry c i m stop may).mem = true := by
  dsimp only [State.quarry]
  (repeat' split) <;> simp [h]

@[simp] theorem State.completeTile_wf (s : State) (c : CtxId) (o : MemOp) (h : Memory.wf s.mem = true) : Memory.wf
    (s.completeTile c o).mem = true := by
  dsimp only [State.completeTile]
  (repeat' split) <;> simp [h]

@[simp] theorem State.detectLate_wf (s : State) (c : CtxId) (h : Memory.wf s.mem = true) : Memory.wf
    (s.detectLate c).mem = true := by
  dsimp only [State.detectLate]
  (repeat' split) <;> simp [h]

@[simp] theorem State.putEntries_wf (s : State) (n : Nat) (es : List DequeEntry) (h : Memory.wf s.mem = true) :
    Memory.wf (s.putEntries n es).mem = true := by
  dsimp only [State.putEntries]
  split
  · exact State.ksStore_wf _ _ _ _ (foldl_wf (fun _ _ h => State.ksStore_wf _ _ _ _ h) _ h)
  · simp [h]

@[simp] theorem State.renewIdle_mem (s : State) (n : Nat) : (s.renewIdle n).mem = s.mem := rfl

@[simp] theorem State.setWaiting_wf (s : State) (n : Nat) (es : List DequeEntry) (h : Memory.wf s.mem = true) :
    Memory.wf (s.setWaiting n es).mem = true := by
  dsimp only [State.setWaiting]
  (repeat' split) <;> simp [h]

@[simp] theorem State.findDeque_mem (s : State) (n : Nat) : (s.findDeque n).mem = s.mem := by
  dsimp only [State.findDeque]
  (repeat' split) <;> simp

@[simp] theorem State.pushEntry_wf (s : State) (n : Nat) (e : DequeEntry) (h : Memory.wf s.mem = true) : Memory.wf
    (s.pushEntry n e).mem = true := by
  dsimp only [State.pushEntry]
  simp [h]

@[simp] theorem State.popEntry_wf (s : State) (n : Nat) (h : Memory.wf s.mem = true) : Memory.wf
    (s.popEntry n).mem = true := by
  dsimp only [State.popEntry]
  (repeat' split) <;> simp [h]

@[simp] theorem State.dispatchOn_wf (s : State) (gi ni home : Nat) (cores : List Nat) (h : Memory.wf s.mem = true) :
    Memory.wf (s.dispatchOn gi ni home cores).mem = true := by
  dsimp only [State.dispatchOn]
  split
  · refine foldl_wf (fun _ _ h => State.pushEntry_wf _ _ _ h) _ ?_
    simp only [State.updNode_mem]
    rw [foldl_mem (fun _ _ => by simp)]
    simp [h]
  · exact h

@[simp] theorem State.completeGraph_wf (s : State) (gi : Nat) (h : Memory.wf s.mem = true) : Memory.wf
    (s.completeGraph gi).mem = true := by
  dsimp only [State.completeGraph]
  (repeat' split) <;> simp [h]

@[simp] theorem State.postBeads_wf (s : State) (gi ni : Nat) (h : Memory.wf s.mem = true) : Memory.wf
    (s.postBeads gi ni).mem = true := by
  dsimp only [State.postBeads]
  (repeat' split) <;> first | exact h | (simp [h]) | exact foldl_wf (fun _ _ h => by simp [h]) _ (by simp [h])

@[simp] theorem State.finishNode_wf (s : State) (gi ni : Nat) (h : Memory.wf s.mem = true) :
    Memory.wf (s.finishNode gi ni).mem = true := by
  refine State.completeGraph_wf _ _ (State.writeGraph_wf _ _ _ _ _ ?_)
  rw [State.updGraph_mem]
  exact State.postBeads_wf _ _ _ h

@[simp] theorem State.freeImage_mem (s : State) (space : Nat) (i : Image) : (s.freeImage space i).mem = s.mem := by
  dsimp only [State.freeImage]
  (repeat' split) <;> simp

@[simp] theorem State.decline_mem (s : State) (c : CtxId) : (s.decline c).mem = s.mem := by
  dsimp only [State.decline]
  (repeat' split) <;> simp

@[simp] theorem State.abandonSave_mem (s : State) (c : CtxId) : (s.abandonSave c).mem = s.mem := by
  dsimp only [State.abandonSave]
  simp

@[simp] theorem State.freeCtx_mem (s : State) (c : CtxId) : (s.freeCtx c).mem = s.mem := rfl

@[simp] theorem State.enter_mem (s : State) (c : CtxId) (x : Ctx) : (s.enter c x).mem = s.mem := rfl

@[simp] theorem State.putImage_wf (s : State) (c : CtxId) (f : Footprint) (keys : List Nat) (bs : List Byte) (space : Nat)
    (sp : Space) (i : Nat) (im : Image) (h : Memory.wf s.mem = true) :
    Memory.wf (s.putImage c f keys bs space sp i im).mem = true := by
  dsimp only [State.putImage]
  rw [foldl_mem (fun _ _ => by simp)]
  exact State.store_wf _ _ h

@[simp] theorem State.noteSave_mem (s : State) (c : CtxId) (f : Footprint) (ks : List Nat) (va : DWord) :
    (s.noteSave c f ks va).mem = s.mem := rfl

@[simp] theorem State.requeue_wf (s : State) (c : CtxId) (sl : Slice) (n : Node) (h : Memory.wf s.mem = true) :
    Memory.wf (s.requeue c sl n).mem = true := by
  dsimp only [State.requeue]
  rw [State.setCourse_mem]
  exact State.pushEntry_wf _ _ _ (by simpa using h)

@[simp] theorem State.findFootprint_mem (s : State) (c : CtxId) (f : Footprint) : (s.findFootprint c f).mem = s.mem := by
  dsimp only [State.findFootprint]
  split <;> simp

@[simp] theorem State.failSave_wf (s : State) (c : CtxId) (h : Memory.wf s.mem = true) :
    Memory.wf (s.failSave c).mem = true := State.take_wf _ _ _ _ _ _ h

@[simp] theorem State.saveImage_wf (s : State) (c : CtxId) (sl : Slice) (n : Node) (space : Nat) (f : Footprint)
    (bs : List Byte) (h : Memory.wf s.mem = true) : Memory.wf (s.saveImage c sl n space f bs).mem = true := by
  dsimp only [State.saveImage]
  split
  · exact State.failSave_wf _ _ h
  · split
    · exact State.failSave_wf _ _ h
    · refine State.requeue_wf _ _ _ _ ?_
      rw [State.noteSave_mem]
      exact State.putImage_wf _ _ _ _ _ _ _ _ _ h

@[simp] theorem State.save_wf (s : State) (c : CtxId) (h : Memory.wf s.mem = true) :
    Memory.wf (s.save c).mem = true := by
  dsimp only [State.save]
  split
  · exact h
  · split
    · exact ite_wf (by simp [h]) (State.saveImage_wf _ _ _ _ _ _ _ (by simp [h]))
    · simp [h]

@[simp] theorem State.readPart_mem (s : State) (c : CtxId) (space va n : Nat) : (s.readPart c space va n).mem = s.mem := by
  dsimp only [State.readPart]
  simp

@[simp] theorem State.readImage_mem (s : State) (c : CtxId) (space : Nat) (va : DWord) :
    (s.readImage c space va).1.mem = s.mem := by
  dsimp only [State.readImage]
  (repeat' split) <;> simp

@[simp] theorem State.failRestore_wf (s : State) (c : CtxId) (n : Node) (i : Image) (h : Memory.wf s.mem = true) :
    Memory.wf (s.failRestore c n i).mem = true := by
  dsimp only [State.failRestore]
  simp [h]

@[simp] theorem State.restore_wf (s : State) (c : CtxId) (g : Graph) (n : Node) (i : Image)
    (h : Memory.wf s.mem = true) : Memory.wf (s.restore c g n i).mem = true := by
  dsimp only [State.restore]
  (repeat' split) <;> simp [h]

@[simp] theorem State.nodeStarts_wf (s : State) (gi ni : Nat) (h : Memory.wf s.mem = true) : Memory.wf
    (s.nodeStarts gi ni).mem = true := by
  dsimp only [State.nodeStarts]
  (repeat' split) <;> simp [h]

@[simp] theorem State.startSlice_wf (s : State) (core : Nat) (c : CtxId) (e : DequeEntry)
    (h : Memory.wf s.mem = true) :
    Memory.wf (s.startSlice core c e).mem = true := by
  have hp : Memory.wf ((s.findDeque core).popEntry core).mem = true := State.popEntry_wf _ core (by simp [h])
  dsimp only [State.startSlice]
  generalize (s.findDeque core).popEntry core = t at hp ⊢
  have hd : ∀ d, Memory.wf ({ t with declined := d } : State).mem = true := fun _ => hp
  split
  · exact hd _
  · split
    · split
      · split
        · exact State.restore_wf _ _ _ _ _ (State.nodeStarts_wf _ _ _ (hd _))
        · exact State.nodeStarts_wf _ _ _ (hd _)
      · rw [State.sync_mem, State.enter_mem]
        exact State.nodeStarts_wf _ _ _ (hd _)
    · exact hd _

@[simp] theorem State.requestKill_mem (s : State) (c : CtxId) : (s.requestKill c).mem = s.mem := by
  dsimp only [State.requestKill]
  (repeat' split) <;> simp

@[simp] theorem State.killNode_mem (s : State) (gi ni : Nat) : (s.killNode gi ni).mem = s.mem := by
  dsimp only [State.killNode]
  exact foldl_mem (fun _ _ => by split <;> simp) _ _

@[simp] theorem State.dropEntries_wf (s : State) (gi ni core : Nat) (h : Memory.wf s.mem = true) : Memory.wf
    (s.dropEntries gi ni core).mem = true := by
  dsimp only [State.dropEntries]
  (repeat' split) <;> simp [h]

@[simp] theorem State.dropAllEntries_wf (s : State) (gi ni : Nat) (cores : List Nat) (h : Memory.wf s.mem = true) :
    Memory.wf (s.dropAllEntries gi ni cores).mem = true := by
  dsimp only [State.dropAllEntries]
  exact foldl_wf (fun _ _ h => by simp [h]) _ (by simp [h])

@[simp] theorem State.dropImages_mem (s : State) (gi ni : Nat) : (s.dropImages gi ni).mem = s.mem := by
  dsimp only [State.dropImages]
  (repeat' split) <;> first | rfl | (rw [foldl_mem] ; simp)

@[simp] theorem State.dropWaiting_wf (s : State) (gi ni : Nat) (h : Memory.wf s.mem = true) :
    Memory.wf (s.dropWaiting gi ni).mem = true := by
  unfold State.dropWaiting
  rw [State.dropImages_mem]
  exact State.dropAllEntries_wf s gi ni (List.range 256) h

@[simp] theorem State.putGroup_mem (s : State) (r : Replica) : (s.putGroup r).mem = s.mem := rfl

@[simp] theorem State.findRegions_mem (s : State) (gi : Nat) (r : Replica) : (s.findRegions gi r).mem = s.mem := by
  dsimp only [State.findRegions]
  split
  · rw [State.plumbEvent_mem]
    exact foldl_mem (fun _ _ => by simp) _ _
  · exact foldl_mem (fun _ _ => by simp) _ _

@[simp] theorem State.holdBoundary_mem (s : State) (gi ni : Nat) (r : Replica) :
    (s.holdBoundary gi ni r).mem = s.mem := by
  dsimp only [State.holdBoundary]
  simp

@[simp] theorem State.pairFault_wf (s : State) (c : CtxId) (pc : DWord) (h : Memory.wf s.mem = true) : Memory.wf
    (s.pairFault c pc).mem = true := by
  dsimp only [State.pairFault]
  (repeat' split) <;> simp [h]

@[simp] theorem State.logFault_mem (s : State) (gi ni core : Nat) (cause : BitVec 8) (pc : DWord) :
    (s.logFault gi ni core cause pc).mem = s.mem := by
  dsimp only [State.logFault]
  (repeat' split) <;> simp

@[simp] theorem State.unready_mem (s : State) (gi ni : Nat) : (s.unready gi ni).mem = s.mem := by
  dsimp only [State.unready]
  (repeat' split) <;> simp

@[simp] theorem State.haltNode_wf (s : State) (gi ni : Nat) (h : Memory.wf s.mem = true) : Memory.wf
    (s.haltNode gi ni).mem = true := by
  dsimp only [State.haltNode]
  (repeat' split) <;> simp [h]

@[simp] theorem State.addCcnt_wf (s : State) (gi ni : Nat) (h : Memory.wf s.mem = true) : Memory.wf
    (s.addCcnt gi ni).mem = true := by
  dsimp only [State.addCcnt]
  (repeat' split) <;> simp [h]

@[simp] theorem State.cancelNode_wf (s : State) (gi ni : Nat) (h : Memory.wf s.mem = true) :
    Memory.wf (s.cancelNode gi ni).mem = true := by
  refine State.addCcnt_wf _ _ _ ?_
  split
  · split
    · exact State.haltNode_wf _ _ _ h
    · exact State.setNodeState_wf _ _ _ _ (State.haltNode_wf _ _ _ h)
  · exact State.haltNode_wf _ _ _ h

@[simp] theorem State.restC1_mem (s : State) (k : Nat) (x : Cancel) (todo : List C1Write) : (s.restC1 k x todo).mem = s.mem := rfl

@[simp] theorem State.writeC1_wf (s : State) (gi : Nat) (w : C1Write) (h : Memory.wf s.mem = true) :
    Memory.wf (s.writeC1 gi w).mem = true := by
  dsimp only [State.writeC1]
  (repeat' split) <;> simp [h]

@[simp] theorem State.stepC1_wf (s : State) (k : Nat) (x : Cancel) (h : Memory.wf s.mem = true) :
    Memory.wf (s.stepC1 k x).mem = true := by
  dsimp only [State.stepC1]
  (repeat' split) <;> simp [h]

@[simp] theorem State.beginC1_mem (s : State) (x : Cancel) : (s.beginC1 x).mem = s.mem := rfl

@[simp] theorem State.cancelC1_wf (s : State) (gi ni : Nat) (h : Memory.wf s.mem = true) :
    Memory.wf (s.cancelC1 gi ni).mem = true := by
  dsimp only [State.cancelC1]
  split
  · exact h
  · exact State.addCcnt_wf _ _ _ (State.setNodeState_wf _ _ _ _ (State.haltNode_wf _ _ _ h))

@[simp] theorem State.takeFault_wf (s : State) (k gi ni attempt core : Nat) (cause : BitVec 8) (pc : DWord)
    (h : Memory.wf s.mem = true) : Memory.wf (s.takeFault k gi ni attempt core cause pc).mem = true := by
  dsimp only [State.takeFault]
  (repeat' split) <;> simp [h]

@[simp] theorem State.abortGraph_wf (s : State) (gi : Nat) (h : Memory.wf s.mem = true) :
    Memory.wf (s.abortGraph gi).mem = true := by
  dsimp only [State.abortGraph]
  split
  · exact h
  · exact h

@[simp] theorem State.countRetry_wf (s : State) (gi ni : Nat) (h : Memory.wf s.mem = true) : Memory.wf
    (s.countRetry gi ni).mem = true := by
  dsimp only [State.countRetry]
  (repeat' split) <;> simp [h]

@[simp] theorem State.voidNode_wf (s : State) (gi ni : Nat) (h : Memory.wf s.mem = true) : Memory.wf
    (s.voidNode gi ni).mem = true := by
  dsimp only [State.voidNode]
  (repeat' split) <;> simp [h]

@[simp] theorem State.settleNode_wf (s : State) (gi : Nat) (retry : Bool) (ni : Nat) (h : Memory.wf s.mem = true) :
    Memory.wf (s.settleNode gi retry ni).mem = true := by
  dsimp only [State.settleNode]
  split
  · exact h
  · have hc := fun n => State.setCcnt_wf s gi ni n h
    split
    · exact hc _
    · split
      · exact State.voidNode_wf _ _ _ (hc _)
      · split
        · split
          · exact State.becomeReady_wf _ _ _ (State.setNodeState_wf _ _ _ _ (hc _))
          · exact State.setNodeState_wf _ _ _ _ (hc _)
        · exact hc _

@[simp] theorem State.storeBytes_wf (s : State) (who : Agent) (space va : Nat) (bs : List Byte)
    (h : Memory.wf s.mem = true) : Memory.wf (s.storeBytes who space va bs).mem = true := by
  dsimp only [State.storeBytes]
  (repeat' split) <;> simp [h]

@[simp] theorem State.copyRegions_wf (s : State) (space area : Nat) (rs : List Region) (h : Memory.wf s.mem = true) :
    Memory.wf (s.copyRegions space area rs).mem = true := by
  induction rs generalizing s area with
  | nil => exact h
  | cons r rs ih =>
    refine ih _ _ ?_
    split <;> simp [h]

@[simp] theorem State.countPoison_wf (s : State) (gi : Nat) (r : Replica) (h : Memory.wf s.mem = true) :
    Memory.wf (s.countPoison gi r).mem = true := by
  dsimp only [State.countPoison]
  split <;> simp [h]

@[simp] theorem State.haltGraph_wf (s : State) (gi : Nat) (h : Memory.wf s.mem = true) : Memory.wf
    (s.haltGraph gi).mem = true := by
  dsimp only [State.haltGraph]
  (repeat' split) <;> simp [h]

@[simp] theorem State.decideReplica_wf (s : State) (r : Replica) (gi ni : Nat) (h : Memory.wf s.mem = true) :
    Memory.wf (s.decideReplica r gi ni).mem = true := by
  dsimp only [State.decideReplica]
  (repeat' split) <;> simp [h]

@[simp] theorem State.tryDecide_wf (s : State) (timeout : Bool) (r : Replica) (h : Memory.wf s.mem = true) :
    Memory.wf (s.tryDecide timeout r).mem = true := by
  dsimp only [State.tryDecide]
  (repeat' split) <;> simp [h]

@[simp] theorem State.fillRegions_wf (s : State) (space : Nat) (rs : List Region) (bs : List Byte)
    (h : Memory.wf s.mem = true) : Memory.wf (s.fillRegions space rs bs).mem = true := by
  induction rs generalizing s bs with
  | nil => exact h
  | cons r rs ih => exact ih _ _ (State.storeBytes_wf _ _ _ _ _ h)

@[simp] theorem State.rebead_wf (s : State) (gi ni : Nat) (h : Memory.wf s.mem = true) :
    Memory.wf (s.rebead gi ni).mem = true := by
  dsimp only [State.rebead]
  split
  · refine State.setArrive_wf _ _ _ _ (foldl_wf (fun s p h => ?_) _ (foldl_wf (fun s j h => by simp [h]) _ h))
    split
    · exact foldl_wf (fun s e h => by split <;> simp [h]) _ h
    · exact h
  · exact h

@[simp] theorem State.relaunch_wf (s : State) (gi : Nat) (h : Memory.wf s.mem = true) :
    Memory.wf (s.relaunch gi).mem = true := by
  dsimp only [State.relaunch]
  split
  · exact h
  · refine foldl_wf (fun s n h => ?_) _ (State.writeGraph_wf _ _ _ _ _ (foldl_wf (fun s n h =>
      State.setNodeState_wf _ _ _ _ (State.setCcnt_wf _ _ _ _ (State.rebead_wf _ _ _ h))) _ (by simp [h])))
    split
    · split <;> simp [h]
    · exact h

@[simp] theorem State.reloadRegions_wf (s : State) (i : Nat) (r : Replica) (gi : Nat) (h : Memory.wf s.mem = true) :
    Memory.wf (s.reloadRegions i r gi).mem = true := by
  dsimp only [State.reloadRegions]
  simp [h]

@[simp] theorem State.countReplay_mem (s : State) : s.countReplay.mem = s.mem := by
  dsimp only [State.countReplay]
  exact foldl_mem (fun _ _ => by split <;> simp) _ _

@[simp] theorem State.cutOp_wf (s : State) (c : CtxId) (o : MemOp) (h : Memory.wf s.mem = true) : Memory.wf
    (s.cutOp c o).mem = true := by
  dsimp only [State.cutOp]
  (repeat' split) <;> simp [h]

@[simp] theorem State.cutCopy_wf (s : State) (port : Nat) (c : CtxId) (i : Nat) (h : Memory.wf s.mem = true) :
    Memory.wf (s.cutCopy port c i).mem = true := by
  dsimp only [State.cutCopy]
  (repeat' split) <;> simp [h]

@[simp] theorem State.cutRing_wf (s : State) (port : Nat) (c : CtxId) (i m : Nat) (h : Memory.wf s.mem = true) :
    Memory.wf (s.cutRing port c i m).mem = true := by
  dsimp only [State.cutRing]
  (repeat' split) <;> simp [h]

@[simp] theorem State.cutCopies_wf (s : State) (port : Nat) (c : CtxId) (h : Memory.wf s.mem = true) :
    Memory.wf (s.cutCopies port c).mem = true := by
  refine foldl_wf (fun _ _ h => foldl_wf (fun _ _ h => State.cutRing_wf _ _ _ _ _ h) _ h) _ ?_
  exact foldl_wf
    (fun _ _ h => foldl_wf (fun _ _ h => State.cutRing_wf _ _ _ _ _ h) _ (State.cutCopy_wf _ _ _ _ h)) _ h

@[simp] theorem State.cutPort_wf (s : State) (port : Nat) (h : Memory.wf s.mem = true) :
    Memory.wf (s.cutPort port).mem = true := by
  refine foldl_wf ?_ _ h
  intro s c h
  exact State.cutCopies_wf _ _ _ (foldl_wf (fun _ _ h => State.cutOp_wf _ _ _ h) _ h)

@[simp] theorem State.linkDown_wf (s : State) (l : Nat) (h : Memory.wf s.mem = true) :
    Memory.wf (s.linkDown l).mem = true := by
  have hc : Memory.wf (if l < 12 then s.cutPort l else s).mem = true := by
    split
    · exact State.cutPort_wf _ _ h
    · exact h
  dsimp only [State.linkDown]
  generalize (if l < 12 then s.cutPort l else s) = cut at hc ⊢
  split
  · simp [hc]
  · exact hc

@[simp] theorem State.afterReset_wf (s : State) (h : Memory.wf s.mem = true) :
    Memory.wf s.afterReset.mem = true := by
  exact SMap.wf_filter _ h

@[simp] theorem State.setUp_mem (s : State) (port : Nat → Port) : (s.setUp port).mem = s.mem := rfl

@[simp] theorem State.linksFail_mem (s : State) : (s.linksFail).mem = s.mem := rfl

@[simp] theorem State.bootWith_wf (s : State) (loaded firmware : Option (List Byte)) (h : Memory.wf s.mem = true) :
    Memory.wf (s.bootWith loaded firmware).mem = true := by
  dsimp only [State.bootWith]
  (repeat' split) <;> simp [h]

@[simp] theorem State.popBus_mem (s : State) : (s.popBus).mem = s.mem := rfl

@[simp] theorem State.countWinerr_mem (s : State) : (s.countWinerr).mem = s.mem := rfl

@[simp] theorem State.answerData_mem (s : State) (a : HostAccess) (d : List Byte) :
    (s.answerData a d).mem = s.mem := by
  dsimp only [State.answerData]
  (repeat' split) <;> simp

@[simp] theorem State.beadWrite_wf (s : State) (a : HostAccess) (h : Memory.wf s.mem = true) : Memory.wf
    (s.beadWrite a).mem = true := by
  dsimp only [State.beadWrite]
  (repeat' split) <;> simp [h]

@[simp] theorem State.mgmtWrite_mem (s : State) (a : HostAccess) : (s.mgmtWrite a).mem = s.mem := by
  dsimp only [State.mgmtWrite]
  (repeat' split) <;> simp

@[simp] theorem State.answer_mem (s : State) (status : BitVec 8) : (s.answer status).mem = s.mem := rfl

@[simp] theorem State.invalidate_mem (s : State) (space : Nat) : (s.invalidate space).mem = s.mem := rfl

@[simp] theorem State.newTable_mem (s : State) (size : Nat) : (s.newTable size).2.mem = s.mem := rfl

@[simp] theorem State.putLeaf_wf (s : State) (va size entry : Nat) (ls : List Level) (base : Nat)
    (h : Memory.wf s.mem = true) :
    Memory.wf (s.putLeaf va size entry ls base).mem = true := by
  induction ls generalizing s base with
  | nil => exact h
  | cons l ls ih =>
    unfold State.putLeaf
    dsimp only
    split
    · simp [h]
    · split
      · exact State.writeNat_wf _ _ _ _ h
      · split
        · exact ih _ _ h
        · exact ih _ _ (State.writeNat_wf _ _ _ _ h)

@[simp] theorem State.openAs_mem (s : State) (space : Nat) : (s.openAs space).mem = s.mem := rfl

@[simp] theorem State.clearCourse_wf (s : State) (n : Nat) (h : Memory.wf s.mem = true) :
    Memory.wf (s.clearCourse n).mem = true := by
  dsimp only [State.clearCourse]
  rw [foldl_mem (fun _ _ => by simp)]
  exact SMap.wf_filter _ h

@[simp] theorem State.assignCourse_wf (s : State) (n : Nat) (space : Option Nat) (h : Memory.wf s.mem = true) :
    Memory.wf (s.assignCourse n space).mem = true := by
  dsimp only [State.assignCourse]
  split
  · exact h
  · rw [foldl_mem (fun _ _ => by simp), State.setCourse_mem]
    exact State.clearCourse_wf _ _ h

@[simp] theorem State.mapLeaf_wf (s : State) (id : Nat) (sp : Space) (va size e : Nat) (h : Memory.wf s.mem = true) :
    Memory.wf (s.mapLeaf id sp va size e).mem = true := by
  have hp := State.putLeaf_wf s va size e levels sp.root h
  unfold State.mapLeaf
  generalize s.putLeaf va size e levels sp.root = t at hp ⊢
  dsimp only
  (repeat' split) <;> simp [hp]

@[simp] theorem State.addGroup_mem (s : State) (r : Replica) : (s.addGroup r).mem = s.mem := rfl

@[simp] theorem State.placeFetch_wf (s : State) (ws : List Word) (h : Memory.wf s.mem = true) : Memory.wf
    (s.placeFetch ws).mem = true := by
  dsimp only [State.placeFetch]
  exact foldl_wf (fun _ _ h => by simp [h]) _ (by simp [h])

/-- An instruction keeps the form when its effect does. -/
theorem issue_wf {i : Instr} {s t : State} {eff : State → State} (h : Memory.wf s.mem = true)
    (he : ∀ s, Memory.wf s.mem = true → Memory.wf (eff s).mem = true) (ht : issue i s eff = .next t) :
    Memory.wf t.mem = true := by
  dsimp only [issue] at ht
  split at ht
  · cases ht; exact he _ h
  split at ht
  · cases ht; exact h
  split at ht
  · cases ht; exact State.raise_wf _ _ _ _ _ _ _ h
  split at ht
  · cases ht; exact h
  split at ht
  · cases ht; exact h
  split at ht
  · cases ht
    refine State.raise_wf _ _ _ _ _ _ _ ?_
    rw [State.upd_mem, State.seeBlock_mem]
    exact State.settleBlocks_wf _ _ h
  split at ht
  · cases ht; exact State.raise_wf _ _ _ _ _ _ _ (State.settleBlocks_wf _ _ h)
  · cases ht; exact he _ (State.settleBlocks_wf _ _ h)

/-- A request of the mailbox keeps the form when its effect does. -/
theorem request_wf {cmd : BitVec 8} {len : Nat} {s t : State} {f : State → State} (h : Memory.wf s.mem = true)
    (hf : ∀ s, Memory.wf s.mem = true → Memory.wf (f s).mem = true) (ht : request cmd len s f = .next t) :
    Memory.wf t.mem = true := by
  unfold request at ht
  split at ht
  · cases ht; exact h
  · split at ht <;> cases ht
    · split
      · simp [h]
      · exact hf _ h
    · simp [h]
    · exact h

theorem execAdd_wf (u : Pfx) (d a b : BitVec 6) (s : State) {s' : State} (h : Memory.wf s.mem = true)
    (ht : execAdd u d a b s = .next s') : Memory.wf s'.mem = true := by
  exact issue_wf h (fun _ h => by simp [h]) ht

theorem execSub_wf (u : Pfx) (d a b : BitVec 6) (s : State) {s' : State} (h : Memory.wf s.mem = true)
    (ht : execSub u d a b s = .next s') : Memory.wf s'.mem = true := by
  exact issue_wf h (fun _ h => by simp [h]) ht

theorem execMul_wf (u : Pfx) (d a b : BitVec 6) (s : State) {s' : State} (h : Memory.wf s.mem = true)
    (ht : execMul u d a b s = .next s') : Memory.wf s'.mem = true := by
  exact issue_wf h (fun _ h => by simp [h]) ht

theorem execMulh_wf (u : Pfx) (d a b : BitVec 6) (s : State) {s' : State} (h : Memory.wf s.mem = true)
    (ht : execMulh u d a b s = .next s') : Memory.wf s'.mem = true := by
  exact issue_wf h (fun _ h => by simp [h]) ht

theorem execMulhu_wf (u : Pfx) (d a b : BitVec 6) (s : State) {s' : State} (h : Memory.wf s.mem = true)
    (ht : execMulhu u d a b s = .next s') : Memory.wf s'.mem = true := by
  exact issue_wf h (fun _ h => by simp [h]) ht

theorem execDiv_wf (u : Pfx) (d a b : BitVec 6) (s : State) {s' : State} (h : Memory.wf s.mem = true)
    (ht : execDiv u d a b s = .next s') : Memory.wf s'.mem = true := by
  exact issue_wf h (fun _ h => by simp [h]) ht

theorem execDivu_wf (u : Pfx) (d a b : BitVec 6) (s : State) {s' : State} (h : Memory.wf s.mem = true)
    (ht : execDivu u d a b s = .next s') : Memory.wf s'.mem = true := by
  exact issue_wf h (fun _ h => by simp [h]) ht

theorem execRem_wf (u : Pfx) (d a b : BitVec 6) (s : State) {s' : State} (h : Memory.wf s.mem = true)
    (ht : execRem u d a b s = .next s') : Memory.wf s'.mem = true := by
  exact issue_wf h (fun _ h => by simp [h]) ht

theorem execRemu_wf (u : Pfx) (d a b : BitVec 6) (s : State) {s' : State} (h : Memory.wf s.mem = true)
    (ht : execRemu u d a b s = .next s') : Memory.wf s'.mem = true := by
  exact issue_wf h (fun _ h => by simp [h]) ht

theorem execAnd_wf (u : Pfx) (d a b : BitVec 6) (s : State) {s' : State} (h : Memory.wf s.mem = true)
    (ht : execAnd u d a b s = .next s') : Memory.wf s'.mem = true := by
  exact issue_wf h (fun _ h => by simp [h]) ht

theorem execOr_wf (u : Pfx) (d a b : BitVec 6) (s : State) {s' : State} (h : Memory.wf s.mem = true)
    (ht : execOr u d a b s = .next s') : Memory.wf s'.mem = true := by
  exact issue_wf h (fun _ h => by simp [h]) ht

theorem execXor_wf (u : Pfx) (d a b : BitVec 6) (s : State) {s' : State} (h : Memory.wf s.mem = true)
    (ht : execXor u d a b s = .next s') : Memory.wf s'.mem = true := by
  exact issue_wf h (fun _ h => by simp [h]) ht

theorem execShl_wf (u : Pfx) (d a b : BitVec 6) (s : State) {s' : State} (h : Memory.wf s.mem = true)
    (ht : execShl u d a b s = .next s') : Memory.wf s'.mem = true := by
  exact issue_wf h (fun _ h => by simp [h]) ht

theorem execShr_wf (u : Pfx) (d a b : BitVec 6) (s : State) {s' : State} (h : Memory.wf s.mem = true)
    (ht : execShr u d a b s = .next s') : Memory.wf s'.mem = true := by
  exact issue_wf h (fun _ h => by simp [h]) ht

theorem execAshr_wf (u : Pfx) (d a b : BitVec 6) (s : State) {s' : State} (h : Memory.wf s.mem = true)
    (ht : execAshr u d a b s = .next s') : Memory.wf s'.mem = true := by
  exact issue_wf h (fun _ h => by simp [h]) ht

theorem execMin_wf (u : Pfx) (d a b : BitVec 6) (s : State) {s' : State} (h : Memory.wf s.mem = true)
    (ht : execMin u d a b s = .next s') : Memory.wf s'.mem = true := by
  exact issue_wf h (fun _ h => by simp [h]) ht

theorem execMax_wf (u : Pfx) (d a b : BitVec 6) (s : State) {s' : State} (h : Memory.wf s.mem = true)
    (ht : execMax u d a b s = .next s') : Memory.wf s'.mem = true := by
  exact issue_wf h (fun _ h => by simp [h]) ht

theorem execMinu_wf (u : Pfx) (d a b : BitVec 6) (s : State) {s' : State} (h : Memory.wf s.mem = true)
    (ht : execMinu u d a b s = .next s') : Memory.wf s'.mem = true := by
  exact issue_wf h (fun _ h => by simp [h]) ht

theorem execMaxu_wf (u : Pfx) (d a b : BitVec 6) (s : State) {s' : State} (h : Memory.wf s.mem = true)
    (ht : execMaxu u d a b s = .next s') : Memory.wf s'.mem = true := by
  exact issue_wf h (fun _ h => by simp [h]) ht

theorem execSel_wf (u : Pfx) (d a : BitVec 6) (p : BitVec 4) (s : State) {s' : State} (h : Memory.wf s.mem = true)
    (ht : execSel u d a p s = .next s') : Memory.wf s'.mem = true := by
  refine issue_wf h (fun s h => ?_) ht
  split <;> simp [h]

theorem execClz_wf (u : Pfx) (d a : BitVec 6) (s : State) {s' : State} (h : Memory.wf s.mem = true)
    (ht : execClz u d a s = .next s') : Memory.wf s'.mem = true := by
  exact issue_wf h (fun _ h => by simp [h]) ht

theorem execCtz_wf (u : Pfx) (d a : BitVec 6) (s : State) {s' : State} (h : Memory.wf s.mem = true)
    (ht : execCtz u d a s = .next s') : Memory.wf s'.mem = true := by
  exact issue_wf h (fun _ h => by simp [h]) ht

theorem execPopc_wf (u : Pfx) (d a : BitVec 6) (s : State) {s' : State} (h : Memory.wf s.mem = true)
    (ht : execPopc u d a s = .next s') : Memory.wf s'.mem = true := by
  exact issue_wf h (fun _ h => by simp [h]) ht

theorem execAddi_wf (u : Pfx) (d a : BitVec 6) (i : BitVec 8) (s : State) {s' : State} (h : Memory.wf s.mem = true)
    (ht : execAddi u d a i s = .next s') : Memory.wf s'.mem = true := by
  exact issue_wf h (fun _ h => by simp [h]) ht

theorem execAndi_wf (u : Pfx) (d a : BitVec 6) (i : BitVec 8) (s : State) {s' : State} (h : Memory.wf s.mem = true)
    (ht : execAndi u d a i s = .next s') : Memory.wf s'.mem = true := by
  exact issue_wf h (fun _ h => by simp [h]) ht

theorem execOri_wf (u : Pfx) (d a : BitVec 6) (i : BitVec 8) (s : State) {s' : State} (h : Memory.wf s.mem = true)
    (ht : execOri u d a i s = .next s') : Memory.wf s'.mem = true := by
  exact issue_wf h (fun _ h => by simp [h]) ht

theorem execXori_wf (u : Pfx) (d a : BitVec 6) (i : BitVec 8) (s : State) {s' : State} (h : Memory.wf s.mem = true)
    (ht : execXori u d a i s = .next s') : Memory.wf s'.mem = true := by
  exact issue_wf h (fun _ h => by simp [h]) ht

theorem execShli_wf (u : Pfx) (d a i : BitVec 6) (s : State) {s' : State} (h : Memory.wf s.mem = true)
    (ht : execShli u d a i s = .next s') : Memory.wf s'.mem = true := by
  exact issue_wf h (fun _ h => by simp [h]) ht

theorem execShri_wf (u : Pfx) (d a i : BitVec 6) (s : State) {s' : State} (h : Memory.wf s.mem = true)
    (ht : execShri u d a i s = .next s') : Memory.wf s'.mem = true := by
  exact issue_wf h (fun _ h => by simp [h]) ht

theorem execAshri_wf (u : Pfx) (d a i : BitVec 6) (s : State) {s' : State} (h : Memory.wf s.mem = true)
    (ht : execAshri u d a i s = .next s') : Memory.wf s'.mem = true := by
  exact issue_wf h (fun _ h => by simp [h]) ht

theorem execMovi_wf (u : Pfx) (d : BitVec 6) (i : BitVec 14) (s : State) {s' : State} (h : Memory.wf s.mem = true)
    (ht : execMovi u d i s = .next s') : Memory.wf s'.mem = true := by
  exact issue_wf h (fun _ h => by simp [h]) ht

theorem execMovs_wf (u : Pfx) (d : BitVec 6) (i : BitVec 14) (s : State) {s' : State} (h : Memory.wf s.mem = true)
    (ht : execMovs u d i s = .next s') : Memory.wf s'.mem = true := by
  exact issue_wf h (fun _ h => by simp [h]) ht

theorem execRdc_wf (u : Pfx) (r : BitVec 6) (c : BitVec 8) (w : BitVec 6) (s : State) {s' : State}
    (h : Memory.wf s.mem = true) (ht : execRdc u r c w s = .next s') : Memory.wf s'.mem = true := by
  exact issue_wf h (fun _ h => by simp [h]) ht

theorem execWrc_wf (u : Pfx) (r : BitVec 6) (c : BitVec 8) (w : BitVec 6) (s : State) {s' : State}
    (h : Memory.wf s.mem = true) (ht : execWrc u r c w s = .next s') : Memory.wf s'.mem = true := by
  exact issue_wf h (fun _ h => by simp [h]) ht

theorem execCmpeq_wf (u : Pfx) (p : BitVec 4) (a b : BitVec 6) (s : State) {s' : State}
    (h : Memory.wf s.mem = true) (ht : execCmpeq u p a b s = .next s') : Memory.wf s'.mem = true := by
  exact issue_wf h (fun _ h => by simp [h]) ht

theorem execCmpne_wf (u : Pfx) (p : BitVec 4) (a b : BitVec 6) (s : State) {s' : State}
    (h : Memory.wf s.mem = true) (ht : execCmpne u p a b s = .next s') : Memory.wf s'.mem = true := by
  exact issue_wf h (fun _ h => by simp [h]) ht

theorem execCmplt_wf (u : Pfx) (p : BitVec 4) (a b : BitVec 6) (s : State) {s' : State}
    (h : Memory.wf s.mem = true) (ht : execCmplt u p a b s = .next s') : Memory.wf s'.mem = true := by
  exact issue_wf h (fun _ h => by simp [h]) ht

theorem execCmpltu_wf (u : Pfx) (p : BitVec 4) (a b : BitVec 6) (s : State) {s' : State}
    (h : Memory.wf s.mem = true) (ht : execCmpltu u p a b s = .next s') : Memory.wf s'.mem = true := by
  exact issue_wf h (fun _ h => by simp [h]) ht

theorem execCmple_wf (u : Pfx) (p : BitVec 4) (a b : BitVec 6) (s : State) {s' : State}
    (h : Memory.wf s.mem = true) (ht : execCmple u p a b s = .next s') : Memory.wf s'.mem = true := by
  exact issue_wf h (fun _ h => by simp [h]) ht

theorem execCmpleu_wf (u : Pfx) (p : BitVec 4) (a b : BitVec 6) (s : State) {s' : State}
    (h : Memory.wf s.mem = true) (ht : execCmpleu u p a b s = .next s') : Memory.wf s'.mem = true := by
  exact issue_wf h (fun _ h => by simp [h]) ht

theorem execFcmpeq_wf (u : Pfx) (p : BitVec 4) (a b : BitVec 6) (f w : Bool) (s : State) {s' : State}
    (h : Memory.wf s.mem = true) (ht : execFcmpeq u p a b f w s = .next s') : Memory.wf s'.mem = true := by
  exact issue_wf h (fun _ h => by simp [h]) ht

theorem execFcmplt_wf (u : Pfx) (p : BitVec 4) (a b : BitVec 6) (f w : Bool) (s : State) {s' : State}
    (h : Memory.wf s.mem = true) (ht : execFcmplt u p a b f w s = .next s') : Memory.wf s'.mem = true := by
  exact issue_wf h (fun _ h => by simp [h]) ht

theorem execFcmple_wf (u : Pfx) (p : BitVec 4) (a b : BitVec 6) (f w : Bool) (s : State) {s' : State}
    (h : Memory.wf s.mem = true) (ht : execFcmple u p a b f w s = .next s') : Memory.wf s'.mem = true := by
  exact issue_wf h (fun _ h => by simp [h]) ht

theorem execFcmpun_wf (u : Pfx) (p : BitVec 4) (a b : BitVec 6) (f w : Bool) (s : State) {s' : State}
    (h : Memory.wf s.mem = true) (ht : execFcmpun u p a b f w s = .next s') : Memory.wf s'.mem = true := by
  exact issue_wf h (fun _ h => by simp [h]) ht

theorem execFaddF32_wf (u : Pfx) (d a b : BitVec 6) (f o : Bool) (s : State) {s' : State}
    (h : Memory.wf s.mem = true) (ht : execFaddF32 u d a b f o s = .next s') : Memory.wf s'.mem = true := by
  exact issue_wf h (fun _ h => by simp [h]) ht

theorem execFsubF32_wf (u : Pfx) (d a b : BitVec 6) (f o : Bool) (s : State) {s' : State}
    (h : Memory.wf s.mem = true) (ht : execFsubF32 u d a b f o s = .next s') : Memory.wf s'.mem = true := by
  exact issue_wf h (fun _ h => by simp [h]) ht

theorem execFmulF32_wf (u : Pfx) (d a b : BitVec 6) (f o : Bool) (s : State) {s' : State}
    (h : Memory.wf s.mem = true) (ht : execFmulF32 u d a b f o s = .next s') : Memory.wf s'.mem = true := by
  exact issue_wf h (fun _ h => by simp [h]) ht

theorem execFdivF32_wf (u : Pfx) (d a b : BitVec 6) (f o : Bool) (s : State) {s' : State}
    (h : Memory.wf s.mem = true) (ht : execFdivF32 u d a b f o s = .next s') : Memory.wf s'.mem = true := by
  exact issue_wf h (fun _ h => by simp [h]) ht

theorem execFfmaF32_wf (u : Pfx) (d a b : BitVec 6) (f o : Bool) (s : State) {s' : State}
    (h : Memory.wf s.mem = true) (ht : execFfmaF32 u d a b f o s = .next s') : Memory.wf s'.mem = true := by
  exact issue_wf h (fun _ h => by simp [h]) ht

theorem execFsqrtF32_wf (u : Pfx) (d a : BitVec 6) (f o : Bool) (s : State) {s' : State}
    (h : Memory.wf s.mem = true) (ht : execFsqrtF32 u d a f o s = .next s') : Memory.wf s'.mem = true := by
  exact issue_wf h (fun _ h => by simp [h]) ht

theorem execFaddF64_wf (u : Pfx) (d a b : BitVec 6) (f o : Bool) (s : State) {s' : State}
    (h : Memory.wf s.mem = true) (ht : execFaddF64 u d a b f o s = .next s') : Memory.wf s'.mem = true := by
  exact issue_wf h (fun _ h => by simp [h]) ht

theorem execFsubF64_wf (u : Pfx) (d a b : BitVec 6) (f o : Bool) (s : State) {s' : State}
    (h : Memory.wf s.mem = true) (ht : execFsubF64 u d a b f o s = .next s') : Memory.wf s'.mem = true := by
  exact issue_wf h (fun _ h => by simp [h]) ht

theorem execFmulF64_wf (u : Pfx) (d a b : BitVec 6) (f o : Bool) (s : State) {s' : State}
    (h : Memory.wf s.mem = true) (ht : execFmulF64 u d a b f o s = .next s') : Memory.wf s'.mem = true := by
  exact issue_wf h (fun _ h => by simp [h]) ht

theorem execFdivF64_wf (u : Pfx) (d a b : BitVec 6) (f o : Bool) (s : State) {s' : State}
    (h : Memory.wf s.mem = true) (ht : execFdivF64 u d a b f o s = .next s') : Memory.wf s'.mem = true := by
  exact issue_wf h (fun _ h => by simp [h]) ht

theorem execFfmaF64_wf (u : Pfx) (d a b : BitVec 6) (f o : Bool) (s : State) {s' : State}
    (h : Memory.wf s.mem = true) (ht : execFfmaF64 u d a b f o s = .next s') : Memory.wf s'.mem = true := by
  exact issue_wf h (fun _ h => by simp [h]) ht

theorem execFsqrtF64_wf (u : Pfx) (d a : BitVec 6) (f o : Bool) (s : State) {s' : State}
    (h : Memory.wf s.mem = true) (ht : execFsqrtF64 u d a f o s = .next s') : Memory.wf s'.mem = true := by
  exact issue_wf h (fun _ h => by simp [h]) ht

theorem execXadd_wf (u : Pfx) (x a b : BitVec 4) (s : State) {s' : State} (h : Memory.wf s.mem = true)
    (ht : execXadd u x a b s = .next s') : Memory.wf s'.mem = true := by
  exact issue_wf h (fun _ h => by simp [h]) ht

theorem execXaddi_wf (u : Pfx) (x a : BitVec 4) (i : BitVec 8) (s : State) {s' : State}
    (h : Memory.wf s.mem = true) (ht : execXaddi u x a i s = .next s') : Memory.wf s'.mem = true := by
  exact issue_wf h (fun _ h => by simp [h]) ht

theorem execXsub_wf (u : Pfx) (x a b : BitVec 4) (s : State) {s' : State} (h : Memory.wf s.mem = true)
    (ht : execXsub u x a b s = .next s') : Memory.wf s'.mem = true := by
  exact issue_wf h (fun _ h => by simp [h]) ht

theorem execXshli_wf (u : Pfx) (x a : BitVec 4) (i : BitVec 5) (s : State) {s' : State}
    (h : Memory.wf s.mem = true) (ht : execXshli u x a i s = .next s') : Memory.wf s'.mem = true := by
  exact issue_wf h (fun _ h => by simp [h]) ht

theorem execXshri_wf (u : Pfx) (x a : BitVec 4) (i : BitVec 5) (s : State) {s' : State}
    (h : Memory.wf s.mem = true) (ht : execXshri u x a i s = .next s') : Memory.wf s'.mem = true := by
  exact issue_wf h (fun _ h => by simp [h]) ht

theorem execXand_wf (u : Pfx) (x a b : BitVec 4) (s : State) {s' : State} (h : Memory.wf s.mem = true)
    (ht : execXand u x a b s = .next s') : Memory.wf s'.mem = true := by
  exact issue_wf h (fun _ h => by simp [h]) ht

theorem execXpopc_wf (u : Pfx) (x a : BitVec 4) (s : State) {s' : State} (h : Memory.wf s.mem = true)
    (ht : execXpopc u x a s = .next s') : Memory.wf s'.mem = true := by
  exact issue_wf h (fun _ h => by simp [h]) ht

theorem execXcmpadv_wf (u : Pfx) (x a b c : BitVec 4) (f : BitVec 2) (s : State) {s' : State}
    (h : Memory.wf s.mem = true) (ht : execXcmpadv u x a b c f s = .next s') : Memory.wf s'.mem = true := by
  exact issue_wf h (fun _ h => by simp [h]) ht

theorem execXpatd_wf (u : Pfx) (x a : BitVec 4) (k : BitVec 2) (s : State) {s' : State}
    (h : Memory.wf s.mem = true) (ht : execXpatd u x a k s = .next s') : Memory.wf s'.mem = true := by
  exact issue_wf h (fun _ h => by simp [h]) ht

theorem execXbnet_wf (u : Pfx) (x a b : BitVec 4) (e : BitVec 3) (s : State) {s' : State}
    (h : Memory.wf s.mem = true) (ht : execXbnet u x a b e s = .next s') : Memory.wf s'.mem = true := by
  exact issue_wf h (fun _ h => by simp [h]) ht

theorem execXbnld_wf (u : Pfx) (e : BitVec 3) (v : BitVec 5) (s : State) {s' : State} (h : Memory.wf s.mem = true)
    (ht : execXbnld u e v s = .next s') : Memory.wf s'.mem = true := by
  exact issue_wf h (fun _ h => by simp [h]) ht

theorem execXbperm_wf (u : Pfx) (x a b c f : BitVec 4) (s : State) {s' : State} (h : Memory.wf s.mem = true)
    (ht : execXbperm u x a b c f s = .next s') : Memory.wf s'.mem = true := by
  exact issue_wf h (fun _ h => by simp [h]) ht

theorem execXfroms_wf (u : Pfx) (x : BitVec 4) (r : BitVec 6) (s : State) {s' : State} (h : Memory.wf s.mem = true)
    (ht : execXfroms u x r s = .next s') : Memory.wf s'.mem = true := by
  exact issue_wf h (fun _ h => by simp [h]) ht

theorem execXtos_wf (u : Pfx) (x : BitVec 4) (r : BitVec 6) (s : State) {s' : State} (h : Memory.wf s.mem = true)
    (ht : execXtos u x r s = .next s') : Memory.wf s'.mem = true := by
  exact issue_wf h (fun _ h => by simp [h]) ht

theorem execXmov_wf (u : Pfx) (x a : BitVec 4) (s : State) {s' : State} (h : Memory.wf s.mem = true)
    (ht : execXmov u x a s = .next s') : Memory.wf s'.mem = true := by
  exact issue_wf h (fun _ h => by simp [h]) ht

theorem execXmovi_wf (u : Pfx) (x : BitVec 4) (i : BitVec 16) (s : State) {s' : State} (h : Memory.wf s.mem = true)
    (ht : execXmovi u x i s = .next s') : Memory.wf s'.mem = true := by
  exact issue_wf h (fun _ h => by simp [h]) ht

theorem execVadd_wf (u : Pfx) (t : BitVec 3) (d a b : BitVec 5) (f o : Bool) (s : State) {s' : State}
    (h : Memory.wf s.mem = true) (ht : execVadd u t d a b f o s = .next s') : Memory.wf s'.mem = true := by
  exact issue_wf h (fun _ h => by simp [h]) ht

theorem execVsub_wf (u : Pfx) (t : BitVec 3) (d a b : BitVec 5) (f o : Bool) (s : State) {s' : State}
    (h : Memory.wf s.mem = true) (ht : execVsub u t d a b f o s = .next s') : Memory.wf s'.mem = true := by
  exact issue_wf h (fun _ h => by simp [h]) ht

theorem execVmul_wf (u : Pfx) (t : BitVec 3) (d a b : BitVec 5) (f o : Bool) (s : State) {s' : State}
    (h : Memory.wf s.mem = true) (ht : execVmul u t d a b f o s = .next s') : Memory.wf s'.mem = true := by
  exact issue_wf h (fun _ h => by simp [h]) ht

theorem execVfma_wf (u : Pfx) (t : BitVec 3) (d a b : BitVec 5) (f o : Bool) (s : State) {s' : State}
    (h : Memory.wf s.mem = true) (ht : execVfma u t d a b f o s = .next s') : Memory.wf s'.mem = true := by
  exact issue_wf h (fun _ h => by simp [h]) ht

theorem execVfms_wf (u : Pfx) (t : BitVec 3) (d a b : BitVec 5) (f o : Bool) (s : State) {s' : State}
    (h : Memory.wf s.mem = true) (ht : execVfms u t d a b f o s = .next s') : Memory.wf s'.mem = true := by
  exact issue_wf h (fun _ h => by simp [h]) ht

theorem execVdiv_wf (u : Pfx) (t : BitVec 3) (d a b : BitVec 5) (f o : Bool) (s : State) {s' : State}
    (h : Memory.wf s.mem = true) (ht : execVdiv u t d a b f o s = .next s') : Memory.wf s'.mem = true := by
  exact issue_wf h (fun _ h => by simp [h]) ht

theorem execVsqrt_wf (u : Pfx) (t : BitVec 3) (d a : BitVec 5) (f o : Bool) (s : State) {s' : State}
    (h : Memory.wf s.mem = true) (ht : execVsqrt u t d a f o s = .next s') : Memory.wf s'.mem = true := by
  exact issue_wf h (fun _ h => by simp [h]) ht

theorem execVmin_wf (u : Pfx) (t : BitVec 3) (d a b : BitVec 5) (f : Bool) (s : State) {s' : State}
    (h : Memory.wf s.mem = true) (ht : execVmin u t d a b f s = .next s') : Memory.wf s'.mem = true := by
  exact issue_wf h (fun _ h => by simp [h]) ht

theorem execVmax_wf (u : Pfx) (t : BitVec 3) (d a b : BitVec 5) (f : Bool) (s : State) {s' : State}
    (h : Memory.wf s.mem = true) (ht : execVmax u t d a b f s = .next s') : Memory.wf s'.mem = true := by
  exact issue_wf h (fun _ h => by simp [h]) ht

theorem execVabs_wf (u : Pfx) (t : BitVec 3) (d a : BitVec 5) (o : Bool) (s : State) {s' : State}
    (h : Memory.wf s.mem = true) (ht : execVabs u t d a o s = .next s') : Memory.wf s'.mem = true := by
  exact issue_wf h (fun _ h => by simp [h]) ht

theorem execVneg_wf (u : Pfx) (t : BitVec 3) (d a : BitVec 5) (o : Bool) (s : State) {s' : State}
    (h : Memory.wf s.mem = true) (ht : execVneg u t d a o s = .next s') : Memory.wf s'.mem = true := by
  exact issue_wf h (fun _ h => by simp [h]) ht

theorem execVrcp_wf (u : Pfx) (t : BitVec 3) (d a : BitVec 5) (f o : Bool) (s : State) {s' : State}
    (h : Memory.wf s.mem = true) (ht : execVrcp u t d a f o s = .next s') : Memory.wf s'.mem = true := by
  exact issue_wf h (fun _ h => by simp [h]) ht

theorem execVrsq_wf (u : Pfx) (t : BitVec 3) (d a : BitVec 5) (f o : Bool) (s : State) {s' : State}
    (h : Memory.wf s.mem = true) (ht : execVrsq u t d a f o s = .next s') : Memory.wf s'.mem = true := by
  exact issue_wf h (fun _ h => by simp [h]) ht

theorem execVexp2_wf (u : Pfx) (t : BitVec 3) (d a : BitVec 5) (f o : Bool) (s : State) {s' : State}
    (h : Memory.wf s.mem = true) (ht : execVexp2 u t d a f o s = .next s') : Memory.wf s'.mem = true := by
  exact issue_wf h (fun _ h => by simp [h]) ht

theorem execVlog2_wf (u : Pfx) (t : BitVec 3) (d a : BitVec 5) (f o : Bool) (s : State) {s' : State}
    (h : Memory.wf s.mem = true) (ht : execVlog2 u t d a f o s = .next s') : Memory.wf s'.mem = true := by
  exact issue_wf h (fun _ h => by simp [h]) ht

theorem execVsel_wf (u : Pfx) (c : BitVec 4) (w : Bool) (d a b : BitVec 5) (s : State) {s' : State}
    (h : Memory.wf s.mem = true) (ht : execVsel u c w d a b s = .next s') : Memory.wf s'.mem = true := by
  exact issue_wf h (fun _ h => by simp [h]) ht

theorem execVand_wf (u : Pfx) (t : BitVec 3) (d a b : BitVec 5) (s : State) {s' : State}
    (h : Memory.wf s.mem = true) (ht : execVand u t d a b s = .next s') : Memory.wf s'.mem = true := by
  exact issue_wf h (fun _ h => by simp [h]) ht

theorem execVor_wf (u : Pfx) (t : BitVec 3) (d a b : BitVec 5) (s : State) {s' : State}
    (h : Memory.wf s.mem = true) (ht : execVor u t d a b s = .next s') : Memory.wf s'.mem = true := by
  exact issue_wf h (fun _ h => by simp [h]) ht

theorem execVxor_wf (u : Pfx) (t : BitVec 3) (d a b : BitVec 5) (s : State) {s' : State}
    (h : Memory.wf s.mem = true) (ht : execVxor u t d a b s = .next s') : Memory.wf s'.mem = true := by
  exact issue_wf h (fun _ h => by simp [h]) ht

theorem execVshl_wf (u : Pfx) (t : BitVec 3) (d a b : BitVec 5) (s : State) {s' : State}
    (h : Memory.wf s.mem = true) (ht : execVshl u t d a b s = .next s') : Memory.wf s'.mem = true := by
  exact issue_wf h (fun _ h => by simp [h]) ht

theorem execVshr_wf (u : Pfx) (t : BitVec 3) (d a b : BitVec 5) (s : State) {s' : State}
    (h : Memory.wf s.mem = true) (ht : execVshr u t d a b s = .next s') : Memory.wf s'.mem = true := by
  exact issue_wf h (fun _ h => by simp [h]) ht

theorem execVashr_wf (u : Pfx) (t : BitVec 3) (d a b : BitVec 5) (s : State) {s' : State}
    (h : Memory.wf s.mem = true) (ht : execVashr u t d a b s = .next s') : Memory.wf s'.mem = true := by
  exact issue_wf h (fun _ h => by simp [h]) ht

theorem execVnot_wf (u : Pfx) (t : BitVec 3) (d a : BitVec 5) (s : State) {s' : State} (h : Memory.wf s.mem = true)
    (ht : execVnot u t d a s = .next s') : Memory.wf s'.mem = true := by
  exact issue_wf h (fun _ h => by simp [h]) ht

theorem execVscn_wf (u : Pfx) (t : BitVec 3) (d a b : BitVec 5) (f o : Bool) (s : State) {s' : State}
    (h : Memory.wf s.mem = true) (ht : execVscn u t d a b f o s = .next s') : Memory.wf s'.mem = true := by
  exact issue_wf h (fun _ h => by simp [h]) ht

theorem execVcmpeq_wf (u : Pfx) (t : BitVec 3) (p : BitVec 4) (a b : BitVec 5) (f : Bool) (s : State) {s' : State}
    (h : Memory.wf s.mem = true) (ht : execVcmpeq u t p a b f s = .next s') : Memory.wf s'.mem = true := by
  exact issue_wf h (fun _ h => by simp [h]) ht

theorem execVcmpne_wf (u : Pfx) (t : BitVec 3) (p : BitVec 4) (a b : BitVec 5) (f : Bool) (s : State) {s' : State}
    (h : Memory.wf s.mem = true) (ht : execVcmpne u t p a b f s = .next s') : Memory.wf s'.mem = true := by
  exact issue_wf h (fun _ h => by simp [h]) ht

theorem execVcmplt_wf (u : Pfx) (t : BitVec 3) (p : BitVec 4) (a b : BitVec 5) (f : Bool) (s : State) {s' : State}
    (h : Memory.wf s.mem = true) (ht : execVcmplt u t p a b f s = .next s') : Memory.wf s'.mem = true := by
  exact issue_wf h (fun _ h => by simp [h]) ht

theorem execVcmple_wf (u : Pfx) (t : BitVec 3) (p : BitVec 4) (a b : BitVec 5) (f : Bool) (s : State) {s' : State}
    (h : Memory.wf s.mem = true) (ht : execVcmple u t p a b f s = .next s') : Memory.wf s'.mem = true := by
  exact issue_wf h (fun _ h => by simp [h]) ht

theorem execVcmpun_wf (u : Pfx) (t : BitVec 3) (p : BitVec 4) (a b : BitVec 5) (f : Bool) (s : State) {s' : State}
    (h : Memory.wf s.mem = true) (ht : execVcmpun u t p a b f s = .next s') : Memory.wf s'.mem = true := by
  exact issue_wf h (fun _ h => by simp [h]) ht

theorem execVcvt_wf (u : Pfx) (t : BitVec 3) (d a : BitVec 5) (k : BitVec 3) (r : BitVec 2) (f o : Bool)
    (s : State) {s' : State} (h : Memory.wf s.mem = true) (ht : execVcvt u t d a k r f o s = .next s') :
    Memory.wf s'.mem = true := by
  exact issue_wf h (fun _ h => by simp [h]) ht

theorem execVcvtd_wf (u : Pfx) (t : BitVec 3) (d a : BitVec 5) (k : BitVec 3) (f o : Bool) (s : State) {s' : State}
    (h : Memory.wf s.mem = true) (ht : execVcvtd u t d a k f o s = .next s') : Memory.wf s'.mem = true := by
  exact issue_wf h (fun _ h => by simp [h]) ht

theorem execVperm_wf (u : Pfx) (t : BitVec 3) (d a b : BitVec 5) (s : State) {s' : State}
    (h : Memory.wf s.mem = true) (ht : execVperm u t d a b s = .next s') : Memory.wf s'.mem = true := by
  exact issue_wf h (fun _ h => by simp [h]) ht

theorem execVbcast_wf (u : Pfx) (t : BitVec 3) (d a l : BitVec 5) (s : State) {s' : State}
    (h : Memory.wf s.mem = true) (ht : execVbcast u t d a l s = .next s') : Memory.wf s'.mem = true := by
  exact issue_wf h (fun _ h => by simp [h]) ht

theorem execVredadd_wf (u : Pfx) (t : BitVec 3) (d a : BitVec 5) (f o : Bool) (s : State) {s' : State}
    (h : Memory.wf s.mem = true) (ht : execVredadd u t d a f o s = .next s') : Memory.wf s'.mem = true := by
  exact issue_wf h (fun _ h => by simp [h]) ht

theorem execVredmax_wf (u : Pfx) (t : BitVec 3) (d a : BitVec 5) (f : Bool) (s : State) {s' : State}
    (h : Memory.wf s.mem = true) (ht : execVredmax u t d a f s = .next s') : Memory.wf s'.mem = true := by
  exact issue_wf h (fun _ h => by simp [h]) ht

theorem execVredmin_wf (u : Pfx) (t : BitVec 3) (d a : BitVec 5) (f : Bool) (s : State) {s' : State}
    (h : Memory.wf s.mem = true) (ht : execVredmin u t d a f s = .next s') : Memory.wf s'.mem = true := by
  exact issue_wf h (fun _ h => by simp [h]) ht

theorem execVpopq_wf (u : Pfx) (d : BitVec 5) (q : BitVec 2) (s : State) {s' : State} (h : Memory.wf s.mem = true)
    (ht : execVpopq u d q s = .next s') : Memory.wf s'.mem = true := by
  exact issue_wf h (fun _ h => by simp [h]) ht

theorem execVpopl_wf (u : Pfx) (d : BitVec 5) (l : BitVec 3) (s : State) {s' : State} (h : Memory.wf s.mem = true)
    (ht : execVpopl u d l s = .next s') : Memory.wf s'.mem = true := by
  exact issue_wf h (fun _ h => by simp [h]) ht

theorem execVrng_wf (u : Pfx) (t : BitVec 3) (d a : BitVec 5) (s : State) {s' : State} (h : Memory.wf s.mem = true)
    (ht : execVrng u t d a s = .next s') : Memory.wf s'.mem = true := by
  exact issue_wf h (fun _ h => by simp [h]) ht

theorem execPrune_wf (u : Pfx) (d a b : BitVec 5) (k : BitVec 2) (s : State) {s' : State}
    (h : Memory.wf s.mem = true) (ht : execPrune u d a b k s = .next s') : Memory.wf s'.mem = true := by
  exact issue_wf h (fun _ h => by simp [h]) ht

theorem execTopk_wf (u : Pfx) (t : BitVec 3) (d a b : BitVec 5) (s : State) {s' : State}
    (h : Memory.wf s.mem = true) (ht : execTopk u t d a b s = .next s') : Memory.wf s'.mem = true := by
  exact issue_wf h (fun _ h => by simp [h]) ht

theorem execVmvs_wf (u : Pfx) (r : BitVec 6) (v l : BitVec 5) (s : State) {s' : State} (h : Memory.wf s.mem = true)
    (ht : execVmvs u r v l s = .next s') : Memory.wf s'.mem = true := by
  exact issue_wf h (fun _ h => by simp [h]) ht

theorem execVmsv_wf (u : Pfx) (r : BitVec 6) (v l : BitVec 5) (s : State) {s' : State} (h : Memory.wf s.mem = true)
    (ht : execVmsv u r v l s = .next s') : Memory.wf s'.mem = true := by
  exact issue_wf h (fun _ h => by simp [h]) ht

theorem execVmoviI32_wf (u : Pfx) (m : Bool) (d : BitVec 5) (i : BitVec 15) (s : State) {s' : State}
    (h : Memory.wf s.mem = true) (ht : execVmoviI32 u m d i s = .next s') : Memory.wf s'.mem = true := by
  exact issue_wf h (fun _ h => by simp [h]) ht

theorem execVmoviI64_wf (u : Pfx) (m : Bool) (d : BitVec 5) (i : BitVec 15) (s : State) {s' : State}
    (h : Memory.wf s.mem = true) (ht : execVmoviI64 u m d i s = .next s') : Memory.wf s'.mem = true := by
  exact issue_wf h (fun _ h => by simp [h]) ht

theorem execVmoviF32_wf (u : Pfx) (m : Bool) (d : BitVec 5) (i : BitVec 15) (s : State) {s' : State}
    (h : Memory.wf s.mem = true) (ht : execVmoviF32 u m d i s = .next s') : Memory.wf s'.mem = true := by
  exact issue_wf h (fun _ h => by simp [h]) ht

theorem execVmoviF64_wf (u : Pfx) (m : Bool) (d : BitVec 5) (i : BitVec 15) (s : State) {s' : State}
    (h : Memory.wf s.mem = true) (ht : execVmoviF64 u m d i s = .next s') : Memory.wf s'.mem = true := by
  exact issue_wf h (fun _ h => by simp [h]) ht

theorem execVmoviF16_wf (u : Pfx) (m : Bool) (d : BitVec 5) (i : BitVec 15) (s : State) {s' : State}
    (h : Memory.wf s.mem = true) (ht : execVmoviF16 u m d i s = .next s') : Memory.wf s'.mem = true := by
  exact issue_wf h (fun _ h => by simp [h]) ht

theorem execVmoviBf16_wf (u : Pfx) (m : Bool) (d : BitVec 5) (i : BitVec 15) (s : State) {s' : State}
    (h : Memory.wf s.mem = true) (ht : execVmoviBf16 u m d i s = .next s') : Memory.wf s'.mem = true := by
  exact issue_wf h (fun _ h => by simp [h]) ht

theorem execVmoviH8_wf (u : Pfx) (m : Bool) (d : BitVec 5) (i : BitVec 15) (s : State) {s' : State}
    (h : Memory.wf s.mem = true) (ht : execVmoviH8 u m d i s = .next s') : Memory.wf s'.mem = true := by
  exact issue_wf h (fun _ h => by simp [h]) ht

theorem execQnt_wf (u : Pfx) (d a b : BitVec 5) (f : Bool) (s : State) {s' : State} (h : Memory.wf s.mem = true)
    (ht : execQnt u d a b f s = .next s') : Memory.wf s'.mem = true := by
  exact issue_wf h (fun _ h => by simp [h]) ht

theorem execDq_wf (u : Pfx) (d a b : BitVec 5) (o : Bool) (s : State) {s' : State} (h : Memory.wf s.mem = true)
    (ht : execDq u d a b o s = .next s') : Memory.wf s'.mem = true := by
  exact issue_wf h (fun _ h => by simp [h]) ht

theorem execSpenc_wf (u : Pfx) (t : BitVec 3) (d a : BitVec 5) (k : BitVec 2) (s : State) {s' : State}
    (h : Memory.wf s.mem = true) (ht : execSpenc u t d a k s = .next s') : Memory.wf s'.mem = true := by
  exact issue_wf h (fun _ h => by simp [h]) ht

theorem execSpdec_wf (u : Pfx) (t : BitVec 3) (d a : BitVec 5) (k : BitVec 2) (s : State) {s' : State}
    (h : Memory.wf s.mem = true) (ht : execSpdec u t d a k s = .next s') : Memory.wf s'.mem = true := by
  exact issue_wf h (fun _ h => by simp [h]) ht

theorem execMma_wf (u : Pfx) (p : BitVec 4) (k : BitVec 3) (a b : BitVec 4) (z t f o : Bool) (s : State)
    {s' : State} (h : Memory.wf s.mem = true) (ht : execMma u p k a b z t f o s = .next s') :
    Memory.wf s'.mem = true := by
  exact issue_wf h (fun _ h => by simp [h]) ht

theorem execMmaS_wf (u : Pfx) (p : BitVec 4) (k : BitVec 3) (a b : BitVec 4) (z t f o : Bool) (s : State)
    {s' : State} (h : Memory.wf s.mem = true) (ht : execMmaS u p k a b z t f o s = .next s') :
    Memory.wf s'.mem = true := by
  exact issue_wf h (fun _ h => by simp [h]) ht

theorem execMmaK4_wf (u : Pfx) (k : BitVec 3) (a b : BitVec 4) (m : MulMode) (s : State) {s' : State}
    (h : Memory.wf s.mem = true) (ht : execMmaK4 u k a b m s = .next s') : Memory.wf s'.mem = true := by
  exact issue_wf h (fun _ h => by simp [h]) ht

theorem execAccz_wf (u : Pfx) (k : BitVec 3) (s : State) {s' : State} (h : Memory.wf s.mem = true)
    (ht : execAccz u k s = .next s') : Memory.wf s'.mem = true := by
  exact issue_wf h (fun _ h => by simp [h]) ht

theorem execAccld_wf (u : Pfx) (k : BitVec 3) (d : BitVec 4) (s : State) {s' : State} (h : Memory.wf s.mem = true)
    (ht : execAccld u k d s = .next s') : Memory.wf s'.mem = true := by
  exact issue_wf h (fun _ h => by simp [h]) ht

theorem execAccst_wf (u : Pfx) (a : BitVec 3) (d : BitVec 4) (s : State) {s' : State} (h : Memory.wf s.mem = true)
    (ht : execAccst u a d s = .next s') : Memory.wf s'.mem = true := by
  exact issue_wf h (fun _ h => by simp [h]) ht

theorem execDrain_wf (u : Pfx) (a : BitVec 3) (q : BitVec 2) (s : State) {s' : State} (h : Memory.wf s.mem = true)
    (ht : execDrain u a q s = .next s') : Memory.wf s'.mem = true := by
  exact issue_wf h (fun _ h => by simp [h]) ht

theorem execAccmov_wf (u : Pfx) (k a : BitVec 3) (s : State) {s' : State} (h : Memory.wf s.mem = true)
    (ht : execAccmov u k a s = .next s') : Memory.wf s'.mem = true := by
  exact issue_wf h (fun _ h => by simp [h]) ht

theorem execAcct_wf (u : Pfx) (d : BitVec 4) (s : State) {s' : State} (h : Memory.wf s.mem = true)
    (ht : execAcct u d s = .next s') : Memory.wf s'.mem = true := by
  exact issue_wf h (fun _ h => by simp [h]) ht

theorem execCbld_wf (u : Pfx) (d : BitVec 4) (c : BitVec 2) (s : State) {s' : State} (h : Memory.wf s.mem = true)
    (ht : execCbld u d c s = .next s') : Memory.wf s'.mem = true := by
  exact issue_wf h (fun _ h => by simp [h]) ht

theorem execSpld_wf (u : Pfx) (d : BitVec 4) (s : State) {s' : State} (h : Memory.wf s.mem = true)
    (ht : execSpld u d s = .next s') : Memory.wf s'.mem = true := by
  exact issue_wf h (fun _ h => by simp [h]) ht

theorem execTrsm_wf (u : Pfx) (k e : BitVec 3) (w : Bool) (l : BitVec 4) (s : State) {s' : State}
    (h : Memory.wf s.mem = true) (ht : execTrsm u k e w l s = .next s') : Memory.wf s'.mem = true := by
  exact issue_wf h (fun _ h => by simp [h]) ht

theorem execGetrf_wf (u : Pfx) (k : BitVec 3) (w l : Bool) (s : State) {s' : State} (h : Memory.wf s.mem = true)
    (ht : execGetrf u k w l s = .next s') : Memory.wf s'.mem = true := by
  exact issue_wf h (fun _ h => by simp [h]) ht

theorem execPotrf_wf (u : Pfx) (k : BitVec 3) (w l : Bool) (s : State) {s' : State} (h : Memory.wf s.mem = true)
    (ht : execPotrf u k w l s = .next s') : Memory.wf s'.mem = true := by
  exact issue_wf h (fun _ h => by simp [h]) ht

theorem execGivqr_wf (u : Pfx) (k e : BitVec 3) (w : Bool) (s : State) {s' : State} (h : Memory.wf s.mem = true)
    (ht : execGivqr u k e w s = .next s') : Memory.wf s'.mem = true := by
  exact issue_wf h (fun _ h => by simp [h]) ht

theorem execRotapp_wf (u : Pfx) (k e : BitVec 3) (w l : Bool) (s : State) {s' : State} (h : Memory.wf s.mem = true)
    (ht : execRotapp u k e w l s = .next s') : Memory.wf s'.mem = true := by
  exact issue_wf h (fun _ h => by simp [h]) ht

theorem execLdV_wf (u : Pfx) (v : BitVec 5) (a : BitVec 6) (c : BitVec 4) (o : BitVec 5) (s : State) {s' : State}
    (h : Memory.wf s.mem = true) (ht : execLdV u v a c o s = .next s') : Memory.wf s'.mem = true := by
  exact issue_wf h (fun _ h => by simp [h]) ht

theorem execStV_wf (u : Pfx) (v : BitVec 5) (a : BitVec 6) (c : BitVec 4) (o : BitVec 5) (s : State) {s' : State}
    (h : Memory.wf s.mem = true) (ht : execStV u v a c o s = .next s') : Memory.wf s'.mem = true := by
  exact issue_wf h (fun _ h => by simp [h]) ht

theorem execLdVs_wf (u : Pfx) (v : BitVec 5) (a : BitVec 6) (c : BitVec 4) (w : Bool) (s : State) {s' : State}
    (h : Memory.wf s.mem = true) (ht : execLdVs u v a c w s = .next s') : Memory.wf s'.mem = true := by
  exact issue_wf h (fun _ h => by simp [h]) ht

theorem execStVs_wf (u : Pfx) (v : BitVec 5) (a : BitVec 6) (c : BitVec 4) (w : Bool) (s : State) {s' : State}
    (h : Memory.wf s.mem = true) (ht : execStVs u v a c w s = .next s') : Memory.wf s'.mem = true := by
  exact issue_wf h (fun _ h => by simp [h]) ht

theorem execLdVx_wf (u : Pfx) (v : BitVec 5) (a : BitVec 6) (b : BitVec 5) (c : BitVec 4) (s : State) {s' : State}
    (h : Memory.wf s.mem = true) (ht : execLdVx u v a b c s = .next s') : Memory.wf s'.mem = true := by
  exact issue_wf h (fun _ h => by simp [h]) ht

theorem execStVx_wf (u : Pfx) (v : BitVec 5) (a : BitVec 6) (b : BitVec 5) (c : BitVec 4) (s : State) {s' : State}
    (h : Memory.wf s.mem = true) (ht : execStVx u v a b c s = .next s') : Memory.wf s'.mem = true := by
  exact issue_wf h (fun _ h => by simp [h]) ht

theorem execLdrL_wf (u : Pfx) (l : BitVec 3) (a : BitVec 6) (c : BitVec 4) (due : BitVec 7) (s : State)
    {s' : State} (h : Memory.wf s.mem = true) (ht : execLdrL u l a c due s = .next s') : Memory.wf s'.mem = true := by
  exact issue_wf h (fun _ h => by simp [h]) ht

theorem execPf_wf (u : Pfx) (d : BitVec 4) (a : BitVec 6) (c : BitVec 4) (s : State) {s' : State}
    (h : Memory.wf s.mem = true) (ht : execPf u d a c s = .next s') : Memory.wf s'.mem = true := by
  exact issue_wf h (fun _ h => by simp [h]) ht

theorem execLdS_wf (u : Pfx) (a : BitVec 6) (c : BitVec 4) (e : BitVec 2) (sc : BitVec 3) (w : BitVec 2)
    (s : State) {s' : State} (h : Memory.wf s.mem = true) (ht : execLdS u a c e sc w s = .next s') :
    Memory.wf s'.mem = true := by
  exact issue_wf h (fun _ h => by simp [h]) ht

theorem execStS_wf (u : Pfx) (a : BitVec 6) (c : BitVec 4) (e : BitVec 2) (sc : BitVec 3) (w : BitVec 2)
    (s : State) {s' : State} (h : Memory.wf s.mem = true) (ht : execStS u a c e sc w s = .next s') :
    Memory.wf s'.mem = true := by
  exact issue_wf h (fun _ h => by simp [h]) ht

theorem execAmoAdd_wf (u : Pfx) (a : BitVec 6) (c : BitVec 4) (e : BitVec 2) (sc : BitVec 3) (w : BitVec 2)
    (s : State) {s' : State} (h : Memory.wf s.mem = true) (ht : execAmoAdd u a c e sc w s = .next s') :
    Memory.wf s'.mem = true := by
  exact issue_wf h (fun _ h => by simp [h]) ht

theorem execAmoFadd_wf (u : Pfx) (a : BitVec 6) (c : BitVec 4) (e : BitVec 2) (sc : BitVec 3) (w : BitVec 2)
    (s : State) {s' : State} (h : Memory.wf s.mem = true) (ht : execAmoFadd u a c e sc w s = .next s') :
    Memory.wf s'.mem = true := by
  exact issue_wf h (fun _ h => by simp [h]) ht

theorem execAmoMin_wf (u : Pfx) (a : BitVec 6) (c : BitVec 4) (e : BitVec 2) (sc : BitVec 3) (w : BitVec 2)
    (s : State) {s' : State} (h : Memory.wf s.mem = true) (ht : execAmoMin u a c e sc w s = .next s') :
    Memory.wf s'.mem = true := by
  exact issue_wf h (fun _ h => by simp [h]) ht

theorem execAmoMax_wf (u : Pfx) (a : BitVec 6) (c : BitVec 4) (e : BitVec 2) (sc : BitVec 3) (w : BitVec 2)
    (s : State) {s' : State} (h : Memory.wf s.mem = true) (ht : execAmoMax u a c e sc w s = .next s') :
    Memory.wf s'.mem = true := by
  exact issue_wf h (fun _ h => by simp [h]) ht

theorem execAmoMinu_wf (u : Pfx) (a : BitVec 6) (c : BitVec 4) (e : BitVec 2) (sc : BitVec 3) (w : BitVec 2)
    (s : State) {s' : State} (h : Memory.wf s.mem = true) (ht : execAmoMinu u a c e sc w s = .next s') :
    Memory.wf s'.mem = true := by
  exact issue_wf h (fun _ h => by simp [h]) ht

theorem execAmoMaxu_wf (u : Pfx) (a : BitVec 6) (c : BitVec 4) (e : BitVec 2) (sc : BitVec 3) (w : BitVec 2)
    (s : State) {s' : State} (h : Memory.wf s.mem = true) (ht : execAmoMaxu u a c e sc w s = .next s') :
    Memory.wf s'.mem = true := by
  exact issue_wf h (fun _ h => by simp [h]) ht

theorem execAmoAnd_wf (u : Pfx) (a : BitVec 6) (c : BitVec 4) (e : BitVec 2) (sc : BitVec 3) (w : BitVec 2)
    (s : State) {s' : State} (h : Memory.wf s.mem = true) (ht : execAmoAnd u a c e sc w s = .next s') :
    Memory.wf s'.mem = true := by
  exact issue_wf h (fun _ h => by simp [h]) ht

theorem execAmoOr_wf (u : Pfx) (a : BitVec 6) (c : BitVec 4) (e : BitVec 2) (sc : BitVec 3) (w : BitVec 2)
    (s : State) {s' : State} (h : Memory.wf s.mem = true) (ht : execAmoOr u a c e sc w s = .next s') :
    Memory.wf s'.mem = true := by
  exact issue_wf h (fun _ h => by simp [h]) ht

theorem execAmoXor_wf (u : Pfx) (a : BitVec 6) (c : BitVec 4) (e : BitVec 2) (sc : BitVec 3) (w : BitVec 2)
    (s : State) {s' : State} (h : Memory.wf s.mem = true) (ht : execAmoXor u a c e sc w s = .next s') :
    Memory.wf s'.mem = true := by
  exact issue_wf h (fun _ h => by simp [h]) ht

theorem execAmoSwp_wf (u : Pfx) (a : BitVec 6) (c : BitVec 4) (e : BitVec 2) (sc : BitVec 3) (w : BitVec 2)
    (s : State) {s' : State} (h : Memory.wf s.mem = true) (ht : execAmoSwp u a c e sc w s = .next s') :
    Memory.wf s'.mem = true := by
  exact issue_wf h (fun _ h => by simp [h]) ht

theorem execAmoCas_wf (u : Pfx) (a : BitVec 6) (c : BitVec 4) (e : BitVec 2) (sc : BitVec 3) (w : BitVec 2)
    (s : State) {s' : State} (h : Memory.wf s.mem = true) (ht : execAmoCas u a c e sc w s = .next s') :
    Memory.wf s'.mem = true := by
  exact issue_wf h (fun _ h => by simp [h]) ht

theorem execRedAdd_wf (u : Pfx) (a : BitVec 6) (c : BitVec 4) (sc : BitVec 3) (w : BitVec 2) (s : State)
    {s' : State} (h : Memory.wf s.mem = true) (ht : execRedAdd u a c sc w s = .next s') :
    Memory.wf s'.mem = true := by
  exact issue_wf h (fun _ h => by simp [h]) ht

theorem execRedFadd_wf (u : Pfx) (a : BitVec 6) (c : BitVec 4) (sc : BitVec 3) (w : BitVec 2) (s : State)
    {s' : State} (h : Memory.wf s.mem = true) (ht : execRedFadd u a c sc w s = .next s') :
    Memory.wf s'.mem = true := by
  exact issue_wf h (fun _ h => by simp [h]) ht

theorem execRedMin_wf (u : Pfx) (a : BitVec 6) (c : BitVec 4) (sc : BitVec 3) (w : BitVec 2) (s : State)
    {s' : State} (h : Memory.wf s.mem = true) (ht : execRedMin u a c sc w s = .next s') :
    Memory.wf s'.mem = true := by
  exact issue_wf h (fun _ h => by simp [h]) ht

theorem execRedMax_wf (u : Pfx) (a : BitVec 6) (c : BitVec 4) (sc : BitVec 3) (w : BitVec 2) (s : State)
    {s' : State} (h : Memory.wf s.mem = true) (ht : execRedMax u a c sc w s = .next s') :
    Memory.wf s'.mem = true := by
  exact issue_wf h (fun _ h => by simp [h]) ht

theorem execRedAnd_wf (u : Pfx) (a : BitVec 6) (c : BitVec 4) (sc : BitVec 3) (w : BitVec 2) (s : State)
    {s' : State} (h : Memory.wf s.mem = true) (ht : execRedAnd u a c sc w s = .next s') :
    Memory.wf s'.mem = true := by
  exact issue_wf h (fun _ h => by simp [h]) ht

theorem execRedOr_wf (u : Pfx) (a : BitVec 6) (c : BitVec 4) (sc : BitVec 3) (w : BitVec 2) (s : State)
    {s' : State} (h : Memory.wf s.mem = true) (ht : execRedOr u a c sc w s = .next s') : Memory.wf s'.mem = true := by
  exact issue_wf h (fun _ h => by simp [h]) ht

theorem execRedXor_wf (u : Pfx) (a : BitVec 6) (c : BitVec 4) (sc : BitVec 3) (w : BitVec 2) (s : State)
    {s' : State} (h : Memory.wf s.mem = true) (ht : execRedXor u a c sc w s = .next s') :
    Memory.wf s'.mem = true := by
  exact issue_wf h (fun _ h => by simp [h]) ht

theorem execCpIn_wf (u : Pfx) (d : BitVec 4) (a : BitVec 6) (i c : BitVec 4) (s : State) {s' : State}
    (h : Memory.wf s.mem = true) (ht : execCpIn u d a i c s = .next s') : Memory.wf s'.mem = true := by
  exact issue_wf h (fun _ h => State.readBlock_wf _ _ (fun _ h => by simp [h]) h) ht

theorem execCpOut_wf (u : Pfx) (d : BitVec 4) (a : BitVec 6) (i c : BitVec 4) (s : State) {s' : State}
    (h : Memory.wf s.mem = true) (ht : execCpOut u d a i c s = .next s') : Memory.wf s'.mem = true := by
  exact issue_wf h (fun _ h => State.readBlock_wf _ _ (fun _ h => by simp [h]) h) ht

theorem execCpSs_wf (u : Pfx) (d : BitVec 4) (a : BitVec 6) (i c : BitVec 4) (s : State) {s' : State}
    (h : Memory.wf s.mem = true) (ht : execCpSs u d a i c s = .next s') : Memory.wf s'.mem = true := by
  exact issue_wf h (fun _ h => by simp [h]) ht

theorem execRsub_wf (u : Pfx) (d : BitVec 4) (a : BitVec 6) (i c : BitVec 4) (s : State) {s' : State}
    (h : Memory.wf s.mem = true) (ht : execRsub u d a i c s = .next s') : Memory.wf s'.mem = true := by
  exact issue_wf h (fun _ h => State.readBlock_wf _ _ (fun _ h => by simp [h]) h) ht

theorem execSrel_wf (u : Pfx) (d : BitVec 4) (a : BitVec 6) (c : BitVec 4) (s : State) {s' : State}
    (h : Memory.wf s.mem = true)
    (ht : execSrel u d a c s = .next s') : Memory.wf s'.mem = true := by
  exact issue_wf h (fun _ h => State.readBlock_wf _ _ (fun _ h => by split <;> simp [h]) h) ht

theorem execFpush_wf (u : Pfx) (v : BitVec 5) (a : BitVec 6) (c : BitVec 4) (s : State) {s' : State}
    (h : Memory.wf s.mem = true) (ht : execFpush u v a c s = .next s') : Memory.wf s'.mem = true := by
  exact issue_wf h (fun _ h => by simp [h]) ht

theorem execFpushq_wf (u : Pfx) (q : BitVec 2) (a : BitVec 6) (c : BitVec 4) (sc : BitVec 3) (s : State)
    {s' : State} (h : Memory.wf s.mem = true) (ht : execFpushq u q a c sc s = .next s') :
    Memory.wf s'.mem = true := by
  exact issue_wf h (fun _ h => by simp [h]) ht

theorem execStq_wf (u : Pfx) (q : BitVec 2) (a : BitVec 6) (c : BitVec 4) (sc : BitVec 3) (s : State) {s' : State}
    (h : Memory.wf s.mem = true) (ht : execStq u q a c sc s = .next s') : Memory.wf s'.mem = true := by
  exact issue_wf h (fun _ h => by simp [h]) ht

theorem execBr_wf (u : Grd) (o : BitVec 20) (s : State) {s' : State} (h : Memory.wf s.mem = true)
    (ht : execBr u o s = .next s') : Memory.wf s'.mem = true := by
  exact issue_wf h (fun _ h => by simp [h]) ht

theorem execJmp_wf (u : Grd) (r : BitVec 6) (s : State) {s' : State} (h : Memory.wf s.mem = true)
    (ht : execJmp u r s = .next s') : Memory.wf s'.mem = true := by
  exact issue_wf h (fun _ h => by simp [h]) ht

theorem execCall_wf (u : Grd) (o : BitVec 20) (s : State) {s' : State} (h : Memory.wf s.mem = true)
    (ht : execCall u o s = .next s') : Memory.wf s'.mem = true := by
  exact issue_wf h (fun _ h => by simp [h]) ht

theorem execRet_wf (u : Grd) (s : State) {s' : State} (h : Memory.wf s.mem = true) (ht : execRet u s = .next s') :
    Memory.wf s'.mem = true := by
  exact issue_wf h (fun _ h => by simp [h]) ht

theorem execLoop_wf (u : Grd) (l : BitVec 5) (d : BitVec 3) (a : BitVec 6) (s : State) {s' : State}
    (h : Memory.wf s.mem = true) (ht : execLoop u l d a s = .next s') : Memory.wf s'.mem = true := by
  exact issue_wf h (fun _ h => by simp [h]) ht

theorem execWait_wf (u : Grd) (k : BitVec 2) (m : BitVec 16) (s : State) {s' : State} (h : Memory.wf s.mem = true)
    (ht : execWait u k m s = .next s') : Memory.wf s'.mem = true := by
  refine issue_wf h (fun s h => ?_) ht
  split <;> simp [h]

theorem execBar_wf (u : Grd) (b : BitVec 4) (m : BitVec 8) (s : State) {s' : State} (h : Memory.wf s.mem = true)
    (ht : execBar u b m s = .next s') : Memory.wf s'.mem = true := by
  exact issue_wf h (fun _ h => by simp [h]) ht

theorem execFence_wf (u : Grd) (sc : BitVec 3) (m : BitVec 16) (s : State) {s' : State} (h : Memory.wf s.mem = true)
    (ht : execFence u sc m s = .next s') : Memory.wf s'.mem = true := by
  refine issue_wf h (fun s h => ?_) ht
  split <;> simp [h]

theorem execTrap_wf (u : Grd) (c : BitVec 16) (s : State) {s' : State} (h : Memory.wf s.mem = true)
    (ht : execTrap u c s = .next s') : Memory.wf s'.mem = true := by
  exact issue_wf h (fun _ h => by simp [h]) ht

theorem execEret_wf (u : Grd) (s : State) {s' : State} (h : Memory.wf s.mem = true) (ht : execEret u s = .next s') :
    Memory.wf s'.mem = true := by
  exact issue_wf h (fun _ h => by simp [h]) ht

theorem execSetpri_wf (u : Grd) (c : BitVec 2) (s : State) {s' : State} (h : Memory.wf s.mem = true)
    (ht : execSetpri u c s = .next s') : Memory.wf s'.mem = true := by
  exact issue_wf h (fun _ h => by simp [h]) ht

theorem execCtnOpen_wf (u : Grd) (o : BitVec 20) (s : State) {s' : State} (h : Memory.wf s.mem = true)
    (ht : execCtnOpen u o s = .next s') : Memory.wf s'.mem = true := by
  exact issue_wf h (fun _ h => by simp [h]) ht

theorem execCtnClose_wf (u : Grd) (s : State) {s' : State} (h : Memory.wf s.mem = true)
    (ht : execCtnClose u s = .next s') : Memory.wf s'.mem = true := by
  exact issue_wf h (fun _ h => by simp [h]) ht

theorem execGlaunch_wf (u : Grd) (r : BitVec 6) (s : State) {s' : State} (h : Memory.wf s.mem = true)
    (ht : execGlaunch u r s = .next s') : Memory.wf s'.mem = true := by
  exact issue_wf h (fun _ h => by simp [h]) ht

theorem execBead_wf (u : Grd) (r t : BitVec 6) (s : State) {s' : State} (h : Memory.wf s.mem = true)
    (ht : execBead u r t s = .next s') : Memory.wf s'.mem = true := by
  exact issue_wf h (fun _ h => by simp [h]) ht

theorem execNdone_wf (u : Grd) (s : State) {s' : State} (h : Memory.wf s.mem = true)
    (ht : execNdone u s = .next s') : Memory.wf s'.mem = true := by
  exact issue_wf h (fun _ h => by simp [h]) ht

theorem execYield_wf (u : Grd) (s : State) {s' : State} (h : Memory.wf s.mem = true)
    (ht : execYield u s = .next s') : Memory.wf s'.mem = true := by
  exact issue_wf h (fun _ h => by simp [h]) ht

theorem execHalt_wf (u : Grd) (s : State) {s' : State} (h : Memory.wf s.mem = true) (ht : execHalt u s = .next s') :
    Memory.wf s'.mem = true := by
  exact issue_wf h (fun _ h => by simp [h]) ht

theorem execSqrd_wf (u : Grd) (r : BitVec 6) (s : State) {s' : State} (h : Memory.wf s.mem = true)
    (ht : execSqrd u r s = .next s') : Memory.wf s'.mem = true := by
  exact issue_wf h (fun _ h => by simp [h]) ht

theorem execSlot_wf (i : Instr) (s : State) {t : State} (h : Memory.wf s.mem = true) (ht : execSlot i s = .next t) :
    Memory.wf t.mem = true := by
  cases i with
  | br u o => exact execBr_wf _ _ _ h ht
  | jmp u r => exact execJmp_wf _ _ _ h ht
  | call u o => exact execCall_wf _ _ _ h ht
  | ret u => exact execRet_wf _ _ h ht
  | loop u l d r => exact execLoop_wf _ _ _ _ _ h ht
  | wait u k m => exact execWait_wf _ _ _ _ h ht
  | bar u b m => exact execBar_wf _ _ _ _ h ht
  | fence u r m => exact execFence_wf _ _ _ _ h ht
  | trap u c => exact execTrap_wf _ _ _ h ht
  | eret u => exact execEret_wf _ _ h ht
  | setpri u c => exact execSetpri_wf _ _ _ h ht
  | ctnOpen u o => exact execCtnOpen_wf _ _ _ h ht
  | ctnClose u => exact execCtnClose_wf _ _ h ht
  | glaunch u r => exact execGlaunch_wf _ _ _ h ht
  | bead u r t => exact execBead_wf _ _ _ _ h ht
  | ndone u => exact execNdone_wf _ _ h ht
  | yield u => exact execYield_wf _ _ h ht
  | halt u => exact execHalt_wf _ _ h ht
  | sqrd u r => exact execSqrd_wf _ _ _ h ht
  | add u d a b => exact execAdd_wf _ _ _ _ _ h ht
  | sub u d a b => exact execSub_wf _ _ _ _ _ h ht
  | mul u d a b => exact execMul_wf _ _ _ _ _ h ht
  | mulh u d a b => exact execMulh_wf _ _ _ _ _ h ht
  | mulhu u d a b => exact execMulhu_wf _ _ _ _ _ h ht
  | div u d a b => exact execDiv_wf _ _ _ _ _ h ht
  | divu u d a b => exact execDivu_wf _ _ _ _ _ h ht
  | rem u d a b => exact execRem_wf _ _ _ _ _ h ht
  | remu u d a b => exact execRemu_wf _ _ _ _ _ h ht
  | and u d a b => exact execAnd_wf _ _ _ _ _ h ht
  | or u d a b => exact execOr_wf _ _ _ _ _ h ht
  | xor u d a b => exact execXor_wf _ _ _ _ _ h ht
  | shl u d a b => exact execShl_wf _ _ _ _ _ h ht
  | shr u d a b => exact execShr_wf _ _ _ _ _ h ht
  | ashr u d a b => exact execAshr_wf _ _ _ _ _ h ht
  | sel u d a p => exact execSel_wf _ _ _ _ _ h ht
  | min u d a b => exact execMin_wf _ _ _ _ _ h ht
  | max u d a b => exact execMax_wf _ _ _ _ _ h ht
  | minu u d a b => exact execMinu_wf _ _ _ _ _ h ht
  | maxu u d a b => exact execMaxu_wf _ _ _ _ _ h ht
  | clz u d a => exact execClz_wf _ _ _ _ h ht
  | ctz u d a => exact execCtz_wf _ _ _ _ h ht
  | popc u d a => exact execPopc_wf _ _ _ _ h ht
  | addi u d a i => exact execAddi_wf _ _ _ _ _ h ht
  | andi u d a i => exact execAndi_wf _ _ _ _ _ h ht
  | ori u d a i => exact execOri_wf _ _ _ _ _ h ht
  | xori u d a i => exact execXori_wf _ _ _ _ _ h ht
  | shli u d a i => exact execShli_wf _ _ _ _ _ h ht
  | shri u d a i => exact execShri_wf _ _ _ _ _ h ht
  | ashri u d a i => exact execAshri_wf _ _ _ _ _ h ht
  | movi u d i => exact execMovi_wf _ _ _ _ h ht
  | movs u d i => exact execMovs_wf _ _ _ _ h ht
  | rdc u r c w => exact execRdc_wf _ _ _ _ _ h ht
  | wrc u r c w => exact execWrc_wf _ _ _ _ _ h ht
  | fcmple u p a b f w => exact execFcmple_wf _ _ _ _ _ _ _ h ht
  | fcmpun u p a b f w => exact execFcmpun_wf _ _ _ _ _ _ _ h ht
  | cmpeq u p a b => exact execCmpeq_wf _ _ _ _ _ h ht
  | cmpne u p a b => exact execCmpne_wf _ _ _ _ _ h ht
  | cmplt u p a b => exact execCmplt_wf _ _ _ _ _ h ht
  | cmpltu u p a b => exact execCmpltu_wf _ _ _ _ _ h ht
  | cmple u p a b => exact execCmple_wf _ _ _ _ _ h ht
  | cmpleu u p a b => exact execCmpleu_wf _ _ _ _ _ h ht
  | fcmpeq u p a b f w => exact execFcmpeq_wf _ _ _ _ _ _ _ h ht
  | fcmplt u p a b f w => exact execFcmplt_wf _ _ _ _ _ _ _ h ht
  | faddF32 u d a b f o => exact execFaddF32_wf _ _ _ _ _ _ _ h ht
  | fsubF32 u d a b f o => exact execFsubF32_wf _ _ _ _ _ _ _ h ht
  | fmulF32 u d a b f o => exact execFmulF32_wf _ _ _ _ _ _ _ h ht
  | ffmaF32 u d a b f o => exact execFfmaF32_wf _ _ _ _ _ _ _ h ht
  | fdivF32 u d a b f o => exact execFdivF32_wf _ _ _ _ _ _ _ h ht
  | fsqrtF32 u d a f o => exact execFsqrtF32_wf _ _ _ _ _ _ h ht
  | faddF64 u d a b f o => exact execFaddF64_wf _ _ _ _ _ _ _ h ht
  | fsubF64 u d a b f o => exact execFsubF64_wf _ _ _ _ _ _ _ h ht
  | fmulF64 u d a b f o => exact execFmulF64_wf _ _ _ _ _ _ _ h ht
  | ffmaF64 u d a b f o => exact execFfmaF64_wf _ _ _ _ _ _ _ h ht
  | fdivF64 u d a b f o => exact execFdivF64_wf _ _ _ _ _ _ _ h ht
  | fsqrtF64 u d a f o => exact execFsqrtF64_wf _ _ _ _ _ _ h ht
  | xadd u x a b => exact execXadd_wf _ _ _ _ _ h ht
  | xaddi u x a i => exact execXaddi_wf _ _ _ _ _ h ht
  | xsub u x a b => exact execXsub_wf _ _ _ _ _ h ht
  | xshli u x a i => exact execXshli_wf _ _ _ _ _ h ht
  | xshri u x a i => exact execXshri_wf _ _ _ _ _ h ht
  | xand u x a b => exact execXand_wf _ _ _ _ _ h ht
  | xpopc u x a => exact execXpopc_wf _ _ _ _ h ht
  | xcmpadv u x a b c f => exact execXcmpadv_wf _ _ _ _ _ _ _ h ht
  | xpatd u x a k => exact execXpatd_wf _ _ _ _ _ h ht
  | xbnet u x a b e => exact execXbnet_wf _ _ _ _ _ _ h ht
  | xbnld u e v => exact execXbnld_wf _ _ _ _ h ht
  | xbperm u x a b c f => exact execXbperm_wf _ _ _ _ _ _ _ h ht
  | xfroms u x r => exact execXfroms_wf _ _ _ _ h ht
  | xtos u x r => exact execXtos_wf _ _ _ _ h ht
  | xmov u x a => exact execXmov_wf _ _ _ _ h ht
  | xmovi u x i => exact execXmovi_wf _ _ _ _ h ht
  | vadd u t d a b f o => exact execVadd_wf _ _ _ _ _ _ _ _ h ht
  | vsub u t d a b f o => exact execVsub_wf _ _ _ _ _ _ _ _ h ht
  | vmul u t d a b f o => exact execVmul_wf _ _ _ _ _ _ _ _ h ht
  | vfma u t d a b f o => exact execVfma_wf _ _ _ _ _ _ _ _ h ht
  | vfms u t d a b f o => exact execVfms_wf _ _ _ _ _ _ _ _ h ht
  | vdiv u t d a b f o => exact execVdiv_wf _ _ _ _ _ _ _ _ h ht
  | vsqrt u t d a f o => exact execVsqrt_wf _ _ _ _ _ _ _ h ht
  | vmin u t d a b f => exact execVmin_wf _ _ _ _ _ _ _ h ht
  | vmax u t d a b f => exact execVmax_wf _ _ _ _ _ _ _ h ht
  | vabs u t d a o => exact execVabs_wf _ _ _ _ _ _ h ht
  | vneg u t d a o => exact execVneg_wf _ _ _ _ _ _ h ht
  | vrcp u t d a f o => exact execVrcp_wf _ _ _ _ _ _ _ h ht
  | vrsq u t d a f o => exact execVrsq_wf _ _ _ _ _ _ _ h ht
  | vexp2 u t d a f o => exact execVexp2_wf _ _ _ _ _ _ _ h ht
  | vlog2 u t d a f o => exact execVlog2_wf _ _ _ _ _ _ _ h ht
  | vsel u c w d a b => exact execVsel_wf _ _ _ _ _ _ _ h ht
  | vand u t d a b => exact execVand_wf _ _ _ _ _ _ h ht
  | vor u t d a b => exact execVor_wf _ _ _ _ _ _ h ht
  | vxor u t d a b => exact execVxor_wf _ _ _ _ _ _ h ht
  | vnot u t d a => exact execVnot_wf _ _ _ _ _ h ht
  | vshl u t d a b => exact execVshl_wf _ _ _ _ _ _ h ht
  | vshr u t d a b => exact execVshr_wf _ _ _ _ _ _ h ht
  | vashr u t d a b => exact execVashr_wf _ _ _ _ _ _ h ht
  | vscn u t d a b f o => exact execVscn_wf _ _ _ _ _ _ _ _ h ht
  | vcmpeq u t p a b f => exact execVcmpeq_wf _ _ _ _ _ _ _ h ht
  | vcmpne u t p a b f => exact execVcmpne_wf _ _ _ _ _ _ _ h ht
  | vcmplt u t p a b f => exact execVcmplt_wf _ _ _ _ _ _ _ h ht
  | vcmple u t p a b f => exact execVcmple_wf _ _ _ _ _ _ _ h ht
  | vcmpun u t p a b f => exact execVcmpun_wf _ _ _ _ _ _ _ h ht
  | vcvt u t d a q r f o => exact execVcvt_wf _ _ _ _ _ _ _ _ _ h ht
  | vcvtd u t d a r f o => exact execVcvtd_wf _ _ _ _ _ _ _ _ h ht
  | vperm u t d a b => exact execVperm_wf _ _ _ _ _ _ h ht
  | vbcast u t d a l => exact execVbcast_wf _ _ _ _ _ _ h ht
  | vredadd u t d a f o => exact execVredadd_wf _ _ _ _ _ _ _ h ht
  | vredmax u t d a f => exact execVredmax_wf _ _ _ _ _ _ h ht
  | vredmin u t d a f => exact execVredmin_wf _ _ _ _ _ _ h ht
  | vpopq u d q => exact execVpopq_wf _ _ _ _ h ht
  | vpopl u d l => exact execVpopl_wf _ _ _ _ h ht
  | vrng u t d a => exact execVrng_wf _ _ _ _ _ h ht
  | prune u d a b k => exact execPrune_wf _ _ _ _ _ _ h ht
  | topk u t d a b => exact execTopk_wf _ _ _ _ _ _ h ht
  | qnt u d a b f => exact execQnt_wf _ _ _ _ _ _ h ht
  | dq u d a b o => exact execDq_wf _ _ _ _ _ _ h ht
  | spenc u t d a k => exact execSpenc_wf _ _ _ _ _ _ h ht
  | spdec u t d a k => exact execSpdec_wf _ _ _ _ _ _ h ht
  | vmvs u r v l => exact execVmvs_wf _ _ _ _ _ h ht
  | vmsv u r v l => exact execVmsv_wf _ _ _ _ _ h ht
  | vmoviI32 u m d i => exact execVmoviI32_wf _ _ _ _ _ h ht
  | vmoviI64 u m d i => exact execVmoviI64_wf _ _ _ _ _ h ht
  | vmoviF32 u m d i => exact execVmoviF32_wf _ _ _ _ _ h ht
  | vmoviF64 u m d i => exact execVmoviF64_wf _ _ _ _ _ h ht
  | vmoviF16 u m d i => exact execVmoviF16_wf _ _ _ _ _ h ht
  | vmoviBf16 u m d i => exact execVmoviBf16_wf _ _ _ _ _ h ht
  | vmoviH8 u m d i => exact execVmoviH8_wf _ _ _ _ _ h ht
  | mma u p k a b z r f o => exact execMma_wf _ _ _ _ _ _ _ _ _ _ h ht
  | mmaS u p k a b z r f o => exact execMmaS_wf _ _ _ _ _ _ _ _ _ _ h ht
  | mmaK4 u k a b m => exact execMmaK4_wf _ _ _ _ _ _ h ht
  | trsm u k e w l => exact execTrsm_wf _ _ _ _ _ _ h ht
  | getrf u k w l => exact execGetrf_wf _ _ _ _ _ h ht
  | potrf u k w l => exact execPotrf_wf _ _ _ _ _ h ht
  | givqr u k e w => exact execGivqr_wf _ _ _ _ _ h ht
  | rotapp u k e w l => exact execRotapp_wf _ _ _ _ _ _ h ht
  | accz u k => exact execAccz_wf _ _ _ h ht
  | accld u k d => exact execAccld_wf _ _ _ _ h ht
  | accst u a d => exact execAccst_wf _ _ _ _ h ht
  | drain u a q => exact execDrain_wf _ _ _ _ h ht
  | accmov u k a => exact execAccmov_wf _ _ _ _ h ht
  | acct u d => exact execAcct_wf _ _ _ h ht
  | cbld u d c => exact execCbld_wf _ _ _ _ h ht
  | spld u d => exact execSpld_wf _ _ _ h ht
  | ldV u v a c o => exact execLdV_wf _ _ _ _ _ _ h ht
  | stV u v a c o => exact execStV_wf _ _ _ _ _ _ h ht
  | ldVs u v a c w => exact execLdVs_wf _ _ _ _ _ _ h ht
  | stVs u v a c w => exact execStVs_wf _ _ _ _ _ _ h ht
  | ldVx u v a b c => exact execLdVx_wf _ _ _ _ _ _ h ht
  | stVx u v a b c => exact execStVx_wf _ _ _ _ _ _ h ht
  | ldrL u l a c t => exact execLdrL_wf _ _ _ _ _ _ h ht
  | pf u d a c => exact execPf_wf _ _ _ _ _ h ht
  | ldS u a c e r w => exact execLdS_wf _ _ _ _ _ _ _ h ht
  | stS u a c e r w => exact execStS_wf _ _ _ _ _ _ _ h ht
  | amoAdd u a c e r w => exact execAmoAdd_wf _ _ _ _ _ _ _ h ht
  | amoFadd u a c e r w => exact execAmoFadd_wf _ _ _ _ _ _ _ h ht
  | amoMin u a c e r w => exact execAmoMin_wf _ _ _ _ _ _ _ h ht
  | amoMax u a c e r w => exact execAmoMax_wf _ _ _ _ _ _ _ h ht
  | amoMinu u a c e r w => exact execAmoMinu_wf _ _ _ _ _ _ _ h ht
  | amoMaxu u a c e r w => exact execAmoMaxu_wf _ _ _ _ _ _ _ h ht
  | amoAnd u a c e r w => exact execAmoAnd_wf _ _ _ _ _ _ _ h ht
  | amoOr u a c e r w => exact execAmoOr_wf _ _ _ _ _ _ _ h ht
  | amoXor u a c e r w => exact execAmoXor_wf _ _ _ _ _ _ _ h ht
  | amoSwp u a c e r w => exact execAmoSwp_wf _ _ _ _ _ _ _ h ht
  | amoCas u a c e r w => exact execAmoCas_wf _ _ _ _ _ _ _ h ht
  | redAdd u a c r w => exact execRedAdd_wf _ _ _ _ _ _ h ht
  | redFadd u a c r w => exact execRedFadd_wf _ _ _ _ _ _ h ht
  | redMin u a c r w => exact execRedMin_wf _ _ _ _ _ _ h ht
  | redMax u a c r w => exact execRedMax_wf _ _ _ _ _ _ h ht
  | redAnd u a c r w => exact execRedAnd_wf _ _ _ _ _ _ h ht
  | redOr u a c r w => exact execRedOr_wf _ _ _ _ _ _ h ht
  | redXor u a c r w => exact execRedXor_wf _ _ _ _ _ _ h ht
  | cpIn u d a i c => exact execCpIn_wf _ _ _ _ _ _ h ht
  | cpOut u d a i c => exact execCpOut_wf _ _ _ _ _ _ h ht
  | cpSs u d a i c => exact execCpSs_wf _ _ _ _ _ _ h ht
  | rsub u d a i c => exact execRsub_wf _ _ _ _ _ _ h ht
  | srel u d a c => exact execSrel_wf _ _ _ _ _ h ht
  | fpush u v a c => exact execFpush_wf _ _ _ _ _ h ht
  | fpushq u q a c r => exact execFpushq_wf _ _ _ _ _ _ h ht
  | stq u q a c r => exact execStq_wf _ _ _ _ _ _ h ht
  | _ => cases ht; exact h

@[simp] theorem State.runSlot_wf (s : State) (o : SlotOp) (h : Memory.wf s.mem = true) :
    Memory.wf (s.runSlot o).mem = true := by
  unfold State.runSlot
  split
  · next t ht => exact execSlot_wf _ _ (by simpa using h) ht
  · exact h

@[simp] theorem State.issueBundle_wf (s : State) (c : CtxId) (p : Planned) (acting : List SlotOp)
    (h : Memory.wf s.mem = true) :
    Memory.wf (s.issueBundle c p acting).mem = true := by
  dsimp only [State.issueBundle]
  rw [State.endIssue_mem]
  refine foldl_wf (fun _ _ h => State.runSlot_wf _ _ h) _ ?_
  rw [State.updCtx_mem]
  exact foldl_wf (fun _ _ h => State.runSlot_wf _ _ h) _ (by rw [State.beginIssue_mem]; exact h)

@[simp] theorem State.merge_wf (s : State) (n : Nat) (h : Memory.wf s.mem = true) :
    Memory.wf (s.merge n).mem = true := by
  have hb : Memory.wf ((((s.head ⟨n, false⟩).1.head ⟨n, true⟩).1.raiseHead ⟨n, false⟩ (s.head ⟨n, false⟩).2).raiseHead
      ⟨n, true⟩ ((s.head ⟨n, false⟩).1.head ⟨n, true⟩).2).mem = true :=
    State.raiseHead_wf _ _ _ (State.raiseHead_wf _ _ _ (State.head_wf _ _ (State.head_wf _ _ h)))
  dsimp only [State.merge]
  generalize ((((s.head ⟨n, false⟩).1.head ⟨n, true⟩).1.raiseHead ⟨n, false⟩ (s.head ⟨n, false⟩).2).raiseHead
      ⟨n, true⟩ ((s.head ⟨n, false⟩).1.head ⟨n, true⟩).2) = t at hb ⊢
  split
  · split
    · exact State.issueBundle_wf _ _ _ _ (State.issueBundle_wf _ _ _ _ hb)
    · split <;> exact State.issueBundle_wf _ _ _ _ hb
  · exact State.issueBundle_wf _ _ _ _ hb
  · exact State.issueBundle_wf _ _ _ _ hb
  · exact hb

@[simp] theorem State.offer_wf (s : State) (f : Fetched) (h : Memory.wf s.mem = true) :
    Memory.wf (s.offer f).mem = true := by
  have hh := State.headOf_wf s s.cur f h
  dsimp only [State.offer]
  split
  · exact h
  · split
    · exact State.issueBundle_wf _ _ _ _ hh
    · exact State.raiseHead_wf _ _ _ hh

@[simp] theorem State.issueEmpty_wf (s : State) (f : Fetched) (h : Memory.wf s.mem = true) :
    Memory.wf (s.issueEmpty f).mem = true := by
  unfold State.issueEmpty
  split
  · exact State.inCycle_wf _ _ (fun _ h => State.offer_wf _ _ h) h
  · exact h

theorem execBundleIssue_wf (n : Nat) (s : State) {t : State} (h : Memory.wf s.mem = true)
    (ht : execBundleIssue n s = .next t) : Memory.wf t.mem = true := by
  cases ht
  exact ite_wf (State.inCycle_wf _ _ (fun _ h => State.merge_wf _ _ h) h) h

theorem execLookAheadNullifier_wf (c : CtxId) (s : State) {s' : State} (h : Memory.wf s.mem = true)
    (ht : execLookAheadNullifier c s = .next s') : Memory.wf s'.mem = true := by
  dsimp only [execLookAheadNullifier] at ht
  (repeat' split at ht) <;> (cases ht; simp [h])

theorem execResultLanding_wf (c : CtxId) (k : Nat) (s : State) {s' : State} (h : Memory.wf s.mem = true)
    (ht : execResultLanding c k s = .next s') : Memory.wf s'.mem = true := by
  dsimp only [execResultLanding] at ht
  (repeat' split at ht) <;> (cases ht; simp [h])

theorem execLoopBackEdge_wf (c : CtxId) (s : State) {s' : State} (h : Memory.wf s.mem = true)
    (ht : execLoopBackEdge c s = .next s') : Memory.wf s'.mem = true := by
  dsimp only [execLoopBackEdge] at ht
  cases ht
  split <;> simp [h]

theorem execLandingDue_wf (c : CtxId) (l : BitVec 3) (s : State) {s' : State} (h : Memory.wf s.mem = true)
    (ht : execLandingDue c l s = .next s') : Memory.wf s'.mem = true := by
  dsimp only [execLandingDue] at ht
  (cases ht; simp [h])

theorem execWrcSeed_wf (c : CtxId) (s : State) {s' : State} (h : Memory.wf s.mem = true)
    (ht : execWrcSeed c s = .next s') : Memory.wf s'.mem = true := by
  dsimp only [execWrcSeed] at ht
  (cases ht; simp [h])

theorem execWrcFpctl_wf (c : CtxId) (s : State) {s' : State} (h : Memory.wf s.mem = true)
    (ht : execWrcFpctl c s = .next s') : Memory.wf s'.mem = true := by
  dsimp only [execWrcFpctl] at ht
  (cases ht; simp [h])

theorem execWrcKsw_wf (c : CtxId) (n : BitVec 3) (s : State) {s' : State} (h : Memory.wf s.mem = true)
    (ht : execWrcKsw c n s = .next s') : Memory.wf s'.mem = true := by
  dsimp only [execWrcKsw] at ht
  (cases ht; simp [h])

theorem execNop_wf (ib : Bool) (s : State) {s' : State} (h : Memory.wf s.mem = true) (ht : execNop ib s = .next s') :
    Memory.wf s'.mem = true := by
  dsimp only [execNop] at ht
  (cases ht; simp [h])

theorem execRep_wf (adv stride : BitVec 4) (count : BitVec 16) (s : State) {s' : State}
    (h : Memory.wf s.mem = true) (ht : execRep adv stride count s = .next s') : Memory.wf s'.mem = true := by
  dsimp only [execRep] at ht
  (cases ht; simp [h])

theorem execMemoryAccessPerform_wf (c : CtxId) (k : Nat) (err : ReadError) (s : State) {s' : State}
    (h : Memory.wf s.mem = true) (ht : execMemoryAccessPerform c k err s = .next s') : Memory.wf s'.mem = true := by
  dsimp only [execMemoryAccessPerform] at ht
  (repeat' split at ht) <;> (cases ht; simp [h])

theorem execAtomicAtHome_wf (c : CtxId) (k : Nat) (s : State) {s' : State} (h : Memory.wf s.mem = true)
    (ht : execAtomicAtHome c k s = .next s') : Memory.wf s'.mem = true := by
  dsimp only [execAtomicAtHome] at ht
  (repeat' split at ht) <;> (cases ht; simp [h])

theorem execPostedOperationFailure_wf (c : CtxId) (k : Nat) (s : State) {s' : State} (h : Memory.wf s.mem = true)
    (ht : execPostedOperationFailure c k s = .next s') : Memory.wf s'.mem = true := by
  dsimp only [execPostedOperationFailure] at ht
  (repeat' split at ht) <;> (cases ht; simp [h])

theorem execAmoResponse_wf (c : CtxId) (k : Nat) (s : State) {s' : State} (h : Memory.wf s.mem = true)
    (ht : execAmoResponse c k s = .next s') : Memory.wf s'.mem = true := by
  dsimp only [execAmoResponse] at ht
  (repeat' split at ht) <;> (cases ht; simp [h])

theorem execInterlockedLdSLanding_wf (c : CtxId) (k : Nat) (s : State) {s' : State} (h : Memory.wf s.mem = true)
    (ht : execInterlockedLdSLanding c k s = .next s') : Memory.wf s'.mem = true := by
  dsimp only [execInterlockedLdSLanding] at ht
  (repeat' split at ht) <;> (cases ht; simp [h])

theorem execPostedAcknowledge_wf (c : CtxId) (k : Nat) (s : State) {s' : State} (h : Memory.wf s.mem = true)
    (ht : execPostedAcknowledge c k s = .next s') : Memory.wf s'.mem = true := by
  dsimp only [execPostedAcknowledge] at ht
  (repeat' split at ht) <;> (cases ht; simp [h])

theorem execLandingArrival_wf (c : CtxId) (l : BitVec 3) (s : State) {s' : State} (h : Memory.wf s.mem = true)
    (ht : execLandingArrival c l s = .next s') : Memory.wf s'.mem = true := by
  dsimp only [execLandingArrival] at ht
  (repeat' split at ht) <;> (cases ht; simp [h])

theorem execTableWalk_wf (space : Nat) (va : BitVec 64) (_acc : AccessKind) (s : State) {s' : State}
    (h : Memory.wf s.mem = true) (ht : execTableWalk space va _acc s = .next s') : Memory.wf s'.mem = true := by
  dsimp only [execTableWalk] at ht
  (cases ht; simp [h])

theorem execCopyCompletion_wf (c : CtxId) (i : BitVec 4) (s : State) {s' : State} (h : Memory.wf s.mem = true)
    (ht : execCopyCompletion c i s = .next s') : Memory.wf s'.mem = true := by
  dsimp only [execCopyCompletion] at ht
  (repeat' split at ht) <;> (cases ht; simp [h])

theorem execCopyTranslationStop_wf (c : CtxId) (i : BitVec 4) (s : State) {s' : State} (h : Memory.wf s.mem = true)
    (ht : execCopyTranslationStop c i s = .next s') : Memory.wf s'.mem = true := by
  dsimp only [execCopyTranslationStop] at ht
  (repeat' split at ht) <;> (cases ht; simp [h])

theorem execRingSlotFill_wf (c : CtxId) (i : BitVec 4) (m : Nat) (s : State) {s' : State}
    (h : Memory.wf s.mem = true) (ht : execRingSlotFill c i m s = .next s') : Memory.wf s'.mem = true := by
  dsimp only [execRingSlotFill] at ht
  (cases ht; simp [h])

theorem execRingPullBack_wf (c : CtxId) (i : BitVec 4) (m : Nat) (s : State) {s' : State}
    (h : Memory.wf s.mem = true) (ht : execRingPullBack c i m s = .next s') : Memory.wf s'.mem = true := by
  dsimp only [execRingPullBack] at ht
  (cases ht; simp [h])

theorem execRingStop_wf (c : CtxId) (i : BitVec 4) (m : Nat) (s : State) {s' : State} (h : Memory.wf s.mem = true)
    (ht : execRingStop c i m s = .next s') : Memory.wf s'.mem = true := by
  dsimp only [execRingStop] at ht
  (cases ht; simp [h])

theorem execArrayOperationCompletion_wf (core : Nat) (err : ReadError) (s : State) {s' : State}
    (h : Memory.wf s.mem = true) (ht : execArrayOperationCompletion core err s = .next s') :
    Memory.wf s'.mem = true := by
  dsimp only [execArrayOperationCompletion] at ht
  (cases ht; simp [h])

theorem execDrainEntryWrite_wf (core : Nat) (s : State) {s' : State} (h : Memory.wf s.mem = true)
    (ht : execDrainEntryWrite core s = .next s') : Memory.wf s'.mem = true := by
  dsimp only [execDrainEntryWrite] at ht
  (cases ht; simp [h])

theorem execTileMoveCompletion_wf (c : CtxId) (k : Nat) (s : State) {s' : State} (h : Memory.wf s.mem = true)
    (ht : execTileMoveCompletion c k s = .next s') : Memory.wf s'.mem = true := by
  dsimp only [execTileMoveCompletion] at ht
  (repeat' split at ht) <;> (cases ht; simp [h])

theorem execLateFaultDetection_wf (c : CtxId) (s : State) {s' : State} (h : Memory.wf s.mem = true)
    (ht : execLateFaultDetection c s = .next s') : Memory.wf s'.mem = true := by
  dsimp only [execLateFaultDetection] at ht
  (repeat' split at ht) <;> (cases ht; simp [h])

theorem execTrapEntry_wf (c : CtxId) (s : State) {s' : State} (h : Memory.wf s.mem = true)
    (ht : execTrapEntry c s = .next s') : Memory.wf s'.mem = true := by
  dsimp only [execTrapEntry] at ht
  (repeat' split at ht) <;> (cases ht; simp [h])

theorem execGraphLaunch_wf (k : Nat) (s : State) {s' : State} (h : Memory.wf s.mem = true)
    (ht : execGraphLaunch k s = .next s') : Memory.wf s'.mem = true := by
  dsimp only [execGraphLaunch] at ht
  (repeat' split at ht) <;> (cases ht; simp [h])

theorem execBeadArrival_wf (k : Nat) (s : State) {s' : State} (h : Memory.wf s.mem = true)
    (ht : execBeadArrival k s = .next s') : Memory.wf s'.mem = true := by
  dsimp only [execBeadArrival] at ht
  (repeat' split at ht) <;> (cases ht; simp [h])

theorem execDispatch_wf (n : Nat) (s : State) {s' : State} (h : Memory.wf s.mem = true)
    (ht : execDispatch n s = .next s') : Memory.wf s'.mem = true := by
  dsimp only [execDispatch] at ht
  (repeat' split at ht) <;> (cases ht; simp [h])

theorem execImageSave_wf (c : CtxId) (s : State) {s' : State} (h : Memory.wf s.mem = true)
    (ht : execImageSave c s = .next s') : Memory.wf s'.mem = true := by
  dsimp only [execImageSave] at ht
  (repeat' split at ht) <;> (cases ht; simp [h])

theorem execSliceStart_wf (core : Nat) (s : State) {s' : State} (h : Memory.wf s.mem = true)
    (ht : execSliceStart core s = .next s') : Memory.wf s'.mem = true := by
  dsimp only [execSliceStart] at ht
  (repeat' split at ht) <;> (cases ht; simp [h])

theorem execWorkStealing_wf (core : Nat) (s : State) {s' : State} (h : Memory.wf s.mem = true)
    (ht : execWorkStealing core s = .next s') : Memory.wf s'.mem = true := by
  dsimp only [execWorkStealing] at ht
  (repeat' split at ht) <;> (cases ht; simp [h])

theorem execKillSlice_wf (c : CtxId) (s : State) {s' : State} (h : Memory.wf s.mem = true)
    (ht : execKillSlice c s = .next s') : Memory.wf s'.mem = true := by
  dsimp only [execKillSlice] at ht
  (repeat' split at ht) <;> (cases ht; simp [h])

theorem execKillDeadline_wf (c : CtxId) (s : State) {s' : State} (h : Memory.wf s.mem = true)
    (ht : execKillDeadline c s = .next s') : Memory.wf s'.mem = true := by
  dsimp only [execKillDeadline] at ht
  (repeat' split at ht) <;> (cases ht; simp [h])

theorem execPreemptionDecision_wf (core : Nat) (s : State) {s' : State} (h : Memory.wf s.mem = true)
    (ht : execPreemptionDecision core s = .next s') : Memory.wf s'.mem = true := by
  dsimp only [execPreemptionDecision] at ht
  split at ht
  · cases ht; exact h
  · split at ht
    · cases ht; exact h
    · cases ht
      split
      · simp [h]
      · simp [h]
      · rw [State.killNode_mem]
        exact State.dropWaiting_wf _ _ _ (by simpa using h)
      · exact h

theorem execPreemptKillRequeue_wf (gi ni : Nat) (s : State) {s' : State} (h : Memory.wf s.mem = true)
    (ht : execPreemptKillRequeue gi ni s = .next s') : Memory.wf s'.mem = true := by
  dsimp only [execPreemptKillRequeue] at ht
  (repeat' split at ht) <;> (cases ht; simp [h])

theorem execNodeCompletion_wf (gi ni : Nat) (s : State) {s' : State} (h : Memory.wf s.mem = true)
    (ht : execNodeCompletion gi ni s = .next s') : Memory.wf s'.mem = true := by
  dsimp only [execNodeCompletion] at ht
  (repeat' split at ht) <;> (cases ht; simp [h])

theorem execCourseGating_wf (n : Nat) (s : State) {s' : State} (h : Memory.wf s.mem = true)
    (ht : execCourseGating n s = .next s') : Memory.wf s'.mem = true := by
  dsimp only [execCourseGating] at ht
  (repeat' split at ht) <;> (cases ht; simp [h])

theorem execWakeComplete_wf (n : Nat) (s : State) {s' : State} (h : Memory.wf s.mem = true)
    (ht : execWakeComplete n s = .next s') : Memory.wf s'.mem = true := by
  dsimp only [execWakeComplete] at ht
  (repeat' split at ht) <;> (cases ht; simp [h])

theorem execOperatingPointChange_wf (n mhz mv : Nat) (s : State) {s' : State} (h : Memory.wf s.mem = true)
    (ht : execOperatingPointChange n mhz mv s = .next s') : Memory.wf s'.mem = true := by
  dsimp only [execOperatingPointChange] at ht
  (repeat' split at ht) <;> (cases ht; simp [h])

theorem execPowerEmergency_wf (n mhz mv : Nat) (s : State) {s' : State} (h : Memory.wf s.mem = true)
    (ht : execPowerEmergency n mhz mv s = .next s') : Memory.wf s'.mem = true := by
  dsimp only [execPowerEmergency] at ht
  (repeat' split at ht) <;> (cases ht; simp [h])

theorem execPairMismatch_wf (core : Nat) (pc : BitVec 64) (s : State) {s' : State} (h : Memory.wf s.mem = true)
    (ht : execPairMismatch core pc s = .next s') : Memory.wf s'.mem = true := by
  dsimp only [execPairMismatch] at ht
  (repeat' split at ht) <;> (cases ht; simp [h])

theorem execCancellationC1_wf (k : Nat) (s : State) {s' : State} (h : Memory.wf s.mem = true)
    (ht : execCancellationC1 k s = .next s') : Memory.wf s'.mem = true := by
  dsimp only [execCancellationC1] at ht
  (repeat' split at ht) <;> (cases ht; simp [h])

theorem execCancellationC2_wf (k : Nat) (s : State) {s' : State} (h : Memory.wf s.mem = true)
    (ht : execCancellationC2 k s = .next s') : Memory.wf s'.mem = true := by
  dsimp only [execCancellationC2] at ht
  split at ht
  · cases ht; exact h
  · split at ht
    · cases ht; exact h
    · split at ht
      · cases ht
        refine State.completeGraph_wf _ _ (foldl_wf (fun _ _ h => State.settleNode_wf _ _ _ _ h) _ ?_)
        (repeat' split) <;> simp [h]
      · cases ht; exact h

theorem execDigestArrival_wf (s : State) {s' : State} (h : Memory.wf s.mem = true)
    (ht : execDigestArrival s = .next s') : Memory.wf s'.mem = true := by
  dsimp only [execDigestArrival] at ht
  (repeat' split at ht) <;> (cases ht; simp [h])

theorem execDigtimeExpiry_wf (s : State) {s' : State} (h : Memory.wf s.mem = true)
    (ht : execDigtimeExpiry s = .next s') : Memory.wf s'.mem = true := by
  dsimp only [execDigtimeExpiry] at ht
  (repeat' split at ht) <;> (cases ht; simp [h])

theorem execRailBeatReceive_wf (link : Nat) (erased : BitVec 5) (s : State) {s' : State}
    (h : Memory.wf s.mem = true) (ht : execRailBeatReceive link erased s = .next s') : Memory.wf s'.mem = true := by
  dsimp only [execRailBeatReceive] at ht
  (repeat' split at ht) <;> (cases ht; simp [h])

theorem execRailFence_wf (s : State) {s' : State} (h : Memory.wf s.mem = true) (ht : execRailFence s = .next s') :
    Memory.wf s'.mem = true := by
  dsimp only [execRailFence] at ht
  (repeat' split at ht) <;> (cases ht; simp [h])

theorem execRailRetrain_wf (s : State) {s' : State} (h : Memory.wf s.mem = true)
    (ht : execRailRetrain s = .next s') : Memory.wf s'.mem = true := by
  dsimp only [execRailRetrain] at ht
  (repeat' split at ht) <;> (cases ht; simp [h])

theorem execLinkDown_wf (s : State) {s' : State} (h : Memory.wf s.mem = true) (ht : execLinkDown s = .next s') :
    Memory.wf s'.mem = true := by
  dsimp only [execLinkDown] at ht
  (repeat' split at ht) <;> (cases ht; simp [h])

theorem execDeviceReset_wf (s : State) {s' : State} (h : Memory.wf s.mem = true)
    (ht : execDeviceReset s = .next s') : Memory.wf s'.mem = true := by
  dsimp only [execDeviceReset] at ht
  (cases ht; simp [h])

theorem execBeadPortBead_wf (s : State) {s' : State} (h : Memory.wf s.mem = true)
    (ht : execBeadPortBead s = .next s') : Memory.wf s'.mem = true := by
  dsimp only [execBeadPortBead] at ht
  (repeat' split at ht) <;> (cases ht; simp [h])

theorem execBeadPortLaunch_wf (s : State) {s' : State} (h : Memory.wf s.mem = true)
    (ht : execBeadPortLaunch s = .next s') : Memory.wf s'.mem = true := by
  dsimp only [execBeadPortLaunch] at ht
  (repeat' split at ht) <;> (cases ht; simp [h])

theorem execApertureWrite_wf (s : State) {s' : State} (h : Memory.wf s.mem = true)
    (ht : execApertureWrite s = .next s') : Memory.wf s'.mem = true := by
  dsimp only [execApertureWrite] at ht
  (repeat' split at ht) <;> (cases ht; simp [h])

theorem execApertureRead_wf (s : State) {s' : State} (h : Memory.wf s.mem = true)
    (ht : execApertureRead s = .next s') : Memory.wf s'.mem = true := by
  dsimp only [execApertureRead] at ht
  (repeat' split at ht) <;> (cases ht; simp [h])

theorem execManagementRegisterWrite_wf (s : State) {s' : State} (h : Memory.wf s.mem = true)
    (ht : execManagementRegisterWrite s = .next s') : Memory.wf s'.mem = true := by
  dsimp only [execManagementRegisterWrite] at ht
  (repeat' split at ht) <;> (cases ht; simp [h])

theorem execGabort_wf (s : State) {s' : State} (h : Memory.wf s.mem = true) (ht : execGabort s = .next s') :
    Memory.wf s'.mem = true := by
  dsimp only [execGabort] at ht
  (repeat' split at ht) <;> (cases ht; simp [h])

theorem execFlhead_wf (s : State) {s' : State} (h : Memory.wf s.mem = true) (ht : execFlhead s = .next s') :
    Memory.wf s'.mem = true := by
  dsimp only [execFlhead] at ht
  (repeat' split at ht) <;> (cases ht; simp [h])

theorem execCtrlWriteWhileGo_wf (s : State) {s' : State} (h : Memory.wf s.mem = true)
    (ht : execCtrlWriteWhileGo s = .next s') : Memory.wf s'.mem = true := by
  dsimp only [execCtrlWriteWhileGo] at ht
  (repeat' split at ht) <;> (cases ht; simp [h])

theorem execUnmatchedBarAccess_wf (s : State) {s' : State} (h : Memory.wf s.mem = true)
    (ht : execUnmatchedBarAccess s = .next s') : Memory.wf s'.mem = true := by
  dsimp only [execUnmatchedBarAccess] at ht
  (repeat' split at ht) <;> (cases ht; simp [h])

theorem execOpenSpace_wf  (s : State) {s' : State} (h : Memory.wf s.mem = true)
    (ht : execOpenSpace s = .next s') : Memory.wf s'.mem = true := by
  refine request_wf h (fun s h => ?_) ht
  dsimp only
  split
  · simp [h]
  · split
    · simp [h]
    · simp [h]

theorem execCloseSpace_wf  (s : State) {s' : State} (h : Memory.wf s.mem = true)
    (ht : execCloseSpace s = .next s') : Memory.wf s'.mem = true := by
  refine request_wf h (fun s h => ?_) ht
  dsimp only
  split
  · simp [h]
  · rw [State.answer_mem]
    exact foldl_wf (fun _ _ h => State.assignCourse_wf _ _ _ h) _ h

theorem execMapPage_wf  (s : State) {s' : State} (h : Memory.wf s.mem = true)
    (ht : execMapPage s = .next s') : Memory.wf s'.mem = true := by
  refine request_wf h (fun s h => ?_) ht
  dsimp only
  split
  · simp [h]
  · split
    · simp [h]
    · split
      · simp [h]
      · exact State.mapLeaf_wf _ _ _ _ _ _ h

theorem execUnmapPages_wf  (s : State) {s' : State} (h : Memory.wf s.mem = true)
    (ht : execUnmapPages s = .next s') : Memory.wf s'.mem = true := by
  refine request_wf h (fun s h => ?_) ht
  dsimp only
  split
  · simp [h]
  · refine ite_wf (by simp [h]) (ite_wf (by simp [h]) ?_)
    have hp : ∀ (l : List Leaf) (t : State) (base : Nat), Memory.wf t.mem = true →
        Memory.wf (l.foldl (fun s x => s.putLeaf x.va x.size 0 levels base) t).mem = true :=
      fun l t base ht => foldl_wf (f := fun s (x : Leaf) => s.putLeaf x.va x.size 0 levels base)
        (fun _ _ h => State.putLeaf_wf _ _ _ _ _ _ h) l ht
    refine ite_wf (hp _ _ _ h) ?_
    rw [State.invalidate_mem]
    exact hp _ _ _ h

theorem execInvalidationComplete_wf (s : State) {s' : State} (h : Memory.wf s.mem = true)
    (ht : execInvalidationComplete s = .next s') : Memory.wf s'.mem = true := by
  dsimp only [execInvalidationComplete] at ht
  (repeat' split at ht) <;> (cases ht; simp [h])

theorem execBindWindow_wf  (s : State) {s' : State} (h : Memory.wf s.mem = true)
    (ht : execBindWindow s = .next s') : Memory.wf s'.mem = true := by
  refine request_wf h (fun s h => ?_) ht
  dsimp only
  (repeat' split) <;> simp [h]

theorem execSetPool_wf  (s : State) {s' : State} (h : Memory.wf s.mem = true)
    (ht : execSetPool s = .next s') : Memory.wf s'.mem = true := by
  refine request_wf h (fun s h => ?_) ht
  dsimp only
  split
  · simp [h]
  · split
    · simp [h]
    · split
      · simp [h]
      · rw [State.answer_mem]; exact h

theorem execReplica_wf  (s : State) {s' : State} (h : Memory.wf s.mem = true)
    (ht : execReplica s = .next s') : Memory.wf s'.mem = true := by
  refine request_wf h (fun s h => ?_) ht
  dsimp only
  split <;> simp [h]

theorem execAttest_wf  (s : State) {s' : State} (h : Memory.wf s.mem = true)
    (ht : execAttest s = .next s') : Memory.wf s'.mem = true := by
  refine request_wf h (fun s h => ?_) ht
  dsimp only
  split
  · simp [h]
  · exact h

theorem execLoadImage_wf (s : State) {s' : State} (h : Memory.wf s.mem = true) (ht : execLoadImage s = .next s') :
    Memory.wf s'.mem = true := by
  dsimp only [execLoadImage] at ht
  (repeat' split at ht) <;> (cases ht; simp [h])

theorem execAssign_wf  (s : State) {s' : State} (h : Memory.wf s.mem = true)
    (ht : execAssign s = .next s') : Memory.wf s'.mem = true := by
  refine request_wf h (fun s h => ?_) ht
  refine ite_wf (by simp [h]) ?_
  rw [State.answer_mem]
  exact foldl_wf (fun _ _ h => State.assignCourse_wf _ _ _ h) _ h

theorem execSlabwr_wf  (s : State) {s' : State} (h : Memory.wf s.mem = true)
    (ht : execSlabwr s = .next s') : Memory.wf s'.mem = true := by
  refine request_wf h (fun s h => ?_) ht
  dsimp only
  split
  · simp [h]
  · rw [State.answer_mem]
    exact State.store_wf _ _ h

theorem execUnknownCmd_wf (s : State) {s' : State} (h : Memory.wf s.mem = true) (ht : execUnknownCmd s = .next s') :
    Memory.wf s'.mem = true := by
  dsimp only [execUnknownCmd] at ht
  (repeat' split at ht) <;> (cases ht; simp [h])

theorem execMailboxRequestComplete_wf (s : State) {s' : State} (h : Memory.wf s.mem = true)
    (ht : execMailboxRequestComplete s = .next s') : Memory.wf s'.mem = true := by
  dsimp only [execMailboxRequestComplete] at ht
  (repeat' split at ht) <;> (cases ht; simp [h])

end Sys2Proof.Machine
end

