-- ==== Sys2Proof/Laws/Decode.lean ====
section
/-! SUPPORT. A word of a slot class decodes to an instruction of that class. -/

namespace Sys2Proof

theorem rowB_class {o : Nat} {w : Word} {i : Instr} (h : rowB o w = some i) : i.slotClass = some .b := by
  unfold rowB at h
  (repeat' split at h) <;> first | (cases h; done) | (cases h; rfl)

theorem rowS_class {o : Nat} {w : Word} {i : Instr} (h : rowS o w = some i) : i.slotClass = some .s := by
  unfold rowS at h
  (repeat' split at h) <;> first | (cases h; done) | (cases h; rfl)

theorem rowX_class {o : Nat} {w : Word} {i : Instr} (h : rowX o w = some i) : i.slotClass = some .x := by
  unfold rowX at h
  (repeat' split at h) <;> first | (cases h; done) | (cases h; rfl)

theorem rowV_class {o : Nat} {w : Word} {i : Instr} (h : rowV o w = some i) : i.slotClass = some .v := by
  unfold rowV at h
  (repeat' split at h) <;> first | (cases h; done) | (cases h; rfl)

theorem rowM_class {o : Nat} {w : Word} {i : Instr} (h : rowM o w = some i) : i.slotClass = some .m := by
  unfold rowM at h
  (repeat' split at h) <;> first | (cases h; done) | (cases h; rfl)

theorem rowC_class {o : Nat} {w : Word} {i : Instr} (h : rowC o w = some i) : i.slotClass = some .c := by
  unfold rowC at h
  (repeat' split at h) <;> first | (cases h; done) | (cases h; rfl)

theorem decodeWord_class {cl : SlotClass} {w : Word} {i : Instr} (h : decodeWord cl w = .ok i) : i.slotClass = some cl := by
  unfold decodeWord at h
  split at h
  · cases h
  · next j hj =>
    split at h
    · cases h
      cases cl
      · exact rowB_class hj
      · exact rowS_class hj
      · exact rowX_class hj
      · exact rowV_class hj
      · exact rowM_class hj
      · exact rowC_class hj
    · cases h

end Sys2Proof
end

