-- ==== Sys2Proof/Laws/Perform.lean ====
section
/-! SUPPORT. What performing memory operations can touch: memory, poison, flaws, the cores, the log and what the replica groups
have seen, and what has performed beside replica groups; and, where a message to Keystone is among them, graphs, ready queues, the messages and the management window. Nothing
else of the device. -/

namespace Sys2Proof.Machine

/-- `t` differs from `s` at most in what performing can touch. -/
def State.Touches (s t : State) : Prop :=
  t = { s with
    cores := t.cores, mem := t.mem, poison := t.poison, flaws := t.flaws, log := t.log, past := t.past, replicas := t.replicas
    courses := t.courses, graphs := t.graphs, launches := t.launches, ksq := t.ksq, mgmt := t.mgmt }

theorem State.Touches.refl (s : State) : s.Touches s := rfl

theorem State.Touches.trans {s t u : State} (a : s.Touches t) (b : t.Touches u) : s.Touches u := by
  unfold State.Touches at *
  rw [b, a]

theorem State.Touches.cur {s t : State} (h : s.Touches t) : t.cur = s.cur := by rw [h]
theorem State.Touches.slot {s t : State} (h : s.Touches t) : t.slot = s.slot := by rw [h]
theorem State.Touches.heldNow {s t : State} (h : s.Touches t) : t.heldNow = s.heldNow := by rw [h]
theorem State.Touches.granted {s t : State} (h : s.Touches t) : t.granted = s.granted := by rw [h]
theorem State.Touches.tick {s t : State} (h : s.Touches t) : t.tick = s.tick := by rw [h]
theorem State.Touches.agenda {s t : State} (h : s.Touches t) : t.agenda = s.agenda := by rw [h]
theorem State.Touches.boot {s t : State} (h : s.Touches t) : t.boot = s.boot := by rw [h]

theorem State.touches_setCtx (s : State) (c : CtxId) (x : Ctx) : s.Touches (s.setCtx c x) := rfl
theorem State.touches_updCtx (s : State) (c : CtxId) (f : Ctx → Ctx) : s.Touches (s.updCtx c f) := rfl
theorem State.touches_record (s : State) (n : Nat) (r : BitVec 128) : s.Touches (s.record n r) := rfl
theorem State.touches_setByte (s : State) (k : Nat) (b : Byte) : s.Touches (s.setByte k b) := rfl
theorem State.touches_poisonGranule (s : State) (g : Nat) : s.Touches (s.poisonGranule g) := rfl

theorem State.touches_setCells (s : State) (l : List (Nat × Byte)) : s.Touches (s.setCells l) := by
  induction l generalizing s with
  | nil => rfl
  | cons c l ih => exact (State.touches_setByte s c.1 c.2).trans (ih _)

theorem State.touches_logged (s : State) (e : Ev) : s.Touches (s.logged e) := rfl
theorem State.touches_sync (s : State) (a : Agent) (i : Nat) (k : EvKind) : s.Touches (s.sync a i k) := rfl
theorem State.touches_updGraph (s : State) (g : Nat) (f : Graph → Graph) : s.Touches (s.updGraph g f) := by
  unfold State.updGraph
  split <;> rfl
theorem State.touches_updNode (s : State) (g n : Nat) (f : Node → Node) : s.Touches (s.updNode g n f) :=
  State.touches_updGraph _ _ _
theorem State.touches_setCourse (s : State) (n : Nat) (c : Course) : s.Touches (s.setCourse n c) := rfl
theorem State.touches_recordError (s : State) : s.Touches s.recordError := rfl
theorem State.touches_plumbEvent (s : State) (g : Nat) : s.Touches (s.plumbEvent g) := by
  unfold State.plumbEvent
  split <;> rfl
theorem State.touches_dropMsg (s : State) (k : Nat) : s.Touches (s.dropMsg k) := rfl

theorem State.touches_store (s : State) (l : List (Nat × Byte)) : s.Touches (s.store l).1 := by
  unfold State.store
  split
  · exact State.touches_setCells s l
  · exact (State.touches_setCells s _).trans rfl

/-- A fold of changes that each touch no more touches no more. -/
theorem State.touches_foldl {α : Type} (f : State → α → State) (h : ∀ (s : State) (a : α), s.Touches (f s a)) (l : List α) (s : State) :
    s.Touches (l.foldl f s) := by
  induction l generalizing s with
  | nil => rfl
  | cons a l ih => exact (h s a).trans (ih _)

theorem State.touches_findFlaw (s : State) (one : Bool) (pc : DWord) (f : Nat × Bool) : s.Touches (s.findFlaw one pc f) := by
  unfold State.findFlaw
  dsimp only
  (repeat' split) <;> rfl

theorem State.touches_find (s : State) (one : Bool) (pc : DWord) (ks : List Nat) : s.Touches (s.find one pc ks) :=
  State.touches_foldl _ (fun s f => s.touches_findFlaw one pc f) _ s

/-! ### Messages -/

theorem State.touches_ksFind (s : State) (sp va n : Nat) : s.Touches (s.ksFind sp va n) := by
  unfold State.ksFind State.findAny
  (repeat' split) <;> first
    | rfl
    | exact State.touches_find _ _ _ _

theorem State.touches_ksWrite (s : State) (g sp va n v : Nat) : s.Touches (s.ksWrite g sp va n v) := by
  unfold State.ksWrite
  dsimp only
  (repeat' split) <;> first
    | rfl
    | exact (State.touches_store _ _).trans (State.touches_recordError _)
    | exact (State.touches_store _ _).trans (State.touches_logged _ _)

theorem State.touches_rejectLaunch (s : State) (sp a i x : Nat) : s.Touches (s.rejectLaunch sp a i x) :=
  ((State.touches_ksWrite _ _ _ _ _ _).trans (State.touches_ksWrite _ _ _ _ _ _)).trans (State.touches_ksWrite _ _ _ _ _ _)

theorem State.touches_writeField (s : State) (gi : Nat) (g : Graph) (va n v : Nat) : s.Touches (s.writeField gi g va n v) := by
  unfold State.writeField
  dsimp only
  split
  · exact (State.touches_ksWrite _ _ _ _ _ _).trans (State.touches_plumbEvent _ _)
  · exact State.touches_ksWrite _ _ _ _ _ _

theorem State.touches_writeNode (s : State) (g n o k v : Nat) : s.Touches (s.writeNode g n o k v) := by
  unfold State.writeNode
  split
  · exact State.touches_writeField _ _ _ _ _ _
  · rfl

theorem State.touches_writeGraph (s : State) (g o k v : Nat) : s.Touches (s.writeGraph g o k v) := by
  unfold State.writeGraph
  split
  · exact State.touches_writeField _ _ _ _ _ _
  · rfl

theorem State.touches_setNodeState (s : State) (g n : Nat) (x : NState) : s.Touches (s.setNodeState g n x) :=
  (State.touches_updNode _ _ _ _).trans (State.touches_writeNode _ _ _ _ _ _)

theorem State.touches_setArrive (s : State) (g n : Nat) (a : BitVec 64) : s.Touches (s.setArrive g n a) :=
  ((State.touches_updNode _ _ _ _).trans (State.touches_writeNode _ _ _ _ _ _)).trans (State.touches_writeNode _ _ _ _ _ _)

theorem State.touches_setLeft (s : State) (g n l : Nat) : s.Touches (s.setLeft g n l) := by
  unfold State.setLeft
  dsimp only
  split
  · exact (State.touches_updNode _ _ _ _).trans (State.touches_writeNode _ _ _ _ _ _)
  · exact State.touches_updNode _ _ _ _

theorem State.touches_setCcnt (s : State) (g n v : Nat) : s.Touches (s.setCcnt g n v) :=
  (State.touches_updNode _ _ _ _).trans (State.touches_writeNode _ _ _ _ _ _)

theorem State.touches_becomeReady (s : State) (g n : Nat) : s.Touches (s.becomeReady g n) := by
  unfold State.becomeReady
  split
  · rfl
  · exact ((State.touches_updNode _ _ _ _).trans (State.touches_setNodeState _ _ _ _)).trans (State.touches_setCourse _ _ _)

theorem State.touches_applyBead (s : State) (o : Origin) (g n k : Nat) : s.Touches (s.applyBead o g n k) := by
  have h := fun a => (State.touches_setArrive s g n a).trans (State.touches_sync _ .keystone g (.bead o g n k))
  unfold State.applyBead
  dsimp only
  (repeat' split) <;> first
    | rfl
    | exact (h _).trans (State.touches_becomeReady _ _ _)
    | exact h _

theorem State.touches_bead (s : State) (o : Origin) (sp a k : Nat) : s.Touches (s.bead o sp a k) := by
  unfold State.bead
  split
  · exact State.touches_applyBead _ _ _ _ _
  · rfl

theorem State.touches_armGraph (s : State) (o : Origin) (g : Graph) : s.Touches (s.armGraph o g) := by
  unfold State.armGraph
  dsimp only
  refine State.Touches.trans (State.Touches.trans (State.Touches.trans (State.Touches.trans (State.Touches.trans
    (State.Touches.trans (State.Touches.trans (State.Touches.trans ?_ (State.touches_foldl _ (fun t i => ?_) _ _))
      (State.touches_writeGraph _ _ _ _ _)) (State.touches_writeGraph _ _ _ _ _)) (State.touches_writeGraph _ _ _ _ _))
      (State.touches_writeGraph _ _ _ _ _)) (State.touches_writeGraph _ _ _ _ _)) (State.touches_writeGraph _ _ _ _ _))
    (State.touches_foldl _ (fun t i => ?_) _ _)
  · rfl
  · split
    · exact (((State.touches_setArrive _ _ _ _).trans (State.touches_setLeft _ _ _ _)).trans
        (State.touches_setCcnt _ _ _ _)).trans (State.touches_setNodeState _ _ _ _)
    · rfl
  · (repeat' split) <;> first
      | rfl
      | exact State.touches_becomeReady _ _ _

theorem State.touches_launchPoison (s : State) (p : Bool) (e : Nat × Nat) (sp f : Nat) : s.Touches (s.launchPoison p e sp f) := by
  unfold State.launchPoison
  split <;> rfl

theorem State.touches_tryLaunch (s : State) (o : Origin) (sp a : Nat) : s.Touches (s.tryLaunch o sp a) := by
  unfold State.tryLaunch
  dsimp only
  split
  · exact State.touches_recordError _
  split
  · exact State.Touches.refl _
  split
  · exact State.touches_rejectLaunch _ _ _ _ _
  split
  · exact ((State.touches_ksFind _ _ _ _).trans (State.touches_launchPoison _ _ _ _ _)).trans
      (State.touches_rejectLaunch _ _ _ _ _)
  split
  · exact (State.touches_ksFind _ _ _ _).trans (State.touches_rejectLaunch _ _ _ _ _)
  · exact (State.touches_ksFind _ _ _ _).trans (State.touches_armGraph _ _ _)

theorem State.touches_launch (s : State) (o : Origin) (sp a : Nat) : s.Touches (s.launch o sp a) :=
  ((State.touches_ksFind _ _ _ _).trans (State.touches_sync _ _ _ _)).trans (State.touches_tryLaunch _ _ _ _)

theorem State.touches_notePost (s : State) (m : KsMsg) : s.Touches (s.notePost m) := by
  unfold State.notePost
  (repeat' split) <;> rfl

theorem State.touches_sendMsg (s : State) (k : Nat) (m : KsMsg) : s.Touches (s.sendMsg k m) :=
  State.Touches.trans (t := { s with ksq := s.ksq.set k m.asSent }) rfl (State.touches_notePost _ _)

theorem State.touches_takeMsg (s : State) (k : Nat) (m : KsMsg) : s.Touches (s.takeMsg k m) := by
  have h := (State.touches_dropMsg s k).trans (State.touches_notePost _ m)
  unfold State.takeMsg
  split
  · exact h.trans (State.touches_bead _ _ _ _ _)
  · exact h.trans (State.touches_launch _ _ _ _)
  · rfl

/-! ### Operations -/

theorem State.touches_thaw (s : State) (c : CtxId) (r : BitVec 3) (pc : DWord) : s.Touches (s.thaw c r pc) := by
  unfold State.thaw
  (repeat' split) <;> rfl

theorem State.touches_performLoad (s : State) (c : CtxId) (o : MemOp) (d : LoadTo) : s.Touches (s.performLoad c o d) := by
  unfold State.performLoad
  dsimp only
  (repeat' split) <;> first
    | exact State.touches_updCtx _ _ _
    | exact (State.touches_updCtx _ _ _).trans (State.touches_thaw _ _ _ _)
    | exact ((State.touches_find _ _ _ _).trans (State.touches_logged _ _)).trans (State.touches_updCtx _ _ _)

theorem State.touches_plumbFor (s : State) (c : CtxId) : s.Touches (s.plumbFor c) := by
  unfold State.plumbFor
  split
  · exact State.touches_plumbEvent _ _
  · rfl

theorem State.touches_postedFails (s : State) (c : CtxId) (o : MemOp) (x : BitVec 4) (va : Nat) :
    s.Touches (s.postedFails c o x va) := by
  unfold State.postedFails
  dsimp only
  split
  · exact (State.touches_updCtx _ _ _).trans (State.touches_plumbFor _ _)
  · exact State.touches_updCtx _ _ _

theorem State.touches_performStore (s : State) (c : CtxId) (o : MemOp) (d : Nat) : s.Touches (s.performStore c o d) := by
  unfold State.performStore
  dsimp only
  (repeat' split) <;> first
    | exact State.touches_postedFails _ _ _ _ _
    | exact State.touches_updCtx _ _ _
    | exact ((State.touches_store _ _).trans (State.touches_logged _ _)).trans (State.touches_updCtx _ _ _)

theorem State.touches_performRmw (s : State) (c : CtxId) (o : MemOp) (op : Rmw) (d m : DWord) (r : Bool) :
    s.Touches (s.performRmw c o op d m r) := by
  have found (l : List Nat) (f : Ctx → Ctx) : s.Touches ((s.find c.one o.pc l).updCtx c f) :=
    (State.touches_find _ _ _ _).trans (State.touches_updCtx _ _ _)
  have wrote (l : List Nat) (x : List (Nat × Byte)) (e : Ev) : s.Touches (((s.find c.one o.pc l).setCells x).logged e) :=
    ((State.touches_find _ _ _ _).trans (State.touches_setCells _ _)).trans (State.touches_logged _ _)
  unfold State.performRmw
  dsimp only
  split
  · split
    · exact State.touches_postedFails _ _ _ _ _
    · exact State.touches_updCtx _ _ _
  split
  · exact State.touches_updCtx _ _ _
  split
  · split
    · exact State.touches_postedFails _ _ _ _ _
    · exact State.touches_updCtx _ _ _
  split
  · split
    · exact (State.touches_find _ _ _ _).trans (State.touches_postedFails _ _ _ _ _)
    · exact found _ _
  · refine State.Touches.trans ?_ (State.touches_updCtx _ _ _)
    split
    · exact (wrote _ _ _).trans (State.touches_record _ _ _)
    · exact wrote _ _ _

theorem State.touches_writeFirst (s : State) (c : CtxId) (o : MemOp) : s.Touches (s.writeFirst c o) := by
  unfold State.writeFirst
  split <;> rfl

theorem State.touches_performOp (s : State) (c : CtxId) (o : MemOp) : s.Touches (s.performOp c o) := by
  unfold State.performOp
  split
  · exact State.touches_performLoad _ _ _ _
  · exact (State.touches_writeFirst _ _ _).trans (State.touches_performStore _ _ _ _)
  · exact (State.touches_writeFirst _ _ _).trans (State.touches_performRmw _ _ _ _ _ _ _)
  · rfl
  · rfl

/-- What the steps of a read touch. -/
theorem State.touches_readSteps (s : State) (one stop : Bool) (pc : DWord) (l : List ReadStep) :
    s.Touches (s.readSteps one stop pc l).1 := by
  induction l generalizing s with
  | nil => rfl
  | cons p ps ih =>
    have h := State.touches_find s one pc (runsKeys (p.runs s))
    unfold State.readSteps
    dsimp only
    split
    · exact h
    · exact h.trans (ih _)

theorem State.touches_noteArray (s : State) (c : CtxId) (a : ArrayOp) (ks : List Nat) : s.Touches (s.noteArray c a ks) := by
  unfold State.noteArray
  split <;> rfl

theorem State.touches_readArray (s : State) (c : CtxId) (a : ArrayOp) : s.Touches (s.readArray c a) := by
  unfold State.readArray
  dsimp only
  exact ((State.touches_readSteps _ _ _ _ _).trans (State.touches_noteArray _ _ _ _)).trans rfl

theorem State.touches_performPend (s : State) (c : CtxId) (p : Pend) : s.Touches (s.performPend c p) := by
  unfold State.performPend
  (repeat' split) <;> first
    | rfl
    | exact State.touches_performOp _ _ _
    | exact State.touches_readArray _ _ _
    | exact State.touches_sendMsg _ _ _

theorem State.touches_performAll (s : State) (c : CtxId) (ps : List Pend) : s.Touches (s.performAll c ps) :=
  State.touches_foldl _ (fun s p => s.touches_performPend c p) _ s

/-- Everything that performing what a context has issued can touch. -/
theorem State.touches_performFor (s : State) (c : CtxId) (p : Pend → Bool) : s.Touches (s.performFor c p) :=
  State.touches_performAll _ _ _

theorem State.touches_performBefore (s : State) (c : CtxId) (y : Acc) : s.Touches (s.performBefore c y) :=
  State.touches_performFor _ _ _

/-- Where a context has nothing to perform, nothing performs. -/
theorem State.performFor_nil {s : State} {c : CtxId} {p : Pend → Bool} (h : s.pends c = []) : s.performFor c p = s := by
  simp [State.performFor, h, State.waitedFor, State.performAll]

theorem State.performBefore_nil {s : State} {c : CtxId} {y : Acc} (h : s.pends c = []) : s.performBefore c y = s :=
  State.performFor_nil h

/-- A context with no operation, no array operation of its core and no message has nothing to perform. -/
theorem State.pends_nil {s : State} {c : CtxId} (h : (s.ctx c).ops = []) (a : (s.core c.core).aq = []) (m : s.ksq = []) :
    s.pends c = [] := by
  simp [State.pends, h, a, m]

end Sys2Proof.Machine
end

