-- ==== Sys2Proof/Laws/Issue.lean ====
section
/-! SUPPORT. What the issue of one slot instruction can do: everything that `issue` answers, said once. -/

namespace Sys2Proof.Machine

theorem State.touches_settleBlocks (s : State) (i : Instr) : s.Touches (s.settleBlocks i) := by
  unfold State.settleBlocks
  split
  · rfl
  · exact (State.touches_performBefore _ _ _).trans (State.touches_performBefore _ _ _)

@[simp] theorem State.settleBlocks_cur (s : State) (i : Instr) : (s.settleBlocks i).cur = s.cur :=
  (State.touches_settleBlocks s i).cur

/-- An instruction that reads no block of its own issues on the machine as it stands. -/
theorem State.settleBlocks_nil {s : State} {i : Instr} (h : blockKeys i s = []) : s.settleBlocks i = s := by
  simp [State.settleBlocks, h]

/-- Wherever an instruction issues, its effect on the machine that it reads is the next state. -/
theorem issue_of_issues {i : Instr} {s : State} (eff : State → State) (h : Claim.Issues i s) :
    issue i s eff = .next (eff (Claim.issuing i s)) := by
  unfold issue Claim.issuing
  by_cases g : s.granted = true
  · simp [g]
  · obtain h | ⟨b, w, o, r, f, q⟩ := h
    · exact absurd h g
    · simp only [Claim.issuing, g] at f q
      simp_all

/-- An instruction whose meaning is an issue with some effect runs with every effect that equals it. -/
theorem runs_of {i : Instr} {eff eff' : State → State} (h : ∀ s, exec i s = issue i s eff') (he : ∀ s, eff' s = eff s) :
    Claim.Runs i eff := fun s hs => by rw [h, issue_of_issues eff' hs, he]

/-- An issue never refuses and never faults the model. -/
theorem issue_next (i : Instr) (s : State) (eff : State → State) : ∃ t, issue i s eff = .next t := by
  unfold issue
  dsimp only
  (repeat' split) <;> exact ⟨_, rfl⟩

/-- A bundle that issues has granted the slot: the instruction has its effect. -/
theorem issue_granted {i : Instr} {s : State} (eff : State → State) (h : s.granted = true) : issue i s eff = .next (eff s) := by
  simp [issue, h]

@[simp] theorem Claim.issuing_granted {i : Instr} {s : State} (h : s.granted = true) : Claim.issuing i s = s := by
  simp [Claim.issuing, h]

/-- While the device does not run nothing issues. -/
theorem issue_asleep {i : Instr} {s : State} (eff : State → State) (g : s.granted = false) (b : s.boot ≠ .running) :
    issue i s eff = .next s := by
  unfold issue
  simp [g, b]

/-- An operand that breaks a rule checked at decode. -/
theorem issue_illFormed {i : Instr} {s : State} (eff : State → State) (g : s.granted = false) (b : s.boot = .running)
    (h : i.wf = false) :
    issue i s eff = .next (({ s with slot := (classOf i).slot, heldNow := false } : State).raise s.cur (classOf i).slot
      false causeIllopnd ((wordOf i).setWidth 128) 0) := by
  unfold issue
  dsimp only
  rw [if_neg (by simp [g]), if_neg (by simp [b]), if_pos h]

/-- An instruction that is wholly guarded off. -/
theorem issue_guardedOff {i : Instr} {s : State} (eff : State → State) (g : s.granted = false) (b : s.boot = .running)
    (w : i.wf = true)
    (h : ({ s with slot := (classOf i).slot, heldNow := false } : State).guardedOff (classOf i) (wordOf i) = true) :
    issue i s eff = .next { s with slot := (classOf i).slot, heldNow := false } := by
  unfold issue
  dsimp only
  rw [if_neg (by simp [g]), if_neg (by simp [b]), if_neg (by simp [w]), if_pos h]

/-- A fault found at issue. -/
theorem issue_faults {i : Instr} {s : State} (eff : State → State) (g : s.granted = false) (b : s.boot = .running)
    (w : i.wf = true)
    (o : ({ s with slot := (classOf i).slot, heldNow := false } : State).guardedOff (classOf i) (wordOf i) = false)
    (r : slotReady (classOf i) (wordOf i) i { s with slot := (classOf i).slot, heldNow := false } = true)
    {x : BitVec 8} {d : BitVec 128}
    (f : issueFault (classOf i) (wordOf i) i (Claim.issuing i s) = some (x, d)) :
    issue i s eff = .next ((((Claim.issuing i s).seeBlock i).upd (fun k => { k with named := namedBy i })).raise s.cur (classOf i).slot
      false x d 0) := by
  have e : Claim.issuing i s = (let r : State := { s with slot := (classOf i).slot, heldNow := false }
      { r.settleBlocks i with stall := stallOf (isCounted i) (issueGranules i r) }) := by simp [Claim.issuing, g]
  rw [e] at f ⊢
  unfold issue
  dsimp only at f ⊢
  rw [if_neg (by simp [g]), if_neg (by simp [b]), if_neg (by simp [w]), if_neg (by simp [o]), if_neg (by simp [r]), f, State.settleBlocks_cur]

/-! ### Every slot instruction -/

/-- The meaning of an instruction is an issue with some effect. -/
def IsIssue (i : Instr) : Prop := ∃ eff : State → State, ∀ s, exec i s = issue i s eff

theorem isIssue_b {i : Instr} (h : i.slotClass = some .b) : IsIssue i := by
  cases i <;> first
    | (cases h; done)
    | (refine ⟨?_, fun s => ?_⟩
       rotate_left
       · delta exec; exact rfl)

theorem isIssue_s {i : Instr} (h : i.slotClass = some .s) : IsIssue i := by
  cases i <;> first
    | (cases h; done)
    | (refine ⟨?_, fun s => ?_⟩
       rotate_left
       · delta exec; exact rfl)

theorem isIssue_x {i : Instr} (h : i.slotClass = some .x) : IsIssue i := by
  cases i <;> first
    | (cases h; done)
    | (refine ⟨?_, fun s => ?_⟩
       rotate_left
       · delta exec; exact rfl)

theorem isIssue_v {i : Instr} (h : i.slotClass = some .v) : IsIssue i := by
  cases i <;> first
    | (cases h; done)
    | (refine ⟨?_, fun s => ?_⟩
       rotate_left
       · delta exec; exact rfl)

theorem isIssue_m {i : Instr} (h : i.slotClass = some .m) : IsIssue i := by
  cases i <;> first
    | (cases h; done)
    | (refine ⟨?_, fun s => ?_⟩
       rotate_left
       · delta exec; exact rfl)

theorem isIssue_c {i : Instr} (h : i.slotClass = some .c) : IsIssue i := by
  cases i <;> first
    | (cases h; done)
    | (refine ⟨?_, fun s => ?_⟩
       rotate_left
       · delta exec; exact rfl)

/-- The meaning of every slot instruction is an issue with some effect. -/
theorem exec_issues {i : Instr} (h : i.slotClass.isSome = true) : IsIssue i := by
  obtain ⟨k, hc⟩ := Option.isSome_iff_exists.mp h
  cases k
  · exact isIssue_b hc
  · exact isIssue_s hc
  · exact isIssue_x hc
  · exact isIssue_v hc
  · exact isIssue_m hc
  · exact isIssue_c hc

/-- A bundle runs a slot word as exec does. -/
theorem execSlot_eq {i : Instr} (h : i.slotClass.isSome = true) (s : State) : execSlot i s = exec i s := by
  cases i <;> first
    | exact Bool.noConfusion h
    | rfl

end Sys2Proof.Machine
end

