-- ==== Sys2Proof/Tests/Slice0.lean ====
section
/-! SUPPORT. The model's own tests: an ill-formed term for each check of WellFormed, the decoding of a word of every slot
instruction, results that the spec writes out, and, for every statement with hypotheses, a state that meets them. -/

namespace Sys2Proof.Tests

open Sys2Proof.Machine

set_option maxRecDepth 20000
set_option Elab.async false

/-! ### Well-formedness: for each check a term that it refuses -/

/-- An always-on guard. -/
def u0 : Pfx := ⟨false, false, 0⟩
def g0 : Grd := ⟨false, 0⟩

/-- R126 (DIMS above 6, group 0, group past s63), R129 (kind 3, ids of a kind with 8), R131 (scope 6), R140 (s63). -/
theorem test_illformed_b : ∀ i ∈ [Instr.loop g0 2 6 20, .loop g0 2 0 0, .loop g0 2 1 61, .wait g0 3 0, .wait g0 1 0x100,
    .fence g0 6 3, .sqrd g0 63], i.wf = false := by decide

/-- R123: an unassigned register, and a word past the end of an assigned one. -/
theorem test_illformed_s : ∀ i ∈ [Instr.rdc u0 1 0x0F 0, .rdc u0 1 0x07 4, .rdc u0 1 0x18 2, .wrc u0 1 0x1B 0,
    .wrc u0 1 0x00 1], i.wf = false := by decide

/-- R192 (kind 3), R193 (an odd pair past x15). -/
theorem test_illformed_x : ∀ i ∈ [Instr.xpatd u0 1 2 3, .xbnet u0 15 1 2 0], i.wf = false := by decide

/-- Table 6.2 and R144 to R164: types and fields that an operation does not have. -/
theorem test_illformed_v : ∀ i ∈ [Instr.vadd u0 2 1 2 3 false false, .vadd u0 5 1 2 3 true false,
    .vsub u0 3 1 2 3 false false, .vmul u0 4 1 2 3 false false, .vfma u0 5 1 2 3 false false, .vfms u0 6 1 2 3 false false,
    .vdiv u0 7 1 2 3 false false, .vsqrt u0 5 1 2 false false, .vrcp u0 5 1 2 false false, .vrsq u0 5 1 2 false false,
    .vexp2 u0 5 1 2 false false, .vlog2 u0 5 1 2 false false, .vmin u0 5 1 2 3 true, .vmax u0 2 1 2 3 false,
    .vabs u0 0 1 2 true, .vneg u0 2 1 2 false, .vand u0 0 1 2 3, .vor u0 1 1 2 3, .vxor u0 2 1 2 3, .vnot u0 3 1 2,
    .vshl u0 0 1 2 3, .vshr u0 1 1 2 3, .vashr u0 4 1 2 3, .vscn u0 5 1 2 3 false false, .vscn u0 1 1 2 3 false false,
    .vcmpeq u0 5 1 2 3 true, .vcmpne u0 2 1 2 3 false, .vcmplt u0 3 1 2 3 false, .vcmple u0 4 1 2 3 false,
    .vcmpun u0 5 1 2 3 false, .vcvt u0 0 1 2 0 0 false false, .vcvt u0 2 1 2 3 0 false false, .vcvt u0 0 1 2 5 0 true false,
    .vcvt u0 5 1 2 0 0 false true, .vcvt u0 0 1 2 3 0 false true, .vcvtd u0 3 1 2 4 false false, .vperm u0 2 1 2 3,
    .vbcast u0 1 1 2 16, .vbcast u0 2 1 2 0, .vredadd u0 5 1 2 true false, .vredmax u0 6 1 2 true, .vredmin u0 2 1 2 false,
    .vrng u0 2 1 2, .vrng u0 7 1 2, .prune u0 1 2 3 3, .topk u0 1 1 2 3, .topk u0 0 31 2 3, .qnt u0 31 2 3 false,
    .spenc u0 1 1 2 0, .spenc u0 0 1 2 3, .spdec u0 7 1 2 0, .spdec u0 0 1 2 3], i.wf = false := by decide

/-- R78, R223 (profile, SAT, flush bits), R231 to R233 (two names of one tile). -/
theorem test_illformed_m : ∀ i ∈ [Instr.mma u0 7 1 2 3 false false false false, .mma u0 4 1 2 3 false true false false,
    .mma u0 5 1 2 3 false false true false, .mmaS u0 6 1 2 3 false true false false, .mmaS u0 6 1 2 3 false false false true,
    .trsm u0 1 1 false 0, .givqr u0 2 2 false, .rotapp u0 3 3 false false], i.wf = false := by decide

/-- R79, R165 to R178: a register pair past s63, a scope of 6, SEM that a load or a store does not have, W of a FADD, the
three registers of CAS. -/
theorem test_illformed_c : ∀ i ∈ [Instr.ldVs u0 1 63 0 false, .stVs u0 1 63 0 false, .pf u0 0 63 0, .ldS u0 63 0 0 0 3,
    .ldS u0 5 0 2 0 3, .ldS u0 5 0 0 6 3, .stS u0 63 0 0 0 3, .stS u0 5 0 1 0 3, .stS u0 5 0 0 7 3, .amoAdd u0 63 0 0 0 3,
    .amoAdd u0 5 0 0 6 3, .amoFadd u0 5 0 0 0 1, .amoFadd u0 5 0 0 6 2, .amoMin u0 63 0 0 0 3, .amoMax u0 5 0 0 6 3,
    .amoMinu u0 63 0 0 0 3, .amoMaxu u0 5 0 0 6 3, .amoAnd u0 63 0 0 0 3, .amoOr u0 5 0 0 6 3, .amoXor u0 63 0 0 0 3,
    .amoSwp u0 5 0 0 7 3, .amoCas u0 62 0 0 0 3, .amoCas u0 5 0 0 6 3, .redAdd u0 63 0 0 3, .redFadd u0 5 0 0 1,
    .redMin u0 5 0 6 3, .redMax u0 63 0 0 3, .redAnd u0 5 0 6 3, .redOr u0 63 0 0 3, .redXor u0 5 0 7 3, .cpIn u0 0 63 0 0,
    .cpOut u0 0 63 0 0, .cpSs u0 0 63 0 0, .fpushq u0 0 5 0 6, .stq u0 0 5 0 7], i.wf = false := by decide

/-- The boundary values on the legal side of the same checks. -/
theorem test_wellformed : ∀ i ∈ [Instr.loop g0 31 5 52, .wait g0 1 0xFF, .wait g0 2 0xFFFF, .fence g0 5 0xFFFF, .sqrd g0 62,
    .rdc u0 1 0x08 4, .wrc u0 1 0x18 1, .xpatd u0 1 2 2, .xbnet u0 14 1 2 0, .vadd u0 5 1 2 3 false true, .vbcast u0 1 1 2 15,
    .vcvt u0 5 1 2 0 0 true false, .topk u0 6 30 2 3, .mma u0 5 1 2 3 true true false false, .ldVs u0 1 62 0 true,
    .amoCas u0 61 0 3 5 3, .amoFadd u0 62 0 3 5 2, .stS u0 62 0 2 5 0], i.wf = true := by decide

/-! ### Decoding: a word of every slot instruction, put together from the fields of its table -/

theorem test_decode_b_slot : ∀ p ∈ ([
    (0x10065133, .br ⟨false, 4⟩ 414003),
    (0x44114000, .jmp ⟨true, 1⟩ 5),
    (0x4C25D9DD, .call ⟨true, 3⟩ 383453),
    (0x44300000, .ret ⟨true, 1⟩),
    (0x58411700, .loop ⟨true, 6⟩ 2 1 28),
    (0x08541739, .wait ⟨false, 2⟩ 1 5945),
    (0x746100D4, .bar ⟨true, 13⟩ 1 212),
    (0x4C72A171, .fence ⟨true, 3⟩ 2 41329),
    (0x448093BE, .trap ⟨true, 1⟩ 37822),
    (0x70900000, .eret ⟨true, 12⟩),
    (0x1CA00001, .setpri ⟨false, 7⟩ 1),
    (0x50B4A23E, .ctnOpen ⟨true, 4⟩ 303678),
    (0x10C00000, .ctnClose ⟨false, 4⟩),
    (0x4CD94000, .glaunch ⟨true, 3⟩ 37),
    (0x14E1E600, .bead ⟨false, 5⟩ 7 38),
    (0x58F00000, .ndone ⟨true, 6⟩),
    (0x0D000000, .yield ⟨false, 3⟩),
    (0x49100000, .halt ⟨true, 2⟩),
    (0x452A0000, .sqrd ⟨true, 1⟩ 40)] : List (Word × Instr)),
    decodeWord .b p.1 = .ok p.2 := by decide

theorem test_decode_s_slot_a : ∀ p ∈ ([
    (0x340C9578, .add ⟨false, false, 13⟩ 50 21 30),
    (0xF8161440, .sub ⟨true, true, 14⟩ 24 20 16),
    (0x9C21A550, .mul ⟨true, false, 7⟩ 6 37 20),
    (0xA83BDD4C, .mulh ⟨true, false, 10⟩ 47 29 19),
    (0xC842216C, .mulhu ⟨true, true, 2⟩ 8 33 27),
    (0x6852BC80, .div ⟨false, true, 10⟩ 10 60 32),
    (0x086C6494, .divu ⟨false, false, 2⟩ 49 36 37),
    (0xE875AD5C, .rem ⟨true, true, 10⟩ 22 45 23),
    (0xB8817618, .remu ⟨true, false, 14⟩ 5 54 6),
    (0xBC9B6B14, .and ⟨true, false, 15⟩ 45 43 5),
    (0x64AAA5B0, .or ⟨false, true, 9⟩ 42 37 44),
    (0xA4BB99E4, .xor ⟨true, false, 9⟩ 46 25 57),
    (0x80CF5E5C, .shl ⟨true, false, 0⟩ 61 30 23),
    (0x4CD80438, .shr ⟨false, true, 3⟩ 32 4 14),
    (0x90EC1068, .ashr ⟨true, false, 4⟩ 48 16 26),
    (0x7CF18B80, .sel ⟨false, true, 15⟩ 6 11 8),
    (0x610E49D4, .min ⟨false, true, 8⟩ 57 9 53),
    (0x611B9B5C, .max ⟨false, true, 8⟩ 46 27 23),
    (0xF12F8F28, .minu ⟨true, true, 12⟩ 62 15 10),
    (0x1133EB3C, .maxu ⟨false, false, 4⟩ 15 43 15)] : List (Word × Instr)),
    decodeWord .s p.1 = .ok p.2 := by decide

theorem test_decode_s_slot_b : ∀ p ∈ ([
    (0x15445300, .clz ⟨false, false, 5⟩ 17 19),
    (0x3558D800, .ctz ⟨false, false, 13⟩ 35 24),
    (0xE96F4900, .popc ⟨true, true, 10⟩ 61 9),
    (0xC587BADF, .addi ⟨true, true, 1⟩ 30 58 223),
    (0xF1969A65, .andi ⟨true, true, 12⟩ 26 26 101),
    (0x31A10D12, .ori ⟨false, false, 12⟩ 4 13 18),
    (0xB9B2C858, .xori ⟨true, false, 14⟩ 11 8 88),
    (0x8DC0650A, .shli ⟨true, false, 3⟩ 1 37 10),
    (0xADDA0205, .shri ⟨true, false, 11⟩ 40 2 5),
    (0xB1E2A911, .ashri ⟨true, false, 12⟩ 10 41 17),
    (0xADF7C7DD, .movi ⟨true, false, 11⟩ 31 2013),
    (0x7E0FDDD3, .movs ⟨false, true, 15⟩ 63 7635),
    (0x26118947, .rdc ⟨false, false, 9⟩ 6 37 7),
    (0xA227F56D, .wrc ⟨true, false, 8⟩ 31 213 45),
    (0x42343DF6, .fcmple ⟨false, true, 0⟩ 4 61 61 true false),
    (0x424D2253, .fcmpun ⟨false, true, 0⟩ 13 34 20 true true),
    (0xA28918EC, .cmpeq ⟨true, false, 8⟩ 9 24 59),
    (0x1E9923C8, .cmpne ⟨false, false, 7⟩ 9 35 50),
    (0x9EAA34CC, .cmplt ⟨true, false, 7⟩ 10 52 51),
    (0xDABD10D4, .cmpltu ⟨true, true, 6⟩ 13 16 53)] : List (Word × Instr)),
    decodeWord .s p.1 = .ok p.2 := by decide

theorem test_decode_s_slot_c : ∀ p ∈ ([
    (0x5EC42280, .cmple ⟨false, true, 7⟩ 4 34 32),
    (0x42D13348, .cmpleu ⟨false, true, 0⟩ 1 51 18),
    (0x1AEC27F8, .fcmpeq ⟨false, false, 6⟩ 12 39 62 false false),
    (0xEEF6063C, .fcmplt ⟨true, true, 11⟩ 6 6 15 false false),
    (0x2B039FA3, .faddF32 ⟨false, false, 10⟩ 14 31 40 true true),
    (0xC317FBA9, .fsubF32 ⟨true, true, 0⟩ 31 59 42 false true),
    (0x8F2ED9CF, .fmulF32 ⟨true, false, 3⟩ 59 25 51 true true),
    (0x173733A4, .ffmaF32 ⟨false, false, 5⟩ 28 51 41 false false),
    (0xF3479AC2, .fdivF32 ⟨true, true, 12⟩ 30 26 48 true false),
    (0x97524201, .fsqrtF32 ⟨true, false, 5⟩ 9 2 false true),
    (0x938A359E, .faddF64 ⟨true, false, 4⟩ 40 53 39 true false),
    (0xEF92A490, .fsubF64 ⟨true, true, 11⟩ 10 36 36 false false),
    (0x4FA8B0F0, .fmulF64 ⟨false, true, 3⟩ 34 48 60 false false),
    (0xDBBD7838, .ffmaF64 ⟨true, true, 6⟩ 53 56 14 false false),
    (0x1FCC6655, .fdivF64 ⟨false, false, 7⟩ 49 38 21 false true),
    (0x53D13B02, .fsqrtF64 ⟨false, true, 4⟩ 4 59 true false)] : List (Word × Instr)),
    decodeWord .s p.1 = .ok p.2 := by decide

theorem test_decode_x_slot : ∀ p ∈ ([
    (0xB40EFF00, .xadd ⟨true, false, 13⟩ 14 15 15),
    (0x90199005, .xaddi ⟨true, false, 4⟩ 9 9 5),
    (0x942A1D00, .xsub ⟨true, false, 5⟩ 10 1 13),
    (0x94338014, .xshli ⟨true, false, 5⟩ 3 8 20),
    (0x8446B011, .xshri ⟨true, false, 1⟩ 6 11 17),
    (0xFC5DD200, .xand ⟨true, true, 15⟩ 13 13 2),
    (0xC4644000, .xpopc ⟨true, true, 1⟩ 4 4),
    (0x0C798911, .xcmpadv ⟨false, false, 3⟩ 9 8 9 1 1),
    (0x188C5002, .xpatd ⟨false, false, 6⟩ 12 5 2),
    (0xFC994CA0, .xbnet ⟨true, true, 15⟩ 9 4 12 5),
    (0xE0ABD000, .xbnld ⟨true, true, 8⟩ 5 29),
    (0xB8B37278, .xbperm ⟨true, false, 14⟩ 3 7 2 7 8),
    (0x1CC71400, .xfroms ⟨false, false, 7⟩ 7 5),
    (0x64DD2000, .xtos ⟨false, true, 9⟩ 13 8),
    (0xD0ECB000, .xmov ⟨true, true, 4⟩ 12 11),
    (0x90F5E202, .xmovi ⟨true, false, 4⟩ 5 57858)] : List (Word × Instr)),
    decodeWord .x p.1 = .ok p.2 := by decide

theorem test_decode_v_slot_a : ∀ p ∈ ([
    (0x78058F91, .vadd ⟨false, true, 14⟩ 2 24 31 4 false true),
    (0x1C157744, .vsub ⟨false, false, 7⟩ 2 23 14 17 false false),
    (0x2C263C30, .vmul ⟨false, false, 11⟩ 3 3 24 12 false false),
    (0xB83C16AF, .vfma ⟨true, false, 14⟩ 6 1 13 11 true true),
    (0x4843ED23, .vfms ⟨false, true, 2⟩ 1 30 26 8 true true),
    (0x20562EE4, .vdiv ⟨false, false, 8⟩ 3 2 29 25 false false),
    (0xB46FEB03, .vsqrt ⟨true, false, 13⟩ 7 30 22 true true),
    (0x107BE8CC, .vmin ⟨false, false, 4⟩ 5 30 17 19 false),
    (0x88862D5C, .vmax ⟨true, false, 2⟩ 3 2 26 23 false),
    (0x4897F081, .vabs ⟨false, true, 2⟩ 3 31 1 true),
    (0x60A34E00, .vneg ⟨false, true, 8⟩ 1 20 28 false),
    (0x0CB81583, .vrcp ⟨false, false, 3⟩ 4 1 11 true true),
    (0x60CA5103, .vrsq ⟨false, true, 8⟩ 5 5 2 true true),
    (0x4CD49100, .vexp2 ⟨false, true, 3⟩ 2 9 2 false false),
    (0xA4EB9380, .vlog2 ⟨true, false, 9⟩ 5 25 7 false false),
    (0xD4F56829, .vsel ⟨true, true, 5⟩ 5 false 26 1 9),
    (0x010D191C, .vand ⟨false, false, 0⟩ 6 17 18 7),
    (0x9D184B6C, .vor ⟨true, false, 7⟩ 4 4 22 27),
    (0xBD2BBEB4, .vxor ⟨true, false, 15⟩ 5 27 29 13),
    (0xE53C7400, .vnot ⟨true, true, 9⟩ 6 7 8)] : List (Word × Instr)),
    decodeWord .v p.1 = .ok p.2 := by decide

theorem test_decode_v_slot_b : ∀ p ∈ ([
    (0x1148C16C, .vshl ⟨false, false, 4⟩ 4 12 2 27),
    (0x095D8EA4, .vshr ⟨false, false, 2⟩ 6 24 29 9),
    (0x05636DB4, .vashr ⟨false, false, 1⟩ 1 22 27 13),
    (0xE57A8BA8, .vscn ⟨true, true, 9⟩ 5 8 23 10 false false),
    (0x218824B2, .vcmpeq ⟨false, false, 8⟩ 4 1 9 12 true),
    (0x69942FF4, .vcmpne ⟨false, true, 10⟩ 2 1 31 29 false),
    (0x15A2C68C, .vcmplt ⟨false, false, 5⟩ 1 6 13 3 false),
    (0x59B52C84, .vcmple ⟨false, true, 6⟩ 2 9 25 1 false),
    (0x49C4E988, .vcmpun ⟨false, true, 2⟩ 2 7 19 2 false),
    (0x25DC81DF, .vcvt ⟨false, false, 9⟩ 6 8 3 5 3 true true),
    (0x71EEBC40, .vcvtd ⟨false, true, 12⟩ 7 11 24 4 false false),
    (0xD1F3BDDC, .vperm ⟨true, true, 4⟩ 1 27 27 23),
    (0xF60D7D44, .vbcast ⟨true, true, 13⟩ 6 23 26 17),
    (0x421F6983, .vredadd ⟨false, true, 0⟩ 7 22 19 true true),
    (0xDE221100, .vredmax ⟨true, true, 7⟩ 1 1 2 false),
    (0x8E39B782, .vredmin ⟨true, false, 3⟩ 4 27 15 true),
    (0x42415C00, .vpopq ⟨false, true, 0⟩ 21 3),
    (0xBE509080, .vpopl ⟨true, false, 15⟩ 9 1),
    (0x4A6DE880, .vrng ⟨false, true, 2⟩ 6 30 17),
    (0xCA71688F, .prune ⟨true, true, 2⟩ 22 17 3 3)] : List (Word × Instr)),
    decodeWord .v p.1 = .ok p.2 := by decide

theorem test_decode_v_slot_c : ∀ p ∈ ([
    (0xA28E3E24, .topk ⟨true, false, 8⟩ 7 3 28 9),
    (0x5A908C56, .qnt ⟨false, true, 6⟩ 8 24 21 true),
    (0x32A03879, .dq ⟨false, false, 12⟩ 3 16 30 true),
    (0x46BB5A81, .spenc ⟨false, true, 1⟩ 5 21 21 1),
    (0x52C69A83, .spdec ⟨false, true, 4⟩ 3 9 21 3),
    (0x92D06020, .vmvs ⟨true, false, 4⟩ 1 16 2),
    (0x0EEB4F60, .vmsv ⟨false, false, 3⟩ 45 7 22),
    (0x2707BBB2, .vmoviI32 ⟨false, false, 9⟩ false 15 15282),
    (0x9B21F7D8, .vmoviI64 ⟨true, false, 6⟩ false 3 30680),
    (0x2741E8F3, .vmoviF32 ⟨false, false, 9⟩ false 3 26867),
    (0xFB74B185, .vmoviF64 ⟨true, true, 14⟩ true 9 12677),
    (0x5B898B90, .vmoviF16 ⟨false, true, 6⟩ false 19 2960),
    (0x63B610FA, .vmoviBf16 ⟨false, true, 8⟩ true 12 4346),
    (0xE3D25A07, .vmoviH8 ⟨true, true, 8⟩ true 4 23047)] : List (Word × Instr)),
    decodeWord .v p.1 = .ok p.2 := by decide

theorem test_decode_m_slot : ∀ p ∈ ([
    (0x3C0F8E24, .mma ⟨false, false, 15⟩ 15 4 7 1 false false true false),
    (0xB015C6E0, .mmaS ⟨true, false, 12⟩ 5 6 3 7 false false false false),
    (0x80267AD0, .mmaK4 ⟨true, false, 0⟩ 3 13 6 ⟨6, true, false, false, false⟩),
    (0x1830C780, .trsm ⟨false, false, 6⟩ 6 1 true 12),
    (0x2C402000, .getrf ⟨false, false, 11⟩ 1 false false),
    (0xC8506200, .potrf ⟨true, true, 2⟩ 3 true false),
    (0x84606400, .givqr ⟨true, false, 1⟩ 3 1 false),
    (0xE470C820, .rotapp ⟨true, true, 9⟩ 6 2 false true),
    (0x28840000, .accz ⟨false, false, 10⟩ 2),
    (0xB4923400, .accld ⟨true, false, 13⟩ 1 13),
    (0xF0A16400, .accst ⟨true, true, 12⟩ 5 9),
    (0x48B04300, .drain ⟨false, true, 2⟩ 1 3),
    (0x10CDC000, .accmov ⟨false, false, 4⟩ 6 7),
    (0x04D03C00, .acct ⟨false, false, 1⟩ 15),
    (0xD0E00C80, .cbld ⟨true, true, 4⟩ 3 2),
    (0x24F01400, .spld ⟨false, false, 9⟩ 5)] : List (Word × Instr)),
    decodeWord .m p.1 = .ok p.2 := by decide

theorem test_decode_c_slot_a : ∀ p ∈ ([
    (0x6006D48A, .ldV ⟨false, true, 8⟩ 13 42 4 10),
    (0x70121766, .stV ⟨false, true, 12⟩ 4 11 11 6),
    (0x3C291F10, .ldVs ⟨false, false, 15⟩ 18 15 8 true),
    (0x78371320, .stVs ⟨false, true, 14⟩ 14 9 9 false),
    (0x1445C836, .ldVx ⟨false, false, 5⟩ 11 36 3 6),
    (0x205D4A7F, .stVx ⟨false, false, 8⟩ 26 37 7 15),
    (0x7468DE44, .ldrL ⟨false, true, 13⟩ 4 27 12 68),
    (0x2076C404, .pf ⟨false, false, 8⟩ 6 49 1),
    (0x2C826FB8, .ldS ⟨false, false, 11⟩ 9 11 3 5 3),
    (0xD8919590, .stS ⟨true, true, 6⟩ 6 5 1 4 2),
    (0xB4AF9548, .amoAdd ⟨true, false, 13⟩ 62 5 1 2 1),
    (0x7CBFAA28, .amoFadd ⟨false, true, 15⟩ 62 10 2 1 1),
    (0x78CFE1E8, .amoMin ⟨false, true, 14⟩ 63 8 1 7 1),
    (0x10D8ADF8, .amoMax ⟨false, false, 4⟩ 34 11 1 7 3),
    (0xF8E1A528, .amoMinu ⟨true, true, 14⟩ 6 9 1 1 1),
    (0x44FAB258, .amoMaxu ⟨false, true, 1⟩ 42 12 2 2 3),
    (0x750B7528, .amoAnd ⟨false, true, 13⟩ 45 13 1 1 1),
    (0x591655F8, .amoOr ⟨false, true, 6⟩ 25 5 1 7 3),
    (0x252796C8, .amoXor ⟨false, false, 9⟩ 30 5 2 6 1),
    (0x5D391198, .amoSwp ⟨false, true, 7⟩ 36 4 1 4 3)] : List (Word × Instr)),
    decodeWord .c p.1 = .ok p.2 := by decide

theorem test_decode_c_slot_b : ∀ p ∈ ([
    (0x854092D8, .amoCas ⟨true, false, 1⟩ 2 4 2 6 3),
    (0x2183EC90, .redAdd ⟨false, false, 8⟩ 15 11 4 2),
    (0x059B58D0, .redFadd ⟨false, false, 1⟩ 45 6 6 2),
    (0x71A344F0, .redMin ⟨false, true, 12⟩ 13 1 7 2),
    (0xC9B3A050, .redMax ⟨true, true, 2⟩ 14 8 2 2),
    (0xD9C3E050, .redAnd ⟨true, true, 6⟩ 15 8 2 2),
    (0xE5D1E898, .redOr ⟨true, true, 9⟩ 7 10 4 3),
    (0x5DE81CC8, .redXor ⟨false, true, 7⟩ 32 7 6 1),
    (0xD20F6850, .cpIn ⟨true, true, 4⟩ 15 26 1 4),
    (0x52171304, .cpOut ⟨false, true, 4⟩ 7 4 12 1),
    (0x3A2FBBD8, .cpSs ⟨false, false, 14⟩ 15 46 15 6),
    (0x8A3F2D90, .rsub ⟨true, false, 2⟩ 15 11 6 4),
    (0x7A41502C, .srel ⟨false, true, 14⟩ 1 20 11),
    (0xAE55BA60, .fpush ⟨true, false, 11⟩ 11 29 3),
    (0x0A686680, .fpushq ⟨false, false, 2⟩ 2 6 6 4),
    (0xCE7FED40, .stq ⟨true, true, 3⟩ 3 62 13 2)] : List (Word × Instr)),
    decodeWord .c p.1 = .ok p.2 := by decide

/-- Words written out field by field from Tables 3.2 to 3.9: HOLD, GINV, GUARD, OPC, then the fields of the format, one of
every class. -/
theorem test_decode_fields :
    decodeWord .b (0#1 ++ 1#1 ++ 5#4 ++ 0#6 ++ 0xFFFFE#20) = .ok (.br ⟨true, 5⟩ 0xFFFFE) ∧
    decodeWord .s (1#1 ++ 0#1 ++ 2#4 ++ 0#6 ++ 7#6 ++ 8#6 ++ 9#6 ++ 0#2) = .ok (.add ⟨true, false, 2⟩ 7 8 9) ∧
    decodeWord .x (0#1 ++ 0#1 ++ 3#4 ++ 0#6 ++ 4#4 ++ 5#4 ++ 6#4 ++ 0#8) = .ok (.xadd ⟨false, false, 3⟩ 4 5 6) ∧
    decodeWord .v (0#1 ++ 0#1 ++ 0#4 ++ 3#6 ++ 0#3 ++ 8#5 ++ 0#5 ++ 16#5 ++ 0#1 ++ 0#1) =
      .ok (.vfma u0 0 8 0 16 false false) ∧
    decodeWord .m (0#1 ++ 0#1 ++ 0#4 ++ 0x0D#6 ++ 0#6 ++ 1#4 ++ 0#10) =
      .ok (.acct u0 1) := by decide

/-- Words that the spec writes out (R62, R72, R120, R126, R131, R132, R144, R152, R198, R203, R205, R210, R211, R215), and
its headers. -/
theorem test_decode_spec_words :
    decodeWord .s 0x0981C7FC = .ok (.addi ⟨false, false, 2⟩ 7 7 0xFC) ∧
    decodeWord .b 0x00730003 = .ok (.fence g0 3 3) ∧ decodeWord .b 0x00900000 = .ok (.eret g0) ∧
    decodeWord .b 0x00409500 = .ok (.loop g0 1 1 20) ∧ decodeWord .v 0x00308040 = .ok (.vfma u0 0 8 0 16 false false) ∧
    decodePrefix 0x00310004 = some (.rep 3 1 4) ∧
    decodeWord .v 0x0341BFC0 = .ok (.vmoviF32 u0 false 3 0x3FC0) ∧
    decodeWord .v 0x0351BFC0 = .ok (.vmoviF32 u0 true 3 0x3FC0) ∧
    decodeWord .m 0x00E00C40 = .ok (.cbld u0 3 1) ∧ decodeWord .m 0x00F01400 = .ok (.spld u0 5) ∧
    decodeWord .v 0x0290A10C = .ok (.qnt u0 10 2 3 false) ∧ decodeWord .v 0x02B06380 = .ok (.spenc u0 0 6 7 0) ∧
    decodeWord .v 0x02C08300 = .ok (.spdec u0 0 8 6 0) ∧ decodeWord .m 0x00D00400 = .ok (.acct u0 1) ∧
    decodeHeader 0x00010108 = some ⟨false, true, 8⟩ ∧ decodeHeader 0x00010000 = some ⟨false, false, 0⟩ := by decide

/-- Nothing but the encodings of the tables decodes: an opcode with no row, a fixed field that is not as its row fixes it,
HOLD in the B slot (R65, R71). -/
theorem test_decode_refuses :
    (∃ e, decodeWord .s 0x03F00000 = .error e) ∧ (∃ e, decodeWord .s 0x00000001 = .error e) ∧
    (∃ e, decodeWord .b 0x80000000 = .error e) ∧ decodeHeader 0x00020000 = none ∧ decodePrefix 0x01000000 = none :=
  ⟨⟨_, rfl⟩, ⟨_, rfl⟩, ⟨_, rfl⟩, by decide, by decide⟩

/-- The words of Table 6.6. -/
theorem test_decode_table_6_6 : ∀ p ∈ ([(0x0032408A, .vfma u0 1 4 1 2 true false), (0x000A110D, .vadd u0 5 1 2 3 false true),
    (0x05A0611C, .vcmplt ⟨false, false, 1⟩ 0 3 2 7 false), (0x01D65304, .vcvt u0 3 5 6 0 1 false false),
    (0x02D24470, .vmvs u0 9 2 7), (0x02408800, .vpopq u0 8 2), (0x026CA580, .vrng u0 6 10 11), (0x027063A2, .prune u0 6 7 8 2),
    (0x16814190, .topk ⟨false, false, 5⟩ 0 20 3 4)] : List (Word × Instr)), decodeWord .v p.1 = .ok p.2 := by decide

/-- The words of Table 7.9. -/
theorem test_decode_table_7_9 :
    (∀ p ∈ ([(0x00031200, .ldV u0 6 9 0 0), (0x00121442, .stV u0 4 10 2 2), (0x00666028, .ldrL u0 3 12 0 40),
      (0x00928278, .stS u0 10 0 2 3 3), (0x00A50038, .amoAdd u0 20 0 0 1 3), (0x02027940, .cpIn u0 2 30 5 0)] :
      List (Word × Instr)), decodeWord .c p.1 = .ok p.2) ∧
    (∀ p ∈ ([(0x00731232, .xcmpadv u0 3 1 2 3 2), (0x00856000, .xpatd u0 5 6 0), (0x00941260, .xbnet u0 4 1 2 3)] :
      List (Word × Instr)), decodeWord .x p.1 = .ok p.2) := by decide

/-- The words of Table 9.11. -/
theorem test_decode_table_9_11 : ∀ p ∈ ([(0x00022464, .mma u0 2 1 2 3 false false true false),
    (0x001648A0, .mmaS u0 6 2 4 5 false false false false), (0x00260250, .mmaK4 u0 0 1 2 ⟨6, true, false, false, false⟩), (0x00302A80, .trsm u0 1 2 true 4),
    (0x00406020, .getrf u0 3 false true), (0x00609600, .givqr u0 4 5 true), (0x00840000, .accz u0 2), (0x00921000, .accld u0 1 4),
    (0x00A05000, .accst u0 1 4), (0x00B0C200, .drain u0 3 2), (0x00CA4000, .accmov u0 5 1), (0x00D01C00, .acct u0 7)] :
    List (Word × Instr)), decodeWord .m p.1 = .ok p.2 := by decide

/-- Words of Tables 11.2, 12.1, 16.1, 17.2 and 18.3. -/
theorem test_decode_program_tables :
    (∀ p ∈ ([(0x00828170, .ldS u0 10 0 1 3 2), (0x48A28030, .amoAdd ⟨false, true, 2⟩ 10 0 0 1 2),
      (0x08928010, .stS ⟨false, false, 2⟩ 10 0 0 0 2), (0x01850010, .redAdd u0 20 0 0 2), (0x0060481C, .ldrL u0 0 9 0 28),
      (0x02512000, .fpush u0 2 16 0), (0x0035B410, .stVs u0 11 26 0 true), (0x009C0000, .stS u0 48 0 0 0 0),
      (0x00960008, .stS u0 24 0 0 0 1), (0x021390C0, .cpOut u0 3 36 3 0)] : List (Word × Instr)), decodeWord .c p.1 = .ok p.2) ∧
    (∀ p ∈ ([(0x01F54001, .movi u0 21 1), (0x021AC601, .rdc u0 43 0x18 1), (0x019594FF, .andi u0 22 20 0xFF),
      (0x0158E100, .ctz u0 35 33), (0x00CA289C, .shl u0 40 40 39), (0x02B51DAC, .cmpltu u0 5 29 43),
      (0x00BB6244, .xor u0 45 34 17), (0x0211C0C0, .rdc u0 7 3 0), (0x000C70BC, .add u0 49 48 47)] : List (Word × Instr)),
      decodeWord .s p.1 = .ok p.2) ∧
    (∀ p ∈ ([(0x02502000, .vpopl u0 2 0), (0x030082C1, .vmoviI32 u0 false 1 705), (0x020D4A00, .vbcast u0 6 20 20 0),
      (0x02E50610, .vmsv u0 20 3 1), (0x02DC5440, .vmvs u0 49 10 4), (0x01AAE008, .vcmplt u0 5 7 0 2 false),
      (0x1E6C1000, .vrng ⟨false, false, 7⟩ 6 1 0), (0x00A08000, .vneg u0 0 8 0 false)] : List (Word × Instr)),
      decodeWord .v p.1 = .ok p.2) ∧
    (∀ p ∈ ([(0x040FFFE1, .br ⟨false, 1⟩ (-31)), (0x540FFFD8, .br ⟨true, 5⟩ (-40)), (0x00540003, .wait g0 1 3),
      (0x0060000F, .bar g0 0 0x0F)] : List (Word × Instr)), decodeWord .b p.1 = .ok p.2) ∧
    (∀ p ∈ ([(0x48300580, .trsm ⟨false, true, 2⟩ 0 1 false 12), (0x00010240, .mma u0 1 0 1 2 false false false false)] :
      List (Word × Instr)), decodeWord .m p.1 = .ok p.2) ∧
    decodePrefix 0x0000000F = some (.rep 0 0 15) ∧ decodeHeader 0x000100C2 = some ⟨false, false, 0xC2⟩ := by decide

/-- The family Encoding has a word for each of its hypotheses' forms: the encoder writes what the tables say. -/
theorem test_encode : encode (.vfma u0 1 4 1 2 true false) = [0x0032408A] ∧ encode (.rep 3 1 4) = [0x00310004] ∧
    encode (.nop true) = [0x00010200] ∧ encode (.ldS u0 10 0 1 3 2) = [0x00828170] := by decide

/-! ### Small machines -/

/-- A running device whose core 0 has `k` as its first context, at a slot that a bundle has granted. -/
def busy (k : Ctx) : State :=
  { State.reset with boot := .running, granted := true, cores := [(0, { Core.reset with ctx0 := k, tag := some 0 })] }

/-- The same machine, with no slot granted. -/
def idle (k : Ctx) : State := { busy k with granted := false }

/-- A vector register from its 32-bit lanes, lane 0 first. -/
def lanes (l : List Nat) : Vec := BitVec.ofNat 1024 (packElems 32 l)

/-- The results on their way after an instruction: destination, value, flags. -/
def results (i : Instr) (k : Ctx) : List (Dest × Nat × BitVec 5) :=
  match exec i (busy k) with
  | .next t => t.here.flight.map (fun f => (f.dest, f.val.toNat, f.flags))
  | _ => []

/-- Lane `i` of the first result after an instruction. -/
def laneOf (i : Instr) (k : Ctx) (j : Nat) : Nat :=
  match results i k with
  | r :: _ => r.2.1 / 2 ^ (32 * j) % 2 ^ 32
  | [] => 0

/-! ### Results that the spec writes out -/

/-- Bits [9:0] of the examples of XPATD (R192): 4:8 number 33, 2:4 number 4, and a number that names no pattern. -/
theorem test_xpatd :
    results (.xpatd u0 5 6 2) { Ctx.reset with x := [(6, 33)] } = [(.x 5, 0x000D6274, 0)] ∧
    results (.xpatd u0 5 6 0) { Ctx.reset with x := [(6, 4)] } = [(.x 5, 0x0000190A, 0)] ∧
    results (.xpatd u0 5 6 0) { Ctx.reset with x := [(6, 6)] } = [(.x 5, 0x80000000, 0)] := by decide +kernel

/-- The example of XBPERM (R194). -/
theorem test_xbperm : results (.xbperm u0 5 1 2 3 0xC)
    { Ctx.reset with x := [(1, 0x88442211), (2, 0xF0E0D0C0), (3, 0x00008C07)] } = [(.x 5, 0x00FF11F0, 0)] := by
  decide +kernel

/-- Division by 0, and of −2^63 by −1 (R118). -/
theorem test_div : results (.div u0 1 2 3) { Ctx.reset with s := [(2, 7)] } = [(.s 1, 2 ^ 64 - 1, 0)] ∧
    results (.rem u0 1 2 3) { Ctx.reset with s := [(2, 2 ^ 63), (3, -1)] } = [(.s 1, 0, 0)] := by decide +kernel

/-- The edge cases of R148: VABS of −2^31, VSUB of unsigned elements, VNEG of 1. -/
theorem test_vector_integer_edges :
    laneOf (.vabs u0 5 1 2 false) { Ctx.reset with v := [(2, lanes [0x80000000])] } 0 = 0x80000000 ∧
    laneOf (.vabs u0 5 1 2 true) { Ctx.reset with v := [(2, lanes [0x80000000])] } 0 = 0x7FFFFFFF ∧
    laneOf (.vsub u0 6 1 2 3 false true) { Ctx.reset with v := [(2, lanes [3]), (3, lanes [5])] } 0 = 0 ∧
    laneOf (.vneg u0 6 1 2 false) { Ctx.reset with v := [(2, lanes [1])] } 0 = 0xFFFFFFFF ∧
    laneOf (.vneg u0 6 1 2 true) { Ctx.reset with v := [(2, lanes [1])] } 0 = 0 := by decide +kernel

/-- The example of VREDADD (R158): the sum depends on the order of the elements. -/
theorem test_vredadd :
    laneOf (.vredadd ⟨false, false, 5⟩ 0 1 2 false false)
      { Ctx.reset with p := [(5, 7)], v := [(2, lanes [0x4B800000, 0x3F800000, 0x3F800000])] } 0 = 0x4B800000 ∧
    laneOf (.vredadd ⟨false, false, 5⟩ 0 1 2 false false)
      { Ctx.reset with p := [(5, 7)], v := [(2, lanes [0x3F800000, 0x3F800000, 0x4B800000])] } 0 = 0x4B800001 := by
  decide +kernel

/-- The example of VRNG (R162), as UINT32 and as F32. -/
theorem test_vrng :
    laneOf (.vrng u0 6 10 11) { Ctx.reset with nkey := 0x0000000500000000, v := [(11, lanes [0, 1])] } 0 = 5 ∧
    laneOf (.vrng u0 6 10 11) { Ctx.reset with nkey := 0x0000000500000000, v := [(11, lanes [0, 1])] } 1 = 0x688990C5 ∧
    laneOf (.vrng u0 0 10 11) { Ctx.reset with nkey := 0x0000000500000000, v := [(11, lanes [0, 1])] } 0 = 0 ∧
    laneOf (.vrng u0 0 10 11) { Ctx.reset with nkey := 0x0000000500000000, v := [(11, lanes [0, 1])] } 1 = 0x3ED11320 := by
  decide +kernel

/-- The example of PRUNE (R163): two groups of four, a threshold of 0.25, kind 0. -/
theorem test_prune : (List.range 8).map (laneOf (.prune u0 6 7 8 0) { Ctx.reset with v := [
      (7, lanes [0x3F000000, 0xC0000000, 0x40000000, 0x3F800000, 0x40400000, 0x40400000, 0x40400000, 0x3F800000]),
      (8, lanes (List.replicate 32 0x3E800000))] }) =
    [0, 0xC0000000, 0x40000000, 0, 0x40400000, 0x40400000, 0, 0] := by decide +kernel

/-- Table 6.5: the values and the indices of TOPK. -/
theorem test_topk :
    let k : Ctx := { Ctx.reset with
      p := [(5, 0xFF)]
      v := [(3, lanes [0x40400000, 0xBF800000, 0x7FC00000, 0x40400000, 0xFF800000, 0, 0x80000000, 0x40F00000]), (4, lanes [10])] }
    (List.range 10).map (laneOf (.topk ⟨false, false, 5⟩ 0 20 3 4) k) = [0x40F00000, 0x40400000, 0x40400000, 0, 0x80000000,
      0xBF800000, 0xFF800000, 0x7FC00000, 0xFF800000, 0xFF800000] ∧
    ((results (.topk ⟨false, false, 5⟩ 0 20 3 4) k).map (fun r => (r.1, (List.range 10).map (fun j =>
      r.2.1 / 2 ^ (32 * j) % 2 ^ 32)))).drop 1 = [(Dest.v 21, [7, 0, 3, 5, 6, 1, 4, 2, 0xFFFF, 0xFFFF])] := by
  decide +kernel

/-- The codebook of the example of R205: code 0 at the low end. -/
def book : Codebook := ⟨BitVec.ofNat 256 (packElems 16 [0, 0x3F00, 0x3F80, 0x3FC0, 0x4000, 0x4040, 0x4080, 0x40C0, 0, 0xBF00,
  0xBF80, 0xBFC0, 0xC000, 0xC040, 0xC080, 0xC0C0]), 0x0100⟩

/-- The example of QNT (R205, Table 8.5): CODES and SCALE of the block, and its first two spall entries. -/
theorem test_qnt :
    let k : Ctx := { Ctx.reset with
      cb := [(1, book)]
      v := [(2, lanes [0x42200000, 0x41000000, 0xC1400000, 0x40400000, 0xC2100000, 0x41A00000]),
        (3, lanes [0x3E000000, 0x01220040])] }
    (results (.qnt u0 10 2 3 false) k).map (fun r => (r.1, r.2.1 % 2 ^ 136, r.2.2)) =
      [(.v 10, 0x82000000000000000000000000008E1B28, 0),
       (.v 11, (0x4020000000000845 * 2 ^ 64 + 0x40A0000000000840) % 2 ^ 136, 0)] ∧
    (results (.qnt u0 10 2 3 false) k).map (fun r => r.2.1 / 2 ^ 136) =
      [2 + 1 * 2 ^ 8 + 3 * 2 ^ 16 + 0x21 * 2 ^ 24 + 64 * 2 ^ 56 + 1 * 2 ^ 72, 0] := by decide +kernel

/-- The example of SPENC (R210), which takes the result of PRUNE. -/
theorem test_spenc :
    let k : Ctx := { Ctx.reset with v := [(7, lanes [0, 0xC0000000, 0x40000000, 0, 0x40400000, 0x40400000])] }
    (List.range 4).map (laneOf (.spenc u0 0 6 7 0) k) = [0xC0000000, 0x40000000, 0x40400000, 0x40400000] ∧
    laneOf (.spenc u0 0 6 7 0) k 31 = 2 ∧ laneOf (.spenc u0 0 6 7 0) k 30 = 0 := by decide +kernel

/-- The keys of R279: with no seed, nodes 1 and 2 capture the first two multiples of the constant. -/
theorem test_node_key : (nodeKey 0 0 1, nodeKey 0 0 2) = (0x9E3779B97F4A7C15, 0x3C6EF372FE94F82A) := by decide +kernel

/-- Table 4.10: one sum under NP0 to NP4, with an FP32 and an FP64 accumulator; each raises NX. -/
theorem test_profiles :
    let v (x : Nat) : Machine.Num := Fmt.f32.value x
    let ps (z : Nat) : List (Machine.Num × Machine.Num) :=
      [(v 0x4B800000, v 0x3F800000), (v 0x3F800000, v 0x3F800000), (v 0x3F800000, v z), (v 0x2F800000, v 0x3F800000)] ++
        List.replicate 12 (v 0, v 0)
    let r (F : Fmt) (z np : Nat) : Nat := (multiplyElem np F .rne false 56 (.fin false 0 0) (ps z)).1
    (List.range 5).map (r Fmt.f32 0x3F800000) = [0x4B800000, 0x4B800001, 0x4B800001, 0x4B800001, 0x4B800001] ∧
    (List.range 5).map (r Fmt.f32 0) = [0x4B800000, 0x4B800001, 0x4B800000, 0x4B800000, 0x4B800000] ∧
    (List.range 5).map (r Fmt.f64 0x3F800000) = List.replicate 5 0x4170000020000000 ∧
    (List.range 5).map (r Fmt.f64 0) = [0x4170000010000000, 0x4170000010000000, 0x4170000010000000, 0x4170000000000000,
      0x4170000010000000] := by decide +kernel


/-- The check value of CRC-32C over "123456789" (R312), and SHA-256 of "abc", as their standards print them. -/
theorem test_crc32c : (crc32c [0x31, 0x32, 0x33, 0x34, 0x35, 0x36, 0x37, 0x38, 0x39]).toNat = 0xE3069283 := by decide +kernel

theorem test_sha256 : natOfBe (sha256 [0x61, 0x62, 0x63]) =
    0xBA7816BF8F01CFEA414140DE5DAE2223B00361A396177A9CB410FF61F20015AD := by decide +kernel
/-! ### Witnesses: for every statement with hypotheses, a state and operands that meet them -/

/-- Every slot instruction may issue in a slot that a bundle has granted (the statements over `Claim.Runs`). -/
theorem test_issues_granted (i : Instr) (k : Ctx) : Claim.Issues i (busy k) := .inl rfl

/-- A context whose registers are set for the instructions below: s2 and s4 hold own-slab addresses, s20 and s21 a loop group. -/
def ctxA : Ctx := { Ctx.reset with
  s := [(2, 0x1000), (4, 0x2000), (20, 0x900000003), (21, 8), (63, 0x100)] }

/-- And where no bundle has granted the slot, instructions of every class pass the conditions of issue. -/
theorem test_issues_by_themselves : ∀ i ∈ [Instr.add u0 1 2 3, .div u0 1 2 3, .sel u0 1 2 3, .cmpeq u0 1 2 3, .faddF32 u0 1 2 3 false true,
    .fcmpeq u0 1 2 3 false true, .rdc u0 1 8 4, .wrc u0 1 5 0, .xadd u0 1 2 3, .xbnet u0 1 2 3 1, .vadd u0 1 1 2 3 true true,
    .vcvt u0 1 1 2 0 0 false false, .vredadd u0 0 1 2 false true, .topk u0 0 1 2 3, .spenc u0 0 1 2 2, .ldV u0 1 2 0 0,
    .stV u0 1 2 3 4, .ldrL u0 7 4 0 40, .ldS u0 2 0 0 0 2, .stS u0 2 0 2 3 0, .amoAdd u0 2 0 3 5 3, .redAdd u0 2 0 2 3,
    .fpush u0 1 2 0, .acct u0 1, .accz u0 2, .accmov u0 1 2, .getrf u0 1 false false, .br g0 4, .call g0 4, .ret g0,
    .loop g0 0 0 20, .trap g0 7, .setpri g0 3, .ctnOpen g0 8, .wait g0 0 0, .fence g0 2 1, .sqrd g0 2, .halt g0],
    Claim.Issues i (idle ctxA) := by
  unfold Claim.Issues
  decide +kernel

/-- The hypotheses of StepRunsDecoded at a state, for core `n`, the agenda behind the cycle, a slot, its word and its
instruction. -/
def decodedAt (s : State) (n : Nat) (es : List Instr) (k : Nat) (w : Word) (i : Instr) : Bool :=
  let r := Claim.atCycle (Claim.afterTick s es) n
  let c : CtxId := ⟨n, false⟩
  let u := Claim.atMerge r n
  let o : SlotOp := ⟨k, false, w, w, i⟩
  let v : State := { u with cur := c }
  match u.fetchBundle n (u.ctx c).pc with
  | .ok f =>
    s.boot == .running && s.agenda == .bundleIssue n :: es && !Claim.frozen r n && (u.ctx ⟨n, true⟩).slice == none &&
      (u.ctx c).mayIssue (u.core n).cycle && (u.ctx c).held == [] && f.bundle.pre == none && f.bundle.words == [(k, w)] &&
      decide (decodeWord (classOfSlot k) w = .ok i) && i.wf && !(v.atSlot o).guardedOff o.cl o.word &&
      v.bundleReady [o] && decide (k < 8) && (barOf [o]).isNone && ((v.settleBlocks i).bundleFault [o]).isNone
  | .error _ => false

/-- StepRunsDecoded: a word of a slot other than B, and one of the B slot, where the next step fetches. -/
theorem test_witness_step_runs :
    decodedAt (State.reset.withFetchWord 32 0x000C70BC) 0 [] 1 0x000C70BC (.add u0 49 48 47) = true ∧
    decodedAt (State.reset.withFetchWord 32 0x00A00003) 0 [] 0 0x00A00003 (.setpri g0 3) = true := by decide +kernel

/-- BundleIssuesEverySlot. -/
theorem test_witness_bundle_slot : (Instr.add u0 1 2 3).slotClass.isSome = true ∧
    (Instr.setpri g0 3).slotClass.isSome = true := by decide

/-- MemoryStaysCanonical: a state with a canonical memory that takes a step. -/
theorem test_witness_memory : Safety.MemCanonical (State.reset.withFetchWord 32 0x000C70BC) ∧
    ∃ t, step (State.reset.withFetchWord 32 0x000C70BC) = .next t :=
  ⟨by unfold Safety.MemCanonical; decide +kernel, _, rfl⟩

/-- The state in which a slot instruction by itself stands at issue. -/
def alone (i : Instr) (s : State) : State := { s with slot := (classOf i).slot, heldNow := false }

/-- IssueGates: a guard that is off; operands that are ill-formed; a fault of issue (LD.V past the slab). -/
theorem test_witness_issue_gates :
    (let i := Instr.add ⟨false, false, 1⟩ 1 2 3
     let s := idle Ctx.reset
     i.slotClass.isSome = true ∧ s.granted = false ∧ i.wf = true ∧ (alone i s).guardedOff (classOf i) (wordOf i) = true) ∧
    (let i := Instr.vrng u0 2 1 2
     i.slotClass.isSome = true ∧ (idle Ctx.reset).granted = false ∧ i.wf = false) ∧
    (let i := Instr.ldV u0 1 2 0 0
     let s := idle { Ctx.reset with s := [(2, 0x180000)] }
     i.slotClass.isSome = true ∧ s.granted = false ∧ i.wf = true ∧ (alone i s).guardedOff (classOf i) (wordOf i) = false ∧
       slotReady (classOf i) (wordOf i) i (alone i s) = true ∧
       (issueFault (classOf i) (wordOf i) i (Claim.issuing i s)).isSome = true) := by decide +kernel

/-- ResultsLandInRegisters: a scalar, an index, a predicate and a vector result, live, at the highest register. -/
theorem test_witness_results :
    (let f : Flight := ⟨0, 1, 1, .s 63, 5, 1, 1, 0, none, false⟩
     f.dest = .s 63 ∧ (63 : BitVec 6) ≠ 0 ∧ f.live.getLsbD 0 = true) ∧
    (let f : Flight := ⟨0, 1, 1, .x 15, 5, 1, 1, 0, none, false⟩
     f.dest = .x 15 ∧ f.live.getLsbD 0 = true) ∧
    (let f : Flight := ⟨0, 1, 1, .p 15, 5, 1, 0x80000000, 0, none, false⟩
     f.dest = .p 15 ∧ (15 : BitVec 4) ≠ 0 ∧ 31 < 32) ∧
    (let f : Flight := ⟨0, 1, 1, .v 31, BitVec.ofNat 1024 (packElems 64 [1, 2]), 0, elemPart 64 (fun i => i == 15), 0, none,
      false⟩
     64 ∈ [8, 16, 32, 64] ∧ f.dest = .v 31 ∧ f.val = BitVec.ofNat 1024 (packElems 64 [1, 2]) ∧
       f.live = elemPart 64 (fun i => i == 15) ∧ 15 < 1024 / 64) := by decide +kernel

/-- RegisterFrame and the corners of DivisionCorners: by 0, and of −2^63 by −1. -/
theorem test_witness_division :
    Claim.isRegisterForm (.div u0 1 2 3) = true ∧ (∃ t, exec (.div u0 1 2 3) (busy Ctx.reset) = .next t) ∧
    (busy { Ctx.reset with s := [(2, 7)] }).readS 3 = 0 ∧
    (busy { Ctx.reset with s := [(2, 0x8000000000000000), (3, -1)] }).readS 2 = BitVec.intMin 64 ∧
    (busy { Ctx.reset with s := [(2, 0x8000000000000000), (3, -1)] }).readS 3 = -1 :=
  ⟨by decide, ⟨_, rfl⟩, by decide, by decide, by decide⟩

/-- SelectOrNothing with a false guard, and the refused words of IntegerCompares. -/
theorem test_witness_select :
    (let s := idle Ctx.reset
     s.granted = false ∧ (Instr.sel ⟨false, false, 1⟩ 1 2 3).wf = true ∧
       (({ s with slot := 1, heldNow := false } : State).guard false 1).getLsbD 0 = false) ∧
    (let w : Word := 0x02D00001
     w.toNat / 2 ^ 20 % 64 ∈ List.range' 0x28 6 ∧ w.toNat % 4 ≠ 0) := by decide +kernel

/-- IndexRouting: pattern numbers on both sides of the number of patterns of a kind. -/
theorem test_witness_patterns :
    (2 : BitVec 2) ≠ 3 ∧ Nat.choose 8 4 = 70 ∧
    (let r := busy { Ctx.reset with x := [(2, 69)] }
     (r.readX 2).toNat % 2 ^ 7 < Nat.choose 8 4) ∧
    (let r := busy { Ctx.reset with x := [(2, 70)] }
     Nat.choose 8 4 ≤ (r.readX 2).toNat % 2 ^ 7) ∧
    (let r := busy { Ctx.reset with x := [(2, 6)] }
     Nat.choose 4 2 ≤ (r.readX 2).toNat % 2 ^ 3) := by decide +kernel

/-- The types of the vector statements: the floating-point ones, the integer ones, and those of VRNG. -/
theorem test_witness_types : tyFloat 0 = true ∧ tyFloat 1 = true ∧ tyInt 5 = true ∧ tyInt 6 = true ∧ tyInt 7 = true ∧
    tyFloat 7 = false ∧ (2 : BitVec 3) ≤ 6 := by decide

/-- RoundedOnce, MultiplyResults: numbers that stand for 1, 0, −2 and for sums that are 0 and are not. -/
theorem test_witness_numbers :
    Claim.Stands 1 (.fin false 1 0) ∧ Claim.Stands 0 (.fin true 0 0) ∧ Claim.Stands (-2) (.fin true 1 1) ∧
      (1 : ℝ) + 0 ≠ 0 ∧ (1 : ℝ) * (-2) ≠ 0 ∧ (1 : ℝ) * 0 + 0 = 0 ∧ (0 : ℝ) < 1 ∧ (-2 : ℝ) < 0 ∧
      List.Forall₂ Claim.Stands [1, -2] [.fin false 1 0, .fin true 1 1] ∧
      ((∃ r ∈ [(1 : ℝ), -2], (2 : ℝ) ^ (1 : ℤ) ≤ |r|) ∧ ∀ r ∈ [(1 : ℝ), -2], |r| < (2 : ℝ) ^ ((1 : ℤ) + 1)) := by
  have a : Claim.Stands 1 (.fin false 1 0) := by simp [Claim.Stands]
  have b : Claim.Stands (-2) (.fin true 1 1) := by simp [Claim.Stands]
  refine ⟨a, by simp [Claim.Stands], b, by norm_num, by norm_num, by norm_num, by norm_num, by norm_num, ?_, ?_, ?_⟩
  · exact .cons a (.cons b .nil)
  · exact ⟨-2, by simp, by norm_num⟩
  · intro r h
    simp only [List.mem_cons, List.not_mem_nil, or_false] at h
    rcases h with rfl | rfl <;> norm_num

/-- MultiplyResults: sums with a NaN, an invalid product, an infinity, and only finite terms. -/
theorem test_witness_sums :
    let one : Machine.Num := .fin false 1 0
    let zero : Machine.Num := .fin false 0 0
    (Machine.Num.nan true).isNan = true ∧ (Machine.Num.inf false).prod zero = none ∧ (Machine.Num.inf false).prod one = some (.inf false) ∧
      one.prod one = some (.fin false 1 0) ∧ (Machine.Num.inf false).isNan = false ∧ one.isNan = false := by decide +kernel

/-- VectorBitsAndMoves: a queue with a written entry, and a landed register. -/
theorem test_witness_pops :
    (let s := busy { Ctx.reset with q := [(2, [⟨5, 0xFFFFFFFF, true, 0⟩])] }
     SMap.get [] (Claim.issuing (.vpopq u0 1 2) s).here.q (2 : BitVec 2).toNat = ⟨5, 0xFFFFFFFF, true, 0⟩ :: []) ∧
    (let s := busy { Ctx.reset with l := [(7, .landed 5 0 none)] }
     SMap.get .empty (Claim.issuing (.vpopl u0 1 7) s).here.l (7 : BitVec 3).toNat = .landed 5 0 none) := by decide +kernel


/-- IssueGates: a device that runs, and one that does not. -/
theorem test_witness_gates_boot : (idle Ctx.reset).boot = .running ∧
    (let s : State := { idle Ctx.reset with boot := .recovery }
     (Instr.add u0 1 2 3).slotClass.isSome = true ∧ s.granted = false ∧ s.boot ≠ .running) := by decide

/-- VectorFloat, VectorBitsAndMoves, VectorComparesAndConversions: patterns that stand for 1, −2, 0 and −0, infinities, NaNs;
integers that are 0 and not. -/
theorem test_witness_patterns_of_numbers :
    Claim.Stands 1 (Fmt.f32.value 0x3F800000) ∧ Claim.Stands (-2) (Fmt.f32.value 0xC0000000) ∧
      Claim.Stands 0 (Fmt.f32.value 0x80000000) ∧ Claim.Stands 1 (Fmt.bf16.value 0x3F80) ∧
      Claim.Stands 0 (Fmt.bf16.value 0) ∧ |(1 : ℝ)| < 2 ^ Fmt.f32.e + 64 ∧ (1 : ℝ) = 2 ^ (0 : ℤ) ∧
      Fmt.f32.value 0xFF800000 = .inf true ∧ (Fmt.f32.value 0x7FC00000).isNan = true ∧ (Fmt.bf16.value 0x7F81).isNan = true ∧
      Fmt.bf16.value 0x7F80 = .inf false ∧ 0xFF800000 < 2 ^ Fmt.f32.width ∧
      tyInt 3 = false ∧ ¬ ((0 : BitVec 3) = 3 ∧ (0 : BitVec 3) = 0) ∧ toIntW true 32 0 = 0 ∧ toIntW true 32 0xFFFFFFFF = -1 := by
  have a : Fmt.f32.value 0x3F800000 = .fin false 0x800000 (-23) := by decide +kernel
  have b : Fmt.f32.value 0xC0000000 = .fin true 0x800000 (-22) := by decide +kernel
  have c : Fmt.f32.value 0x80000000 = .fin true 0 (-149) := by decide +kernel
  have d : Fmt.bf16.value 0x3F80 = .fin false 0x80 (-7) := by decide +kernel
  have e : Fmt.bf16.value 0 = .fin false 0 (-133) := by decide +kernel
  refine ⟨?_, ?_, ?_, ?_, ?_, by norm_num [Fmt.f32], by norm_num, by decide +kernel, by decide +kernel, by decide +kernel,
    by decide +kernel, by decide +kernel, by decide, by decide, by decide +kernel, by decide +kernel⟩
  · rw [a]; norm_num [Claim.Stands]
  · rw [b]; norm_num [Claim.Stands]
  · rw [c]; simp [Claim.Stands]
  · rw [d]; norm_num [Claim.Stands]
  · rw [e]; simp [Claim.Stands]

/-- VectorReductionsAndSelection: lists with a NaN, with both infinities, with one, and of finite numbers; numbers for each
case of PRUNE and TOPK; an order that is strict, and a list that rises. -/
theorem test_witness_folds :
    (∃ x ∈ [Machine.Num.nan true], x.isNan = true) ∧
    (Machine.Num.inf false ∈ [Machine.Num.inf false, .inf true] ∧ Machine.Num.inf true ∈ [Machine.Num.inf false, .inf true]) ∧
    (¬ (∃ x ∈ [Machine.Num.inf true], x.isNan = true) ∧ Machine.Num.inf false ∉ [Machine.Num.inf true]) ∧
    (¬ (∃ x ∈ [Machine.Num.fin false 1 0], x.isNan = true) ∧ ∀ n, Machine.Num.inf n ∉ [Machine.Num.fin false 1 0]) ∧
    Claim.Stands 0 (.fin false 0 0) ∧ Claim.Stands 1 (.fin false 1 0) ∧ (0 : ℝ) < 1 ∧
    (Fmt.f32.value 0x7FC00000).isNan = true ∧ (Fmt.f32.value 0x3F800000).isNan = false ∧ (5 : BitVec 3) ≠ 0 ∧
    (let before (i j : Nat) : Bool := decide (j < i)
     (∀ i, before i i = false) ∧ (∀ i j, before i j = true → before j i = false) ∧
       (∀ i j k, before i j = true → before i k = true ∨ before k j = true) ∧ [0, 3, 7].Pairwise (· < ·)) := by
  refine ⟨⟨_, List.mem_singleton.2 rfl, rfl⟩, by decide, ⟨by decide, by decide⟩, ⟨by decide, by decide⟩, by simp [Claim.Stands],
    by simp [Claim.Stands], by norm_num, by decide +kernel, by decide +kernel, by decide, ?_⟩
  simp only [decide_eq_true_eq, decide_eq_false_iff_not]
  exact ⟨fun i => by omega, fun i j h => by omega, fun i j k h => by omega, by decide⟩

/-- BlockForms, QNT: inputs with a NaN, all zero, and all 1 with a book whose only magnitudes are 0 and 1. -/
theorem test_witness_quantise :
    (∃ x ∈ Machine.Num.nan false :: List.replicate 31 (.fin false 1 0), x.isNan = true) ∧
    (∀ x ∈ List.replicate 32 (Machine.Num.fin true 0 0), x.isZero = true) ∧
    (let b : Codebook := ⟨BitVec.ofNat 256 (0x3F80 * 2 ^ 16), 0⟩
     let xs := List.replicate 32 (Machine.Num.fin false 1 0)
     let V (j : Nat) : ℝ := if j = 1 then 1 else 0
     xs.length = 32 ∧ (∀ i < 32, ∃ x, xs[i]? = some x ∧ Claim.Stands 1 x) ∧
       (∀ j < 16, b.esc.getLsbD j = false ∧ Claim.Stands (V j) (Fmt.bf16.value (b.ents.extractLsb' (16 * j) 16).toNat)) ∧
       (2 : ℝ) ^ (0 : ℤ) ≤ |1| ∧ |(1 : ℝ)| < 2 ^ ((0 : ℤ) + 1) ∧ 2 ^ (0 : ℤ) ≤ |V 1| ∧ ∀ j, |V j| < 2 ^ ((0 : ℤ) + 1)) := by
  refine ⟨⟨_, List.mem_cons_self, rfl⟩, by decide, ?_⟩
  have v (j : Nat) : |(if j = 1 then (1 : ℝ) else 0)| < 2 := by split <;> norm_num
  refine ⟨rfl, fun i h => ⟨.fin false 1 0, by rw [List.getElem?_replicate, if_pos h], by simp [Claim.Stands]⟩, ?_, by norm_num,
    by norm_num, by norm_num, fun j => by simpa using v j⟩
  intro j h
  have e : ∀ j < 16, Fmt.bf16.value ((BitVec.ofNat 256 (0x3F80 * 2 ^ 16)).extractLsb' (16 * j) 16).toNat =
      if j = 1 then .fin false 0x80 (-7) else .fin false 0 (-133) := by decide +kernel
  refine ⟨by simp, ?_⟩
  dsimp only
  rw [e j h]
  split <;> norm_num [Claim.Stands]

/-- BlockForms: a block to lay out, a quotient, codes that escape and do not, spall entries that are right, wrong and
out of order. -/
theorem test_witness_blocks :
    (let q := quantise book (List.replicate 32 (.fin false 1 0)) (.fin false 1 0) 2
     q.codes.length = 32 ∧ (∀ c ∈ q.codes, c < 16) ∧ q.scale < 256 ∧ q.stat < 256 ∧ q.qualified < 256 ∧
       q.elected.Pairwise (· < ·) ∧ (∀ i ∈ q.elected, i < 32) ∧
       (match q.quotients[3]? with | some (.fin _ _ _) => true | _ => false) = true) ∧
    (book.esc.getLsbD 8 = true ∧ book.esc.getLsbD 1 = false ∧ Fmt.f32.value 0x7FC00000 = .nan false) ∧
    (let e : DWord := 0x3F80000000000805
     let wrong : DWord := 0x3F80000000004805
     let valid (e : DWord) : Bool := e.getLsbD 11
     let pos (e : DWord) : Nat := e.toNat / 2 ^ 12 % 4 * 2048 + e.toNat % 2048
     [e].filter (fun e => valid e && pos e == 5) = [e] ∧ (valid wrong = true ∧ wrong.toNat / 2 ^ 14 % 2 ^ 18 ≠ 0) ∧
       (valid e = true ∧ e.toNat / 2 ^ 14 % 2 ^ 18 = 0 ∧ pos e < 8192) ∧
       (([e, e].filter valid).map pos = [] ++ 5 :: 5 :: [] ∧ ([] ++ [5]).Pairwise (fun a b : Nat => a < b))) := by decide +kernel
/-! ### Memory -/

/-- AddressForms and BanksOfASlab at their ends: the last byte of a slab, the first byte past it, the first and the last
window, the odd window of a twin pair, tagged addresses of both kinds and of the wrong form. -/
theorem test_witness_addresses :
    0x17FFFF + 1 ≤ 0x180000 ∧ 0x180000 < 0x17FFFF + 2 ∧ (255 < 256 ∧ 0x1FFFFF < 0x200000) ∧
    0x20000000 + 255 * 0x200000 + 0x1FFFFF < 0x40000000 ∧
    (busy Ctx.reset).slab 0 0x17FFFF 1 = some 0x2017FFFF ∧ (busy Ctx.reset).slab 0 0x17FFFF 2 = none ∧
    (busy Ctx.reset).slab 3 (0x20000000 + 255 * 0x200000) 4 = some (0x20000000 + 255 * 0x200000) ∧
    ({ busy Ctx.reset with courses := [(0, { Course.reset with twin := true })] } : State).slab 0 0x20200000 4 = none ∧
    (busy Ctx.reset).placeOwn 0x1000 128 64 = .slab 0x20001000 ∧ (busy Ctx.reset).placeOwn 0x1001 128 64 = .slabFault ∧
    (busy Ctx.reset).placeAny 0x20200000 128 64 = .slab 0x20200000 ∧ (busy Ctx.reset).placeAny 0x180000 4 4 = .slabFault ∧
    (busy Ctx.reset).placeTagged 0x8000000000001000 8 8 = .slab 0x20001000 ∧
    (busy Ctx.reset).placeTagged 0x8000000100001000 8 8 = .slabFault ∧
    (busy Ctx.reset).placeTagged 0x00FFFFFFFFFFFFF8 8 8 = .dva 0x00FFFFFFFFFFFFF8 ∧
    (busy Ctx.reset).placeTagged 0x0100000000000000 8 8 = .addrFault ∧
    (busy Ctx.reset).placeTagged 0x0000000000000004 8 8 = .addrFault ∧
    bankOf 0x2017FFFF = 31 ∧ bankOf 0x20000000 = 0 ∧ groupOf 0x20000400 = 1 := by decide +kernel

/-- LoadsAndStores: queues with an entry for STQ and FPUSHQ. -/
theorem test_witness_queues : ∀ i ∈ [Instr.stq u0 3 2 0 0, .fpushq u0 3 2 0 5],
    let s := busy { Ctx.reset with s := [(2, 0x1000)], q := [(3, [⟨5, 1, true, 0⟩])] }
    SMap.get [] (Claim.issuing i s).here.q (3 : BitVec 2).toNat = ⟨5, 1, true, 0⟩ :: [] := by decide +kernel

/-- A tile of one row of 16 FP32 elements at 0x1000. -/
def descA : BitVec 256 := BitVec.ofNat 256 (0x1000 + 64 * 2 ^ 32 + 2 ^ 64 + 16 * 2 ^ 80)

/-- A nest block at 0x2000 of one dimension and `n` units; a ring block at 0x2080 of one slot, one dimension and one tile,
with its state bytes at 0x3000 and its slot at 0x1000. -/
def blockMem (n : Nat) : SMap Byte :=
  [(0x20002000, 1), (0x20002004, BitVec.ofNat 8 n), (0x20002099, 0x10), (0x200020A0, 1), (0x200020A1, 1), (0x200020A4, 1),
    (0x200020E1, 0x30), (0x20003000, 1)]

def blockState (n : Nat) : State :=
  { busy { Ctx.reset with s := [(2, 0x100000), (3, 0x2000), (4, 0x2080)], d := [(1, descA)] } with mem := blockMem n }

/-- CopyCommands: a nest block that fits its descriptor, a ring block, and a slot that SREL may release. -/
theorem test_witness_copy_commands :
    (∀ i ∈ [Instr.cpIn u0 1 2 5 0, .cpOut u0 1 2 15 0],
      let t := Claim.issuing i (blockState 16)
      t.ownSlab t.cur.core (t.readS 3).toNat 64 = some 0x20002000 ∧
      (t.nestBlock 0x20002000 ((Descr.of (t.here.desc 1)).rows * (Descr.of (t.here.desc 1)).rowUnits)).isSome = true) ∧
    (let t := Claim.issuing (.rsub u0 1 4 5 0) (blockState 16)
     t.ringAt 4 = some 0x20002080 ∧ (t.ringBlock 0x20002080).isSome = true ∧ t.pends t.cur = [] ∧ t.poison = [] ∧ t.flaws = []) ∧
    (Claim.issuing (.srel u0 1 4 0) (blockState 16)).srelByte 1 4 = some 0x20003000 := by decide +kernel

/-- MemoryIssueFrame. -/
theorem test_witness_memory_frame : (Instr.ldV u0 1 2 0 0).slotClass = some .c ∧
    (∀ u d a k c, Instr.ldV u0 1 2 0 0 ≠ .rsub u d a k c) ∧
    ∃ t, exec (.ldV u0 1 2 0 0) (busy Ctx.reset) = .next t :=
  ⟨rfl, fun _ _ _ _ _ => nofun, _, rfl⟩

/-- An operation of 8 bytes at 0x1000 of the own slab. -/
def memOp (act : MemAct) (performed : Bool) : MemOp :=
  ⟨0, 0x1000, 1, 6, false, 0, 0, 0, 0, 8, 8, [⟨0, .key 0x20001000, 8⟩], act, performed, 5, 0, [], []⟩

/-- A context on core 0 with one operation on its way. -/
def opState (o : MemOp) : State := busy { Ctx.reset with ops := [o] }

/-- The keys and places of that operation. -/
def opCells : List (Nat × Nat) := (List.range 8).map (fun i => (i, 0x20001000 + i))

/-- AccessesPerform and AtomicPerforms: a store, a load for each kind of receiver, an AMO and a RED. -/
theorem test_witness_accesses : ∀ act ∈ [MemAct.store 7, .load .flight, .load (.sreg 3), .load (.landing 2), .load (.desc 1),
    .rmw .add 1 0 (some 3), .rmw .cas 1 2 (some 3), .rmw .fadd 1 0 none],
    let s := opState (memOp act false)
    let o := memOp act false
    s.opAt ⟨0, false⟩ 0 = some o ∧ o.act = act ∧ s.mayPerform ⟨0, false⟩ o = true ∧
      s.locate 0 o.access o.frags = .ok opCells ∧ (∀ p ∈ opCells, s.refusedBy 0 p.2 = false) ∧ s.poison = [] ∧
      (∀ p ∈ opCells, s.poisoned p.2 = false) ∧ s.flaws = [] ∧ (∀ p ∈ opCells, isHostKey p.2 = false) ∧
      (opCells.map Prod.snd).Nodup := by
  intro act h
  fin_cases h <;> refine ⟨rfl, rfl, rfl, rfl, ?_, rfl, ?_, rfl, ?_, ?_⟩ <;> decide +kernel

/-- AccessesPerform: a store of C0 beside an AMO of C1 of the same bundle (R167). -/
theorem test_witness_pair_reads_first :
    let o := memOp (.store 7) false
    let e := { memOp (.rmw .add 1 0 (some 3)) false with id := 1, slot := 7 }
    let s : State := busy { Ctx.reset with ops := [o, e] }
    s.opAt ⟨0, false⟩ 0 = some o ∧ s.mayPerform ⟨0, false⟩ o = true ∧ e ∈ (s.ctx ⟨0, false⟩).ops ∧ o.slot = 6 ∧ e.slot = 7 ∧
      e.isRmw = true ∧ e.performed = false ∧ e.id / 16 = o.id / 16 := by decide +kernel

/-- An operation of 8 bytes at an address that no page maps. -/
def lostOp : MemOp := ⟨0, 0x1000, 1, 6, false, 0, 3, 0, 0, 8, 9, [⟨0, .dva 0x1000, 8⟩], .store 7, false, 0, 0, [], []⟩

/-- Responses: an AMO, an LD.S and a posted store that have performed; a posted store that fails to translate. -/
theorem test_witness_responses :
    (∀ act ∈ [MemAct.rmw .add 1 0 (some 3), .load (.sreg 3), .store 7],
      let s := opState (memOp act true)
      s.opAt ⟨0, false⟩ 0 = some (memOp act true) ∧ (memOp act true).performed = true ∧
        (s.ctx ⟨0, false⟩).request ≠ .stopped ∧ (memOp act true).isTile = false) ∧
    (memOp (.store 7) true).posted = true ∧
    (let s := opState lostOp
     s.opAt ⟨0, false⟩ 0 = some lostOp ∧ lostOp.act = .store 7 ∧ s.mayPerform ⟨0, false⟩ lostOp = true ∧
       s.locate 0 .write lostOp.frags = .error (xNomap, 0x1000)) := by decide +kernel

/-- A copy of descriptor d1 to 0x4000 of the own slab, and one from an address that no page maps. -/
def slabCopy : CopyCmd := ⟨.cpSs, descA, 0x4000, 64, [], [], 0, 1, 6, false, 0, 0, none, [], []⟩
def lostCopy : CopyCmd := ⟨.cpIn, descA, 0x100000, 0, [16], [4], 0, 1, 6, false, 0, 0, none, [], []⟩

def copyState (q : CopyCmd) : State := busy { Ctx.reset with copies := [(5, .running q)] }

/-- A ring of one slot and one tile, and one whose input no page maps. -/
def ringA (input : DWord) (taken : SMap Nat) : Ring := ⟨input, 0, 64, 0x1000, 0, 1, [1], [0], 0x3000, taken⟩
def ringCmd (r : Ring) : CopyCmd := ⟨.ring r, descA, 0, 0, [], [], 0, 1, 6, false, 0, 0, none, [], []⟩

def ringState (r : Ring) (b : Byte) : State :=
  { copyState (ringCmd r) with mem := if b = 0 then [] else [(0x20003000, b)] }

/-- CopiesAndRings: a copy whose units all have places, one that fails at its first unit; the steps of a ring, with and
without a tile left, one that fails, and a slot of a ring that a stopped slice has left; a walk that finds no page, of an open space. -/
theorem test_witness_copies :
    (let s := copyState slabCopy
     let u := s.resolveUnits 0 (unitBytes (Descr.of slabCopy.d).fmt) 0 (s.copyUnits 0 slabCopy)
     (s.ctx ⟨0, false⟩).copy 5 = .running slabCopy ∧ s.poison = [] ∧ s.flaws = [] ∧ s.pends ⟨0, false⟩ = [] ∧ u.2 = none ∧
       (∀ p ∈ u.1, ∀ k ∈ p.2, s.refusedBy 0 k = false) ∧
       ((u.1.flatMap (fun p => p.2.zip (p.1.map s.byte))).map Prod.fst).Nodup) ∧
    (let s := copyState lostCopy
     let u := s.resolveUnits 0 (unitBytes (Descr.of lostCopy.d).fmt) 0 (s.copyUnits 0 lostCopy)
     (s.ctx ⟨0, false⟩).copy 5 = .running lostCopy ∧ u.2 = some (0, false, xNomap, 0x100000)) ∧
    (let s := ringState (ringA 0 []) 0
     (s.ctx ⟨0, false⟩).ringOf 5 0 = some (ringCmd (ringA 0 []), ringA 0 []) ∧ 0 < (ringA 0 []).slots ∧ s.flaws = [] ∧
       s.byte (s.ownKey 0 0x3000) = 0 ∧ (ringA 0 []).tileOf 0 ((ringA 0 []).takenOf 0) = some 0 ∧
       (s.resolveUnits 0 4 0 (s.stepUnits 0 (ringA 0 []) (Descr.of descA) 0 (.fill 0))).2 = none) ∧
    (let s := ringState (ringA 0 [(0, 1)]) 0
     s.byte (s.ownKey 0 0x3000) = 0 ∧ (ringA 0 [(0, 1)]).tileOf 0 ((ringA 0 [(0, 1)]).takenOf 0) = none) ∧
    (let s : State := { busy { Ctx.reset with orphans := [ringCmd (ringA 0 [(0, 1)])] } with mem := [(0x20003000, 3)] }
     (s.ctx ⟨0, false⟩).ringOf 5 16 = some (ringCmd (ringA 0 [(0, 1)]), ringA 0 [(0, 1)]) ∧ s.byte (s.ownKey 0 0x3000) = 3 ∧
       ({ s with poison := [granule 0x20003000] } : State).poisoned (s.ownKey 0 0x3000) = true) ∧
    (let s := ringState (ringA 0 [(0, 1)]) 2
     s.byte (s.ownKey 0 0x3000) = 2 ∧ (ringA 0 [(0, 1)]).takenOf 0 = 0 + 1 ∧ (ringA 0 [(0, 1)]).tileOf 0 0 = some 0 ∧
       (s.resolveUnits 0 4 0 (s.stepUnits 0 (ringA 0 [(0, 1)]) (Descr.of descA) 0 (.pull 0))).2 = none) ∧
    (let r := ringA 0x100000 []
     let s := ringState r 0
     s.byte (s.ownKey 0 0x3000) = 0 ∧ r.tileOf 0 (r.takenOf 0) = some 0 ∧
       (s.resolveUnits 0 (unitBytes (Descr.of descA).fmt) 0 (s.stepUnits 0 r (Descr.of descA) 0 (.fill 0))).2 =
         some (0, false, xNomap, 0x100000)) ∧
    (let s : State := { State.reset with spaces := [(0, ⟨0x9402F90000, [], none, []⟩)] }
     s.spaces.find 0 = some ⟨0x9402F90000, [], none, []⟩ ∧ s.cached 0 ((0x1000 : BitVec 64).toNat % 2 ^ 56) = none ∧
       s.walkFrom ((0x1000 : BitVec 64).toNat % 2 ^ 56) levels 0x9402F90000 = .error xNomap) := by decide +kernel

/-- CopiesAndRings: a walk that ends at a leaf, on the page where a first instruction is placed. -/
theorem test_witness_walk :
    let s := State.reset.withFetchWord 32 0x000C70BC
    (match s.spaces.find 1 with
     | some sp => (s.cached 1 ((s.here.pc).toNat % 2 ^ 56)).isNone && 
       (match s.walkFrom (s.here.pc.toNat % 2 ^ 56) levels sp.root with
         | .ok _ => true
         | .error _ => false)
     | none => false) = true := by decide +kernel


/-- CopyCommands: a block that is clean, a state byte that is not poisoned, no ring of the bundle before it; a block that holds
poison, in its first and in its second half. -/
theorem test_witness_blocks_read :
    (let t := Claim.issuing (.rsub u0 1 4 5 0) (blockState 16)
     t.flaws = [] ∧ (∀ k ∈ (List.range 128).map (fun j => 0x20002080 + j), t.poisoned k = false) ∧
       (∀ p ∈ (blockState 16).here.copies, ∀ q r, p.2 = .running q → q.kind = .ring r → q.before / 16 ≠ (blockState 16).freshId / 16)) ∧
    (let t := Claim.issuing (.srel u0 1 4 0) (blockState 16)
     t.ringAt 4 = some 0x20002080 ∧ t.poisoned 0x20003000 = false) ∧
    (∀ x ∈ [(Instr.cpIn u0 1 2 5 0, (3 : BitVec 6), 64, 0x20002000), (.cpOut u0 1 2 5 0, 3, 64, 0x20002000),
        (.rsub u0 1 4 5 0, 4, 128, 0x20002080), (.srel u0 1 4 0, 4, 128, 0x20002080)],
      let s : State := { blockState 16 with poison := [granule x.2.2.2] }
      let t := Claim.issuing x.1 s
      t.ownSlab t.cur.core (t.readS x.2.1).toNat x.2.2.1 = some x.2.2.2 ∧ (t.readS x.2.1).toNat % x.2.2.1 = 0 ∧ t.flaws = [] ∧
        t.poisoned (x.2.2.2 + 0) = true) := by
  refine ⟨⟨by decide +kernel, by decide +kernel, fun _ h => nomatch h⟩, by decide +kernel, by decide +kernel⟩

/-- MemoryIssueFrame: a command that reads a block, where no error stands. -/
theorem test_witness_frame_reads : (Instr.cpIn u0 1 2 5 0).slotClass = some .c ∧
    (Claim.issuing (.cpIn u0 1 2 5 0) (blockState 16)).flaws = [] ∧
    ∃ t, exec (.cpIn u0 1 2 5 0) (blockState 16) = .next t := ⟨rfl, rfl, _, rfl⟩

/-- AccessesPerform: a store of C0 beside a load and a copy of C1 of its bundle. -/
theorem test_witness_slots_read_first :
    let o : MemOp := { memOp (.store 7) false with id := 22 }
    let e : MemOp := { memOp (.load .flight) false with id := 23 }
    let q : CopyCmd := ⟨.cpSs, descA, 0x4000, 64, [], [], 0, 1, 7, false, 0, 23, none, [], []⟩
    let s := busy { Ctx.reset with ops := [o, e], copies := [(5, .running q)] }
    s.opAt ⟨0, false⟩ 0 = some o ∧ s.mayPerform ⟨0, false⟩ o = true ∧ 6 ≤ o.id % 16 ∧ e ∈ (s.ctx ⟨0, false⟩).ops ∧
      e.id / 16 = o.id / 16 ∧ e.id ≠ o.id ∧ 6 ≤ e.id % 16 ∧ e.performed = false ∧ (s.ctx ⟨0, false⟩).copy 5 = .running q ∧
      q.before / 16 = o.id / 16 ∧ o.id < q.before := by decide +kernel

/-- A key of host memory. -/
def hostAt : Nat := 2 ^ 57

/-- AtomicPerforms, Responses: an AMO and a RED that their host memory supports and does not, that find poison, and that do
not translate. -/
theorem test_witness_atomics_stop : ∀ r ∈ [some (3 : BitVec 6), none],
    let o (op : Rmw) (f : Frag) : MemOp := { memOp (.rmw op 1 0 r) false with frags := [f] }
    (let l := (List.range 8).map (fun i => (i, hostAt + i))
     let s := opState (o .add ⟨0, .key hostAt, 8⟩)
     s.opAt ⟨0, false⟩ 0 = some (o .add ⟨0, .key hostAt, 8⟩) ∧ s.mayPerform ⟨0, false⟩ (o .add ⟨0, .key hostAt, 8⟩) = true ∧
       (o .add ⟨0, .key hostAt, 8⟩).width = 8 ∧ (∀ p ∈ l, 2 ^ 57 ≤ p.2 ∧ p.2 < 2 ^ 58)) ∧
    (let x := o .min ⟨0, .key hostAt, 8⟩
     let s := { opState x with boot := .running, ports := [(18, { Port.reset with up := true })] }
     s.opAt ⟨0, false⟩ 0 = some x ∧ s.mayPerform ⟨0, false⟩ x = true ∧ s.flaws = [] ∧
       (match s.locate 0 x.access x.frags with
        | .ok l => l.all (fun p => !s.refusedBy 0 p.2) && l.any (fun p => decide (2 ^ 57 ≤ p.2) && decide (p.2 < 2 ^ 58))
        | .error _ => false) = true) ∧
    (let x := o .add ⟨0, .key 0x20001000, 8⟩
     let s : State := { opState x with poison := [granule 0x20001000] }
     s.opAt ⟨0, false⟩ 0 = some x ∧ s.mayPerform ⟨0, false⟩ x = true ∧ s.locate 0 x.access x.frags = .ok opCells ∧
       (∀ p ∈ opCells, s.refusedBy 0 p.2 = false) ∧ s.flaws = [] ∧ ∃ p ∈ opCells, s.poisoned p.2 = true) ∧
    (let x := o .add ⟨0, .dva 0x1000, 8⟩
     let s := opState x
     s.opAt ⟨0, false⟩ 0 = some x ∧ s.mayPerform ⟨0, false⟩ x = true ∧ s.locate 0 x.access x.frags = .error (xNomap, 0x1000)) := by
  intro r h
  fin_cases h <;> decide +kernel
/-! ### The B slot -/

/-- A slice of node 0 of graph 1, in its prologue. -/
def sliceA : Slice := ⟨1, 0, 0, 0, 0, 2, 0, .prologue, false⟩

/-- Branches: a CALL with no interlock on s63. WaitsAndMessages: a core with a tag, and a context with no interlock. -/
theorem test_witness_branches :
    (∀ x ∈ (Claim.issuing (.call g0 4) (busy Ctx.reset)).here.ops, x.interlocks ≠ some 63) ∧
    (Claim.issuing (.glaunch g0 4) (busy Ctx.reset)).spaceOf 0 = some 0 ∧
    (Claim.issuing (.bead g0 4 63) (busy Ctx.reset)).spaceOf 0 = some 0 ∧
    (∀ x ∈ (Claim.issuing (.sqrd g0 62) (busy Ctx.reset)).here.ops, x.interlocks = none) := by decide +kernel

/-- A node of two iterations over extents 2 and 1 on core 0, and its graph. -/
def nodeA : Node where
  addr := 0x2000
  id := 1
  state := .running
  cls := 1
  pin := true
  idem := true
  drain := true
  ckpt := true
  kill := true
  retries := 1
  left := 1
  pendInit := 1
  pro := 0x400
  ker := 0x800
  epi := 0xC00
  trip := 2
  exts := [2, 1]
  perm := [0, 1]
  pending := 1
  tokens := 5
  succs := [(1, 0)]
  estimate := 20000
  ccnt := 0
  arrive := 0
  seed := 0
  place := 1
  nkey := 9
  cores := [0]
  unretired := 1
  startedAt := none
  killing := false
  withheld := false
  attempt := 0

def graphA (ns : SMap Node) : Graph :=
  { space := 0, addr := 0x1000, plumb := false, twin := 0, first := 0x2000, count := ns.length, status := .running, done := 0
    voided := 0, retry := 0, nodes := ns }

/-- A device that runs that graph, with a context. -/
def graphState (ns : SMap Node) (k : Ctx) : State :=
  { busy k with graphs := [(1, graphA ns)], courses := [(0, { Course.reset with space := some 0 })] }

/-- A context in a loop of two dimensions with counts 2 and 3 at s20 to s23, whose targets are s10 and s11. -/
def loopCtx (idx : SMap (BitVec 28)) (edge : Option Edge) : Ctx := { Ctx.reset with
  s := [(20, 0x0000000A00000002), (21, 8), (22, 0x0000000B00000003), (23, 64)], loop := ⟨2, 0, 0, 20, 0x40, idx⟩, edge := edge }

/-- Loops: counts that are all nonzero, a count of 0, a kernel whose pass has ended; back-edges that are not due, that advance
the first or the second dimension of a loop or of a kernel, and that end the loop; a bundle before and at the end of a body. -/
theorem test_witness_loops :
    let count (s : State) (j : Nat) : Nat := (s.readS (20 + BitVec.ofNat 6 (2 * j))).toNat % 2 ^ 28
    let more (idx : SMap (BitVec 28)) (d : Nat) : Bool :=
      let s := busy (loopCtx idx none)
      decide ((SMap.get 0 s.here.loop.idx d).toNat + 1 <
        (s.readS (s.here.loop.grp + BitVec.ofNat 6 (2 * d))).toNat % 2 ^ 28)
    let e : Edge := ⟨some 1, 11, 64⟩
    (∀ j ≤ (1 : BitVec 3).toNat, count (busy (loopCtx [] none)) j ≠ 0) ∧ (∃ j ≤ (1 : BitVec 3).toNat, count (busy Ctx.reset) j = 0) ∧
    more [] 0 = true ∧ (more [(0, 1)] 0 = false ∧ more [(0, 1)] 1 = true) ∧ (∀ d < 2, more [(0, 1), (1, 2)] d = false) ∧
    ((loopCtx [] none).loop.depth ≠ 0 ∧ (loopCtx [] none).loop.len.toNat ≤ (loopCtx [] none).loop.pos) ∧ 0 < (1 : BitVec 5).toNat ∧
    (loopCtx [] none).edge = none ∧ (loopCtx [] (some ⟨none, 0, 0⟩)).inKernel = false ∧
    (∀ sl ∈ [{ sliceA with phase := .kernel }, { sliceA with phase := .kernel, passOpen := true }],
      let s := graphState [(0, nodeA)] { loopCtx [(0, 1)] (some e) with slice := some sl }
      s.here.edge = some e ∧ e.dim = some 1 ∧ s.here.request = .none ∧ s.here.slice = some sl ∧ sl.phase = .kernel ∧
        1 + 1 = s.here.loop.depth ∧ s.nodeOf sl.graph sl.node = some nodeA) := by decide +kernel

/-- ContainmentRegions: CTN.OPEN at DEPTH 4 and CTN.CLOSE at DEPTH 0. -/
theorem test_witness_containment :
    (let i := Instr.ctnOpen g0 8
     let s := idle { Ctx.reset with depth := 4 }
     s.granted = false ∧ s.here.depth = 4 ∧ (alone i s).guardedOff .b (wordOf i) = false ∧
       slotReady .b (wordOf i) i (alone i s) = true) ∧
    (let i := Instr.ctnClose g0
     let s := idle Ctx.reset
     s.granted = false ∧ s.here.depth = 0 ∧ (alone i s).guardedOff .b (wordOf i) = false ∧
       slotReady .b (wordOf i) i (alone i s) = true) := by decide +kernel

/-- A context of graph 1, node 0 on core 0, whose course has a barrier. -/
def barState (b : Option Barrier) : State :=
  { busy { Ctx.reset with slice := some sliceA } with
    courses := match b with | none => [] | some r => [(0, { Course.reset with barriers := [(3, some r)] })] }

/-- Barriers: an idle one, one that another core has bound, one that completes, and mismatches of the mask, of the node and
of a second arrival; a BAR whose barrier has completed. -/
theorem test_witness_barriers :
    let bar (s : State) : Option Barrier := SMap.get none (s.course 0).barriers (3 : BitVec 4).toNat
    let bit : BitVec 8 := 1#8 <<< (0 % 8)
    ((barState none).ctx ⟨0, false⟩).slice = some sliceA ∧ bar (barState none) = none ∧ (3 : BitVec 8) ≠ bit ∧
    (let r : Barrier := ⟨1, 0, 7, 2⟩
     bar (barState (some r)) = some r ∧ r.graph = sliceA.graph ∧ r.node = sliceA.node ∧ r.arrived &&& bit = 0 ∧
       r.arrived ||| bit ≠ r.mask) ∧
    (let r : Barrier := ⟨1, 0, 3, 2⟩
     bar (barState (some r)) = some r ∧ r.arrived &&& bit = 0 ∧ r.arrived ||| bit = r.mask ∧ r.mask.getLsbD (0 % 8) = true) ∧
    (let r : Barrier := ⟨1, 0, 7, 2⟩
     bar (barState (some r)) = some r ∧ r.mask ≠ 3) ∧
    (let r : Barrier := ⟨1, 1, 3, 2⟩
     bar (barState (some r)) = some r ∧ r.node ≠ sliceA.node) ∧
    (let r : Barrier := ⟨1, 0, 3, 1⟩
     bar (barState (some r)) = some r ∧ r.arrived &&& bit ≠ 0) ∧
    (∀ p ∈ [true, false],
      let a : Arrival := ⟨0, true, p⟩
      let u := Claim.issuing (.bar g0 3 3) (busy { Ctx.reset with arrived := [(3, a)] })
      u.here.arrived.find (3 : BitVec 4).toNat = some a ∧ a.waits = true ∧ a.pc = u.here.pc) ∧
    (let u := Claim.issuing (.bar g0 3 3) (barState none)
     u.here.arrived.find (3 : BitVec 4).toNat = none ∧ u.pends u.cur = [] ∧ u.ksq = [] ∧
       (u.arrive u.cur 3 3).map (fun r => r.here.arrived.find (3 : BitVec 4).toNat) =
         some (some ⟨u.here.pc, true, false⟩)) ∧
    (let w : CtxId := ⟨1, true⟩
     let s := (barState (some ⟨1, 0, 3, 2⟩)).updCtx w (fun k => { k with slice := some sliceA, arrived := [(3, ⟨8, true, false⟩)] })
     w ∈ courseCtxs 0 ∧ (3 : BitVec 8).getLsbD (w.core % 8) = true ∧ (s.ctx w).runs 1 0 = true ∧
       (s.ctx w).arrived.find (3 : BitVec 4).toNat = some ⟨8, true, false⟩) := by decide +kernel

/-! ### Exceptions -/

/-- A trap that is being handled, entered at DEPTH 1. -/
def trapA : TrapState := ⟨0x100, 1, 1, [], LoopSt.none, 0, 7, [], []⟩

/-- CausesTaken: UE and POISON outside a region, in one, and in a handler with and without a region opened in it. -/
theorem test_witness_causes :
    (Ctx.reset.trap = none ∧ Ctx.reset.depth = 0) ∧ (let c := { Ctx.reset with depth := 1 }
     c.trap = none ∧ c.depth ≠ 0) ∧
    (let c := { Ctx.reset with depth := 2, trap := some trapA }
     c.trap = some trapA ∧ trapA.floor < c.depth) ∧
    (let c := { Ctx.reset with depth := 1, trap := some trapA }
     c.trap = some trapA ∧ ¬ trapA.floor < c.depth) ∧
    0x0A#8 ∉ [0x20#8, 0x21#8, 0x22#8, 0x23#8, 0x19#8, 0x1A#8] := by decide

/-- What a software trap of slot B says. -/
def infoA : TrapInfo := ⟨1, 0x0A, 0, false, false, 7, 0x100, 0x108, 0, []⟩

/-- TrapEntry: a trap that waits to be entered, of either context. -/
theorem test_witness_trap_entry : ∀ one ∈ [false, true],
    let s := (busy Ctx.reset).updCtx ⟨0, one⟩ (fun k => { k with entering := some infoA, depth := 1, hand := [(0, 0x400)] })
    let k := s.ctx ⟨0, one⟩
    s.boot = .running ∧ k.entering = some infoA ∧ k.interlocked = false ∧ s.pends ⟨0, one⟩ = [] ∧ s.poison = [] ∧
      infoA.ifq.length < 256 ∧ k.withheld.length < 256 := by decide +kernel

/-- A fault of a result of the S slot against the last bundle. -/
def lateA : LateFault := ⟨1, 1, false, 0x100, 0x0D, 0, none⟩

/-- CausesTaken: TRAP in a region; HALT in a slice; a late fault in a region. -/
theorem test_witness_causes_taken :
    (let k := (Claim.issuing (.trap g0 7) (busy { Ctx.reset with depth := 1 })).here
     (busy { Ctx.reset with depth := 1 }).boot = .running ∧ k.edge = none ∧ k.ops = [] ∧ k.flight = [] ∧ k.late = [] ∧ k.ifq = [] ∧
       k.trap = none ∧ k.depth ≠ 0 ∧
       (let t := Claim.issuing (.trap g0 7) (busy { Ctx.reset with depth := 1 })
        t.pends t.cur = [] ∧ t.poison = [])) ∧
    (let t := Claim.issuing (.halt g0) (busy { Ctx.reset with slice := some sliceA })
     t.here.slice = some sliceA ∧ t.here.edge = none ∧ t.here.late = [] ∧ t.here.ops = [] ∧
       t.pends t.cur = [] ∧ t.poison = []) ∧
    (let s := busy { Ctx.reset with slice := some sliceA, late := [lateA], depth := 1, seq := 1 }
     let k := s.ctx ⟨0, false⟩
     s.boot = .running ∧ k.late = [lateA] ∧ k.slice.isSome = true ∧ k.request ≠ .stopped ∧ k.edge = none ∧
       k.entering = none ∧ k.ops = [] ∧ k.flight = [] ∧ k.ifq = [] ∧ k.trap = none ∧ k.depth ≠ 0 ∧
       k.taking lateA.cause = .trap ∧ s.nextFault ⟨0, false⟩ = [] ∧ lateA.seq ≤ k.seq ∧ lateA.cause ≠ 0x0A) := by decide +kernel

/-- ReturnFromTrap: a record whose RETPC is the saved one, and one whose RETPC the handler has changed,
and a poisoned one. -/
theorem test_witness_return :
    let s (b : Byte) : State := { busy { Ctx.reset with trap := some trapA, depth := 1 } with mem := [(0x2017FB91, b)] }
    let t (b : Byte) : State := Claim.issuing (.eret g0) (s b)
    let p (b : Byte) : State := (t b).beforeReturn (t b).cur
    let pc (b : Byte) : DWord := BitVec.ofNat 64 ((p b).readNat (0x20000000 + 0x17FB80 + 16) 8)
    (t 1).here.trap = some trapA ∧ (p 1).here.depth = (t 1).here.depth ∧ pc 1 = trapA.retpc ∧ pc 2 ≠ trapA.retpc ∧
      (p 1).poisoned (0x20000000 + 0x17FB80 + 16) = false ∧
      (Claim.issuing (.eret g0) ({ s 1 with poison := [(0x20000000 + 0x17FB80) / 64] }) |>.beforeReturn ⟨0, false⟩).poisoned
        (0x20000000 + 0x17FB80 + 16) = true ∧
      (let f := (Claim.issuing (.eret g0) ({ s 1 with flaws := [((0x20000000 + 0x17FB80 + 16) / 64, true)] }) |>.beforeReturn ⟨0, false⟩).flaws
       ∃ x ∈ f, x.1 = (0x20000000 + 0x17FB80 + 16) / 64 ∧ x.2 = true) := by
  decide +kernel

/-- Unwind: with nothing on its way, and with a result on its way and an entry of the IFQ behind a trap that is being
handled. -/
theorem test_witness_unwind :
    (let s := busy { Ctx.reset with depth := 1, hand := [(0, 0x400)] }
     s.pends ⟨0, false⟩ = [] ∧ s.poison = [] ∧ (s.ctx ⟨0, false⟩).withheld.length < 256 ∧ (s.ctx ⟨0, false⟩).ops = []) ∧
    (let g : Flight := ⟨1, 1, 9, .s 3, 1, 1, 1, 0, none, false⟩
     let x : IfqEntry := ⟨1, 1, 1, .s 4, 2⟩
     let s := busy { Ctx.reset with depth := 2, trap := some { trapA with ifq := [x] }, flight := [g] }
     let q := s.capture ⟨0, false⟩
     (∀ g ∈ (s.ctx ⟨0, false⟩).flight, 0 < g.due) ∧ q.2.length = 1 ∧ x ∈ ({ trapA with ifq := [x] } : TrapState).ifq ∧
       x.dest ≠ .x 15 ∧ x.lanes.getLsbD 0 = true) := by decide +kernel

/-! ### Cycles -/

/-- A core of space 1 whose contexts run slices at addresses of one page of code. -/
def cycleState (pc0 pc1 : DWord) (both : Bool) : State :=
  let s := ({ State.reset with boot := .running } : State).placeFetch [0x00010002, 0x000C70BC, 0x00010001, 0x00A00003, 0x00010000]
  s.updCore 0 (fun k => { k with
    ctx0 := { k.ctx0 with pc := pc0, npc := pc0 }
    ctx1 := if both then { Ctx.reset with slice := some sliceA, pc := pc1, npc := pc1 } else k.ctx1 })

/-- Whether a head is a ready bundle. -/
def isReady (h : Head) : Bool := match h with | .ready _ _ => true | _ => false

/-- CoreCycle: a frozen core; two ready bundles that pair, two that collide, one alone in either context; contexts that have
issued in different cycles, in the same one, and not at all. -/
theorem test_witness_cycle :
    (let s := { busy Ctx.reset with cores := [(0, { Core.reset with frozen := some (true, 7, 4) })] }
     s.boot = .running ∧ ((Claim.cycleStart (Claim.atCycle s 0) 0).core 0).frozen =
       some (true, 7, 4)) ∧
    (∀ p ∈ [(cycleState 0 8 true, true, true), (cycleState 0 0 true, true, true), (cycleState 0 0 false, true, false)],
      let u := Claim.atMerge (Claim.atCycle p.1 0) 0
      Claim.frozen (Claim.atCycle p.1 0) 0 = false ∧ isReady (u.head ⟨0, false⟩).2 = p.2.1 ∧
        isReady ((u.head ⟨0, false⟩).1.head ⟨0, true⟩).2 = p.2.2) ∧
    (let s := (cycleState 0 0 true).updCtx ⟨0, false⟩ (fun k => { k with slice := none })
     let u := Claim.atMerge (Claim.atCycle s 0) 0
     (u.head ⟨0, false⟩).2 = .idle ∧ isReady ((u.head ⟨0, false⟩).1.head ⟨0, true⟩).2 = true) ∧
    (let s (a b : BitVec 2) : State := ((busy { Ctx.reset with own := a, lastIssue := some 5 }).updCtx ⟨0, true⟩ (fun k =>
       { k with own := b, lastIssue := some 4 }))
     (s 0 1).eff ⟨0, false⟩ < (s 0 1).eff ⟨0, true⟩ ∧ (s 1 0).eff ⟨0, true⟩ < (s 1 0).eff ⟨0, false⟩ ∧
       (s 1 1).eff ⟨0, false⟩ = (s 1 1).eff ⟨0, true⟩) := by decide +kernel

/-- EmptyBundles: a context that may issue, with no words held; a bundle that its guards null. -/
theorem test_witness_empty :
    (let s := (cycleState 16 0 false).updCtx ⟨0, false⟩ (fun k => { k with lastIssue := some 0 })
     let u := Claim.atMerge s 0
     let k := u.ctx ⟨0, false⟩
     s.cur = ⟨0, false⟩ ∧ s.boot = .running ∧ Claim.frozen s 0 = false ∧ k.mayIssue (u.core 0).cycle = true ∧ k.held = [] ∧
       k.flight = [] ∧ k.ifq = [] ∧ k.loop.depth = 0 ∧ k.lastIssue ≠ none ∧ u.cur = ⟨0, false⟩ ∧ (1 : BitVec 16) ≠ 0 ∧
       k.repcnt = 0) ∧
    (let s := ({ State.reset with boot := .running } : State).placeFetch [0x00010002, 0x040C70BC]
     let d := s.landDue ⟨0, false⟩ ((s.core 0).cycle + 1)
     let v := d.nextCycle ⟨0, false⟩
     s.boot = .running ∧ v.here.mayIssue v.cycle = true ∧ (d.ctx ⟨0, false⟩).loop.depth = 0 ∧ (d.ctx ⟨0, false⟩).edge = none ∧
       (match s.fetchBundle 0 v.here.pc with
        | .ok f => (match v.here.plan f with
          | .ok p => v.droppable p (v.acting p.ops)
          | .error _ => false)
        | .error _ => false) = true) := by decide +kernel

/-- EarlyLandings: a result on its way, a WRC of each of the three registers, and landing registers before and at their due
cycle, with and without data, and behind a freeze. -/
theorem test_witness_landings :
    (∀ d ∈ [Dest.s 3, .cr 5 0, .cr 0 0, .cr 0x17 0],
      let f : Flight := ⟨1, 1, 9, d, 1, 1, 1, 0, none, false⟩
      let s := busy { Ctx.reset with flight := [f] }
      (s.ctx ⟨0, false⟩).flight[0]? = some f ∧ f.landed = false ∧ f.src = none ∧ f.live.getLsbD 0 = true) ∧
    ((busy { Ctx.reset with flight := [⟨1, 1, 9, .cr 5 0, 1, 1, 1, 0, none, false⟩] }).ctx ⟨0, false⟩).pendingWrc (fun r => r == 0x05) =
      some 0 ∧
    ((busy { Ctx.reset with flight := [⟨1, 1, 9, .cr 0 0, 1, 1, 1, 0, none, false⟩] }).ctx ⟨0, false⟩).pendingWrc (fun r => r == 0x00) =
      some 0 ∧
    ((busy { Ctx.reset with flight := [⟨1, 1, 9, .cr 0x17 0, 1, 1, 1, 0, none, false⟩] }).ctx ⟨0, false⟩).pendingWrc
      (fun r => r == 0x10#8 + (7 : BitVec 3).setWidth 8) = some 0 ∧
    (∀ p ∈ [((1 : Nat), (none : Option Vec)), (1, some 5), (2, none)],
      let s := busy { Ctx.reset with l := [(7, .pending 0 p.1 p.2 none)] }
      SMap.get .empty (s.ctx ⟨0, false⟩).l (7 : BitVec 3).toNat = .pending 0 p.1 p.2 none ∧ (s.core 0).frozen = none) ∧
    (busy Ctx.reset).core 0 = { Core.reset with tag := some 0 } ∧ (0 + 1 < 2) ∧ (1 ≤ 0 + 1) ∧
    (let o := memOp (.load (.landing 7)) true
     let s := busy { Ctx.reset with ops := [o], l := [(7, .pending 0 1 none none)] }
     (s.ctx ⟨0, false⟩).landingOp 7 = some o ∧ o.id = 0) := by decide +kernel

/-- SlicePhases: YIELD from the prologue and from the last kernel pass, NDONE, and a slice that starts; SlicesCover. -/
theorem test_witness_slices :
    (∀ sl ∈ [sliceA, { sliceA with phase := .kernel, iter := 1, passOpen := true }],
      let t := Claim.issuing (.yield g0) (graphState [(0, nodeA)] { Ctx.reset with slice := some sl })
      t.here.slice = some sl ∧ t.nodeOf sl.graph sl.node = some nodeA ∧ t.here.request = .none) ∧
    (let s := { graphState [(0, { nodeA with state := .ready })] Ctx.reset with
       courses := [(0, { Course.reset with space := some 0, fallback := [(0, ⟨false, true, 0, 0x2000⟩)] })] }
     s.boot = .running ∧ s.awake 0 = true ∧ s.freeOn 0 = some ⟨0, false⟩ ∧
       (s.waiting 0).head? = some ⟨false, true, 0, 0x2000⟩ ∧ s.entryNode 0 ⟨false, true, 0, 0x2000⟩ = some (1, 0) ∧
       (s.graphs.find 1).isSome = true ∧ s.nodeOf 1 0 = some { nodeA with state := .ready } ∧ s.flaws = []) ∧
    (∀ ops ∈ [[], [memOp (.store 7) true]],
      let t := Claim.issuing (.ndone g0) (graphState [(0, nodeA)] { Ctx.reset with slice := some sliceA, ops := ops })
      (t.settled t.cur && t.here.late.isEmpty && !t.here.pendingLanding) = ops.isEmpty ∧ t.here.slice = some sliceA ∧
        t.nodeOf sliceA.graph sliceA.node = some nodeA) ∧
    (busy { Ctx.reset with request := .retiring }).here.request = .retiring ∧
    0 < 4 ∧ nodeA.perm[1]? = some 1 ∧ nodeA.perm.Nodup ∧ (0 < sliceA.count) := by decide +kernel

/-- ResultsOnTheirWay: a part that a result on its way writes, one that the IFQ holds, one that an unwind has left, and parts
that read as they stand; a later slot's result of the bundle at hand. -/
theorem test_witness_on_their_way :
    let f : Flight := ⟨0, 1, 9, .v 2, 1, 0xF, 0xF, 0, none, false⟩
    let k : Ctx := { Ctx.reset with seq := 1, flight := [f], ifq := [⟨1, 1, 1, .s 4, 2⟩], unpred := [((Dest.p 5).site, 4)] }
    let s := busy k
    f ∈ s.here.flight ∧ f.lanes.getLsbD 3 = true ∧ f.lanes.getLsbD 4 = false ∧ f.landed = false ∧ f.seq ≠ s.here.seq ∧
      (∃ x ∈ s.here.ifq, x.dest = .s 4 ∧ x.lanes.getLsbD 0 = true) ∧
      (SMap.get 0 s.here.unpred (Dest.p 5).site).getLsbD 2 = true ∧ (SMap.get 0 s.here.unpred (Dest.p 5).site).getLsbD 1 = false ∧
      (let g : Flight := { f with seq := 1, slot := 3 }
       let t := { busy { k with flight := [g] } with slot := 1 }
       g ∈ t.here.flight ∧ g.seq = t.here.seq ∧ t.slot < g.slot) := by decide +kernel

/-- CoreCycle: a context that waits at a barrier for another one of the course. -/
theorem test_witness_waits :
    let w : CtxId := ⟨0, false⟩
    let s := (barState (some ⟨1, 0, 3, 1⟩)).updCtx w (fun k => { k with arrived := [(3, ⟨0, true, false⟩)], own := 2 })
    let t := s.updCtx ⟨1, false⟩ (fun k => { k with slice := some sliceA })
    let r : Barrier := ⟨1, 0, 3, 1⟩
    (3, ⟨0, true, false⟩) ∈ (t.ctx w).arrived ∧ SMap.get none (t.course 0).barriers 3 = some r ∧ r.mask.getLsbD 1 = true ∧
      r.arrived.getLsbD 1 = false ∧ (t.ctx ⟨1, false⟩).runs r.graph r.node = true ∧ t.eff ⟨1, false⟩ = 2 := by decide +kernel

/-- Loops: a LOOP of a kernel whose pass is open, of a kernel whose pass has ended, and of a handler; back-edges that end a
loop of a kernel, and of a handler that stands in a kernel; a device that does not run. -/
theorem test_witness_passes :
    (∀ p ∈ [(true, none), (false, none), (false, some trapA)],
      let sl : Slice := { sliceA with phase := .kernel, passOpen := p.1 }
      let t := Claim.issuing (.loop g0 0 1 20) (graphState [(0, nodeA)] { loopCtx [] none with slice := some sl, trap := p.2 })
      t.here.slice = some sl ∧ sl.phase = .kernel ∧ t.here.trap = p.2 ∧ t.nodeOf sl.graph sl.node = some nodeA ∧
        ∀ j ≤ (1 : BitVec 3).toNat, (t.readS (20 + BitVec.ofNat 6 (2 * j))).toNat % 2 ^ 28 ≠ 0) ∧
    (∀ p ∈ [none, some trapA],
      let sl : Slice := { sliceA with phase := .kernel, passOpen := true }
      let s := graphState [(0, nodeA)] { loopCtx [(0, 1), (1, 2)] (some ⟨none, 0, 0⟩) with slice := some sl, trap := p }
      s.boot = .running ∧ s.here.edge = some ⟨none, 0, 0⟩ ∧ s.here.slice = some sl ∧ s.here.request = .none ∧ s.here.trap = p ∧
        s.here.inKernel = p.isNone) ∧
    ({ busy (loopCtx [] (some ⟨none, 0, 0⟩)) with boot := .fatal } : State).boot ≠ .running := by decide +kernel

/-- Barriers: the only participant of a mask; a BAR that completes at once; one that mismatches. -/
theorem test_witness_sole_participant :
    (let bit : BitVec 8 := 1#8 <<< (0 % 8)
     SMap.get none ((barState none).course 0).barriers (3 : BitVec 4).toNat = none ∧ (1 : BitVec 8) = bit ∧
       ((barState none).ctx ⟨0, false⟩).runs sliceA.graph sliceA.node = true) ∧
    (let u := Claim.issuing (.bar g0 3 1) (barState none)
     u.here.arrived.find (3 : BitVec 4).toNat = none ∧ u.pends u.cur = [] ∧
       (u.arrive u.cur 3 1).map (fun r => r.here.arrived.find (3 : BitVec 4).toNat) = some (some ⟨u.here.pc, true, true⟩)) ∧
    (let u := Claim.issuing (.bar g0 3 3) (barState (some ⟨1, 0, 7, 2⟩))
     u.here.arrived.find (3 : BitVec 4).toNat = none ∧ u.pends u.cur = [] ∧ (u.arrive u.cur 3 3).isNone = true) := by
  decide +kernel

/-- EarlyLandings: a late load of a plumb course that has performed; a core that is frozen already; an arrival at a freeze, with
room in the SQ and with none. -/
theorem test_witness_freeze :
    (let o := memOp (.load (.landing 7)) true
     let s : State := { busy { Ctx.reset with ops := [o], l := [(7, .pending 0 1 none none)] } with
       courses := [(0, { Course.reset with plumb := true })] }
     SMap.get .empty (s.ctx ⟨0, false⟩).l (7 : BitVec 3).toNat = .pending 0 1 none none ∧ 1 ≤ (s.core 0).cycle + 1 ∧
       (s.course (0 / 8)).plumb = true ∧ (s.ctx ⟨0, false⟩).findOp 0 = some o ∧
       ∀ x ∈ (s.ctx ⟨0, false⟩).ops, x.id = 0 → x.performed = true) ∧
    (∀ n ∈ [0, 256],
      let o := memOp (.load (.landing 7)) true
      let s := (busy { Ctx.reset with ops := [o], l := [(7, .pending 0 1 none none)] }).updCore 0 (fun k => { k with
        frozen := some (false, 7, 4), sq := List.replicate n 0 })
      (s.ctx ⟨0, false⟩).landingOp 7 = some o ∧ o.id = 0 ∧ (s.core 0).frozen = some (false, 7, 4) ∧ (s.core 0).frozen ≠ none ∧
        (s.core 0).sq.length = n) := by decide +kernel

/-- SlicePhases: no cancellation is at its writes. -/
theorem test_witness_no_writes : (∀ x ∈ (busy Ctx.reset).cancels, x.todo = none) ∧
    ∀ x ∈ ({ busy Ctx.reset with cancels := [⟨1, some 0, [1], none⟩] } : State).cancels, x.todo = none := by decide
/-! ### The array -/

/-- An array operation of ctx0 that has issued. -/
def arrayOp (i : Instr) (af : BitVec 2) : ArrayOp := ⟨0, false, 1, false, 0, i, 0, 0, 0xFFFFFFFF, 0, 0, af, 0, 0, 0, none⟩

def arrayState (i : Instr) (af : BitVec 2) : State :=
  (busy Ctx.reset).updCore 0 (fun k => { k with aq := [arrayOp i af] })

/-- ArrayCompletes, FactorResults, MultiplyResults: each form at the head of the array; a DRAIN with entries to write, a tile
move, an ACCT and an ACCST. -/
theorem test_witness_array :
    (∀ i ∈ [Instr.accz u0 2, .drain u0 2 1, .accld u0 2 1, .cbld u0 1 0, .spld u0 1, .mma u0 0 2 1 1 false false false false,
        .mmaS u0 5 2 1 1 false true false false, .mmaK4 u0 2 1 1 ⟨6, false, false, false, false⟩, .getrf u0 2 false false, .potrf u0 2 false true,
        .trsm u0 2 1 false 2, .givqr u0 2 1 false, .rotapp u0 2 1 false true],
      let s := arrayState i 0
      (s.core 0).aq = arrayOp i 0 :: [] ∧ s.poison = [] ∧ s.flaws = [] ∧ (arrayOp i 0).seen = none ∧
        ∀ p ∈ s.pends ⟨0, (arrayOp i 0).one⟩, (arrayOp i 0).before ≤ p.id) ∧
    (arrayOp (.drain u0 2 1) 0).drained < drainEntries (arrayOp (.drain u0 2 1) 0).af ∧
    (let o : MemOp := ⟨5, 0, 1, 5, false, 0, 0, 0, 0, 0, 0x0C, [], .move 1 0x00FF [(0, 5)], false, 0, 0, [], []⟩
     let s := opState o
     (s.ctx ⟨0, false⟩).ops = o :: [] ∧ o.slot = 5 ∧ o.id % 16 = 5 ∧ o.performed = false) ∧
    (let o : MemOp := ⟨5, 0, 1, 5, false, 0, 0, 0, 0, 32, 0x0D, [⟨0, .key 0x2017FC00, 32⟩], .load (.desc 15), true, 7, 0, [], []⟩
     (opState o |>.ctx ⟨0, false⟩).ops = o :: [] ∧ o.slot = 5 ∧ o.id % 16 = 5 ∧ o.act = .load (.desc 15) ∧ o.performed = true) ∧
    (let o : MemOp := { memOp (.store 7) false with id := 5, slot := 5, opc := 0x0A }
     let s := opState o
     (s.ctx ⟨0, false⟩).ops = o :: [] ∧ o.slot = 5 ∧ o.id % 16 = 5 ∧ s.mayPerform ⟨0, false⟩ o = true ∧
       s.locate 0 .write o.frags = .ok opCells ∧ s.poison = [] ∧ s.flaws = []) := by
  decide +kernel

/-- FactorResults: a resumed factorisation of a step below 16; TRSM with a zero on the diagonal, with none, and with the unit
diagonal; the cases of the largest magnitude. -/
theorem test_witness_factor :
    (let x : ArrayOp := { arrayOp (.getrf u0 2 false true) 0 with brk := 15 * 2 ^ 16 }
     x.brk.toNat / 2 ^ 16 % 2 ^ 8 < 16) ∧
    (Fmt.f32.value (accPattern Fmt.f32 (Ctx.reset.tile 1 |>.el 0 0))).isZero = true ∧ (0xA : BitVec 4).getLsbD 1 = true ∧
    (let y : Tile := (List.range 16).map (fun i => (17 * i, 0x3F800000))
     ∀ i < 16, (Fmt.f32.value (accPattern Fmt.f32 (y.el i i))).isZero = false) ∧
    ([Machine.Num.nan false].any (fun q => q.isNan) = true ∧ [Machine.Num.inf true].any (fun q => q.isInf) = true ∧
      [Machine.Num.fin true 3 0].any (fun q => q.isInf) = false) := by decide +kernel

/-- MultiplyResults: operands that fit, dense and 2:4 sparse, with a bad pattern word and without one; a K4 operand whose book
is unset; LoadFormResults: a codebook image of zeros, which is bad, and one that is not. -/
theorem test_witness_multiply :
    let dense (cols rows : Nat) : Descr := Descr.of (BitVec.ofNat 256 (0x1000 + 64 * 2 ^ 32 + rows * 2 ^ 64 + cols * 2 ^ 80))
    (dense 16 16).cols = 16 ∧ (dense 16 16).rows = 16 ∧ (dense 16 16).spk < 4 ∧ patternBad 0 0 = false ∧
    patternBad 0 0xFFFFFFFF = true ∧ (1 : BitVec 4) ≠ 5 ∧
    ((busy Ctx.reset).k4Fault Ctx.reset 0 [] [⟨dense 16 16, 1, false, 0xFFFFFFFF⟩, ⟨dense 16 16, 1, true, 0⟩]).isSome = true ∧
    (let k : Ctx := { Ctx.reset with cb := [(0, ⟨0x3F80 <<< 16, 0⟩)] }
     (busy k).k4Fault k 0 [] [⟨dense 16 16, 1, false, 0xFFFFFFFF⟩, ⟨dense 16 16, 1, true, 0⟩] = none) ∧
    ((busy Ctx.reset).readNat 0x20001000 2 = 0 ∧ (busy Ctx.reset).byte 0x20001022 = 0) ∧
    (let s : State := { busy Ctx.reset with mem := [(0x20001002, 0x80), (0x20001003, 0x3F)] }
     s.readNat 0x20001000 2 = 0 ∧ (Fmt.bf16.value (s.readNat 0x20001002 2)).isZero = false ∧
       (Fmt.bf16.value (s.readNat 0x20001002 2)).isInf = false ∧ (Fmt.bf16.value (s.readNat 0x20001002 2)).isNan = false) := by
  decide +kernel

/-! ### Graphs and nodes -/

/-- RecordFields: a graph, a node, and a core with an empty deque. -/
theorem test_witness_records :
    let s : State := (graphState [(0, nodeA)] Ctx.reset).updCore 0 (fun k => { k with dqbase := 0x17F000, dqlim := 0x17FB80 })
    s.poison = [] ∧ s.flaws = [] ∧ s.graphs.find 1 = some (graphA [(0, nodeA)]) ∧ s.nodeOf 1 0 = some nodeA ∧
      (s.core 0).dqbase ≠ (s.core 0).dqlim ∧ s.waiting 0 = [] := by decide +kernel

/-- GraphMessages: a launch whose record no page maps, beads with and without a node, and one to an armed node. -/
theorem test_witness_messages :
    (let m : KsMsg := .launch none 0 0x1000
     let s := { graphState [(0, { nodeA with state := .armed })] Ctx.reset with ksq := [m] }
     s.boot = .running ∧ s.poison = [] ∧ s.flaws = [] ∧ s.ksq[0]? = some m ∧ s.mayTake 0 m = true ∧
       s.ksRead 0 (0x1000 : DWord).toNat 64 = none) ∧
    (∀ p ∈ [((0x2000 : DWord), some (1, 0)), (0x8000, none)],
      let m : KsMsg := .bead none 0 p.1 63
      let s := { graphState [(0, { nodeA with state := .armed })] Ctx.reset with ksq := [m] }
      s.ksq[0]? = some m ∧ s.mayTake 0 m = true ∧ s.findNode 0 p.1.toNat = p.2) ∧
    (let n := { nodeA with state := .armed }
     n.state = .armed ∧ (63 < 64) ∧ n.arrive.getLsbD 63 = false) := by decide +kernel

/-- A device with a course whose cores 0 and 1 have entries that wait, and a context. -/
def waitState (ns : SMap Node) (es : List (Nat × DequeEntry)) (r : List (Nat × Nat)) (k : Ctx) : State :=
  { graphState ns k with courses := [(0, { Course.reset with space := some 0, fallback := es, ready := r })] }

/-- NodesMove: a node to dispatch, an entry to steal, a node whose slices have all retired, a node that was killed. -/
theorem test_witness_nodes :
    (let s := waitState [(0, { nodeA with state := .ready })] [] [(1, 0)] Ctx.reset
     s.boot = .running ∧ s.nextDispatch 0 = some ((1, 0), [0])) ∧
    (let e : DequeEntry := ⟨false, false, 0, 0x2000⟩
     let s : State := { (waitState [(0, nodeA)] [] [] Ctx.reset).updCore 1 (fun k => { k with
       dqbase := 0x17F000, dqlim := 0x17FB80 }) with mem := [(0x2037F004, 1), (0x2037F041, 0x20)] }
     s.awake 0 = true ∧ (s.course (0 / 8)).plumb = false ∧ s.idleCore 0 = true ∧ s.robbery 0 = some (1, 0, e) ∧
       s.flaws = []) ∧
    (let s := waitState [(0, { nodeA with unretired := 0 })] [] [] Ctx.reset
     (s.nodeOf 1 0).map (fun n => (n.state, n.unretired)) = some (.running, 0) ∧ s.groupOf 1 0 = none) ∧
    (let r : Replica := ⟨0, 0x1000, [], [0], [0, 1], 0, 100, none, 5, [], none, 0⟩
     let s := { waitState [(0, { nodeA with unretired := 0 })] [] [] Ctx.reset with replicas := [r] }
     (s.nodeOf 1 0).map (fun n => (n.state, n.unretired)) = some (.running, 0) ∧ s.groupOf 1 0 = some r) ∧
    (let s := waitState [(0, { nodeA with killing := true })] [] [] Ctx.reset
     (s.nodeOf 1 0).map (fun n => (n.state, n.killing, n.unretired)) = some (.running, true, 1) ∧ s.anyRuns 1 0 = false) := by
  decide +kernel

/-- A victim of few tokens, and a core whose two contexts run its slices while a node of more tokens waits. -/
def victimA (drain ckpt : Bool) : Node :=
  { nodeA with tokens := 1, drain := drain, ckpt := ckpt, kill := false, estimate := 100 }

def contestState (v : Node) : State :=
  (waitState [(0, v), (1, { nodeA with addr := 0x2080, state := .ready, tokens := 9 })] [(0, ⟨false, false, 0, 0x2080⟩)] []
    { Ctx.reset with slice := some sliceA }).updCtx ⟨0, true⟩ (fun k => { k with slice := some { sliceA with lidx := 1 } })

/-- NodesMove: the four outcomes of a contest. -/
theorem test_witness_contest : ∀ p ∈ [(true, true, false), (false, true, false), (false, false, true), (false, false, false)],
    let v := { victimA p.1 p.2.1 with kill := p.2.2, idem := p.2.2 }
    (contestState v).contest 0 = some (⟨false, false, 0, 0x2080⟩, ⟨0, true⟩, { sliceA with lidx := 1 }, v) ∧
      v.estimate - 0 < (contestState v).mgmt.drainth.toNat ∧ (v.kill && v.idem) = p.2.2 := by decide +kernel

/-- SlicesStop: a kill at an IB boundary and at its deadline, a stopped context and a checkpoint that have settled. -/
theorem test_witness_kills :
    (let s := busy { Ctx.reset with slice := some sliceA, request := .kill 0, lastIb := true }
     (s.ctx ⟨0, false⟩).request = .kill 0 ∧ (s.ctx ⟨0, false⟩).lastIb = true) ∧
    (let s := (busy { Ctx.reset with request := .kill 0 }).updCore 0 (fun k => { k with cycle := 512 })
     (s.ctx ⟨0, false⟩).request = .kill 0 ∧ 0 + 512 ≤ (s.core 0).cycle) ∧
    (∀ r ∈ [Request.stopped, .saving],
      let s := busy { Ctx.reset with slice := some sliceA, request := r }
      (s.ctx ⟨0, false⟩).request = r ∧ s.settled ⟨0, false⟩ = true ∧ (s.ctx ⟨0, false⟩).dataHere = true ∧
        (s.ctx ⟨0, false⟩).late = []) := by decide +kernel

/-- Cancellation: the fault of a RUNNING node and of one that is not, a cancellation whose slices have all stopped, and a cone
with a member. -/
theorem test_witness_cancellation :
    (∀ st ∈ [NState.running, .cancelled],
      let m : KsMsg := .fault 1 0 0 0 0x20 0x100
      let s := { graphState [(0, { nodeA with state := st })] Ctx.reset with ksq := [m] }
      s.boot = .running ∧ s.ksq[0]? = some m ∧ s.nodeOf 1 0 = some { nodeA with state := st } ∧ nodeA.attempt = 0) ∧
    (let y : Cancel := ⟨1, some 0, [1], none⟩
     let s := { graphState [(0, nodeA), (1, { nodeA with addr := 0x2080, state := .cancelled })] Ctx.reset with cancels := [y] }
     s.cancels[0]? = some y ∧ s.allStopped y = true ∧ y.members.Nodup ∧
       ∀ m ∈ y.members, (s.nodeOf 1 m).isSome = true) ∧
    1 ∈ (graphA [(0, nodeA), (1, { nodeA with addr := 0x2080, state := .armed })]).cone 0 := by decide +kernel

/-- A translation of the first 2 MiB of space 0, which its pool of one slot takes up. -/
def poolState (k : Ctx) : State :=
  { graphState [(0, nodeA)] k with
    spaces := [(0, ⟨0x9402F90000, [], some (0, 1), []⟩)], tlb := [⟨0, 0, 0x200000, 0x0F⟩] }

/-- Checkpoints: a slice that may be saved where the pool has a slot and where it has none, with a footprint in form and not;
an entry that waits for its image, which cannot be read. -/
theorem test_witness_checkpoints :
    (([] : List Byte).length = (⟨0, 0⟩ : Footprint).len ∧ Ctx.reset.ifq.length ≤ 64 ∧
      ∀ i < 4, (SMap.get [] Ctx.reset.q i).length ≤ 16) ∧
    (let k : Ctx := { Ctx.reset with slice := some sliceA, request := .saving }
     let s := poolState k
     s.boot = .running ∧ s.flaws = [] ∧ s.poison = [] ∧ s.settled ⟨0, false⟩ = true ∧ k.dataHere = true ∧ k.late = [] ∧
       k.hasStopped = false ∧ (∀ l < 8, (SMap.get .empty k.l l).poisoned = false) ∧
       (footprint 0 0x17F000 0x17FB80).isSome = true ∧ footprint 1 0x17F000 0x17FB80 = none ∧
       (s.freeSlot 0).isSome = true ∧ (graphState [(0, nodeA)] k).freeSlot 0 = none) ∧
    (let i : Image := ⟨sliceA, 0x100, 0⟩
     let s : State := { waitState [(0, nodeA)] [(0, ⟨true, true, 0, 0x2000⟩)] [] Ctx.reset with images := [i] }
     s.awake 0 = true ∧ s.freeOn 0 = some ⟨0, false⟩ ∧ (s.waiting 0).head? = some ⟨true, true, 0, 0x2000⟩ ∧
       s.entryNode 0 ⟨true, true, 0, 0x2000⟩ = some (1, 0) ∧ s.imageOf 1 0 0 = some i ∧
       (s.readImage ⟨0, false⟩ 0 0).2 = none) := by decide +kernel

/-- Checkpoints: the bytes of an image of any length up to 2 MiB have a place in that pool. -/
theorem test_witness_pool_keys (k : Ctx) (n : Nat) (h : n ≤ 0x200000) : ∃ ks, (poolState k).recordKeys 0 .write 0 n = some ks := by
  have one : ∀ v < 0x200000, ∃ x, (poolState k).translate 0 v .write = .ok x := fun v hv => by
    have l : (poolState k).leafKey ⟨0x0F, 0x200000⟩ v .write = .ok (hbmKey (0 + v % 0x200000)) := by
      unfold State.leafKey
      dsimp only
      rw [show entryTgt 0x0F = 0 by decide, show entryAddr 0x0F = 0 by decide]
      change (if hbmReserved < 0 + 0x200000 then _ else if (!grants 0x0F .write) = true then _ else _) = _
      rw [if_neg (by decide), if_neg (by decide)]
    have c : (poolState k).cached 0 v = some ⟨0x0F, 0x200000⟩ := by simp [State.cached, poolState, hv]
    refine ⟨hbmKey (0 + v % 0x200000), ?_⟩
    unfold State.translate
    rw [show (poolState k).spaces.find 0 = some ⟨0x9402F90000, [], some (0, 1), []⟩ from rfl]
    dsimp only
    rw [c]
    exact l
  have many : ∀ m v, v + m ≤ 0x200000 → ∃ ks, (poolState k).translateRange 0 .write v m = .ok ks := by
    intro m
    induction m with
    | zero => exact fun v _ => ⟨[], rfl⟩
    | succ m ih =>
      intro v hv
      obtain ⟨x, hx⟩ := one v (by omega)
      obtain ⟨ks, hk⟩ := ih (v + 1) (by omega)
      have hm : v % 72057594037927936 = v := Nat.mod_eq_of_lt (by omega)
      exact ⟨x :: ks, by simp [State.translateRange, hm, hx, hk]⟩
  obtain ⟨ks, hk⟩ := many n 0 (by omega)
  exact ⟨ks, by unfold State.recordKeys; rw [if_neg (by omega), hk]⟩

/-! ### The device and its host -/

/-- A replica group of devices 0 and 1, at a boundary, and the digest that its other member sends. -/
def replicaA : Replica := ⟨0, 0x1000, [], [0], [0, 1], 0, 100, some (1, 0), 5, [], none, 0⟩
def digestA : Digest := ⟨1, 0x1000, 0, 5⟩

/-- DevicePower: a digest of another member, of no group, that is not the last one; the end of DIGTIME; agreement and not. -/
theorem test_witness_replicas :
    (let s := { graphState [(0, nodeA)] Ctx.reset with replicas := [replicaA], digests := [digestA] }
     s.boot = .running ∧ s.digests.findIdx? s.mayHear = some 0 ∧ s.digests[0]? = some digestA ∧
       s.hearer digestA = some replicaA ∧ ({ replicaA with held := replicaA.held.put 1 5 } : Replica).complete s.devid = true ∧
       ({ replicaA with members := [0, 1, 2], held := [(1, 5)] } : Replica).complete s.devid = false ∧
       s.replicas.find? (fun r => r.waiting.isSome) = some replicaA ∧ replicaA.waiting = some (1, 0) ∧
       s.storesTo (s.regionKeys replicaA) = false ∧ s.regionBytes 0 replicaA.regions = some []) ∧
    (let s := { graphState [(0, nodeA)] Ctx.reset with digests := [digestA] }
     s.digests.findIdx? s.mayHear = some 0 ∧ s.hearer digestA = none) ∧
    ({ replicaA with held := [(1, 5)] } : Replica).agrees 0 = true ∧
    ({ replicaA with held := [(1, 6)] } : Replica).agrees 0 = false ∧
    ({ replicaA with members := [0, 1, 2], held := [(1, 6), (2, 6)] } : Replica).outvoted 0 = some 6 := by decide +kernel

/-- DevicePower: courses idle and waking and not plumb, a point that the monitor allows, a twin pair with a mismatch. -/
theorem test_witness_power :
    (let s := { busy Ctx.reset with tick := 72000 }
     s.boot = .running ∧ s.idleCourse 31 = true ∧ (s.course 31).gated = false ∧ (s.course 31).idleSince + 72000 ≤ s.tick ∧
       (s.course 31).plumb = false) ∧
    (let k : Ctx := { Ctx.reset with slice := some sliceA }
     let s := { (busy k).updCore 0 (fun x => { x with pair := [(k, Ctx.reset), (k, Ctx.reset), (k, Ctx.reset)] }) with
       courses := [(0, { Course.reset with waking := true, twin := true })] }
     (s.course 0).waking = true ∧ s.boot = .running ∧ (s.course (0 / 8)).twin = true ∧ 0 % 2 = 0 ∧
       (s.core 0).pair[2]? = some (k, Ctx.reset) ∧ k.slice.isSome = true ∧ k.pc = 0 ∧
       (s.ctx ⟨0, false⟩).slice = some sliceA ∧ (s.ctx ⟨0, false⟩).request ≠ .stopped) := by decide +kernel

/-- DevicePower: points that the monitor allows, whatever else it does. -/
theorem test_witness_point : allowsPoint 3600 675 = true ∧
    allowsPoint (min Course.reset.mhz 3600) (min Course.reset.mv 675) = true := ⟨rfl, rfl⟩

/-- DevicePower: links that are up; beats with no, one and two erasures, and one beside a fenced rail; a rail that is due to be
fenced, a retraining, a link that has failed 9 times. -/
theorem test_witness_links :
    let up : Port := { Port.reset with up := true }
    let n (fenced erased : BitVec 5) : Nat := ((List.range 5).filter (fun j => (erased &&& ~~~fenced).getLsbD j)).length
    (({ State.reset with ports := [(17, up)] } : State).port 17).up = true ∧ 17 < 18 ∧ n 0 0 = 0 ∧ n 0 16 = 1 ∧ n 0 3 = 2 ∧
      n 1 16 = 1 ∧ n 1 17 = 1 ∧
    (let s : State := { State.reset with ports := [(17, { up with runs := [(4, 16)] })] }
     (List.range 18).findSome? (fun l => (s.port l).toFence.map (fun i => (l, i))) = some (17, 4)) ∧
    (let s : State := { State.reset with ports := [(17, up)], retrains := [17] }
     s.retrains = 17 :: [] ∧ 17 < 18 ∧ (s.port 17).up = true) ∧
    (∀ l ∈ [12, 17, 18, 19],
      let s : State := { State.reset with ports := [(l, { up with fails := 9 })] }
      (List.range 20).find? (fun l => decide (9 ≤ (s.port l).fails) && (s.port l).up) = some l ∧ 12 ≤ l) ∧
    (({ State.reset with ports := [(19, up)] } : State).port 19).up = true := by decide +kernel

/-- DevicePower: a store in flight on a scale-up port that goes down. -/
theorem test_witness_cut :
    let o : MemOp := { memOp (.store 7) false with frags := [⟨0, .key (peerKey 1 0), 8⟩] }
    let s : State := { opState o with routes := [(1, 1)], ports := [(0, { Port.reset with up := true, fails := 9 })] }
    (List.range 20).find? (fun l => decide (9 ≤ (s.port l).fails) && (s.port l).up) = some 0 ∧ ⟨0, false⟩ ∈ allCtxs ∧
      s.opsOnPort 0 ⟨0, false⟩ = [o] ∧ o.isRmw = false ∧ o.posted = true ∧ (s.ctx ⟨0, false⟩).copies = [] ∧
      (s.ctx ⟨0, false⟩).orphans = [] ∧
      ∀ d : CtxId, d ≠ ⟨0, false⟩ → (s.ctx d).ops = [] ∧ (s.ctx d).copies = [] ∧ (s.ctx d).orphans = [] := by
  refine ⟨by decide +kernel, by decide +kernel, by decide +kernel, rfl, rfl, rfl, rfl, fun d h => ?_⟩
  obtain ⟨n, one⟩ := d
  match n, one with
  | 0, false => exact absurd rfl h
  | 0, true => exact ⟨rfl, rfl, rfl⟩
  | n + 1, false => exact ⟨rfl, rfl, rfl⟩
  | n + 1, true => exact ⟨rfl, rfl, rfl⟩

/-- DevicePower: reset with no failure before it. Whether an image verifies is a free value (log 14), so each of the two
cases of the boot statement is a case of it. -/
theorem test_witness_reset : State.reset.bootFail = 0 ∧ Safety.MemCanonical State.reset ∧
    (imageVerifies (romImage Config.monitorImage) = true ∨ imageVerifies (romImage Config.monitorImage) = false) :=
  ⟨rfl, by unfold Safety.MemCanonical; decide, by cases imageVerifies (romImage Config.monitorImage) <;> simp⟩

/-- A device of space 1 whose first 2 MiB of addresses it maps for reads and writes, with accesses of the host that wait. -/
def mappedState (bus : List HostAccess) : State :=
  let s := ({ State.reset with boot := .running, apertures := [(0, (1, 0))], pages := [(3, 1)], bus := bus } : State).openAs 1
  s.putLeaf 0 0x200000 0x0F levels (match s.spaces.find 1 with | some sp => sp.root | none => 0)

/-- An access of 8 bytes of the host. -/
def hostAccess (bar : Bar) (write : Bool) (off v : Nat) : HostAccess := ⟨18, bar, write, off, 8, bytesOfNat 8 v⟩

/-- HostWindow: an access that matches nothing, a write of CTRL while GO reads 1, FLHEAD within and past the log, GABORT of a
running graph, a register write, accesses of an aperture that is mapped and of one that is not. -/
theorem test_witness_window :
    (let a := hostAccess .mgmt true 0x50 0
     (mappedState [a]).unmatched a = true ∧ a.write = true) ∧
    (let a := hostAccess .mgmt true 0x8000 0
     ({ mappedState [a] with mbox := { Mbox.reset with phase := .submitted } }).ownRow a = some .ctrlWhileGo) ∧
    (let a := hostAccess .mgmt true 0x40 1
     (mappedState [a]).ownRow a = some .flhead ∧ 64 < ((mappedState [a]).mgmt.fltail - 1).toNat ∧
       ¬ 64 < ((mappedState [a]).mgmt.fltail - 0).toNat) ∧
    (let a := hostAccess .mgmt true 0x28 0x1000
     let s := { graphState [(0, nodeA)] Ctx.reset with bus := [a] }
     s.ownRow a = some .gabort ∧ s.boot = .running ∧ (a.merged 0).toNat < 2 ^ 56 ∧
       (s.graphs.find? (fun p => p.2.status == .running && p.2.space == s.mgmt.gaspace.toNat && p.2.addr == a.merged 0)).isSome =
         true) ∧
    (let a := hostAccess .mgmt true 0x08 5
     (mappedState [a]).atMgmt a = true ∧ (mappedState [a]).ownRow a = none) ∧
    (∀ p ∈ [(true, 0x1000, true), (true, 0x200000, false), (false, 0x1000, true), (false, 0x200000, false)],
      let a := hostAccess .record p.1 p.2.1 7
      let s := mappedState [a]
      s.atAperture a = true ∧ s.windowOpen = true ∧ s.poison = [] ∧
        (s.apertureKeys a (if p.1 then .write else .read)).isSome = p.2.2) := by decide +kernel

/-- HostWindow: the bead port, with OP 0, 1 and 2, on a bound page and on another. -/
theorem test_witness_bead_port :
    (∀ v ∈ [0x0500000000002000, 0x4000000000001000, 0x8000000000000000],
      let a := hostAccess .bead true 0x3000 v
      a.bar = .bead ∧ a.off % 4096 = 0 ∧ a.size = 8 ∧ a.data = bytesOfNat 8 v) ∧
    (mappedState []).pages.find (0x3000 / 4096) = some 1 ∧ (mappedState []).pages.find (0x4000 / 4096) = none ∧
    0x0500000000002000 / 2 ^ 62 = 0 ∧ 0x0500000000002000 % 2 ^ 56 % 128 = 0 ∧ 0x4000000000001000 / 2 ^ 62 = 1 ∧
    0x4000000000001000 % 2 ^ 56 % 64 = 0 ∧ 0x4000000000001000 / 2 ^ 56 % 64 = 0 ∧ 2 ≤ 0x8000000000000000 / 2 ^ 62 := by
  decide +kernel

/-- A device with a request of the monitor submitted: command, length, payload from byte 0. -/
def asking (cmd len : Nat) (pay : List Nat) : State :=
  { mappedState [] with mbox := { Mbox.reset with
      cmd := BitVec.ofNat 8 cmd
      len := BitVec.ofNat 16 len
      phase := .submitted
      pay := (pay.mapIdx (fun i b => (i, BitVec.ofNat 8 b))).filter (fun p => p.2 != 0) } }

/-- MailboxRequests: commands that are too short, and the conditions of each that is done. -/
theorem test_witness_mailbox :
    (∀ p ∈ [(1, 2), (2, 2), (3, 32), (4, 24), (5, 16), (6, 20), (7, 40), (8, 32), (10, 6), (11, 16)],
      let s := asking p.1 (p.2 - 1) []
      s.mbox.phase = .submitted ∧ s.mbox.cmd = BitVec.ofNat 8 p.1 ∧ s.boot = .running ∧
        ¬ (p.2 ≤ s.mbox.len.toNat ∧ s.mbox.len.toNat ≤ 32704)) ∧
    (let s := asking 1 2 [7, 0]
     s.pay 0 2 ≠ 0xFFFF ∧ s.spaces.find (s.pay 0 2) = none ∧ s.spaces.length < 256) ∧
    (let s := asking 1 2 [1, 0]
     (s.spaces.find (s.pay 0 2)).isSome = true ∧ s.spaceRuns (s.pay 0 2) = false) ∧
    (let s := asking 3 32 [1, 0, 0, 0, 0, 0, 0, 0, 0, 0, 0x20, 0, 0, 0, 0, 0, 0, 0, 1, 0, 0, 0, 0, 0, 0x0F, 0, 0, 0, 0, 0, 0, 0]
     (s.spaces.find (s.pay 0 2)).isSome = true ∧ pageSizes.contains (s.pay 16 8) = true ∧ s.pay 8 8 % s.pay 16 8 = 0 ∧
       s.pay 8 8 + s.pay 16 8 ≤ 2 ^ 56 ∧ s.leafOk (BitVec.ofNat 64 (s.pay 24 8)) (s.pay 16 8) = true ∧
       (match s.spaces.find (s.pay 0 2) with | some sp => sp.leaves == [] | none => false) = true) ∧
    (let s := asking 5 16 [1, 0, 0, 0, 255, 0, 0, 0]
     s.pay 2 1 = 0 ∧ s.pay 4 4 < 256 ∧ (s.spaces.find (s.pay 0 2)).isSome = true ∧ s.pay 0 2 ≠ 0xFFFF) ∧
    (let s := asking 6 20 [1, 0, 0, 0, 0, 0, 0, 0, 0, 0, 0, 0, 0, 0, 0, 0, 1, 0, 0, 0]
     s.pay 8 8 % 2 ^ 21 = 0 ∧ s.pay 8 8 + 2 ^ 21 * s.pay 16 4 ≤ 2 ^ 56 ∧ s.pay 16 4 = 1 ∧
       s.mappedRw (s.pay 0 2) (s.pay 8 8) (2 ^ 21 * s.pay 16 4) = true) ∧
    (let s := asking 8 32 []
     s.leafIndex < Config.attestLeaves ∧ Config.attestLeaves ≤ ({ s with leafIndex := 2 ^ 30 } : State).leafIndex) ∧
    (let s := { asking 9 16 [] with boot := .recovery }
     s.mbox.phase = .submitted ∧ s.mbox.cmd = 0x09 ∧ s.boot = .recovery) ∧
    (let s := asking 10 6 [1, 0, 0, 0x80, 1, 0]
     s.pay 4 2 ≠ 0xFFFF ∧ (s.spaces.find (s.pay 4 2)).isSome = true ∧
       ∀ n < 32, (s.pay 0 4).testBit n = true → s.assignRefused n (some (s.pay 4 2)) = false) ∧
    (let s := { asking 11 24 [1, 0, 3, 0, 0, 0, 0, 0, 0, 0x10] with courses := [(0, { Course.reset with space := some 1 })] }
     (s.course (s.pay 2 1 / 8)).space = some (s.pay 0 2) ∧ (s.core (s.pay 2 1)).ctx0.slice = none ∧
       (s.core (s.pay 2 1)).ctx1.slice = none ∧ s.pay 8 4 + (s.mbox.len.toNat - 16) ≤ 0x180000 ∧ s.pay 3 5 = 0 ∧
       s.pay 12 4 = 0 ∧ s.poison = []) ∧
    (let s := asking 12 0 []
     s.mbox.phase = .submitted ∧ s.boot = .running ∧ 0x0B < s.mbox.cmd.toNat) ∧
    (let s := { asking 4 24 [1] with invals := [1], mbox := { Mbox.reset with phase := .invalidating 1 } }
     s.invals = 1 :: [] ∧ s.mbox.phase = .invalidating 1) := by decide +kernel

/-- MailboxRequests: a page that is mapped and unmapped; windows bound and unbound, and to no open space; a group that is in
form, and one that waits; a course given to no space and one that its space still uses; a core that runs; LOAD while running. -/
theorem test_witness_mailbox_more :
    (let s : State := asking 4 24 [1, 0, 0, 0, 0, 0, 0, 0, 0, 0, 0, 0, 0, 0, 0, 0, 0, 0, 0x20]
     let u : State := { s with spaces := s.spaces.map (fun p => (p.1, { p.2 with leaves := [⟨0, 0x200000⟩] })) }
     (match u.spaces.find (u.pay 0 2) with
      | some sp => sp.leaves.filter (fun l => rangesMeet l.va l.size (u.pay 8 8) (u.pay 16 8)) == [⟨0, 0x200000⟩] &&
        sp.root % 8 == 0 && (match u.walkFrom 0 levels sp.root with | .ok l => l.size == 0x200000 | .error _ => false)
      | none => false) = true ∧ s.poison = [] ∧ s.flaws = []) ∧
    (∀ x ∈ [[0xFF, 0xFF, 1, 0, 3], [1, 0, 1, 0, 3]],
      let s := asking 5 16 x
      s.pay 2 1 = 1 ∧ s.pay 4 4 < 16 ∧ s.pay 8 8 % 2 ^ 32 = 0 ∧ s.pay 8 8 < 2 ^ 56 ∧
        (s.pay 0 2 = 0xFFFF ∨ (s.spaces.find (s.pay 0 2)).isSome = true)) ∧
    (let s := asking 5 16 [9]
     s.pay 2 1 = 0 ∧ s.pay 4 4 < 256 ∧ s.pay 0 2 ≠ 0xFFFF ∧ s.spaces.find (s.pay 0 2) = none) ∧
    (let s : State := { asking 7 42 ([1, 0, 0, 0, 0, 0, 0, 0, 0, 0x10, 0, 0, 0, 0, 0, 0, 0, 0, 2] ++ List.replicate 22 0 ++ [1]) with
       routes := [(1, 0)] }
     s.replicaOk s.payReplica = true ∧ (∀ q ∈ s.replicas, q.waiting.isSome = false) ∧
       (let u : State := { s with replicas := [{ s.payReplica with waiting := some (1, 0) }] }
        ∃ q ∈ u.replicas, q.space = u.payReplica.space ∧ q.graph = u.payReplica.graph ∧ q.waiting.isSome = true)) ∧
    (let s := asking 7 40 [1]
     s.replicaOk s.payReplica = false) ∧
    (let s := asking 10 6 [1, 0, 0, 0, 0xFF, 0xFF]
     s.pay 4 2 = 0xFFFF ∧ (s.pay 0 4).testBit 0 = true ∧ s.courseFree 0 = true ∧ (s.course 0).space ≠ some 1) ∧
    (let s := asking 10 6 [1, 0, 0, 0, 9]
     s.pay 4 2 ≠ 0xFFFF ∧ s.spaces.find (s.pay 4 2) = none) ∧
    (let s := (asking 11 16 [1]).updCtx ⟨0, false⟩ (fun k => { k with slice := some sliceA })
     (s.ctx ⟨s.pay 2 1, false⟩).slice ≠ none) ∧
    (asking 9 16 []).mbox.phase = .submitted ∧ (asking 9 16 []).boot = .running ∧ (asking 1 2 []).spaces.find 0 = none := by
  decide +kernel

/-- HostWindow: a read and a write of a register of 8 bytes; an aperture while its window is closed. BeadPort: a port of another
size, and a write before boot is over. -/
theorem test_witness_window_more :
    (∀ w ∈ [true, false],
      let a := hostAccess .mgmt w 0x4018 7
      a.bar = .mgmt ∧ a.size = 8 ∧ (mappedState [a]).windowOpen = true ∧ a.data = bytesOfNat 8 (7 : DWord).toNat) ∧
    (let a := hostAccess .record true 0x1000 7
     let s : State := { mappedState [a] with boot := .recovery }
     s.windowOpen = false ∧ s.atAperture a = true) ∧
    (let a : HostAccess := { hostAccess .bead true 0x3000 0 with size := 4 }
     a.bar = .bead ∧ a.write = true ∧ ¬ (a.off % 4096 = 0 ∧ a.size = 8)) ∧
    (∀ v ∈ [0, 0x4000000000000000],
      let a := hostAccess .bead true 0x3000 v
      ({ mappedState [a] with boot := .booting } : State).boot ≠ .running ∧ a.launches = (v != 0)) := by decide +kernel

/-- MailboxRequests: an answer without a response and one with a response. -/
theorem test_witness_answers : ∀ r ∈ [([] : List Byte), [1, 2]],
    ({ State.reset with mbox := { Mbox.reset with phase := .answered 1 r } } : State).mbox.phase = .answered 1 r := by decide


/-- NodesMove: a boundary node at the end of its slices, whose group is at no other boundary; a killed node with a fault of it in
the queue, and with none. -/
theorem test_witness_node_ends :
    (let r : Replica := ⟨0, 0x1000, [], [0], [0, 1], 0, 100, none, 5, [], none, 0⟩
     let s := { waitState [(0, { nodeA with unretired := 0 })] [] [] Ctx.reset with replicas := [r] }
     let v := ((s.updNode 1 0 (fun n => { n with killing := false })).setNodeState 1 0 .done).updNode 1 0
       (fun n => { n with withheld := true })
     v.groupOf 1 0 = some r ∧ r.waiting = none ∧ s.flaws = [] ∧ s.poison = []) ∧
    (∀ q ∈ [[KsMsg.fault 1 0 0 0 0x20 0x100], []],
      let s := { waitState [(0, { nodeA with killing := true })] [] [] Ctx.reset with ksq := q }
      (s.nodeOf 1 0).map (fun n => (n.state, n.killing, n.unretired, n.attempt)) = some (.running, true, 1, 0) ∧
        s.anyRuns 1 0 = false ∧ decide (KsMsg.fault 1 0 0 0 0x20 0x100 ∈ s.ksq) = !q.isEmpty) := by decide +kernel

/-- Cancellation: a fault while no cancellation is at its writes, an abort; Checkpoints: an entry whose image cannot be read,
and whose context has performed everything. -/
theorem test_witness_writes_of_c1 :
    (let s := { graphState [(0, nodeA), (1, { nodeA with addr := 0x2080, state := .armed })] Ctx.reset with
       ksq := [.fault 1 0 0 0 0x20 0x100], cancels := [⟨1, some 1, [], none⟩] }
     s.boot = .running ∧ (∀ x ∈ s.cancels, x.todo = none) ∧ (s.graphs.find 1).isSome = true ∧
       s.ksq[0]? = some (.fault 1 0 0 0 0x20 0x100)) ∧
    ((waitState [(0, nodeA)] [(0, ⟨true, true, 0, 0x2000⟩)] [] Ctx.reset).pends ⟨0, false⟩ = []) := by decide +kernel

/-- A group of three members with one region of 16 bytes, whose bytes of space 0 are mapped. -/
def regionA (r : Option (BitVec 128 × Nat)) : Replica := ⟨0, 0x1000, [⟨0x1000, 16⟩], [0], [0, 1, 2], 0x2000, 100, none, 0, [], r, 0⟩

def regionState (r : Replica) (st : GState) (ns : List RegionData) : State :=
  { poolState Ctx.reset with
    graphs := [(1, { graphA [(0, { nodeA with state := .done }), (1, { nodeA with addr := 0x2080, state := .void })] with status := st })]
    replicas := [r]
    reloads := ns }

/-- ReplicaDigests: regions that no store is on its way to and nobody has written; a member of the
majority and one outside it, with a cone and with none; a region that can be copied; one whose reload is due. -/
theorem test_witness_regions :
    (let s := regionState (regionA none) .running []
     s.storesTo (s.regionKeys (regionA none)) = false ∧ s.racesDigest 1 0 0 (s.regionKeys (regionA none)) = false ∧
       s.regionBytes 0 (regionA none).regions = some (List.replicate 16 0) ∧ s.poison = [] ∧ s.flaws = [] ∧
       s.ksRead 0 (0x1000 : DWord).toNat 16 = some (List.replicate 16 0) ∧ (s.recordKeys 0 .write 0x2000 16).isSome = true ∧
       (s.recordKeys 0 .write (0x1000 : DWord).toNat 16).isSome = true ∧ (16 : Nat) ≤ (List.replicate 16 (0 : Byte)).length) ∧
    ({ regionA none with held := [(1, 0)] } : Replica).agrees 0 = true ∧ ({ regionA none with held := [(1, 6), (2, 6)] } : Replica).agrees 0 = false ∧
    ((List.range 1).filter (graphA [(0, nodeA)]).conable ≠ [] ∧
      (List.range 1).filter (graphA [(0, { nodeA with state := .done })]).conable = []) ∧
    (let d : RegionData := ⟨1, 0x1000, List.replicate 16 0⟩
     let s := regionState (regionA (some (0, 0))) .fault [d]
     s.digests.findIdx? s.mayHear = none ∧ s.reloadDue = some (0, regionA (some (0, 0)), 1) ∧ (s.graphs.find 1).isSome = true ∧
       (s.graphs.map Prod.fst).Nodup ∧
       (s.nodeOf 1 0).map Node.state = some .done ∧ (s.nodeOf 1 1).map Node.state = some .void) ∧
    ([(0, nodeA), (1, nodeA)].map Prod.fst).Nodup := by decide +kernel

/-- CoursePower: a pair with nothing to compare, and one that differs in a result, with nothing on its way. -/
theorem test_witness_pair :
    (let k : Ctx := { Ctx.reset with slice := some sliceA, did := [.result (.s 3) 1] }
     let s := { (busy k).updCore 0 (fun x => { x with pair := [(k, Ctx.reset), (k, Ctx.reset), (k, Ctx.reset)] }) with
       courses := [(0, { Course.reset with twin := true })] }
     s.boot = .running ∧ (s.course (0 / 8)).twin = true ∧ 0 % 2 = 0 ∧ (s.core 0).comparedDid ≠ [] ∧
       (∀ one ∈ [false, true], s.pends ⟨0, one⟩ = []) ∧ (s.core 0).pair[2]? = some (k, Ctx.reset) ∧ k.slice.isSome = true ∧ k.pc = 0) ∧
    ((busy Ctx.reset).core 0).comparedDid = [] := by decide +kernel

/-- MailboxRequests: a page in no form, one that the tables refuse, pools that are refused and malformed; LOAD in the recovery of
each step; SLABWR to the odd core of a twin pair, and to part of a granule that is poisoned. (Whether an image verifies is a free
value, log 14.) -/
theorem test_witness_mailbox_refused :
    (let s := asking 3 32 [1]
     (s.spaces.find (s.pay 0 2)).isSome = true ∧ s.pay 16 8 ∉ [0x10000, 0x200000, 0x40000000]) ∧
    (let s := asking 3 32 [1, 0, 0, 0, 0, 0, 0, 0, 0, 0, 0x20, 0, 0, 0, 0, 0, 0, 0, 1]
     s.pay 16 8 = 0x10000 ∧ s.pay 8 8 % 0x10000 = 0 ∧ s.leafOk (BitVec.ofNat 64 (s.pay 24 8)) 0x10000 = false) ∧
    (let s := asking 6 20 [9]
     s.spaces.find (s.pay 0 2) = none) ∧
    (let s := asking 6 20 [1, 0, 0, 0, 0, 0, 0, 0, 1]
     (s.spaces.find (s.pay 0 2)).isSome = true ∧ s.pay 8 8 % 2 ^ 21 ≠ 0) ∧
    (let s := asking 6 20 [1, 0, 0, 0, 0, 0, 0, 0, 0, 0, 0x20, 0, 0, 0, 0, 0, 1]
     (s.spaces.find (s.pay 0 2)).isSome = true ∧ s.pay 8 8 % 2 ^ 21 = 0 ∧ s.pay 8 8 + 2 ^ 21 * s.pay 16 4 ≤ 2 ^ 56 ∧
       s.mappedRw (s.pay 0 2) (s.pay 8 8) (2 ^ 21 * s.pay 16 4) = false) ∧
    (∀ x ∈ [[9, 0, 0, 0, 1], [9, 0, 1, 0, 1]],
      let s := asking 5 16 x
      s.pay 2 1 ≤ 1 ∧ s.pay 4 4 < 16 ∧ s.pay 8 8 = 0 ∧ s.pay 0 2 ≠ 0xFFFF ∧ s.spaces.find (s.pay 0 2) = none) ∧
    (∀ n ∈ [1, 4],
      let s := { asking 9 16 [] with boot := .recovery, failedStep := n }
      s.mbox.phase = .submitted ∧ s.mbox.cmd = 0x09 ∧ s.boot = .recovery ∧ s.failedStep = n) ∧
    (let s := { asking 11 24 [1, 0, 1] with courses := [(0, { Course.reset with space := some 1, twin := true })] }
     s.pay 2 1 = 1 ∧ (s.course (s.pay 2 1 / 8)).twin = true ∧ s.pay 2 1 % 2 = 1) ∧
    (let s := { asking 11 24 [1] with courses := [(0, { Course.reset with space := some 1 })], poison := [granule 0x20000000] }
     let keys := (List.range (s.mbox.len.toNat - 16)).map (fun i => 0x20000000 + s.pay 2 1 * 0x200000 + s.pay 8 4 + i)
     (s.course (s.pay 2 1 / 8)).space = some (s.pay 0 2) ∧ (s.course (s.pay 2 1 / 8)).twin = false ∧
       0x20000000 ∈ keys ∧ s.poisoned 0x20000000 = true ∧ 8 < 64 ∧ 0x20000000 / 64 * 64 + 8 ∉ keys) := by decide +kernel

/-- ArrayCompletes: a WRC to KSW0 of the bundle of the operation, still on its way, and a move of another unit. -/
theorem test_witness_early_wrc :
    let f : Flight := ⟨1, 1, 9, .cr 0x10 0, 5, 1, 1, 0, none, false⟩
    let s := (busy { Ctx.reset with flight := [f] }).updCore 0 (fun k => { k with aq := [arrayOp (.accz u0 2) 0] })
    (s.ctx ⟨0, false⟩).flight = [f] ∧ f.landed = false ∧ f.seq ≤ (arrayOp (.accz u0 2) 0).seq ∧ f.dest = .cr 0x10 0 ∧
      (0x10#8 : BitVec 8) ≤ 0x1A ∧ f.live.getLsbD 0 = true ∧ s.flaws = [] := by decide +kernel

/-! ### Witnesses of the conditions of issue, of what a form waits for, and of the checks -/

/-- IssueGates: a landing register in each of its states, and a form that waits for nothing. -/
theorem test_witness_form_waits :
    (∀ x ∈ [Landing.landed 5 3 none, .pending 0 1 none none, .empty],
      SMap.get .empty (busy { Ctx.reset with l := [(7, x)] }).here.l (7 : BitVec 3).toNat = x) ∧
    ∀ u g k m r a n d b j q l t e c x y f v w, Instr.add u0 1 2 3 ∉ [Instr.wait g k m, .ndone g, .eret g, .rdc u r n w,
      .wrc u r n w, .vpopq u d q, .fpushq u q a c e, .stq u q a c e, .vpopl u d l, .qnt u d j b f, .dq u d b j f, .cbld u x k,
      .getrf u t f v, .potrf u t f v, .accmov u t e, .cpIn u x r y c, .cpOut u x r y c, .cpSs u x r y c, .rsub u x r y c] :=
  ⟨by decide, by intros; simp⟩

/-- IssueGates: a bundle whose first slot pops an empty queue, one whose DRAIN does not fit, and one with neither. -/
theorem test_witness_queue_faults :
    let op (k : Nat) (i : Instr) : SlotOp := ⟨k, false, 0, 0, i⟩
    let len (c : Ctx) (q : BitVec 2) : Nat := (SMap.get [] c.q q.toNat).length
    let full : Ctx := { Ctx.reset with q := [(1, List.replicate 9 ⟨0, 0, true, 0⟩)] }
    (popsOf (op 3 (.vpopq u0 1 2)).instr = some 2 ∧ len Ctx.reset 2 ≤ 0) ∧
      (full.af 0 = 0 ∧ 16 < len full 1 - 0 + 8 ∧ ¬ 16 < len Ctx.reset 1 - 0 + 8) ∧ popsOf (op 1 (.add u0 1 2 3)).instr = none := by
  decide

/-- RoundedOnce: fields of an H8 pattern of each class; 0 × ∞ and not; a NaN, infinite products of one sign and of two. -/
theorem test_witness_classes :
    (∀ p ∈ [(0, 0), (0, 1), (1, 0), (2 ^ Fmt.h8.e - 1, 0), (2 ^ Fmt.h8.e - 1, 1)], p.1 < 2 ^ Fmt.h8.e ∧ p.2 < 2 ^ Fmt.h8.f) ∧
    (let zero : Machine.Num := .fin false 0 0
     let one : Machine.Num := .fin true 1 0
     let inf : Machine.Num := .inf false
     let void (a b : Machine.Num) : Bool := (a.isInf && b.isZero) || (a.isZero && b.isInf)
     void inf zero = true ∧ void inf one = false ∧ (Machine.Num.nan true).isNan = true ∧ (inf.isNan || one.isNan) = false ∧
       (inf.isInf || one.isInf) = true ∧ (one.isInf || one.isInf) = false ∧ (inf.neg != one.neg) = true ∧ (inf.neg != zero.neg) = false) := by
  decide

/-- VectorComparesAndConversions: the numbers of elements of a conversion at the ends of the widths. -/
theorem test_witness_elements : (64 ∈ [8, 16, 32, 64] ∧ 16 ≤ 1024 / 64) ∧ (32 ∈ [8, 16, 32, 64] ∧ 16 ≤ 1024 / 32) ∧
    (8 ∈ [8, 16, 32, 64] ∧ 32 ≤ 1024 / 8) := by decide

/-- LoadsAndStores: an access with a fault and one without; LDR.L with a DUE below the least one, to no slab, with a landing
register that is not empty, and with nothing in its way. -/
theorem test_witness_access_faults :
    ((Instr.ldV u0 1 2 0 0).slotClass = some .c ∧ copyIdOf (.ldV u0 1 2 0 0) = none) ∧
    ((accessOf (.ldV u0 1 2 0 0) (busy { Ctx.reset with s := [(2, 0x180000)] })).parts.map (fun y => y.2.1.fault) = [some causeSlabaddr] ∧
      (accessOf (.ldV u0 1 2 0 0) (busy { Ctx.reset with s := [(2, 0x1000)] })).parts.map (fun y => y.2.1.fault) = [none]) ∧
    (∀ p ∈ [((0x1000 : DWord), 12, true), (0x20200000 + 0xE00000, 28, true), (0x20000000 + 0x8000000, 64, true), (0x180000, 12, false)],
      let s := busy { Ctx.reset with s := [(2, p.1)], l := [(7, .landed 5 3 none)] }
      s.cur.core < 256 ∧ (s.slab 0 p.1.toNat 128).isSome = p.2.2 ∧ p.1.toNat % 64 = 0 ∧
        ((s.slab 0 p.1.toNat 1).map (fun k => if (k / 0x200000 - 0x100) / 8 = 0 then 12
          else if (k / 0x200000 - 0x100) / 64 = 0 then 28 else 64)).getD 12 = p.2.1 ∧
        SMap.get .empty s.here.l (7 : BitVec 3).toNat ≠ .empty ∧ SMap.get .empty s.here.l (6 : BitVec 3).toNat = .empty) := by
  decide +kernel

/-- CopyCommands: a nest block and a ring block in form, by their fields, and blocks that are not. -/
theorem test_witness_block_layouts :
    let s := blockState 16
    let le (k off n : Nat) : Nat := ((List.range n).map (fun j => (s.byte (k + (off + j))).toNat * 256 ^ j)).sum
    let dim (k depth e d : Nat) : Bool := decide (1 ≤ depth) && decide (depth ≤ 6) && (List.range 6).all (fun i =>
      (decide (depth ≤ i) || le k (e + 2 * i) 2 != 0) && (decide (i < depth) || (le k (e + 2 * i) 2 == 0 && le k (d + 8 * i) 8 == 0)))
    (dim 0x20002000 (le 0x20002000 0 1) 4 16 = true ∧ le 0x20002000 1 3 = 0 ∧
      ((List.range (le 0x20002000 0 1)).map (fun i => le 0x20002000 (4 + 2 * i) 2)).prod = 16) ∧
    (dim 0x20002080 (le 0x20002080 32 1) 36 48 = true ∧ 1 ≤ le 0x20002080 33 1 ∧ le 0x20002080 33 1 ≤ 16 ∧ le 0x20002080 34 2 = 0 ∧
      ∀ j < 28, s.byte (0x20002080 + (100 + j)) = 0) ∧
    (dim 0x20004000 (le 0x20004000 0 1) 4 16 = false ∧ dim 0x20004000 (le 0x20004000 32 1) 36 48 = false) := by decide +kernel

/-- CopyCommands: what stops CP.IN, CP.OUT and CP.SS, and what does not: a bad descriptor; a block in no form, a unit outside the
device, a region outside the slab; a destination that is none; a copy id that has faulted, and one that has not. -/
theorem test_witness_copy_faults :
    let with_ (r : SMap DWord) (d : BitVec 256) (q : SMap CopyState) : State :=
      { busy { Ctx.reset with s := r, d := [(1, d)], copies := q } with mem := blockMem 16 }
    let regs (a : DWord) : SMap DWord := [(2, a), (3, 0x2000)]
    let far : BitVec 256 := BitVec.ofNat 256 (0x180000 + 64 * 2 ^ 32 + 2 ^ 64 + 16 * 2 ^ 80)
    let x (s : State) : Descr := Descr.of (s.here.desc 1)
    (x (with_ [] 0 [])).bad = true ∧
    (∀ q ∈ [[], [((5 : Nat), CopyState.faulted 7)]],
      let s := with_ (regs 0x100000) descA q
      (x s).bad = false ∧ s.regionOk 0 (x s) = true ∧ (s.readS 3).toNat % 64 = 0 ∧ s.ownSlab 0 (s.readS 3).toNat 64 = some 0x20002000 ∧
        (∀ j < 64, s.unreadable (0x20002000 + j) = false) ∧ (s.nestBlock 0x20002000 16).isSome = true ∧
        s.nestBlock 0x20002000 15 = none ∧ (x s).rows * (x s).rowUnits = 16 ∧ (s.readS 2).toNat < 2 ^ 56 ∧
        inDevice (s.readS 2) [16] [4] = true ∧ inDevice (s.readS 2) [16] [-0x100000] = false ∧
        s.here.copy 5 = (if q = [] then .free else .faulted 7)) ∧
    (let s := with_ (regs (2 ^ 56)) far []
     (x s).bad = false ∧ s.regionOk 0 (x s) = false ∧ 2 ^ 56 ≤ (s.readS 2).toNat) ∧
    (let s := with_ (regs 0x4000) descA []
     (s.slab 0 (s.readS 2).toNat (x s).rowBytes).isSome = true ∧ (s.readS 2).toNat < 0x20000000) ∧
    (let s := with_ (regs 0x180000) descA []
     s.slab 0 (s.readS 2).toNat (x s).rowBytes = none) := by decide +kernel

/-- CopyCommands: what stops RSUB and SREL, and what does not. -/
theorem test_witness_ring_faults :
    let s := blockState 16
    let t : State := { s with mem := [] }
    let x := Descr.of (s.here.desc 1)
    s.ringAt 4 = some 0x20002080 ∧ (s.readS 4).toNat % 128 = 0 ∧ s.ringAt 3 = some 0x20002000 ∧
    (busy { Ctx.reset with s := [(4, 0x2040)] }).ringAt 4 = none ∧
    (∀ j < 128, s.unreadable (0x20002080 + j) = false) ∧ t.ringBlock 0x20002080 = none ∧
    (match s.ringBlock 0x20002080 with
     | some r => r.slot0 == x.base && r.slots == 1 && (s.ownSlab 0 r.slot0 ((x.rows - 1) * x.stride + x.rowBytes)).isSome &&
        s.ownSlab 0 r.state 1 == some 0x20003000 && r.inDevice x && s.regionOk 0 x && s.byte 0x20003000 == 1 &&
        !s.unreadable 0x20003000 && ({ s with mem := s.mem.erase 0x20003000 } : State).byte 0x20003000 != 1 && r.slot0 != x.base + 64
     | none => false) = true := by decide +kernel

/-- AtomicPerforms: a RED.FADD that raises NX, with room in the SQ and with none. -/
theorem test_witness_reported :
    let add := Fmt.f32.add .rne (Fmt.f32.value 0x3F800000) (Fmt.f32.value 0x33000000)
    let o : MemOp := { memOp (.rmw .fadd 0x33000000 0 none) false with width := 4, frags := [⟨0, .key 0x20001000, 4⟩] }
    let s (n : Nat) : State := { (opState o).updCore 0 (fun k => { k with sq := List.replicate n 0 }) with
      mem := [(0x20001002, 0x80), (0x20001003, 0x3F)] }
    add.2 ≠ 0 ∧ ∀ n ∈ [0, 256], ((s n).core 0).sq.length = n ∧ (s n).opAt ⟨0, false⟩ 0 = some o ∧ (s n).mayPerform ⟨0, false⟩ o = true ∧
      (s n).locate 0 o.access o.frags = .ok ((List.range 4).map (fun i => (i, 0x20001000 + i))) ∧ (s n).flaws = [] ∧
      (s n).readNat 0x20001000 4 = 0x3F800000 := by decide +kernel

/-- Responses: a posted store of a plumb graph whose table entry is poisoned. -/
theorem test_witness_poisoned_walk :
    let s : State := { opState lostOp with
      cores := (busy { Ctx.reset with ops := [lostOp], slice := some sliceA }).cores
      graphs := [(1, { graphA [(0, nodeA)] with plumb := true })], courses := [(0, { Course.reset with space := some 0 })]
      spaces := [(0, ⟨0x9402F90000, [], none, []⟩)], poison := [granule (hbmKey 0x9402F90000)] }
    s.opAt ⟨0, false⟩ 0 = some lostOp ∧ s.mayPerform ⟨0, false⟩ lostOp = true ∧
      (match s.locate 0 .write lostOp.frags with | .error (x, _) => x == 8 | .ok _ => false) = true ∧
      (s.graphs.find 1).map (fun g => g.plumb) = some true := by decide +kernel

/-- ContainmentRegions: regions to open and to close, guarded off and not, where the device runs. -/
theorem test_witness_regions_open :
    (∀ n ∈ [0, 3, 4], (idle { Ctx.reset with depth := n }).granted = false ∧ (idle { Ctx.reset with depth := n }).boot = .running ∧
      (idle { Ctx.reset with depth := n }).here.depth = n) ∧
    (∀ i ∈ [Instr.ctnOpen g0 8, .ctnClose g0], (alone i (idle Ctx.reset)).guardedOff .b (wordOf i) = false) := by decide +kernel

/-- ContainmentRegions: the B slot with a fault of each kind and with none. -/
theorem test_witness_control_faults :
    let s (k : Ctx) : State := busy { k with slice := some { sliceA with phase := .epilogue } }
    let at_ (a : DWord) (n : Nat) : Bool := decide (2 ^ 56 ≤ a.toNat) || decide (a.toNat % n ≠ 0)
    (at_ 2 4 = true ∧ at_ (2 ^ 56) 4 = true ∧ at_ 4 4 = false ∧ at_ 32 64 = true ∧ at_ 64 64 = false ∧ at_ 64 128 = true ∧ at_ 128 128 = false) ∧
    (loopCtx [] none).loop.depth ≠ 0 ∧ Ctx.reset.loop.depth = 0 ∧ (0x10000000 : DWord).toNat / 2 ^ 28 % 16 ≠ 0 ∧
    (0x4000000000 : DWord).toNat / 2 ^ 38 ≠ 0 ∧ (2 : BitVec 8).getLsbD 0 = false ∧ (1 : BitVec 8).getLsbD 0 = true ∧
    (Ctx.reset.trap = none ∧ trapA.depth ≠ Ctx.reset.depth ∧ trapA.depth = { Ctx.reset with depth := 1 }.depth) ∧
    ((s Ctx.reset).here.slice.map (fun x => x.phase) = some .epilogue ∧ Ctx.reset.slice = none ∧ { Ctx.reset with depth := 1 }.depth ≠ 0) ∧
    ((2 : BitVec 16).getLsbD 1 = true ∧ { Ctx.reset with copies := [(1, .faulted 7)] }.copy 1 = .faulted 7 ∧
      Ctx.reset.copy 1 ≠ .faulted 7) ∧
    ({ Ctx.reset with failed := [(3, 7)] }.failed = [] ++ ((3 : BitVec 4), (7 : BitVec 128)) :: [] ∧ (8 : BitVec 16).getLsbD 3 = true) ∧
    (SMap.get [] { Ctx.reset with q := [(2, [⟨0, 0, true, 0⟩])] }.q 2 ≠ [] ∧ ∀ j < 4, SMap.get [] Ctx.reset.q j = []) := by decide

/-- ControlRegisters: a rounding mode and an AF that no register takes, and ones that it takes. -/
theorem test_witness_wrc_faults : 5 ≤ (5 : DWord).toNat % 8 ∧ ¬ 5 ≤ (4 : DWord).toNat % 8 ∧
    (0xC0000000 : DWord).toNat / 2 ^ 30 % 4 = 3 ∧ (0x80000000 : DWord).toNat / 2 ^ 30 % 4 ≠ 3 := by decide

/-- CopiesAndRings: the commands of copies and rings, with as many extents as strides. -/
theorem test_witness_units :
    lostCopy.exts.length = lostCopy.strides.length ∧ lostCopy.kind = .cpIn ∧ { lostCopy with kind := .cpOut }.kind = .cpOut ∧
      slabCopy.kind = .cpSs ∧ (ringA 0 []).exts.length = (ringA 0 []).strides.length ∧
      (busy Ctx.reset).ownSlab 0 0x17FFFF 1 = some 0x2017FFFF := by decide +kernel

/-- Tiles of 16 × 16 FP32 elements in bank group 0, in group 1, and in both. -/
def tileA (base stride : Nat) : BitVec 256 := BitVec.ofNat 256 (base + stride * 2 ^ 32 + 16 * 2 ^ 64 + 16 * 2 ^ 80)

/-- ArrayFormsIssue: operands of a multiply that fit, stand where they may and lie in their groups; ones that lie in another
group, that stand out of the slab, and that do not fit; tiles of each AF and a BRK that a resumed form takes; a move and an array
operation that write no tile of another. -/
theorem test_witness_array_faults :
    let a := Descr.of (tileA 0x1000 0x800)
    let b := Descr.of (tileA 0x1400 0x800)
    let s := busy { Ctx.reset with d := [(1, tileA 0x1000 0x800), (2, tileA 0x1400 0x800)] }
    let sound (x : Descr) : Bool := !x.bad && x.base % 8 == 0 && x.stride % 8 == 0 &&
      (s.ownSlab 0 x.base ((x.rows - 1) * x.stride + x.rowBytes)).isSome
    (sound a = true ∧ sound b = true ∧ sound (Descr.of (tileA 0x17F000 0x800)) = false ∧ (Descr.of (tileA 0x1000 32)).bad = true) ∧
    (a.fmt = 0 ∧ b.fmt = 0 ∧ s.here.af 0 = 0 ∧ a.spk = 0 ∧ b.spk = 0 ∧ a.rows = 16 ∧ a.cols = 16 ∧ b.rows = 16 ∧ b.cols = 16 ∧
      a.fmt ≠ 10 ∧ (keptOf a.spk) = (1, 1)) ∧
    (∀ r < 16, ∀ j < 64, groupOf (s.ownKey 0 (a.base + r * a.stride) + j) = 0 ∧ groupOf (s.ownKey 0 (b.base + r * b.stride) + j) = 1) ∧
    (Descr.of (0 : BitVec 256)).bad = true ∧
    ({ Ctx.reset with ksw := [(1, 0x40000000)] }.af 1 = 1 ∧ ((1 + 2 ^ 16 * 15 + 2 ^ 24 * 2 : BitVec 128).toNat / 2 ^ 24 % 8 = 2)) ∧
    ((∀ o ∈ s.here.ops, ∀ rows t, o.act ≠ .move 1 rows t) ∧ ∀ x ∈ s.myArray, (1 : BitVec 3) ∉ tilesWritten x.instr) := by
  refine ⟨by decide +kernel, by decide +kernel, by decide +kernel, by decide, by decide,
    fun _ h => (nomatch (show _ ∈ ([] : List MemOp) from h)), fun _ h => (nomatch (show _ ∈ ([] : List ArrayOp) from h))⟩

/-- ArrayCompletes: a queue whose entry a DRAIN has counted; a list header that is zero, and lists with an entry that is wrong, out of
order, and lost; pattern words that are bad and not. -/
theorem test_witness_lists :
    (let x : Ctx := { Ctx.reset with q := [(1, [⟨7, 1, true, 3⟩, ⟨0, 0, false, 0⟩])] }
     SMap.get [] x.q (1 : BitVec 2).toNat = [⟨7, 1, true, 3⟩] ++ ⟨0, 0, false, 0⟩ :: [] ∧ (arrayOp (.drain u0 2 1) 0).id = 0) ∧
    (let d : Descr := { Descr.of (tileA 0x1000 0x800) with fmt := 10, spall := 0x5000, metaAddr := 0x6000 }
     let list (lo hi : Byte) : State := { busy Ctx.reset with mem := [(0x20001000, 0), (0x20005000, 2), (0x20005002, 4), (0x20005008, lo),
       (0x20005009, hi), (0x20005010, 5), (0x20005011, 8), (0x20006000, 127)] }
     let head (s : State) : Bool := decide (s.readNat 0x20005002 2 = 0) || decide (s.readNat 0x20005002 2 < s.readNat 0x20005000 2)
     head (busy Ctx.reset) = true ∧ head (list 5 8) = false ∧ (list 5 8).readNat 0x20005000 8 / 2 ^ 33 = 0 ∧
       ((list 5 8).ownSlab 0 0x5000 40).isSome = true ∧ (list 5 8).readNat 0x20005008 8 = 0x805 ∧ (list 5 8).readNat 0x20005010 8 = 0x805 ∧
       (list 5 0x48).readNat 0x20005008 8 / 2 ^ 14 % 2 ^ 18 ≠ 0 ∧ (list 4 8).readNat 0x20005008 8 = 0x804 ∧
       (list 5 8).byte ((list 5 8).ownKey 0 (d.metaAddr + 0 / 32)) = 127 ∧ d.spall ≠ 0 ∧ d.spk = 0 ∧
       ((⟨0x3F80 <<< 16, 1⟩ : Codebook).esc.getLsbD 0 = true)) ∧
    (patternBad 0 0xFFFFFFFF = true ∧ patternBad 0 0 = false ∧ ({ Descr.of descA with spk := 1 } : Descr).cols * 4 / 2 ≠ 0) := by
  decide +kernel

/-- DevicePower: an interlocked load in flight on a scale-up port that goes down. -/
theorem test_witness_cut_load :
    let o : MemOp := { memOp (.load (.sreg 3)) false with frags := [⟨0, .key (peerKey 1 0), 8⟩] }
    let s : State := { opState o with routes := [(1, 1)], ports := [(0, { Port.reset with up := true, fails := 9 })] }
    (s.ctx ⟨0, false⟩).ops = [o] ∧ s.opsOnPort 0 ⟨0, false⟩ = [o] ∧ o.isRmw = false ∧ o.posted = false := by decide +kernel

/-- HostWindow: a write at the bead port while a C1 is at its writes, and while none is. -/
theorem test_witness_bead_waits :
    let s (c : List Cancel) : State := { mappedState [hostAccess .bead true 0x3000 0] with cancels := c }
    (∃ x ∈ (s [⟨1, some 0, [1], some [.cancel 1]⟩]).cancels, x.todo ≠ none) ∧
      (∀ x ∈ (s [⟨1, some 0, [1], none⟩]).cancels, x.todo = none) ∧ (s []).boot = .running := by
  exact ⟨⟨_, List.mem_singleton.2 rfl, by decide⟩, by decide, by decide +kernel⟩

/-- DevicePower: a region that a host write has changed since, with no bead of it before the boundary's NDONE. -/
theorem test_witness_race :
    let w (since : Nat) : State := { regionState { regionA none with since := since } .running [] with
      past := [⟨.host 18, 0, .write, false, 0, [hbmKey 0x1008], none, none, none, false, [], false, 0⟩] }
    (w 0).racesDigest 1 0 0 ((w 0).regionKeys (regionA none)) = true ∧ (w 1).racesDigest 1 0 1 ((w 1).regionKeys (regionA none)) = false := by
  decide +kernel
/-! ### The first step -/

/-- The word of `add s49, s48, s47` (Table 18.3), placed where the first step fetches: the next state has its result on the
way, and the PC stands past the bundle. The empty bundle is placed and run too. -/
theorem test_first_step :
    (match step (State.reset.withFetchWord 32 0x000C70BC) with
     | .next t => (t.here.flight.map (fun f => (f.dest, f.val)), t.here.pc)
     | _ => ([], 0)) = ([(Dest.s 49, 0)], 8) ∧
    (match step (State.reset.withFetchWord 32 0x00010000) with
     | .next t => t.here.pc
     | _ => 0) = 4 ∧
    decodeTableWord 32 0x000C70BC = some (.add u0 49 48 47) ∧ decodeTableWord 32 0x00010000 = some (.nop false) := by
  decide +kernel

end Sys2Proof.Tests
end

section
/-! SUPPORT. Every step answers a next state (R11, R238): slot instructions because an issue does, requests of the mailbox
because `request` does, and the other events branch by branch. -/

namespace Sys2Proof.Machine

/-- In every phase of the boot a request of the mailbox is answered (R361). -/
theorem request_next (cmd : BitVec 8) (len : Nat) (s : State) (f : State → State) : ∃ t, request cmd len s f = .next t := by
  unfold request
  (repeat' split) <;> exact ⟨_, rfl⟩

/-- Every row that is no slot instruction answers. The rows stand by the shape of their meaning: one that is a next state
whatever the state, a request of the mailbox, and one that asks first whether the event can happen (log 1); these follow
the chapters. -/
theorem exec_next_of_event {i : Instr} (h : i.slotClass = none) (s : State) : ∃ t, exec i s = .next t := by
  cases i
  case bundleIssue | nop | rep | loopBackEdge | landingDue | wrcSeed | wrcFpctl | wrcKsw | tableWalk | ringSlotFill
      | ringPullBack | ringStop | arrayOperationCompletion | drainEntryWrite | deviceReset =>
    exact ⟨_, rfl⟩
  case openSpace | closeSpace | mapPage | unmapPages | bindWindow | setPool | replica | attest | assign | slabwr =>
    simp only [exec]
    exact request_next _ _ _ _
  -- The issue of bundles and the traps (ch. 3, ch. 15).
  case lookAheadNullifier | resultLanding | lateFaultDetection | trapEntry =>
    simp only [exec, execLookAheadNullifier, execResultLanding, execLateFaultDetection, execTrapEntry]
    (repeat' split) <;> exact ⟨_, rfl⟩
  -- Memory operations, copies and tile moves (ch. 7, ch. 9).
  case landingArrival | memoryAccessPerform | atomicAtHome | amoResponse | postedAcknowledge | postedOperationFailure
      | interlockedLdSLanding | copyCompletion | copyTranslationStop | tileMoveCompletion =>
    simp only [exec, execLandingArrival, execMemoryAccessPerform, execAtomicAtHome, execAmoResponse, execPostedAcknowledge,
      execPostedOperationFailure, execInterlockedLdSLanding, execCopyCompletion, execCopyTranslationStop,
      execTileMoveCompletion]
    (repeat' split) <;> exact ⟨_, rfl⟩
  -- Keystone: launches, beads, slices and nodes (ch. 14).
  case graphLaunch | beadArrival | dispatch | sliceStart | workStealing | nodeCompletion | cancellationC1 | cancellationC2
      | digestArrival | digtimeExpiry =>
    simp only [exec, execGraphLaunch, execBeadArrival, execDispatch, execSliceStart, execWorkStealing, execNodeCompletion,
      execCancellationC1, execCancellationC2, execDigestArrival, execDigtimeExpiry]
    (repeat' split) <;> exact ⟨_, rfl⟩
  -- Pre-emption, images, kill and power (ch. 14, ch. 15, ch. 20).
  case preemptionDecision | preemptKillRequeue | imageSave | killSlice | killDeadline | courseGating | wakeComplete
      | operatingPointChange | powerEmergency | pairMismatch =>
    simp only [exec, execPreemptionDecision, execPreemptKillRequeue, execImageSave, execKillSlice, execKillDeadline,
      execCourseGating, execWakeComplete, execOperatingPointChange, execPowerEmergency, execPairMismatch]
    (repeat' split) <;> exact ⟨_, rfl⟩
  -- The links (ch. 19).
  case railBeatReceive | railFence | railRetrain | linkDown =>
    simp only [exec, execRailBeatReceive, execRailFence, execRailRetrain, execLinkDown]
    (repeat' split) <;> exact ⟨_, rfl⟩
  -- The host's accesses (ch. 19).
  case beadPortBead | beadPortLaunch | apertureWrite | apertureRead | unmatchedBarAccess | gabort | flhead
      | managementRegisterWrite | ctrlWriteWhileGo =>
    simp only [exec, execBeadPortBead, execBeadPortLaunch, execApertureWrite, execApertureRead, execUnmatchedBarAccess,
      execGabort, execFlhead, execManagementRegisterWrite, execCtrlWriteWhileGo]
    (repeat' split) <;> exact ⟨_, rfl⟩
  -- The rest of the monitor's mailbox (ch. 20).
  case loadImage | invalidationComplete | mailboxRequestComplete | unknownCmd =>
    simp only [exec, execLoadImage, execInvalidationComplete, execMailboxRequestComplete, execUnknownCmd]
    (repeat' split) <;> exact ⟨_, rfl⟩
  all_goals cases h

/-- Every row answers: a slot instruction as its issue does, an event by its own branches. -/
theorem exec_next (i : Instr) (s : State) : ∃ t, exec i s = .next t := by
  cases h : i.slotClass with
  | none => exact exec_next_of_event h s
  | some cl =>
    obtain ⟨eff, he⟩ := exec_issues (i := i) (by simp [h])
    exact he s ▸ issue_next i s eff

/-- A step executes the head of the agenda. -/
theorem step_of_agenda_cons {s : State} {e : Instr} {es : List Instr} (h : s.agenda = e :: es) :
    step s = exec e (Claim.afterTick s es) := by
  simp only [step, h, Claim.afterTick]

/-- Where the agenda is empty, a step executes the event that comes next on its own (log 2). -/
theorem step_of_agenda_nil {s : State} (h : s.agenda = []) : step s = exec s.defaultEvent (Claim.afterTick s []) := by
  simp only [step, h, Claim.afterTick]

/-- Every step answers, since it is the execution of a row. -/
theorem step_next (s : State) : ∃ t, step s = .next t := by
  cases h : s.agenda with
  | nil => exact step_of_agenda_nil h ▸ exec_next _ _
  | cons e es => exact step_of_agenda_cons h ▸ exec_next _ _

/-- Settles O1: a step is the execution of a row, and every row answers. -/
theorem stepsAnswer : Obligations.StepsAnswer :=
  ⟨step_next, exec_next, fun _ => ⟨fun _ _ h => step_of_agenda_cons h, fun h => step_of_agenda_nil h⟩⟩

end Sys2Proof.Machine
end

section
/-! SUPPORT. The control registers (Table 5.3): the words that RDC reads where they are laid out in fields, the registers
that have a number, and the WRC that R96 and R216 refuse. -/

namespace Sys2Proof.Machine

/-! ### The instructions -/

theorem runs_rdc (u : Pfx) (r : BitVec 6) (n : BitVec 8) (w : BitVec 6) :
    Claim.Runs (.rdc u r n w) (fun s => s.putS 1 r (s.readCr n w) 0) :=
  runs_of (eff' := fun s => s.putS latAlu r (s.readCr n w) 0) (fun _ => rfl) (fun _ => rfl)

theorem runs_wrc (u : Pfx) (r : BitVec 6) (n : BitVec 8) (w : BitVec 6) :
    Claim.Runs (.wrc u r n w) (fun s => s.result 1 (.cr n w) ((s.readS r).setWidth 1024) 1 0 none) :=
  runs_of (eff' := fun s => s.wrc n w (s.readS r)) (fun _ => rfl) (fun _ => rfl)

/-! ### PRI (Table 1.3) -/

theorem State.readCr_pri (s : State) : s.readCr 0x02 0 = BitVec.ofNat 64 (s.here.own.toNat + 256 * s.eff s.cur) := rfl

theorem State.readCr_pri_own (s : State) : (s.readCr 0x02 0).extractLsb' 0 2 = s.here.own := by
  have := s.here.own.isLt
  apply BitVec.eq_of_toNat_eq
  rw [State.readCr_pri, BitVec.extractLsb'_toNat, BitVec.toNat_ofNat, Nat.shiftRight_zero]
  omega

theorem State.readCr_pri_reserved (s : State) : (s.readCr 0x02 0).extractLsb' 2 6 = 0 := by
  have := s.here.own.isLt
  apply BitVec.eq_of_toNat_eq
  rw [State.readCr_pri, BitVec.extractLsb'_toNat, BitVec.toNat_ofNat, Nat.shiftRight_eq_div_pow]
  change _ = 0
  omega

theorem State.readCr_pri_eff (s : State) (h : s.eff s.cur < 2 ^ 56) : (s.readCr 0x02 0).toNat / 2 ^ 8 = s.eff s.cur := by
  have := s.here.own.isLt
  rw [State.readCr_pri, BitVec.toNat_ofNat]
  omega

/-! ### LOOPST (Table 5.6) -/

/-- DEPTH and LEN lie above the address of the body: each field of word 0 is that of one of its two parts. -/
theorem LoopSt.word_zero (l : LoopSt) :
    (l.word 0).extractLsb' 61 3 = BitVec.ofNat 3 l.depth ∧ (l.word 0).extractLsb' 56 5 = l.len ∧
      (l.word 0).extractLsb' 0 56 = l.body.setWidth 56 &&& 0xFFFFFFFFFFFFFC := by
  have e : l.word 0 = BitVec.ofNat 64 (l.depth * 2 ^ 61 + l.len.toNat * 2 ^ 56) ||| (l.body &&& 0x00FFFFFFFFFFFFFC) := rfl
  have := l.len.isLt
  have depth : (BitVec.ofNat 64 (l.depth * 2 ^ 61 + l.len.toNat * 2 ^ 56)).extractLsb' 61 3 = BitVec.ofNat 3 l.depth := by
    apply BitVec.eq_of_toNat_eq
    rw [BitVec.extractLsb'_toNat, BitVec.toNat_ofNat, BitVec.toNat_ofNat, Nat.shiftRight_eq_div_pow]
    omega
  have len : (BitVec.ofNat 64 (l.depth * 2 ^ 61 + l.len.toNat * 2 ^ 56)).extractLsb' 56 5 = l.len := by
    apply BitVec.eq_of_toNat_eq
    rw [BitVec.extractLsb'_toNat, BitVec.toNat_ofNat, Nat.shiftRight_eq_div_pow]
    omega
  have low : (BitVec.ofNat 64 (l.depth * 2 ^ 61 + l.len.toNat * 2 ^ 56)).extractLsb' 0 56 = 0 := by
    apply BitVec.eq_of_toNat_eq
    rw [BitVec.extractLsb'_toNat, BitVec.toNat_ofNat, Nat.shiftRight_zero]
    change _ = 0
    omega
  simp only [e, BitVec.extractLsb'_or, BitVec.extractLsb'_and, depth, len, low]
  refine ⟨?_, ?_, ?_⟩
  · exact (congrArg _ BitVec.and_zero).trans BitVec.or_zero
  · exact (congrArg _ BitVec.and_zero).trans BitVec.or_zero
  · rw [BitVec.setWidth_eq_extractLsb' (by decide)]
    exact BitVec.zero_or

theorem LoopSt.word_one (l : LoopSt) :
    (l.word 1).toNat = l.grp.toNat * 2 ^ 56 + (SMap.get 0 l.idx 1).toNat * 2 ^ 28 + (SMap.get 0 l.idx 0).toNat := by
  have := l.grp.isLt
  have := (SMap.get 0 l.idx 1).isLt
  have := (SMap.get 0 l.idx 0).isLt
  simp only [LoopSt.word, BitVec.toNat_ofNat]
  omega

theorem LoopSt.word_two (l : LoopSt) (h : l.pos < 32) :
    (l.word 2).toNat = l.pos * 2 ^ 56 + (SMap.get 0 l.idx 3).toNat * 2 ^ 28 + (SMap.get 0 l.idx 2).toNat := by
  have := (SMap.get 0 l.idx 3).isLt
  have := (SMap.get 0 l.idx 2).isLt
  simp only [LoopSt.word, BitVec.toNat_ofNat]
  omega

theorem LoopSt.word_three (l : LoopSt) :
    (l.word 3).toNat = (SMap.get 0 l.idx 5).toNat * 2 ^ 28 + (SMap.get 0 l.idx 4).toNat := by
  have := (SMap.get 0 l.idx 5).isLt
  have := (SMap.get 0 l.idx 4).isLt
  simp only [LoopSt.word, BitVec.toNat_ofNat]
  omega

/-! ### CTN, IFQ, SQ and KSW (Tables 5.9, 5.4, R216) -/

theorem State.readCr_hand (s : State) {j : Nat} (h : j < 4) :
    s.readCr 0x08 (BitVec.ofNat 6 (j + 1)) = SMap.get 0 s.here.hand j := by
  have hn : (BitVec.ofNat 6 (j + 1)).toNat = j + 1 := by rw [BitVec.toNat_ofNat]; omega
  have hz : BitVec.ofNat 6 (j + 1) ≠ 0 := fun e => by simp [e] at hn
  change (if BitVec.ofNat 6 (j + 1) = 0 then _ else SMap.get 0 s.here.hand ((BitVec.ofNat 6 (j + 1)).toNat - 1)) = _
  rw [if_neg hz, hn, Nat.add_sub_cancel]

theorem State.readCr_ifq (s : State) : s.readCr 0x09 0 = BitVec.ofNat 64 s.here.ifqOcc := rfl

theorem State.readCr_sq (s : State) (h : s.myCore.sq.length ≤ 256) :
    (s.readCr 0x0A 0).toNat = s.myCore.sq.length + s.myCore.sqOvf.toNat * 2 ^ 16 := by
  have e : s.readCr 0x0A 0 = BitVec.ofNat 64 (s.myCore.sq.length + s.myCore.sqOvf.toNat * 2 ^ 16) := rfl
  have := s.myCore.sqOvf.isLt
  rw [e, BitVec.toNat_ofNat]
  omega

theorem toNat_kswCode {j : Nat} (h : j < 8) : (BitVec.ofNat 8 (0x10 + j)).toNat = 0x10 + j := by
  rw [BitVec.toNat_ofNat]
  omega

theorem State.readCr_ksw (s : State) (w : BitVec 6) {j : Nat} (h : j < 8) :
    s.readCr (BitVec.ofNat 8 (0x10 + j)) w = (SMap.get 0 s.here.ksw j).setWidth 64 := by
  simp only [State.readCr, toNat_kswCode h]
  rw [if_pos (by omega), Nat.add_sub_cancel_left]

theorem State.writeCr_ksw (s : State) (c : CtxId) (w : BitVec 6) (v : DWord) {j : Nat} (h : j < 8) :
    s.writeCr c (BitVec.ofNat 8 (0x10 + j)) w v =
      s.updCtx c (fun k => { k with ksw := SMap.setD 0 k.ksw j (v.setWidth 32 &&& kswMask) }) := by
  simp only [State.writeCr, toNat_kswCode h]
  rw [if_pos (by omega), Nat.add_sub_cancel_left]

/-! ### The S slot at issue (R82) -/

/-- A value that a control register refuses: FPCTL with RM 5 to 7 (R96), KSWn with AF 3 (R216). -/
def CrRefuses (n : BitVec 8) (v : DWord) : Prop :=
  (n = 0x00 ∧ 5 ≤ v.toNat % 8) ∨ (0x10 ≤ n.toNat ∧ n.toNat ≤ 0x17 ∧ v.toNat / 2 ^ 30 % 4 = 3)

theorem extract_rm (v : DWord) : (v.extractLsb' 0 3).toNat = v.toNat % 8 := BitVec.extractLsb'_toNat 0 3 v

theorem extract_af (v : DWord) : v.extractLsb' 30 2 = 3 ↔ v.toNat / 2 ^ 30 % 4 = 3 := by
  rw [← BitVec.toNat_inj, BitVec.extractLsb'_toNat, Nat.shiftRight_eq_div_pow]
  rfl

theorem sFault_wrc_refused {s : State} {u : Pfx} {a k : BitVec 6} {n : BitVec 8} (h : CrRefuses n (s.readS a)) :
    sFault (.wrc u a n k) s = some (causeIllopnd, 0) := by
  simp only [sFault, extract_rm, extract_af]
  obtain rm | af := h
  · rw [if_pos rm]
  · rw [if_pos af, ite_self]

theorem sFault_wrc_taken {s : State} {u : Pfx} {a k : BitVec 6} {n : BitVec 8} (h : ¬ CrRefuses n (s.readS a)) :
    sFault (.wrc u a n k) s = none := by
  obtain ⟨rm, af⟩ := not_or.mp h
  simp only [sFault, extract_rm, extract_af]
  rw [if_neg rm, if_neg af]

theorem sFault_of_ne_wrc {i : Instr} (h : ∀ u a n k, i ≠ .wrc u a n k) (s : State) : sFault i s = none := by
  unfold sFault
  split
  next u a n k => exact absurd rfl (h u a n k)
  next => rfl

/-- An S slot has the faults of its forms; DETAIL of an illegal operand is the word (R82). -/
theorem issueFault_s (w : Word) (i : Instr) (s : State) :
    issueFault .s w i s = (sFault i s).map (fun x => if x.1 = causeIllopnd then (x.1, w.setWidth 128) else x) := rfl

/-- Settles O18: the rows of Table 5.3 that are one register whole hold as `readCr` and `writeCr` write them out; the rows
laid out in fields, the numbered registers and the refused writes hold by the lemmas above. -/
theorem controlRegisters : Obligations.ControlRegisters := by
  refine ⟨fun u r n w => ⟨runs_rdc u r n w, runs_wrc u r n w, fun s => ?_⟩, fun s c w v => ?_, fun s w => ⟨?_, ?_⟩⟩
  · refine ⟨rfl, rfl, ⟨s.readCr_pri_own, s.readCr_pri_reserved, s.readCr_pri_eff⟩, rfl, rfl, rfl, rfl, fun _ hp => ?_, rfl,
      fun _ => s.readCr_hand, fun t ht => ?_, fun ht => ?_, s.readCr_sq, rfl, rfl, rfl, rfl, fun _ => s.readCr_ksw 0,
      rfl, rfl, rfl, rfl, rfl⟩
    · obtain ⟨depth, len, body⟩ := s.here.loop.word_zero
      exact ⟨depth, len, body, s.here.loop.word_one, s.here.loop.word_two hp, s.here.loop.word_three⟩
    · rw [s.readCr_ifq, Ctx.ifqOcc, ht]
    · rw [s.readCr_ifq, Ctx.ifqOcc, ht]
  · refine ⟨rfl, rfl, rfl, rfl, rfl, rfl, fun _ => s.writeCr_ksw c w v, rfl, rfl, rfl, rfl, ?_⟩
    simp only [List.forall_mem_cons]
    exact ⟨rfl, rfl, rfl, rfl, rfl, rfl, rfl, rfl, rfl, rfl, nofun⟩
  · intro u a k n
    refine ⟨fun h => ?_, fun h => ?_⟩
    · rw [issueFault_s, sFault_wrc_refused h]
      rfl
    · rw [issueFault_s, sFault_wrc_taken h]
      rfl
  · intro i h
    rw [issueFault_s, sFault_of_ne_wrc h]
    rfl

end Sys2Proof.Machine
end

section
/-! SUPPORT. The canonical form of the memory is an invariant of the machine: each row of the table keeps it, so each step
does, and the state after reset has it. -/

namespace Sys2Proof.Machine

/-- Every row of the table keeps the canonical form of the memory. -/
theorem exec_wf : ∀ (i : Instr) (s : State) {t : State}, Memory.wf s.mem = true → exec i s = .next t →
    Memory.wf t.mem = true
  | .bundleIssue core, s, _, h, ht => execBundleIssue_wf core s h ht
  | .lookAheadNullifier c, s, _, h, ht => execLookAheadNullifier_wf c s h ht
  | .resultLanding c k, s, _, h, ht => execResultLanding_wf c k s h ht
  | .loopBackEdge c, s, _, h, ht => execLoopBackEdge_wf c s h ht
  | .landingDue c l, s, _, h, ht => execLandingDue_wf c l s h ht
  | .landingArrival c l, s, _, h, ht => execLandingArrival_wf c l s h ht
  | .memoryAccessPerform c k err, s, _, h, ht => execMemoryAccessPerform_wf c k err s h ht
  | .atomicAtHome c k, s, _, h, ht => execAtomicAtHome_wf c k s h ht
  | .amoResponse c k, s, _, h, ht => execAmoResponse_wf c k s h ht
  | .postedAcknowledge c k, s, _, h, ht => execPostedAcknowledge_wf c k s h ht
  | .copyCompletion c n, s, _, h, ht => execCopyCompletion_wf c n s h ht
  | .copyTranslationStop c n, s, _, h, ht => execCopyTranslationStop_wf c n s h ht
  | .postedOperationFailure c k, s, _, h, ht => execPostedOperationFailure_wf c k s h ht
  | .tableWalk space va acc, s, _, h, ht => execTableWalk_wf space va acc s h ht
  | .arrayOperationCompletion core err, s, _, h, ht => execArrayOperationCompletion_wf core err s h ht
  | .drainEntryWrite core, s, _, h, ht => execDrainEntryWrite_wf core s h ht
  | .ringSlotFill c n m, s, _, h, ht => execRingSlotFill_wf c n m s h ht
  | .ringPullBack c n m, s, _, h, ht => execRingPullBack_wf c n m s h ht
  | .ringStop c n m, s, _, h, ht => execRingStop_wf c n m s h ht
  | .lateFaultDetection c, s, _, h, ht => execLateFaultDetection_wf c s h ht
  | .trapEntry c, s, _, h, ht => execTrapEntry_wf c s h ht
  | .graphLaunch k, s, _, h, ht => execGraphLaunch_wf k s h ht
  | .beadArrival k, s, _, h, ht => execBeadArrival_wf k s h ht
  | .dispatch course, s, _, h, ht => execDispatch_wf course s h ht
  | .sliceStart core, s, _, h, ht => execSliceStart_wf core s h ht
  | .workStealing core, s, _, h, ht => execWorkStealing_wf core s h ht
  | .nodeCompletion graph node, s, _, h, ht => execNodeCompletion_wf graph node s h ht
  | .cancellationC1 k, s, _, h, ht => execCancellationC1_wf k s h ht
  | .cancellationC2 k, s, _, h, ht => execCancellationC2_wf k s h ht
  | .preemptionDecision core, s, _, h, ht => execPreemptionDecision_wf core s h ht
  | .imageSave c, s, _, h, ht => execImageSave_wf c s h ht
  | .killSlice c, s, _, h, ht => execKillSlice_wf c s h ht
  | .killDeadline c, s, _, h, ht => execKillDeadline_wf c s h ht
  | .preemptKillRequeue graph node, s, _, h, ht => execPreemptKillRequeue_wf graph node s h ht
  | .courseGating course, s, _, h, ht => execCourseGating_wf course s h ht
  | .wakeComplete course, s, _, h, ht => execWakeComplete_wf course s h ht
  | .operatingPointChange course mhz mv, s, _, h, ht => execOperatingPointChange_wf course mhz mv s h ht
  | .powerEmergency course mhz mv, s, _, h, ht => execPowerEmergency_wf course mhz mv s h ht
  | .pairMismatch core pc, s, _, h, ht => execPairMismatch_wf core pc s h ht
  | .railBeatReceive link erased, s, _, h, ht => execRailBeatReceive_wf link erased s h ht
  | .wrcSeed c, s, _, h, ht => execWrcSeed_wf c s h ht
  | .wrcFpctl c, s, _, h, ht => execWrcFpctl_wf c s h ht
  | .wrcKsw c n, s, _, h, ht => execWrcKsw_wf c n s h ht
  | .nop ib, s, _, h, ht => execNop_wf ib s h ht
  | .rep adv stride count, s, _, h, ht => execRep_wf adv stride count s h ht
  | .br u o, s, _, h, ht => execBr_wf u o s h ht
  | .jmp u r, s, _, h, ht => execJmp_wf u r s h ht
  | .call u o, s, _, h, ht => execCall_wf u o s h ht
  | .ret u, s, _, h, ht => execRet_wf u s h ht
  | .loop u l d r, s, _, h, ht => execLoop_wf u l d r s h ht
  | .wait u k m, s, _, h, ht => execWait_wf u k m s h ht
  | .bar u b m, s, _, h, ht => execBar_wf u b m s h ht
  | .fence u r m, s, _, h, ht => execFence_wf u r m s h ht
  | .trap u c, s, _, h, ht => execTrap_wf u c s h ht
  | .eret u, s, _, h, ht => execEret_wf u s h ht
  | .setpri u c, s, _, h, ht => execSetpri_wf u c s h ht
  | .ctnOpen u o, s, _, h, ht => execCtnOpen_wf u o s h ht
  | .ctnClose u, s, _, h, ht => execCtnClose_wf u s h ht
  | .glaunch u r, s, _, h, ht => execGlaunch_wf u r s h ht
  | .bead u r t, s, _, h, ht => execBead_wf u r t s h ht
  | .ndone u, s, _, h, ht => execNdone_wf u s h ht
  | .yield u, s, _, h, ht => execYield_wf u s h ht
  | .halt u, s, _, h, ht => execHalt_wf u s h ht
  | .sqrd u r, s, _, h, ht => execSqrd_wf u r s h ht
  | .add u d a b, s, _, h, ht => execAdd_wf u d a b s h ht
  | .sub u d a b, s, _, h, ht => execSub_wf u d a b s h ht
  | .mul u d a b, s, _, h, ht => execMul_wf u d a b s h ht
  | .mulh u d a b, s, _, h, ht => execMulh_wf u d a b s h ht
  | .mulhu u d a b, s, _, h, ht => execMulhu_wf u d a b s h ht
  | .div u d a b, s, _, h, ht => execDiv_wf u d a b s h ht
  | .divu u d a b, s, _, h, ht => execDivu_wf u d a b s h ht
  | .rem u d a b, s, _, h, ht => execRem_wf u d a b s h ht
  | .remu u d a b, s, _, h, ht => execRemu_wf u d a b s h ht
  | .and u d a b, s, _, h, ht => execAnd_wf u d a b s h ht
  | .or u d a b, s, _, h, ht => execOr_wf u d a b s h ht
  | .xor u d a b, s, _, h, ht => execXor_wf u d a b s h ht
  | .shl u d a b, s, _, h, ht => execShl_wf u d a b s h ht
  | .shr u d a b, s, _, h, ht => execShr_wf u d a b s h ht
  | .ashr u d a b, s, _, h, ht => execAshr_wf u d a b s h ht
  | .sel u d a p, s, _, h, ht => execSel_wf u d a p s h ht
  | .min u d a b, s, _, h, ht => execMin_wf u d a b s h ht
  | .max u d a b, s, _, h, ht => execMax_wf u d a b s h ht
  | .minu u d a b, s, _, h, ht => execMinu_wf u d a b s h ht
  | .maxu u d a b, s, _, h, ht => execMaxu_wf u d a b s h ht
  | .clz u d a, s, _, h, ht => execClz_wf u d a s h ht
  | .ctz u d a, s, _, h, ht => execCtz_wf u d a s h ht
  | .popc u d a, s, _, h, ht => execPopc_wf u d a s h ht
  | .addi u d a n, s, _, h, ht => execAddi_wf u d a n s h ht
  | .andi u d a n, s, _, h, ht => execAndi_wf u d a n s h ht
  | .ori u d a n, s, _, h, ht => execOri_wf u d a n s h ht
  | .xori u d a n, s, _, h, ht => execXori_wf u d a n s h ht
  | .shli u d a n, s, _, h, ht => execShli_wf u d a n s h ht
  | .shri u d a n, s, _, h, ht => execShri_wf u d a n s h ht
  | .ashri u d a n, s, _, h, ht => execAshri_wf u d a n s h ht
  | .movi u d n, s, _, h, ht => execMovi_wf u d n s h ht
  | .movs u d n, s, _, h, ht => execMovs_wf u d n s h ht
  | .rdc u r c w, s, _, h, ht => execRdc_wf u r c w s h ht
  | .wrc u r c w, s, _, h, ht => execWrc_wf u r c w s h ht
  | .fcmple u p a b f w, s, _, h, ht => execFcmple_wf u p a b f w s h ht
  | .fcmpun u p a b f w, s, _, h, ht => execFcmpun_wf u p a b f w s h ht
  | .cmpeq u p a b, s, _, h, ht => execCmpeq_wf u p a b s h ht
  | .cmpne u p a b, s, _, h, ht => execCmpne_wf u p a b s h ht
  | .cmplt u p a b, s, _, h, ht => execCmplt_wf u p a b s h ht
  | .cmpltu u p a b, s, _, h, ht => execCmpltu_wf u p a b s h ht
  | .cmple u p a b, s, _, h, ht => execCmple_wf u p a b s h ht
  | .cmpleu u p a b, s, _, h, ht => execCmpleu_wf u p a b s h ht
  | .fcmpeq u p a b f w, s, _, h, ht => execFcmpeq_wf u p a b f w s h ht
  | .fcmplt u p a b f w, s, _, h, ht => execFcmplt_wf u p a b f w s h ht
  | .faddF32 u d a b f o, s, _, h, ht => execFaddF32_wf u d a b f o s h ht
  | .fsubF32 u d a b f o, s, _, h, ht => execFsubF32_wf u d a b f o s h ht
  | .fmulF32 u d a b f o, s, _, h, ht => execFmulF32_wf u d a b f o s h ht
  | .ffmaF32 u d a b f o, s, _, h, ht => execFfmaF32_wf u d a b f o s h ht
  | .fdivF32 u d a b f o, s, _, h, ht => execFdivF32_wf u d a b f o s h ht
  | .fsqrtF32 u d a f o, s, _, h, ht => execFsqrtF32_wf u d a f o s h ht
  | .faddF64 u d a b f o, s, _, h, ht => execFaddF64_wf u d a b f o s h ht
  | .fsubF64 u d a b f o, s, _, h, ht => execFsubF64_wf u d a b f o s h ht
  | .fmulF64 u d a b f o, s, _, h, ht => execFmulF64_wf u d a b f o s h ht
  | .ffmaF64 u d a b f o, s, _, h, ht => execFfmaF64_wf u d a b f o s h ht
  | .fdivF64 u d a b f o, s, _, h, ht => execFdivF64_wf u d a b f o s h ht
  | .fsqrtF64 u d a f o, s, _, h, ht => execFsqrtF64_wf u d a f o s h ht
  | .xadd u x a b, s, _, h, ht => execXadd_wf u x a b s h ht
  | .xaddi u x a n, s, _, h, ht => execXaddi_wf u x a n s h ht
  | .xsub u x a b, s, _, h, ht => execXsub_wf u x a b s h ht
  | .xshli u x a n, s, _, h, ht => execXshli_wf u x a n s h ht
  | .xshri u x a n, s, _, h, ht => execXshri_wf u x a n s h ht
  | .xand u x a b, s, _, h, ht => execXand_wf u x a b s h ht
  | .xpopc u x a, s, _, h, ht => execXpopc_wf u x a s h ht
  | .xcmpadv u x a b c f, s, _, h, ht => execXcmpadv_wf u x a b c f s h ht
  | .xpatd u x a k, s, _, h, ht => execXpatd_wf u x a k s h ht
  | .xbnet u x a b e, s, _, h, ht => execXbnet_wf u x a b e s h ht
  | .xbnld u e v, s, _, h, ht => execXbnld_wf u e v s h ht
  | .xbperm u x a b c f, s, _, h, ht => execXbperm_wf u x a b c f s h ht
  | .xfroms u x r, s, _, h, ht => execXfroms_wf u x r s h ht
  | .xtos u x r, s, _, h, ht => execXtos_wf u x r s h ht
  | .xmov u x a, s, _, h, ht => execXmov_wf u x a s h ht
  | .xmovi u x n, s, _, h, ht => execXmovi_wf u x n s h ht
  | .vadd u t d a b f o, s, _, h, ht => execVadd_wf u t d a b f o s h ht
  | .vsub u t d a b f o, s, _, h, ht => execVsub_wf u t d a b f o s h ht
  | .vmul u t d a b f o, s, _, h, ht => execVmul_wf u t d a b f o s h ht
  | .vfma u t d a b f o, s, _, h, ht => execVfma_wf u t d a b f o s h ht
  | .vfms u t d a b f o, s, _, h, ht => execVfms_wf u t d a b f o s h ht
  | .vdiv u t d a b f o, s, _, h, ht => execVdiv_wf u t d a b f o s h ht
  | .vsqrt u t d a f o, s, _, h, ht => execVsqrt_wf u t d a f o s h ht
  | .vmin u t d a b f, s, _, h, ht => execVmin_wf u t d a b f s h ht
  | .vmax u t d a b f, s, _, h, ht => execVmax_wf u t d a b f s h ht
  | .vabs u t d a o, s, _, h, ht => execVabs_wf u t d a o s h ht
  | .vneg u t d a o, s, _, h, ht => execVneg_wf u t d a o s h ht
  | .vrcp u t d a f o, s, _, h, ht => execVrcp_wf u t d a f o s h ht
  | .vrsq u t d a f o, s, _, h, ht => execVrsq_wf u t d a f o s h ht
  | .vexp2 u t d a f o, s, _, h, ht => execVexp2_wf u t d a f o s h ht
  | .vlog2 u t d a f o, s, _, h, ht => execVlog2_wf u t d a f o s h ht
  | .vsel u c w d a b, s, _, h, ht => execVsel_wf u c w d a b s h ht
  | .vand u t d a b, s, _, h, ht => execVand_wf u t d a b s h ht
  | .vor u t d a b, s, _, h, ht => execVor_wf u t d a b s h ht
  | .vxor u t d a b, s, _, h, ht => execVxor_wf u t d a b s h ht
  | .vnot u t d a, s, _, h, ht => execVnot_wf u t d a s h ht
  | .vshl u t d a b, s, _, h, ht => execVshl_wf u t d a b s h ht
  | .vshr u t d a b, s, _, h, ht => execVshr_wf u t d a b s h ht
  | .vashr u t d a b, s, _, h, ht => execVashr_wf u t d a b s h ht
  | .vscn u t d a b f o, s, _, h, ht => execVscn_wf u t d a b f o s h ht
  | .vcmpeq u t p a b f, s, _, h, ht => execVcmpeq_wf u t p a b f s h ht
  | .vcmpne u t p a b f, s, _, h, ht => execVcmpne_wf u t p a b f s h ht
  | .vcmplt u t p a b f, s, _, h, ht => execVcmplt_wf u t p a b f s h ht
  | .vcmple u t p a b f, s, _, h, ht => execVcmple_wf u t p a b f s h ht
  | .vcmpun u t p a b f, s, _, h, ht => execVcmpun_wf u t p a b f s h ht
  | .vcvt u t d a q r f o, s, _, h, ht => execVcvt_wf u t d a q r f o s h ht
  | .vcvtd u t d a r f o, s, _, h, ht => execVcvtd_wf u t d a r f o s h ht
  | .vperm u t d a b, s, _, h, ht => execVperm_wf u t d a b s h ht
  | .vbcast u t d a l, s, _, h, ht => execVbcast_wf u t d a l s h ht
  | .vredadd u t d a f o, s, _, h, ht => execVredadd_wf u t d a f o s h ht
  | .vredmax u t d a f, s, _, h, ht => execVredmax_wf u t d a f s h ht
  | .vredmin u t d a f, s, _, h, ht => execVredmin_wf u t d a f s h ht
  | .vpopq u d q, s, _, h, ht => execVpopq_wf u d q s h ht
  | .vpopl u d l, s, _, h, ht => execVpopl_wf u d l s h ht
  | .vrng u t d a, s, _, h, ht => execVrng_wf u t d a s h ht
  | .prune u d a b k, s, _, h, ht => execPrune_wf u d a b k s h ht
  | .topk u t d a b, s, _, h, ht => execTopk_wf u t d a b s h ht
  | .qnt u d a b f, s, _, h, ht => execQnt_wf u d a b f s h ht
  | .dq u d a b o, s, _, h, ht => execDq_wf u d a b o s h ht
  | .spenc u t d a k, s, _, h, ht => execSpenc_wf u t d a k s h ht
  | .spdec u t d a k, s, _, h, ht => execSpdec_wf u t d a k s h ht
  | .vmvs u r v l, s, _, h, ht => execVmvs_wf u r v l s h ht
  | .vmsv u r v l, s, _, h, ht => execVmsv_wf u r v l s h ht
  | .vmoviI32 u m d n, s, _, h, ht => execVmoviI32_wf u m d n s h ht
  | .vmoviI64 u m d n, s, _, h, ht => execVmoviI64_wf u m d n s h ht
  | .vmoviF32 u m d n, s, _, h, ht => execVmoviF32_wf u m d n s h ht
  | .vmoviF64 u m d n, s, _, h, ht => execVmoviF64_wf u m d n s h ht
  | .vmoviF16 u m d n, s, _, h, ht => execVmoviF16_wf u m d n s h ht
  | .vmoviBf16 u m d n, s, _, h, ht => execVmoviBf16_wf u m d n s h ht
  | .vmoviH8 u m d n, s, _, h, ht => execVmoviH8_wf u m d n s h ht
  | .mma u p k a b z r f o, s, _, h, ht => execMma_wf u p k a b z r f o s h ht
  | .mmaS u p k a b z r f o, s, _, h, ht => execMmaS_wf u p k a b z r f o s h ht
  | .mmaK4 u k a b m, s, _, h, ht => execMmaK4_wf u k a b m s h ht
  | .trsm u k e w l, s, _, h, ht => execTrsm_wf u k e w l s h ht
  | .getrf u k w l, s, _, h, ht => execGetrf_wf u k w l s h ht
  | .potrf u k w l, s, _, h, ht => execPotrf_wf u k w l s h ht
  | .givqr u k e w, s, _, h, ht => execGivqr_wf u k e w s h ht
  | .rotapp u k e w l, s, _, h, ht => execRotapp_wf u k e w l s h ht
  | .accz u k, s, _, h, ht => execAccz_wf u k s h ht
  | .accld u k d, s, _, h, ht => execAccld_wf u k d s h ht
  | .accst u a d, s, _, h, ht => execAccst_wf u a d s h ht
  | .drain u a q, s, _, h, ht => execDrain_wf u a q s h ht
  | .accmov u k a, s, _, h, ht => execAccmov_wf u k a s h ht
  | .acct u d, s, _, h, ht => execAcct_wf u d s h ht
  | .cbld u d c, s, _, h, ht => execCbld_wf u d c s h ht
  | .spld u d, s, _, h, ht => execSpld_wf u d s h ht
  | .ldV u v a c o, s, _, h, ht => execLdV_wf u v a c o s h ht
  | .stV u v a c o, s, _, h, ht => execStV_wf u v a c o s h ht
  | .ldVs u v a c w, s, _, h, ht => execLdVs_wf u v a c w s h ht
  | .stVs u v a c w, s, _, h, ht => execStVs_wf u v a c w s h ht
  | .ldVx u v a b c, s, _, h, ht => execLdVx_wf u v a b c s h ht
  | .stVx u v a b c, s, _, h, ht => execStVx_wf u v a b c s h ht
  | .ldrL u l a c t, s, _, h, ht => execLdrL_wf u l a c t s h ht
  | .pf u d a c, s, _, h, ht => execPf_wf u d a c s h ht
  | .ldS u a c e r w, s, _, h, ht => execLdS_wf u a c e r w s h ht
  | .stS u a c e r w, s, _, h, ht => execStS_wf u a c e r w s h ht
  | .amoAdd u a c e r w, s, _, h, ht => execAmoAdd_wf u a c e r w s h ht
  | .amoFadd u a c e r w, s, _, h, ht => execAmoFadd_wf u a c e r w s h ht
  | .amoMin u a c e r w, s, _, h, ht => execAmoMin_wf u a c e r w s h ht
  | .amoMax u a c e r w, s, _, h, ht => execAmoMax_wf u a c e r w s h ht
  | .amoMinu u a c e r w, s, _, h, ht => execAmoMinu_wf u a c e r w s h ht
  | .amoMaxu u a c e r w, s, _, h, ht => execAmoMaxu_wf u a c e r w s h ht
  | .amoAnd u a c e r w, s, _, h, ht => execAmoAnd_wf u a c e r w s h ht
  | .amoOr u a c e r w, s, _, h, ht => execAmoOr_wf u a c e r w s h ht
  | .amoXor u a c e r w, s, _, h, ht => execAmoXor_wf u a c e r w s h ht
  | .amoSwp u a c e r w, s, _, h, ht => execAmoSwp_wf u a c e r w s h ht
  | .amoCas u a c e r w, s, _, h, ht => execAmoCas_wf u a c e r w s h ht
  | .redAdd u a c r w, s, _, h, ht => execRedAdd_wf u a c r w s h ht
  | .redFadd u a c r w, s, _, h, ht => execRedFadd_wf u a c r w s h ht
  | .redMin u a c r w, s, _, h, ht => execRedMin_wf u a c r w s h ht
  | .redMax u a c r w, s, _, h, ht => execRedMax_wf u a c r w s h ht
  | .redAnd u a c r w, s, _, h, ht => execRedAnd_wf u a c r w s h ht
  | .redOr u a c r w, s, _, h, ht => execRedOr_wf u a c r w s h ht
  | .redXor u a c r w, s, _, h, ht => execRedXor_wf u a c r w s h ht
  | .cpIn u d a n c, s, _, h, ht => execCpIn_wf u d a n c s h ht
  | .cpOut u d a n c, s, _, h, ht => execCpOut_wf u d a n c s h ht
  | .cpSs u d a n c, s, _, h, ht => execCpSs_wf u d a n c s h ht
  | .rsub u d a n c, s, _, h, ht => execRsub_wf u d a n c s h ht
  | .srel u d a c, s, _, h, ht => execSrel_wf u d a c s h ht
  | .fpush u v a c, s, _, h, ht => execFpush_wf u v a c s h ht
  | .fpushq u q a c r, s, _, h, ht => execFpushq_wf u q a c r s h ht
  | .stq u q a c r, s, _, h, ht => execStq_wf u q a c r s h ht
  | .interlockedLdSLanding c k, s, _, h, ht => execInterlockedLdSLanding_wf c k s h ht
  | .tileMoveCompletion c k, s, _, h, ht => execTileMoveCompletion_wf c k s h ht
  | .deviceReset, s, _, h, ht => execDeviceReset_wf s h ht
  | .digestArrival, s, _, h, ht => execDigestArrival_wf s h ht
  | .digtimeExpiry, s, _, h, ht => execDigtimeExpiry_wf s h ht
  | .railFence, s, _, h, ht => execRailFence_wf s h ht
  | .railRetrain, s, _, h, ht => execRailRetrain_wf s h ht
  | .linkDown, s, _, h, ht => execLinkDown_wf s h ht
  | .beadPortBead, s, _, h, ht => execBeadPortBead_wf s h ht
  | .beadPortLaunch, s, _, h, ht => execBeadPortLaunch_wf s h ht
  | .apertureWrite, s, _, h, ht => execApertureWrite_wf s h ht
  | .apertureRead, s, _, h, ht => execApertureRead_wf s h ht
  | .unmatchedBarAccess, s, _, h, ht => execUnmatchedBarAccess_wf s h ht
  | .gabort, s, _, h, ht => execGabort_wf s h ht
  | .flhead, s, _, h, ht => execFlhead_wf s h ht
  | .managementRegisterWrite, s, _, h, ht => execManagementRegisterWrite_wf s h ht
  | .openSpace, s, _, h, ht => execOpenSpace_wf s h ht
  | .closeSpace, s, _, h, ht => execCloseSpace_wf s h ht
  | .mapPage, s, _, h, ht => execMapPage_wf s h ht
  | .unmapPages, s, _, h, ht => execUnmapPages_wf s h ht
  | .bindWindow, s, _, h, ht => execBindWindow_wf s h ht
  | .setPool, s, _, h, ht => execSetPool_wf s h ht
  | .replica, s, _, h, ht => execReplica_wf s h ht
  | .attest, s, _, h, ht => execAttest_wf s h ht
  | .loadImage, s, _, h, ht => execLoadImage_wf s h ht
  | .assign, s, _, h, ht => execAssign_wf s h ht
  | .slabwr, s, _, h, ht => execSlabwr_wf s h ht
  | .invalidationComplete, s, _, h, ht => execInvalidationComplete_wf s h ht
  | .mailboxRequestComplete, s, _, h, ht => execMailboxRequestComplete_wf s h ht
  | .unknownCmd, s, _, h, ht => execUnknownCmd_wf s h ht
  | .ctrlWriteWhileGo, s, _, h, ht => execCtrlWriteWhileGo_wf s h ht

/-- Settles O6: a step is the execution of one row on a state with the same memory, and every row keeps the form. -/
theorem memoryStaysCanonical : Obligations.MemoryStaysCanonical := by
  intro s t h ht
  cases ha : s.agenda with
  | nil => exact exec_wf _ (Claim.afterTick s []) h (step_of_agenda_nil ha ▸ ht)
  | cons e es => exact exec_wf e (Claim.afterTick s es) h (step_of_agenda_cons ha ▸ ht)

/-- Settles O7: no byte is listed after reset. -/
theorem resetMemoryCanonical : Obligations.ResetMemoryCanonical := rfl

end Sys2Proof.Machine
end

section
/-! SUPPORT. Registers: what a write to a destination leaves in it and in every other (R27, R84), lane by lane where the
destination is a vector register (R94, R142); and the banks of a slab (R31). -/

namespace Sys2Proof.Machine

/-! ### Bits of packed lists -/

theorem testBit_natOfBits (l : List Bool) (i : Nat) : (natOfBits l).testBit i = l.getD i false := by
  induction l generalizing i with
  | nil => simp [natOfBits]
  | cons b l ih =>
    cases i with
    | zero => cases b <;> simp [natOfBits, Nat.testBit_zero]
    | succ i =>
      have half : (natOfBits (b :: l)) / 2 = natOfBits l := by
        rw [natOfBits]
        split <;> omega
      rw [Nat.testBit_succ, half, ih, List.getD_cons_succ]

theorem testBit_natOfBytes (l : List Byte) (i : Nat) : (natOfBytes l).testBit i = (l.getD (i / 8) 0).getLsbD (i % 8) := by
  induction l generalizing i with
  | nil => simp [natOfBytes]
  | cons b l ih =>
    have split : natOfBytes (b :: l) = 2 ^ 8 * natOfBytes l + b.toNat := by simp only [natOfBytes]; omega
    rw [split, Nat.testBit_two_pow_mul_add _ b.isLt]
    by_cases h : i < 8
    · simp [h, Nat.div_eq_of_lt h, Nat.mod_eq_of_lt h, BitVec.getLsbD]
    · obtain ⟨k, rfl⟩ := Nat.exists_eq_add_of_le (Nat.le_of_not_lt h)
      have d : (8 + k) / 8 = k / 8 + 1 := by omega
      simp [h, ih, d]

/-- A byte of a mask is all ones where the part has it. -/
theorem getLsbD_byteMask (m : Part) {k : Nat} (h : k < 1024) : (byteMask m).getLsbD k = m.getLsbD (k / 8) := by
  have hk : k / 8 < 128 := by omega
  have ones : (0xFF : Byte).getLsbD (k % 8) = true := by
    have : k % 8 < 8 := by omega
    generalize k % 8 = j at this
    interval_cases j <;> rfl
  rw [byteMask, BitVec.getLsbD_ofNat, testBit_natOfBytes]
  simp only [h, decide_true, Bool.true_and, List.getD_eq_getElem?_getD, List.getElem?_map, List.getElem?_range hk,
    Option.map_some, Option.getD_some]
  cases m.getLsbD (k / 8)
  · simp
  · exact ones

theorem getLsbD_elemPart (w : Nat) (act : Nat → Bool) {j : Nat} (h : j < 128) :
    (elemPart w act).getLsbD j = act (8 * j / w) := by
  rw [elemPart, BitVec.getLsbD_ofNat, testBit_natOfBits]
  simp [h, List.getD_eq_getElem?_getD]

/-- An element of a packed list. -/
theorem packElems_div_mod (w : Nat) (xs : List Nat) (i : Nat) :
    packElems w xs / 2 ^ (w * i) % 2 ^ w = xs.getD i 0 % 2 ^ w := by
  induction xs generalizing i with
  | nil => simp [packElems]
  | cons x xs ih =>
    cases i with
    | zero => simp [packElems]
    | succ i =>
      have low : (packElems w (x :: xs)) / 2 ^ w = packElems w xs := by
        rw [packElems, Nat.add_mul_div_left _ _ (Nat.two_pow_pos w), Nat.div_eq_of_lt (Nat.mod_lt _ (Nat.two_pow_pos w)),
          Nat.zero_add]
      rw [Nat.mul_succ, Nat.add_comm, Nat.pow_add, ← Nat.div_div_eq_div_mul, low, ih, List.getD_cons_succ]

/-! ### Elements -/

theorem elem_eq (w : Nat) (v : Vec) (i : Nat) : elem w v i = v.toNat / 2 ^ (w * i) % 2 ^ w := by
  rw [elem, BitVec.extractLsb'_toNat, Nat.shiftRight_eq_div_pow]

theorem elem_packElems (w : Nat) (xs : List Nat) {i : Nat} (h : w * (i + 1) ≤ 1024) :
    elem w (BitVec.ofNat 1024 (packElems w xs)) i = xs.getD i 0 % 2 ^ w := by
  have split : 1024 = w * i + (1024 - w * i) := by rw [Nat.mul_succ] at h; omega
  have low : w ≤ 1024 - w * i := by rw [Nat.mul_succ] at h; omega
  rw [elem_eq, BitVec.toNat_ofNat, split, Nat.pow_add, Nat.mod_mul_right_div_self,
    Nat.mod_mod_of_dvd _ (Nat.pow_dvd_pow 2 low), packElems_div_mod]

/-- The byte in which a bit of an element of whole bytes lies is a byte of that element. -/
theorem div_of_elem_bit {w i j : Nat} (hw : w ∈ [8, 16, 32, 64]) (hj : j < w) : 8 * ((w * i + j) / 8) / w = i := by
  simp only [List.mem_cons, List.not_mem_nil, or_false] at hw
  obtain rfl | rfl | rfl | rfl := hw <;> omega

/-- A write whose part is whole elements takes the new element where it is active, else the old one. -/
theorem elem_mix {r : BitVec 5} {w i : Nat} (hw : w ∈ [8, 16, 32, 64]) (hi : w * (i + 1) ≤ 1024) (old new : Vec)
    (act : Nat → Bool) :
    elem w ((Dest.v r).mix old new (elemPart w act)) i = if act i then elem w new i else elem w old i := by
  have bit (j : Nat) (hj : j < w) : ((Dest.v r).mix old new (elemPart w act)).getLsbD (w * i + j) =
      if act i then new.getLsbD (w * i + j) else old.getLsbD (w * i + j) := by
    have hk : w * i + j < 1024 := by rw [Nat.mul_succ] at hi; omega
    simp only [Dest.mix, Dest.maskOf, BitVec.getLsbD_or, BitVec.getLsbD_and, BitVec.getLsbD_not, hk, decide_true,
      Bool.true_and, getLsbD_byteMask _ hk, getLsbD_elemPart w act (show (w * i + j) / 8 < 128 by omega),
      div_of_elem_bit hw hj]
    cases act i <;> simp
  have whole : ((Dest.v r).mix old new (elemPart w act)).extractLsb' (w * i) w =
      if act i then new.extractLsb' (w * i) w else old.extractLsb' (w * i) w := by
    apply BitVec.eq_of_getLsbD_eq
    intro j hj
    rw [BitVec.getLsbD_extractLsb', bit j hj]
    cases act i <;> simp [hj]
  rw [elem, whole]
  cases act i <;> rfl

/-! ### Writes to registers -/

theorem Ctx.store_s (c : Ctx) {r : BitVec 6} (v : Vec) (m : Part) (h : r ≠ 0) :
    c.store (.s r) v m = { c with
      unpred := SMap.setD 0 c.unpred (Dest.s r).site (SMap.get 0 c.unpred (Dest.s r).site &&& ~~~m)
      s := SMap.setD 0 c.s r.toNat (((Dest.s r).mix (c.stored (.s r)) v m).setWidth 64) } := if_neg h

theorem Ctx.store_p (c : Ctx) {r : BitVec 4} (v : Vec) (m : Part) (h : r ≠ 0) :
    c.store (.p r) v m = { c with
      unpred := SMap.setD 0 c.unpred (Dest.p r).site (SMap.get 0 c.unpred (Dest.p r).site &&& ~~~m)
      p := SMap.setD 0 c.p r.toNat (((Dest.p r).mix (c.stored (.p r)) v m).setWidth 32) } := if_neg h

/-- A write changes the register files and what an unwind has left unpredictable, and nothing else. -/
theorem Ctx.store_frame (c : Ctx) (d : Dest) (v : Vec) (m : Part) :
    c.store d v m = { c with
      s := (c.store d v m).s, v := (c.store d v m).v, p := (c.store d v m).p, x := (c.store d v m).x
      bn := (c.store d v m).bn, unpred := (c.store d v m).unpred } := by
  cases d
  case s r =>
    by_cases h : r = 0
    · subst h; rfl
    · rw [c.store_s v m h]
  case p r =>
    by_cases h : r = 0
    · subst h; rfl
    · rw [c.store_p v m h]
  all_goals rfl

@[simp] theorem Ctx.store_fpsw (c : Ctx) (d : Dest) (v : Vec) (m : Part) : (c.store d v m).fpsw = c.fpsw :=
  (congrArg Ctx.fpsw (c.store_frame d v m) :)

@[simp] theorem Ctx.store_did (c : Ctx) (d : Dest) (v : Vec) (m : Part) : (c.store d v m).did = c.did :=
  (congrArg Ctx.did (c.store_frame d v m) :)

/-- A write to s0 changes no register (R27). -/
theorem Ctx.stored_store_s0 (c : Ctx) (v : Vec) (m : Part) (d : Dest) : (c.store (.s 0) v m).stored d = c.stored d := by
  cases d <;> rfl

/-- A write to p0 changes no register (R27). -/
theorem Ctx.stored_store_p0 (c : Ctx) (v : Vec) (m : Part) (d : Dest) : (c.store (.p 0) v m).stored d = c.stored d := by
  cases d <;> rfl

theorem SMap.get_setD_toNat {α : Type} [DecidableEq α] {n : Nat} (d : α) (m : SMap α) {a b : BitVec n} (v : α) (h : b ≠ a) :
    SMap.get d (SMap.setD d m a.toNat v) b.toNat = SMap.get d m b.toNat :=
  SMap.get_setD_other d m v fun e => h (BitVec.eq_of_toNat_eq e)

/-- A write leaves every other register. -/
theorem Ctx.stored_store_other (c : Ctx) {d e : Dest} (v : Vec) (m : Part) (h : e ≠ d) :
    (c.store d v m).stored e = c.stored e := by
  cases d
  case s r =>
    by_cases hr : r = 0
    · rw [hr, Ctx.stored_store_s0]
    · rw [c.store_s v m hr]
      cases e
      case s q => exact congrArg (BitVec.setWidth 1024) (SMap.get_setD_toNat _ _ _ fun x => h (congrArg Dest.s x))
      all_goals rfl
  case p r =>
    by_cases hr : r = 0
    · rw [hr, Ctx.stored_store_p0]
    · rw [c.store_p v m hr]
      cases e
      case p q => exact congrArg (BitVec.setWidth 1024) (SMap.get_setD_toNat _ _ _ fun x => h (congrArg Dest.p x))
      all_goals rfl
  case v r =>
    cases e
    case v q => exact SMap.get_setD_toNat _ _ _ fun x => h (congrArg Dest.v x)
    all_goals rfl
  case x r =>
    cases e
    case x q => exact congrArg (BitVec.setWidth 1024) (SMap.get_setD_toNat _ _ _ fun x => h (congrArg Dest.x x))
    all_goals rfl
  case bn r =>
    cases e
    case bn q => exact congrArg (BitVec.setWidth 1024) (SMap.get_setD_toNat _ _ _ fun x => h (congrArg Dest.bn x))
    all_goals rfl
  case cr => cases e <;> rfl

theorem Ctx.stored_store_v (c : Ctx) (r : BitVec 5) (v : Vec) (m : Part) :
    (c.store (.v r) v m).stored (.v r) = (Dest.v r).mix (c.stored (.v r)) v m := SMap.get_setD_same _ _ _ _

theorem Ctx.stored_store_s (c : Ctx) {r : BitVec 6} (v : Vec) (m : Part) (h : r ≠ 0) :
    (c.store (.s r) v m).stored (.s r) = (((Dest.s r).mix (c.stored (.s r)) v m).setWidth 64).setWidth 1024 := by
  rw [c.store_s v m h]
  exact congrArg (BitVec.setWidth 1024) (SMap.get_setD_same _ _ _ _)

theorem Ctx.stored_store_p (c : Ctx) {r : BitVec 4} (v : Vec) (m : Part) (h : r ≠ 0) :
    (c.store (.p r) v m).stored (.p r) = (((Dest.p r).mix (c.stored (.p r)) v m).setWidth 32).setWidth 1024 := by
  rw [c.store_p v m h]
  exact congrArg (BitVec.setWidth 1024) (SMap.get_setD_same _ _ _ _)

theorem Ctx.stored_store_x (c : Ctx) (r : BitVec 4) (v : Vec) (m : Part) :
    (c.store (.x r) v m).stored (.x r) = (((Dest.x r).mix (c.stored (.x r)) v m).setWidth 32).setWidth 1024 :=
  congrArg (BitVec.setWidth 1024) (SMap.get_setD_same _ _ _ _)

theorem BitVec.mix_allOnes {n : Nat} (old new : BitVec n) :
    (old &&& ~~~(BitVec.allOnes n)) ||| (new &&& BitVec.allOnes n) = new := by
  rw [BitVec.not_allOnes, BitVec.and_zero, BitVec.zero_or, BitVec.and_allOnes]

/-- A live result to a register of one part replaces it whole. -/
theorem Dest.mix_ones {d : Dest} {m : Part} (h : d.maskOf m = BitVec.allOnes 1024) (old new : Vec) :
    d.mix old new m = new := by
  rw [Dest.mix, h]
  exact BitVec.mix_allOnes old new

/-! ### Landing -/

theorem Ctx.land_eq (c : Ctx) (f : Flight) :
    c.land f = { c.store f.dest f.val f.live with
      did := c.did ++ [.result f.dest f.val, .fpsw f.flags], fpsw := c.fpsw ||| f.flags.setWidth 32 } := by
  simp [Ctx.land, Ctx.orFlags, Ctx.commit]

/-- Recording a landing leaves the registers as the write has left them. -/
@[simp] theorem Ctx.stored_land (c : Ctx) (f : Flight) (d : Dest) :
    (c.land f).stored d = (c.store f.dest f.val f.live).stored d := by
  rw [Ctx.land_eq]
  cases d <;> rfl

/-- What a landing changes of a context. -/
theorem Ctx.land_frame (c : Ctx) (f : Flight) :
    c.land f = { c with
      s := (c.land f).s, v := (c.land f).v, p := (c.land f).p, x := (c.land f).x, bn := (c.land f).bn
      fpsw := (c.land f).fpsw, unpred := (c.land f).unpred
      did := c.did ++ [.result f.dest f.val, .fpsw f.flags] } := by
  rw [Ctx.land_eq]
  exact congrArg (fun t : Ctx => { t with
    did := c.did ++ [Commit.result f.dest f.val, Commit.fpsw f.flags], fpsw := c.fpsw ||| f.flags.setWidth 32 })
    (c.store_frame f.dest f.val f.live)

theorem Ctx.land_p_bit (c : Ctx) (f : Flight) {r : BitVec 4} {j : Nat} (hd : f.dest = .p r) (hr : r ≠ 0) (hj : j < 32) :
    ((c.land f).stored (.p r)).getLsbD j = if f.live.getLsbD j then f.val.getLsbD j else (c.stored (.p r)).getLsbD j := by
  have wide : j < 1024 := by omega
  rw [Ctx.stored_land, hd, Ctx.stored_store_p c f.val f.live hr]
  simp only [BitVec.getLsbD_setWidth, wide, hj, decide_true, Bool.true_and, Dest.mix, Dest.maskOf, BitVec.getLsbD_or,
    BitVec.getLsbD_and, BitVec.getLsbD_not]
  cases f.live.getLsbD j <;> simp

/-- Settles O10: a landing is one write of its register, and the mask of the write is the live part of the result. -/
theorem resultsLandInRegisters : Obligations.ResultsLandInRegisters := by
  refine ⟨⟨fun s => ⟨rfl, rfl⟩, fun c v m d => ⟨c.stored_store_s0 v m d, c.stored_store_p0 v m d⟩⟩,
    fun c f => ⟨fun d hd => ?_, congrArg Ctx.fpsw (c.land_eq f), c.land_frame f⟩,
    ⟨fun c f r hd hr hl => ?_, fun c f r hd hl => ?_, fun c f r j hd hr hj => c.land_p_bit f hd hr hj⟩,
    fun c f r w xs act i hw hd hv hl hi => ?_⟩
  · rw [Ctx.stored_land, Ctx.stored_store_other c _ _ hd]
  · rw [Ctx.stored_land, hd, Ctx.stored_store_s c _ _ hr, Dest.mix_ones (by simp [Dest.maskOf, hl])]
  · rw [Ctx.stored_land, hd, Ctx.stored_store_x, Dest.mix_ones (by simp [Dest.maskOf, hl])]
  · have fits : w * (i + 1) ≤ 1024 := Nat.le_trans (Nat.mul_le_mul_left w hi) (Nat.mul_div_le 1024 w)
    rw [Ctx.stored_land, hd, Ctx.stored_store_v, hv, hl, elem_mix hw fits, elem_packElems w xs fits]

/-! ### Banks (R31) -/

/-- Settles O27: a slab starts at a multiple of 2,048 bytes, so bank and group are digits of the offset. -/
theorem banksOfASlab : Obligations.BanksOfASlab := by
  intro n a _ ha k
  simp only [bankOf, groupOf, k]
  refine ⟨by omega, by omega, by omega, by omega, fun bank row byte hb hr hy => ⟨by omega, by omega⟩, by omega, by omega, by omega⟩

end Sys2Proof.Machine
end

section
/-! SUPPORT. The state after reset: every context is the one of the Reset column, so a read gives what is stored, and no
context waits at a barrier (Tables 1.4 and 19.4). -/

namespace Sys2Proof.Machine

@[simp] theorem State.reset_ctx (c : CtxId) : State.reset.ctx c = Ctx.reset := by
  obtain ⟨n, one⟩ := c
  cases one <;> rfl

@[simp] theorem State.reset_ctx_at (c d : CtxId) : ({ State.reset with cur := c } : State).ctx d = Ctx.reset :=
  State.reset_ctx d

@[simp] theorem State.reset_here (c : CtxId) : ({ State.reset with cur := c } : State).here = Ctx.reset :=
  State.reset_ctx c

theorem Ctx.reset_pending (t : Nat) (own : Bool) (d : Dest) : Ctx.reset.pending t own d = 0 := by
  simp [Ctx.pending, Ctx.reset, SMap.get]

theorem Ctx.reset_stored (d : Dest) : Ctx.reset.stored d = 0 := by
  cases d <;> simp [Ctx.stored, Ctx.reset, SMap.get]

/-- Nothing hides a register after reset: a read gives what is stored. -/
theorem State.read_reset (c : CtxId) (d : Dest) : ({ State.reset with cur := c } : State).read d = 0 := by
  unfold State.read
  dsimp only
  rw [State.reset_here, Ctx.reset_pending, if_pos rfl, Ctx.reset_stored]

theorem State.readS_reset (c : CtxId) (r : BitVec 6) : ({ State.reset with cur := c } : State).readS r = 0 := by
  unfold State.readS
  simp [State.read_reset]

theorem State.readP_reset (c : CtxId) {r : BitVec 4} (h : r ≠ 0) : ({ State.reset with cur := c } : State).readP r = 0 := by
  unfold State.readP
  rw [if_neg h, State.read_reset]
  simp

theorem State.readX_reset (c : CtxId) (r : BitVec 4) : ({ State.reset with cur := c } : State).readX r = 0 := by
  unfold State.readX
  simp [State.read_reset]

theorem State.readBn_reset (c : CtxId) (r : BitVec 3) : ({ State.reset with cur := c } : State).readBn r = 0 := by
  unfold State.readBn
  simp [State.read_reset]

/-- No context has arrived at a barrier after reset, so the effective class is the own class. -/
theorem State.eff_reset (c : CtxId) : ({ State.reset with cur := c } : State).eff c = 0 := by
  unfold State.eff
  rw [if_pos (by simp [Ctx.reset])]
  simp [Ctx.reset]

theorem LoopSt.none_word (n : Nat) : LoopSt.none.word n = 0 := by
  unfold LoopSt.word
  split <;> rfl

theorem Port.reset_word (n : Nat) : Port.reset.word n = 0 := by
  unfold Port.word
  split <;> rfl

/-! ### The control registers -/

theorem State.readCr_reset_loopst (c : CtxId) (w : BitVec 6) : ({ State.reset with cur := c } : State).readCr 0x07 w = 0 := by
  have e : ({ State.reset with cur := c } : State).readCr 0x07 w =
      ({ State.reset with cur := c } : State).here.loop.word w.toNat := rfl
  rw [e, State.reset_here]
  exact LoopSt.none_word _

theorem State.readCr_reset_ctn (c : CtxId) (w : BitVec 6) : ({ State.reset with cur := c } : State).readCr 0x08 w = 0 := by
  have e : ({ State.reset with cur := c } : State).readCr 0x08 w =
      if w = 0 then ({ State.reset with cur := c } : State).here.depth.setWidth 64
      else SMap.get 0 ({ State.reset with cur := c } : State).here.hand (w.toNat - 1) := rfl
  rw [e, State.reset_here]
  exact ite_self _

theorem State.readCr_reset_pri (c : CtxId) : ({ State.reset with cur := c } : State).readCr 0x02 0 = 0 := by
  rw [State.readCr_pri, State.reset_here, State.eff_reset]
  rfl

theorem State.readCr_reset_ifq (c : CtxId) : ({ State.reset with cur := c } : State).readCr 0x09 0 = 0 := by
  rw [State.readCr_ifq, State.reset_here]
  rfl

theorem State.readCr_reset_piv (c : CtxId) (w : BitVec 6) : ({ State.reset with cur := c } : State).readCr 0x18 w = 0 := by
  have e (s : State) : s.readCr 0x18 w = if w = 0 then s.here.piv.extractLsb' 0 64 else s.here.piv.extractLsb' 64 64 := rfl
  rw [e, State.reset_here]
  exact ite_self _

theorem State.readCr_reset_brk (c : CtxId) (w : BitVec 6) : ({ State.reset with cur := c } : State).readCr 0x1A w = 0 := by
  have e (s : State) : s.readCr 0x1A w = if w = 0 then s.here.brk.extractLsb' 0 64 else s.here.brk.extractLsb' 64 64 := rfl
  rw [e, State.reset_here]
  exact ite_self _

theorem State.readCr_reset_sq (c : CtxId) : ({ State.reset with cur := c } : State).readCr 0x0A 0 = 0 := by
  have e (s : State) : s.readCr 0x0A 0 = BitVec.ofNat 64 (s.myCore.sq.length + s.myCore.sqOvf.toNat * 2 ^ 16) := rfl
  have k : ({ State.reset with cur := c } : State).myCore = Core.reset := rfl
  rw [e, k]
  rfl

/-! ### The management window -/

/-- Until boot has begun the mailbox reads 0. -/
theorem State.mgmtReg_reset_mbox {o : Nat} (lo : 0x8000 ≤ o) (hi : o < 0x10000) : State.reset.mgmtReg o = some 0 := by
  unfold State.mgmtReg
  rw [if_neg (by omega), if_neg (by omega), if_pos ⟨lo, hi⟩]
  rfl

theorem State.mgmtReg_reset_flog {o : Nat} (lo : 0x1000 ≤ o) (hi : o < 0x1800) : State.reset.mgmtReg o = some 0 := by
  unfold State.mgmtReg
  rw [if_pos ⟨lo, hi⟩]
  exact congrArg some BitVec.extractLsb'_zero

theorem State.mgmtReg_reset_port {k i : Nat} (hk : k < 20) (hi : i < 4) :
    State.reset.mgmtReg (0x4000 + 0x40 * k + 8 * i) = some 0 := by
  have word (n w : Nat) : (State.reset.port n).word w = 0 := Port.reset_word w
  unfold State.mgmtReg
  rw [if_neg (by omega), if_pos (by omega), if_pos (by omega), word]
  rfl

/-- Settles O8: every context is the reset one, and the window's registers read its zeros. -/
theorem resetState : Obligations.ResetState := by
  refine ⟨fun c => ?_, fun n => ⟨rfl, rfl, rfl, rfl⟩, fun n b => rfl, fun n => ⟨rfl, rfl⟩, rfl, rfl, rfl, rfl, rfl, rfl, rfl,
    rfl, rfl, rfl, fun n => rfl, fun l => ⟨rfl, rfl, rfl, rfl, rfl⟩,
    ⟨rfl, rfl, rfl, rfl, rfl, fun i => rfl, fun o => State.mgmtReg_reset_mbox⟩, ?_, fun o => State.mgmtReg_reset_flog,
    fun k hk i hi => State.mgmtReg_reset_port hk hi, rfl, fun k => rfl⟩
  · intro k s
    have hk : k = Ctx.reset := State.reset_ctx c
    rw [hk]
    exact ⟨rfl, State.readS_reset c, fun r => State.read_reset c (.v r), rfl, fun r => State.readP_reset c,
      State.readX_reset c, fun n => rfl, fun n => rfl, fun n => rfl, fun d => rfl, fun n => rfl, State.readBn_reset c,
      rfl, rfl, rfl, fun n => rfl, rfl, rfl, rfl, rfl, rfl, rfl, rfl, rfl, rfl, rfl, fun n => rfl, rfl,
      State.readCr_reset_loopst c, State.readCr_reset_ctn c, State.readCr_reset_pri c, State.readCr_reset_ifq c,
      State.readCr_reset_piv c, State.readCr_reset_brk c,
      State.readCr_reset_sq c⟩
  · simp only [List.forall_mem_cons]
    exact ⟨rfl, rfl, rfl, rfl, rfl, rfl, rfl, nofun⟩

end Sys2Proof.Machine
end

section
/-! SUPPORT. The cycle of a core and the bundle that names no slot: what a cycle does to a running core, when such a bundle
is ready, and what its issue leaves (R14, R46, R63, R72); and the look-ahead nullifier (R25, R86). -/

namespace Sys2Proof.Machine

/-! ### The cycle -/

/-- A core that no late landing freezes goes on to its merge stage. -/
theorem State.inCycle_running {s : State} {n : Nat} (go : State → State) (h : Claim.frozen s n = false) :
    s.inCycle n go = go (Claim.atMerge s n) := by
  unfold Claim.frozen Claim.cycleStart at h
  unfold State.inCycle Claim.atMerge Claim.cycleStart
  dsimp only at h ⊢
  generalize State.landingsDue _ n = w at h ⊢
  rw [Option.isSome_eq_false_iff, Option.isNone_iff_eq_none] at h
  rw [h]

/-- A frozen core counts the cycle of its freeze. -/
theorem State.inCycle_frozen {s : State} {n : Nat} (go : State → State) {one : Bool} {l : BitVec 3} {k : Nat}
    (h : ((Claim.cycleStart s n).core n).frozen = some (one, l, k)) :
    s.inCycle n go = (Claim.cycleStart s n).updCore n (fun x => { x with frozen := some (one, l, k + 1) }) := by
  unfold Claim.cycleStart at h
  unfold State.inCycle Claim.cycleStart
  dsimp only at h ⊢
  generalize State.landingsDue _ n = w at h ⊢
  rw [h]

/-! ### The issue of a bundle without slots -/

/-- With a context at hand that is at hand already nothing changes. -/
theorem State.with_cur {s : State} {c : CtxId} (h : s.cur = c) : ({ s with cur := c } : State) = s := by
  subst h
  rfl

/-- A bundle without slots, of a context that has no result on its way, no entry to inject and no loop, is ready. -/
theorem State.headOf_empty {u : State} {f : Fetched} {p : Planned} (plan : u.here.plan f = .ok p) (ops : p.ops = [])
    (flight : u.here.flight = []) (ifq : u.here.ifq = []) (depth : u.here.loop.depth = 0) :
    u.headOf u.cur f = (u, .ready p []) := by
  have none_acts : u.acting p.ops = [] := by rw [ops]; rfl
  have kept : u.droppable p [] = false := by simp [State.droppable, ops]
  have room : u.underLimit [] = true := by simp [State.underLimit, State.added, flight, ifq]
  have ready : u.bundleReady [] = true := by
    simp [State.bundleReady, room, State.edgeReady, depth, Ctx.oldestWritten]
  have sound : u.bundleFault [] = none := rfl
  unfold State.headOf
  rw [State.with_cur rfl]
  dsimp only
  rw [plan]
  dsimp only
  rw [none_acts, kept, room, ready, List.foldl_nil, sound]
  rfl

/-- What a context that may issue does with such a bundle. -/
theorem State.offer_empty {u : State} {f : Fetched} {p : Planned} (may : (u.ctx u.cur).mayIssue (u.core u.cur.core).cycle = true)
    (plan : u.here.plan f = .ok p) (ops : p.ops = []) (flight : u.here.flight = []) (ifq : u.here.ifq = [])
    (depth : u.here.loop.depth = 0) : u.offer f = u.issueBundle u.cur p [] := by
  unfold State.offer
  dsimp only
  rw [may, State.headOf_empty plan ops flight ifq depth]
  rfl

/-- Control goes where the bundle says. -/
def Ctx.go (k : Ctx) : Ctx := { k with pc := k.npc }

/-- The context after the issue of a bundle without slots at a cycle. -/
def Ctx.afterEmpty (k : Ctx) (cycle : Nat) (p : Planned) (e : Edge) : Ctx := ((k.begin cycle 0 p []).past p e).go

theorem State.ctx_endIssue (s : State) (c d : CtxId) : (s.endIssue c).ctx d = (s.updCtx c Ctx.go).ctx d := rfl

/-- Nothing that a bundle without slots does stalls its core. -/
theorem State.ctx_beginIssue_empty (s : State) (c : CtxId) (p : Planned) :
    (s.beginIssue c p []).ctx c = (s.ctx c).begin (s.core c.core).cycle 0 p [] :=
  (State.ctx_updCtx_same ({ s with cur := c } : State) c (fun k => k.begin (s.core c.core).cycle 0 p []) :)

/-- A bundle without slots changes its context, and only the log beside it. -/
theorem State.issueBundle_empty (u : State) (c : CtxId) (p : Planned) :
    ∃ e, (u.issueBundle c p []).ctx c = (u.ctx c).afterEmpty (u.core c.core).cycle p e ∧ (u.issueBundle c p []).mem = u.mem := by
  have whole : u.issueBundle c p [] = (((u.noteFetch c (u.ctx c).pc p.f.size).beginIssue c p []).updCtx c
      (fun k => k.past p ((u.noteFetch c (u.ctx c).pc p.f.size).beginIssue c p []).edgeOf)).endIssue c := rfl
  refine ⟨((u.noteFetch c (u.ctx c).pc p.f.size).beginIssue c p []).edgeOf, ?_, rfl⟩
  rw [whole, State.ctx_endIssue, State.ctx_updCtx_same, State.ctx_updCtx_same, State.ctx_beginIssue_empty]
  rfl

/-- Outside a loop a bundle that is past moves on in its repetitions alone. -/
theorem Ctx.past_of_no_loop {k : Ctx} (h : k.loop.depth = 0) (p : Planned) (e : Edge) :
    k.past p e = { k with repcnt := if p.last then 0 else repcntAt (p.j + 1) } := by
  unfold Ctx.past Ctx.pastBody
  dsimp only
  rw [if_pos h, ite_self]

section

variable {k : Ctx} {cycle : Nat} {p : Planned} {e : Edge} (ifq : k.ifq = []) (issued : k.lastIssue ≠ none)
  (depth : k.loop.depth = 0)

include ifq issued depth

/-- What the issue of a bundle without slots leaves: it counts, and everything but control and the commit signature stays. -/
theorem Ctx.afterEmpty_eq : k.afterEmpty cycle p e = { k with
    flight := k.flight.filter (fun f => !(f.landed && decide (f.due ≤ cycle + 1)))
    did := k.did ++ [.bundle k.pc (p.ops.map (fun o => (o.slot, o.word)))]
    seq := k.seq + 1, pos := k.pos + 1, lastIssue := some cycle, lastIb := p.f.bundle.hdr.ib, held := k.supply p
    repcnt := if p.last then 0 else repcntAt (p.j + 1)
    npc := if p.last then k.pc + BitVec.ofNat 64 p.f.size else k.pc
    pc := if p.last then k.pc + BitVec.ofNat 64 p.f.size else k.pc } := by
  have started : k.lastIssue.isNone = false := by
    rw [Option.isNone_eq_false_iff, Option.isSome_iff_ne_none]
    exact issued
  have begun : k.begin cycle 0 p [] = { k with
      flight := k.flight.filter (fun f => !(f.landed && decide (f.due ≤ cycle + 1)))
      did := k.did ++ [.bundle k.pc (p.ops.map (fun o => (o.slot, o.word)))]
      seq := k.seq + 1, pos := k.pos + 1, lastIssue := some cycle, lastIb := p.f.bundle.hdr.ib, held := k.supply p
      repcnt := if p.rep.isSome then repcntAt p.j else 0
      npc := if p.last then k.pc + BitVec.ofNat 64 p.f.size else k.pc } := by
    unfold Ctx.begin
    dsimp only
    rw [if_pos ifq]
    dsimp only
    rw [started]
    rfl
  rw [Ctx.afterEmpty, begun, Ctx.past_of_no_loop]
  · rfl
  · exact depth

theorem Ctx.afterEmpty_stored (d : Dest) : (k.afterEmpty cycle p e).stored d = k.stored d := by
  rw [Ctx.afterEmpty_eq ifq issued depth]
  cases d <;> rfl

end

/-! ### NOP and REP -/

/-- The bundle in hand of NOP. -/
def nopFetched (ib : Bool) : Fetched := ⟨(encode (.nop ib)).headD 0, ⟨⟨ib, false, 0⟩, none, []⟩, 4⟩

/-- The bundle in hand of REP. -/
def repFetched (adv stride : BitVec 4) (count : BitVec 16) : Fetched :=
  ⟨0x00010100, ⟨⟨false, true, 0⟩, (encode (.rep adv stride count)).head?, []⟩, 8⟩

theorem Ctx.heldFor_nil {k : Ctx} (h : k.held = []) (m : BitVec 8) : k.heldFor m = [] := by simp [Ctx.heldFor, h]

theorem Ctx.plan_nop {k : Ctx} (h : k.held = []) (ib : Bool) : k.plan (nopFetched ib) = .ok ⟨nopFetched ib, none, 0, []⟩ := by
  simp [Ctx.plan, nopFetched, Ctx.heldFor_nil h, decodeOps]

/-- REP decodes to its fields; a context with REPCNT 0 begins its first repetition. -/
theorem Ctx.plan_rep {k : Ctx} (h : k.held = []) (r : k.repcnt = 0) (adv stride : BitVec 4) (count : BitVec 16) :
    k.plan (repFetched adv stride count) = .ok ⟨repFetched adv stride count, some ⟨adv, stride, count.toNat⟩, 0, []⟩ := by
  have dec : decodePrefix (0#8 ++ adv ++ stride ++ count) = some (.rep adv stride count) := Laws.Encoding.rep adv stride count
  have first : repOf (0 : BitVec 32) = 0 := rfl
  unfold Ctx.plan repFetched
  simp only [encode, List.head?_cons, dec, Ctx.heldFor_nil h, List.map_nil, List.append_nil, decodeOps, r, first,
    Option.isSome_some, ite_self]

/-- An instruction that is a bundle without slots: where its context may issue, its context alone changes. -/
theorem issueEmpty_next {s : State} {f : Fetched} {p : Planned}
    (run : s.boot = .running) (thawed : Claim.frozen s s.cur.core = false)
    (may : ((Claim.atMerge s s.cur.core).ctx s.cur).mayIssue ((Claim.atMerge s s.cur.core).core s.cur.core).cycle = true)
    (cur : (Claim.atMerge s s.cur.core).cur = s.cur)
    (plan : ((Claim.atMerge s s.cur.core).ctx s.cur).plan f = .ok p) (ops : p.ops = [])
    (flight : ((Claim.atMerge s s.cur.core).ctx s.cur).flight = []) (ifq : ((Claim.atMerge s s.cur.core).ctx s.cur).ifq = [])
    (depth : ((Claim.atMerge s s.cur.core).ctx s.cur).loop.depth = 0) :
    ∃ e, (s.issueEmpty f).ctx s.cur = ((Claim.atMerge s s.cur.core).ctx s.cur).afterEmpty
        ((Claim.atMerge s s.cur.core).core s.cur.core).cycle p e ∧ (s.issueEmpty f).mem = (Claim.atMerge s s.cur.core).mem := by
  have here : (Claim.atMerge s s.cur.core).here = (Claim.atMerge s s.cur.core).ctx s.cur := by rw [State.here, cur]
  unfold State.issueEmpty
  rw [if_pos run, State.inCycle_running _ thawed]
  generalize Claim.atMerge s s.cur.core = u at *
  rw [← cur] at may
  rw [State.offer_empty may (here ▸ plan) ops (here ▸ flight) (here ▸ ifq) (here ▸ depth), cur]
  exact u.issueBundle_empty s.cur p

/-- The last repetition over nothing is its first where COUNT is 1. -/
theorem Planned.last_rep {f : Fetched} {adv stride : BitVec 4} {count : BitVec 16} (h : count ≠ 0) :
    Planned.last ⟨f, some ⟨adv, stride, count.toNat⟩, 0, []⟩ = decide (count = 1) := by
  have h0 : count.toNat ≠ 0 := fun e => h (BitVec.eq_of_toNat_eq e)
  have h1 : count.toNat = 1 ↔ count = 1 := ⟨fun e => BitVec.eq_of_toNat_eq e, fun e => by rw [e]; rfl⟩
  simp only [Planned.last, ← h1]
  exact decide_eq_decide.mpr (by omega)

/-! ### The nullifier -/

/-- A bundle that the nullifier may drop is dropped; outside a loop body that is its whole effect. -/
theorem State.dropNext_dropped {s : State} {c : CtxId} {f : Fetched} {p : Planned}
    (may : ((s.landDue c ((s.core c.core).cycle + 1)).nextCycle c).here.mayIssue
      ((s.landDue c ((s.core c.core).cycle + 1)).nextCycle c).cycle = true)
    (fetch : s.fetchBundle c.core ((s.landDue c ((s.core c.core).cycle + 1)).nextCycle c).here.pc = .ok f)
    (plan : ((s.landDue c ((s.core c.core).cycle + 1)).nextCycle c).here.plan f = .ok p)
    (drop : ((s.landDue c ((s.core c.core).cycle + 1)).nextCycle c).droppable p
      (((s.landDue c ((s.core c.core).cycle + 1)).nextCycle c).acting p.ops) = true) :
    s.dropNext c = (((s.landDue c ((s.core c.core).cycle + 1)).noteFetch c
      ((s.landDue c ((s.core c.core).cycle + 1)).nextCycle c).here.pc f.size).updCtx c
      (fun k => k.drop f ((s.landDue c ((s.core c.core).cycle + 1)).nextCycle c).edgeOf)).backEdge c := by
  unfold State.dropNext
  dsimp only
  rw [may, fetch]
  dsimp only
  rw [plan]
  dsimp only
  rw [if_pos drop]
  rfl

theorem State.backEdge_of_none {s : State} {c : CtxId} (h : (s.ctx c).edge = none) : s.backEdge c = s := by
  unfold State.backEdge
  dsimp only
  rw [h]

/-- Outside a loop a dropped bundle is only counted. -/
theorem Ctx.drop_of_no_loop {k : Ctx} (h : k.loop.depth = 0) (f : Fetched) (e : Edge) : k.drop f e = { k with
    seq := k.seq + 1, pos := k.pos + 1, lastIb := f.bundle.hdr.ib
    pc := k.pc + BitVec.ofNat 64 f.size, npc := k.pc + BitVec.ofNat 64 f.size } := if_pos h

/-- Settles O44: NOP and REP are bundles without slots, whose issue only counts; a dropped bundle is only counted. -/
theorem emptyBundles : Obligations.EmptyBundles := by
  refine ⟨fun s ib adv stride count run thawed may held flight ifq depth issued cur => ⟨?_, fun hc rep => ?_⟩,
    fun s c f p run may fetch plan drop depth edge => ?_⟩
  · obtain ⟨e, ctx, mem⟩ := issueEmpty_next run thawed may cur (Ctx.plan_nop held ib) rfl flight ifq depth
    refine ⟨_, rfl, ?_⟩
    refine ⟨?_, ?_, ?_, fun d => ?_, fun b => congrArg (fun m => SMap.get unwritten m b) mem⟩
    · exact (congrArg Ctx.pc ctx).trans (congrArg Ctx.pc (Ctx.afterEmpty_eq ifq issued depth))
    · exact (congrArg Ctx.lastIb ctx).trans (congrArg Ctx.lastIb (Ctx.afterEmpty_eq ifq issued depth))
    · exact (congrArg Ctx.seq ctx).trans (congrArg Ctx.seq (Ctx.afterEmpty_eq ifq issued depth))
    · exact (congrArg (Ctx.stored · d) ctx).trans (Ctx.afterEmpty_stored ifq issued depth d)
  · obtain ⟨e, ctx, mem⟩ := issueEmpty_next run thawed may cur (Ctx.plan_rep held rep adv stride count) rfl flight ifq depth
    have last := Planned.last_rep (f := repFetched adv stride count) (adv := adv) (stride := stride) hc
    rw [Ctx.afterEmpty_eq ifq issued depth, last] at ctx
    refine ⟨_, rfl, ?_⟩
    refine ⟨?_, ?_, congrArg Ctx.seq ctx, fun d => ?_, fun b => congrArg (fun m => SMap.get unwritten m b) mem⟩
    · refine (congrArg Ctx.pc ctx).trans ?_
      simp only [decide_eq_true_eq]
      rfl
    · refine (congrArg Ctx.repcnt ctx).trans ?_
      simp only [decide_eq_true_eq]
      rfl
    · refine (congrArg (Ctx.stored · d) ctx).trans ?_
      cases d <;> rfl
  · have counted := State.dropNext_dropped may fetch plan drop
    refine (if_neg (not_not.mpr run)).trans (congrArg _ ?_)
    rw [counted, State.backEdge_of_none]
    · exact congrArg (State.setCtx _ c) (Ctx.drop_of_no_loop depth f _)
    · rw [State.ctx_updCtx_same]
      exact (congrArg Ctx.edge (Ctx.drop_of_no_loop depth f _)).trans edge

end Sys2Proof.Machine
end

section
/-! SUPPORT. The merge stage: what two bundles issue together, and which context wins (R19, R20); and the effective class as
a least fixed point (R23), where a class goes from each context to those that it waits for. -/

namespace Sys2Proof.Machine

/-! ### Classes that spreadMax -/

section

variable {α : Type} (L : List α) (R : α → α → Bool)

/-- Every value goes from each member of the list to those that it is related to. -/
def spreadMax (g : α → Nat) (c : α) : Nat := L.foldl (fun m w => if R w c then max m (g w) else m) (g c)

theorem le_foldl_max (g : α → Nat) (c : α) (t : Nat) : ∀ (l : List α) (m : Nat),
    t ≤ l.foldl (fun m w => if R w c then max m (g w) else m) m ↔ t ≤ m ∨ ∃ w ∈ l, R w c = true ∧ t ≤ g w
  | [], m => by simp
  | w :: l, m => by
    rw [List.foldl_cons, le_foldl_max g c t l]
    cases h : R w c <;> simp [h, or_assoc]

theorem le_spreadMax {g : α → Nat} {c : α} {t : Nat} :
    t ≤ spreadMax L R g c ↔ t ≤ g c ∨ ∃ w ∈ L, R w c = true ∧ t ≤ g w := le_foldl_max R g c t L (g c)

theorem le_spreadMax_self (g : α → Nat) (c : α) : g c ≤ spreadMax L R g c := (le_spreadMax L R).mpr (.inl le_rfl)

/-- The members of the list that have reached a threshold after some steps. -/
def reached [DecidableEq α] (g : α → Nat) (t k : Nat) : Finset α := L.toFinset.filter (fun c => t ≤ (spreadMax L R)^[k] g c)

theorem mem_reached [DecidableEq α] {g : α → Nat} {t k : Nat} {c : α} :
    c ∈ reached L R g t k ↔ c ∈ L ∧ t ≤ (spreadMax L R)^[k] g c := by simp [reached]

theorem mem_reached_succ [DecidableEq α] {g : α → Nat} {t k : Nat} {c : α} :
    c ∈ reached L R g t (k + 1) ↔ c ∈ L ∧ (c ∈ reached L R g t k ∨ ∃ w ∈ reached L R g t k, R w c = true) := by
  simp only [mem_reached, Function.iterate_succ_apply', le_spreadMax]
  constructor
  · rintro ⟨hc, h | ⟨w, hw, hr, ht⟩⟩
    · exact ⟨hc, .inl ⟨hc, h⟩⟩
    · exact ⟨hc, .inr ⟨w, ⟨hw, ht⟩, hr⟩⟩
  · rintro ⟨hc, ⟨-, h⟩ | ⟨w, ⟨hw, ht⟩, hr⟩⟩
    · exact ⟨hc, .inl h⟩
    · exact ⟨hc, .inr ⟨w, hw, hr, ht⟩⟩

theorem reached_subset_succ [DecidableEq α] (g : α → Nat) (t k : Nat) : reached L R g t k ⊆ reached L R g t (k + 1) := by
  intro c hc
  exact (mem_reached_succ L R).mpr ⟨((mem_reached L R).mp hc).1, .inl hc⟩

/-- A set that has not grown in a step never grows again; so as many steps as there are members are enough. -/
theorem reached_stable [DecidableEq α] (g : α → Nat) (t : Nat) :
    reached L R g t (L.length + 1) = reached L R g t L.length := by
  have grows : Monotone (fun k => (reached L R g t k).card) :=
    monotone_nat_of_le_succ fun k => Finset.card_le_card (reached_subset_succ L R g t k)
  have bounded (k : Nat) : (reached L R g t k).card ≤ L.length :=
    (Finset.card_filter_le _ _).trans (List.toFinset_card_le L)
  have settled (k : Nat) (h : (reached L R g t k).card = (reached L R g t (k + 1)).card) :
      (reached L R g t (k + 1)).card = (reached L R g t (k + 2)).card := by
    have same : reached L R g t k = reached L R g t (k + 1) :=
      Finset.eq_of_subset_of_card_le (reached_subset_succ L R g t k) h.ge
    congr 1
    ext c
    rw [mem_reached_succ, mem_reached_succ, ← same]
  have last := Nat.stabilises_of_monotone grows bounded settled (Nat.le_succ L.length)
  exact (Finset.eq_of_subset_of_card_le (reached_subset_succ L R g t _) last.le).symm

/-- After as many steps as there are members nothing spreads any more. -/
theorem spreadMax_iterate_closed [DecidableEq α] (g : α → Nat) {c w : α} (hc : c ∈ L) (hw : w ∈ L) (h : R w c = true) :
    (spreadMax L R)^[L.length] g w ≤ (spreadMax L R)^[L.length] g c := by
  have next : c ∈ reached L R g ((spreadMax L R)^[L.length] g w) (L.length + 1) :=
    (mem_reached_succ L R).mpr ⟨hc, .inr ⟨w, (mem_reached L R).mpr ⟨hw, le_rfl⟩, h⟩⟩
  rw [reached_stable] at next
  exact ((mem_reached L R).mp next).2

theorem le_spreadMax_iterate (g : α → Nat) (k : Nat) (c : α) : g c ≤ (spreadMax L R)^[k] g c := by
  induction k with
  | zero => exact le_rfl
  | succ k ih =>
    rw [Function.iterate_succ_apply']
    exact ih.trans (le_spreadMax_self L R _ c)

/-- What spreads stays below every closed bound. -/
theorem spreadMax_iterate_le {g f : α → Nat} (base : ∀ c ∈ L, g c ≤ f c)
    (closed : ∀ c ∈ L, ∀ w ∈ L, R w c = true → f w ≤ f c) (k : Nat) : ∀ c ∈ L, (spreadMax L R)^[k] g c ≤ f c := by
  induction k with
  | zero => exact base
  | succ k ih =>
    intro c hc
    rw [Function.iterate_succ_apply']
    obtain h | ⟨w, hw, hr, ht⟩ := (le_spreadMax L R).mp (le_refl (spreadMax L R ((spreadMax L R)^[k] g) c))
    · exact h.trans (ih c hc)
    · exact ht.trans ((ih w hw).trans (closed c hc w hw hr))

end

/-! ### The effective class (R23) -/

theorem length_courseCtxs (n : Nat) : (courseCtxs n).length = 16 := by simp [courseCtxs]

theorem courseOf_of_mem {n : Nat} {c : CtxId} (h : c ∈ courseCtxs n) : courseOf c.core = n := by
  simp only [courseCtxs, List.mem_flatMap, List.mem_range, List.mem_cons, List.not_mem_nil, or_false] at h
  obtain ⟨p, hp, rfl | rfl⟩ := h <;> (change (8 * n + p) / 8 = n; omega)

theorem find_map_pair {α β : Type} [DecidableEq α] (g : α → β) {l : List α} {w : α} (h : w ∈ l) :
    ((l.map (fun w => (w, g w))).find? (fun q => q.1 == w)).map Prod.snd = some (g w) := by
  induction l with
  | nil => cases h
  | cons a l ih =>
    rw [List.map_cons, List.find?_cons]
    by_cases e : a = w
    · simp [e]
    · have hw : w ∈ l := (List.mem_cons.mp h).resolve_left (Ne.symm e)
      have ne : (a == w) = false := beq_eq_false_iff_ne.mpr e
      rw [ne]
      exact ih hw

/-- A step of R23 over the contexts of a course spreads their classes. -/
theorem State.effStep_map (s : State) (n : Nat) (g : CtxId → Nat) :
    s.effStep n ((courseCtxs n).map (fun w => (w, g w))) =
      (courseCtxs n).map (fun w => (w, spreadMax (courseCtxs n) s.waitsFor g w)) := by
  unfold State.effStep spreadMax
  rw [List.map_map]
  refine List.map_congr_left fun c _ => ?_
  refine congrArg (Prod.mk c) (List.foldl_ext _ _ _ fun m w hw => ?_)
  rw [find_map_pair g hw]
  rfl

theorem State.effStep_iterate (s : State) (n k : Nat) (g : CtxId → Nat) :
    (s.effStep n)^[k] ((courseCtxs n).map (fun w => (w, g w))) =
      (courseCtxs n).map (fun w => (w, (spreadMax (courseCtxs n) s.waitsFor)^[k] g w)) := by
  induction k with
  | zero => rfl
  | succ k ih =>
    simp only [Function.iterate_succ_apply', ih]
    exact s.effStep_map n _

/-- A context that has arrived nowhere waits for nobody. -/
theorem State.waitsFor_of_nil {s : State} {w : CtxId} (h : (s.ctx w).arrived = []) (c : CtxId) : s.waitsFor w c = false := by
  simp [State.waitsFor, h]

/-- EFF is the own classes, spreadMax as many times as a course has contexts. -/
theorem State.eff_eq_spreadMax (s : State) {n : Nat} {c : CtxId} (h : c ∈ courseCtxs n) :
    s.eff c = (spreadMax (courseCtxs n) s.waitsFor)^[16] (fun w => (s.ctx w).own.toNat) c := by
  have hn := courseOf_of_mem h
  unfold State.eff
  dsimp only
  rw [hn]
  split
  · next quiet =>
    have none_waits (w : CtxId) (hw : w ∈ courseCtxs n) (x : CtxId) : s.waitsFor w x = false :=
      State.waitsFor_of_nil (by simpa using List.all_eq_true.mp quiet w hw) x
    refine le_antisymm (le_spreadMax_iterate _ _ (fun w => (s.ctx w).own.toNat) 16 c) 
      (spreadMax_iterate_le _ _ (fun _ _ => le_rfl) (fun x _ w hw hr => ?_) 16 c h)
    rw [none_waits w hw] at hr
    cases hr
  · rw [List.foldl_const, List.length_range, s.effStep_iterate, find_map_pair _ h]
    rfl

theorem State.own_le_eff (s : State) {n : Nat} {c : CtxId} (h : c ∈ courseCtxs n) : (s.ctx c).own.toNat ≤ s.eff c := by
  rw [s.eff_eq_spreadMax h]
  exact le_spreadMax_iterate _ _ (fun w => (s.ctx w).own.toNat) 16 c

theorem State.eff_le_of_waitsFor (s : State) {n : Nat} {w c : CtxId} (hw : w ∈ courseCtxs n) (hc : c ∈ courseCtxs n)
    (h : s.waitsFor w c = true) : s.eff w ≤ s.eff c := by
  rw [s.eff_eq_spreadMax hw, s.eff_eq_spreadMax hc, ← length_courseCtxs n]
  exact spreadMax_iterate_closed _ _ _ hc hw h

theorem State.eff_le_of_closed (s : State) {n : Nat} {f : CtxId → Nat}
    (base : ∀ c ∈ courseCtxs n, (s.ctx c).own.toNat ≤ f c)
    (closed : ∀ c ∈ courseCtxs n, ∀ w ∈ courseCtxs n, s.waitsFor w c = true → f w ≤ f c) :
    ∀ c ∈ courseCtxs n, s.eff c ≤ f c := by
  intro c hc
  rw [s.eff_eq_spreadMax hc]
  exact spreadMax_iterate_le _ _ base closed 16 c hc

/-- Whether a context waits for another, written out (R23, R130). -/
theorem State.waitsFor_iff (s : State) {n : Nat} {w : CtxId} (h : w ∈ courseCtxs n) (c : CtxId) :
    s.waitsFor w c = true ↔ ∃ b a r, (b, a) ∈ (s.ctx w).arrived ∧ a.waits = true ∧ a.passed = false ∧
      a.pc = (s.ctx w).pc ∧ SMap.get none (s.course n).barriers b = some r ∧ r.mask.getLsbD (c.core % 8) = true ∧
      r.arrived.getLsbD (c.core % 8) = false ∧ (s.ctx c).runs r.graph r.node = true := by
  unfold State.waitsFor
  dsimp only
  rw [courseOf_of_mem h, List.any_eq_true]
  constructor
  · rintro ⟨⟨b, a⟩, ha, ht⟩
    rw [Bool.and_eq_true] at ht
    obtain ⟨at_, bar⟩ := ht
    split at bar
    · cases bar
    · next r hr =>
      simp only [Bool.and_eq_true, Bool.not_eq_true', beq_iff_eq] at at_ bar
      obtain ⟨⟨waits, passed⟩, pc⟩ := at_
      obtain ⟨⟨mask, arrived⟩, runs⟩ := bar
      exact ⟨b, a, r, ha, waits, passed, pc, hr, mask, arrived, runs⟩
  · rintro ⟨b, a, r, ha, waits, passed, pc, hr, mask, arrived, runs⟩
    refine ⟨(b, a), ha, ?_⟩
    simp [waits, passed, pc, hr, mask, arrived, runs]

/-! ### Pairs (R19) -/

theorem overlaps_eq_true {a b : List Nat} : overlaps a b = true ↔ ∃ k ∈ a, k ∈ b := by simp [overlaps]

theorem overlaps_eq_false {a b : List Nat} : overlaps a b = false ↔ ∀ k ∈ a, k ∉ b := by simp [overlaps]

theorem getLsbD_foldl_or_bit {β : Type} (l : List (Nat × β)) (m : BitVec 8) {j : Nat} (h : j < 8) :
    (l.foldl (fun m h => m ||| (1#8 <<< h.1)) m).getLsbD j = true ↔ m.getLsbD j = true ∨ ∃ x ∈ l, x.1 = j := by
  induction l generalizing m with
  | nil => simp
  | cons x l ih =>
    have bit : (1#8 <<< x.1).getLsbD j = true ↔ x.1 = j := by
      simp only [BitVec.getLsbD_shiftLeft, h, decide_true, Bool.true_and, BitVec.getLsbD_one, Bool.and_eq_true,
        Bool.not_eq_true', decide_eq_false_iff_not, decide_eq_true_eq]
      omega
    rw [List.foldl_cons, ih, BitVec.getLsbD_or, Bool.or_eq_true, bit]
    simp [or_assoc]

theorem State.effMask_bit (s : State) (c : CtxId) (p : Planned) {j : Nat} (h : j < 8) :
    (s.effMask c p).getLsbD j = true ↔ p.f.bundle.hdr.mask.getLsbD j = true ∨ ∃ x ∈ (s.ctx c).held, x.1 = j :=
  getLsbD_foldl_or_bit _ _ h

theorem and_beq_zero_iff (a b : BitVec 8) : (a &&& b == 0) = true ↔ ∀ j < 8, ¬ (a.getLsbD j = true ∧ b.getLsbD j = true) := by
  rw [beq_iff_eq]
  constructor
  · intro h j _ hj
    have e := congrArg (BitVec.getLsbD · j) h
    simp [hj.1, hj.2] at e
  · intro h
    apply BitVec.eq_of_getLsbD_eq
    intro j hj
    have := h j hj
    rw [BitVec.getLsbD_and]
    cases ha : a.getLsbD j <;> cases hb : b.getLsbD j <;> simp_all

theorem State.pairs_iff (s : State) (n : Nat) (p q : Planned) (x y : List SlotOp) : s.pairs n p q x y = true ↔
    (∀ j < 8, ¬ ((s.effMask ⟨n, false⟩ p).getLsbD j = true ∧ (s.effMask ⟨n, true⟩ q).getLsbD j = true)) ∧
    p.rep = none ∧ q.rep = none ∧ (∀ b ∈ s.banksOf ⟨n, false⟩ x, b ∉ s.banksOf ⟨n, true⟩ y) ∧
    ((s.course (n / 8)).plumb = true → ¬ ((∃ o ∈ x, isRemote o = true) ∧ ∃ o ∈ y, isRemote o = true)) := by
  unfold State.pairs
  simp only [Bool.and_eq_true, and_beq_zero_iff, Option.isNone_iff_eq_none, Bool.not_eq_true', overlaps_eq_false, and_assoc]
  refine and_congr_right fun _ => and_congr_right fun _ => and_congr_right fun _ => and_congr_right fun _ => ?_
  rw [← Bool.not_eq_true, Bool.and_eq_true, Bool.and_eq_true, List.any_eq_true, List.any_eq_true, and_assoc, not_and]
  rfl

/-! ### The merge stage (R19, R20) -/

/-- Two ready bundles: both where they pair, else the winner's. -/
theorem State.merge_both {u : State} {n : Nat} {p q : Planned} {x y : List SlotOp}
    (a : (u.head ⟨n, false⟩).2 = .ready p x) (b : ((u.head ⟨n, false⟩).1.head ⟨n, true⟩).2 = .ready q y) :
    u.merge n =
      if ((u.head ⟨n, false⟩).1.head ⟨n, true⟩).1.pairs n p q x y then
        (((u.head ⟨n, false⟩).1.head ⟨n, true⟩).1.issueBundle ⟨n, false⟩ p x).issueBundle ⟨n, true⟩ q y
      else if ((u.head ⟨n, false⟩).1.head ⟨n, true⟩).1.oneWins n then
        ((u.head ⟨n, false⟩).1.head ⟨n, true⟩).1.issueBundle ⟨n, true⟩ q y
      else ((u.head ⟨n, false⟩).1.head ⟨n, true⟩).1.issueBundle ⟨n, false⟩ p x := by
  unfold State.merge
  dsimp only
  rw [a, b]
  rfl

theorem State.merge_zero {u : State} {n : Nat} {p : Planned} {x : List SlotOp}
    (a : (u.head ⟨n, false⟩).2 = .ready p x) (b : ((u.head ⟨n, false⟩).1.head ⟨n, true⟩).2 = .idle) :
    u.merge n = ((u.head ⟨n, false⟩).1.head ⟨n, true⟩).1.issueBundle ⟨n, false⟩ p x := by
  unfold State.merge
  dsimp only
  rw [a, b]
  rfl

theorem State.merge_one {u : State} {n : Nat} {q : Planned} {y : List SlotOp}
    (a : (u.head ⟨n, false⟩).2 = .idle) (b : ((u.head ⟨n, false⟩).1.head ⟨n, true⟩).2 = .ready q y) :
    u.merge n = ((u.head ⟨n, false⟩).1.head ⟨n, true⟩).1.issueBundle ⟨n, true⟩ q y := by
  unfold State.merge
  dsimp only
  rw [a, b]
  rfl

section

variable {s : State} {n : Nat}

theorem State.oneWins_of_class (h : s.eff ⟨n, false⟩ ≠ s.eff ⟨n, true⟩) :
    s.oneWins n = decide (s.eff ⟨n, false⟩ < s.eff ⟨n, true⟩) := if_pos h

theorem State.oneWins_of_issues (h : s.eff ⟨n, false⟩ = s.eff ⟨n, true⟩) {x y : Nat}
    (a : (s.ctx ⟨n, false⟩).lastIssue = some x) (b : (s.ctx ⟨n, true⟩).lastIssue = some y) : s.oneWins n = decide (y < x) := by
  unfold State.oneWins
  dsimp only
  rw [if_neg (not_not.mpr h), a, b]

theorem State.oneWins_of_none (h : s.eff ⟨n, false⟩ = s.eff ⟨n, true⟩) (a : (s.ctx ⟨n, false⟩).lastIssue = none) :
    s.oneWins n = false := by
  unfold State.oneWins
  dsimp only
  rw [if_neg (not_not.mpr h), a]

end

/-- A cycle of a core of the running device. -/
theorem exec_bundleIssue {s : State} (n : Nat) (h : s.boot = .running) :
    exec (.bundleIssue n) s = .next ((Claim.atCycle s n).inCycle n (fun s => s.merge n)) :=
  congrArg Host.Outcome.next (if_pos h)

/-- Settles O43: the cycle by cases of the freeze and of what the contexts offer, the class by the fixed point. -/
theorem coreCycle : Obligations.CoreCycle := by
  refine ⟨fun s n run => ?_, fun s n => ?_, fun s n => ?_⟩
  · refine ⟨fun one l k h => ?_, fun h => ?_, fun p x q y a b => State.merge_both a b, fun p x a b => State.merge_zero a b,
      fun q y a b => State.merge_one a b, fun v c p j hj => v.effMask_bit c p hj, fun v p q x y => v.pairs_iff n p q x y⟩
    · rw [exec_bundleIssue n run, State.inCycle_frozen _ h]
    · rw [exec_bundleIssue n run, State.inCycle_running _ h]
  · refine ⟨fun c hc => ⟨s.own_le_eff hc, fun w hw h => s.eff_le_of_waitsFor hw hc ((s.waitsFor_iff hw c).mpr h)⟩,
      fun f hf => s.eff_le_of_closed (fun c hc => (hf c hc).1) fun c hc w hw h => ?_⟩
    exact (hf c hc).2 w hw ((s.waitsFor_iff hw c).mp h)
  · refine ⟨fun h => ?_, fun h => ?_, fun h => ⟨fun x y hx hy => ?_, fun hx _ => State.oneWins_of_none h hx⟩⟩
    · rw [State.oneWins_of_class (Nat.ne_of_gt h)]
      exact decide_eq_false (Nat.not_lt_of_lt h)
    · rw [State.oneWins_of_class (Nat.ne_of_lt h)]
      exact decide_eq_true h
    · rw [State.oneWins_of_issues h hx hy, decide_eq_true_eq]

end Sys2Proof.Machine
end

section
/-! SUPPORT. Results that land early (R83, R84), and landing registers at their due cycle and at the arrival of their data
(R14, R160, R173). -/

namespace Sys2Proof.Machine

/-! ### What a context has still to perform -/

theorem mem_insertPend {ps : List Pend} {x e : Pend} : e ∈ insertPend ps x ↔ e ∈ ps ∨ e = x := by
  have parts : ps.takeWhile (fun p => decide (p.id < x.id)) ++ ps.dropWhile (fun p => decide (p.id < x.id)) = ps :=
    List.takeWhile_append_dropWhile
  conv_rhs => rw [← parts]
  simp only [insertPend, List.mem_append, List.mem_cons]
  tauto

theorem mem_foldl_insertPend {xs ps : List Pend} {e : Pend} : e ∈ xs.foldl insertPend ps ↔ e ∈ ps ∨ e ∈ xs := by
  induction xs generalizing ps with
  | nil => simp
  | cons x xs ih => rw [List.foldl_cons, ih, mem_insertPend, List.mem_cons, or_assoc]

/-- An operation that is still to perform is one of its context's, and has not performed. -/
theorem State.op_of_mem_pends {s : State} {c : CtxId} {o : MemOp} (h : Pend.op o ∈ s.pends c) :
    o ∈ (s.ctx c).ops ∧ o.performed = false := by
  have msg (m : KsMsg) : KsMsg.pend c m ≠ some (.op o) := by
    unfold KsMsg.pend
    (repeat' split) <;> simp
  simp only [State.pends, mem_foldl_insertPend, List.mem_append, List.mem_map, List.mem_filter, List.mem_filterMap] at h
  obtain ⟨x, ⟨hx, ht⟩, ⟨⟩⟩ | ⟨a, -, ⟨⟩⟩ | ⟨m, -, hm⟩ := h
  · simp only [Bool.and_eq_true, Bool.not_eq_true'] at ht
    exact ⟨hx, ht.1⟩
  · exact absurd hm (msg m)

/-- Where nothing that is still to perform satisfies a test, nothing performs for it. -/
theorem State.performFor_of_none {s : State} {c : CtxId} {p : Pend → Bool} (h : ∀ e ∈ s.pends c, p e = false) :
    s.performFor c p = s := by
  have none_waits (l : List Pend) (hl : ∀ e ∈ l, p e = false) : s.waitedFor c p l = [] := by
    induction l with
    | nil => rfl
    | cons e l ih =>
      simp only [State.waitedFor, ih fun x hx => hl x (List.mem_cons_of_mem e hx), hl e List.mem_cons_self]
      rfl
  rw [State.performFor, none_waits _ h]
  rfl

/-! ### Two updates of one context -/

theorem Core.setCtx_ne_reset {k : Core} {b : Bool} {x : Ctx} (h : x ≠ Ctx.reset) : k.setCtx b x ≠ Core.reset := by
  intro e
  apply h
  rw [← k.ctx_setCtx_same b x, e]
  cases b <;> rfl

@[simp] theorem Core.setCtx_setCtx (k : Core) (b : Bool) (x y : Ctx) : (k.setCtx b x).setCtx b y = k.setCtx b y := by
  cases b <;> rfl

/-- Two updates of a context are one, where neither leaves it as after reset. -/
theorem State.updCtx_updCtx (s : State) (c : CtxId) (f g : Ctx → Ctx) (hf : f (s.ctx c) ≠ Ctx.reset)
    (hg : g (f (s.ctx c)) ≠ Ctx.reset) : (s.updCtx c f).updCtx c g = s.updCtx c (fun k => g (f k)) := by
  have inner := State.ctx_updCtx_same s c f
  unfold State.updCtx at inner ⊢
  rw [inner]
  unfold State.setCtx
  rw [State.core_setCore_same, Core.setCtx_setCtx]
  unfold State.setCore
  dsimp only
  rw [SMap.setD_setD _ _ _ (Core.setCtx_ne_reset hf) (Core.setCtx_ne_reset hg)]

/-! ### A core beside its contexts -/

theorem State.core_updCtx_same (s : State) (c : CtxId) (f : Ctx → Ctx) :
    (s.updCtx c f).core c.core = (s.core c.core).setCtx c.one (f (s.ctx c)) := State.core_setCore_same _ _ _

@[simp] theorem Core.setCtx_cycle (k : Core) (b : Bool) (x : Ctx) : (k.setCtx b x).cycle = k.cycle := by cases b <;> rfl
@[simp] theorem Core.setCtx_frozen (k : Core) (b : Bool) (x : Ctx) : (k.setCtx b x).frozen = k.frozen := by cases b <;> rfl
@[simp] theorem Core.setCtx_sq (k : Core) (b : Bool) (x : Ctx) : (k.setCtx b x).sq = k.sq := by cases b <;> rfl
@[simp] theorem Core.setCtx_sqOvf (k : Core) (b : Bool) (x : Ctx) : (k.setCtx b x).sqOvf = k.sqOvf := by cases b <;> rfl

/-- An update of a core that leaves its contexts leaves every context. -/
theorem State.ctx_updCore (s : State) (n : Nat) {f : Core → Core} (h : ∀ k b, (f k).ctx b = k.ctx b) (d : CtxId) :
    (s.updCore n f).ctx d = s.ctx d := by
  unfold State.ctx
  by_cases hn : d.core = n
  · rw [hn, State.core_updCore_same, h]
  · rw [State.core_updCore_other _ _ hn]

/-! ### The statistics queue (R140, Table 5.10) -/

/-- A record joins a queue that has room. -/
theorem Core.record_room {k : Core} (h : k.sq.length < 256) (r : BitVec 128) : k.record r = { k with sq := k.sq ++ [r] } :=
  if_pos h

/-- A full queue loses its oldest record and counts it. -/
theorem Core.record_full {k : Core} (h : 256 ≤ k.sq.length) (r : BitVec 128) :
    k.record r = { k with sq := k.sq.drop 1 ++ [r], sqOvf := Claim.sat k.sqOvf } := if_neg (Nat.not_lt_of_le h)

theorem Core.record_ctx (k : Core) (r : BitVec 128) (b : Bool) : (k.record r).ctx b = k.ctx b := by
  unfold Core.record
  split <;> rfl

@[simp] theorem Core.record_frozen (k : Core) (r : BitVec 128) : (k.record r).frozen = k.frozen := by
  unfold Core.record
  split <;> rfl

/-- The fields of the record of a freeze. -/
theorem sqRecord_freeze (one : Bool) (pc : DWord) (n : Nat) (l : BitVec 3) :
    let r := sqRecord one 0x02 pc (n % 2 ^ 32 + l.toNat * 2 ^ 32)
    r.extractLsb' 0 56 = pc.setWidth 56 ∧ r.extractLsb' 56 8 = 0x02 ∧ r.extractLsb' 64 32 = BitVec.ofNat 32 n ∧
      r.extractLsb' 96 31 = l.setWidth 31 ∧ r.getLsbD 127 = one := by
  have hl := l.isLt
  have kind : (0x02 : BitVec 8).toNat = 2 := rfl
  have whole : (sqRecord one 0x02 pc (n % 2 ^ 32 + l.toNat * 2 ^ 32)).toNat =
      (if one then 2 ^ 127 else 0) + (n % 2 ^ 32 + l.toNat * 2 ^ 32) * 2 ^ 64 + 2 * 2 ^ 56 + pc.toNat % 2 ^ 56 := by
    rw [sqRecord, BitVec.toNat_ofNat, kind]
    cases one <;> simp only [if_true, Bool.false_eq_true, if_false] <;> omega
  intro r
  refine ⟨?_, ?_, ?_, ?_, ?_⟩
  · apply BitVec.eq_of_toNat_eq
    rw [BitVec.extractLsb'_toNat, whole, BitVec.toNat_setWidth, Nat.shiftRight_eq_div_pow]
    cases one <;> simp only [if_true, Bool.false_eq_true, if_false] <;> omega
  · apply BitVec.eq_of_toNat_eq
    rw [BitVec.extractLsb'_toNat, whole, kind, Nat.shiftRight_eq_div_pow]
    cases one <;> simp only [if_true, Bool.false_eq_true, if_false] <;> omega
  · apply BitVec.eq_of_toNat_eq
    rw [BitVec.extractLsb'_toNat, whole, BitVec.toNat_ofNat, Nat.shiftRight_eq_div_pow]
    cases one <;> simp only [if_true, Bool.false_eq_true, if_false] <;> omega
  · apply BitVec.eq_of_toNat_eq
    rw [BitVec.extractLsb'_toNat, whole, BitVec.toNat_setWidth, Nat.shiftRight_eq_div_pow]
    cases one <;> simp only [if_true, Bool.false_eq_true, if_false] <;> omega
  · rw [BitVec.getLsbD, whole, Nat.testBit_eq_decide_div_mod_eq]
    cases one
    · simp only [Bool.false_eq_true, if_false, decide_eq_false_iff_not]
      omega
    · simp only [if_true, decide_eq_true_eq]
      omega

/-! ### Early landings (R83, R84) -/

section

variable {s : State} {c : CtxId} {k : Nat} {f : Flight}

theorem Ctx.unlanded_of {x : Ctx} (h : x.flight[k]? = some f) (landed : f.landed = false) (src : f.src = none) :
    x.unlanded k = some f := by
  simp [Ctx.unlanded, h, landed, src]

/-- A result that lands is marked as landed. -/
theorem State.landOne_of (h : (s.ctx c).unlanded k = some f) : s.landOne c k =
    (s.land c f).updCtx c (fun x => { x with flight := x.flight.modify k (fun f => { f with landed := true }) }) := by
  unfold State.landOne
  rw [h]

theorem State.land_register (h : ∀ n w, f.dest ≠ .cr n w) : s.land c f = s.updCtx c (fun x => x.land f) := by
  unfold State.land
  split
  · next n w e => exact absurd e (h n w)
  · rfl

theorem State.land_wrc {n : BitVec 8} {w : BitVec 6} (h : f.dest = .cr n w) (live : f.live.getLsbD 0 = true) :
    s.land c f = (s.writeCr c n w (f.val.setWidth 64)).updCtx c
      (fun x => { x with did := x.did ++ [.result f.dest f.val] }) := by
  unfold State.land
  split
  · next n' w' e =>
    cases h.symm.trans e
    rw [if_pos live]
    rfl
  · next e => exact absurd h (e n w)

theorem exec_resultLanding (h : (s.ctx c).unlanded k = some f) (reg : ∀ n w, f.dest ≠ .cr n w) :
    exec (.resultLanding c k) s = .next (s.landOne c k) := by
  change execResultLanding c k s = _
  unfold execResultLanding
  rw [h]
  dsimp only
  split
  · next n w e => exact absurd e (reg n w)
  · rfl

theorem State.landWrc_of {p : BitVec 8 → Bool} (h : (s.ctx c).pendingWrc p = some k) : s.landWrc c p = s.landOne c k := by
  unfold State.landWrc
  rw [h]

end

/-! ### Landing registers (R173) -/

/-- A landing register whose data has come lands. -/
theorem Ctx.landRegister_of {k : Ctx} {l op due : Nat} {d : Vec} {p : Option Nat}
    (h : SMap.get .empty k.l l = .pending op due (some d) p) :
    k.landRegister l = { k with
      l := SMap.setD .empty k.l l (.landed d 0 p), did := k.did ++ [.lands (.landing l) [d.toNat]] } := by
  simp only [Ctx.landRegister, h, Ctx.commit, Landing.land]

section

variable {s : State} {c : CtxId} {l op due : Nat} {data : Option Vec} {p : Option Nat}
  (h : SMap.get .empty (s.ctx c).l l = .pending op due data p)

include h

theorem State.landingDue_early (early : (s.core c.core).cycle + 1 < due) : s.landingDue c l = s := by
  unfold State.landingDue
  rw [h]
  exact if_pos early

theorem State.landingDue_data (come : due ≤ (s.core c.core).cycle + 1) {d : Vec} (hd : data = some d) :
    s.landingDue c l = s.updCtx c (fun k => k.landRegister l) := by
  subst hd
  unfold State.landingDue
  rw [h]
  exact if_neg (Nat.not_lt_of_le come)

theorem State.landingDue_late (come : due ≤ (s.core c.core).cycle + 1) (hd : data = none) :
    s.landingDue c l =
      if (s.course (courseOf c.core)).plumb then (s.arriveByDue c l op).updCtx c (fun k => k.landRegister l)
      else if (s.core c.core).frozen.isSome then s
      else s.updCore c.core (fun k => { k with frozen := some (c.one, BitVec.ofNat 3 l, 0) }) := by
  subst hd
  unfold State.landingDue
  rw [h]
  exact if_neg (Nat.not_lt_of_le come)

/-- In a plumb course the data of a load that has performed comes at its due cycle, and lands. -/
theorem State.landingDue_plumb (come : due ≤ (s.core c.core).cycle + 1) (hd : data = none)
    (plumb : (s.course (courseOf c.core)).plumb = true) {o : MemOp} (ho : (s.ctx c).findOp op = some o)
    (done : ∀ x ∈ (s.ctx c).ops, x.id = op → x.performed = true) :
    s.landingDue c l = s.updCtx c (fun k => { k.dropOp op with
      l := SMap.setD .empty k.l l (.landed (BitVec.ofNat 1024 o.val) 0 p)
      did := k.did ++ [.lands (.landing l) [(BitVec.ofNat 1024 o.val).toNat]] }) := by
  have filled : (SMap.get .empty (s.ctx c).l l).arrive op (BitVec.ofNat 1024 o.val) false =
      .pending op due (some (BitVec.ofNat 1024 o.val)) p := by
    rw [h]
    exact if_neg (not_not.mpr rfl)
  have arrived : s.arriveByDue c l op = s.updCtx c (fun k => { k.dropOp op with
      l := SMap.setD .empty k.l l ((SMap.get .empty k.l l).arrive op (BitVec.ofNat 1024 o.val) false) }) := by
    unfold State.arriveByDue
    dsimp only
    rw [State.performFor_of_none, ho]
    intro e he
    cases e with
    | op x =>
      obtain ⟨hx, waits⟩ := State.op_of_mem_pends he
      refine beq_eq_false_iff_ne.mpr fun hid => ?_
      rw [done x hx hid] at waits
      cases waits
    | array => rfl
    | msg => rfl
  have lands : SMap.get .empty (SMap.setD .empty (s.ctx c).l l (.pending op due (some (BitVec.ofNat 1024 o.val)) p)) l =
      .pending op due (some (BitVec.ofNat 1024 o.val)) p := SMap.get_setD_same _ _ _ _
  have fresh (m : SMap Landing) (x : Landing) (hx : x ≠ .empty) (k : Ctx) (hk : k.l = SMap.setD .empty m l x) : k ≠ Ctx.reset := by
    intro e
    have e' : SMap.get .empty k.l l = .empty := by rw [e]; rfl
    rw [hk, SMap.get_setD_same] at e'
    exact hx e'
  rw [State.landingDue_late h come hd, if_pos plumb, arrived, State.updCtx_updCtx]
  · unfold State.updCtx
    refine congrArg (s.setCtx c) ?_
    dsimp only
    rw [filled, Ctx.landRegister_of lands]
    dsimp only
    rw [SMap.setD_setD _ _ _ (by simp) (by simp)]
    rfl
  · exact fresh _ (.pending op due (some (BitVec.ofNat 1024 o.val)) p) nofun _ (congrArg (SMap.setD .empty (s.ctx c).l l) filled)
  · rw [filled, Ctx.landRegister_of lands]
    exact fresh _ (.landed (BitVec.ofNat 1024 o.val) 0 p) nofun _ rfl

end

/-! ### The arrival of data (R14, R173) -/

/-- A freeze that waits for another register, or none, stays. -/
theorem State.thaw_of_none {s : State} {c : CtxId} (r : BitVec 3) (pc : DWord) (h : (s.core c.core).frozen = none) :
    s.thaw c r pc = s := by
  unfold State.thaw
  rw [h]

/-- A freeze that waits for the register ends with its record. -/
theorem State.thaw_of_frozen {s : State} {c : CtxId} {r : BitVec 3} (pc : DWord) {n : Nat}
    (h : (s.core c.core).frozen = some (c.one, r, n)) :
    s.thaw c r pc = (s.updCore c.core (fun k => { k with frozen := none })).record c.core
      (sqRecord c.one 0x02 pc (n % 2 ^ 32 + r.toNat * 2 ^ 32)) := by
  unfold State.thaw
  rw [h]
  exact if_pos ⟨rfl, rfl⟩

theorem State.ctx_thaw (s : State) (c : CtxId) (r : BitVec 3) (pc : DWord) (d : CtxId) : (s.thaw c r pc).ctx d = s.ctx d := by
  unfold State.thaw
  (repeat' split)
  · exact (State.ctx_updCore _ _ (fun k b => k.record_ctx _ b) d).trans
      (State.ctx_updCore s c.core (f := fun k => { k with frozen := none }) (fun k b => by cases b <;> rfl) d)
  · rfl
  · rfl

/-- The core after the end of a freeze. -/
theorem State.core_thaw_of_frozen {s : State} {c : CtxId} {r : BitVec 3} (pc : DWord) {n : Nat}
    (h : (s.core c.core).frozen = some (c.one, r, n)) :
    (s.thaw c r pc).core c.core = ({ s.core c.core with frozen := none } : Core).record
      (sqRecord c.one 0x02 pc (n % 2 ^ 32 + r.toNat * 2 ^ 32)) := by
  rw [State.thaw_of_frozen pc h, State.record, State.core_updCore_same, State.core_updCore_same]

section

variable {s : State} {c : CtxId} {l : BitVec 3} {op due : Nat} {data : Option Vec} {p : Option Nat} {o : MemOp}

/-- The arrival writes the data into a register that waits for it, at once where the core has waited for it. -/
theorem State.landingArrives_register (h : SMap.get .empty (s.ctx c).l l.toNat = .pending o.id due data p) :
    SMap.get .empty ((s.landingArrives c l o).ctx c).l l.toNat =
      if (match (s.core c.core).frozen with | some (one, r, _) => one == c.one && r == l | none => false) then
        .landed (BitVec.ofNat 1024 o.val) 0 p else .pending o.id due (some (BitVec.ofNat 1024 o.val)) p := by
  unfold State.landingArrives
  dsimp only
  rw [State.ctx_thaw, State.ctx_updCtx_same]
  dsimp only
  rw [SMap.get_setD_same, h]
  exact if_neg (not_not.mpr rfl)

/-- Beside its contexts a core that is not frozen stays as it is. -/
theorem State.landingArrives_sq_of_none (h : (s.core c.core).frozen = none) :
    ((s.landingArrives c l o).core c.core).sq = (s.core c.core).sq := by
  unfold State.landingArrives
  dsimp only
  rw [State.thaw_of_none]
  · rw [State.core_updCtx_same, Core.setCtx_sq]
  · rw [State.core_updCtx_same, Core.setCtx_frozen, h]

/-- The freeze that has waited for the data ends, with its record. -/
theorem State.landingArrives_core_of_frozen {n : Nat} (h : (s.core c.core).frozen = some (c.one, l, n)) :
    ∃ k : Core, k.sq = (s.core c.core).sq ∧ k.sqOvf = (s.core c.core).sqOvf ∧ k.frozen = none ∧
      (s.landingArrives c l o).core c.core = k.record (sqRecord c.one 0x02 o.pc (n % 2 ^ 32 + l.toNat * 2 ^ 32)) := by
  unfold State.landingArrives
  dsimp only
  rw [State.core_thaw_of_frozen (n := n)]
  · refine ⟨_, ?_, ?_, rfl, rfl⟩
    · dsimp only
      rw [State.core_updCtx_same, Core.setCtx_sq]
    · dsimp only
      rw [State.core_updCtx_same, Core.setCtx_sqOvf]
  · rw [State.core_updCtx_same, Core.setCtx_frozen, h]

theorem exec_landingArrival (h : (s.ctx c).landingOp l = some o) :
    exec (.landingArrival c l) s = .next (s.landingArrives c l o) := by
  change execLandingArrival c l s = _
  unfold execLandingArrival
  rw [h]

end

/-- Settles O45: the event of an early landing by its destination; a landing register by its due cycle, its data and the
course; an arrival by whether its core is frozen. -/
theorem earlyLandings : Obligations.EarlyLandings := by
  refine ⟨fun s c k f hf landed src => ?_, fun s c l op due data p h => ?_⟩
  · have open_ := Ctx.unlanded_of hf landed src
    intro mark
    refine ⟨fun reg => ?_, fun n w cr live => ?_⟩
    · rw [exec_resultLanding open_ reg, State.landOne_of open_, State.land_register reg]
    · have wrc {q : BitVec 8 → Bool} (hq : (s.ctx c).pendingWrc q = some k) : s.landWrc c q =
          mark ((s.writeCr c n w (f.val.setWidth 64)).updCtx c (fun x => { x with did := x.did ++ [.result f.dest f.val] })) := by
        rw [State.landWrc_of hq, State.landOne_of open_, State.land_wrc cr live]
      exact ⟨fun _ hq => congrArg Host.Outcome.next (wrc hq), fun _ hq => congrArg Host.Outcome.next (wrc hq),
        fun j _ hq => congrArg Host.Outcome.next (wrc hq)⟩
  · have due_is : exec (.landingDue c l) s = .next (s.landingDue c l.toNat) := rfl
    have name : BitVec.ofNat 3 l.toNat = l := by simp
    intro core plumb late
    refine ⟨fun early => ?_, fun come d hd => ?_, fun ⟨come, hd⟩ hp hz => ?_, fun ⟨come, hd⟩ hp hz => ?_,
      fun ⟨come, hd⟩ hp o ho done => ?_, fun o ho hid => ⟨_, exec_landingArrival ho, fun hz => ?_, fun n hz => ?_, fun a => ?_⟩⟩
    · rw [due_is, State.landingDue_early h early]
    · rw [due_is, State.landingDue_data h come hd]
      subst hd
      exact congrArg (fun k => Host.Outcome.next (s.setCtx c k)) (Ctx.landRegister_of h)
    · rw [due_is, State.landingDue_late h come hd, if_neg (Bool.not_eq_true _ ▸ hp), if_neg, name]
      exact Option.not_isSome_iff_eq_none.mpr hz
    · rw [due_is, State.landingDue_late h come hd, if_neg (Bool.not_eq_true _ ▸ hp),
        if_pos (Option.isSome_iff_ne_none.mpr hz)]
    · rw [due_is, State.landingDue_plumb h come hd hp ho done]
    · subst hid
      refine ⟨?_, State.landingArrives_sq_of_none hz⟩
      rw [State.landingArrives_register h, hz]
      rfl
    · subst hid
      obtain ⟨k, sq, ovf, thawed, hk⟩ := State.landingArrives_core_of_frozen (o := o) hz
      obtain ⟨pc, kind, cycles, reg, one⟩ := sqRecord_freeze c.one o.pc n l
      refine ⟨?_, ?_, _, pc, kind, cycles, reg, one, fun room => ?_, fun full => ?_⟩
      · rw [State.landingArrives_register h, hz]
        exact if_pos (by simp)
      · rw [hk, Core.record_frozen, thawed]
      · rw [hk, Core.record_room (by rw [sq]; exact room)]
        exact ⟨congrArg (· ++ [_]) sq, ovf⟩
      · rw [hk, Core.record_full (by rw [sq]; exact full)]
        exact ⟨congrArg (fun q => List.drop 1 q ++ [_]) sq, congrArg Claim.sat ovf⟩
    · exact congrArg (fun m => SMap.get unwritten m a) (s.landingArrives_mem c l o)

end Sys2Proof.Machine
end

section
/-! SUPPORT. Results that only join those on their way, and loops: LOOP, the back-edge, and the kernel pass that a loop runs
(R16, R17, R84, R126, R127). -/

namespace Sys2Proof.Machine

/-! ### Results that join -/

/-- A context has a result on its way to a destination. -/
def Ctx.Carries (k : Ctx) (d : Dest) (v : Vec) (due : Nat) : Prop := ∃ f ∈ k.flight, f.dest = d ∧ f.val = v ∧ f.due = due

theorem Flight.overtaken_dest (d : Dest) (m : Part) (f : Flight) : (f.overtaken d m).dest = f.dest := by
  unfold Flight.overtaken
  split <;> rfl

theorem Flight.overtaken_val (d : Dest) (m : Part) (f : Flight) : (f.overtaken d m).val = f.val := by
  unfold Flight.overtaken
  split <;> rfl

theorem Flight.overtaken_due (d : Dest) (m : Part) (f : Flight) : (f.overtaken d m).due = f.due := by
  unfold Flight.overtaken
  split <;> rfl

/-- A result that joins stands in the list. -/
theorem addFlight_self (f : Flight) (fs : List Flight) :
    ∃ g ∈ addFlight f fs, g.dest = f.dest ∧ g.val = f.val ∧ g.due = f.due :=
  ⟨_, List.mem_append_right _ List.mem_cons_self, rfl, rfl, rfl⟩

/-- A result that joins takes no other out of the list: one that it overtakes loses its part alone. -/
theorem addFlight_keeps (f : Flight) {fs : List Flight} {g : Flight} (h : g ∈ fs) :
    ∃ x ∈ addFlight f fs, x.dest = g.dest ∧ x.val = g.val ∧ x.due = g.due := by
  by_cases later : g.after f.seq f.slot = true
  · exact ⟨g, List.mem_append_right _ (List.mem_cons_of_mem _ (List.mem_filter.mpr ⟨h, later⟩)), rfl, rfl, rfl⟩
  · refine ⟨g.overtaken f.dest f.lanes, List.mem_append_left _ (List.mem_map_of_mem (List.mem_filter.mpr ⟨h, ?_⟩)),
      g.overtaken_dest _ _, g.overtaken_val _ _, g.overtaken_due _ _⟩
    simpa using later

/-- Between two states a context has changed in its results on their way alone, of which none has left, and the device in
its cores alone. -/
structure State.Joins (c : CtxId) (s t : State) : Prop where
  ctx : t.ctx c = { s.ctx c with flight := (t.ctx c).flight }
  device : t = { s with cores := t.cores }
  cycle : (t.core c.core).cycle = (s.core c.core).cycle
  keeps : ∀ d v due, (s.ctx c).Carries d v due → (t.ctx c).Carries d v due

theorem State.Joins.refl (c : CtxId) (s : State) : State.Joins c s s := ⟨rfl, rfl, rfl, fun _ _ _ h => h⟩

theorem State.Joins.trans {c : CtxId} {s t u : State} (a : State.Joins c s t) (b : State.Joins c t u) : State.Joins c s u where
  ctx := by rw [b.ctx, a.ctx]
  device := by rw [b.device, a.device]
  cycle := b.cycle.trans a.cycle
  keeps d v due h := b.keeps d v due (a.keeps d v due h)

theorem State.Joins.cur {c : CtxId} {s t : State} (h : State.Joins c s t) : t.cur = s.cur :=
  (congrArg State.cur h.device :)

theorem State.Joins.mem {c : CtxId} {s t : State} (h : State.Joins c s t) : t.mem = s.mem :=
  (congrArg State.mem h.device :)

theorem State.Joins.graphs {c : CtxId} {s t : State} (h : State.Joins c s t) : t.graphs = s.graphs :=
  (congrArg State.graphs h.device :)

/-- A result without flags joins those on their way, and nothing else happens. -/
theorem State.result_quiet (s : State) (lat : Nat) (d : Dest) (v : Vec) (m : Part) :
    s.result lat d v m 0 none = s.upd (fun c => { c with
      flight := addFlight ⟨c.seq, s.slot, s.cycle + lat, d, v, m, m, 0, none, false⟩ c.flight }) := by
  have quiet (x : BitVec 32) : enabledFlags x 0 = 0 := BitVec.zero_and
  unfold State.result
  dsimp only
  rw [quiet, if_pos rfl]

theorem State.joins_result (s : State) (lat : Nat) (d : Dest) (v : Vec) (m : Part) :
    State.Joins s.cur s (s.result lat d v m 0 none) ∧ ((s.result lat d v m 0 none).ctx s.cur).Carries d v (s.cycle + lat) := by
  have here := State.here_upd s (fun c => { c with
    flight := addFlight ⟨c.seq, s.slot, s.cycle + lat, d, v, m, m, 0, none, false⟩ c.flight })
  unfold State.here at here
  rw [State.upd_cur] at here
  rw [State.result_quiet]
  refine ⟨⟨?_, rfl, State.cycle_upd s _, fun e w due ⟨g, hg, hd, hv, ht⟩ => ?_⟩, ?_⟩
  · rw [here]
  · obtain ⟨x, hx, xd, xv, xt⟩ := addFlight_keeps ⟨s.here.seq, s.slot, s.cycle + lat, d, v, m, m, 0, none, false⟩ hg
    refine ⟨x, ?_, xd.trans hd, xv.trans hv, xt.trans ht⟩
    rw [here]
    exact hx
  · rw [here]
    exact addFlight_self ⟨s.here.seq, s.slot, s.cycle + lat, d, v, m, m, 0, none, false⟩ _

/-- What joins on behalf of the last bundle of a context joins that context. -/
theorem State.joins_asLast {s : State} {c : CtxId} {slot : Nat} {f : State → State}
    (h : State.Joins c { s with cur := c, slot := slot, heldNow := false }
      (f { s with cur := c, slot := slot, heldNow := false })) : State.Joins c s (s.asLast c slot f) :=
  ⟨h.ctx, congrArg (fun t : State => { t with cur := s.cur, slot := s.slot, heldNow := s.heldNow }) h.device, h.cycle, h.keeps⟩

/-! ### The loop indices (R17, R282) -/

/-- Index results to x registers, one after another. -/
theorem State.joins_indices (n : Node) (l : Option Nat) : ∀ (ds : List Nat) (s : State),
    State.Joins s.cur s (ds.foldl (fun s d => s.putX 1 (BitVec.ofNat 4 d) (n.index l d)) s) ∧
      ∀ d ∈ ds, ((ds.foldl (fun s d => s.putX 1 (BitVec.ofNat 4 d) (n.index l d)) s).ctx s.cur).Carries
        (.x (BitVec.ofNat 4 d)) ((n.index l d).setWidth 1024) (s.cycle + 1)
  | [], s => ⟨.refl _ s, nofun⟩
  | d :: ds, s => by
    obtain ⟨first, has⟩ := s.joins_result 1 (.x (BitVec.ofNat 4 d)) ((n.index l d).setWidth 1024) 1
    obtain ⟨rest, have_⟩ := State.joins_indices n l ds (s.putX 1 (BitVec.ofNat 4 d) (n.index l d))
    have cur : (s.putX 1 (BitVec.ofNat 4 d) (n.index l d)).cur = s.cur := first.cur
    have cycle : (s.putX 1 (BitVec.ofNat 4 d) (n.index l d)).cycle = s.cycle := by
      unfold State.cycle State.myCore
      rw [cur]
      exact first.cycle
    rw [cur] at rest
    rw [cur, cycle] at have_
    refine ⟨first.trans rest, fun e he => ?_⟩
    obtain rfl | he := List.mem_cons.mp he
    · exact rest.keeps _ _ _ has
    · exact have_ e he

theorem State.joins_writeIndices (s : State) (c : CtxId) (n : Node) (l : Option Nat) (ds : List Nat) :
    State.Joins c s (s.writeIndices c n l ds) ∧ ∀ d ∈ ds, ((s.writeIndices c n l ds).ctx c).Carries (.x (BitVec.ofNat 4 d))
      ((n.index l d).setWidth 1024) ((s.core c.core).cycle + 1) := by
  obtain ⟨joins, has⟩ := State.joins_indices n l ds { s with cur := c, slot := 9, heldNow := false }
  unfold State.writeIndices
  exact ⟨State.joins_asLast joins, has⟩

/-! ### LOOP (R126) -/

theorem loopCount_eq (w : DWord) : loopCount w = w.toNat % 2 ^ 28 := BitVec.extractLsb'_toNat 0 28 w

/-- The index of a dimension can still rise under its control word. -/
theorem LoopSt.rises_iff (l : LoopSt) (d : Nat) (w : DWord) :
    decide (l.at d + 1 < loopCount w) = true ↔ (SMap.get 0 l.idx d).toNat + 1 < w.toNat % 2 ^ 28 := by
  rw [decide_eq_true_iff, loopCount_eq]
  rfl

theorem runs_loop (u : Grd) (l : BitVec 5) (d : BitVec 3) (a : BitVec 6) :
    Claim.Runs (.loop u l d a) (fun s => s.startLoop l (d.toNat + 1) a) :=
  runs_of (eff' := fun s => s.startLoop l (d.toNat + 1) a) (fun _ => rfl) (fun _ => rfl)

/-- A LOOP with a count of 0 skips its body. -/
theorem State.startLoop_skip {s : State} {l : BitVec 5} {d : BitVec 3} {a : BitVec 6}
    (h : ∃ j ≤ d.toNat, (s.readS (a + BitVec.ofNat 6 (2 * j))).toNat % 2 ^ 28 = 0) : s.startLoop l (d.toNat + 1) a =
      s.upd (fun k => { k with npc := s.skipBundles s.cur.core (l.toNat + 1) s.here.npc }) := by
  obtain ⟨j, hj, hz⟩ := h
  refine if_pos (List.any_eq_true.mpr ⟨j, List.mem_range.mpr (Nat.lt_succ_of_le hj), ?_⟩)
  rw [loopCount_eq, hz]
  rfl

/-- A LOOP without one takes its nest. -/
theorem State.startLoop_take {s : State} {l : BitVec 5} {d : BitVec 3} {a : BitVec 6}
    (h : ∀ j ≤ d.toNat, (s.readS (a + BitVec.ofNat 6 (2 * j))).toNat % 2 ^ 28 ≠ 0) : s.startLoop l (d.toNat + 1) a =
      s.openPass.upd (fun k => { k with loop := ⟨d.toNat + 1, l, 0, a, k.npc, []⟩ }) := by
  refine if_neg fun hz => ?_
  obtain ⟨j, hj, e⟩ := List.any_eq_true.mp hz
  refine h j (Nat.le_of_lt_succ (List.mem_range.mp hj)) ?_
  rw [← loopCount_eq]
  exact beq_iff_eq.mp e

theorem Ctx.inKernel_of {k : Ctx} {sl : Slice} (h : k.slice = some sl) : k.inKernel = (sl.phase == .kernel && k.trap.isNone) := by
  unfold Ctx.inKernel
  rw [h]

/-- Outside a kernel, in a handler, or where a pass is open, LOOP opens none. -/
theorem State.openPass_none {s : State}
    (h : ∀ sl, s.here.slice = some sl → sl.phase = .kernel → sl.passOpen = true ∨ s.here.trap ≠ none) : s.openPass = s := by
  unfold State.openPass
  dsimp only
  split
  · rfl
  · next sl hs =>
    refine if_pos ?_
    rw [Ctx.inKernel_of hs]
    by_cases kernel : sl.phase = .kernel
    · obtain open_ | trap := h sl hs kernel
      · exact .inr open_
      · exact .inl (by simp [Option.isNone_eq_false_iff, Option.isSome_iff_ne_none, trap])
    · exact .inl (by simp [kernel])

/-- LOOP of a kernel whose earlier loop has ended opens the next pass, with its indices. -/
theorem State.openPass_opens {s : State} {sl : Slice} {n : Node} (hs : s.here.slice = some sl) (kernel : sl.phase = .kernel)
    (closed : sl.passOpen = false) (trap : s.here.trap = none) (hn : s.nodeOf sl.graph sl.node = some n) :
    s.openPass = (s.upd (fun k => { k with slice := some { sl with passOpen := true } })).writeIndices s.cur n
      (some (sl.first + sl.iter)) (List.range 6) := by
  have out : ¬ (s.here.inKernel = false ∨ sl.passOpen = true) := by
    rw [Ctx.inKernel_of hs]
    simp [kernel, closed, trap]
  have node : (s.upd (fun k => { k with slice := some { sl with passOpen := true } })).nodeOf sl.graph sl.node = some n := hn
  unfold State.openPass
  dsimp only
  rw [hs]
  dsimp only
  rw [if_neg out, node]

theorem State.skipBundles_succ (s : State) (core n : Nat) (pc : DWord) :
    s.skipBundles core (n + 1) pc = match s.fetchBundle core pc with
      | .ok f => s.skipBundles core n (pc + BitVec.ofNat 64 f.size)
      | .error _ => pc := by
  rw [State.skipBundles]
  cases s.fetchBundle core pc <;> rfl

/-! ### The back-edge that the registers give (R127) -/

/-- Where no index can rise, the loop ends. -/
theorem State.edgeOf_ends {s : State} (h : ∀ d < s.here.loop.depth, ¬ (SMap.get 0 s.here.loop.idx d).toNat + 1 <
      (s.readS (s.here.loop.grp + BitVec.ofNat 6 (2 * d))).toNat % 2 ^ 28) : s.edgeOf.dim = none := by
  have none_ : s.here.loop.next (fun d => loopCount (s.loopControl s.here.loop d)) = none := by
    exact List.find?_eq_none.mpr fun d hd rises => h d (List.mem_range.mp hd) ((LoopSt.rises_iff _ _ _).mp rises)
  unfold State.edgeOf
  dsimp only
  rw [none_]

/-- The first dimension whose index can rise advances. -/
theorem State.edgeOf_advances {s : State} {j : Nat} (hj : j < s.here.loop.depth)
    (more : (SMap.get 0 s.here.loop.idx j).toNat + 1 < (s.readS (s.here.loop.grp + BitVec.ofNat 6 (2 * j))).toNat % 2 ^ 28)
    (least : ∀ d < j, ¬ (SMap.get 0 s.here.loop.idx d).toNat + 1 <
      (s.readS (s.here.loop.grp + BitVec.ofNat 6 (2 * d))).toNat % 2 ^ 28) :
    s.edgeOf = ⟨some j, loopTarget (s.loopControl s.here.loop j),
      s.readS (loopTarget (s.loopControl s.here.loop j)) + s.loopStride s.here.loop j⟩ := by
  have first : s.here.loop.next (fun d => loopCount (s.loopControl s.here.loop d)) = some j := by
    refine List.find?_range_eq_some.mpr ⟨(LoopSt.rises_iff _ _ _).mpr more, List.mem_range.mpr hj, fun d hd => ?_⟩
    exact Bool.not_eq_true' _ ▸ Bool.eq_false_of_not_eq_true fun rises => least d hd ((LoopSt.rises_iff _ _ _).mp rises)
  unfold State.edgeOf
  dsimp only
  rw [first]

/-! ### The back-edge takes effect (R127) -/

theorem SMap.get_filter_above {α : Type} (d : α) (m : SMap α) (j i : Nat) :
    SMap.get d (m.filter (fun p => decide (j < p.1))) i = if j < i then SMap.get d m i else d := by
  induction m with
  | nil => simp [SMap.get]
  | cons p m ih =>
    obtain ⟨k, v⟩ := p
    by_cases hk : j < k
    · rw [List.filter_cons_of_pos (by simpa using hk), SMap.get, SMap.get, ih]
      by_cases hi : i = k
      · simp [hi, hk]
      · simp [hi]
    · rw [List.filter_cons_of_neg (by simpa using hk), SMap.get, ih]
      by_cases hi : i = k
      · simp [hi, hk]
      · simp [hi]

theorem LoopSt.step_idx (l : LoopSt) (j i : Nat) : SMap.get 0 (l.step j).idx i =
    if i = j then BitVec.ofNat 28 ((SMap.get 0 l.idx j).toNat + 1) else if j < i then SMap.get 0 l.idx i else 0 := by
  unfold LoopSt.step
  dsimp only
  rw [SMap.get_put, SMap.get_filter_above]
  rfl

theorem Ctx.ne_reset_of_slice {k : Ctx} {sl : Slice} (h : k.slice = some sl) : k ≠ Ctx.reset := by
  rintro rfl
  cases h

theorem State.boundary_of_none {s : State} {c : CtxId} (h : (s.ctx c).request = .none) : s.boundary c = s := by
  unfold State.boundary
  dsimp only
  rw [h]

/-- The slice whose pass has ended. -/
def Slice.passed (sl : Slice) (more : Bool) : Slice :=
  { sl with iter := if sl.passOpen then sl.iter + 1 else sl.iter, passOpen := more }

/-- The last pass ends: its iteration counts. -/
theorem State.endPass_last {s : State} {c : CtxId} {sl : Slice} (hs : (s.ctx c).slice = some sl)
    (idle : (s.ctx c).request = .none) :
    s.endPass c false = s.updCtx c (fun k => { k with slice := some (sl.passed false) }) := by
  have asked : ((s.updCtx c (fun k => { k with slice := some (sl.passed false) })).ctx c).request = .none := by
    rw [State.ctx_updCtx_same]
    exact idle
  unfold State.endPass
  rw [hs]
  exact State.boundary_of_none asked

/-- A pass ends and the next one opens, with its indices. -/
theorem State.endPass_next {s : State} {c : CtxId} {sl : Slice} (hs : (s.ctx c).slice = some sl)
    (idle : (s.ctx c).request = .none) :
    State.Joins c (s.updCtx c (fun k => { k with slice := some (sl.passed true) })) (s.endPass c true) ∧
      ∀ n, s.nodeOf sl.graph sl.node = some n → ∀ d < 6, ((s.endPass c true).ctx c).Carries (.x (BitVec.ofNat 4 d))
        ((n.index (some (sl.first + (sl.passed true).iter)) d).setWidth 1024) ((s.core c.core).cycle + 1) := by
  have asked : ((s.updCtx c (fun k => { k with slice := some (sl.passed true) })).ctx c).request = .none := by
    rw [State.ctx_updCtx_same]
    exact idle
  have cycle : ((s.updCtx c (fun k => { k with slice := some (sl.passed true) })).core c.core).cycle = (s.core c.core).cycle := by
    rw [State.core_updCtx_same, Core.setCtx_cycle]
  have node : (s.updCtx c (fun k => { k with slice := some (sl.passed true) })).nodeOf sl.graph sl.node =
      s.nodeOf sl.graph sl.node := rfl
  have whole : s.endPass c true = ((match (s.updCtx c (fun k => { k with slice := some (sl.passed true) })).nodeOf sl.graph sl.node with
      | some n => (s.updCtx c (fun k => { k with slice := some (sl.passed true) })).writeIndices c n
          (some (sl.first + (sl.passed true).iter)) (List.range 6)
      | none => s.updCtx c (fun k => { k with slice := some (sl.passed true) }))).boundary c := by
    unfold State.endPass
    rw [hs]
    rfl
  rw [whole, node]
  cases hn : s.nodeOf sl.graph sl.node with
  | none =>
    dsimp only
    rw [State.boundary_of_none asked]
    exact ⟨.refl _ _, nofun⟩
  | some n =>
    dsimp only
    obtain ⟨joins, has⟩ := (s.updCtx c (fun k => { k with slice := some (sl.passed true) })).joins_writeIndices c n
      (some (sl.first + (sl.passed true).iter)) (List.range 6)
    rw [State.boundary_of_none ((congrArg Ctx.request joins.ctx :).trans asked)]
    refine ⟨joins, fun m hm d hd => ?_⟩
    cases hm
    rw [← cycle]
    exact has d (List.mem_range.mpr hd)

/-- The stride add of a back-edge: a result to the target, if there is one. -/
theorem State.addStride_ctx (s : State) (c : CtxId) (r : BitVec 6) (v : DWord) :
    ((s.addStride c r v).ctx c = { s.ctx c with
      flight := ((s.addStride c r v).ctx c).flight, ops := ((s.addStride c r v).ctx c).ops }) ∧
    s.addStride c r v = { s with cores := (s.addStride c r v).cores } ∧
    (r ≠ 0 → ∃ due, ((s.addStride c r v).ctx c).Carries (.s r) (v.setWidth 1024) due) := by
  by_cases hr : r = 0
  · have same : s.addStride c r v = s := if_pos hr
    rw [same]
    exact ⟨rfl, rfl, fun h => absurd hr h⟩
  · generalize ht : s.updCtx c (fun k => k.overtake r) = t
    obtain ⟨joins, has⟩ := State.joins_result { t with cur := c, slot := 8, heldNow := false } 1 (.s r) (v.setWidth 1024) 1
    have takes : s.addStride c r v = t.asLast c 8 (fun s => s.putS 1 r v 0) := by
      rw [← ht]
      exact if_neg hr
    have all := State.joins_asLast (s := t) (f := fun s => s.putS 1 r v 0) joins
    rw [takes]
    refine ⟨?_, ?_, fun _ => ⟨_, has⟩⟩
    · rw [all.ctx, ← ht, State.ctx_updCtx_same]
      rfl
    · rw [all.device, ← ht]
      rfl

/-- A back-edge that advances a dimension, before the end of a pass. -/
def State.advance (s : State) (c : CtxId) (e : Edge) (j : Nat) : State :=
  (s.addStride c e.target e.value).updCtx c (fun k => { k with
    loop := (s.ctx c).loop.step j, edge := none, pc := (s.ctx c).loop.body, npc := (s.ctx c).loop.body })

theorem State.advance_ctx (s : State) (c : CtxId) (e : Edge) (j : Nat) : ∃ fl os, (s.advance c e j).ctx c = { s.ctx c with
    loop := (s.ctx c).loop.step j, edge := none, pc := (s.ctx c).loop.body, npc := (s.ctx c).loop.body
    flight := fl, ops := os } := by
  refine ⟨((s.addStride c e.target e.value).ctx c).flight, ((s.addStride c e.target e.value).ctx c).ops, ?_⟩
  unfold State.advance
  rw [State.ctx_updCtx_same, (s.addStride_ctx c e.target e.value).1]

theorem State.advance_device (s : State) (c : CtxId) (e : Edge) (j : Nat) :
    s.advance c e j = { s with cores := (s.advance c e j).cores } := by
  unfold State.advance
  rw [(s.addStride_ctx c e.target e.value).2.1]
  rfl

theorem State.advance_target (s : State) (c : CtxId) {e : Edge} (j : Nat) (h : e.target ≠ 0) :
    ∃ due, ((s.advance c e j).ctx c).Carries (.s e.target) (e.value.setWidth 1024) due := by
  obtain ⟨due, f, hf, has⟩ := (s.addStride_ctx c e.target e.value).2.2 h
  refine ⟨due, f, ?_, has⟩
  unfold State.advance
  rw [State.ctx_updCtx_same]
  exact hf

section

variable {s : State} {c : CtxId} {e : Edge} (he : (s.ctx c).edge = some e)

include he

/-- The loop ends. -/
theorem State.backEdge_ends (hd : e.dim = none) : s.backEdge c =
    let t := s.updCtx c (fun k => { k with loop := { (s.ctx c).loop with depth := 0 }, edge := none })
    if (s.ctx c).inKernel then t.endPass c false else t := by
  unfold State.backEdge
  dsimp only
  rw [he]
  dsimp only
  rw [hd]

theorem State.backEdge_advances {j : Nat} (hd : e.dim = some j) : s.backEdge c =
    if (s.ctx c).inKernel && j + 1 == (s.ctx c).loop.depth then (s.advance c e j).endPass c true else s.advance c e j := by
  unfold State.backEdge
  dsimp only
  rw [he]
  dsimp only
  rw [hd]
  rfl

end

/-- Of a back-edge that advances a dimension: the context but for its slice, and what it adds. -/
theorem State.backEdge_control {s : State} {c : CtxId} {e : Edge} {j : Nat} (he : (s.ctx c).edge = some e)
    (hd : e.dim = some j) (idle : (s.ctx c).request = .none) :
    (∃ sl fl os, (s.backEdge c).ctx c = { s.ctx c with
      slice := sl, loop := (s.ctx c).loop.step j, edge := none, pc := (s.ctx c).loop.body, npc := (s.ctx c).loop.body
      flight := fl, ops := os }) ∧ (s.backEdge c).mem = s.mem ∧
    ∀ d v due, ((s.advance c e j).ctx c).Carries d v due → ((s.backEdge c).ctx c).Carries d v due := by
  obtain ⟨fl, os, control⟩ := s.advance_ctx c e j
  have device : (s.advance c e j).mem = s.mem := (congrArg State.mem (s.advance_device c e j) :)
  rw [State.backEdge_advances he hd]
  split
  · next outermost =>
    have kernel : (s.ctx c).inKernel = true := (Bool.and_eq_true _ _ ▸ outermost).1
    cases hs : (s.ctx c).slice with
    | none => simp [Ctx.inKernel, hs] at kernel
    | some sl =>
      obtain ⟨joins, -⟩ := State.endPass_next (s := s.advance c e j) (c := c) (sl := sl) (by rw [control]; exact hs)
        (by rw [control]; exact idle)
      refine ⟨⟨some (sl.passed true), (((s.advance c e j).endPass c true).ctx c).flight, os, ?_⟩, joins.mem.trans device,
        fun d v due h => joins.keeps d v due ?_⟩
      · rw [joins.ctx, State.ctx_updCtx_same, control]
      · rw [State.ctx_updCtx_same]
        exact h
  · exact ⟨⟨(s.ctx c).slice, fl, os, control⟩, device, fun _ _ _ h => h⟩

/-- The back-edge of a kernel's outermost dimension ends a pass and opens the next one. -/
theorem State.backEdge_pass {s : State} {c : CtxId} {e : Edge} {j : Nat} {sl : Slice} {n : Node} (he : (s.ctx c).edge = some e)
    (hd : e.dim = some j) (idle : (s.ctx c).request = .none) (hs : (s.ctx c).slice = some sl) (kernel : sl.phase = .kernel)
    (trap : (s.ctx c).trap = none) (outermost : j + 1 = (s.ctx c).loop.depth) (hn : s.nodeOf sl.graph sl.node = some n) :
    ((s.backEdge c).ctx c).slice = some (sl.passed true) ∧ ∀ d < 6, ∃ due, ((s.backEdge c).ctx c).Carries (.x (BitVec.ofNat 4 d))
      ((n.index (some (sl.first + (sl.passed true).iter)) d).setWidth 1024) due := by
  obtain ⟨fl, os, control⟩ := s.advance_ctx c e j
  have graphs : (s.advance c e j).graphs = s.graphs := (congrArg State.graphs (s.advance_device c e j) :)
  have node : (s.advance c e j).nodeOf sl.graph sl.node = some n := by
    unfold State.nodeOf
    rw [graphs]
    exact hn
  obtain ⟨joins, has⟩ := State.endPass_next (s := s.advance c e j) (c := c) (sl := sl) (by rw [control]; exact hs)
    (by rw [control]; exact idle)
  rw [State.backEdge_advances he hd, if_pos (by rw [Ctx.inKernel_of hs]; simp [kernel, trap, outermost])]
  refine ⟨?_, fun d hd => ⟨_, has n node d hd⟩⟩
  rw [joins.ctx, State.ctx_updCtx_same]

/-- In a trap handler no pass ends. -/
theorem State.backEdge_handler {s : State} {c : CtxId} {e : Edge} {j : Nat} (he : (s.ctx c).edge = some e)
    (hd : e.dim = some j) (trap : (s.ctx c).trap ≠ none) : ((s.backEdge c).ctx c).slice = (s.ctx c).slice := by
  obtain ⟨fl, os, control⟩ := s.advance_ctx c e j
  have out : (s.ctx c).inKernel = false := by
    cases hs : (s.ctx c).slice with
    | none => simp [Ctx.inKernel, hs]
    | some sl => simp [Ctx.inKernel, hs, Option.isNone_eq_false_iff, Option.isSome_iff_ne_none, trap]
  rw [State.backEdge_advances he hd, out]
  exact (congrArg Ctx.slice control :)

theorem exec_loopBackEdge {s : State} (c : CtxId) (h : s.boot = .running) : exec (.loopBackEdge c) s = .next (s.backEdge c) :=
  congrArg Host.Outcome.next (if_pos h)

/-- Settles O35: LOOP by its counts and by whether a pass is open; the back-edge by its dimension; a pass by whether the
loop is a kernel's. -/
theorem loops : Obligations.Loops := by
  refine ⟨fun u l d a s issues => ?_, fun s => ?_, fun c e => ?_, fun s c => ?_⟩
  · intro t count
    have run : exec (.loop u l d a) s = .next (t.startLoop l (d.toNat + 1) a) := runs_loop u l d a s issues
    refine ⟨fun counts passes => ?_, fun sl n counts hs kernel closed trap hn => ?_, fun skips => ?_, fun n pc => ⟨rfl, ?_⟩⟩
    · rw [run, State.startLoop_take counts, State.openPass_none passes]
    · rw [run, State.startLoop_take counts, State.openPass_opens hs kernel closed trap hn]
      obtain ⟨joins, has⟩ := (t.upd (fun k => { k with slice := some { sl with passOpen := true } })).joins_writeIndices t.cur n
        (some (sl.first + sl.iter)) (List.range 6)
      have cur := joins.cur
      have opened := joins.ctx
      generalize State.writeIndices _ _ _ _ _ = r at *
      have here : r.here = r.ctx t.cur := congrArg r.ctx cur
      have was : (t.upd (fun k => { k with slice := some { sl with passOpen := true } })).ctx t.cur =
          { t.here with slice := some { sl with passOpen := true } } := State.here_upd t _
      rw [was] at opened
      refine ⟨_, rfl, ?_, ?_, fun e he => ?_⟩
      · rw [State.here_upd, here, opened]
      · rw [State.here_upd, here, opened]
      · obtain ⟨f, hf, hd, hv, -⟩ := has e (List.mem_range.mpr he)
        refine ⟨f, ?_, hd, hv⟩
        rw [State.here_upd, here]
        exact hf
    · rw [run, State.startLoop_skip skips]
    · rw [State.skipBundles]
      cases t.fetchBundle t.cur.core pc <;> rfl
  · exact ⟨State.edgeOf_ends, fun j hj more least => State.edgeOf_advances hj more least⟩
  · refine ⟨fun h => if_pos h, fun h hp => ?_, fun h hp => ?_⟩
    · exact (if_neg h).trans (if_pos hp)
    · exact (if_neg h).trans (if_neg (Nat.not_le_of_lt hp))
  · intro k l
    refine ⟨fun h => ?_, fun run => ⟨fun e he hd out => ?_, fun e sl he hd hs kernel trap idle => ?_, fun e j he hd idle => ?_⟩⟩
    · obtain none_ | off := h
      · by_cases run : s.boot = .running
        · rw [exec_loopBackEdge c run, State.backEdge_of_none none_]
        · exact congrArg Host.Outcome.next (if_neg run)
      · exact congrArg Host.Outcome.next (if_neg off)
    · rw [exec_loopBackEdge c run, State.backEdge_ends he hd]
      exact congrArg Host.Outcome.next (if_neg (by rw [out]; simp))
    · have inside : (s.ctx c).inKernel = true := by
        rw [Ctx.inKernel_of hs]
        simp [kernel, trap]
      rw [exec_loopBackEdge c run, State.backEdge_ends he hd]
      dsimp only
      rw [if_pos inside, State.endPass_last (sl := sl), State.updCtx_updCtx]
      · rfl
      · exact Ctx.ne_reset_of_slice (sl := sl) hs
      · exact Ctx.ne_reset_of_slice rfl
      · rw [State.ctx_updCtx_same]
        exact hs
      · rw [State.ctx_updCtx_same]
        exact idle
    · obtain ⟨⟨sl', fl, os, control⟩, mem, keeps⟩ := State.backEdge_control he hd idle
      refine ⟨_, exec_loopBackEdge c run, ?_, ?_, ?_, ?_, ?_, ?_, fun d hj => ?_, fun d hj => ?_, fun a => ?_, fun target => ?_,
        fun trap => State.backEdge_handler he hd trap, fun sl n hs kernel trap outermost hn => ?_⟩
      · rw [control]
      · rw [control]
      · rw [control]
      · rw [control]
        rfl
      · rw [control]
        rfl
      · rw [control]
        exact (LoopSt.step_idx l j j).trans (if_pos rfl)
      · rw [control]
        exact (LoopSt.step_idx l j d).trans ((if_neg (Nat.ne_of_lt hj)).trans (if_neg (Nat.not_lt_of_lt hj)))
      · rw [control]
        exact (LoopSt.step_idx l j d).trans ((if_neg (Nat.ne_of_gt hj)).trans (if_pos hj))
      · exact congrArg (fun m => SMap.get unwritten m a) mem
      · obtain ⟨due, has⟩ := s.advance_target c j target
        obtain ⟨f, hf, fd, fv, -⟩ := keeps _ _ _ has
        exact ⟨f, hf, fd, fv⟩
      · obtain ⟨slice, has⟩ := State.backEdge_pass he hd idle hs kernel trap outermost hn
        refine ⟨slice, fun d hd => ?_⟩
        obtain ⟨due, f, hf, fd, fv, -⟩ := has d hd
        exact ⟨f, hf, fd, fv⟩

end Sys2Proof.Machine
end

section
/-! SUPPORT. The phases of a slice: YIELD, NDONE and the start on a core (R15 to R17, R137, R138). -/

namespace Sys2Proof.Machine

/-! ### YIELD (R137) -/

theorem runs_yield (u : Grd) : Claim.Runs (.yield u) State.endPhase :=
  runs_of (eff' := fun s => s.endPhase) (fun _ => rfl) (fun _ => rfl)

/-- The slice in its next phase: a kernel pass where iterations remain, else the epilogue. -/
def Slice.phased (sl : Slice) (iter : Nat) : Slice :=
  { sl with iter := iter, phase := if iter < sl.count then .kernel else .epilogue, passOpen := decide (iter < sl.count) }

/-- A slice enters its next phase where nothing is requested of it: no boundary holds it up. -/
theorem State.enterPhase_of_none {s : State} {sl : Slice} {n : Node} {iter : Nat} (idle : s.here.request = .none) :
    s.enterPhase s.cur sl n iter (decide (iter < sl.count)) = s.upd (fun k => { k with
      slice := some (sl.phased iter), held := [], npc := if iter < sl.count then n.ker else n.epi }) := by
  have phased : (if decide (iter < sl.count) = true then Phase.kernel else .epilogue) =
      if iter < sl.count then .kernel else .epilogue := by simp
  have entry : (if decide (iter < sl.count) = true then n.ker else n.epi) = if iter < sl.count then n.ker else n.epi := by simp
  have asked (f : Ctx → Ctx) (h : (f s.here).request = s.here.request) : ((s.upd f).ctx s.cur).request = .none := by
    have here := State.here_upd s f
    unfold State.here at here
    rw [State.upd_cur] at here
    rw [here]
    exact h.trans idle
  unfold State.enterPhase Slice.phased
  rw [phased, entry]
  generalize hf : (fun k : Ctx => ({ k with
    slice := some { sl with
      iter := iter, phase := if iter < sl.count then Phase.kernel else .epilogue, passOpen := decide (iter < sl.count) }
    held := [], npc := if iter < sl.count then n.ker else n.epi } : Ctx)) = f
  have same : (f s.here).request = s.here.request := by rw [← hf]
  by_cases kernel : sl.phase = .kernel
  · exact (if_pos kernel).trans (State.boundary_of_none (asked f same))
  · exact if_neg kernel

/-- What YIELD leaves in its context: the next phase, no hold, and index results that join those on their way. -/
theorem State.endPhase_of {s : State} {sl : Slice} {n : Node} (hs : s.here.slice = some sl)
    (hn : s.nodeOf sl.graph sl.node = some n) (idle : s.here.request = .none) {iter : Nat}
    (hi : (if sl.phase = .kernel ∧ sl.passOpen = true then sl.iter + 1 else sl.iter) = iter) :
    s.endPhase.mem = s.mem ∧ ∃ fl, s.endPhase.here = { s.here with
      slice := some (sl.phased iter), held := [], npc := if iter < sl.count then n.ker else n.epi, flight := fl } := by
  let l : Option Nat := if decide (iter < sl.count) then some (sl.first + iter) else
    if sl.count = 0 then none else some (sl.first + sl.count - 1)
  obtain ⟨joins, -⟩ := s.joins_writeIndices s.cur n l (List.range 6)
  have whole : s.endPhase = (s.writeIndices s.cur n l (List.range 6)).enterPhase s.cur sl n iter (decide (iter < sl.count)) := by
    unfold State.endPhase
    dsimp only
    rw [hs]
    dsimp only
    rw [hn]
    dsimp only
    rw [hi]
  rw [whole]
  generalize s.writeIndices s.cur n l (List.range 6) = t at joins
  have here : t.here = { s.here with flight := t.here.flight } := by
    have := joins.ctx
    rw [← joins.cur] at this
    unfold State.here
    rw [joins.cur] at this ⊢
    exact this
  rw [← joins.cur, State.enterPhase_of_none ((congrArg Ctx.request here :).trans idle), State.here_upd, State.upd_mem]
  refine ⟨joins.mem, t.here.flight, ?_⟩
  rw [here]

/-! ### Control-register writes land (R124) -/

/-- Between two states a context has changed in control registers, and in what a commit signature covers, alone. -/
structure State.Controls (c : CtxId) (s t : State) : Prop where
  cur : t.cur = s.cur
  mem : t.mem = s.mem
  graphs : t.graphs = s.graphs
  other : ∀ d, d ≠ c → t.ctx d = s.ctx d
  stored : ∀ d, (t.ctx c).stored d = (s.ctx c).stored d
  slice : (t.ctx c).slice = (s.ctx c).slice

theorem State.Controls.refl (c : CtxId) (s : State) : State.Controls c s s := ⟨rfl, rfl, rfl, fun _ _ => rfl, fun _ => rfl, rfl⟩

theorem State.Controls.trans {c : CtxId} {s t u : State} (a : State.Controls c s t) (b : State.Controls c t u) :
    State.Controls c s u :=
  ⟨b.cur.trans a.cur, b.mem.trans a.mem, b.graphs.trans a.graphs, fun d h => (b.other d h).trans (a.other d h),
    fun d => (b.stored d).trans (a.stored d), b.slice.trans a.slice⟩

/-- An update that leaves what the registers hold, and the slice. -/
theorem State.controls_updCtx (s : State) (c : CtxId) {f : Ctx → Ctx} (hf : ∀ k d, (f k).stored d = k.stored d)
    (hs : ∀ k, (f k).slice = k.slice) : State.Controls c s (s.updCtx c f) where
  cur := rfl
  mem := rfl
  graphs := rfl
  other _ h := State.ctx_updCtx_other s f h
  stored d := by rw [State.ctx_updCtx_same, hf]
  slice := by rw [State.ctx_updCtx_same, hs]

theorem Ctx.stored_of_registers {j k : Ctx} (s : j.s = k.s) (v : j.v = k.v) (p : j.p = k.p) (x : j.x = k.x) (bn : j.bn = k.bn)
    (d : Dest) : j.stored d = k.stored d := by
  unfold Ctx.stored
  rw [s, v, p, x, bn]

/-- A control-register write that lands. -/
theorem State.controls_writeCr (s : State) (c : CtxId) (n : BitVec 8) (w : BitVec 6) (v : DWord) :
    State.Controls c s (s.writeCr c n w v) := by
  have own {f : Ctx → Ctx} (hf : ∀ k d, (f k).stored d = k.stored d) (hs : ∀ k, (f k).slice = k.slice) :=
    s.controls_updCtx c hf hs
  unfold State.writeCr
  split
  · exact own (fun _ _ => rfl) (fun _ => rfl)
  · split
    · exact own (fun _ _ => rfl) (fun _ => rfl)
    · exact own (fun _ _ => rfl) (fun _ => rfl)
    · exact own (fun _ _ => rfl) (fun _ => rfl)
    · exact ⟨rfl, rfl, rfl, fun _ _ => rfl, fun _ => rfl, rfl⟩
    · have same (d : CtxId) := s.ctx_updCore c.core (f := fun k => { k with sqOvf := v.extractLsb' 16 32 })
        (fun k b => by cases b <;> rfl) d
      exact ⟨rfl, rfl, rfl, fun d _ => same d, fun d => by rw [same], by rw [same]⟩
    · exact own (fun _ _ => rfl) (fun _ => rfl)
    · exact own (fun _ _ => rfl) (fun _ => rfl)
    · exact own (fun _ _ => rfl) (fun _ => rfl)
    · exact .refl c s

/-- Whether a result goes to a control register. -/
def Flight.isCr (f : Flight) : Bool := match f.dest with | .cr _ _ => true | _ => false

theorem Flight.dest_of_isCr {f : Flight} (h : f.isCr = true) : ∃ n w, f.dest = .cr n w := by
  unfold Flight.isCr at h
  split at h
  · next n w hd => exact ⟨n, w, hd⟩
  · cases h

theorem State.land_cr (s : State) (c : CtxId) {f : Flight} {n : BitVec 8} {w : BitVec 6} (hd : f.dest = .cr n w) :
    s.land c f = if f.live.getLsbD 0 = true then
      (s.writeCr c n w (f.val.setWidth 64)).updCtx c (fun k => k.commit (.result f.dest f.val)) else s := by
  unfold State.land
  split
  · next n' w' e =>
    cases hd.symm.trans e
    rfl
  · next out => exact absurd hd (out n w)

theorem State.controls_land (s : State) (c : CtxId) {f : Flight} (h : f.isCr = true) : State.Controls c s (s.land c f) := by
  obtain ⟨n, w, hd⟩ := f.dest_of_isCr h
  rw [s.land_cr c hd]
  split
  · exact (s.controls_writeCr c n w (f.val.setWidth 64)).trans (State.controls_updCtx _ c (fun _ _ => rfl) (fun _ => rfl))
  · exact .refl c s

theorem State.controls_lands (c : CtxId) : ∀ (fs : List Flight) (s : State), (∀ f ∈ fs, f.isCr = true) →
    State.Controls c s (fs.foldl (fun s f => s.land c f) s)
  | [], s, _ => .refl c s
  | f :: fs, s, h => (s.controls_land c (h f List.mem_cons_self)).trans
      (State.controls_lands c fs (s.land c f) fun g hg => h g (List.mem_cons_of_mem f hg))

theorem State.controls_landWrites (s : State) (c : CtxId) : State.Controls c s (s.landWrites c) := by
  have all : ∀ f ∈ (s.ctx c).flight.filter (fun f => !f.landed && f.isCr), f.isCr = true :=
    fun f hf => (Bool.and_eq_true_iff.mp (List.mem_filter.mp hf).2).2
  change State.Controls c s (s.landAll c ((s.ctx c).flight.filter (fun f => !f.landed && f.isCr)))
  generalize (s.ctx c).flight.filter (fun f => !f.landed && f.isCr) = fs at all
  have rest : fs.filter (fun f => !f.isCr) = [] := List.filter_eq_nil_iff.mpr fun f hf => by simp [all f hf]
  change State.Controls c s ((fs.filter (fun f => !f.isCr)).foldl (fun s f => s.land c f)
    ((fs.filter Flight.isCr).foldl (fun s f => s.land c f) s))
  rw [rest]
  exact State.controls_lands c _ s fun f hf => (List.mem_filter.mp hf).2

/-! ### Nodes -/

theorem State.nodeOf_of_graph {s : State} {gi ni : Nat} {n : Node} (h : s.nodeOf gi ni = some n) :
    ∃ g, s.graphs.find gi = some g ∧ g.nodes.find ni = some n := by
  unfold State.nodeOf at h
  cases hg : s.graphs.find gi with
  | none => simp [hg] at h
  | some g => exact ⟨g, rfl, by simpa [hg] using h⟩

theorem State.nodeOf_congr {s t : State} (h : t.graphs = s.graphs) (gi ni : Nat) : t.nodeOf gi ni = s.nodeOf gi ni := by
  unfold State.nodeOf
  rw [h]

/-- An update of a node that stands writes it in its graph, and the device keeps everything else. -/
theorem State.updNode_of {s : State} {gi ni : Nat} {n : Node} (h : s.nodeOf gi ni = some n) (f : Node → Node) :
    ∃ g, s.graphs.find gi = some g ∧
      s.updNode gi ni f = { s with graphs := s.graphs.put gi { g with nodes := g.nodes.put ni (f n) } } := by
  obtain ⟨g, hg, hn⟩ := State.nodeOf_of_graph h
  refine ⟨g, hg, ?_⟩
  unfold State.updNode State.updGraph
  rw [hg]
  dsimp only
  rw [hn]

theorem State.nodeOf_updNode {s : State} {gi ni : Nat} {n : Node} (h : s.nodeOf gi ni = some n) (f : Node → Node) (m : Nat) :
    (s.updNode gi ni f).nodeOf gi m = if m = ni then some (f n) else s.nodeOf gi m := by
  obtain ⟨g, hg, e⟩ := State.updNode_of h f
  rw [e]
  unfold State.nodeOf
  dsimp only
  rw [SMap.find_put, if_pos rfl, hg]
  exact SMap.find_put _ _ _ _

/-! ### NDONE (R138) -/

theorem runs_ndone (u : Grd) : Claim.Runs (.ndone u) (fun s => s.retire s.cur) :=
  runs_of (eff' := fun s => s.retire s.cur) (fun _ => rfl) (fun _ => rfl)

/-- What a retired context keeps: its registers. -/
def Ctx.freed (k : Ctx) : Ctx :=
  { k with slice := none, request := .none, held := [], flight := [], ifq := [], late := [], l := [] }

/-- A slice that retires: its context is free, its node has one slice less that has not, and its writes have landed. -/
theorem State.retired_of {s : State} {c : CtxId} {sl : Slice} {n : Node} (hs : (s.ctx c).slice = some sl)
    (hn : s.nodeOf sl.graph sl.node = some n) :
    (s.retired c).cur = s.cur ∧ (s.retired c).mem = s.mem ∧ (∀ d, d ≠ c → (s.retired c).ctx d = s.ctx d) ∧
      (s.retired c).ctx c = ((s.landWrites c).ctx c).freed ∧
      (s.retired c).nodeOf sl.graph sl.node = some { n with unretired := n.unretired - 1 } := by
  have lands := s.controls_landWrites c
  have node : (s.landWrites c).nodeOf sl.graph sl.node = some n := (State.nodeOf_congr lands.graphs _ _).trans hn
  unfold State.retired
  dsimp only
  rw [lands.slice, hs]
  dsimp only
  generalize s.landWrites c = t at *
  have after := State.nodeOf_updNode node (fun n => { n with unretired := n.unretired - 1 }) sl.node
  obtain ⟨g, -, e⟩ := State.updNode_of node (fun n => { n with unretired := n.unretired - 1 })
  rw [if_pos rfl] at after
  rw [e] at after ⊢
  refine ⟨lands.cur, lands.mem, fun d hd => ?_, ?_, after⟩
  · exact (State.ctx_updCtx_other _ _ hd).trans (lands.other d hd)
  · exact State.ctx_updCtx_same _ c _

/-- The two tests of an empty list. -/
theorem late_beq_nil (l : List LateFault) : (l == []) = l.isEmpty := by cases l <;> rfl

theorem State.retire_now {s : State} {c : CtxId} (h : (s.settled c && (s.ctx c).late.isEmpty && !(s.ctx c).pendingLanding) = true) :
    s.retire c = s.retired c := by
  unfold State.retire
  rw [late_beq_nil]
  exact if_pos h

theorem State.retire_later {s : State} {c : CtxId}
    (h : (s.settled c && (s.ctx c).late.isEmpty && !(s.ctx c).pendingLanding) = false) :
    s.retire c = s.updCtx c (fun k => { k with request := .retiring }) := by
  unfold State.retire
  rw [late_beq_nil]
  exact if_neg (by simp [h])

theorem Ctx.mayIssue_retiring {k : Ctx} (h : k.request = .retiring) (y : Nat) : k.mayIssue y = false := by
  unfold Ctx.mayIssue
  rw [h]
  exact Bool.and_false _

/-! ### The start of a slice: what Keystone does around it -/

/-- Between two states a course has changed in its fallback queue and its idle period alone. -/
def Course.Alike (a b : Course) : Prop := b = { a with fallback := b.fallback, idleSince := b.idleSince }

theorem Course.Alike.trans {a b c : Course} (h : a.Alike b) (i : b.Alike c) : a.Alike c := by
  unfold Course.Alike at *
  rw [i, h]

/-- Between two states Keystone has written memory, a deque and counters alone: the cores, the seed and what it knows of the
graphs stay. -/
structure State.Quiet (s t : State) : Prop where
  cores : t.cores = s.cores
  seed : t.seed = s.seed
  graphs : t.graphs = s.graphs
  course : ∀ k, (s.course k).Alike (t.course k)

theorem State.Quiet.refl (s : State) : State.Quiet s s := ⟨rfl, rfl, rfl, fun _ => rfl⟩

theorem State.Quiet.trans {s t u : State} (a : State.Quiet s t) (b : State.Quiet t u) : State.Quiet s u :=
  ⟨b.cores.trans a.cores, b.seed.trans a.seed, b.graphs.trans a.graphs, fun k => (a.course k).trans (b.course k)⟩

theorem State.quiet_setCourse (s : State) (n : Nat) {co : Course} (h : (s.course n).Alike co) :
    State.Quiet s (s.setCourse n co) := by
  refine ⟨rfl, rfl, rfl, fun k => ?_⟩
  by_cases hk : k = n
  · rw [hk, State.course_setCourse_same]
    exact h
  · rw [State.course_setCourse_other s co hk]
    rfl

theorem State.quiet_renewIdle (s : State) (n : Nat) : State.Quiet s (s.renewIdle n) := s.quiet_setCourse _ rfl

theorem State.setCells_eq : ∀ (cells : List (Nat × Byte)) (s : State), s.setCells cells = { s with mem := (s.setCells cells).mem }
  | [], _ => rfl
  | (k, b) :: cells, s => State.setCells_eq cells (s.setByte k b)

theorem State.quiet_setCells (s : State) (cells : List (Nat × Byte)) : State.Quiet s (s.setCells cells) := by
  rw [s.setCells_eq]
  exact ⟨rfl, rfl, rfl, fun _ => rfl⟩

theorem State.quiet_store (s : State) (cells : List (Nat × Byte)) : State.Quiet s (s.store cells).1 := by
  unfold State.store
  split
  · exact s.quiet_setCells cells
  · obtain ⟨cores, seed, graphs, course⟩ := s.quiet_setCells (cells.filter (fun c =>
      !(s.poisoned c.1 && !(((dedup (cells.map Prod.fst)).filter (fun k => granule k == granule c.1)).length == 64))))
    exact ⟨cores, seed, graphs, course⟩

theorem State.quiet_plumbCore (s : State) (n : Nat) : State.Quiet s (s.plumbCore n) := by
  unfold State.plumbCore
  split <;> exact ⟨rfl, rfl, rfl, fun _ => rfl⟩

theorem State.quiet_plumbEvent (s : State) (gi : Nat) : State.Quiet s (s.plumbEvent gi) := by
  unfold State.plumbEvent
  split <;> exact ⟨rfl, rfl, rfl, fun _ => rfl⟩

theorem State.quiet_recordError (s : State) : State.Quiet s s.recordError := ⟨rfl, rfl, rfl, fun _ => rfl⟩

theorem State.quiet_logged (s : State) (e : Ev) : State.Quiet s (s.logged e) := ⟨rfl, rfl, rfl, fun _ => rfl⟩

theorem State.quiet_ksStore (s : State) (k n v : Nat) : State.Quiet s (s.ksStore k n v) := by
  have stored := (s.quiet_store (cellsAt k (bytesOfNat n v))).trans (State.quiet_logged _
    (.plain .keystone 0 .write 0 ((List.range n).map (fun i => k + i))))
  unfold State.ksStore
  dsimp only
  split
  · exact (stored.trans (State.quiet_plumbCore _ _)).trans (State.quiet_recordError _)
  · exact stored

theorem State.quiet_ksWrite (s : State) (gi space va n v : Nat) : State.Quiet s (s.ksWrite gi space va n v) := by
  unfold State.ksWrite
  split
  · next ks _ =>
    have stored := s.quiet_store (ks.zip (bytesOfNat n v))
    dsimp only
    split
    · exact stored.trans (State.quiet_recordError _)
    · exact stored.trans (State.quiet_logged _ _)
  · exact s.quiet_recordError

theorem State.quiet_writeNode (s : State) (gi ni off n v : Nat) : State.Quiet s (s.writeNode gi ni off n v) := by
  unfold State.writeNode
  split
  · next g x _ _ =>
    have written := s.quiet_ksWrite gi g.space (x.addr.toNat + off) n v
    unfold State.writeField
    dsimp only
    split
    · exact written.trans (State.quiet_plumbEvent _ _)
    · exact written
  · exact .refl s

/-- Where no error waits to be found, reading a deque finds none. -/
theorem State.quiet_findDeque {s : State} (h : s.flaws = []) (n : Nat) : State.Quiet s (s.findDeque n) := by
  have clean (one : Bool) (pc : DWord) (ks : List Nat) : s.find one pc ks = s := by
    unfold State.find
    rw [h]
    rfl
  unfold State.findDeque State.findAny
  split
  · exact .refl s
  · dsimp only
    rw [clean]
    split
    · exact s.quiet_plumbCore n
    · exact .refl s

theorem State.quiet_putEntries (s : State) (n : Nat) (es : List DequeEntry) (h : (s.core n).hasDeque = false) :
    State.Quiet s (s.putEntries n es) := by
  unfold State.putEntries
  dsimp only
  rw [if_neg (by simp [h])]
  exact State.Quiet.trans (t := { s with declined := s.declined.filter (fun d => d.core != n || es.contains d.entry) })
    ⟨rfl, rfl, rfl, fun _ => rfl⟩ (State.quiet_setCourse _ _ rfl)

theorem State.quiet_popEntry (s : State) (n : Nat) : State.Quiet s (s.popEntry n) := by
  unfold State.popEntry
  dsimp only
  split
  · exact (State.quiet_ksStore s _ _ _).trans (State.quiet_renewIdle _ n)
  · next ring => exact (s.quiet_putEntries n _ (Bool.eq_false_of_not_eq_true ring)).trans (State.quiet_renewIdle _ n)

/-! ### The start of a slice: the node -/

/-- The node's first slice starts: a READY node becomes RUNNING, and nothing else changes that the start of a slice reads. -/
theorem State.nodeStarts_of {s : State} {gi ni : Nat} {n : Node} (h : s.nodeOf gi ni = some n) :
    (s.nodeStarts gi ni).cores = s.cores ∧ (s.nodeStarts gi ni).seed = s.seed ∧
      (∀ k, (s.course k).Alike ((s.nodeStarts gi ni).course k)) ∧
      (∀ m, m ≠ ni → (s.nodeStarts gi ni).nodeOf gi m = s.nodeOf gi m) ∧
      (n.state = .ready → ((s.nodeStarts gi ni).nodeOf gi ni).map Node.state = some .running) := by
  unfold State.nodeStarts
  rw [h]
  dsimp only
  by_cases ready : n.state = .ready
  · rw [if_pos ready]
    unfold State.setNodeState
    obtain ⟨_, -, e⟩ := State.updNode_of h (fun n => { n with startedAt := some s.tick })
    have first := State.nodeOf_updNode h (fun n => { n with startedAt := some s.tick })
    generalize s.updNode gi ni (fun n => { n with startedAt := some s.tick }) = t at e first
    have node : t.nodeOf gi ni = some { n with startedAt := some s.tick } := (first ni).trans (if_pos rfl)
    obtain ⟨_, -, e'⟩ := State.updNode_of node (fun n => { n with state := .running })
    have second := State.nodeOf_updNode node (fun n => { n with state := .running })
    generalize t.updNode gi ni (fun n => { n with state := .running }) = u at e' second
    have written := u.quiet_writeNode gi ni 4 1 NState.running.code
    have same := State.nodeOf_congr written.graphs gi
    refine ⟨?_, ?_, fun k => ?_, fun m hm => ?_, fun _ => ?_⟩
    · rw [written.cores, e', e]
    · rw [written.seed, e', e]
    · have course : u.course k = s.course k := by rw [e', e]; rfl
      exact course ▸ written.course k
    · rw [same, second, if_neg hm, first, if_neg hm]
    · rw [same, second, if_pos rfl]
      rfl
  · rw [if_neg ready]
    exact ⟨rfl, rfl, fun _ => rfl, fun _ _ => rfl, fun h => absurd h ready⟩

/-! ### The start of a slice: what its context holds -/

theorem SMap.get_of_absent {α : Type} (d : α) {m : SMap α} {i : Nat} (h : i ∉ m.map Prod.fst) : SMap.get d m i = d := by
  induction m with
  | nil => rfl
  | cons p m ih =>
    rw [List.map_cons, List.mem_cons, not_or] at h
    exact (if_neg h.1).trans (ih h.2)

/-- A map without the entries that equal what an unlisted key reads as reads the same. -/
theorem SMap.get_filter_ne {α : Type} [DecidableEq α] (d : α) {m : SMap α} (h : (m.map Prod.fst).Nodup) (i : Nat) :
    SMap.get d (m.filter (fun p => p.2 != d)) i = SMap.get d m i := by
  induction m with
  | nil => rfl
  | cons p m ih =>
    obtain ⟨k, v⟩ := p
    obtain ⟨fresh, rest⟩ := List.nodup_cons.mp h
    by_cases hv : v = d
    · rw [List.filter_cons_of_neg (by simp [hv]), ih rest, SMap.get]
      split
      · next same => rw [hv, same, SMap.get_of_absent d fresh]
      · rfl
    · rw [List.filter_cons_of_pos (by simpa using hv), SMap.get, SMap.get, ih rest]

theorem SMap.get_map_key {α : Type} (d : α) (f : Nat → α) (ks : List Nat) (i : Nat) :
    SMap.get d (ks.map (fun k => (k, f k))) i = if i ∈ ks then f i else d := by
  induction ks with
  | nil => rfl
  | cons k ks ih =>
    rw [List.map_cons, SMap.get, ih]
    by_cases hk : i = k
    · simp [hk]
    · simp [hk]

/-- s0 to s63 at the entry to a prologue (R17). -/
theorem entryState_s (g : Graph) (n : Node) (sl : Slice) (r : Nat) : SMap.get 0 (entryState g n sl).s r = SMap.get 0
    [(1, BitVec.ofNat 64 sl.lidx), (2, BitVec.ofNat 64 n.cores.length), (3, BitVec.ofNat 64 sl.first),
      (4, BitVec.ofNat 64 sl.count), (5, n.addr), (6, g.addr)] r := by
  refine (SMap.get_filter_ne 0 ?_ r).trans ?_
  · exact (by decide : [1, 2, 3, 4, 5, 6].Nodup)
  · simp

/-- x0 to x15 at the entry to a prologue (R17). -/
theorem entryState_x (g : Graph) (n : Node) (sl : Slice) (r : Nat) : SMap.get 0 (entryState g n sl).x r =
    if r < 6 then n.index (if sl.count = 0 then none else some sl.first) r else 0 := by
  refine (SMap.get_filter_ne 0 ?_ r).trans ((SMap.get_map_key _ _ _ r).trans ?_)
  · rw [List.map_map]
    exact (List.map_id (List.range 6)).symm ▸ List.nodup_range
  · simp

/-- The slice and its context when it starts. -/
def startOf (g : Graph) (n : Node) (gi ni lidx : Nat) : Ctx :=
  let r := sliceOf n.trip n.cores.length lidx
  entryState g n ⟨gi, ni, n.attempt, lidx, r.1, r.2, 0, .prologue, false⟩

theorem setWidth_of_zero (v w : Nat) : (0 : BitVec v).setWidth w = 0 := by simp

theorem startOf_s (g : Graph) (n : Node) (gi ni lidx : Nat) (r : BitVec 6) : (startOf g n gi ni lidx).stored (.s r) =
    (SMap.get 0 [(1, BitVec.ofNat 64 lidx), (2, BitVec.ofNat 64 n.cores.length),
      (3, BitVec.ofNat 64 (sliceOf n.trip n.cores.length lidx).1), (4, BitVec.ofNat 64 (sliceOf n.trip n.cores.length lidx).2),
      (5, n.addr), (6, g.addr)] r.toNat).setWidth 1024 := congrArg (BitVec.setWidth 1024) (entryState_s g n _ r.toNat)

theorem startOf_s_above (g : Graph) (n : Node) (gi ni lidx : Nat) {r : BitVec 6} (h : 6 < r) :
    (startOf g n gi ni lidx).stored (.s r) = 0 := by
  have above : 6 < r.toNat := h
  rw [startOf_s, SMap.get_of_absent 0]
  · exact setWidth_of_zero 64 1024
  · simp only [List.map_cons, List.map_nil, List.mem_cons, List.not_mem_nil, or_false]
    omega

theorem startOf_x (g : Graph) (n : Node) (gi ni lidx : Nat) (r : BitVec 4) : (startOf g n gi ni lidx).stored (.x r) =
    (if r.toNat < 6 then n.index (if (sliceOf n.trip n.cores.length lidx).2 = 0 then none else
      some (sliceOf n.trip n.cores.length lidx).1) r.toNat else 0).setWidth 1024 :=
  congrArg (BitVec.setWidth 1024) (entryState_x g n _ r.toNat)

/-- A slice that no image holds starts: its context is entered, and around that Keystone works on its deque and its node. -/
theorem State.startSlice_of {s : State} {core : Nat} {c : CtxId} {e : DequeEntry} {gi ni : Nat} {g : Graph} {n : Node}
    (flaws : s.flaws = []) (entry : s.entryNode core e = some (gi, ni)) (fresh : e.res = false)
    (hg : s.graphs.find gi = some g) (hn : s.nodeOf gi ni = some n) :
    ∃ t : State, t.cores = s.cores ∧ t.seed = s.seed ∧ (∀ k, (s.course k).Alike (t.course k)) ∧
      (∀ m, m ≠ ni → t.nodeOf gi m = s.nodeOf gi m) ∧
      (n.state = .ready → (t.nodeOf gi ni).map Node.state = some .running) ∧
      s.startSlice core c e = (t.enter c (startOf g n gi ni e.lidx)).sync (.ctx c)
        (t.enter c (startOf g n gi ni e.lidx)).stepId (.enter gi ni) := by
  have found := State.quiet_findDeque flaws core
  have named : (s.findDeque core).entryNode core e = some (gi, ni) := by
    have space : ((s.findDeque core).course (courseOf core)).space = (s.course (courseOf core)).space :=
      (congrArg Course.space (found.course (courseOf core)) :)
    unfold State.entryNode State.findNode at entry ⊢
    rw [space, found.graphs]
    exact entry
  have popped := found.trans (State.quiet_popEntry (s.findDeque core) core)
  unfold State.startSlice
  dsimp only
  rw [named]
  dsimp only
  generalize (s.findDeque core).popEntry core = u at popped
  generalize List.filter _ u.declined = left
  have all : State.Quiet s { u with declined := left } := popped.trans ⟨rfl, rfl, rfl, fun _ => rfl⟩
  have graph : u.graphs.find gi = some g := by rw [popped.graphs]; exact hg
  generalize ({ u with declined := left } : State) = v at all
  have node : v.nodeOf gi ni = some n := (State.nodeOf_congr all.graphs gi ni).trans hn
  obtain ⟨cores, seed, courses, others, ready⟩ := State.nodeStarts_of node
  refine ⟨v.nodeStarts gi ni, cores.trans all.cores, seed.trans all.seed, fun k => (all.course k).trans (courses k),
    fun m hm => (others m hm).trans (State.nodeOf_congr all.graphs gi m), ready, ?_⟩
  rw [graph, node]
  dsimp only
  rw [fresh]
  rfl

theorem State.freeOn_core {s : State} {core : Nat} {c : CtxId} (h : s.freeOn core = some c) : c.core = core := by
  unfold State.freeOn at h
  split at h
  · cases h; rfl
  · split at h
    · cases h; rfl
    · cases h

theorem exec_sliceStart {s : State} {core : Nat} {c : CtxId} {e : DequeEntry} (run : s.boot = .running)
    (quiet : ∀ x ∈ s.cancels, x.todo = none) (awake : s.awake core = true) (free : s.freeOn core = some c)
    (head : (s.waiting core).head? = some e) :
    exec (.sliceStart core) s = .next ({ s with cur := c }.startSlice core c e) := by
  have idle : s.c1Busy = false := by
    unfold State.c1Busy
    rw [List.any_eq_false]
    intro x hx
    rw [quiet x hx]
    exact Bool.false_ne_true
  have ready : s.ksReady = true := by
    unfold State.ksReady
    rw [run, idle]
    rfl
  change execSliceStart core s = _
  unfold execSliceStart
  rw [ready, awake, free, head]
  rfl

/-- Settles O47: YIELD by what its next phase is, NDONE by whether its own bundle is done, the start of a slice by its entry
state. -/
theorem slicePhases : Obligations.SlicePhases := by
  refine ⟨fun u s sl n issues => ?_, fun u s sl n issues => ?_, fun s core c e gi ni g n run quiet awake free head entry fresh hg hn
    flaws => ?_⟩
  · intro t hs hn idle iter
    have run : exec (.yield u) s = .next t.endPhase := runs_yield u s issues
    obtain ⟨mem, fl, here⟩ := State.endPhase_of hs hn idle (iter := iter) rfl
    refine ⟨_, run, ?_, ?_, ?_, fun a => congrArg (fun m => SMap.get unwritten m a) mem, fun d => ?_⟩
    · rw [here]
    · rw [here]
    · rw [here]
      rfl
    · rw [here]
      cases d <;> rfl
  · intro t hs hn done
    have run : exec (.ndone u) s = .next (t.retire t.cur) := runs_ndone u s issues
    refine ⟨fun now => ?_, fun later => ?_, fun x c retiring => ⟨if_pos retiring, Ctx.mayIssue_retiring retiring⟩⟩
    · obtain ⟨cur, mem, others, freed, node⟩ := State.retired_of hs hn
      have stored := (t.controls_landWrites t.cur).stored
      have here : (t.retired t.cur).here = ((t.landWrites t.cur).ctx t.cur).freed := by
        unfold State.here
        rw [cur]
        exact freed
      rw [run, State.retire_now now]
      refine ⟨_, rfl, ?_, ?_, ?_, node, fun a => congrArg (fun m => SMap.get unwritten m a) mem, fun d => ?_, others⟩
      · rw [here]; rfl
      · rw [here]; rfl
      · rw [here]; rfl
      · rw [here]
        exact (Ctx.stored_of_registers rfl rfl rfl rfl rfl d).trans (stored d)
    · rw [run, State.retire_later later]
      rfl
  · intro r
    obtain ⟨t, cores, seed, courses, others, running, whole⟩ := State.startSlice_of (s := { s with cur := c })
      flaws entry fresh hg hn
    refine ⟨_, (exec_sliceStart run quiet awake free head).trans (congrArg Host.Outcome.next whole), ?_⟩
    have ctx : (((t.enter c (startOf g n gi ni e.lidx)).sync (.ctx c) (t.enter c (startOf g n gi ni e.lidx)).stepId
        (.enter gi ni)).ctx c) = { startOf g n gi ni e.lidx with orphans := (t.ctx c).orphans } := State.ctx_setCtx_same t c _
    have own : (((t.enter c (startOf g n gi ni e.lidx)).sync (.ctx c) (t.enter c (startOf g n gi ni e.lidx)).stepId
        (.enter gi ni)).core core) = (s.core core).setCtx c.one { startOf g n gi ni e.lidx with orphans := (t.ctx c).orphans } := by
      have same : t.core core = s.core core := congrArg (fun m => SMap.get Core.reset m core) cores
      rw [← same, ← State.freeOn_core free]
      exact State.core_setCore_same t c.core _
    rw [ctx, own]
    generalize (t.ctx c).orphans = os
    have sreg := startOf_s g n gi ni e.lidx
    have low (d : Nat) (hd : d < 6) : (BitVec.ofNat 4 d).toNat = d := by
      rw [BitVec.toNat_ofNat]
      omega
    have course := courses (core / 8)
    refine ⟨rfl, rfl, rfl, rfl, rfl, sreg 1, sreg 2, sreg 3, sreg 4, sreg 5, sreg 6, fun r hr => startOf_s_above g n gi ni e.lidx hr,
      fun _ => rfl, fun d hd => ?_, fun x hx => ?_, fun _ _ => ?_, fun _ => ?_, fun _ => rfl, fun _ => rfl, fun _ => rfl,
      fun _ => rfl, fun _ => rfl, rfl, rfl, rfl, fun _ => rfl, rfl, rfl, rfl, rfl, rfl, rfl, fun _ => rfl, rfl, rfl, rfl, rfl,
      fun _ => rfl, rfl, seed, Core.setCtx_sq _ _ _, ?_, ?_, (congrArg Course.barriers course :), (congrArg Course.twin course :),
      (congrArg Course.plumb course :), others, running⟩
    · refine (startOf_x g n gi ni e.lidx (BitVec.ofNat 4 d)).trans ?_
      rw [low d hd, if_pos hd]
    · have above : ¬ x.toNat < 6 := Nat.not_lt_of_le hx
      refine (startOf_x g n gi ni e.lidx x).trans ?_
      rw [if_neg above]
      exact setWidth_of_zero 32 1024
    · exact setWidth_of_zero 32 1024
    · exact setWidth_of_zero 448 1024
    · cases c.one <;> rfl
    · cases c.one <;> rfl

end Sys2Proof.Machine
end

section
/-! SUPPORT. What a slot waits for: results on their way, regions, array operations, and what its form waits for
(R87, R129, R160, R182, R217, R219). -/

namespace Sys2Proof.Machine

/-! ### What has failed and is not detected yet (R299) -/

theorem LateFault.mem_eq_some {f : LateFault} {o : MemOp} : f.mem = some o ↔ f.op = some (.mem o) := by
  unfold LateFault.mem
  split
  · next p h => rw [h]; simp
  · next h => exact ⟨nofun, fun e => absurd e (h o)⟩

theorem LateFault.array_eq_some {f : LateFault} {a : ArrayOp} : f.array = some a ↔ f.op = some (.array a) := by
  unfold LateFault.array
  split
  · next p h => rw [h]; simp
  · next h => exact ⟨nofun, fun e => absurd e (h a)⟩

theorem LateFault.copy_eq_some {f : LateFault} {p : BitVec 4 × CopyCmd} : f.copy = some p ↔ f.op = some (.copy p.1 p.2) := by
  unfold LateFault.copy
  split
  · next i q h => rw [h]; simp [Prod.ext_iff]
  · next h => exact ⟨nofun, fun e => absurd e (h p.1 p.2)⟩

/-- A memory operation of a context has failed with its fault undetected. -/
def Ctx.Failed (k : Ctx) (o : MemOp) : Prop := ∃ f ∈ k.late, f.op = some (.mem o)

/-- A memory operation of a context has not completed, or has failed with its fault undetected. -/
def Ctx.Held (k : Ctx) (o : MemOp) : Prop := o ∈ k.ops ∨ k.Failed o

/-- A copy of a context is in flight, or has failed with its fault undetected. -/
def Ctx.Copying (k : Ctx) (q : CopyCmd) : Prop :=
  (∃ j, (j, CopyState.running q) ∈ k.copies) ∨ ∃ f ∈ k.late, ∃ j, f.op = some (.copy j q)

theorem Ctx.mem_lateMem {k : Ctx} {o : MemOp} : o ∈ k.lateMem ↔ k.Failed o := by
  simp only [Ctx.lateMem, List.mem_filterMap, LateFault.mem_eq_some, Ctx.Failed]

theorem Ctx.mem_lateCopies {k : Ctx} {p : BitVec 4 × CopyCmd} :
    p ∈ k.lateCopies ↔ ∃ f ∈ k.late, f.op = some (.copy p.1 p.2) := by
  simp only [Ctx.lateCopies, List.mem_filterMap, LateFault.copy_eq_some]

theorem Ctx.mem_lateArrays {k : Ctx} {a : ArrayOp} : a ∈ k.lateArrays ↔ ∃ f ∈ k.late, f.op = some (.array a) := by
  simp only [Ctx.lateArrays, List.mem_filterMap, LateFault.array_eq_some]

theorem Ctx.mem_holding {k : Ctx} {o : MemOp} : o ∈ k.holding ↔ k.Held o := by
  rw [Ctx.holding, List.mem_append, Ctx.mem_lateMem, Ctx.Held]

/-! ### Registers and tiles that wait for a result (R174, R215) -/

theorem Ctx.mem_locked {k : Ctx} {r : Nat} : r ∈ k.locked ↔ r ≠ 0 ∧ ∃ o, k.Held o ∧ o.interlocks.map BitVec.toNat = some r := by
  simp only [Ctx.locked, List.mem_filter, List.mem_filterMap, Ctx.mem_holding, bne_iff_ne, and_comm]

theorem Ctx.mem_lockedD {k : Ctx} {d : Nat} :
    d ∈ k.lockedD ↔ ∃ o, k.Held o ∧ ∃ e, o.act = .load (.desc e) ∧ e.toNat = d := by
  simp only [Ctx.lockedD, List.mem_filterMap, Ctx.mem_holding]
  refine exists_congr fun o => and_congr_right fun _ => ?_
  split
  · next e h => rw [h]; simp
  · next h => exact ⟨nofun, fun ⟨e, he, _⟩ => absurd he (h e)⟩

theorem Ctx.mem_movesTo {k : Ctx} {j : BitVec 3} : j ∈ k.movesTo ↔ ∃ o ∈ k.ops, ∃ rows t, o.act = .move j rows t := by
  simp only [Ctx.movesTo, List.mem_filterMap]
  refine exists_congr fun o => and_congr_right fun _ => ?_
  split
  · next h => rw [h]; simp
  · next h => exact ⟨nofun, fun ⟨r, t, e⟩ => absurd e (h _ _ _)⟩

/-- No scalar register that a slot uses waits for a result. -/
theorem Ctx.no_locked {k : Ctx} {rs : List Nat} : overlaps k.locked rs = false ↔
    ∀ r ∈ rs, r ≠ 0 → ∀ o, k.Held o → o.interlocks.map BitVec.toNat ≠ some r := by
  simp only [overlaps_eq_false, Ctx.mem_locked]
  exact ⟨fun h r hr nz o ho e => h r ⟨nz, o, ho, e⟩ hr, fun h r ⟨nz, o, ho, e⟩ hr => h r hr nz o ho e⟩

/-- No descriptor that a slot names waits for a result. -/
theorem Ctx.no_lockedD {k : Ctx} {ds : List Nat} : overlaps k.lockedD ds = false ↔
    ∀ d ∈ ds, ∀ o, k.Held o → ∀ e, o.act = .load (.desc e) → e.toNat ≠ d := by
  simp only [overlaps_eq_false, Ctx.mem_lockedD]
  exact ⟨fun h d hd o ho e he same => h d ⟨o, ho, e, he, same⟩ hd, fun h d ⟨o, ho, e, he, same⟩ hd => h d hd o ho e he same⟩

/-- No ACCMOV is on its way to a tile of some. -/
theorem Ctx.no_moves {k : Ctx} {ks : List (BitVec 3)} : k.movesTo.any (fun j => ks.contains j) = false ↔
    ∀ j ∈ ks, ∀ o ∈ k.ops, ∀ rows t, o.act ≠ .move j rows t := by
  simp only [List.any_eq_false, List.contains_iff_mem, Ctx.mem_movesTo]
  exact ⟨fun h j hj o ho rows t e => h j ⟨o, ho, rows, t, e⟩ hj, fun h j ⟨o, ho, rows, t, e⟩ hj => h j hj o ho rows t e⟩

/-! ### Regions (R182, R219) -/

theorem mem_granulesFrom {k n g : Nat} : g ∈ granulesFrom k n ↔ ∃ j < n, g = (k + j) / 64 := by
  unfold granulesFrom granule
  by_cases hn : n = 0
  · simp [hn]
  · rw [if_neg hn, List.mem_map]
    constructor
    · rintro ⟨i, hi, rfl⟩
      have := List.mem_range.mp hi
      by_cases first : i = 0
      · exact ⟨0, by omega, by omega⟩
      · exact ⟨(k / 64 + i) * 64 - k, by omega, by omega⟩
    · rintro ⟨j, hj, rfl⟩
      exact ⟨(k + j) / 64 - k / 64, List.mem_range.mpr (by omega), by omega⟩

theorem State.mem_regionGranules {s : State} {n g : Nat} {d : Descr} : g ∈ s.regionGranules n d ↔
    ∃ r < d.rows, ∃ j < d.rowBytes, g = (s.ownKey n (d.base + r * d.stride) + j) / 64 := by
  simp only [State.regionGranules, State.regionSpans, List.mem_flatMap, List.mem_map, List.mem_range, exists_exists_and_eq_and,
    Span.granules, mem_granulesFrom]
  rfl

/-- The two contexts of a core. -/
def Core.both (k : Core) : List Ctx := [k.ctx0, k.ctx1]

theorem Core.exists_both {k : Core} {p : Ctx → Prop} : (∃ c ∈ k.both, p c) ↔ p k.ctx0 ∨ p k.ctx1 := by simp [Core.both]

/-- The copies of a context whose regions are held. -/
def Ctx.copiesHeld (k : Ctx) : List CopyCmd :=
  k.copies.filterMap (fun p => match p.2 with | .running r => some r | _ => none) ++ k.lateCopies.map Prod.snd

theorem Ctx.mem_copiesHeld {k : Ctx} {q : CopyCmd} : q ∈ k.copiesHeld ↔ k.Copying q := by
  rw [Ctx.copiesHeld, List.mem_append, List.mem_filterMap, List.mem_map, Ctx.Copying]
  refine or_congr ⟨fun ⟨⟨j, c⟩, hp, e⟩ => ?_, fun ⟨j, hj⟩ => ⟨_, hj, rfl⟩⟩ ?_
  · cases c with
    | running r => cases e; exact ⟨j, hp⟩
    | free => cases e
    | faulted v => cases e
  · simp only [Ctx.mem_lateCopies, Prod.exists, exists_eq_right]
    exact ⟨fun ⟨j, f, hf, e⟩ => ⟨f, hf, j, e⟩, fun ⟨f, hf, j, e⟩ => ⟨j, f, hf, e⟩⟩

/-- The granules that a copy holds against reads and writes, and those that it holds against writes. -/
def CopyCmd.holds (q : CopyCmd) (gs : List Nat) : List Nat × List Nat :=
  match q.kind with
  | .cpIn => (gs, [])
  | .cpOut => ([], gs)
  | .cpSs => ([], gs)
  | .ring _ => ([], [])

theorem CopyCmd.mem_holds_both {q : CopyCmd} {gs : List Nat} {g : Nat} : g ∈ (q.holds gs).1 ↔ q.kind = .cpIn ∧ g ∈ gs := by
  unfold CopyCmd.holds
  cases q.kind <;> simp

theorem CopyCmd.mem_holds_writes {q : CopyCmd} {gs : List Nat} {g : Nat} :
    g ∈ (q.holds gs).2 ↔ (q.kind = .cpOut ∨ q.kind = .cpSs) ∧ g ∈ gs := by
  unfold CopyCmd.holds
  cases q.kind <;> simp

theorem State.copyBusy_eq (s : State) (n : Nat) :
    let qs := (s.core n).ctx0.copiesHeld ++ (s.core n).ctx1.copiesHeld
    s.copyBusy n = (qs.flatMap (fun q => (q.holds (s.regionGranules n (Descr.of q.d))).1),
      qs.flatMap (fun q => (q.holds (s.regionGranules n (Descr.of q.d))).2)) := rfl

theorem State.mem_copyBusy_both {s : State} {n g : Nat} : g ∈ (s.copyBusy n).1 ↔
    ∃ k ∈ (s.core n).both, ∃ q, k.Copying q ∧ q.kind = .cpIn ∧ g ∈ s.regionGranules n (Descr.of q.d) := by
  rw [State.copyBusy_eq, Core.exists_both]
  simp only [List.mem_flatMap, List.mem_append, Ctx.mem_copiesHeld, CopyCmd.mem_holds_both, or_and_right, exists_or]

theorem State.mem_copyBusy_writes {s : State} {n g : Nat} : g ∈ (s.copyBusy n).2 ↔
    ∃ k ∈ (s.core n).both, ∃ q, k.Copying q ∧ (q.kind = .cpOut ∨ q.kind = .cpSs) ∧
      g ∈ s.regionGranules n (Descr.of q.d) := by
  rw [State.copyBusy_eq, Core.exists_both]
  simp only [List.mem_flatMap, List.mem_append, Ctx.mem_copiesHeld, CopyCmd.mem_holds_writes, or_and_right (b := Ctx.Copying _ _),
    exists_or]

/-- The regions of a core's ACCST operations. -/
theorem State.mem_accstBusy {s : State} {n g : Nat} : g ∈ s.accstBusy n ↔
    ∃ k ∈ (s.core n).both, ∃ o, ((o ∈ k.ops ∧ o.performed = false) ∨ k.Failed o) ∧ g ∈ o.region := by
  rw [Core.exists_both]
  simp only [State.accstBusy, List.mem_flatMap, List.mem_append, List.mem_filter, Bool.not_eq_true', Ctx.mem_lateMem]

/-- A slot whose regions no operation of the core holds. -/
theorem regionReady_iff {i : Instr} {s : State} : regionReady i s = true ↔ ∀ g,
    ((g ∈ (slabUse i s).1 ∨ g ∈ (slabUse i s).2) → g ∉ (s.copyBusy s.cur.core).1 ∧ g ∉ s.accstBusy s.cur.core) ∧
    (g ∈ (slabUse i s).2 → g ∉ (s.copyBusy s.cur.core).2 ∧ (i.slotClass = some .c → g ∉ s.arrayBusy s.cur.core)) := by
  unfold regionReady
  dsimp only
  generalize (slabUse i s).1 = r
  generalize (slabUse i s).2 = w
  by_cases none_ : r = [] ∧ w = []
  · obtain ⟨rfl, rfl⟩ := none_
    simp
  · rw [if_neg none_]
    simp only [Bool.and_eq_true, Bool.not_eq_true', overlaps_eq_false, Bool.and_eq_false_iff, beq_eq_false_iff_ne, List.mem_append]
    constructor
    · rintro ⟨⟨⟨both, writes⟩, accst⟩, array⟩ g
      refine ⟨fun hg => ⟨fun h => both g h hg, fun h => accst g h hg⟩, fun hg => ⟨fun h => writes g h hg, fun hc h => ?_⟩⟩
      exact array.elim (fun ne => ne hc) (fun busy => busy g h hg)
    · intro h
      refine ⟨⟨⟨fun g hb hg => ((h g).1 hg).1 hb, fun g hb hg => ((h g).2 hg).1 hb⟩, fun g ha hg => ((h g).1 hg).2 ha⟩, ?_⟩
      by_cases hc : i.slotClass = some .c
      · exact .inr fun g ha hg => ((h g).2 hg).2 hc ha
      · exact .inl hc

/-- The scoreboard of a slot (R87). -/
theorem slotReady_iff {cl : SlotClass} {w : Word} {i : Instr} {s : State} : slotReady cl w i s = true ↔
    (∀ r ∈ sUses cl w, r ≠ 0 → ∀ o, s.here.Held o → o.interlocks.map BitVec.toNat ≠ some r) ∧
    (∀ d ∈ namedIn .d cl w, ∀ o, s.here.Held o → ∀ e, o.act = .load (.desc e) → e.toNat ≠ d) ∧
    formReady i s = true ∧
    (isArray i = true → s.myCore.queued < 4 ∧ ∀ k ∈ tilesTouched i, ∀ o ∈ s.here.ops, ∀ rows t, o.act ≠ .move k rows t) ∧
    regionReady i s = true := by
  have array : (!isArray i ||
      (decide (s.myCore.queued < 4) && !(s.here.movesTo.any (fun k => (tilesTouched i).contains k)))) = true ↔
      (isArray i = true → s.myCore.queued < 4 ∧
        ∀ k ∈ tilesTouched i, ∀ o ∈ s.here.ops, ∀ rows t, o.act ≠ .move k rows t) := by
    rw [← Ctx.no_moves]
    cases isArray i <;> simp
  rw [← Ctx.no_locked, ← Ctx.no_lockedD, ← array]
  simp only [slotReady, Bool.and_eq_true, Bool.not_eq_true', and_assoc]

end Sys2Proof.Machine
end

section
/-! SUPPORT. What the form of a slot waits for (R129, R138, R160, R198, R217, R219, R229, R303), and the queues over a bundle
(R161, R235). -/

namespace Sys2Proof.Machine

/-! ### Copies and posted operations (R129, R182, R183) -/

/-- A copy id of a context is in flight, or its copy has failed with the fault undetected. -/
def Ctx.Busy (k : Ctx) (i : Nat) : Prop :=
  (∃ z, k.copy i = .running z) ∨ ∃ z ∈ k.late, ∃ j v, z.op = some (.copy j v) ∧ j.toNat = i

theorem CopyState.running_iff {c : CopyState} : (match c with | .running _ => true | _ => false) = true ↔ ∃ z, c = .running z := by
  cases c <;> simp

theorem Ctx.copiesBusy_iff {k : Ctx} {m : BitVec 16} : k.copiesBusy m = true ↔ ∃ i < 16, m.getLsbD i = true ∧ k.Busy i := by
  unfold Ctx.copiesBusy Ctx.Busy
  simp only [Bool.or_eq_true, List.any_eq_true, List.mem_range, Bool.and_eq_true, Prod.exists,
    Ctx.mem_lateCopies]
  constructor
  · rintro (⟨i, hi, hm, hz⟩ | ⟨j, v, ⟨f, hf, e⟩, hm⟩)
    · exact ⟨i, hi, hm, .inl (CopyState.running_iff.mp hz)⟩
    · exact ⟨j.toNat, j.isLt, hm, .inr ⟨f, hf, j, v, e, rfl⟩⟩
  · rintro ⟨i, hi, hm, hz | ⟨f, hf, j, v, e, rfl⟩⟩
    · exact .inl ⟨i, hi, hm, CopyState.running_iff.mpr hz⟩
    · exact .inr ⟨j, v, ⟨f, hf, e⟩, hm⟩

theorem Ctx.copiesBusy_false {k : Ctx} {m : BitVec 16} :
    k.copiesBusy m = false ↔ ∀ i < 16, m.getLsbD i = true → ¬ k.Busy i := by
  rw [← Bool.not_eq_true, Ctx.copiesBusy_iff]
  simp only [not_exists, not_and]

theorem Ctx.faultedCopy_isSome {k : Ctx} {m : BitVec 16} :
    (k.faultedCopy m).isSome = true ↔ ∃ i < 16, m.getLsbD i = true ∧ ∃ v, k.copy i = .faulted v := by
  unfold Ctx.faultedCopy
  rw [List.findSome?_isSome_iff]
  refine exists_congr fun i => and_congr List.mem_range ?_
  by_cases hm : m.getLsbD i = true
  · rw [if_pos hm]
    cases k.copy i <;> simp [hm]
  · rw [if_neg hm]
    simp [hm]

theorem Ctx.failedPost_isSome {k : Ctx} {m : BitVec 16} :
    (k.failedPost m).isSome = true ↔ ∃ v ∈ k.failed, m.getLsbD v.1.toNat = true := by
  unfold Ctx.failedPost
  rw [Option.isSome_map, List.find?_isSome]

theorem Ctx.pendingLanding_false {k : Ctx} : k.pendingLanding = false ↔ ∀ z ∈ k.l, ∀ i v w p, z.2 ≠ .pending i v w p := by
  unfold Ctx.pendingLanding
  rw [List.any_eq_false]
  refine forall₂_congr fun z _ => ?_
  cases z.2 <;> simp

/-! ### Array operations (R198, R217, R219) -/

/-- The array operations of the issuing context that have not completed. -/
def State.Arrays (s : State) (z : ArrayOp) : Prop := z ∈ s.myArray ∨ ∃ v ∈ s.here.late, v.op = some (.array z)

theorem State.mem_unsettled {s : State} {z : ArrayOp} : z ∈ s.unsettled ↔ s.Arrays z := by
  rw [State.unsettled, List.mem_append, Ctx.mem_lateArrays, State.Arrays]

/-- No array operation of the context has a property. -/
theorem State.no_array {s : State} {p : ArrayOp → Bool} : (!s.unsettled.any p) = true ↔ ∀ z, s.Arrays z → p z = false := by
  simp only [Bool.not_eq_true', List.any_eq_false, State.mem_unsettled, Bool.not_eq_true]

theorem State.unsettled_nil {s : State} : (s.unsettled == []) = true ↔ ∀ z, ¬ s.Arrays z := by
  rw [beq_iff_eq, List.eq_nil_iff_forall_not_mem]
  simp only [State.mem_unsettled]

/-- Every operation that writes a tile has completed. -/
def State.Quiets (s : State) (j : BitVec 3) : Prop :=
  (∀ z, s.Arrays z → j ∉ tilesWritten z.instr) ∧ ∀ o ∈ s.here.ops, ∀ rows v, o.act ≠ .move j rows v

theorem State.tileQuiet_iff {s : State} {j : BitVec 3} : s.tileQuiet j = true ↔ s.Quiets j := by
  unfold State.tileQuiet State.Quiets
  rw [Bool.and_eq_true, State.no_array]
  refine and_congr (forall₂_congr fun z _ => ?_) ?_
  · simp
  · rw [Bool.not_eq_true', ← Bool.not_eq_true, List.contains_iff_mem, Ctx.mem_movesTo]
    exact ⟨fun h o ho r t e => h ⟨o, ho, r, t, e⟩, fun h ⟨o, ho, r, t, e⟩ => h o ho r t e⟩

/-- Every factorisation form of the context has completed. -/
def State.Factored (s : State) : Prop := ∀ z, s.Arrays z → isFactor z.instr = false

theorem State.factorQuiet_iff {s : State} : s.factorQuiet = true ↔ s.Factored := State.no_array

/-- The control registers that the array writes: KSW0 to KSW7 by tile, and PIV, GF and BRK. -/
theorem State.crReady_iff {s : State} {n : BitVec 8} : s.crReady n = true ↔
    (∀ j < 8, n.toNat = 0x10 + j → s.Quiets (BitVec.ofNat 3 j)) ∧ (0x18 ≤ n.toNat → n.toNat ≤ 0x1A → s.Factored) := by
  unfold State.crReady
  by_cases ksw : 0x10 ≤ n.toNat ∧ n.toNat ≤ 0x17
  · have tile : n.extractLsb' 0 3 = BitVec.ofNat 3 (n.toNat - 0x10) := by
      apply BitVec.eq_of_toNat_eq
      rw [BitVec.extractLsb'_toNat, BitVec.toNat_ofNat, Nat.shiftRight_zero]
      omega
    rw [if_pos ksw, State.tileQuiet_iff, tile]
    refine ⟨fun h => ⟨fun j _ e => ?_, fun _ _ => by omega⟩, fun h => h.1 (n.toNat - 0x10) (by omega) (by omega)⟩
    have : n.toNat - 0x10 = j := by omega
    exact this ▸ h
  · rw [if_neg ksw]
    by_cases factor : 0x18 ≤ n.toNat ∧ n.toNat ≤ 0x1A
    · rw [if_pos factor, State.factorQuiet_iff]
      exact ⟨fun h => ⟨fun j _ _ => by omega, fun _ _ => h⟩, fun h => h.2 factor.1 factor.2⟩
    · rw [if_neg factor]
      exact ⟨fun _ => ⟨fun j _ _ => by omega, fun _ _ => by omega⟩, fun _ => rfl⟩

/-! ### The waits of the forms -/

theorem issueFault_eq_none (cl : SlotClass) (w : Word) (i : Instr) (s : State) : issueFault cl w i s = none ↔ (match cl with
    | .b => bFault i s
    | .s => sFault i s
    | .x => none
    | .v => vFault i s
    | .m => (mFault i s).map (fun x => (x, 0))
    | .c => cFault i s) = none := by
  unfold issueFault
  exact Option.map_eq_none_iff

/-- A fault of a B-slot form at issue. -/
theorem bFault_isSome {w : Word} {i : Instr} {s : State} : (bFault i s).isSome = true ↔ issueFault .b w i s ≠ none := by
  rw [ne_eq, issueFault_eq_none, Option.isSome_iff_ne_none]

section

variable {s : State}

theorem formReady_waitCopies {g : Grd} {m : BitVec 16} : formReady (.wait g 0 m) s = true ↔
    (∀ i < 16, m.getLsbD i = true → ¬ s.here.Busy i) ∨ ∃ i < 16, m.getLsbD i = true ∧ ∃ v, s.here.copy i = .faulted v := by
  change (!s.here.copiesBusy m || (s.here.faultedCopy m).isSome) = true ↔ _
  rw [Bool.or_eq_true, Bool.not_eq_true', Ctx.copiesBusy_false, Ctx.faultedCopy_isSome]

theorem formReady_waitTiles {g : Grd} {m : BitVec 16} : formReady (.wait g 1 m) s = true ↔
    ∀ j < 8, m.getLsbD j = true → s.Quiets (BitVec.ofNat 3 j) := by
  change ((List.range 8).all (fun j => !m.getLsbD j || s.tileQuiet (BitVec.ofNat 3 j))) = true ↔ _
  simp only [List.all_eq_true, List.mem_range, Bool.or_eq_true, Bool.not_eq_true', State.tileQuiet_iff]
  refine forall₂_congr fun j _ => ?_
  cases m.getLsbD j <;> simp

theorem formReady_waitPosted {g : Grd} {m : BitVec 16} : formReady (.wait g 2 m) s = true ↔
    (∀ o, s.here.Held o → o.posted = true → m.getLsbD o.oc.toNat = false) ∨
      ∃ v ∈ s.here.failed, m.getLsbD v.1.toNat = true := by
  change (!(s.here.holding.any (fun o => o.posted && m.getLsbD o.oc.toNat)) || (s.here.failedPost m).isSome) = true ↔ _
  rw [Bool.or_eq_true, Ctx.failedPost_isSome, Bool.not_eq_true', List.any_eq_false]
  simp only [Ctx.mem_holding, Bool.and_eq_true, not_and, Bool.not_eq_true]

theorem formReady_ndone {g : Grd} {w : Word} : formReady (.ndone g) s = true ↔ issueFault .b w (.ndone g) s ≠ none ∨
    ((∀ i < 16, ¬ s.here.Busy i) ∧ s.myArray = [] ∧ s.here.ops = [] ∧ (∀ z ∈ s.here.l, ∀ i v w p, z.2 ≠ .pending i v w p) ∧
      s.here.late = [] ∧ ∀ z ∈ s.ksq, z.isFrom s.cur = false) := by
  have all : s.here.copiesBusy (BitVec.allOnes 16) = false ↔ ∀ i < 16, ¬ s.here.Busy i := by
    rw [Ctx.copiesBusy_false]
    exact forall₂_congr fun i hi => ⟨fun h => h ((BitVec.getLsbD_allOnes ..).trans (decide_eq_true hi)), fun h _ => h⟩
  rw [← bFault_isSome]
  unfold formReady
  simp only [Bool.or_eq_true, Bool.and_eq_true, Bool.not_eq_true', beq_iff_eq, all, Ctx.pendingLanding_false, List.any_eq_false,
    Bool.not_eq_true, and_assoc]

theorem formReady_eret {g : Grd} {w : Word} : formReady (.eret g) s = true ↔ issueFault .b w (.eret g) s ≠ none ∨
    ((∀ z ∈ s.here.flight, z.landed = true ∧ z.due ≤ s.cycle) ∧ ∀ z, ¬ s.Arrays z) := by
  rw [← bFault_isSome, ← State.unsettled_nil]
  unfold formReady
  simp only [Bool.or_eq_true, Bool.and_eq_true, List.all_eq_true, decide_eq_true_eq]

/-- A pop waits for the oldest entry to be written. -/
theorem Ctx.oldestWritten_one {k : Ctx} {q : BitVec 2} :
    k.oldestWritten q 1 = true ↔ ∀ z ∈ (SMap.get [] k.q q.toNat).head?, z.written = true := by
  unfold Ctx.oldestWritten
  cases SMap.get [] k.q q.toNat <;> simp

theorem formReady_vpoplLanded {u : Pfx} {d : BitVec 5} {l : BitVec 3} {z : Vec} {v : Nat} {p : Option Nat}
    (h : SMap.get .empty s.here.l l.toNat = .landed z v p) : formReady (.vpopl u d l) s = true ↔
      v ≤ if s.here.lastIssue = none then s.here.stallUntil else s.cycle := by
  unfold formReady
  simp only [h, decide_eq_true_eq, Option.isNone_iff_eq_none]

theorem formReady_vpoplPending {u : Pfx} {d : BitVec 5} {l : BitVec 3} {i v : Nat} {w : Option Vec} {p : Option Nat}
    (h : SMap.get .empty s.here.l l.toNat = .pending i v w p) : formReady (.vpopl u d l) s = false := by
  unfold formReady
  simp only [h]

theorem formReady_vpoplEmpty {u : Pfx} {d : BitVec 5} {l : BitVec 3}
    (h : SMap.get .empty s.here.l l.toNat = .empty) : formReady (.vpopl u d l) s = true ↔
      ∀ z ∈ s.here.late, ∀ o, z.op = some (.mem o) → o.act ≠ .load (.landing l) := by
  unfold formReady
  simp only [h, List.all_eq_true, Ctx.mem_lateMem, bne_iff_ne]
  exact ⟨fun h z hz o e => h o ⟨z, hz, e⟩, fun h o ⟨z, hz, e⟩ => h z hz o e⟩

theorem formReady_qnt {u : Pfx} {d j b : BitVec 5} {f : Bool} : formReady (.qnt u d j b f) s = true ↔
    ∀ z, s.Arrays z → cbLoaded z ≠ some ((s.readV b).toNat / 2 ^ 53 % 4) := by
  have field : ((lane32 (s.readV b) 1).extractLsb' 21 2).toNat = (s.readV b).toNat / 2 ^ 53 % 4 := by
    unfold lane32
    rw [BitVec.extractLsb'_toNat, BitVec.extractLsb'_toNat, Nat.shiftRight_eq_div_pow, Nat.shiftRight_eq_div_pow]
    omega
  refine State.no_array.trans (forall₂_congr fun z _ => ?_)
  rw [field]
  exact beq_eq_false_iff_ne

theorem formReady_dq {u : Pfx} {d b j : BitVec 5} {f : Bool} : formReady (.dq u d b j f) s = true ↔
    ∀ z, s.Arrays z → cbLoaded z ≠ some ((s.readV b).toNat / 2 ^ 208 % 4) := by
  have field : ((s.readV b).extractLsb' 208 8).toNat % 4 = (s.readV b).toNat / 2 ^ 208 % 4 := by
    rw [BitVec.extractLsb'_toNat, Nat.shiftRight_eq_div_pow]
    exact Nat.mod_mod_of_dvd _ (by decide)
  refine State.no_array.trans (forall₂_congr fun z _ => ?_)
  rw [field]
  exact beq_eq_false_iff_ne

theorem formReady_cbld {u : Pfx} {x : BitVec 4} {k : BitVec 2} : formReady (.cbld u x k) s = true ↔
    ∀ z, s.Arrays z → k.toNat ∉ cbRead z :=
  State.no_array.trans (forall₂_congr fun z _ => by simp)

theorem formReady_accmov {u : Pfx} {t e : BitVec 3} : formReady (.accmov u t e) s = true ↔
    ∀ z, s.Arrays z → t ∉ tilesTouched z.instr :=
  State.no_array.trans (forall₂_congr fun z _ => by simp)

/-- A resumed factorisation waits for the others of its context. -/
theorem State.resumes_iff {v : Bool} : (!v || s.factorQuiet) = true ↔ v = false ∨ s.Factored := by
  rw [Bool.or_eq_true, Bool.not_eq_true', State.factorQuiet_iff]

/-- A copy id that is not busy. -/
theorem Ctx.notBusy_iff {k : Ctx} {y : BitVec 4} : ((match k.copy y.toNat with | .running _ => false | _ => true) &&
    k.lateCopies.all (fun p => p.1 != y)) = true ↔ ¬ k.Busy y.toNat := by
  have free : (match k.copy y.toNat with | .running _ => false | _ => true) = true ↔ ¬ ∃ z, k.copy y.toNat = .running z := by
    cases k.copy y.toNat <;> simp
  have none_ : k.lateCopies.all (fun p => p.1 != y) = true ↔
      ¬ ∃ z ∈ k.late, ∃ j v, z.op = some (.copy j v) ∧ j.toNat = y.toNat := by
    simp only [List.all_eq_true, Ctx.mem_lateCopies, bne_iff_ne]
    exact ⟨fun h ⟨f, hf, j, v, e, same⟩ => h (j, v) ⟨f, hf, e⟩ (BitVec.eq_of_toNat_eq same),
      fun h p ⟨f, hf, e⟩ same => h ⟨f, hf, p.1, p.2, e, congrArg BitVec.toNat same⟩⟩
  rw [Bool.and_eq_true, free, none_, Ctx.Busy, not_or]

end

/-- The forms that wait for something beyond their registers and regions. -/
def hasFormWait : Instr → Bool
  | .wait _ _ _ => true
  | .ndone _ => true
  | .eret _ => true
  | .rdc _ _ _ _ => true
  | .wrc _ _ _ _ => true
  | .vpopq _ _ _ => true
  | .fpushq _ _ _ _ _ => true
  | .stq _ _ _ _ _ => true
  | .vpopl _ _ _ => true
  | .qnt _ _ _ _ _ => true
  | .dq _ _ _ _ _ => true
  | .cbld _ _ _ => true
  | .getrf _ _ _ _ => true
  | .potrf _ _ _ _ => true
  | .accmov _ _ _ => true
  | .cpIn _ _ _ _ _ => true
  | .cpOut _ _ _ _ _ => true
  | .cpSs _ _ _ _ _ => true
  | .rsub _ _ _ _ _ => true
  | _ => false

theorem formReady_of_noFormWait {i : Instr} {s : State} (h : hasFormWait i = false) : formReady i s = true := by
  unfold formReady
  split
  case h_16 =>
    have none_ : copyIdOf i = none := by
      unfold copyIdOf
      split
      case h_5 => rfl
      all_goals cases h
    rw [none_]
  all_goals cases h

theorem mem_of_hasFormWait {i : Instr} (h : hasFormWait i = true) : ∃ (u : Pfx) (g : Grd) (k : BitVec 2) (m : BitVec 16)
    (r a : BitVec 6) (n : BitVec 8) (d b j : BitVec 5) (q : BitVec 2) (l t e : BitVec 3) (c x y : BitVec 4) (f v : Bool)
    (w : BitVec 6), i ∈ [Instr.wait g k m, .ndone g, .eret g, .rdc u r n w, .wrc u r n w,
      .vpopq u d q, .fpushq u q a c e, .stq u q a c e, .vpopl u d l, .qnt u d j b f, .dq u d b j f, .cbld u x k, .getrf u t f v,
      .potrf u t f v, .accmov u t e, .cpIn u x r y c, .cpOut u x r y c, .cpSs u x r y c, .rsub u x r y c] := by
  have anyPfx : Nonempty Pfx := ⟨⟨false, false, 0⟩⟩
  have anyGrd : Nonempty Grd := ⟨⟨false, 0⟩⟩
  unfold hasFormWait at h
  split at h
  case h_20 => cases h
  all_goals simp

/-! ### The queues over a bundle (R161, R235) -/

/-- How many of some slots pop a queue. -/
def popsIn (q : BitVec 2) (l : List SlotOp) : Nat := (l.filter (fun o => popsOf o.instr == some q)).length

/-- How many entries a queue has. -/
def Ctx.entries (c : Ctx) (q : BitVec 2) : Nat := (SMap.get [] c.q q.toNat).length

/-- A slot behind some others of its bundle pops a queue that they have emptied, or drains into one that has no room. -/
def Ctx.Overrun (c : Ctx) (ops before : List SlotOp) (o : SlotOp) (q : BitVec 2) : Prop :=
  (popsOf o.instr = some q ∧ c.entries q ≤ popsIn q before) ∨
    ∃ u a, o.instr = .drain u a q ∧ 16 < c.entries q - popsIn q ops + drainEntries (c.af a)

/-- The queue that a slot behind some others finds empty, or full. -/
def Ctx.overrun (c : Ctx) (ops before : List SlotOp) (o : SlotOp) : Option (BitVec 2) :=
  match popsOf o.instr with
  | some q => if c.entries q ≤ popsIn q before then some q else none
  | none =>
    match o.instr with
    | .drain _ a q => if 16 < c.entries q - popsIn q ops + drainEntries (c.af a) then some q else none
    | _ => none

theorem Ctx.overrun_eq_some {c : Ctx} {ops before : List SlotOp} {o : SlotOp} {q : BitVec 2} :
    c.overrun ops before o = some q ↔ c.Overrun ops before o q := by
  unfold Ctx.overrun Ctx.Overrun
  cases hp : popsOf o.instr with
  | some p =>
    have no_drain : ¬ ∃ u a, o.instr = .drain u a q ∧ 16 < c.entries q - popsIn q ops + drainEntries (c.af a) := by
      rintro ⟨u, a, e, -⟩
      rw [e] at hp
      cases hp
    simp only [no_drain, or_false, Option.some.injEq]
    by_cases few : c.entries p ≤ popsIn p before
    · rw [if_pos few, Option.some.injEq]
      exact ⟨fun e => ⟨e, e ▸ few⟩, fun h => h.1⟩
    · rw [if_neg few]
      exact ⟨nofun, fun ⟨e, h⟩ => absurd (e ▸ h) few⟩
  | none =>
    dsimp only
    split
    · next u a p e =>
      rw [e]
      by_cases many : 16 < c.entries p - popsIn p ops + drainEntries (c.af a)
      · rw [if_pos many]
        simp only [Option.some.injEq, reduceCtorEq, false_and, false_or, Instr.drain.injEq]
        exact ⟨fun same => ⟨u, a, ⟨rfl, rfl, same⟩, same ▸ many⟩, fun ⟨_, _, ⟨_, _, same⟩, _⟩ => same⟩
      · rw [if_neg many]
        simp only [reduceCtorEq, false_and, false_or, Instr.drain.injEq, false_iff]
        rintro ⟨_, _, ⟨rfl, rfl, rfl⟩, h⟩
        exact many h
    · next h =>
      simp only [reduceCtorEq, false_and, false_or, false_iff]
      rintro ⟨u, a, e, -⟩
      exact h u a q e

theorem queueFault_eq (c : Ctx) (ops : List SlotOp) : queueFault c ops = queueFault.go (c.overrun ops) [] ops := rfl

theorem queueFault_go_cons (bad : List SlotOp → SlotOp → Option (BitVec 2)) (before : List SlotOp) (o : SlotOp)
    (rest : List SlotOp) : queueFault.go bad before (o :: rest) = match bad before o with
      | some q => some (o.slot, q)
      | none => queueFault.go bad (before ++ [o]) rest := rfl

/-- Slots that no queue stops are passed. -/
theorem queueFault_go_pass {bad : List SlotOp → SlotOp → Option (BitVec 2)} : ∀ (p before rest : List SlotOp),
    (∀ p' o r, p = p' ++ o :: r → bad (before ++ p') o = none) →
    queueFault.go bad before (p ++ rest) = queueFault.go bad (before ++ p) rest
  | [], before, rest, _ => by rw [List.nil_append, List.append_nil]
  | o :: p, before, rest, h => by
    have first : bad before o = none := by
      have := h [] o p rfl
      rwa [List.append_nil] at this
    rw [List.cons_append, queueFault_go_cons, first]
    dsimp only
    rw [queueFault_go_pass p (before ++ [o]) rest fun p' x r e => ?_, List.append_assoc, List.singleton_append]
    rw [List.append_assoc, List.singleton_append]
    exact h (o :: p') x r (by rw [e, List.cons_append])

/-- Where a queue stops a slot and none stops an earlier one. -/
theorem queueFault_first {c : Ctx} {ops p r : List SlotOp} {o : SlotOp} {q : BitVec 2} (e : ops = p ++ o :: r)
    (stops : c.Overrun ops p o q)
    (first : ∀ p' o' r' q', ops = p' ++ o' :: r' → p'.length < p.length → ¬ c.Overrun ops p' o' q') :
    queueFault c ops = some (o.slot, q) := by
  have pass : ∀ p' x r', p = p' ++ x :: r' → c.overrun ops ([] ++ p') x = none := by
    intro p' x r' split_
    refine Option.eq_none_iff_forall_ne_some.mpr fun q' hq => ?_
    refine first p' x (r' ++ o :: r) q' ?_ ?_ (Ctx.overrun_eq_some.mp hq)
    · rw [e, split_, List.append_assoc, List.cons_append]
    · rw [split_, List.length_append, List.length_cons]
      omega
  have go := queueFault_go_pass p [] (o :: r) pass
  rw [queueFault_eq]
  rw [← e, List.nil_append, queueFault_go_cons, Ctx.overrun_eq_some.mpr stops] at go
  exact go

/-- Where no queue stops a slot. -/
theorem queueFault_none {c : Ctx} {ops : List SlotOp} (h : ∀ p o r q, ops = p ++ o :: r → ¬ c.Overrun ops p o q) :
    queueFault c ops = none := by
  have go := queueFault_go_pass (bad := c.overrun ops) ops [] [] fun p o r e =>
    Option.eq_none_iff_forall_ne_some.mpr fun q hq => h p o r q e (Ctx.overrun_eq_some.mp hq)
  rw [queueFault_eq, ← List.append_nil ops]
  rw [List.append_nil] at go ⊢
  exact go

theorem popsOf_eq_some {i : Instr} {q : BitVec 2} : popsOf i = some q ↔ (∃ u d, i = .vpopq u d q) ∨
    (∃ u a c r, i = .fpushq u q a c r) ∨ ∃ u a c r, i = .stq u q a c r := by
  unfold popsOf
  split
  · simp
  · simp
  · simp
  · next h1 h2 h3 =>
    refine ⟨nofun, ?_⟩
    rintro (⟨u, d, e⟩ | ⟨u, a, c, r, e⟩ | ⟨u, a, c, r, e⟩)
    · exact absurd e (h1 u d q)
    · exact absurd e (h2 u q a c r)
    · exact absurd e (h3 u q a c r)

/-! ### Faults of V and X at issue -/

theorem issueFault_vpopl (s : State) (w : Word) (u : Pfx) (d : BitVec 5) (l : BitVec 3) : issueFault .v w (.vpopl u d l) s =
    if SMap.get .empty s.here.l l.toNat = .empty then some (0x08, BitVec.ofNat 128 (0x100 + l.toNat)) else none := by
  have detail : (0x100 : BitVec 128) + l.setWidth 128 = BitVec.ofNat 128 (0x100 + l.toNat) := by
    apply BitVec.eq_of_toNat_eq
    simp
  by_cases empty : SMap.get .empty s.here.l l.toNat = .empty
  · simpa [issueFault, vFault, empty, causeQueue, causeIllopnd] using detail
  · simp [issueFault, vFault, empty]

theorem issueFault_v_none {s : State} {w : Word} {i : Instr} (h : ∀ u d l, i ≠ .vpopl u d l) : issueFault .v w i s = none := by
  refine (issueFault_eq_none .v w i s).mpr ?_
  dsimp only
  unfold vFault
  split
  · next u d l => exact absurd rfl (h u d l)
  · rfl

/-! ### The gates -/

/-- The regions that a slot touches, as R182 and R219 state it. -/
theorem regionReady_iff_regions {i : Instr} {s : State} : regionReady i s = true ↔ ∀ g,
    ((g ∈ (slabUse i s).1 ∨ g ∈ (slabUse i s).2) →
      (∀ k ∈ (s.core s.cur.core).both, ∀ q, k.Copying q → q.kind = .cpIn → g ∉ s.regionGranules s.cur.core (Descr.of q.d)) ∧
      ∀ k ∈ (s.core s.cur.core).both, ∀ o, (o ∈ k.ops ∧ o.performed = false) ∨ k.Failed o → g ∉ o.region) ∧
    (g ∈ (slabUse i s).2 →
      (∀ k ∈ (s.core s.cur.core).both, ∀ q, k.Copying q → q.kind = .cpOut ∨ q.kind = .cpSs →
        g ∉ s.regionGranules s.cur.core (Descr.of q.d)) ∧
      (i.slotClass = some .c → g ∉ s.arrayBusy s.cur.core)) := by
  rw [regionReady_iff]
  simp only [State.mem_copyBusy_both, State.mem_copyBusy_writes, State.mem_accstBusy, not_exists, not_and]

/-- The waits of the forms of a class for control registers. -/
theorem formReady_control {s : State} {u : Pfx} {r : BitVec 6} {n : BitVec 8} {w : BitVec 6} :
    ∀ i ∈ [Instr.rdc u r n w, .wrc u r n w], formReady i s = true ↔
      (∀ j < 8, n.toNat = 0x10 + j → s.Quiets (BitVec.ofNat 3 j)) ∧ (0x18 ≤ n.toNat → n.toNat ≤ 0x1A → s.Factored) := by
  intro i hi
  obtain rfl | rfl := List.mem_pair.mp hi
  · exact State.crReady_iff
  · exact State.crReady_iff

theorem formReady_pops {s : State} {u : Pfx} {d : BitVec 5} {q : BitVec 2} {a : BitVec 6} {c : BitVec 4} {e : BitVec 3} :
    ∀ i ∈ [Instr.vpopq u d q, .fpushq u q a c e, .stq u q a c e], formReady i s = true ↔
      ∀ z ∈ (SMap.get [] s.here.q q.toNat).head?, z.written = true := by
  intro i hi
  simp only [List.mem_cons, List.not_mem_nil, or_false] at hi
  obtain rfl | rfl | rfl := hi
  · exact Ctx.oldestWritten_one
  · exact Ctx.oldestWritten_one
  · exact Ctx.oldestWritten_one

theorem formReady_factors {s : State} {u : Pfx} {t : BitVec 3} {f v : Bool} :
    ∀ i ∈ [Instr.getrf u t f v, .potrf u t f v], formReady i s = true ↔ v = false ∨ s.Factored := by
  intro i hi
  obtain rfl | rfl := List.mem_pair.mp hi
  · exact State.resumes_iff
  · exact State.resumes_iff

theorem formReady_commands {s : State} {u : Pfx} {x y c : BitVec 4} {r : BitVec 6} :
    ∀ i ∈ [Instr.cpIn u x r y c, .cpOut u x r y c, .cpSs u x r y c, .rsub u x r y c],
      formReady i s = true ↔ ¬ s.here.Busy y.toNat := by
  intro i hi
  simp only [List.mem_cons, List.not_mem_nil, or_false] at hi
  obtain rfl | rfl | rfl | rfl := hi
  · exact Ctx.notBusy_iff
  · exact Ctx.notBusy_iff
  · exact Ctx.notBusy_iff
  · exact Ctx.notBusy_iff

/-- Settles O9: the guard, the operands and the issue faults by the frozen lemmas about `issue`; the scoreboard and each form's
wait by what its test reads; the queues by the first slot that one of them stops. -/
theorem issueGates : Obligations.IssueGates := by
  refine ⟨fun i s => ⟨fun h g b => ?_, fun h g b w o => ?_⟩, fun i s h g b w => ?_,
    fun i s x dt h g b w o ready fault => ?_, fun s cl w i => ?_, fun s u g k m r a n d b j q l t e c x y f => ?_, fun i q => popsOf_eq_some, fun c ops => ?_,
    fun s w u d l => issueFault_vpopl s w u d l, fun s w i => ⟨issueFault_v_none, rfl⟩⟩
  · obtain ⟨eff, he⟩ := exec_issues h
    rw [he]
    exact issue_asleep eff g b
  · obtain ⟨eff, he⟩ := exec_issues h
    rw [he]
    exact issue_guardedOff eff g b w o
  · obtain ⟨eff, he⟩ := exec_issues h
    rw [he]
    exact issue_illFormed eff g b w
  · obtain ⟨eff, he⟩ := exec_issues h
    rw [he]
    exact issue_faults eff g b w o ready fault
  · exact ⟨slotReady_iff, regionReady_iff_regions.trans (forall_congr' fun g => by
      simp only [State.mem_regionGranules]
      rfl)⟩
  · refine ⟨formReady_waitCopies, formReady_waitTiles, formReady_waitPosted, formReady_ndone, formReady_eret,
      fun w => formReady_control, formReady_pops,
      ⟨fun z v p h => formReady_vpoplLanded h, fun i v w p h => formReady_vpoplPending h, fun h => formReady_vpoplEmpty h⟩,
      formReady_qnt, formReady_dq, formReady_cbld, fun v => formReady_factors, formReady_accmov,
      formReady_commands, fun i out => formReady_of_noFormWait ?_⟩
    refine Bool.eq_false_of_not_eq_true fun waits => ?_
    obtain ⟨u, g, k, m, r, a, n, d, b, j, q, l, t, e, c, x, y, f, v, w, hi⟩ := mem_of_hasFormWait waits
    exact out u g k m r a n d b j q l t e c x y f v w hi
  · exact ⟨fun p o r q => queueFault_first, queueFault_none⟩

end Sys2Proof.Machine
end

section
/-! SUPPORT. What the encoder writes decodes to the instruction it was written for (R62, R65, R69, R70, R80), and the words that the
spec writes out. -/

namespace Sys2Proof.Laws

/-- Settles O4, by the constructors: each row has its own round trip, whose word is a row of fields with the opcode among them. -/
theorem encodeDecode : Obligations.EncodeDecode := fun i => match i with
  | .bundleIssue .. => Encoding.bundleIssue .. | .lookAheadNullifier .. => Encoding.lookAheadNullifier ..
  | .resultLanding .. => Encoding.resultLanding .. | .loopBackEdge .. => Encoding.loopBackEdge ..
  | .landingDue .. => Encoding.landingDue .. | .landingArrival .. => Encoding.landingArrival ..
  | .memoryAccessPerform .. => Encoding.memoryAccessPerform .. | .atomicAtHome .. => Encoding.atomicAtHome ..
  | .amoResponse .. => Encoding.amoResponse .. | .postedAcknowledge .. => Encoding.postedAcknowledge ..
  | .copyCompletion .. => Encoding.copyCompletion .. | .copyTranslationStop .. => Encoding.copyTranslationStop ..
  | .postedOperationFailure .. => Encoding.postedOperationFailure .. | .tableWalk .. => Encoding.tableWalk ..
  | .arrayOperationCompletion .. => Encoding.arrayOperationCompletion ..
  | .drainEntryWrite .. => Encoding.drainEntryWrite .. | .ringSlotFill .. => Encoding.ringSlotFill ..
  | .ringPullBack .. => Encoding.ringPullBack .. | .ringStop .. => Encoding.ringStop ..
  | .lateFaultDetection .. => Encoding.lateFaultDetection .. | .trapEntry .. => Encoding.trapEntry ..
  | .graphLaunch .. => Encoding.graphLaunch .. | .beadArrival .. => Encoding.beadArrival ..
  | .dispatch .. => Encoding.dispatch .. | .sliceStart .. => Encoding.sliceStart ..
  | .workStealing .. => Encoding.workStealing .. | .nodeCompletion .. => Encoding.nodeCompletion ..
  | .cancellationC1 .. => Encoding.cancellationC1 .. | .cancellationC2 .. => Encoding.cancellationC2 ..
  | .preemptionDecision .. => Encoding.preemptionDecision .. | .imageSave .. => Encoding.imageSave ..
  | .killSlice .. => Encoding.killSlice .. | .killDeadline .. => Encoding.killDeadline ..
  | .preemptKillRequeue .. => Encoding.preemptKillRequeue .. | .courseGating .. => Encoding.courseGating ..
  | .wakeComplete .. => Encoding.wakeComplete .. | .operatingPointChange .. => Encoding.operatingPointChange ..
  | .powerEmergency .. => Encoding.powerEmergency .. | .deviceReset .. => Encoding.deviceReset ..
  | .pairMismatch .. => Encoding.pairMismatch .. | .digestArrival .. => Encoding.digestArrival ..
  | .digtimeExpiry .. => Encoding.digtimeExpiry .. | .railBeatReceive .. => Encoding.railBeatReceive ..
  | .railFence .. => Encoding.railFence .. | .railRetrain .. => Encoding.railRetrain ..
  | .linkDown .. => Encoding.linkDown .. | .beadPortBead .. => Encoding.beadPortBead ..
  | .beadPortLaunch .. => Encoding.beadPortLaunch .. | .apertureWrite .. => Encoding.apertureWrite ..
  | .apertureRead .. => Encoding.apertureRead .. | .unmatchedBarAccess .. => Encoding.unmatchedBarAccess ..
  | .gabort .. => Encoding.gabort .. | .flhead .. => Encoding.flhead ..
  | .managementRegisterWrite .. => Encoding.managementRegisterWrite .. | .openSpace .. => Encoding.openSpace ..
  | .closeSpace .. => Encoding.closeSpace .. | .mapPage .. => Encoding.mapPage ..
  | .unmapPages .. => Encoding.unmapPages .. | .bindWindow .. => Encoding.bindWindow ..
  | .setPool .. => Encoding.setPool .. | .replica .. => Encoding.replica .. | .attest .. => Encoding.attest ..
  | .loadImage .. => Encoding.loadImage .. | .assign .. => Encoding.assign .. | .slabwr .. => Encoding.slabwr ..
  | .invalidationComplete .. => Encoding.invalidationComplete ..
  | .mailboxRequestComplete .. => Encoding.mailboxRequestComplete .. | .wrcSeed .. => Encoding.wrcSeed ..
  | .wrcFpctl .. => Encoding.wrcFpctl .. | .wrcKsw .. => Encoding.wrcKsw .. | .nop .. => Encoding.nop ..
  | .rep .. => Encoding.rep .. | .br .. => Encoding.br .. | .jmp .. => Encoding.jmp .. | .call .. => Encoding.call ..
  | .ret .. => Encoding.ret .. | .loop .. => Encoding.loop .. | .wait .. => Encoding.wait ..
  | .bar .. => Encoding.bar .. | .fence .. => Encoding.fence .. | .trap .. => Encoding.trap ..
  | .eret .. => Encoding.eret .. | .setpri .. => Encoding.setpri .. | .ctnOpen .. => Encoding.ctnOpen ..
  | .ctnClose .. => Encoding.ctnClose .. | .glaunch .. => Encoding.glaunch .. | .bead .. => Encoding.bead ..
  | .ndone .. => Encoding.ndone .. | .yield .. => Encoding.yield .. | .halt .. => Encoding.halt ..
  | .sqrd .. => Encoding.sqrd .. | .add .. => Encoding.add .. | .sub .. => Encoding.sub ..
  | .mul .. => Encoding.mul .. | .mulh .. => Encoding.mulh .. | .mulhu .. => Encoding.mulhu ..
  | .div .. => Encoding.div .. | .divu .. => Encoding.divu .. | .rem .. => Encoding.rem ..
  | .remu .. => Encoding.remu .. | .and .. => Encoding.and .. | .or .. => Encoding.or .. | .xor .. => Encoding.xor ..
  | .shl .. => Encoding.shl .. | .shr .. => Encoding.shr .. | .ashr .. => Encoding.ashr ..
  | .sel .. => Encoding.sel .. | .min .. => Encoding.min .. | .max .. => Encoding.max ..
  | .minu .. => Encoding.minu .. | .maxu .. => Encoding.maxu .. | .clz .. => Encoding.clz ..
  | .ctz .. => Encoding.ctz .. | .popc .. => Encoding.popc .. | .addi .. => Encoding.addi ..
  | .andi .. => Encoding.andi .. | .ori .. => Encoding.ori .. | .xori .. => Encoding.xori ..
  | .shli .. => Encoding.shli .. | .shri .. => Encoding.shri .. | .ashri .. => Encoding.ashri ..
  | .movi .. => Encoding.movi .. | .movs .. => Encoding.movs .. | .rdc .. => Encoding.rdc ..
  | .wrc .. => Encoding.wrc .. | .fcmple .. => Encoding.fcmple .. | .fcmpun .. => Encoding.fcmpun ..
  | .cmpeq .. => Encoding.cmpeq .. | .cmpne .. => Encoding.cmpne .. | .cmplt .. => Encoding.cmplt ..
  | .cmpltu .. => Encoding.cmpltu .. | .cmple .. => Encoding.cmple .. | .cmpleu .. => Encoding.cmpleu ..
  | .fcmpeq .. => Encoding.fcmpeq .. | .fcmplt .. => Encoding.fcmplt .. | .faddF32 .. => Encoding.faddF32 ..
  | .fsubF32 .. => Encoding.fsubF32 .. | .fmulF32 .. => Encoding.fmulF32 .. | .ffmaF32 .. => Encoding.ffmaF32 ..
  | .fdivF32 .. => Encoding.fdivF32 .. | .fsqrtF32 .. => Encoding.fsqrtF32 .. | .faddF64 .. => Encoding.faddF64 ..
  | .fsubF64 .. => Encoding.fsubF64 .. | .fmulF64 .. => Encoding.fmulF64 .. | .ffmaF64 .. => Encoding.ffmaF64 ..
  | .fdivF64 .. => Encoding.fdivF64 .. | .fsqrtF64 .. => Encoding.fsqrtF64 .. | .xadd .. => Encoding.xadd ..
  | .xaddi .. => Encoding.xaddi .. | .xsub .. => Encoding.xsub .. | .xshli .. => Encoding.xshli ..
  | .xshri .. => Encoding.xshri .. | .xand .. => Encoding.xand .. | .xpopc .. => Encoding.xpopc ..
  | .xcmpadv .. => Encoding.xcmpadv .. | .xpatd .. => Encoding.xpatd .. | .xbnet .. => Encoding.xbnet ..
  | .xbnld .. => Encoding.xbnld .. | .xbperm .. => Encoding.xbperm .. | .xfroms .. => Encoding.xfroms ..
  | .xtos .. => Encoding.xtos .. | .xmov .. => Encoding.xmov .. | .xmovi .. => Encoding.xmovi ..
  | .vadd .. => Encoding.vadd .. | .vsub .. => Encoding.vsub .. | .vmul .. => Encoding.vmul ..
  | .vfma .. => Encoding.vfma .. | .vfms .. => Encoding.vfms .. | .vdiv .. => Encoding.vdiv ..
  | .vsqrt .. => Encoding.vsqrt .. | .vmin .. => Encoding.vmin .. | .vmax .. => Encoding.vmax ..
  | .vabs .. => Encoding.vabs .. | .vneg .. => Encoding.vneg .. | .vrcp .. => Encoding.vrcp ..
  | .vrsq .. => Encoding.vrsq .. | .vexp2 .. => Encoding.vexp2 .. | .vlog2 .. => Encoding.vlog2 ..
  | .vsel .. => Encoding.vsel .. | .vand .. => Encoding.vand .. | .vor .. => Encoding.vor ..
  | .vxor .. => Encoding.vxor .. | .vnot .. => Encoding.vnot .. | .vshl .. => Encoding.vshl ..
  | .vshr .. => Encoding.vshr .. | .vashr .. => Encoding.vashr .. | .vscn .. => Encoding.vscn ..
  | .vcmpeq .. => Encoding.vcmpeq .. | .vcmpne .. => Encoding.vcmpne .. | .vcmplt .. => Encoding.vcmplt ..
  | .vcmple .. => Encoding.vcmple .. | .vcmpun .. => Encoding.vcmpun .. | .vcvt .. => Encoding.vcvt ..
  | .vcvtd .. => Encoding.vcvtd .. | .vperm .. => Encoding.vperm .. | .vbcast .. => Encoding.vbcast ..
  | .vredadd .. => Encoding.vredadd .. | .vredmax .. => Encoding.vredmax .. | .vredmin .. => Encoding.vredmin ..
  | .vpopq .. => Encoding.vpopq .. | .vpopl .. => Encoding.vpopl .. | .vrng .. => Encoding.vrng ..
  | .prune .. => Encoding.prune .. | .topk .. => Encoding.topk .. | .qnt .. => Encoding.qnt ..
  | .dq .. => Encoding.dq .. | .spenc .. => Encoding.spenc .. | .spdec .. => Encoding.spdec ..
  | .vmvs .. => Encoding.vmvs .. | .vmsv .. => Encoding.vmsv .. | .vmoviI32 .. => Encoding.vmoviI32 ..
  | .vmoviI64 .. => Encoding.vmoviI64 .. | .vmoviF32 .. => Encoding.vmoviF32 ..
  | .vmoviF64 .. => Encoding.vmoviF64 .. | .vmoviF16 .. => Encoding.vmoviF16 ..
  | .vmoviBf16 .. => Encoding.vmoviBf16 .. | .vmoviH8 .. => Encoding.vmoviH8 .. | .mma .. => Encoding.mma ..
  | .mmaS .. => Encoding.mmaS .. | .mmaK4 .. => Encoding.mmaK4 .. | .trsm .. => Encoding.trsm ..
  | .getrf .. => Encoding.getrf .. | .potrf .. => Encoding.potrf .. | .givqr .. => Encoding.givqr ..
  | .rotapp .. => Encoding.rotapp .. | .accz .. => Encoding.accz .. | .accld .. => Encoding.accld ..
  | .accst .. => Encoding.accst .. | .drain .. => Encoding.drain .. | .accmov .. => Encoding.accmov ..
  | .acct .. => Encoding.acct .. | .cbld .. => Encoding.cbld .. | .spld .. => Encoding.spld ..
  | .ldV .. => Encoding.ldV .. | .stV .. => Encoding.stV .. | .ldVs .. => Encoding.ldVs ..
  | .stVs .. => Encoding.stVs .. | .ldVx .. => Encoding.ldVx .. | .stVx .. => Encoding.stVx ..
  | .ldrL .. => Encoding.ldrL .. | .pf .. => Encoding.pf .. | .ldS .. => Encoding.ldS .. | .stS .. => Encoding.stS ..
  | .amoAdd .. => Encoding.amoAdd .. | .amoFadd .. => Encoding.amoFadd .. | .amoMin .. => Encoding.amoMin ..
  | .amoMax .. => Encoding.amoMax .. | .amoMinu .. => Encoding.amoMinu .. | .amoMaxu .. => Encoding.amoMaxu ..
  | .amoAnd .. => Encoding.amoAnd .. | .amoOr .. => Encoding.amoOr .. | .amoXor .. => Encoding.amoXor ..
  | .amoSwp .. => Encoding.amoSwp .. | .amoCas .. => Encoding.amoCas .. | .redAdd .. => Encoding.redAdd ..
  | .redFadd .. => Encoding.redFadd .. | .redMin .. => Encoding.redMin .. | .redMax .. => Encoding.redMax ..
  | .redAnd .. => Encoding.redAnd .. | .redOr .. => Encoding.redOr .. | .redXor .. => Encoding.redXor ..
  | .cpIn .. => Encoding.cpIn .. | .cpOut .. => Encoding.cpOut .. | .cpSs .. => Encoding.cpSs ..
  | .rsub .. => Encoding.rsub .. | .srel .. => Encoding.srel .. | .fpush .. => Encoding.fpush ..
  | .fpushq .. => Encoding.fpushq .. | .stq .. => Encoding.stq ..
  | .interlockedLdSLanding .. => Encoding.interlockedLdSLanding ..
  | .tileMoveCompletion .. => Encoding.tileMoveCompletion .. | .unknownCmd .. => Encoding.unknownCmd ..
  | .ctrlWriteWhileGo .. => Encoding.ctrlWriteWhileGo ..

end Sys2Proof.Laws

namespace Sys2Proof

/-- Settles O5: each word is decoded by its opcode and its fixed bits. -/
theorem specWordsDecode : Obligations.SpecWordsDecode :=
  ⟨⟨rfl, rfl, rfl⟩, ⟨rfl, rfl, rfl, rfl, rfl⟩, ⟨rfl, rfl⟩, ⟨rfl, rfl, rfl⟩, ⟨rfl, rfl, rfl⟩, ⟨rfl, rfl, rfl⟩, rfl, rfl⟩

end Sys2Proof
end

section
/-! SUPPORT. The issue of a bundle slot by slot (R66), and the step that runs the one word of a bundle (R62, R82, R87); what a context's
own accesses touch on their way there. -/

namespace Sys2Proof.Machine

/-! ### A slot's part -/

/-- A slot's part of an issue is exec of its instruction. -/
theorem State.exec_atSlot (s : State) {o : SlotOp} (h : o.instr.slotClass.isSome = true) :
    exec o.instr (s.atSlot o) = .next (s.runSlot o) := by
  obtain ⟨t, ht⟩ := exec_next o.instr (s.atSlot o)
  simp only [State.runSlot, execSlot_eq h, ht]

/-- Settles O3: the issue is written slot by slot in this order. -/
theorem bundleIssuesEverySlot : Obligations.BundleIssuesEverySlot := fun s _ _ _ =>
  ⟨rfl, fun _ h => s.exec_atSlot h⟩

/-! ### Performing leaves every other context -/

/-- Between two states no context but one has changed. -/
def State.Apart (c : CtxId) (s t : State) : Prop := ∀ d, d ≠ c → t.ctx d = s.ctx d

section

variable {c : CtxId}

theorem State.Apart.refl (s : State) : State.Apart c s s := fun _ _ => rfl

theorem State.Apart.trans {s t u : State} (a : State.Apart c s t) (b : State.Apart c t u) : State.Apart c s u :=
  fun d h => (b d h).trans (a d h)

theorem State.ctx_of_cores {s t : State} (h : t.cores = s.cores) (d : CtxId) : t.ctx d = s.ctx d := by
  unfold State.ctx State.core
  rw [h]

theorem State.apart_of_cores {s t : State} (h : t.cores = s.cores) : State.Apart c s t := fun d _ => State.ctx_of_cores h d

theorem State.apart_updCtx (s : State) (f : Ctx → Ctx) : State.Apart c s (s.updCtx c f) :=
  fun _ h => State.ctx_updCtx_other s f h

theorem State.ctx_record (s : State) (n : Nat) (r : BitVec 128) (d : CtxId) : (s.record n r).ctx d = s.ctx d :=
  s.ctx_updCore n (fun k b => k.record_ctx r b) d

theorem State.apart_record (s : State) (n : Nat) (r : BitVec 128) : State.Apart c s (s.record n r) :=
  fun d _ => s.ctx_record n r d

theorem State.apart_foldl {α : Type} {f : State → α → State} (h : ∀ s a, State.Apart c s (f s a)) :
    ∀ (l : List α) (s : State), State.Apart c s (l.foldl f s)
  | [], s => .refl s
  | a :: l, s => (h s a).trans (State.apart_foldl h l (f s a))

theorem State.apart_find (s : State) (one : Bool) (pc : DWord) (ks : List Nat) : State.Apart c s (s.find one pc ks) := by
  refine State.apart_foldl (fun s f => ?_) _ s
  unfold State.findFlaw
  dsimp only
  (repeat' split)
  · exact State.apart_of_cores rfl
  · exact State.Apart.trans (t := { s with flaws := s.flaws.erase f.1 }) (State.apart_of_cores rfl) (State.apart_record _ _ _)
  · exact State.apart_of_cores rfl

theorem State.apart_store (s : State) (l : List (Nat × Byte)) : State.Apart c s (s.store l).1 :=
  State.apart_of_cores (s.quiet_store l).cores

theorem State.apart_performLoad (s : State) (o : MemOp) (d : LoadTo) : State.Apart c s (s.performLoad c o d) := by
  have seen (pc : DWord) (ks : List Nat) (e : Ev) (f : Ctx → Ctx) :
      State.Apart c s (((s.find c.one pc ks).logged e).updCtx c f) :=
    ((s.apart_find _ _ _).trans (State.apart_of_cores rfl)).trans (State.apart_updCtx _ _)
  unfold State.performLoad
  dsimp only
  split
  · exact State.apart_updCtx _ _
  split
  · split
    · exact (State.apart_updCtx _ _).trans fun d _ => State.ctx_thaw _ _ _ _ d
    · exact State.apart_updCtx _ _
  split
  · exact seen _ _ _ _
  · exact seen _ _ _ _
  · exact seen _ _ _ _
  · exact seen _ _ _ _

theorem State.apart_postedFails (s : State) (o : MemOp) (x : BitVec 4) (va : Nat) : State.Apart c s (s.postedFails c o x va) := by
  unfold State.postedFails State.plumbFor
  dsimp only
  (repeat' split)
  · exact (State.apart_updCtx _ _).trans (State.apart_of_cores (State.quiet_plumbEvent _ _).cores)
  · exact State.apart_updCtx _ _
  · exact State.apart_updCtx _ _

theorem State.apart_performStore (s : State) (o : MemOp) (data : Nat) : State.Apart c s (s.performStore c o data) := by
  unfold State.performStore
  dsimp only
  split
  · exact s.apart_postedFails o _ _
  split
  · exact s.apart_updCtx _
  split
  · exact ((s.apart_store _).trans (State.apart_of_cores rfl)).trans (State.apart_updCtx _ _)
  · exact ((s.apart_store _).trans (State.apart_of_cores rfl)).trans (State.apart_updCtx _ _)

theorem State.apart_performRmw (s : State) (o : MemOp) (op : Rmw) (d m : DWord) (red : Bool) :
    State.Apart c s (s.performRmw c o op d m red) := by
  have cells (s : State) (l : List (Nat × Byte)) (e : Ev) : State.Apart c s ((s.setCells l).logged e) :=
    State.apart_of_cores (s.quiet_setCells l).cores
  unfold State.performRmw
  dsimp only
  split
  · split
    · exact s.apart_postedFails o _ _
    · exact s.apart_updCtx _
  split
  · exact s.apart_updCtx _
  split
  · split
    · exact s.apart_postedFails o _ _
    · exact s.apart_updCtx _
  split
  · split
    · exact (s.apart_find _ _ _).trans (State.apart_postedFails _ o _ _)
    · exact (s.apart_find _ _ _).trans (State.apart_updCtx _ _)
  · refine State.Apart.trans ?_ (State.apart_updCtx _ _)
    split
    · exact ((s.apart_find _ _ _).trans (cells _ _ _)).trans (State.apart_record _ _ _)
    · exact (s.apart_find _ _ _).trans (cells _ _ _)

theorem State.apart_writeFirst (s : State) (o : MemOp) : State.Apart c s (s.writeFirst c o) := by
  unfold State.writeFirst
  split
  · exact s.apart_updCtx _
  · exact .refl s

theorem State.apart_performOp (s : State) (o : MemOp) : State.Apart c s (s.performOp c o) := by
  unfold State.performOp
  split
  · exact s.apart_performLoad o _
  · exact (s.apart_writeFirst o).trans (State.apart_performStore _ o _)
  · exact (s.apart_writeFirst o).trans (State.apart_performRmw _ o _ _ _ _)
  · exact (s.apart_updCtx (fun k => k.dropOp o.id)).trans (State.apart_of_cores rfl)
  · exact s.apart_updCtx _

theorem State.apart_readSteps (one stop : Bool) (pc : DWord) : ∀ (l : List ReadStep) (s : State),
    State.Apart c s (s.readSteps one stop pc l).1
  | [], s => .refl s
  | p :: ps, s => by
    unfold State.readSteps
    dsimp only
    split
    · exact s.apart_find _ _ _
    · exact (s.apart_find _ _ _).trans (State.apart_readSteps one stop pc ps _)

theorem State.apart_readArray (s : State) (a : ArrayOp) : State.Apart c s (s.readArray c a) := by
  have noted (s : State) (ks : List Nat) : State.Apart c s (s.noteArray c a ks) := by
    unfold State.noteArray
    split <;> exact State.apart_of_cores rfl
  unfold State.readArray
  dsimp only
  exact ((State.apart_readSteps _ _ _ _ s).trans (noted _ _)).trans fun d _ =>
    State.ctx_updCore _ _ (fun k b => by cases b <;> rfl) d

theorem State.apart_performPend (s : State) (p : Pend) : State.Apart c s (s.performPend c p) := by
  have posted (s : State) (m : KsMsg) : State.Apart c s (s.notePost m) := by
    unfold State.notePost
    (repeat' split) <;> exact State.apart_of_cores rfl
  unfold State.performPend
  split
  · split
    · split
      · exact .refl s
      · exact s.apart_performOp _
    · exact .refl s
  · exact s.apart_readArray _
  · split
    · exact State.Apart.trans (t := { s with ksq := s.ksq.set _ _ }) (State.apart_of_cores rfl) (posted _ _)
    · exact .refl s

theorem State.apart_performFor (s : State) (p : Pend → Bool) : State.Apart c s (s.performFor c p) :=
  State.apart_foldl (fun s e => s.apart_performPend e) _ s

theorem State.apart_performBefore (s : State) (y : Acc) : State.Apart c s (s.performBefore c y) := s.apart_performFor _

end

/-- What an instruction's blocks wait for is of its own context. -/
theorem State.apart_settleBlocks (s : State) (i : Instr) : State.Apart s.cur s (s.settleBlocks i) := by
  unfold State.settleBlocks
  split
  · exact .refl s
  · dsimp only
    have first := s.apart_performBefore (c := s.cur)
      (s.lastAcc (classOfForm i) ((blockKeys i s).map (fun k => (k, 1))))
    refine first.trans ?_
    rw [show (s.performBefore s.cur _).cur = s.cur from (State.touches_performBefore _ _ _).cur]
    exact State.apart_performBefore _ _

/-! ### A bundle of one word -/

/-- The slot of a bundle's one word. -/
theorem decodeOp_ok {k : Nat} {w : Word} {i : Instr} (d : decodeWord (classOfSlot k) w = .ok i) (wf : i.wf = true) :
    decodeOp k false w w = .ok ⟨k, false, w, w, i⟩ := by
  unfold decodeOp
  rw [d]
  exact if_pos wf

/-- The plan of a bundle of one word, where no slot is held. -/
theorem Ctx.plan_word {x : Ctx} {f : Fetched} {k : Nat} {w : Word} {i : Instr} (held : x.held = [])
    (pre : f.bundle.pre = none) (words : f.bundle.words = [(k, w)]) (d : decodeWord (classOfSlot k) w = .ok i)
    (wf : i.wf = true) : x.plan f = .ok ⟨f, none, 0, [⟨k, false, w, w, i⟩]⟩ := by
  have supplied : suppliedOp none 0 k w = .ok ⟨k, false, w, w, i⟩ := by
    unfold suppliedOp
    rw [decodeOp_ok d wf]
  have alone : pairClash [] ⟨k, false, w, w, i⟩ = false := by simp [pairClash]
  have ops : decodeOps none 0 [(k, false, w)] [] = .ok [⟨k, false, w, w, i⟩] := by
    simp only [decodeOps, supplied, alone, Bool.false_eq_true, if_false, List.nil_append]
  unfold Ctx.plan
  rw [pre, words, Ctx.heldFor_nil held]
  dsimp only
  simp only [List.map_cons, List.map_nil, List.append_nil, Option.isSome_none, Bool.false_eq_true, if_false, ops]
  rfl

/-- A bundle of one slot that acts, is ready and does not fault is issued once its blocks have settled. -/
theorem State.headOf_word {u : State} {c : CtxId} {f : Fetched} {o : SlotOp}
    (plan : (u.ctx c).plan f = .ok ⟨f, none, 0, [o]⟩)
    (acts : (({ u with cur := c } : State).atSlot o).guardedOff o.cl o.word = false)
    (ready : ({ u with cur := c } : State).bundleReady [o] = true)
    (sound : (({ u with cur := c } : State).settleBlocks o.instr).bundleFault [o] = none) (bar : barOf [o] = none) :
    u.headOf c f = (({ u with cur := c } : State).settleBlocks o.instr, .ready ⟨f, none, 0, [o]⟩ [o]) := by
  generalize hv : ({ u with cur := c } : State) = v at acts ready sound ⊢
  have here : v.here.plan f = .ok ⟨f, none, 0, [o]⟩ := by
    subst hv
    exact plan
  have acting : v.acting [o] = [o] := by simp [State.acting, acts]
  have kept : v.droppable ⟨f, none, 0, [o]⟩ [o] = false := by simp [State.droppable]
  have room : v.underLimit [o] = true := by
    unfold State.bundleReady at ready
    simp only [Bool.and_eq_true] at ready
    exact ready.1.1.1
  unfold State.headOf
  rw [hv]
  dsimp only
  rw [here]
  dsimp only
  rw [acting, kept, room, ready]
  simp only [Bool.false_eq_true, if_false, Bool.not_true, Bool.false_and, List.foldl_cons, List.foldl_nil]
  rw [sound]
  unfold State.atBarrier
  rw [bar]

theorem State.head_of_fetch {u : State} {c : CtxId} {f : Fetched} (may : (u.ctx c).mayIssue (u.core c.core).cycle = true)
    (fetch : u.fetchBundle c.core (u.ctx c).pc = .ok f) : u.head c = u.headOf c f := by
  unfold State.head
  dsimp only
  rw [may, fetch]
  rfl

/-- A context without a slice offers nothing. -/
theorem State.head_free {u : State} {c : CtxId} (h : (u.ctx c).slice = none) : u.head c = (u, .idle) := by
  unfold State.head Ctx.mayIssue
  dsimp only
  rw [h]
  rfl

/-- ctx0's bundle issues alone where ctx1 offers nothing. -/
theorem State.merge_alone {u r : State} {n : Nat} {p : Planned} {x : List SlotOp} (a : u.head ⟨n, false⟩ = (r, .ready p x))
    (b : r.head ⟨n, true⟩ = (r, .idle)) : u.merge n = r.issueBundle ⟨n, false⟩ p x := by
  rw [State.merge_zero (p := p) (x := x) (by rw [a]) (by rw [a, b]), a, b]

theorem inMaskOrder_one {o : SlotOp} (h : o.slot < 8) : inMaskOrder [o] = [o] := by
  obtain ⟨k, held, orig, word, instr⟩ := o
  obtain h | h | h | h | h | h | h | h : k = 0 ∨ k = 1 ∨ k = 2 ∨ k = 3 ∨ k = 4 ∨ k = 5 ∨ k = 6 ∨ k = 7 := by
    change k < 8 at h
    omega
  all_goals
    subst h
    rfl

/-- The issue of a bundle of one slot but B. -/
theorem State.issueBundle_word {u : State} {c : CtxId} {p : Planned} {o : SlotOp} (h : o.slot < 8) (nb : o.slot ≠ 0) :
    let b := (u.noteFetch c (u.ctx c).pc p.f.size).beginIssue c p [o]
    u.issueBundle c p [o] = ((b.runSlot o).updCtx c (fun x => x.past p b.edgeOf)).endIssue c := by
  unfold State.issueBundle
  simp [inMaskOrder_one h, nb]

/-- The issue of a bundle of a B slot alone. -/
theorem State.issueBundle_b {u : State} {c : CtxId} {p : Planned} {o : SlotOp} (h : o.slot = 0) :
    let b := (u.noteFetch c (u.ctx c).pc p.f.size).beginIssue c p [o]
    u.issueBundle c p [o] = ((b.updCtx c (fun x => x.past p b.edgeOf)).runSlot o).endIssue c := by
  unfold State.issueBundle
  simp [inMaskOrder_one (o := o) (by omega), h]

/-- Settles O2: ctx1 offers nothing, since settling the blocks of ctx0's word touches no other context; ctx0's one slot issues. -/
theorem stepRunsDecoded : Obligations.StepRunsDecoded := by
  intro s n es f k w i run agenda thawed c u free may held fetch pre words dec wf o v acts ready small bar r sound p b
  have cycle : step s = .next (u.merge n) := by
    rw [step_of_agenda_cons agenda, exec_bundleIssue (s := Claim.afterTick s es) n run, State.inCycle_running _ thawed]
  clear_value u
  have cls : o.instr.slotClass.isSome = true := by
    change i.slotClass.isSome = true
    rw [decodeWord_class dec]
    rfl
  have head : u.head c = (r, .ready p [o]) :=
    (State.head_of_fetch may fetch).trans (State.headOf_word (Ctx.plan_word held pre words dec wf) acts ready sound bar)
  have idle : r.head ⟨n, true⟩ = (r, .idle) :=
    State.head_free ((congrArg Ctx.slice (v.apart_settleBlocks i ⟨n, true⟩ (by simp [v, c]))).trans free)
  rw [cycle, State.merge_alone head idle]
  refine ⟨fun nb => ⟨b.runSlot o, b.exec_atSlot cls, ?_⟩,
    fun hb => ⟨(b.updCtx c (fun x => x.past p b.edgeOf)).runSlot o, State.exec_atSlot _ cls, ?_⟩⟩
  · rw [State.issueBundle_word (o := o) small nb]
  · rw [State.issueBundle_b (o := o) hb]

end Sys2Proof.Machine
end


section
/-! SUPPORT. Transfers of control (R125, R67, R128). -/

namespace Sys2Proof.Machine

theorem four_mul_signExtend (o : BitVec 20) : 4 * o.signExtend 64 = BitVec.ofInt 64 (4 * o.toInt) := by
  rw [BitVec.ofInt_mul, BitVec.signExtend]
  rfl

/-- The target of an offset form: the header of its bundle plus 4 × OFF. -/
theorem State.target_eq (s : State) (o : BitVec 20) : s.target o = s.here.pc + BitVec.ofInt 64 (4 * o.toInt) := by
  rw [State.target, four_mul_signExtend]

/-- Where no operation with an interlocked result to the register is on its way, the B slot's result is one like any. -/
theorem State.putFirst_of_free {s : State} {r : BitVec 6} (h : ∀ x ∈ s.here.ops, x.interlocks ≠ some r) (lat : Nat) (v : DWord) :
    s.putFirst lat r v = s.putS lat r v 0 := by
  refine if_neg fun waits => ?_
  obtain ⟨x, hx, same⟩ := List.any_eq_true.mp waits
  exact h x hx (eq_of_beq (Bool.and_eq_true_iff.mp same).2)

/-- Settles O34: each form is an issue whose effect is a transfer to its target. -/
theorem branches : Obligations.Branches := by
  refine fun u o r => ⟨runs_of (eff' := fun s => s.transfer (s.target o)) (fun _ => rfl) fun s => ?_,
    runs_of (eff' := fun s => s.transfer (s.readS r)) (fun _ => rfl) fun _ => rfl,
    runs_of (eff' := fun s => s.transfer (s.readS 63)) (fun _ => rfl) fun _ => rfl, fun s issues free => ?_⟩
  · exact congrArg s.transfer (s.target_eq o)
  · have called : exec (.call u o) s = issue (.call u o) s (fun s => (s.putFirst 1 63 s.here.npc).transfer (s.target o)) := rfl
    rw [called, issue_of_issues _ issues, State.putFirst_of_free free, State.target_eq]
    rfl

end Sys2Proof.Machine
end


section
/-! SUPPORT. Reads while results are on their way (R83, R300, R305), the place of a result in issue order (R84), and what has landed
once a cycle begins. -/

namespace Sys2Proof.Machine

/-! ### What is hidden -/

theorem getLsbD_foldl_or {α : Type} {n : Nat} (P : α → Prop) [DecidablePred P] (g : α → BitVec n) (j : Nat) :
    ∀ (l : List α) (m : BitVec n), (l.foldl (fun m a => if P a then m ||| g a else m) m).getLsbD j = true ↔
      m.getLsbD j = true ∨ ∃ a ∈ l, P a ∧ (g a).getLsbD j = true
  | [], m => by simp
  | a :: l, m => by
    rw [List.foldl_cons, getLsbD_foldl_or P g j l]
    by_cases h : P a <;> simp [h, or_assoc]

theorem getLsbD_foldl_or_zero {α : Type} {n : Nat} (P : α → Prop) [DecidablePred P] (g : α → BitVec n) (j : Nat) (l : List α) :
    (l.foldl (fun m a => if P a then m ||| g a else m) 0).getLsbD j = true ↔ ∃ a ∈ l, P a ∧ (g a).getLsbD j = true := by
  rw [getLsbD_foldl_or]
  simp

/-- Bit j of the part that results write. -/
theorem getLsbD_writtenBy (d : Dest) (fs : List Flight) (j : Nat) :
    (writtenBy d fs).getLsbD j = true ↔ ∃ f ∈ fs, f.dest = d ∧ f.lanes.getLsbD j = true :=
  getLsbD_foldl_or_zero (fun f : Flight => f.dest = d) Flight.lanes j fs

/-- The entries that the IFQ holds, and those that wait for a return. -/
def Ctx.heldEntries (c : Ctx) : List IfqEntry := c.ifq ++ (match c.trap with | some t => t.ifq | none => [])

/-- A result on its way hides a part from a reader, whose own bundle does not count. -/
def Ctx.Shows (c : Ctx) (cycle : Nat) (own : Bool) (f : Flight) (j : Nat) : Prop :=
  f.lanes.getLsbD j = true ∧ (f.landed = false ∨ cycle < f.due) ∧ ¬ (own = true ∧ f.seq = c.seq)

/-- A part of a register that reads as an unpredictable value. -/
def Ctx.Hidden (c : Ctx) (cycle : Nat) (own : Bool) (d : Dest) (j : Nat) : Prop :=
  (∃ f ∈ c.flight, f.dest = d ∧ c.Shows cycle own f j) ∨
    (∃ x ∈ c.heldEntries, x.dest = d ∧ x.lanes.getLsbD j = true) ∨ (SMap.get 0 c.unpred d.site).getLsbD j = true

theorem Ctx.getLsbD_pending (c : Ctx) (cycle : Nat) (own : Bool) (d : Dest) (j : Nat) :
    (c.pending cycle own d).getLsbD j = true ↔ c.Hidden cycle own d j := by
  have flights := getLsbD_foldl_or_zero (fun f : Flight =>
    (f.dest == d && (!f.landed || decide (cycle < f.due)) && !(own && f.seq == c.seq)) = true) Flight.lanes j c.flight
  have entries := getLsbD_foldl_or_zero (fun e : IfqEntry => e.dest = d) IfqEntry.lanes j
    ((match c.trap with | some t => t.ifq | none => []) ++ c.ifq)
  unfold Ctx.pending Ctx.Hidden
  simp only [BitVec.getLsbD_or, Bool.or_eq_true, or_assoc]
  refine or_congr (flights.trans (exists_congr fun f => and_congr_right fun _ => ?_)) (or_congr (entries.trans ?_) Iff.rfl)
  · simp only [Bool.and_eq_true, Bool.or_eq_true, Bool.not_eq_true', beq_iff_eq, decide_eq_true_eq, Ctx.Shows,
      ← Bool.not_eq_true (_ && _)]
    tauto
  · simp only [Ctx.heldEntries, List.mem_append, or_comm]

/-! ### What a read returns -/

theorem byteMask_zero : byteMask 0 = 0 := by
  refine BitVec.eq_of_getLsbD_eq fun i hi => ?_
  rw [getLsbD_byteMask 0 hi]
  simp

theorem Dest.maskOf_zero (d : Dest) : d.maskOf 0 = 0 := by
  cases d with
  | v => exact byteMask_zero
  | p => simp only [Dest.maskOf, setWidth_of_zero]
  | s | x | bn | cr => rfl

theorem Dest.getLsbD_mix (d : Dest) (old new : Vec) (m : Part) {i : Nat} (hi : i < 1024) : (d.mix old new m).getLsbD i =
    if (d.maskOf m).getLsbD i = true then new.getLsbD i else old.getLsbD i := by
  unfold Dest.mix
  rw [BitVec.getLsbD_or, BitVec.getLsbD_and, BitVec.getLsbD_and, BitVec.getLsbD_not, decide_eq_true hi]
  cases (d.maskOf m).getLsbD i <;> simp

/-- A read in one form: what the register holds, with a free value in the part that is hidden. -/
theorem State.read_eq_mix (s : State) (d : Dest) :
    s.read d = d.mix (s.here.stored d) (s.free d.site) (s.here.pending s.cycle s.granted d) := by
  unfold State.read
  dsimp only
  split
  · next h =>
    rw [h, Dest.mix, Dest.maskOf_zero]
    change s.here.stored d = s.here.stored d &&& ~~~0#1024 ||| s.free d.site &&& 0#1024
    rw [BitVec.and_zero, BitVec.or_zero, BitVec.not_zero, BitVec.and_allOnes]
  · rfl

/-- A read bit by bit: where the bit's part is hidden it is the free value's. -/
theorem State.getLsbD_read (s : State) (d : Dest) {i j : Nat} (hi : i < 1024)
    (mask : ∀ m : Part, (d.maskOf m).getLsbD i = m.getLsbD j) :
    (¬ s.here.Hidden s.cycle s.granted d j → (s.read d).getLsbD i = (s.here.stored d).getLsbD i) ∧
      (s.here.Hidden s.cycle s.granted d j → (s.read d).getLsbD i = (s.free d.site).getLsbD i) := by
  rw [State.read_eq_mix, Dest.getLsbD_mix _ _ _ _ hi, mask, ← Ctx.getLsbD_pending]
  exact ⟨fun h => if_neg h, fun h => if_pos h⟩

/-- Byte j of a vector register. -/
theorem State.readV_byte (s : State) (r : BitVec 5) {j : Nat} (hj : j < 128) :
    (¬ s.here.Hidden s.cycle s.granted (.v r) j →
      (s.readV r).extractLsb' (8 * j) 8 = (SMap.get 0 s.here.v r.toNat).extractLsb' (8 * j) 8) ∧
    (s.here.Hidden s.cycle s.granted (.v r) j →
      (s.readV r).extractLsb' (8 * j) 8 = (s.free (Dest.v r).site).extractLsb' (8 * j) 8) := by
  have bit {i : Nat} (hi : i < 8) := s.getLsbD_read (.v r) (i := 8 * j + i) (j := j) (by omega) fun m => by
    rw [Dest.maskOf, getLsbD_byteMask m (by omega)]
    congr 1
    omega
  refine ⟨fun h => BitVec.eq_of_getLsbD_eq fun i hi => ?_, fun h => BitVec.eq_of_getLsbD_eq fun i hi => ?_⟩
  · simp only [BitVec.getLsbD_extractLsb', hi, decide_true, Bool.true_and]
    exact (bit hi).1 h
  · simp only [BitVec.getLsbD_extractLsb', hi, decide_true, Bool.true_and]
    exact (bit hi).2 h

/-- A scalar register but s0. -/
theorem State.readS_whole (s : State) {q : BitVec 6} (h : q ≠ 0) :
    (¬ s.here.Hidden s.cycle s.granted (.s q) 0 → s.readS q = SMap.get 0 s.here.s q.toNat) ∧
      (s.here.Hidden s.cycle s.granted (.s q) 0 → s.readS q = (s.free (Dest.s q).site).setWidth 64) := by
  have bit {i : Nat} (hi : i < 64) := s.getLsbD_read (.s q) (i := i) (j := 0) (by omega) fun m => by
    unfold Dest.maskOf
    dsimp only
    split
    · next bit =>
      rw [bit, BitVec.getLsbD_allOnes]
      exact decide_eq_true (by omega)
    · next bit => exact BitVec.getLsbD_zero.trans (Bool.eq_false_of_not_eq_true bit).symm
  unfold State.readS
  rw [if_neg h]
  refine ⟨fun shown => BitVec.eq_of_getLsbD_eq fun i hi => ?_, fun hid => BitVec.eq_of_getLsbD_eq fun i hi => ?_⟩
  · rw [BitVec.getLsbD_setWidth, (bit hi).1 shown]
    simp [Ctx.stored, hi, show i < 1024 by omega]
  · rw [BitVec.getLsbD_setWidth, BitVec.getLsbD_setWidth, (bit hi).2 hid]

/-- Bit j of a predicate but p0. -/
theorem State.readP_bit (s : State) {q : BitVec 4} (h : q ≠ 0) {j : Nat} (hj : j < 32) :
    (¬ s.here.Hidden s.cycle s.granted (.p q) j → (s.readP q).getLsbD j = (SMap.get 0 s.here.p q.toNat).getLsbD j) ∧
      (s.here.Hidden s.cycle s.granted (.p q) j → (s.readP q).getLsbD j = (s.free (Dest.p q).site).getLsbD j) := by
  have bit := s.getLsbD_read (.p q) (i := j) (j := j) (by omega) fun m => by simp [Dest.maskOf, show j < 1024 by omega]
  unfold State.readP
  rw [if_neg h, BitVec.getLsbD_setWidth]
  refine ⟨fun shown => ?_, fun hid => ?_⟩
  · rw [bit.1 shown]
    simp [Ctx.stored, hj, show j < 1024 by omega]
  · rw [bit.2 hid]
    simp [hj]

/-! ### A result that issues (R84) -/

/-- What issues joins the results on their way, whatever late fault its flags are. -/
theorem State.result_flight (s : State) (lat : Nat) (d : Dest) (v : Vec) (m : Part) (fl : Flags) (src : Option Nat) :
    (s.result lat d v m fl src).here.flight =
      addFlight ⟨s.here.seq, s.slot, s.cycle + lat, d, v, m, m, fl, src, false⟩ s.here.flight := by
  unfold State.result
  dsimp only
  split
  · rw [State.here_upd]
  · unfold State.late
    rw [State.here_upd, State.here_upd]

theorem Flight.after_iff {seq n : Nat} {f : Flight} : f.after seq n = true ↔ f.seq = seq ∧ n < f.slot := by
  simp [Flight.after]

/-- A result that joins stands in the list with the part that the later slots of its bundle leave to it. -/
theorem addFlight_own (f : Flight) (fs : List Flight) : ∃ g ∈ addFlight f fs, g = { f with live := g.live } ∧
    ∀ j < 128, g.live.getLsbD j = true ↔ f.lanes.getLsbD j = true ∧
      ∀ x ∈ fs, x.seq = f.seq ∧ f.slot < x.slot → x.dest = f.dest → x.lanes.getLsbD j = false := by
  refine ⟨_, List.mem_append_right _ List.mem_cons_self, rfl, fun j hj => ?_⟩
  have kept := not_congr (getLsbD_writtenBy f.dest (fs.filter (Flight.after f.seq f.slot)) j)
  simp only [BitVec.getLsbD_and, BitVec.getLsbD_not, decide_eq_true hj, Bool.true_and, Bool.and_eq_true, Bool.not_eq_true',
    ← Bool.not_eq_true (BitVec.getLsbD (writtenBy _ _) _), kept, List.mem_filter, Flight.after_iff]
  refine and_congr_right fun _ => ⟨fun h x hx later hd => ?_, fun h ⟨x, ⟨hx, later⟩, hd, hl⟩ => ?_⟩
  · exact Bool.eq_false_of_not_eq_true fun hl => h ⟨x, ⟨hx, later⟩, hd, hl⟩
  · exact Bool.false_ne_true ((h x hx later hd).symm.trans hl)

/-- An earlier result to the same destination loses the part; any other stays as it is. -/
theorem addFlight_earlier (f : Flight) {fs : List Flight} {g : Flight} (h : g ∈ fs) (earlier : ¬ (g.seq = f.seq ∧ f.slot < g.slot)) :
    ({ g with live := if g.dest = f.dest then g.live &&& ~~~f.lanes else g.live } : Flight) ∈ addFlight f fs := by
  refine List.mem_append_left _ (List.mem_map.mpr ⟨g, List.mem_filter.mpr ⟨h, ?_⟩, ?_⟩)
  · simpa [Flight.after, imp_iff_not_or] using earlier
  · unfold Flight.overtaken
    split <;> rfl

/-! ### What has landed when a cycle begins -/

theorem State.apart_land (s : State) (c : CtxId) (f : Flight) : State.Apart c s (s.land c f) := by
  by_cases h : f.isCr = true
  · exact (s.controls_land c h).other
  · rw [State.land_register fun n w hd => h (by rw [Flight.isCr, hd])]
    exact s.apart_updCtx _

theorem State.apart_landAll (s : State) (c : CtxId) (fs : List Flight) : State.Apart c s (s.landAll c fs) :=
  (State.apart_foldl (fun s f => s.apart_land c f) _ s).trans (State.apart_foldl (fun s f => s.apart_land c f) _ _)

theorem State.apart_landDue (s : State) (c : CtxId) (t : Nat) : State.Apart c s (s.landDue c t) :=
  ((s.apart_performFor _).trans (State.apart_landAll _ c _)).trans (State.apart_updCtx _ _)

/-- What has not landed of a context is not due, or is a load without its value. -/
theorem State.landDue_flight (s : State) (c : CtxId) (t : Nat) : ∀ f ∈ ((s.landDue c t).ctx c).flight,
    f.landed = false → t < f.due ∨ f.src.isSome = true := by
  intro f hf open_
  unfold State.landDue at hf
  dsimp only at hf
  rw [State.ctx_updCtx_same] at hf
  obtain ⟨g, -, rfl⟩ := List.mem_map.mp hf
  by_contra early
  obtain ⟨due, src⟩ := not_or.mp early
  split at open_
  · cases open_
  · next now =>
    rw [if_neg now] at due src
    refine now ?_
    rw [Bool.and_eq_true, Bool.and_eq_true, decide_eq_true_iff, open_]
    exact ⟨⟨Nat.le_of_not_lt due, rfl⟩, by simpa using src⟩

theorem State.tickCore_flight (s : State) (n : Nat) (one : Bool) : ∀ f ∈ ((s.tickCore n).ctx ⟨n, one⟩).flight,
    f.landed = false → (s.core n).cycle + 1 < f.due ∨ f.src.isSome = true := by
  unfold State.tickCore
  dsimp only
  rw [State.core_updCore_same]
  cases one with
  | true => exact State.landDue_flight _ ⟨n, true⟩ _
  | false =>
    rw [State.apart_landDue _ ⟨n, true⟩ _ ⟨n, false⟩ (by simp)]
    exact State.landDue_flight _ ⟨n, false⟩ _

/-- Settles O46: reads bit by bit over what is hidden, the place of a result in the list, and the landings of a cycle. -/
theorem resultsOnTheirWay : Obligations.ResultsOnTheirWay := by
  intro s d lat v m fl r
  refine ⟨fun j hj => s.readV_byte r hj, fun q hq => s.readS_whole hq, fun q hq j hj => s.readP_bit hq hj, ⟨rfl, rfl⟩, ?_,
    fun n one => s.tickCore_flight n one⟩
  dsimp only
  rw [State.result_flight]
  refine ⟨?_, fun g hg earlier => ⟨_, addFlight_earlier _ hg earlier, rfl⟩⟩
  obtain ⟨g, mem, eq, live⟩ := addFlight_own ⟨s.here.seq, s.slot, s.cycle + lat, d, v, m, m, fl, none, false⟩ s.here.flight
  exact ⟨g, mem, by rw [eq], by rw [eq], by rw [eq], by rw [eq], by rw [eq], by rw [eq], by rw [eq], by rw [eq], live⟩

end Sys2Proof.Machine
end


section
namespace Sys2Proof.Machine

/-! ### Results leave every other register -/

theorem addFlight_of_dest_ne {f g : Flight} (fs : List Flight) (h : g.dest ≠ f.dest) : g ∈ addFlight f fs ↔ g ∈ fs := by
  have kept (x : Flight) : x.overtaken f.dest f.lanes = g ↔ x = g := by
    refine ⟨fun e => ?_, fun e => ?_⟩
    · unfold Flight.overtaken at e
      split at e
      · next hd => exact absurd (by rw [← e]; exact hd) h
      · exact e
    · subst e
      exact if_neg h
  have other : g ≠ { f with live := f.lanes &&& ~~~(writtenBy f.dest (fs.filter (Flight.after f.seq f.slot))) } := by
    rintro rfl
    exact h rfl
  simp only [addFlight, List.mem_append, List.mem_map, List.mem_filter, List.mem_cons, kept, other, false_or, exists_eq_right,
    Bool.not_eq_true', ← and_or_left]
  cases g.after f.seq f.slot <;> simp

/-- Between two states the results of the context at hand, and the faults they raise, alone have changed, and a register that is
no destination reads as before. -/
structure State.Yields (ds : List Dest) (s t : State) : Prop where
  device : t = { s with cores := t.cores }
  core : ∀ n, t.core n = { s.core n with ctx0 := (t.core n).ctx0, ctx1 := (t.core n).ctx1 }
  other : ∀ c, c ≠ s.cur → t.ctx c = s.ctx c
  here : t.here = { s.here with flight := t.here.flight, late := t.here.late }
  read : ∀ d, d ∉ ds → t.read d = s.read d

theorem State.Yields.refl (ds : List Dest) (s : State) : State.Yields ds s s := ⟨rfl, fun _ => rfl, fun _ _ => rfl, rfl, fun _ _ => rfl⟩

theorem State.Yields.cur {ds : List Dest} {s t : State} (h : State.Yields ds s t) : t.cur = s.cur :=
  (congrArg State.cur h.device :)

theorem State.Yields.trans {ds es : List Dest} {s t u : State} (a : State.Yields ds s t) (b : State.Yields es t u) :
    State.Yields (ds ++ es) s u where
  device := by rw [b.device, a.device]
  core n := by rw [b.core, a.core]
  other c h := (b.other c (by rwa [a.cur])).trans (a.other c h)
  here := by rw [b.here, a.here]
  read d h := by
    obtain ⟨hd, he⟩ := not_or.mp (mt List.mem_append.mpr h)
    exact (b.read d he).trans (a.read d hd)

theorem State.Yields.mono {ds es : List Dest} {s t : State} (h : State.Yields ds s t) (sub : ds ⊆ es) : State.Yields es s t :=
  { h with read := fun d hd => h.read d fun mem => hd (sub mem) }

/-- A register whose hidden part and contents stay reads as before. -/
theorem State.read_upd {s : State} {f : Ctx → Ctx} {d : Dest} (stored : (f s.here).stored d = s.here.stored d)
    (hidden : ∀ j, (f s.here).Hidden s.cycle s.granted d j ↔ s.here.Hidden s.cycle s.granted d j) :
    (s.upd f).read d = s.read d := by
  have pending : (f s.here).pending s.cycle s.granted d = s.here.pending s.cycle s.granted d :=
    BitVec.eq_of_getLsbD_eq fun j _ => Bool.eq_iff_iff.mpr
      (((f s.here).getLsbD_pending _ _ d j).trans ((hidden j).trans (s.here.getLsbD_pending _ _ d j).symm))
  rw [State.read_eq_mix, State.read_eq_mix, State.here_upd, State.cycle_upd, State.upd_granted, pending, stored]
  rfl

theorem State.core_upd (s : State) (f : Ctx → Ctx) (n : Nat) :
    (s.upd f).core n = { s.core n with ctx0 := ((s.upd f).core n).ctx0, ctx1 := ((s.upd f).core n).ctx1 } := by
  by_cases h : n = s.cur.core
  · subst h
    have one : (s.upd f).core s.cur.core = (s.core s.cur.core).setCtx s.cur.one (f s.here) := State.core_setCore_same _ _ _
    rw [one]
    cases s.cur.one <;> rfl
  · rw [show (s.upd f).core n = s.core n from State.core_setCore_other _ _ h]

/-- A result that joins those on their way. -/
theorem State.yields_join (s : State) (f : Flight) :
    State.Yields [f.dest] s (s.upd (fun c => { c with flight := addFlight f c.flight })) where
  device := rfl
  core := s.core_upd _
  other _ h := State.ctx_upd_other _ _ h
  here := by rw [State.here_upd]
  read d h := by
    refine State.read_upd rfl fun j => or_congr (exists_congr fun g => ?_) Iff.rfl
    constructor
    · rintro ⟨hg, rfl, shows⟩
      exact ⟨(addFlight_of_dest_ne _ (by simpa using h)).mp hg, rfl, shows⟩
    · rintro ⟨hg, rfl, shows⟩
      exact ⟨(addFlight_of_dest_ne _ (by simpa using h)).mpr hg, rfl, shows⟩

theorem State.yields_late (s : State) (cause : BitVec 8) (detail : BitVec 128) : State.Yields [] s (s.late cause detail) where
  device := rfl
  core := s.core_upd _
  other _ h := State.ctx_upd_other _ _ h
  here := by
    unfold State.late
    rw [State.here_upd]
  read _ _ := State.read_upd rfl fun _ => Iff.rfl

theorem State.yields_lateIf (s : State) (P : Prop) [Decidable P] (cause : BitVec 8) (detail : BitVec 128) :
    State.Yields [] s (if P then s.late cause detail else s) := by
  split
  · exact s.yields_late _ _
  · exact .refl _ s

theorem State.yields_result (s : State) (lat : Nat) (d : Dest) (v : Vec) (m : Part) (fl : Flags) (src : Option Nat) :
    State.Yields [d] s (s.result lat d v m fl src) := by
  have joins := s.yields_join ⟨s.here.seq, s.slot, s.cycle + lat, d, v, m, m, fl, src, false⟩
  unfold State.result
  dsimp only
  split
  · exact joins
  · exact joins.trans (State.yields_late _ _ _)

/-- A form whose effect, wherever it issues, is results to its destinations. -/
def IsResultForm (i : Instr) : Prop :=
  ∃ eff : State → State, (∀ s, exec i s = issue i s eff) ∧ ∀ s, State.Yields (destsOf i) s (eff s)

theorem isResultForm_of {i : Instr} {eff : State → State} (run : ∀ s, exec i s = issue i s eff)
    (yields : ∀ s, State.Yields (destsOf i) s (eff s)) : IsResultForm i := ⟨eff, run, yields⟩

/-! ### The forms that choose -/

section

variable (s : State) (u : Pfx) (t : BitVec 3) (d a b : BitVec 5)

theorem State.yields_varith (f o : Bool) (fp : Fmt → Rm → Num → Num → Nat × Flags) (int : Int → Int → Int) :
    State.Yields [.v d] s (s.varith u t d a b f o fp int) := by
  unfold State.varith
  split
  · exact s.yields_result ..
  · exact s.yields_result ..

theorem State.yields_vminmax (f mx : Bool) : State.Yields [.v d] s (s.vminmax u t d a b f mx) := by
  unfold State.vminmax
  split
  · exact s.yields_result ..
  · exact s.yields_result ..

theorem State.yields_vsign (o neg : Bool) : State.Yields [.v d] s (s.vsign u t d a o neg) := by
  unfold State.vsign
  split
  · exact s.yields_result ..
  · exact s.yields_result ..

theorem State.yields_vredadd (f o : Bool) : State.Yields [.v d] s (s.vredadd u t d a f o) := by
  unfold State.vredadd
  dsimp only
  split
  · exact s.yields_result ..
  · exact s.yields_result ..

/-- A reduction to a minimum or a maximum of no integer writes nothing. -/
theorem State.yields_vredmm (f mx : Bool) : State.Yields [.v d] s (s.vredmm u t d a f mx) := by
  unfold State.vredmm
  dsimp only
  split
  · exact s.yields_result ..
  · split
    · exact .refl _ s
    · exact s.yields_result ..

theorem State.yields_prune (k : BitVec 2) : State.Yields [.v d] s (s.prune u d a b k) := by
  unfold State.prune
  generalize kindShape k = shape
  exact s.yields_result ..

theorem State.yields_topk : State.Yields [.v d, .v (d + 1)] s (s.topk u t d a b) :=
  (s.yields_result ..).trans (State.yields_result ..)

theorem State.yields_spenc (k : BitVec 2) : State.Yields [.v d] s (s.spenc u d a k) := by
  unfold State.spenc
  generalize kindShape k = shape
  exact s.yields_result ..

theorem State.yields_spdec (k : BitVec 2) : State.Yields [.v d] s (s.spdec u d a k) := by
  unfold State.spdec
  generalize kindShape k = shape
  dsimp only
  split
  · exact State.Yields.trans (s.yields_result ..) (State.yields_late _ _ _)
  · exact s.yields_result ..

/-- QNT writes a pair, or nothing where its codebook slot is as reset leaves it. -/
theorem State.yields_qnt (f : Bool) : State.Yields [.v d, .v (d + 1)] s (s.qnt u d a b f) := by
  unfold State.qnt
  dsimp only
  split
  · exact (s.yields_late _ _).mono (List.nil_subset _)
  · exact ((s.yields_result ..).trans (State.yields_result ..)).trans (State.yields_lateIf ..)

theorem State.yields_dq (o : Bool) : State.Yields [.v d] s (s.dq u d a b o) := by
  unfold State.dq
  dsimp only
  split
  · exact (s.yields_late _ _).mono (List.nil_subset _)
  · split
    · exact State.Yields.trans (s.yields_result ..) (State.yields_late _ _ _)
    · exact s.yields_result ..

end

/-! ### Every form -/

theorem isResultForm_s {i : Instr} (h : i.slotClass = some .s) : IsResultForm i := by
  cases i with
  | sel u d a p =>
    refine isResultForm_of (eff := fun s => if (s.readP p).getLsbD 0 then s.putS latAlu d (s.readS a) 0 else s)
      (fun _ => rfl) fun s => ?_
    split
    · exact s.yields_result ..
    · exact .refl _ s
  | add | sub | mul | mulh | mulhu | div | divu | rem | remu | and | or | xor | shl | shr | ashr | min | max | minu | maxu
  | clz | ctz | popc | addi | andi | ori | xori | shli | shri | ashri | movi | movs | rdc | wrc | cmpeq | cmpne | cmplt | cmpltu
  | cmple | cmpleu | fcmpeq | fcmplt | fcmple | fcmpun | faddF32 | fsubF32 | fmulF32 | ffmaF32 | fdivF32 | fsqrtF32 | faddF64
  | fsubF64 | fmulF64 | ffmaF64 | fdivF64 | fsqrtF64 =>
    apply isResultForm_of
    · intro s
      delta exec
      exact rfl
    · exact fun s => s.yields_result ..
  | _ => cases h

theorem isResultForm_x {i : Instr} (h : i.slotClass = some .x) : IsResultForm i := by
  cases i with
  | xbnet =>
    apply isResultForm_of
    · intro s
      delta exec
      exact rfl
    · exact fun s => (s.yields_result ..).trans (State.yields_result ..)
  | xadd | xaddi | xsub | xshli | xshri | xand | xpopc | xcmpadv | xpatd | xbnld | xbperm | xfroms | xtos | xmov | xmovi =>
    apply isResultForm_of
    · intro s
      delta exec
      exact rfl
    · exact fun s => s.yields_result ..
  | _ => cases h

theorem isResultForm_v {i : Instr} (h : i.slotClass = some .v) (q : ∀ u d q, i ≠ .vpopq u d q) (l : ∀ u d l, i ≠ .vpopl u d l) :
    IsResultForm i := by
  cases i with
  | vpopq u d x => exact absurd rfl (q u d x)
  | vpopl u d x => exact absurd rfl (l u d x)
  | vadd | vsub | vmul => exact ⟨_, fun _ => rfl, fun s => s.yields_varith ..⟩
  | vmin | vmax => exact ⟨_, fun _ => rfl, fun s => s.yields_vminmax ..⟩
  | vabs | vneg => exact ⟨_, fun _ => rfl, fun s => s.yields_vsign ..⟩
  | vredadd => exact ⟨_, fun _ => rfl, fun s => s.yields_vredadd ..⟩
  | vredmax | vredmin => exact ⟨_, fun _ => rfl, fun s => s.yields_vredmm ..⟩
  | prune => exact ⟨_, fun _ => rfl, fun s => s.yields_prune ..⟩
  | topk => exact ⟨_, fun _ => rfl, fun s => s.yields_topk ..⟩
  | qnt => exact ⟨_, fun _ => rfl, fun s => s.yields_qnt ..⟩
  | dq => exact ⟨_, fun _ => rfl, fun s => s.yields_dq ..⟩
  | spenc => exact ⟨_, fun _ => rfl, fun s => s.yields_spenc ..⟩
  | spdec => exact ⟨_, fun _ => rfl, fun s => s.yields_spdec ..⟩
  | vfma | vfms | vdiv | vsqrt | vrcp | vrsq | vexp2 | vlog2 | vsel | vand | vor | vxor | vnot | vshl | vshr | vashr | vscn
  | vcmpeq | vcmpne | vcmplt | vcmple | vcmpun | vcvt | vcvtd | vperm | vbcast | vrng | vmvs | vmsv | vmoviI32 | vmoviI64
  | vmoviF32 | vmoviF64 | vmoviF16 | vmoviBf16 | vmoviH8 =>
    apply isResultForm_of
    · intro s
      delta exec
      exact rfl
    · exact fun s => s.yields_result ..
  | _ => cases h

/-! ### Pops (R159, R160) -/

theorem Claim.within_of_yields {ds : List Dest} {s t : State} (h : State.Yields ds s t) : Claim.Within s t Claim.resultsOnly :=
  ⟨h.device, h.core, h.other, fun a => by rw [h.device]; rfl, h.here⟩

/-- What a pop takes away beside its result. -/
theorem Claim.within_of_pop {ds : List Dest} {s t : State} {f : Ctx → Ctx} {g : Ctx → Ctx → Ctx} (h : State.Yields ds (s.upd f) t)
    (stored : ∀ d, (f s.here).stored d = s.here.stored d)
    (hidden : ∀ d j, (f s.here).Hidden s.cycle s.granted d j ↔ s.here.Hidden s.cycle s.granted d j)
    (left : ∀ fl la, ({ f s.here with flight := fl, late := la } : Ctx) = g s.here { f s.here with flight := fl, late := la }) :
    Claim.Within s t g ∧ ∀ d, d ∉ ds → t.read d = s.read d := by
  have here := h.here
  rw [State.here_upd] at here
  refine ⟨⟨?_, fun n => ?_, fun c hc => (h.other c hc).trans (State.ctx_upd_other s f hc), fun a => ?_,
      (here.trans (left _ _)).trans (congrArg (g s.here) here.symm)⟩,
    fun d hd => (h.read d hd).trans (State.read_upd (stored d) (hidden d))⟩
  · rw [h.device]
    rfl
  · rw [h.core, s.core_upd f]
  · rw [h.device]
    rfl

/-- Where nothing is popped nothing changes. -/
theorem Claim.within_refl (s : State) {g : Ctx → Ctx → Ctx} (h : s.here = g s.here s.here) (ds : List Dest) :
    Claim.Within s s g ∧ ∀ d, d ∉ ds → s.read d = s.read d :=
  ⟨⟨rfl, fun _ => rfl, fun _ _ => rfl, fun _ => rfl, h⟩, fun _ _ => rfl⟩

theorem State.vpopq_frame (s : State) (u : Pfx) (d : BitVec 5) (q : BitVec 2) :
    Claim.Within s (s.vpopq u d q) (Claim.resultsAndPops (.vpopq u d q)) ∧ ∀ e, e ∉ [Dest.v d] → (s.vpopq u d q).read e = s.read e := by
  unfold State.vpopq
  split
  · exact Claim.within_refl s rfl _
  · exact Claim.within_of_pop (State.yields_result ..) (fun _ => rfl) (fun _ _ => Iff.rfl) fun _ _ => rfl

theorem State.vpopl_frame (s : State) (u : Pfx) (d : BitVec 5) (l : BitVec 3) :
    Claim.Within s (s.vpopl u d l) (Claim.resultsAndPops (.vpopl u d l)) ∧ ∀ e, e ∉ [Dest.v d] → (s.vpopl u d l).read e = s.read e := by
  unfold State.vpopl
  split
  · dsimp only
    split
    · refine Claim.within_of_pop ((State.yields_late _ _ _).mono (List.nil_subset _)) (fun _ => rfl) (fun _ _ => Iff.rfl) ?_
      exact fun _ _ => rfl
    · refine Claim.within_of_pop (State.yields_result ..) (fun _ => rfl) (fun _ _ => Iff.rfl) ?_
      exact fun _ _ => rfl
  · exact Claim.within_refl s rfl _

/-! ### The frame -/

/-- The forms that write a register at issue are those of the S, X and V slots. -/
theorem isRegisterForm_eq (i : Instr) :
    Claim.isRegisterForm i = (i.slotClass == some .s || i.slotClass == some .x || i.slotClass == some .v) := by
  cases i <;> rfl

theorem slotClass_of_isRegisterForm {i : Instr} (h : Claim.isRegisterForm i = true) :
    i.slotClass = some .s ∨ i.slotClass = some .x ∨ i.slotClass = some .v := by
  simpa only [isRegisterForm_eq, Bool.or_eq_true, beq_iff_eq, or_assoc] using h

/-- A form that pops nothing changes results and faults alone. -/
theorem Claim.resultsAndPops_of {i : Instr} (q : ∀ u d q, i ≠ .vpopq u d q) (l : ∀ u d l, i ≠ .vpopl u d l) :
    Claim.resultsAndPops i = Claim.resultsOnly := by
  unfold Claim.resultsAndPops
  split
  · next u d k => exact absurd rfl (q u d k)
  · next u d k => exact absurd rfl (l u d k)
  · rfl

/-- What the issue of an instruction with some effect leaves is what the effect leaves. -/
theorem eq_eff_of_issues {i : Instr} {s t : State} {eff : State → State} (run : ∀ s, exec i s = issue i s eff)
    (issues : Claim.Issues i s) (next : exec i s = .next t) : t = eff (Claim.issuing i s) := by
  rw [run, issue_of_issues eff issues] at next
  injection next with next
  exact next.symm

/-- Settles O11: VPOPQ and VPOPL by what they pop, every other form by its results. -/
theorem registerFrame : Obligations.RegisterFrame := by
  intro i s t form issues next
  by_cases q : ∃ u d q, i = .vpopq u d q
  · obtain ⟨u, d, q, rfl⟩ := q
    rw [eq_eff_of_issues (eff := fun s => s.vpopq u d q) (fun _ => rfl) issues next]
    exact State.vpopq_frame _ u d q
  by_cases l : ∃ u d l, i = .vpopl u d l
  · obtain ⟨u, d, l, rfl⟩ := l
    rw [eq_eff_of_issues (eff := fun s => s.vpopl u d l) (fun _ => rfl) issues next]
    exact State.vpopl_frame _ u d l
  have notq : ∀ u d k, i ≠ .vpopq u d k := fun u d k e => q ⟨u, d, k, e⟩
  have notl : ∀ u d k, i ≠ .vpopl u d k := fun u d k e => l ⟨u, d, k, e⟩
  have results : IsResultForm i := by
    obtain h | h | h := slotClass_of_isRegisterForm form
    · exact isResultForm_s h
    · exact isResultForm_x h
    · exact isResultForm_v h notq notl
  obtain ⟨eff, run, yields⟩ := results
  rw [eq_eff_of_issues run issues next, Claim.resultsAndPops_of notq notl]
  exact ⟨Claim.within_of_yields (yields _), (yields _).read⟩

end Sys2Proof.Machine
end

section
/-! SUPPORT. Tiles by their elements (R216), and what the completion of an array operation leaves around its results (R218,
R222). -/

namespace Sys2Proof.Machine

/-! ### Tiles -/

theorem Tile.el_of (f : Nat → Nat → DWord) {i j : Nat} (hi : i < 16) (hj : j < 16) : (Tile.of f).el i j = f i j := by
  have keys : ((List.range 256).map (fun e => (e, f (e / 16) (e % 16)))).map Prod.fst = List.range 256 := by
    rw [List.map_map]
    exact List.map_id' (List.range 256)
  have listed : 16 * i + j ∈ List.range 256 := List.mem_range.mpr (by omega)
  unfold Tile.of Tile.el
  rw [SMap.get_filter_ne _ (by rw [keys]; exact List.nodup_range), SMap.get_map_key 0 (fun e => f (e / 16) (e % 16)),
    if_pos listed]
  congr 1 <;> omega

@[simp] theorem Ctx.tile_setTile_same (c : Ctx) (k : BitVec 3) (t : Tile) : (c.setTile k t).tile k = t :=
  SMap.get_setD_same _ _ _ _

theorem Ctx.tile_setTile_other (c : Ctx) {k j : BitVec 3} (t : Tile) (h : j ≠ k) : (c.setTile k t).tile j = c.tile j :=
  SMap.get_setD_toNat _ _ _ h

/-! ### Completion -/

@[simp] theorem Core.setCtx_aq (k : Core) (b : Bool) (x : Ctx) : (k.setCtx b x).aq = k.aq := by cases b <;> rfl

theorem Core.ctx_withAq (k : Core) (b : Bool) (l : List ArrayOp) : ({ k with aq := l } : Core).ctx b = k.ctx b := by
  cases b <;> rfl

/-- A core's queue of array operations replaced. -/
def State.withAq (s : State) (n : Nat) (l : List ArrayOp) : State := s.updCore n (fun k => { k with aq := l })

@[simp] theorem State.ctx_withAq (s : State) (n : Nat) (l : List ArrayOp) (c : CtxId) : (s.withAq n l).ctx c = s.ctx c :=
  s.ctx_updCore n (fun k b => k.ctx_withAq b l) c

@[simp] theorem State.aq_withAq (s : State) (n : Nat) (l : List ArrayOp) : ((s.withAq n l).core n).aq = l :=
  congrArg Core.aq (s.core_updCore_same n _)

theorem State.aq_setCtx (s : State) (c : CtxId) (x : Ctx) : ((s.setCtx c x).core c.core).aq = (s.core c.core).aq := by
  rw [State.setCtx, State.core_setCore_same, Core.setCtx_aq]

theorem State.aq_updCtx (s : State) (c : CtxId) (f : Ctx → Ctx) : ((s.updCtx c f).core c.core).aq = (s.core c.core).aq :=
  s.aq_setCtx c _

theorem State.failArray_eq (s : State) (c : CtxId) (a : ArrayOp) (fs : List FaultDetail) :
    s.failArray c a fs = (s.withAq c.core ((s.core c.core).aq.filter (fun b => b.one != c.one))).updCtx c (fun k => { k with
      late := k.late ++ fs.map (fun f => ⟨a.seq, 5, a.held, a.pc, f.1, f.2, some (.array a)⟩)
      withheld := k.withheld ++ (s.core c.core).aq.filter (fun b => b.one == c.one) }) := rfl

/-- How the results of an array operation are put into a state whose reads are past. -/
def State.finishArray (s : State) (n : Nat) (a : ArrayOp) (rest : List ArrayOp) (r : Ctx × List FaultDetail) : State :=
  let s := (s.withAq n rest).setCtx ⟨n, a.one⟩ (r.1.withLanded a)
  if r.2 = [] then s else s.failArray ⟨n, a.one⟩ a r.2

/-- The granules that were poisoned before an array operation read: those of its reads, or of memory now. -/
def ArrayOp.poisonBefore (a : ArrayOp) (now : List Nat) : List Nat :=
  match a.seen with
  | some x => x.was
  | none => now

theorem State.completeArray_eq {s : State} {n : Nat} {a : ArrayOp} {rest : List ArrayOp} (h : (s.core n).aq = a :: rest) :
    s.completeArray n =
      let v := ((s.landCr ⟨n, a.one⟩ a.seq).beforeArray ⟨n, a.one⟩ a).readFor ⟨n, a.one⟩ a
      v.finishArray n a rest (((v.withAq n rest).asSeen a.seen).runArray ⟨n, a.one⟩ a
        (a.poisonBefore ((s.landCr ⟨n, a.one⟩ a.seq).beforeArray ⟨n, a.one⟩ a).poison)) := by
  unfold State.completeArray
  rw [h]
  rfl

/-- What the results leave around them. -/
theorem State.finishArray_completes (s : State) (n : Nat) (a : ArrayOp) (rest : List ArrayOp) (r : Ctx × List FaultDetail) :
    Claim.Completes s (s.finishArray n a rest r) n a rest r.1 r.2 := by
  have queue : (((s.withAq n rest).setCtx ⟨n, a.one⟩ (r.1.withLanded a)).core n).aq = rest :=
    (State.aq_setCtx _ ⟨n, a.one⟩ _).trans (s.aq_withAq n rest)
  unfold State.finishArray
  by_cases none : r.2 = []
  · simp only [none, if_true]
    refine ⟨queue, ?_, fun c hc => ?_, fun b => rfl⟩
    · rw [State.ctx_setCtx_same]
      simp [Ctx.withLanded, Ctx.landed, Claim.landed]
    · rw [State.ctx_setCtx_other _ _ hc, State.ctx_withAq]
  · rw [Claim.Completes, if_neg none, if_neg none, if_neg none, State.failArray_eq]
    dsimp only
    rw [queue]
    refine ⟨?_, ?_, fun c hc => ?_, fun b => rfl⟩
    · exact (State.aq_updCtx _ ⟨n, a.one⟩ _).trans (State.aq_withAq _ _ _)
    · rw [State.ctx_updCtx_same, State.ctx_withAq, State.ctx_setCtx_same]
      rfl
    · rw [State.ctx_updCtx_other _ _ hc, State.ctx_withAq, State.ctx_setCtx_other _ _ hc, State.ctx_withAq]

@[simp] theorem State.ctx_asSeen (s : State) (x : Option Seen) (c : CtxId) : (s.asSeen x).ctx c = s.ctx c := by
  cases x with
  | none => rfl
  | some x =>
    unfold State.asSeen State.ctx State.core
    dsimp only
    rw [s.setCells_eq]

/-- An array operation that reads no slab completes with what it makes of its context. -/
theorem State.completes_of_not_reads {s : State} {n : Nat} {a : ArrayOp} {rest : List ArrayOp} {r : Ctx → Ctx × List FaultDetail}
    (h : (s.core n).aq = a :: rest) (reads : a.reads = false)
    (run : ∀ (v : State) was, v.runArray ⟨n, a.one⟩ a was = r (v.ctx ⟨n, a.one⟩)) :
    let v := s.landCr ⟨n, a.one⟩ a.seq
    ∃ t, exec (.arrayOperationCompletion n .none) s = .next t ∧
      Claim.Completes v t n a rest (r (v.ctx ⟨n, a.one⟩)).1 (r (v.ctx ⟨n, a.one⟩)).2 := by
  intro v
  have plain : (v.beforeArray ⟨n, a.one⟩ a).readFor ⟨n, a.one⟩ a = v := by simp [State.beforeArray, State.readFor, reads]
  refine ⟨s.completeArray n, rfl, ?_⟩
  rw [State.completeArray_eq h]
  dsimp only
  rw [plain, run, State.ctx_asSeen, State.ctx_withAq]
  exact State.finishArray_completes v n a rest _

/-- Flags that an array operation raises: FPSW, KSW of its tile, and the trap where one is enabled (R101, R102, R222). -/
theorem Ctx.arrayFlags_eq (c : Ctx) (a : ArrayOp) (k : BitVec 3) (f : Flags) :
    c.arrayFlags a k f false = (Claim.flagged c k (f.setWidth 6), Claim.enabledFaults a f) := by
  have same : (f.setWidth 6).setWidth 5 = f := BitVec.setWidth_setWidth_of_le f (by decide)
  simp [Ctx.arrayFlags, Claim.flagged, Claim.enabledFaults, Ctx.orFlags, Ctx.orKsw, Ctx.commit, same, causeFpx]

end Sys2Proof.Machine
end

section
/-! SUPPORT. Magnitudes (R89, R97, R228): compares of numbers that are no NaN as compares of their sizes, and roundings that
look at the value of a dyadic number alone. -/

namespace Sys2Proof.Machine

/-! ### Sizes -/

/-- The rational that a dyadic number is. -/
def Dy.rat (x : Dy) : ℚ := x.m * 2 ^ x.e

theorem Dy.at_mul (x : Dy) {k : Int} (h : k ≤ x.e) : (x.at k : ℚ) * 2 ^ k = x.rat := by
  have split : (2 : ℚ) ^ x.e = 2 ^ (x.e - k).toNat * 2 ^ k := by
    rw [← zpow_natCast, ← zpow_add₀ two_ne_zero]
    congr 1
    omega
  rw [Dy.rat, Dy.at, split]
  push_cast
  ring

theorem Dy.lt_iff (x y : Dy) : x.lt y = true ↔ x.rat < y.rat := by
  have pos : (0 : ℚ) < 2 ^ min x.e y.e := by positivity
  rw [← x.at_mul (min_le_left x.e y.e), ← y.at_mul (min_le_right x.e y.e), mul_lt_mul_iff_left₀ pos, Int.cast_lt]
  exact decide_eq_true_iff

/-- The size of a number: ⊤ for an infinity; that of a NaN means nothing. -/
def Num.size : Num → WithTop ℚ
  | .inf _ => ⊤
  | x => (x.abs.dy.rat : ℚ)

theorem Num.lt_abs_iff {x y : Num} (hx : x.isNan = false) (hy : y.isNan = false) :
    x.abs.lt y.abs = true ↔ x.size < y.size := by
  cases x with
  | nan s => cases hx
  | inf n =>
    have top : (Num.inf n).size = ⊤ := rfl
    rw [top]
    cases y with
    | nan s => cases hy
    | inf m => simp [Num.lt, Num.abs]
    | fin m a e => simp [Num.lt, Num.abs]
  | fin n b d =>
    cases y with
    | nan s => cases hy
    | inf m => simp [Num.lt, Num.abs, Num.size]
    | fin m a e =>
      rw [Num.size, Num.size, WithTop.coe_lt_coe]
      · exact Dy.lt_iff _ _
      · exact fun _ h => nomatch h
      · exact fun _ h => nomatch h

theorem Num.zero_le_size (x : Num) : 0 ≤ x.size := by
  cases x with
  | nan s => simp [Num.size, Num.abs, Num.dy, Dy.rat, Dy.zero]
  | inf n => exact le_top
  | fin n m e =>
    refine WithTop.coe_le_coe.mpr ?_
    simp only [Num.abs, Num.dy, Dy.rat, Bool.false_eq_true, if_false]
    positivity

/-! ### Roundings of one value -/

theorem log2_mul_pow {m : Nat} (h : m ≠ 0) (d : Nat) : Nat.log2 (m * 2 ^ d) = Nat.log2 m + d := by
  rw [Nat.log2_eq_log_two, Nat.log2_eq_log_two]
  induction d with
  | zero => simp
  | succ d ih => rw [pow_succ, ← mul_assoc, Nat.log_mul_base (by decide) (by positivity), ih, add_assoc]

theorem roundAt_mul_pow (rm : Rm) (neg : Bool) (m : Nat) (e q : Int) (d : Nat) :
    roundAt rm neg (m * 2 ^ d) (e - d) q = roundAt rm neg m e q := by
  by_cases above : q ≤ e - d
  · have sum : (e - q).toNat = d + (e - d - q).toNat := by omega
    rw [roundAt, if_pos above, roundAt, if_pos (by omega), sum, pow_add, mul_assoc]
  by_cases between : q ≤ e
  · have pow : 2 ^ d = 2 ^ (e - q).toNat * 2 ^ (q - (e - d)).toNat := by
      rw [← pow_add]
      congr 1
      omega
    have whole : m * 2 ^ d = m * 2 ^ (e - q).toNat * 2 ^ (q - (e - d)).toNat := by rw [pow, mul_assoc]
    have half : 0 < 2 ^ ((q - (e - d)).toNat - 1) := by positivity
    rw [roundAt, if_neg above, roundAt, if_pos between, whole]
    dsimp only
    rw [Nat.mul_div_cancel _ (by positivity), Nat.mul_mod_left]
    cases rm <;> simp [half.ne]
  · have sh : (q - (e - d)).toNat = (q - e).toNat + d := by omega
    have sh' : (q - e).toNat + d - 1 = (q - e).toNat - 1 + d := by omega
    have pos : 0 < 2 ^ d := by positivity
    rw [roundAt, if_neg above, roundAt, if_neg between]
    dsimp only
    rw [sh, sh', pow_add, pow_add, Nat.mul_div_mul_right _ _ pos, Nat.mul_mod_mul_right]
    cases rm <;> simp [bne, pos]

theorem Fmt.round_mul_pow (F : Fmt) (rm : Rm) (neg : Bool) (m : Nat) (e : Int) (d : Nat) :
    F.round rm neg (m * 2 ^ d) (e - d) = F.round rm neg m e := by
  by_cases zero : m = 0
  · simp [Fmt.round, zero]
  · have expo : expOf (m * 2 ^ d) (e - d) = expOf m e := by
      rw [expOf, expOf, log2_mul_pow zero]
      omega
    have large : m * 2 ^ d ≠ 0 := by positivity
    unfold Fmt.round
    rw [if_neg large, if_neg zero, expo]
    simp only [roundAt_mul_pow]

/-- A rounding looks at the value alone. -/
theorem Fmt.roundDy_congr (F : Fmt) (rm : Rm) (z : Bool) {x y : Dy} (h : x.rat = y.rat) : F.roundDy rm x z = F.roundDy rm y z := by
  wlog le : x.e ≤ y.e generalizing x y
  · exact (this h.symm (by omega)).symm
  obtain ⟨d, hd⟩ : ∃ d : Nat, x.e = y.e - d := ⟨(y.e - x.e).toNat, by omega⟩
  have scaled : x.m = y.m * 2 ^ d := by
    have unit : (2 : ℚ) ^ x.e ≠ 0 := by positivity
    have split : (2 : ℚ) ^ y.e = 2 ^ d * 2 ^ x.e := by
      rw [← zpow_natCast, ← zpow_add₀ two_ne_zero]
      congr 1
      omega
    have cast : (x.m : ℚ) = y.m * 2 ^ d := by
      refine mul_right_cancel₀ unit ?_
      rw [mul_assoc, ← split]
      exact h
    exact_mod_cast cast
  have sign : decide (x.m < 0) = decide (y.m < 0) := by
    rw [scaled]
    exact decide_eq_decide.mpr ⟨fun l => by by_contra ge; exact absurd l (by push Not at ge ⊢; positivity),
      fun l => mul_neg_of_neg_of_pos l (by positivity)⟩
  have size : x.m.natAbs = y.m.natAbs * 2 ^ d := by rw [scaled, Int.natAbs_mul, Int.natAbs_pow]; rfl
  have zero : x.m = 0 ↔ y.m = 0 := by rw [scaled]; simp
  rw [Fmt.roundDy, Fmt.roundDy, sign, size, hd, F.round_mul_pow]
  simp only [zero]

/-! ### The largest magnitude (R228) -/

/-- What the search for the largest magnitude keeps. -/
def largerOf (m x : Num) : Num := if m.lt x.abs then x.abs else m

theorem Num.abs_abs (x : Num) : x.abs.abs = x.abs := by cases x <;> rfl
theorem Num.isNan_abs (x : Num) : x.abs.isNan = x.isNan := by cases x <;> rfl
theorem Num.size_abs (x : Num) : x.abs.size = x.size := by cases x <;> rfl

/-- The search ends with a magnitude of the list, or the one it began with, that is at least as large as any. -/
theorem largest_foldl (l : List Num) (h : ∀ x ∈ l, x.isNan = false) (m : Num) (hm : m.isNan = false) (pos : m.abs = m) :
    let r := l.foldl largerOf m
    r.isNan = false ∧ r.abs = r ∧ (r = m ∨ ∃ x ∈ l, r = x.abs) ∧ m.size ≤ r.size ∧ ∀ x ∈ l, x.size ≤ r.size := by
  induction l generalizing m with
  | nil => exact ⟨hm, pos, .inl rfl, le_rfl, fun _ h => nomatch h⟩
  | cons y l ih =>
    obtain ⟨hy, hl⟩ := List.forall_mem_cons.mp h
    have lt : m.lt y.abs = true ↔ m.size < y.size := by
      rw [← pos]
      nth_rw 2 [pos]
      exact Num.lt_abs_iff hm hy
    rw [List.foldl_cons]
    by_cases larger : m.lt y.abs = true
    · have next : largerOf m y = y.abs := if_pos larger
      rw [next]
      obtain ⟨notNan, nonneg, origin, first, others⟩ := ih hl y.abs (y.isNan_abs.trans hy) y.abs_abs
      rw [y.size_abs] at first
      refine ⟨notNan, nonneg, .inr ?_, (lt.mp larger).le.trans first, List.forall_mem_cons.mpr ⟨first, others⟩⟩
      obtain same | ⟨x, mem, same⟩ := origin
      · exact ⟨y, List.mem_cons_self, same⟩
      · exact ⟨x, List.mem_cons_of_mem _ mem, same⟩
    · have next : largerOf m y = m := if_neg larger
      rw [next]
      obtain ⟨notNan, nonneg, origin, first, others⟩ := ih hl m hm pos
      refine ⟨notNan, nonneg, ?_, first, List.forall_mem_cons.mpr ⟨(not_lt.mp (lt.not.mp larger)).trans first, others⟩⟩
      obtain same | ⟨x, mem, same⟩ := origin
      · exact .inl same
      · exact .inr ⟨x, List.mem_cons_of_mem _ mem, same⟩

/-- The pattern of a magnitude as FP64. -/
def magnitudePattern : Num → Nat
  | .inf _ => Fmt.f64.inf false
  | x => (Fmt.f64.roundDy .rne x.dy false).1

theorem maxMagnitude_eq (l : List Num) :
    maxMagnitude l = if l.any Num.isNan then Fmt.f64.canon else magnitudePattern (l.foldl largerOf (.fin false 0 0)) := rfl

theorem maxMagnitude_nan {l : List Num} (h : l.any Num.isNan = true) : maxMagnitude l = Fmt.f64.canon := if_pos h

theorem maxMagnitude_inf {l : List Num} (h : l.any Num.isNan = false) (inf : l.any Num.isInf = true) :
    maxMagnitude l = Fmt.f64.inf false := by
  rw [maxMagnitude_eq, if_neg (by simp [h])]
  obtain ⟨x, mem, isInf⟩ := List.any_eq_true.mp inf
  obtain ⟨-, -, -, -, above⟩ := largest_foldl l (by simpa using h) (.fin false 0 0) rfl rfl
  have top : (l.foldl largerOf (.fin false 0 0)).size = ⊤ := by
    refine top_le_iff.mp (le_trans (ge_of_eq ?_) (above x mem))
    cases x with
    | inf n => rfl
    | nan s => cases isInf
    | fin n m e => cases isInf
  generalize l.foldl largerOf (.fin false 0 0) = r at top
  cases r with
  | inf n => rfl
  | nan s => cases top
  | fin n m e => cases top

theorem maxMagnitude_fin {l : List Num} (h : l.any Num.isNan = false) (inf : l.any Num.isInf = false) {q : Num} (mem : q ∈ l)
    (largest : ∀ r ∈ l, q.abs.lt r.abs = false) : maxMagnitude l = (Fmt.f64.roundDy .rne q.abs.dy false).1 := by
  rw [maxMagnitude_eq, if_neg (by simp [h])]
  have nans : ∀ x ∈ l, x.isNan = false := by simpa using h
  have infs : ∀ x ∈ l, x.isInf = false := by simpa using inf
  obtain ⟨-, nonneg, origin, -, above⟩ := largest_foldl l nans (.fin false 0 0) rfl rfl
  generalize l.foldl largerOf (.fin false 0 0) = r at *
  have le : r.size ≤ q.size := by
    obtain rfl | ⟨x, hx, rfl⟩ := origin
    · simpa [Num.size, Num.abs, Num.dy, Dy.rat] using q.zero_le_size
    · rw [x.size_abs]
      exact not_lt.mp ((Num.lt_abs_iff (nans q mem) (nans x hx)).not.mp (by simp [largest x hx]))
  have same : r.size = q.size := le_antisymm le (above q mem)
  have qInf := infs q mem
  cases q with
  | nan s => cases nans _ mem
  | inf n => cases qInf
  | fin n m e =>
    cases r with
    | inf k => cases same
    | nan s => cases origin with
      | inl e => cases e
      | inr o =>
        obtain ⟨x, hx, e⟩ := o
        have := nans x hx
        rw [← x.isNan_abs, ← e] at this
        cases this
    | fin k a b =>
      rw [magnitudePattern]
      · rw [← nonneg]
        exact congrArg Prod.fst (Fmt.roundDy_congr _ _ _ (WithTop.coe_injective same))
      · exact fun _ h => nomatch h

end Sys2Proof.Machine
end

section
/-! SUPPORT. The working copy of a tile (R227) beside the matrix it stands for: what a write leaves, and folds of writes. -/

namespace Sys2Proof.Machine

/-! ### Unions of flags -/

theorem Flags.zero_or (f : Flags) : 0 ||| f = f := BitVec.zero_or

@[simp] theorem orAll_nil : orAll [] = 0#5 := rfl

@[simp] theorem orAll_cons (g : Flags) (l : List Flags) : orAll (g :: l) = g ||| orAll l := by
  have from_ : ∀ (l : List Flags) (f : Flags), l.foldl (· ||| ·) f = f ||| orAll l := by
    intro l
    induction l with
    | nil => simp [orAll]
    | cons g l ih =>
      intro f
      rw [orAll, List.foldl_cons, List.foldl_cons, ih, ih (0 ||| g), Flags.zero_or, BitVec.or_assoc]
  rw [orAll, List.foldl_cons, from_, Flags.zero_or]

theorem getLsbD_orAll (b : Nat) (l : List Flags) : (orAll l).getLsbD b = true ↔ ∃ g ∈ l, g.getLsbD b = true := by
  induction l with
  | nil => simp [orAll]
  | cons g l ih => simp [ih]

theorem raised_orAll (l : List Flags) : Claim.Raised (orAll l) l := fun b _ => getLsbD_orAll b l

@[simp] theorem orAll_append (l m : List Flags) : orAll (l ++ m) = orAll l ||| orAll m := by
  induction l with
  | nil => simp [orAll]
  | cons g l ih => simp [ih, BitVec.or_assoc]

theorem orAll_flatMap {α : Type} (f : α → List Flags) (l : List α) : orAll (l.flatMap f) = orAll (l.map (fun x => orAll (f x))) := by
  induction l with
  | nil => rfl
  | cons x l ih => simp [ih]

/-- The union of the flags g 0 to g (n − 1). -/
def orUpTo (n : Nat) (g : Nat → Flags) : Flags := orAll ((List.range n).map g)

@[simp] theorem orUpTo_zero (g : Nat → Flags) : orUpTo 0 g = 0 := rfl

theorem orUpTo_succ (n : Nat) (g : Nat → Flags) : orUpTo (n + 1) g = orUpTo n g ||| g n := by
  simp [orUpTo, List.range_succ, show orAll [] = 0 from rfl]

theorem orUpTo_congr {n : Nat} {g h : Nat → Flags} (same : ∀ k < n, g k = h k) : orUpTo n g = orUpTo n h :=
  congrArg orAll (List.map_congr_left fun k hk => same k (List.mem_range.mp hk))

/-! ### Folds -/

/-- What each step of a fold over 0 to n − 1 keeps stands at its end. -/
theorem foldl_range {β : Type} (P : Nat → β → Prop) {f : β → Nat → β} {b : β} (n : Nat) (start : P 0 b)
    (step : ∀ k < n, ∀ w, P k w → P (k + 1) (f w k)) : P n ((List.range n).foldl f b) := by
  induction n with
  | zero => exact start
  | succ n ih =>
    rw [List.range_succ, List.foldl_append]
    exact step n (Nat.lt_succ_self n) _ (ih fun k hk => step k (Nat.lt_succ_of_lt hk))

/-- The same over the entries of a list. -/
theorem foldl_entries {α β : Type} (P : Nat → β → Prop) {f : β → α → β} {b : β} (l : List α) (start : P 0 b)
    (step : ∀ k (h : k < l.length) w, P k w → P (k + 1) (f w l[k])) : P l.length (l.foldl f b) := by
  induction l using List.reverseRecOn with
  | nil => exact start
  | append_singleton l x ih =>
    have last := step l.length (by simp) (l.foldl f b) (ih fun k h w hw => by
      have entry := step k (by simp; omega) w hw
      rwa [List.getElem_append_left h] at entry)
    rw [List.getElem_concat_length rfl] at last
    rwa [List.foldl_append, List.length_append]

/-! ### Matrices -/

/-- A number reads the bits of its format alone. -/
theorem Fmt.value_mod (F : Fmt) (b : Nat) : F.value (b % 2 ^ F.width) = F.value b := by
  have shape : 2 ^ F.width = 2 ^ F.f * (2 ^ F.e * 2) := by rw [Fmt.width, ← pow_succ, ← pow_add]; congr 1; omega
  have low : b % 2 ^ F.width % 2 ^ F.f = b % 2 ^ F.f := by
    rw [shape, Nat.mod_mul_right_mod]
  have mid : b % 2 ^ F.width / 2 ^ F.f % 2 ^ F.e = b / 2 ^ F.f % 2 ^ F.e := by
    rw [shape, Nat.mod_mul_right_div_self, Nat.mod_mul_right_mod]
  have top : b % 2 ^ F.width / 2 ^ (F.e + F.f) % 2 = b / 2 ^ (F.e + F.f) % 2 := by
    rw [shape, ← mul_assoc, ← pow_add, Nat.add_comm F.f F.e, Nat.mod_mul_right_div_self, Nat.mod_mod]
  unfold Fmt.value
  rw [low, mid, top]

/-- A matrix with one element replaced. -/
def Mat.set (A : Claim.Mat) (i j v : Nat) : Claim.Mat := fun a b => if a = i ∧ b = j then v else A a b

/-- A working copy holds a matrix, and has raised some flags. -/
structure Work.Shows (w : Work) (F : Fmt) (A : Claim.Mat) (f : Flags) : Prop where
  width : w.width = F.width
  size : w.a.size = 256
  el : ∀ i < 16, ∀ j < 16, w.el i j = A i j % 2 ^ F.width
  flags : w.fl = f

section
variable {w : Work} {F : Fmt} {A B : Claim.Mat} {f g : Flags}

theorem Work.Shows.value (h : w.Shows F A f) {i j : Nat} (hi : i < 16) (hj : j < 16) : F.value (w.el i j) = F.value (A i j) := by
  rw [h.el i hi j hj, F.value_mod]

theorem Work.Shows.congr (h : w.Shows F A f) (same : ∀ i < 16, ∀ j < 16, A i j = B i j) (flags : f = g) : w.Shows F B g :=
  ⟨h.width, h.size, fun i hi j hj => by rw [h.el i hi j hj, same i hi j hj], h.flags.trans flags⟩

theorem Work.Shows.congr_mod (h : w.Shows F A f) (same : ∀ i < 16, ∀ j < 16, A i j % 2 ^ F.width = B i j % 2 ^ F.width) :
    w.Shows F B f :=
  ⟨h.width, h.size, fun i hi j hj => (h.el i hi j hj).trans (same i hi j hj), h.flags⟩

theorem Work.Shows.flag (h : w.Shows F A f) (g : Flags) : ({ w with fl := w.fl ||| g } : Work).Shows F A (f ||| g) :=
  ⟨h.width, h.size, h.el, congrArg (· ||| g) h.flags⟩

theorem Work.Shows.put (h : w.Shows F A f) {i j : Nat} (_ : i < 16) (hj : j < 16) (r : Nat × Flags) :
    (w.put i j r).Shows F (Mat.set A i j r.1) (f ||| r.2) := by
  refine ⟨h.width, ?_, fun a ha b hb => ?_, congrArg (· ||| r.2) h.flags⟩
  · rw [Work.put, Array.size_setIfInBounds, h.size]
  · have spot : 16 * i + j = 16 * a + b ↔ a = i ∧ b = j := by omega
    have old := h.el a ha b hb
    have room : 16 * a + b < w.a.size := by rw [h.size]; omega
    unfold Work.el Work.put at *
    rw [h.width] at old ⊢
    rw [Mat.set]
    by_cases same : a = i ∧ b = j
    · rw [if_pos same, Array.getD_eq_getD_getElem?, Array.getElem?_setIfInBounds, if_pos (spot.mpr same), spot.mpr same,
        if_pos room]
      rfl
    · rw [if_neg same, ← old, Array.getD_eq_getD_getElem?, Array.getElem?_setIfInBounds, if_neg (spot.not.mpr same),
        ← Array.getD_eq_getD_getElem?]

/-! ### Tiles -/

theorem Work.getD_of (F : Fmt) (t : Tile) {i j : Nat} (hi : i < 16) (hj : j < 16) :
    (Work.of F t).a.getD (16 * i + j) 0 = (t.el i j).toNat := by
  have room : 16 * i + j < 256 := by omega
  have row : (16 * i + j) / 16 = i := by omega
  have col : (16 * i + j) % 16 = j := by omega
  simp [Work.of, room, row, col]

/-- A copy of a tile holds the patterns of its elements. -/
theorem Work.shows_of (F : Fmt) (t : Tile) : (Work.of F t).Shows F (Claim.matOf F t) 0 := by
  refine ⟨rfl, by simp [Work.of], fun i hi j hj => ?_, rfl⟩
  rw [Work.el, Work.getD_of F t hi hj, Claim.matOf, accPattern, Nat.mod_mod]
  rfl

theorem Work.el_tile (w : Work) {i j : Nat} (hi : i < 16) (hj : j < 16) :
    w.tile.el i j = BitVec.ofNat 64 (w.a.getD (16 * i + j) 0) := Tile.el_of _ hi hj

/-- A tile of which no step has written anything keeps all its bits (R216). -/
theorem Work.el_tile_of (F : Fmt) (t : Tile) {i j : Nat} (hi : i < 16) (hj : j < 16) : (Work.of F t).tile.el i j = t.el i j := by
  rw [Work.el_tile _ hi hj, Work.getD_of F t hi hj, BitVec.ofNat_toNat, BitVec.setWidth_eq]

/-- The tile that a computation leaves holds its matrix. -/
theorem Work.Shows.pattern (h : w.Shows F A f) (narrow : F.width ≤ 64) {i j : Nat} (hi : i < 16) (hj : j < 16) :
    accPattern F (w.tile.el i j) = A i j % 2 ^ F.width := by
  rw [Work.el_tile _ hi hj, accPattern, BitVec.toNat_ofNat, Nat.mod_mod_of_dvd _ (pow_dvd_pow 2 narrow), ← h.el i hi j hj,
    Work.el, h.width]

theorem width_accFmt (af : BitVec 2) : (accFmt af).width ≤ 64 := by
  unfold accFmt
  split <;> decide

end

end Sys2Proof.Machine
end

section
/-! SUPPORT. GETRF (R228): the pivot, the exchange and the reduction of a step beside the matrices they stand for, and the run of
the steps. -/

namespace Sys2Proof.Machine

/-! ### The pivot -/

/-- A working copy that holds a matrix. -/
def Work.ofMat (F : Fmt) (A : Claim.Mat) : Work := ⟨((List.range 256).map (fun e => A (e / 16) (e % 16))).toArray, F.width, 0⟩

theorem Work.shows_ofMat (F : Fmt) (A : Claim.Mat) : (Work.ofMat F A).Shows F A 0 := by
  refine ⟨rfl, by simp [Work.ofMat], fun i hi j hj => ?_, rfl⟩
  have room : 16 * i + j < 256 := by omega
  have row : (16 * i + j) / 16 = i := by omega
  have col : (16 * i + j) % 16 = j := by omega
  simp [Work.el, Work.ofMat, room, row, col]

/-- The pivot row of a matrix at a step. -/
def pivotOf (F : Fmt) (A : Claim.Mat) (s : Nat) : Nat := pivotRow F (Work.ofMat F A) s

section
variable {w : Work} {F : Fmt} {A : Claim.Mat} {f : Flags} {s : Nat}

/-- The size of the candidate in row i of column s. -/
def candidateSize (F : Fmt) (A : Claim.Mat) (s i : Nat) : WithTop ℚ := (F.value (A i s)).size

/-- p is the lowest of the rows from s on, before row k, whose candidate is as large as any. -/
def LargestBefore (F : Fmt) (A : Claim.Mat) (s k p : Nat) : Prop :=
  s ≤ p ∧ p < 16 ∧ (p = s ∨ p < k) ∧ (∀ i, s ≤ i → i < k → candidateSize F A s i ≤ candidateSize F A s p) ∧
    ∀ i, s ≤ i → i < p → candidateSize F A s i < candidateSize F A s p

theorem pivotRow_isPivot (h : w.Shows F A f) (hs : s < 16) (nan : ∀ i, s ≤ i → i < 16 → (F.value (A i s)).isNan = false) :
    Claim.IsPivot F A s (pivotRow F w s) := by
  have lt {i j : Nat} (hi : s ≤ i) (hi' : i < 16) (hj : s ≤ j) (hj' : j < 16) :
      (F.value (A i s)).abs.lt (F.value (A j s)).abs = true ↔ candidateSize F A s i < candidateSize F A s j :=
    Num.lt_abs_iff (nan i hi hi') (nan j hj hj')
  obtain ⟨le, small, -, most, first⟩ : LargestBefore F A s 16 (pivotRow F w s) := by
    unfold pivotRow
    refine foldl_range _ 16 ⟨le_rfl, hs, .inl rfl, fun i _ hk => absurd hk (by omega), fun i hi hp => absurd hp (by omega)⟩ ?_
    rintro k hk p ⟨le, small, seen, most, first⟩
    rw [h.value small hs, h.value hk hs]
    split
    · next larger =>
      have size_lt := (lt le small (by omega) hk).mp larger.2
      refine ⟨by omega, hk, .inr (by omega), fun i hi hk' => ?_, fun i hi hk' => (most i hi hk').trans_lt size_lt⟩
      obtain rfl | before : i = k ∨ i < k := by omega
      · exact le_rfl
      · exact (most i hi before).trans size_lt.le
    · next not =>
      refine ⟨le, small, by omega, fun i hi hk' => ?_, first⟩
      obtain rfl | before : i = k ∨ i < k := by omega
      · by_cases here : i = s
        · rw [show p = i by omega]
        · exact not_lt.mp fun l => not ⟨by omega, (lt le small hi hk).mpr l⟩
      · exact most i hi before
  refine ⟨le, small, fun i hi hi' => ?_, fun i hi hp => (lt hi (by omega) le small).mpr (first i hi hp)⟩
  exact Bool.eq_false_iff.mpr ((lt le small hi hi').not.mpr (not_lt.mpr (most i hi hi')))

/-- A column has one pivot row. -/
theorem isPivot_unique {p q : Nat} (hp : Claim.IsPivot F A s p) (hq : Claim.IsPivot F A s q) : p = q := by
  obtain ⟨leP, smallP, mostP, firstP⟩ := hp
  obtain ⟨leQ, smallQ, mostQ, firstQ⟩ := hq
  obtain before | same | after := lt_trichotomy p q
  · exact absurd (firstQ p leP before) (by rw [mostP q leQ smallQ]; decide)
  · exact same
  · exact absurd (firstP q leQ after) (by rw [mostQ p leP smallP]; decide)

theorem pivotRow_eq (h : w.Shows F A f) (hs : s < 16) (nan : ∀ i, s ≤ i → i < 16 → (F.value (A i s)).isNan = false) :
    pivotRow F w s = pivotOf F A s :=
  isPivot_unique (pivotRow_isPivot h hs nan) (pivotRow_isPivot (Work.shows_ofMat F A) hs nan)

/-! ### The exchange and the reduction -/

theorem swapRows_shows (h : w.Shows F A f) {p : Nat} (hs : s < 16) (hp : p < 16) (ne : s ≠ p) :
    (swapRows w s p).Shows F (Claim.exchanged s p A) f := by
  refine (foldl_range (fun k (v : Work) => v.Shows F (fun i j => if j < k then Claim.exchanged s p A i j else A i j) f) 16 h
    fun k hk v hv => ?_).congr (fun i hi j hj => if_pos hj) rfl
  rw [h.el p hp k hk, h.el s hs k hk]
  refine (((hv.put hs hk _).put hp hk _).congr (g := f) (fun _ _ _ _ => rfl) (by simp)).congr_mod fun i hi j hj => ?_
  simp only [Mat.set, Claim.exchanged]
  by_cases here : j = k
  · subst here
    by_cases top : i = s
    · simp [top, ne]
    · by_cases low : i = p <;> simp [top, low, ne.symm]
  · have step : j < k + 1 ↔ j < k := by omega
    simp [here, step]

theorem exchanged_self (s : Nat) (A : Claim.Mat) : Claim.exchanged s s A = A := by
  funext i j
  unfold Claim.exchanged
  split
  · next same => rw [same]
  · rfl

/-- Row i of step s, as R228 has it, and the other rows as they stand. -/
def luRow (F : Fmt) (rm : Rm) (s i : Nat) (A : Claim.Mat) : Claim.Mat := fun a j =>
  if a = i then Claim.luStep F rm s A i j else A a j

/-- The flags of one row of a step. -/
def luRowFlags (F : Fmt) (rm : Rm) (s : Nat) (A : Claim.Mat) (i : Nat) : Flags :=
  if i ≤ s then 0 else (Claim.luFactor F rm s A i).2 |||
    orUpTo 16 (fun j => if j ≤ s then 0 else (Claim.luUpdate F rm s A i j).2)

theorem luStep_congr {B : Claim.Mat} {rm : Rm} {i : Nat} (hi : A i = B i) (hs : A s = B s) :
    Claim.luStep F rm s A i = Claim.luStep F rm s B i := by
  funext j
  simp only [Claim.luStep, Claim.luUpdate, Claim.luFactor, hi, hs]

theorem luRowFlags_congr {B : Claim.Mat} {rm : Rm} {i : Nat} (hi : A i = B i) (hs : A s = B s) :
    luRowFlags F rm s A i = luRowFlags F rm s B i := by
  simp only [luRowFlags, Claim.luUpdate, Claim.luFactor, hi, hs]

theorem eliminate_shows (h : w.Shows F A f) (rm : Rm) {i : Nat} (hs : s < 16) (hi : i < 16) :
    (eliminate F rm s w i).Shows F (luRow F rm s i A) (f ||| luRowFlags F rm s A i) := by
  unfold eliminate luRowFlags
  split
  · next above =>
    refine h.congr (fun a ha j hj => ?_) (by simp)
    simp only [luRow, Claim.luStep, above, true_or, if_true]
    split
    · next same => rw [same]
    · rfl
  · next below =>
    have factor : F.divP rm (w.el i s) (w.el s s) = Claim.luFactor F rm s A i := by
      rw [Fmt.divP, h.value hi hs, h.value hs hs]
      rfl
    rw [factor, ← BitVec.or_assoc]
    refine (foldl_range (fun k (v : Work) => v.Shows F
      (fun a j => if a = i ∧ (j ≤ s ∨ j < k) then Claim.luStep F rm s A i j else A a j)
      (f ||| (Claim.luFactor F rm s A i).2 ||| orUpTo k (fun j => if j ≤ s then 0 else (Claim.luUpdate F rm s A i j).2)))
      16 ?_ ?_).congr (fun a ha j hj => ?_) rfl
    · refine (h.put hi hs _).congr (fun a ha j hj => ?_) (by simp)
      simp only [Mat.set, Claim.luStep]
      grind
    · intro k hk v hv
      rw [orUpTo_succ, ← BitVec.or_assoc]
      split
      · next left =>
        refine hv.congr (fun a ha j hj => ?_) (by simp)
        have step : (j ≤ s ∨ j < k + 1) ↔ (j ≤ s ∨ j < k) := by omega
        simp only [step]
      · next right =>
        have update : F.fms rm (v.el i k) (Claim.luFactor F rm s A i).1 (v.el s k) = Claim.luUpdate F rm s A i k := by
          have self : ¬ (i = i ∧ (k ≤ s ∨ k < k)) := by omega
          have other : ¬ (s = i ∧ (k ≤ s ∨ k < k)) := by omega
          rw [Fmt.fms, hv.value hi hk, hv.value hs hk, if_neg self, if_neg other]
          rfl
        rw [update]
        refine (hv.put hi hk _).congr (fun a ha j hj => ?_) rfl
        simp only [Mat.set, Claim.luStep]
        grind
    · simp only [luRow, hj, or_true, and_true]

/-- The first k rows of B above the others of A. -/
def Mat.rowsBelow (k : Nat) (B A : Claim.Mat) : Claim.Mat := fun i j => if i < k then B i j else A i j

/-- A step of R228 after its exchange. -/
theorem luStep_shows (h : w.Shows F A f) (rm : Rm) (hs : s < 16) :
    ((List.range 16).foldl (eliminate F rm s) w).Shows F (Claim.luStep F rm s A) (f ||| orAll (Claim.luFlags F rm s A)) := by
  have flags : orAll (Claim.luFlags F rm s A) = orUpTo 16 (luRowFlags F rm s A) := by
    rw [Claim.luFlags, orAll_flatMap]
    refine orUpTo_congr fun i _ => ?_
    unfold luRowFlags
    split
    · rfl
    · exact orAll_cons _ _
  rw [flags]
  refine (foldl_range (fun k (v : Work) => v.Shows F (Mat.rowsBelow k (Claim.luStep F rm s A) A)
    (f ||| orUpTo k (luRowFlags F rm s A))) 16 ?_ ?_).congr (fun i hi j hj => if_pos hi) rfl
  · exact h.congr (fun _ _ _ _ => rfl) (by simp)
  · intro k hk v hv
    -- The reduction of row k reads that row and row s, and neither has changed.
    have rowK : Mat.rowsBelow k (Claim.luStep F rm s A) A k = A k := funext fun j => if_neg (lt_irrefl k)
    have rowS : Mat.rowsBelow k (Claim.luStep F rm s A) A s = A s := by
      funext j
      simp [Mat.rowsBelow, Claim.luStep]
    have values := luStep_congr (F := F) (rm := rm) rowK rowS
    have row := luRowFlags_congr (F := F) (rm := rm) rowK rowS
    rw [orUpTo_succ, ← BitVec.or_assoc, ← row]
    refine (eliminate_shows hv rm hs hk).congr (fun i hi j hj => ?_) rfl
    rw [luRow, values]
    unfold Mat.rowsBelow
    grind

end

end Sys2Proof.Machine
end

section
/-! SUPPORT. The run of GETRF's steps (R228, R229): where it ends, what the tile, PIV and the flags hold then. -/

namespace Sys2Proof.Machine

/-! ### Bytes of PIV -/

theorem putPiv_byte (piv : BitVec 128) {s j v : Nat} (hs : s < 16) (hj : j < 16) (hv : v < 256) :
    (putPiv piv s v).extractLsb' (8 * j) 8 = if j = s then BitVec.ofNat 8 v else piv.extractLsb' (8 * j) 8 := by
  refine BitVec.eq_of_getLsbD_eq fun b hb => ?_
  have ones : (0xFF#128).getLsbD (8 * j + b - 8 * s) = decide (8 * j + b - 8 * s < 8) := by
    rw [show 0xFF#128 = (BitVec.allOnes 8).setWidth 128 by decide, BitVec.getLsbD_setWidth, BitVec.getLsbD_allOnes]
    simp; omega
  have value : (BitVec.ofNat 128 v).getLsbD (8 * j + b - 8 * s) =
      (decide (8 * j + b - 8 * s < 8) && v.testBit (8 * j + b - 8 * s)) := by
    rw [BitVec.getLsbD_ofNat]
    by_cases low : 8 * j + b - 8 * s < 8
    · simp [low]; omega
    · have zero : v.testBit (8 * j + b - 8 * s) = false :=
        Nat.testBit_lt_two_pow (lt_of_lt_of_le hv (Nat.pow_le_pow_right (n := 2) (i := 8) (by decide) (by omega)))
      simp [zero]
  simp only [putPiv, BitVec.getLsbD_extractLsb', BitVec.getLsbD_or, BitVec.getLsbD_and, BitVec.getLsbD_not,
    BitVec.getLsbD_shiftLeft, ones, value]
  have room : 8 * j + b < 128 := by omega
  obtain before | rfl | after := lt_trichotomy j s
  · have out : 8 * j + b < 8 * s := by omega
    simp [hb, room, out, before.ne]
  · simp only [hb, room, Nat.add_sub_cancel_left, decide_true, Bool.true_and, Bool.not_true, Bool.and_false, Bool.false_or,
      Nat.not_lt.mpr (Nat.le_add_right _ _), decide_false, Bool.not_false, if_true]
    rw [BitVec.getLsbD_ofNat, decide_eq_true hb, Bool.true_and]
  · have out : ¬ 8 * j + b < 8 * s := by omega
    have past : ¬ 8 * j + b - 8 * s < 8 := by omega
    simp [hb, room, out, past, after.ne']

/-- Byte j of a word of 16 bytes. -/
def byteOf (x : BitVec 128) (j : Nat) : Nat := (x.extractLsb' (8 * j) 8).toNat

theorem byteOf_putPiv (piv : BitVec 128) {s j v : Nat} (hs : s < 16) (hj : j < 16) (hv : v < 256) :
    byteOf (putPiv piv s v) j = if j = s then v else byteOf piv j := by
  unfold byteOf
  rw [putPiv_byte piv hs hj hv]
  split
  · rw [BitVec.toNat_ofNat, Nat.mod_eq_of_lt hv]
  · rfl

theorem drop_range (s : Nat) : (List.range 16).drop s = List.range' s (16 - s) := by
  rw [List.range_eq_range', List.drop_range']
  simp

theorem mem_drop_range {s i : Nat} : i ∈ (List.range 16).drop s ↔ s ≤ i ∧ i < 16 := by
  rw [drop_range, List.mem_range'_1]
  omega

/-- PIV with the bytes from s on at 0xFF. -/
theorem byteOf_fill (piv : BitVec 128) (s : Nat) {j : Nat} (hj : j < 16) :
    byteOf (((List.range 16).drop s).foldl (fun p t => putPiv p t 0xFF) piv) j = if s ≤ j then 0xFF else byteOf piv j := by
  have fill : ∀ (l : List Nat) (p : BitVec 128), (∀ t ∈ l, t < 16) →
      byteOf (l.foldl (fun p t => putPiv p t 0xFF) p) j = if j ∈ l then 0xFF else byteOf p j := by
    intro l
    induction l with
    | nil => exact fun p _ => rfl
    | cons t l ih =>
      intro p small
      obtain ⟨ht, hl⟩ := List.forall_mem_cons.mp small
      rw [List.foldl_cons, ih _ hl, byteOf_putPiv p ht hj (by decide)]
      by_cases here : j = t <;> simp [here]
  rw [fill _ _ fun t ht => (mem_drop_range.mp ht).2]
  simp [mem_drop_range, hj]

/-! ### The matrices of a run -/

/-- The matrix before step j of a run that begins at step s with A. -/
def stepsFrom (step : Nat → Claim.Mat → Claim.Mat) (s : Nat) (A : Claim.Mat) : Nat → Claim.Mat
  | 0 => A
  | j + 1 => if j < s then A else step j (stepsFrom step s A j)

theorem stepsFrom_start (step : Nat → Claim.Mat → Claim.Mat) (s : Nat) (A : Claim.Mat) : stepsFrom step s A s = A := by
  cases s with
  | zero => rfl
  | succ s => exact if_pos (Nat.lt_succ_self s)

theorem stepsFrom_succ (step : Nat → Claim.Mat → Claim.Mat) {s j : Nat} (A : Claim.Mat) (h : s ≤ j) :
    stepsFrom step s A (j + 1) = step j (stepsFrom step s A j) := if_neg (not_lt.mpr h)

/-- The flags of the steps s to e − 1. -/
def flagsOf (g : Nat → List Flags) (s e : Nat) : Flags := orAll ((List.range' s (e - s)).flatMap g)

@[simp] theorem flagsOf_self (g : Nat → List Flags) (s : Nat) : flagsOf g s s = 0 := by simp [flagsOf, orAll]

theorem flagsOf_first (g : Nat → List Flags) {s e : Nat} (h : s < e) : flagsOf g s e = orAll (g s) ||| flagsOf g (s + 1) e := by
  have split : e - s = (e - (s + 1)) + 1 := by omega
  rw [flagsOf, split, List.range'_succ, List.flatMap_cons, orAll_append]
  rfl

/-! ### The steps of GETRF -/

/-- The matrix that step j reduces: with the pivot's row exchanged. -/
def luPivoted (F : Fmt) (j : Nat) (A : Claim.Mat) : Claim.Mat := Claim.exchanged j (pivotOf F A j) A

/-- The matrices of GETRF's run. -/
def luMats (F : Fmt) (rm : Rm) : Nat → Claim.Mat → Nat → Claim.Mat :=
  stepsFrom (fun j A => Claim.luStep F rm j (luPivoted F j A))

theorem luMats_succ {F : Fmt} {rm : Rm} {s j : Nat} (A : Claim.Mat) (h : s ≤ j) :
    luMats F rm s A (j + 1) = Claim.luStep F rm j (luPivoted F j (luMats F rm s A j)) := stepsFrom_succ _ A h

/-- No candidate of step j is a NaN, and one is not ±0. -/
def LuSound (F : Fmt) (A : Claim.Mat) (j : Nat) : Prop :=
  (∀ i, j ≤ i → i < 16 → (F.value (A i j)).isNan = false) ∧ ∃ i, j ≤ i ∧ i < 16 ∧ (F.value (A i j)).isZero = false

/-- Step j breaks down for a cause of Table 9.9. -/
def LuBreaks (F : Fmt) (A : Claim.Mat) (j cause : Nat) : Prop :=
  (∃ i, j ≤ i ∧ i < 16 ∧ (F.value (A i j)).isNan = true) ∧ cause = 2 ∨
    (∀ i, j ≤ i → i < 16 → (F.value (A i j)).isZero = true) ∧ cause = 1

/-- The run of GETRF from step s on ends at step e. -/
structure LuRun (F : Fmt) (rm : Rm) (M : Nat → Claim.Mat) (s e : Nat) (w : Work) (f : Flags) (piv : BitVec 128)
    (r : Work × BitVec 128 × Option (Nat × Nat)) : Prop where
  start : s ≤ e
  stop : e ≤ 16
  sound : ∀ j, s ≤ j → j < e → LuSound F (M j) j
  tile : r.1.Shows F (M e) (f ||| flagsOf (fun j => Claim.luFlags F rm j (luPivoted F j (M j))) s e)
  kept : e = s → r.1 = w
  piv : ∀ j < 16, byteOf r.2.1 j = if s ≤ j ∧ j < e then pivotOf F (M j) j else byteOf piv j
  ends : e = 16 ∧ r.2.2 = none ∨ e < 16 ∧ ∃ cause, r.2.2 = some (cause, e) ∧ LuBreaks F (M e) e cause

section
variable {w : Work} {F : Fmt} {rm : Rm} {A : Claim.Mat} {f : Flags} {s : Nat}

/-- The candidates of a step. -/
def candidates (F : Fmt) (w : Work) (s : Nat) : List Num := ((List.range 16).drop s).map (fun i => F.value (w.el i s))

theorem mem_candidates (h : w.Shows F A f) (hs : s < 16) {x : Num} :
    x ∈ candidates F w s ↔ ∃ i, s ≤ i ∧ i < 16 ∧ F.value (A i s) = x := by
  simp only [candidates, List.mem_map, mem_drop_range]
  constructor
  · rintro ⟨i, ⟨le, small⟩, rfl⟩
    exact ⟨i, le, small, (h.value small hs).symm⟩
  · rintro ⟨i, le, small, rfl⟩
    exact ⟨i, ⟨le, small⟩, h.value small hs⟩

theorem luSteps_cons (F : Fmt) (rm : Rm) (s : Nat) (ss : List Nat) (w : Work) (piv : BitVec 128) :
    luSteps F rm (s :: ss) w piv =
      if (candidates F w s).any Num.isNan then (w, piv, some (2, s))
      else if (candidates F w s).all Num.isZero then (w, piv, some (1, s))
      else luSteps F rm ss ((List.range 16).foldl (eliminate F rm s)
          (if pivotRow F w s = s then w else swapRows w s (pivotRow F w s))) (putPiv piv s (pivotRow F w s)) := rfl

/-- A step at which the run breaks down changes nothing. -/
theorem luRun_break {M : Nat → Claim.Mat} {piv : BitVec 128} {cause : Nat} (h : w.Shows F (M s) f) (hs : s < 16)
    (breaks : LuBreaks F (M s) s cause) : LuRun F rm M s s w f piv (w, piv, some (cause, s)) where
  start := le_rfl
  stop := hs.le
  sound _ hj hj' := absurd hj (not_le.mpr hj')
  tile := h.congr (fun _ _ _ _ => rfl) (by simp)
  kept _ := rfl
  piv j _ := (if_neg (by omega)).symm
  ends := .inr ⟨hs, cause, rfl, breaks⟩

theorem exchange_shows (h : w.Shows F A f) (hs : s < 16) {p : Nat} (hp : p < 16) :
    (if p = s then w else swapRows w s p).Shows F (Claim.exchanged s p A) f := by
  split
  · next same => rwa [same, exchanged_self]
  · next ne => exact swapRows_shows h hs hp (Ne.symm ne)

theorem luSteps_run (s₀ : Nat) (A : Claim.Mat) : ∀ (n s : Nat) (w : Work) (f : Flags) (piv : BitVec 128), s + n = 16 → s₀ ≤ s →
    w.Shows F (luMats F rm s₀ A s) f → ∃ e, LuRun F rm (luMats F rm s₀ A) s e w f piv (luSteps F rm (List.range' s n) w piv) := by
  intro n
  induction n with
  | zero =>
    intro s w f piv end_ _ h
    refine ⟨s, le_rfl, by omega, fun j hj hj' => absurd hj (by omega), h.congr (fun _ _ _ _ => rfl) (by simp), fun _ => rfl,
      fun j _ => (if_neg (by omega)).symm, .inl ⟨end_, rfl⟩⟩
  | succ n ih =>
    intro s w f piv end_ begun h
    have hs : s < 16 := by omega
    rw [List.range'_succ, luSteps_cons]
    split
    · next nan =>
      obtain ⟨x, mem, isNan⟩ := List.any_eq_true.mp nan
      obtain ⟨i, le, small, rfl⟩ := (mem_candidates h hs).mp mem
      exact ⟨s, luRun_break h hs (.inl ⟨⟨i, le, small, isNan⟩, rfl⟩)⟩
    split
    · next zero =>
      exact ⟨s, luRun_break h hs (.inr ⟨fun i le small =>
        List.all_eq_true.mp zero _ ((mem_candidates h hs).mpr ⟨i, le, small, rfl⟩), rfl⟩)⟩
    · next nan zero =>
      have noNan (i : Nat) (le : s ≤ i) (small : i < 16) : (F.value (luMats F rm s₀ A s i s)).isNan = false :=
        Bool.eq_false_iff.mpr fun isNan =>
          nan (List.any_eq_true.mpr ⟨_, (mem_candidates h hs).mpr ⟨i, le, small, rfl⟩, isNan⟩)
      have sound : LuSound F (luMats F rm s₀ A s) s := by
        refine ⟨noNan, ?_⟩
        by_contra none
        refine zero (List.all_eq_true.mpr fun x mem => ?_)
        obtain ⟨i, le, small, rfl⟩ := (mem_candidates h hs).mp mem
        by_contra isZero
        exact none ⟨i, le, small, Bool.eq_false_iff.mpr isZero⟩
      have pivot := pivotRow_eq h hs noNan
      obtain ⟨-, small, -, -⟩ := pivotRow_isPivot h hs noNan
      have step := luStep_shows (exchange_shows h hs small) rm hs
      rw [pivot] at small step ⊢
      rw [show Claim.luStep F rm s (Claim.exchanged s (pivotOf F (luMats F rm s₀ A s) s) (luMats F rm s₀ A s)) =
        luMats F rm s₀ A (s + 1) from (luMats_succ A begun).symm] at step
      obtain ⟨e, start, stop, sounds, tile, -, pivs, ends⟩ := ih (s + 1) _ _ (putPiv piv s (pivotOf F (luMats F rm s₀ A s) s))
        (by omega) (by omega) step
      refine ⟨e, by omega, stop, fun j hj hj' => ?_, tile.congr (fun _ _ _ _ => rfl) ?_, fun here => absurd start (by omega),
        fun j hj => ?_, ends⟩
      · obtain rfl | later : j = s ∨ s + 1 ≤ j := by omega
        · exact sound
        · exact sounds j later hj'
      · rw [flagsOf_first _ (by omega : s < e), BitVec.or_assoc]
        rfl
      · rw [pivs j hj, byteOf_putPiv piv hs hj (by omega)]
        by_cases here : j = s
        · rw [here, if_neg (by omega), if_pos rfl, if_pos (by omega)]
        · have same : (s + 1 ≤ j ∧ j < e) ↔ (s ≤ j ∧ j < e) := by omega
          simp only [here, if_false, same]

end

end Sys2Proof.Machine
end

section
/-! SUPPORT. GETRF completes (R228, R229). -/

namespace Sys2Proof.Machine

/-- The value that BRK held at issue (Table 9.9). -/
def brkValue (b : BitVec 128) : Nat := b.toNat / 2 ^ 64 % 2 ^ 64

theorem toNat_extract (x : BitVec 128) (s n : Nat) : (x.extractLsb' s n).toNat = x.toNat / 2 ^ s % 2 ^ n := by
  rw [BitVec.extractLsb'_toNat, Nat.shiftRight_eq_div_pow]

theorem ArrayOp.start_eq (a : ArrayOp) (res : Bool) : a.start res = if res then a.brk.toNat / 2 ^ 16 % 2 ^ 8 else 0 := by
  simp only [ArrayOp.start, brkCol, toNat_extract]

/-- The largest magnitude of some elements of a matrix, which stand by their place in rows of 16. -/
def largestOf (F : Fmt) (A : Claim.Mat) (l : List Nat) : Nat := maxMagnitude (l.map (fun q => F.value (A (q / 16) (q % 16))))

theorem Work.Shows.largest {w : Work} {F : Fmt} {A : Claim.Mat} {f : Flags} (h : w.Shows F A f) {l : List Nat}
    (small : ∀ q ∈ l, q < 256) : maxMagnitude (l.map (fun q => F.value (w.el (q / 16) (q % 16)))) = largestOf F A l := by
  refine congrArg maxMagnitude (List.map_congr_left fun q hq => h.value ?_ ?_)
  · have := small q hq
    omega
  · exact Nat.mod_lt _ (by decide)

/-- What growth is measured against: the value that BRK holds, or the largest magnitude of the tile. -/
def luBase (F : Fmt) (a : ArrayOp) (res : Bool) (A : Claim.Mat) : Nat :=
  if res then brkValue a.brk else largestOf F A (List.range 256)

/-- GF (R228). -/
def luGrowth (F : Fmt) (A : Claim.Mat) (m : Nat) : Nat :=
  (Fmt.f64.div .rne (Fmt.f64.value (largestOf F A ((List.range 256).filter (fun q => q / 16 ≤ q % 16)))) (Fmt.f64.value m)).1

/-- What GETRF leaves of its context, but for the flags. -/
def Ctx.afterLu (x : Ctx) (k : BitVec 3) (y : Tile) (piv : BitVec 128) (g : DWord) (b : BitVec 128) : Ctx :=
  { x with k := SMap.setD [] x.k k.toNat y, piv := piv, gf := g, brk := b }

section
variable (x : Ctx) (a : ArrayOp) (k : BitVec 3) (res : Bool)

/-- The steps of a GETRF on the tile that it finds. -/
def Ctx.luOutcome : Work × BitVec 128 × Option (Nat × Nat) :=
  luSteps (accFmt a.af) (Rm.of a.rm) ((List.range 16).drop (a.start res)) (Work.of (accFmt a.af) (x.tile k))
    (if res then x.piv else BitVec.allOnes 128)

/-- PIV as GETRF leaves it: the steps from its end on have no pivot. -/
def filledPiv (e : Nat) (piv : BitVec 128) : BitVec 128 := ((List.range 16).drop e).foldl (fun p t => putPiv p t 0xFF) piv

theorem Ctx.runGetrf_done {w : Work} {piv : BitVec 128} (h : x.luOutcome a k res = (w, piv, none)) {A B : Claim.Mat}
    {f : Flags} (tile : w.Shows (accFmt a.af) A f) (first : B = Claim.matOf (accFmt a.af) (x.tile k)) : x.runGetrf a k res =
      (Claim.flagged (x.afterLu k w.tile (filledPiv 16 piv) (BitVec.ofNat 64 (luGrowth (accFmt a.af) A
        (luBase (accFmt a.af) a res B))) 0) k (f.setWidth 6), Claim.enabledFaults a f) := by
  have start := (Work.shows_of (accFmt a.af) (x.tile k)).largest (l := List.range 256) fun q hq => List.mem_range.mp hq
  have upper := tile.largest (l := (List.range 256).filter (fun q => q / 16 ≤ q % 16)) fun q hq =>
    List.mem_range.mp (List.mem_of_mem_filter hq)
  unfold Ctx.luOutcome at h
  unfold Ctx.runGetrf
  dsimp only
  rw [h]
  dsimp only
  rw [Ctx.arrayFlags_eq, start, upper, toNat_extract, tile.flags, first]
  rfl

theorem Ctx.runGetrf_broken {w : Work} {piv : BitVec 128} {cause s : Nat} (h : x.luOutcome a k res = (w, piv, some (cause, s)))
    {A B : Claim.Mat} {f : Flags} (tile : w.Shows (accFmt a.af) A f) (first : B = Claim.matOf (accFmt a.af) (x.tile k)) :
    let b := brkRecord cause s s k (luBase (accFmt a.af) a res B)
    x.runGetrf a k res =
      (Claim.flagged (x.afterLu k w.tile (filledPiv s piv) x.gf b) k (f.setWidth 6),
        (if cause = 1 then 0x15#8 else 0x16, b) :: Claim.enabledFaults a f) := by
  have start := (Work.shows_of (accFmt a.af) (x.tile k)).largest (l := List.range 256) fun q hq => List.mem_range.mp hq
  unfold Ctx.luOutcome at h
  unfold Ctx.runGetrf
  dsimp only
  rw [h]
  dsimp only
  rw [Ctx.arrayFlags_eq, start, toNat_extract, tile.flags, first]
  rfl

/-- The run of a GETRF. -/
theorem Ctx.luOutcome_run {s : Nat} (from_ : a.start res = s) (hs : s < 16) : ∃ e, LuRun (accFmt a.af) (Rm.of a.rm)
    (luMats (accFmt a.af) (Rm.of a.rm) s (Claim.matOf (accFmt a.af) (x.tile k))) s e
    (Work.of (accFmt a.af) (x.tile k)) 0 (if res then x.piv else BitVec.allOnes 128) (x.luOutcome a k res) := by
  rw [Ctx.luOutcome, from_, drop_range]
  refine luSteps_run _ _ _ _ _ _ _ (by omega) le_rfl ?_
  rw [luMats, stepsFrom_start]
  exact Work.shows_of _ _

end

end Sys2Proof.Machine
end

section
/-! SUPPORT. POTRF (R230): a column beside the matrices it stands for, and the run of the columns. -/

namespace Sys2Proof.Machine

/-! ### Sums of products -/

section
variable {w : Work} {F : Fmt} {rm : Rm} {A : Claim.Mat} {f : Flags}

theorem Fmt.value_of_mod {a b : Nat} (h : a % 2 ^ F.width = b % 2 ^ F.width) : F.value a = F.value b := by
  rw [← F.value_mod a, h, F.value_mod]

/-- A number less some products, by a fold. -/
def lessProducts (F : Fmt) (rm : Rm) (p q : Nat → Nat) (n t : Nat) : Nat × Flags :=
  (List.range n).foldl (fun r k => let x := F.fms rm r.1 (p k) (q k); (x.1, r.2 ||| x.2)) (t, 0)

theorem reduceBy_eq (F : Fmt) (rm : Rm) (w : Work) (i i' n t : Nat) :
    reduceBy F rm w i i' n t = lessProducts F rm (w.el i) (w.el i') n t := rfl

/-- A number less some products is what R230 and R231 name, on the patterns' own bits. -/
theorem lessProducts_descend {p q x y : Nat → Nat} {n t t' : Nat} (hx : ∀ k < n, F.value (p k) = F.value (x k))
    (hy : ∀ k < n, F.value (q k) = F.value (y k)) (ht : t % 2 ^ F.width = t' % 2 ^ F.width) :
    (lessProducts F rm p q n t).2 = (Claim.descend F rm x y t' n).2 ∧
      (lessProducts F rm p q n t).1 % 2 ^ F.width = (Claim.descend F rm x y t' n).1 % 2 ^ F.width := by
  refine foldl_range (fun k (r : Nat × Flags) => r.2 = (Claim.descend F rm x y t' k).2 ∧
    r.1 % 2 ^ F.width = (Claim.descend F rm x y t' k).1 % 2 ^ F.width) n ⟨rfl, ht⟩ ?_
  rintro k hk r ⟨flags, value⟩
  have step : F.fms rm r.1 (p k) (q k) =
      F.fma rm (F.value (x k)).negate (F.value (y k)) (F.value (Claim.descend F rm x y t' k).1) := by
    rw [Fmt.fms, hx k hk, hy k hk, Fmt.value_of_mod value]
  dsimp only
  rw [step, flags]
  exact ⟨rfl, rfl⟩

/-! ### A column -/

/-- Column j of A below the diagonal as R230 has it, down to row k − 1. -/
def cholUpTo (F : Fmt) (rm : Rm) (j k : Nat) (A : Claim.Mat) : Claim.Mat := fun i c =>
  if c = j ∧ j < i ∧ i < k then (Claim.cholBelow F rm A j i).1 else A i c

/-- The part of column j below the diagonal. -/
def cholColumn (F : Fmt) (rm : Rm) (j : Nat) (dg : Nat) (v : Work) (i : Nat) : Work :=
  if i ≤ j then v
  else
    let u := reduceBy F rm v i j j (v.el i j)
    let q := F.divP rm u.1 dg
    v.put i j (q.1, u.2 ||| q.2)

theorem cholPivot_eq (h : w.Shows F A f) {j : Nat} (hj : j < 16) :
    (reduceBy F rm w j j j (w.el j j)).2 = (Claim.cholPivot F rm A j).2 ∧
      (reduceBy F rm w j j j (w.el j j)).1 % 2 ^ F.width = (Claim.cholPivot F rm A j).1 % 2 ^ F.width :=
  lessProducts_descend (fun k hk => h.value hj (by omega)) (fun k hk => h.value hj (by omega))
    (by rw [h.el j hj j hj, Nat.mod_mod])

theorem cholColumn_shows (h : w.Shows F A f) {j : Nat} (hj : j < 16) :
    ((List.range 16).foldl (cholColumn F rm j (Claim.cholRoot F rm A j).1) w).Shows F (cholUpTo F rm j 16 A)
      (f ||| orUpTo 16 (fun i => if i ≤ j then 0 else (Claim.cholBelow F rm A j i).2)) := by
  refine foldl_range (fun k (v : Work) => v.Shows F (cholUpTo F rm j k A)
    (f ||| orUpTo k (fun i => if i ≤ j then 0 else (Claim.cholBelow F rm A j i).2))) 16 ?_ ?_
  · exact h.congr (fun i _ c _ => by simp [cholUpTo]) (by simp)
  intro k hk v hv
  rw [orUpTo_succ, ← BitVec.or_assoc]
  unfold cholColumn
  split
  · next above =>
    refine hv.congr (fun i hi c hc => ?_) (by simp)
    have same : (c = j ∧ j < i ∧ i < k + 1) ↔ (c = j ∧ j < i ∧ i < k) := by omega
    simp only [cholUpTo, same]
  · next below =>
    -- Left of column j nothing has changed, nor has row k.
    have left (i c : Nat) (hi : i < 16) (hc : c < j) : F.value (v.el i c) = F.value (A i c) := by
      rw [hv.value hi (by omega), cholUpTo, if_neg (by omega)]
    have here : v.el k j % 2 ^ F.width = A k j % 2 ^ F.width := by
      rw [hv.el k hk j hj, Nat.mod_mod, cholUpTo, if_neg (by omega)]
    obtain ⟨flags, value⟩ := lessProducts_descend (rm := rm) (fun c hc => left k c hk hc) (fun c hc => left j c hj hc) here
    dsimp only
    rw [reduceBy_eq, flags, Fmt.divP, Fmt.value_of_mod value]
    refine (hv.put hk hj _).congr (fun i hi c hc => ?_) rfl
    simp only [Mat.set, cholUpTo]
    by_cases spot : i = k ∧ c = j
    · obtain ⟨rfl, rfl⟩ := spot
      rw [if_pos ⟨rfl, rfl⟩, if_pos (by omega)]
      rfl
    · have same : (c = j ∧ j < i ∧ i < k + 1) ↔ (c = j ∧ j < i ∧ i < k) := by omega
      simp only [spot, same, if_false]

/-- A column is zero above the diagonal. -/
theorem clearAbove_shows (h : w.Shows F A f) {j : Nat} (hj : j < 16) :
    ((List.range j).foldl (fun v i => v.put i j (0, 0)) w).Shows F (fun i c => if c = j ∧ i < j then 0 else A i c) f := by
  refine foldl_range (fun k (v : Work) => v.Shows F (fun i c => if c = j ∧ i < k then 0 else A i c) f) j ?_ ?_
  · exact h.congr (fun i _ c _ => by simp) rfl
  · intro k hk v hv
    refine (hv.put (by omega) hj (0, 0)).congr (fun i hi c hc => ?_) (by simp)
    simp only [Mat.set]
    grind

/-- What a column leaves, its t and dg known. -/
theorem cholStep_shows (h : w.Shows F A f) {j : Nat} (hj : j < 16) :
    ((List.range j).foldl (fun v i => v.put i j (0, 0))
      (((List.range 16).foldl (cholColumn F rm j (Claim.cholRoot F rm A j).1)
          { w with fl := w.fl ||| (Claim.cholPivot F rm A j).2 ||| (Claim.cholRoot F rm A j).2 }).put j j
        ((Claim.cholRoot F rm A j).1, 0))).Shows F (Claim.cholStep F rm j A) (f ||| orAll (Claim.cholFlags F rm j A)) := by
  have raised : f ||| orAll (Claim.cholFlags F rm j A) = f ||| (Claim.cholPivot F rm A j).2 ||| (Claim.cholRoot F rm A j).2 |||
      orUpTo 16 (fun i => if i ≤ j then 0 else (Claim.cholBelow F rm A j i).2) := by
    rw [Claim.cholFlags, orAll_cons, orAll_cons, BitVec.or_assoc, BitVec.or_assoc]
    rfl
  have column := cholColumn_shows (rm := rm) ((h.flag (Claim.cholPivot F rm A j).2).flag (Claim.cholRoot F rm A j).2) hj
  refine (clearAbove_shows (column.put hj hj ((Claim.cholRoot F rm A j).1, 0)) hj).congr (fun i hi c hc => ?_) ?_
  · simp only [Mat.set, cholUpTo, Claim.cholStep]
    grind
  · rw [raised]
    exact BitVec.or_zero

end

end Sys2Proof.Machine
end

section
/-! SUPPORT. The run of POTRF's columns (R230), and its completion. -/

namespace Sys2Proof.Machine

/-- Whether t of column j breaks the factorisation down: a NaN, or at most 0. -/
def cholLow (F : Fmt) (rm : Rm) (A : Claim.Mat) (j : Nat) : Bool :=
  let v := F.value (Claim.cholPivot F rm A j).1
  v.isNan || v.isZero || v.neg

/-- The matrices of POTRF's run. -/
def cholMats (F : Fmt) (rm : Rm) : Nat → Claim.Mat → Nat → Claim.Mat := stepsFrom (Claim.cholStep F rm)

/-- The flags of t where the run has broken down at column e. -/
def cholLastFlags (F : Fmt) (rm : Rm) (A : Claim.Mat) (e : Nat) : Flags := if e < 16 then (Claim.cholPivot F rm A e).2 else 0

/-- The run of POTRF from column s on ends at column e. -/
structure CholRun (F : Fmt) (rm : Rm) (M : Nat → Claim.Mat) (s e : Nat) (w : Work) (f : Flags)
    (r : Work × Option (Nat × Nat)) : Prop where
  start : s ≤ e
  stop : e ≤ 16
  sound : ∀ j, s ≤ j → j < e → cholLow F rm (M j) j = false
  tile : r.1.Shows F (M e) (f ||| flagsOf (fun j => Claim.cholFlags F rm j (M j)) s e ||| cholLastFlags F rm (M e) e)
  kept : e = s → r.1.a = w.a
  ends : e = 16 ∧ r.2 = none ∨ e < 16 ∧ cholLow F rm (M e) e = true ∧
    ∃ t, r.2 = some (e, t) ∧ t % 2 ^ F.width = (Claim.cholPivot F rm (M e) e).1 % 2 ^ F.width

section
variable {w : Work} {F : Fmt} {rm : Rm} {A : Claim.Mat} {f : Flags}

/-- The flags that a run has raised. -/
theorem CholRun.raised {M : Nat → Claim.Mat} {s e : Nat} {r : Work × Option (Nat × Nat)} (run : CholRun F rm M s e w 0 r) :
    Claim.Raised r.1.fl ((List.range' s (e - s)).flatMap (fun j => Claim.cholFlags F rm j (M j)) ++
      (if e < 16 then [(Claim.cholPivot F rm (M e) e).2] else [])) := by
  have flags : r.1.fl = orAll ((List.range' s (e - s)).flatMap (fun j => Claim.cholFlags F rm j (M j)) ++
      (if e < 16 then [(Claim.cholPivot F rm (M e) e).2] else [])) := by
    rw [run.tile.flags, Flags.zero_or, orAll_append, cholLastFlags]
    split
    · rw [orAll_cons, orAll_nil, BitVec.or_zero]
      rfl
    · rfl
  rw [flags]
  exact raised_orAll _

theorem cholSteps_cons (F : Fmt) (rm : Rm) (j : Nat) (js : List Nat) (w : Work) :
    cholSteps F rm (j :: js) w =
      let t := reduceBy F rm w j j j (w.el j j)
      let x := F.value t.1
      let dg := F.sqrt rm x
      if x.isNan || x.isZero || x.neg then ({ w with fl := w.fl ||| t.2 }, some (j, t.1))
      else cholSteps F rm js ((List.range j).foldl (fun v i => v.put i j (0, 0))
        (((List.range 16).foldl (cholColumn F rm j dg.1) { w with fl := w.fl ||| t.2 ||| dg.2 }).put j j (dg.1, 0))) := rfl

theorem cholSteps_run (s₀ : Nat) (A : Claim.Mat) : ∀ (n s : Nat) (w : Work) (f : Flags), s + n = 16 → s₀ ≤ s →
    w.Shows F (cholMats F rm s₀ A s) f → ∃ e, CholRun F rm (cholMats F rm s₀ A) s e w f (cholSteps F rm (List.range' s n) w) := by
  intro n
  induction n with
  | zero =>
    intro s w f end_ _ h
    have past : ¬ s < 16 := by omega
    refine ⟨s, le_rfl, by omega, fun j hj hj' => absurd hj (by omega), h.congr (fun _ _ _ _ => rfl) ?_, fun _ => rfl,
      .inl ⟨end_, rfl⟩⟩
    simp [cholLastFlags, past]
  | succ n ih =>
    intro s w f end_ begun h
    have hs : s < 16 := by omega
    obtain ⟨flags, value⟩ := cholPivot_eq (rm := rm) h hs
    rw [List.range'_succ, cholSteps_cons]
    dsimp only
    rw [flags, Fmt.value_of_mod value]
    split
    · next low =>
      refine ⟨s, le_rfl, hs.le, fun j hj hj' => absurd hj (by omega), (h.flag _).congr (fun _ _ _ _ => rfl) ?_, fun _ => rfl,
        .inr ⟨hs, low, _, rfl, value⟩⟩
      simp [cholLastFlags, hs]
    · next high =>
      have step := cholStep_shows (rm := rm) h hs
      have next : cholMats F rm s₀ A (s + 1) = Claim.cholStep F rm s (cholMats F rm s₀ A s) := stepsFrom_succ _ A begun
      rw [← next] at step
      obtain ⟨e, start, stop, sounds, tile, -, ends⟩ := ih (s + 1) _ _ (by omega) (by omega) step
      refine ⟨e, by omega, stop, fun j hj hj' => ?_, tile.congr (fun _ _ _ _ => rfl) ?_, fun here => absurd start (by omega), ends⟩
      · obtain rfl | later : j = s ∨ s + 1 ≤ j := by omega
        · exact Bool.eq_false_iff.mpr high
        · exact sounds j later hj'
      · rw [flagsOf_first _ (by omega : s < e)]
        simp only [BitVec.or_assoc]

end

section
variable (x : Ctx) (a : ArrayOp) (k : BitVec 3) (res : Bool)

/-- The columns of a POTRF on the tile that it finds. -/
def Ctx.cholOutcome : Work × Option (Nat × Nat) :=
  cholSteps (accFmt a.af) (Rm.of a.rm) ((List.range 16).drop (a.start res)) (Work.of (accFmt a.af) (x.tile k))

/-- What POTRF and TRSM leave of their context, but for the flags. -/
def Ctx.afterSolve (x : Ctx) (k : BitVec 3) (y : Tile) (b : BitVec 128) : Ctx := { x with k := SMap.setD [] x.k k.toNat y, brk := b }

theorem Ctx.cholOutcome_run {s : Nat} (from_ : a.start res = s) (hs : s < 16) : ∃ e, CholRun (accFmt a.af) (Rm.of a.rm)
    (cholMats (accFmt a.af) (Rm.of a.rm) s (Claim.matOf (accFmt a.af) (x.tile k))) s e
    (Work.of (accFmt a.af) (x.tile k)) 0 (x.cholOutcome a k res) := by
  rw [Ctx.cholOutcome, from_, drop_range]
  refine cholSteps_run _ _ _ _ _ _ (by omega) le_rfl ?_
  rw [cholMats, stepsFrom_start]
  exact Work.shows_of _ _

theorem Ctx.runPotrf_done {w : Work} (h : x.cholOutcome a k res = (w, none)) {f : Flags} (flags : w.fl = f) :
    x.runPotrf a k res = (Claim.flagged (x.afterSolve k w.tile 0) k (f.setWidth 6), Claim.enabledFaults a f) := by
  unfold Ctx.cholOutcome at h
  unfold Ctx.runPotrf
  dsimp only
  rw [h]
  dsimp only
  rw [Ctx.arrayFlags_eq, flags]
  rfl

/-- The low 64 bits of a widened pattern are those of the pattern of a format of at most 64 bits. -/
theorem widen_congr {F : Fmt} {b c : Nat} (h : b % 2 ^ F.width = c % 2 ^ F.width) : widen F b % 2 ^ 64 = widen F c % 2 ^ 64 := by
  unfold widen
  split
  · next is64 => rwa [is64] at h
  · rw [Fmt.value_of_mod h]

theorem Ctx.runPotrf_broken {w : Work} {s t t' : Nat} (h : x.cholOutcome a k res = (w, some (s, t)))
    (value : t % 2 ^ (accFmt a.af).width = t' % 2 ^ (accFmt a.af).width) {f : Flags} (flags : w.fl = f) :
    let b := brkRecord 3 s s k (widen (accFmt a.af) t')
    x.runPotrf a k res =
      (Claim.flagged (x.afterSolve k w.tile b) k (f.setWidth 6), (0x17#8, b) :: Claim.enabledFaults a f) := by
  have record : brkRecord 3 s s k (widen (accFmt a.af) t) = brkRecord 3 s s k (widen (accFmt a.af) t') := by
    rw [brkRecord, brkRecord, widen_congr value]
  unfold Ctx.cholOutcome at h
  unfold Ctx.runPotrf
  dsimp only
  rw [h]
  dsimp only
  rw [Ctx.arrayFlags_eq, flags, record]
  rfl

end

end Sys2Proof.Machine
end

section
/-! SUPPORT. TRSM (R231): a line of the solve beside the matrices it stands for, all lines, and the completion. -/

namespace Sys2Proof.Machine

/-- The flags of a grid of operations, row by row. -/
theorem orAll_grid (g : Nat → Nat → Flags) :
    orAll ((List.range 256).map (fun q => g (q / 16) (q % 16))) = orUpTo 16 (fun i => orUpTo 16 (g i)) := by
  refine BitVec.eq_of_getLsbD_eq fun b _ => Bool.eq_iff_iff.mpr ?_
  simp only [orUpTo, getLsbD_orAll, List.mem_map, List.mem_range, exists_exists_and_eq_and]
  constructor
  · rintro ⟨q, hq, raised⟩
    exact ⟨q / 16, by omega, q % 16, by omega, raised⟩
  · rintro ⟨i, hi, j, hj, raised⟩
    refine ⟨16 * i + j, by omega, ?_⟩
    rwa [show (16 * i + j) / 16 = i by omega, show (16 * i + j) % 16 = j by omega]

/-! ### The order of a line -/

/-- The place of step m of a solve. -/
def solveOrder (fwd : Bool) (m : Nat) : Nat := if fwd then m else 15 - m

theorem solveOrder_lt (fwd : Bool) {m : Nat} (h : m < 16) : solveOrder fwd m < 16 := by
  unfold solveOrder
  split <;> omega

theorem solveOrder_inj (fwd : Bool) {m n : Nat} (hm : m < 16) (hn : n < 16) (h : solveOrder fwd m = solveOrder fwd n) : m = n := by
  unfold solveOrder at h
  split at h <;> omega

theorem solveOrder_list (fwd : Bool) :
    (if fwd then List.range 16 else (List.range 16).reverse) = (List.range' 0 16).map (solveOrder fwd) := by
  cases fwd <;> decide

/-! ### One line -/

section
variable (F : Fmt) (rm : Rm) (side unit : Bool) (opT : Claim.Mat) (fwd : Bool) (B : Nat → Nat)

/-- A line of the solve after its first n elements. -/
def solvedLine : Nat → Nat → Nat
  | 0 => B
  | n + 1 => fun i => if i = solveOrder fwd n then (Claim.solved F rm side unit opT (solveOrder fwd) B (solvedLine n) n).1
      else solvedLine n i

/-- The element that step n of a line computes. -/
def lineStep (n : Nat) : Nat × Flags :=
  Claim.solved F rm side unit opT (solveOrder fwd) B (solvedLine F rm side unit opT fwd B n) n

/-- What a step reads of the line. -/
theorem solved_congr {F : Fmt} {rm : Rm} {side unit : Bool} {opT : Claim.Mat} {fwd : Bool} {B X Y : Nat → Nat} {n : Nat}
    (same : ∀ m < n, X (solveOrder fwd m) = Y (solveOrder fwd m)) :
    Claim.solved F rm side unit opT (solveOrder fwd) B X n = Claim.solved F rm side unit opT (solveOrder fwd) B Y n := by
  have left (y : Nat → Nat) (t : Nat) : ∀ k ≤ n, Claim.descend F rm (fun m => X (solveOrder fwd m)) y t k =
      Claim.descend F rm (fun m => Y (solveOrder fwd m)) y t k := by
    intro k
    induction k with
    | zero => exact fun _ => rfl
    | succ k ih => intro le; simp only [Claim.descend, ih (by omega), same k (by omega)]
  have right (y : Nat → Nat) (t : Nat) : ∀ k ≤ n, Claim.descend F rm y (fun m => X (solveOrder fwd m)) t k =
      Claim.descend F rm y (fun m => Y (solveOrder fwd m)) t k := by
    intro k
    induction k with
    | zero => exact fun _ => rfl
    | succ k ih => intro le; simp only [Claim.descend, ih (by omega), same k (by omega)]
  simp only [Claim.solved, left _ _ n le_rfl, right _ _ n le_rfl]

/-- An element that a step has solved stays. -/
theorem solvedLine_kept {m n : Nat} (h : m < n) (hn : n ≤ 16) :
    solvedLine F rm side unit opT fwd B n (solveOrder fwd m) = (lineStep F rm side unit opT fwd B m).1 := by
  induction n with
  | zero => omega
  | succ n ih =>
    simp only [solvedLine]
    by_cases last : m = n
    · rw [last, if_pos rfl]
      rfl
    · rw [if_neg fun e => last (solveOrder_inj fwd (by omega) (by omega) e), ih (by omega) (by omega)]

/-- A step is the same whether it looks at the line as it stands or as the whole solve leaves it. -/
theorem solved_line {n : Nat} (hn : n < 16) :
    Claim.solved F rm side unit opT (solveOrder fwd) B (solvedLine F rm side unit opT fwd B 16) n =
      lineStep F rm side unit opT fwd B n :=
  solved_congr fun m hm => by
    rw [solvedLine_kept F rm side unit opT fwd B (by omega) le_rfl, solvedLine_kept F rm side unit opT fwd B hm (by omega)]

/-- An element that no step has solved yet stands as it did. -/
theorem solvedLine_unsolved {m n : Nat} (h : n ≤ m) (hm : m < 16) :
    solvedLine F rm side unit opT fwd B n (solveOrder fwd m) = B (solveOrder fwd m) := by
  induction n with
  | zero => rfl
  | succ n ih =>
    have other : solveOrder fwd m ≠ solveOrder fwd n := fun e => absurd (solveOrder_inj fwd hm (by omega) e) (by omega)
    simp only [solvedLine]
    rw [if_neg other, ih (by omega)]

end

/-! ### Lines of a matrix -/

/-- Where element i of line o stands. -/
def lineCell (side : Bool) (o i : Nat) : Nat × Nat := if side then (o, i) else (i, o)

/-- Line o of a matrix. -/
def Mat.line (side : Bool) (A : Claim.Mat) (o : Nat) : Nat → Nat := fun i => A (lineCell side o i).1 (lineCell side o i).2

/-- A matrix by its lines. -/
def Mat.ofLines (side : Bool) (l : Nat → Nat → Nat) : Claim.Mat := fun i j => if side then l i j else l j i

theorem Mat.line_ofLines (side : Bool) (l : Nat → Nat → Nat) (o : Nat) : Mat.line side (Mat.ofLines side l) o = l o := by
  cases side <;> rfl

theorem Mat.ofLines_line (side : Bool) (A : Claim.Mat) : Mat.ofLines side (Mat.line side A) = A := by cases side <;> rfl

/-- Lines with one replaced. -/
def Mat.setLine (l : Nat → Nat → Nat) (o : Nat) (v : Nat → Nat) : Nat → Nat → Nat := fun p i => if p = o then v i else l p i

section
variable {F : Fmt} {rm : Rm} {side unit : Bool} {opT opM : Claim.Mat} {fwd : Bool} {w : Work} {f : Flags} {l : Nat → Nat → Nat}

/-- Writing an element of a line. -/
theorem Work.Shows.putLine (h : w.Shows F (Mat.ofLines side l) f) {o i : Nat} (ho : o < 16) (hi : i < 16) (r : Nat × Flags) :
    (w.put (lineCell side o i).1 (lineCell side o i).2 r).Shows F
      (Mat.ofLines side (Mat.setLine l o (fun j => if j = i then r.1 else l o j))) (f ||| r.2) := by
  cases side with
  | true =>
    refine (h.put ho hi r).congr (fun a _ b _ => ?_) rfl
    simp only [Mat.set, Mat.ofLines, Mat.setLine, if_true]
    grind
  | false =>
    refine (h.put hi ho r).congr (fun a _ b _ => ?_) rfl
    simp only [Mat.set, Mat.ofLines, Mat.setLine, Bool.false_eq_true, if_false]
    grind

theorem Work.Shows.elLine (h : w.Shows F (Mat.ofLines side l) f) {o i : Nat} (ho : o < 16) (hi : i < 16) :
    w.el (lineCell side o i).1 (lineCell side o i).2 = l o i % 2 ^ F.width := by
  cases side with
  | true => exact h.el o ho i hi
  | false => exact h.el i hi o ho

/-- What a step of the solve computes on the copy. -/
def solveStep (F : Fmt) (rm : Rm) (unit side : Bool) (opT : Nat → Nat → Nat) (at_ : Nat → Nat × Nat) (solved : List Nat) (i : Nat)
    (w : Work) : Nat × Flags :=
  let x := solved.foldl (fun x k =>
    let b := w.el (at_ k).1 (at_ k).2
    let y := if side then F.fms rm x.1 b (opT k i) else F.fms rm x.1 (opT i k) b
    (y.1, x.2 ||| y.2)) (w.el (at_ i).1 (at_ i).2, 0)
  if unit then x else let q := F.divP rm x.1 (opT i i); (q.1, x.2 ||| q.2)

theorem solveLine_cons (order : List Nat) (at_ : Nat → Nat × Nat) (solved is : List Nat) (i : Nat) (w : Work) :
    solveLine F rm order unit side opM at_ solved (i :: is) w =
      solveLine F rm order unit side opM at_ (solved ++ [i]) is
        (w.put (at_ i).1 (at_ i).2 (solveStep F rm unit side opM at_ solved i w)) := rfl

theorem solveStep_eq (at_ : Nat → Nat × Nat) (n i : Nat) (w : Work) :
    solveStep F rm unit side opM at_ ((List.range n).map (solveOrder fwd)) i w =
      let el := fun m => w.el (at_ (solveOrder fwd m)).1 (at_ (solveOrder fwd m)).2
      let x := lessProducts F rm (if side then el else fun m => opM i (solveOrder fwd m))
        (if side then fun m => opM (solveOrder fwd m) i else el) n (w.el (at_ i).1 (at_ i).2)
      if unit then x else let q := F.divP rm x.1 (opM i i); (q.1, x.2 ||| q.2) := by
  unfold solveStep lessProducts
  rw [List.foldl_map]
  cases side <;> rfl

/-- A quotient that R231 forms or leaves out, on patterns with the same bits. -/
theorem divided_congr {r u : Nat × Flags} {d d' : Nat} (h : r.2 = u.2 ∧ r.1 % 2 ^ F.width = u.1 % 2 ^ F.width)
    (hd : F.value d = F.value d') :
    let r' := if unit then r else let q := F.divP rm r.1 d; (q.1, r.2 ||| q.2)
    let u' := if unit then u else let q := F.div rm (F.value u.1) (F.value d'); (q.1, u.2 ||| q.2)
    r'.2 = u'.2 ∧ r'.1 % 2 ^ F.width = u'.1 % 2 ^ F.width := by
  cases unit with
  | true => exact h
  | false =>
    dsimp only
    rw [Fmt.divP, Fmt.value_of_mod h.2, hd, h.1]
    exact ⟨rfl, rfl⟩

theorem solveStep_lineStep (op : ∀ i < 16, ∀ j < 16, F.value (opM i j) = F.value (opT i j)) {o n : Nat} (ho : o < 16) (hn : n < 16)
    {B : Nat → Nat} (line : l o = solvedLine F rm side unit opT fwd B n) (h : w.Shows F (Mat.ofLines side l) f) :
    let r := solveStep F rm unit side opM (lineCell side o) ((List.range n).map (solveOrder fwd)) (solveOrder fwd n) w
    let x := lineStep F rm side unit opT fwd B n
    r.2 = x.2 ∧ r.1 % 2 ^ F.width = x.1 % 2 ^ F.width := by
  have place (m : Nat) (hm : m < 16) := solveOrder_lt fwd hm
  have solved (m : Nat) (hm : m < n) : F.value (w.el (lineCell side o (solveOrder fwd m)).1 (lineCell side o (solveOrder fwd m)).2) =
      F.value (solvedLine F rm side unit opT fwd B n (solveOrder fwd m)) := by
    rw [h.elLine ho (place m (by omega)), line, F.value_mod]
  have start : w.el (lineCell side o (solveOrder fwd n)).1 (lineCell side o (solveOrder fwd n)).2 % 2 ^ F.width =
      B (solveOrder fwd n) % 2 ^ F.width := by
    rw [h.elLine ho (place n hn), line, solvedLine_unsolved _ _ _ _ _ _ _ le_rfl hn, Nat.mod_mod]
  have pivot := op _ (place n hn) _ (place n hn)
  rw [solveStep_eq]
  cases side with
  | true => exact divided_congr (lessProducts_descend solved (fun m hm => op _ (place m (by omega)) _ (place n hn)) start) pivot
  | false => exact divided_congr (lessProducts_descend (fun m hm => op _ (place n hn) _ (place m (by omega))) solved start) pivot

/-- A line is solved, the others stand. -/
theorem solveLine_shows (op : ∀ i < 16, ∀ j < 16, F.value (opM i j) = F.value (opT i j)) (order : List Nat) {o : Nat} (ho : o < 16)
    (B : Nat → Nat) (k : Nat) : ∀ (n : Nat) (w : Work) (f : Flags), n + k = 16 →
    w.Shows F (Mat.ofLines side (Mat.setLine l o (solvedLine F rm side unit opT fwd B n)))
      (f ||| orUpTo n (fun m => (lineStep F rm side unit opT fwd B m).2)) →
    (solveLine F rm order unit side opM (lineCell side o) ((List.range n).map (solveOrder fwd))
        ((List.range' n k).map (solveOrder fwd)) w).Shows F
      (Mat.ofLines side (Mat.setLine l o (solvedLine F rm side unit opT fwd B 16)))
      (f ||| orUpTo 16 (fun m => (lineStep F rm side unit opT fwd B m).2)) := by
  induction k with
  | zero =>
    intro n w f end_ h
    obtain rfl : n = 16 := end_
    exact h
  | succ k ih =>
    intro n w f end_ h
    have line : Mat.setLine l o (solvedLine F rm side unit opT fwd B n) o = solvedLine F rm side unit opT fwd B n :=
      funext fun _ => if_pos rfl
    obtain ⟨flags, value⟩ := solveStep_lineStep op ho (by omega : n < 16) line h
    rw [List.range'_succ, List.map_cons, solveLine_cons, ← List.map_singleton (f := solveOrder fwd), ← List.map_append,
      ← List.range_succ]
    refine ih (n + 1) _ f (by omega) ?_
    refine ((h.putLine ho (solveOrder_lt fwd (by omega)) _).congr (fun _ _ _ _ => rfl) ?_).congr_mod fun i hi j hj => ?_
    · rw [flags, orUpTo_succ, BitVec.or_assoc]
    · cases side with
      | true =>
        simp only [Mat.ofLines, Mat.setLine, solvedLine, if_true]
        split
        · split
          · exact value
          · rfl
        · rfl
      | false =>
        simp only [Mat.ofLines, Mat.setLine, solvedLine, Bool.false_eq_true, if_false]
        split
        · split
          · exact value
          · rfl
        · rfl

/-- The lines of a matrix before line o solved. -/
def solvedBefore (F : Fmt) (rm : Rm) (side unit : Bool) (opT : Claim.Mat) (fwd : Bool) (B : Claim.Mat) (o : Nat) : Nat → Nat → Nat :=
  fun p => if p < o then solvedLine F rm side unit opT fwd (Mat.line side B p) 16 else Mat.line side B p

/-- All lines are solved, one after another. -/
theorem solveLines_shows {B : Claim.Mat} (op : ∀ i < 16, ∀ j < 16, F.value (opM i j) = F.value (opT i j)) (h : w.Shows F B f) :
    ((List.range 16).foldl (fun w o => solveLine F rm (if fwd then List.range 16 else (List.range 16).reverse) unit side opM
        (lineCell side o) [] (if fwd then List.range 16 else (List.range 16).reverse) w) w).Shows F
      (Mat.ofLines side (solvedBefore F rm side unit opT fwd B 16))
      (f ||| orUpTo 16 (fun o => orUpTo 16 (fun m => (lineStep F rm side unit opT fwd (Mat.line side B o) m).2))) := by
  refine foldl_range (fun o (w : Work) => w.Shows F (Mat.ofLines side (solvedBefore F rm side unit opT fwd B o))
    (f ||| orUpTo o (fun o => orUpTo 16 (fun m => (lineStep F rm side unit opT fwd (Mat.line side B o) m).2)))) 16 ?_ ?_
  · refine h.congr (fun i _ j _ => ?_) BitVec.or_zero.symm
    exact (congrFun (congrFun (Mat.ofLines_line side B) i) j).symm
  · intro o ho v hv
    have unsolved : solvedBefore F rm side unit opT fwd B o o = Mat.line side B o := if_neg (lt_irrefl o)
    have start : Mat.setLine (solvedBefore F rm side unit opT fwd B o) o
        (solvedLine F rm side unit opT fwd (Mat.line side B o) 0) = solvedBefore F rm side unit opT fwd B o := by
      funext p i
      unfold Mat.setLine
      split
      · next same => rw [same, unsolved]; rfl
      · rfl
    have done : Mat.setLine (solvedBefore F rm side unit opT fwd B o) o
        (solvedLine F rm side unit opT fwd (Mat.line side B o) 16) = solvedBefore F rm side unit opT fwd B (o + 1) := by
      funext p i
      unfold Mat.setLine solvedBefore
      by_cases same : p = o
      · rw [if_pos same, if_pos (by omega), same]
      · have next : p < o + 1 ↔ p < o := by omega
        simp only [same, next, if_false]
    have line := solveLine_shows op (if fwd then List.range 16 else (List.range 16).reverse) ho (Mat.line side B o) 16 0 v _ rfl
      (by rw [start]; exact hv.congr (fun _ _ _ _ => rfl) BitVec.or_zero.symm)
    rw [done, List.range_zero, List.map_nil, ← solveOrder_list] at line
    rw [orUpTo_succ, ← BitVec.or_assoc]
    exact line

/-- What the solve of all lines leaves. -/
def solvedAll (F : Fmt) (rm : Rm) (side unit : Bool) (opT : Claim.Mat) (fwd : Bool) (B : Claim.Mat) : Claim.Mat :=
  Mat.ofLines side (solvedBefore F rm side unit opT fwd B 16)

theorem line_solvedAll {B : Claim.Mat} {o : Nat} (ho : o < 16) :
    Mat.line side (solvedAll F rm side unit opT fwd B) o = solvedLine F rm side unit opT fwd (Mat.line side B o) 16 :=
  (Mat.line_ofLines side _ o).trans (if_pos ho)

/-- Each element is what R231 makes of the elements before it. -/
theorem solvedAll_step {B : Claim.Mat} {o m : Nat} (ho : o < 16) (hm : m < 16) :
    Claim.solved F rm side unit opT (solveOrder fwd) (Mat.line side B o) (Mat.line side (solvedAll F rm side unit opT fwd B) o) m =
      lineStep F rm side unit opT fwd (Mat.line side B o) m := by
  rw [line_solvedAll ho, solved_line _ _ _ _ _ _ _ hm]

theorem solvedAll_cell {B : Claim.Mat} {o m : Nat} (ho : o < 16) (hm : m < 16) :
    Mat.line side (solvedAll F rm side unit opT fwd B) o (solveOrder fwd m) =
      (lineStep F rm side unit opT fwd (Mat.line side B o) m).1 := by
  rw [line_solvedAll ho, solvedLine_kept _ _ _ _ _ _ _ hm le_rfl]

/-- The flags of all steps of a solve. -/
theorem orAll_solvedAll (F : Fmt) (rm : Rm) (side unit : Bool) (opT : Claim.Mat) (fwd : Bool) (B : Claim.Mat) :
    orAll ((List.range 256).map (fun q => (Claim.solved F rm side unit opT (solveOrder fwd) (Mat.line side B (q / 16))
      (Mat.line side (solvedAll F rm side unit opT fwd B) (q / 16)) (q % 16)).2)) =
    orUpTo 16 (fun o => orUpTo 16 (fun m => (lineStep F rm side unit opT fwd (Mat.line side B o) m).2)) := by
  rw [orAll_grid fun o m => (Claim.solved F rm side unit opT (solveOrder fwd) (Mat.line side B o)
    (Mat.line side (solvedAll F rm side unit opT fwd B) o) m).2]
  exact orUpTo_congr fun o ho => orUpTo_congr fun m hm => by rw [solvedAll_step ho hm]

end

/-! ### Completion -/

section
variable (x : Ctx) (a : ArrayOp) (k e : BitVec 3) (fl : BitVec 4)

/-- The factor that a solve applies, with TR. -/
def solveFactor (fl : BitVec 4) (T : Claim.Mat) : Claim.Mat := fun i j => if fl.getLsbD 0 then T j i else T i j

/-- Whether a solve goes upward. -/
def solveForward (fl : BitVec 4) : Bool := fl.getLsbD 3 == (fl.getLsbD 2 != fl.getLsbD 0)

theorem Work.el_of (F : Fmt) (t : Tile) {i j : Nat} (hi : i < 16) (hj : j < 16) : (Work.of F t).el i j = Claim.matOf F t i j := by
  rw [(Work.shows_of F t).el i hi j hj, Claim.matOf, accPattern, Nat.mod_mod]

theorem Ctx.runTrsm_broken {d : Nat} (unit : fl.getLsbD 1 = false) (hd : d < 16)
    (zero : ((accFmt a.af).value (Claim.matOf (accFmt a.af) (x.tile e) d d)).isZero = true)
    (before : ∀ i < d, ((accFmt a.af).value (Claim.matOf (accFmt a.af) (x.tile e) i i)).isZero = false) :
    let b := brkRecord 4 0 d k (widen (accFmt a.af) (Claim.matOf (accFmt a.af) (x.tile e) d d))
    x.runTrsm a k e fl = ({ x with brk := b }, [(0x18, b)]) := by
  have found : (List.range 16).find? (fun i => ((accFmt a.af).value ((Work.of (accFmt a.af) (x.tile e)).el i i)).isZero) = some d := by
    refine List.find?_range_eq_some.mpr ⟨?_, List.mem_range.mpr hd, fun i hi => ?_⟩
    · rwa [Work.el_of _ _ hd hd]
    · rw [Work.el_of _ _ (by omega) (by omega), before i hi]
      rfl
  unfold Ctx.runTrsm
  dsimp only
  rw [unit, if_neg Bool.false_ne_true, found]
  dsimp only
  rw [Work.el_of _ _ hd hd]
  rfl

theorem Ctx.runTrsm_done (sound : fl.getLsbD 1 = true ∨
      ∀ i < 16, ((accFmt a.af).value (Claim.matOf (accFmt a.af) (x.tile e) i i)).isZero = false) :
    ∃ w f, Work.Shows w (accFmt a.af) (solvedAll (accFmt a.af) (Rm.of a.rm) (fl.getLsbD 3) (fl.getLsbD 1)
        (solveFactor fl (Claim.matOf (accFmt a.af) (x.tile e))) (solveForward fl) (Claim.matOf (accFmt a.af) (x.tile k))) f ∧
      f = orUpTo 16 (fun o => orUpTo 16 (fun m => (lineStep (accFmt a.af) (Rm.of a.rm) (fl.getLsbD 3) (fl.getLsbD 1)
        (solveFactor fl (Claim.matOf (accFmt a.af) (x.tile e))) (solveForward fl)
        (Mat.line (fl.getLsbD 3) (Claim.matOf (accFmt a.af) (x.tile k)) o) m).2)) ∧
      x.runTrsm a k e fl = (Claim.flagged (x.afterSolve k w.tile 0) k (f.setWidth 6), Claim.enabledFaults a f) := by
  have none : (if fl.getLsbD 1 then none
      else (List.range 16).find? (fun i => ((accFmt a.af).value ((Work.of (accFmt a.af) (x.tile e)).el i i)).isZero)) = none := by
    split
    · rfl
    · next divides =>
      obtain unit | nonzero := sound
      · exact absurd unit divides
      · refine List.find?_eq_none.mpr fun i hi => ?_
        have small := List.mem_range.mp hi
        rw [Work.el_of _ _ small small, nonzero i small]
        decide
  have op : ∀ i < 16, ∀ j < 16, (accFmt a.af).value (solveFactor fl (Work.of (accFmt a.af) (x.tile e)).el i j) =
      (accFmt a.af).value (solveFactor fl (Claim.matOf (accFmt a.af) (x.tile e)) i j) := by
    intro i hi j hj
    unfold solveFactor
    split
    · rw [Work.el_of _ _ hj hi]
    · rw [Work.el_of _ _ hi hj]
  have lines := solveLines_shows (rm := Rm.of a.rm) (side := fl.getLsbD 3) (unit := fl.getLsbD 1) (fwd := solveForward fl) op
    (Work.shows_of (accFmt a.af) (x.tile k))
  refine ⟨_, _, lines, BitVec.zero_or, ?_⟩
  unfold Ctx.runTrsm
  dsimp only
  rw [none]
  dsimp only
  rw [Ctx.arrayFlags_eq]
  rw [← lines.flags]
  rfl

end

end Sys2Proof.Machine
end

section
/-! SUPPORT. Rotations (R232, R233): a rotation of two rows beside the matrix it stands for, GIVQR and ROTAPP, and rot. -/

namespace Sys2Proof.Machine

/-! ### Flags of two rows -/

theorem getLsbD_orUpTo (b n : Nat) (g : Nat → Flags) : (orUpTo n g).getLsbD b = true ↔ ∃ k < n, (g k).getLsbD b = true := by
  simp only [orUpTo, getLsbD_orAll, List.mem_map, List.mem_range, exists_exists_and_eq_and]

theorem Flags.ext {f g : Flags} (h : ∀ b, f.getLsbD b = true ↔ g.getLsbD b = true) : f = g :=
  BitVec.eq_of_getLsbD_eq fun b _ => Bool.eq_iff_iff.mpr (h b)

/-- The flags of a grid of which two rows alone raise any. -/
theorem orUpTo_rows {p : Nat} (hp : p + 1 < 16) {g : Nat → Nat → Flags} (other : ∀ i, i ≠ p → i ≠ p + 1 → ∀ k, g i k = 0) :
    orUpTo 16 (fun i => orUpTo 16 (g i)) = orUpTo 16 (fun k => g p k ||| g (p + 1) k) := by
  refine Flags.ext fun b => ?_
  simp only [getLsbD_orUpTo, BitVec.getLsbD_or, Bool.or_eq_true]
  constructor
  · rintro ⟨i, -, k, hk, raised⟩
    refine ⟨k, hk, ?_⟩
    by_cases first : i = p
    · exact .inl (first ▸ raised)
    by_cases second : i = p + 1
    · exact .inr (second ▸ raised)
    · rw [other i first second k] at raised
      simp at raised
  · rintro ⟨k, hk, raised | raised⟩
    · exact ⟨p, by omega, k, hk, raised⟩
    · exact ⟨p + 1, hp, k, hk, raised⟩

/-- One of the unions set apart. -/
theorem orUpTo_apart {n j : Nat} (hj : j < n) (g : Nat → Flags) :
    orUpTo n g = g j ||| orUpTo n (fun k => if k = j then 0 else g k) := by
  refine Flags.ext fun b => ?_
  simp only [getLsbD_orUpTo, BitVec.getLsbD_or, Bool.or_eq_true]
  constructor
  · rintro ⟨k, hk, raised⟩
    by_cases here : k = j
    · exact .inl (here ▸ raised)
    · exact .inr ⟨k, hk, by rwa [if_neg here]⟩
  · rintro (raised | ⟨k, hk, raised⟩)
    · exact ⟨j, hj, raised⟩
    · split at raised
      · simp at raised
      · exact ⟨k, hk, raised⟩

/-! ### One rotation -/

section
variable {F : Fmt} {rm : Rm} {A B : Claim.Mat} {w : Work} {f : Flags} {p : Nat} {c s : Num}

theorem rotated_other {from_ i : Nat} (h : i ≠ p) (h' : i ≠ p + 1) (j : Nat) :
    Claim.rotated F rm p from_ c s A i j = (A i j, 0) := by
  simp [Claim.rotated, h, h']

/-- A rotation reads one column. -/
theorem rotated_congr {from_ i j : Nat} (same : ∀ i, A i j = B i j) :
    Claim.rotated F rm p from_ c s A i j = Claim.rotated F rm p from_ c s B i j := by
  simp only [Claim.rotated, same]

theorem rotated_from {from_ i j : Nat} (h : from_ ≤ j) : Claim.rotated F rm p from_ c s A i j = Claim.rotated F rm p 0 c s A i j := by
  unfold Claim.rotated
  rw [if_neg (not_lt.mpr h), if_neg (Nat.not_lt_zero j)]

/-- The flags of a rotation in one column. -/
def turnFlags (F : Fmt) (rm : Rm) (p : Nat) (c s : Num) (A : Claim.Mat) (k : Nat) : Flags :=
  (Claim.rotated F rm p 0 c s A p k).2 ||| (Claim.rotated F rm p 0 c s A (p + 1) k).2

theorem turn_shows (h : w.Shows F A f) (hp : p + 1 < 16) {k : Nat} (hk : k < 16) (inv : Bool) :
    (turn F rm p c s inv w k).Shows F
      (fun i j => if j = k then (Claim.rotated F rm p 0 c (if inv then s.negate else s) A i j).1 else A i j)
      (f ||| turnFlags F rm p c (if inv then s.negate else s) A k) := by
  have first : Claim.rotated F rm p 0 c (if inv then s.negate else s) A p k =
      F.dot2 rm c (F.value (A p k)) (if inv then s.negate else s) (F.value (A (p + 1) k)) := by simp [Claim.rotated]
  have second : Claim.rotated F rm p 0 c (if inv then s.negate else s) A (p + 1) k =
      F.dot2 rm c (F.value (A (p + 1) k)) (if inv then s.negate else s).negate (F.value (A p k)) := by simp [Claim.rotated]
  rw [turnFlags, ← BitVec.or_assoc, first, second]
  unfold turn
  dsimp only
  rw [h.value (by omega : p < 16) hk, h.value hp hk]
  refine ((h.put (by omega) hk _).put hp hk _).congr (fun i hi j hj => ?_) rfl
  simp only [Mat.set]
  by_cases col : j = k
  · subst col
    by_cases top : i = p
    · subst top
      simp [first]
    by_cases low : i = p + 1
    · subst low
      simp [second]
    · simp [rotated_other top low, top, low]
  · simp [col]

/-- The first k columns of B beside the others of A. -/
def Mat.columnsBelow (k : Nat) (B A : Claim.Mat) : Claim.Mat := fun i j => if j < k then B i j else A i j

theorem Mat.columnsBelow_at (k i : Nat) (B A : Claim.Mat) : Mat.columnsBelow k B A i k = A i k := if_neg (lt_irrefl k)

/-! ### ROTAPP: a rotation of all columns -/

theorem turnAll_shows (h : w.Shows F A f) (hp : p + 1 < 16) (inv : Bool) :
    ((List.range 16).foldl (turn F rm p c s inv) w).Shows F
      (fun i j => (Claim.rotated F rm p 0 c (if inv then s.negate else s) A i j).1)
      (f ||| orAll ((List.range 256).map
        (fun q => (Claim.rotated F rm p 0 c (if inv then s.negate else s) A (q / 16) (q % 16)).2))) := by
  have flags : orAll ((List.range 256).map
      (fun q => (Claim.rotated F rm p 0 c (if inv then s.negate else s) A (q / 16) (q % 16)).2)) =
      orUpTo 16 (turnFlags F rm p c (if inv then s.negate else s) A) := by
    rw [orAll_grid fun i j => (Claim.rotated F rm p 0 c (if inv then s.negate else s) A i j).2]
    exact orUpTo_rows hp fun i first second k => by rw [rotated_other first second]
  rw [flags]
  refine (foldl_range (fun k (v : Work) => v.Shows F
    (Mat.columnsBelow k (fun i j => (Claim.rotated F rm p 0 c (if inv then s.negate else s) A i j).1) A)
    (f ||| orUpTo k (turnFlags F rm p c (if inv then s.negate else s) A))) 16 ?_ ?_).congr (fun i hi j hj => if_pos hj) rfl
  · exact h.congr (fun _ _ _ _ => rfl) (by simp)
  · intro k hk v hv
    rw [orUpTo_succ, ← BitVec.or_assoc]
    refine (turn_shows hv hp hk inv).congr (fun i hi j hj => ?_) ?_
    · by_cases here : j = k
      · subst here
        rw [if_pos rfl, Mat.columnsBelow, if_pos (Nat.lt_succ_self j), rotated_congr fun i => Mat.columnsBelow_at j i _ A]
      · have next : j < k + 1 ↔ j < k := by omega
        simp only [Mat.columnsBelow, here, if_false, next]
    · rw [turnFlags, turnFlags, rotated_congr fun i => Mat.columnsBelow_at k i _ A,
        rotated_congr fun i => Mat.columnsBelow_at k i _ A]

end

end Sys2Proof.Machine
end

section
/-! SUPPORT. ROTAPP and GIVQR complete (R232, R233); rot. -/

namespace Sys2Proof.Machine

/-! ### The places of the rotations -/

theorem rotations_length : rotations.length = 120 := by
  rw [rotations, List.length_flatMap]
  simp only [List.length_map]
  decide

theorem rotations_place : ∀ j < 15, ∀ i, j < i → i < 16 → rotations[15 * j - j * (j - 1) / 2 + (15 - i)]? = some (i, j) := by
  have small : ∀ j < 15, ∀ i < 16, j < i → rotations[15 * j - j * (j - 1) / 2 + (15 - i)]? = some (i, j) := by decide
  exact fun j hj i less hi => small j hj i hi less

theorem rotations_below : ∀ x ∈ rotations, x.2 < x.1 ∧ x.1 < 16 := by
  intro x mem
  simp only [rotations, List.mem_flatMap, List.mem_map, List.mem_filter, List.mem_reverse, List.mem_range, decide_eq_true_eq] at mem
  obtain ⟨j, -, i, ⟨hi, less⟩, rfl⟩ := mem
  exact ⟨less, hi⟩

/-- The place of rotation r. -/
def rotationAt (r : Nat) : Nat × Nat := rotations.getD r (0, 0)

theorem rotationAt_below {r : Nat} (h : r < 120) : (rotationAt r).2 < (rotationAt r).1 ∧ (rotationAt r).1 < 16 := by
  have room : r < rotations.length := by rwa [rotations_length]
  have entry : rotationAt r = rotations[r] := List.getD_eq_getElem _ _ room
  rw [entry]
  exact rotations_below _ (List.getElem_mem room)

/-! ### ROTAPP -/

/-- Which rotation comes as number m. -/
def rotappRot (inv : Bool) (m : Nat) : Nat := if inv then 119 - m else m

/-- The upper row of rotation m. -/
def rotappRow (inv : Bool) (m : Nat) : Nat := (rotationAt (rotappRot inv m)).1 - 1

theorem rotapp_list (inv : Bool) :
    (if inv then (rotations.mapIdx (fun r ij => (r, ij.1 - 1))).reverse else rotations.mapIdx (fun r ij => (r, ij.1 - 1))) =
      (List.range 120).map (fun m => (rotappRot inv m, rotappRow inv m)) := by
  have entry (r : Nat) (h : r < rotations.length) : rotations[r] = rotationAt r := (List.getD_eq_getElem _ _ h).symm
  cases inv with
  | true =>
    refine List.ext_getElem (by simp [rotations_length]) fun m _ _ => ?_
    simp [rotations_length, entry, rotappRow, rotappRot]
  | false =>
    refine List.ext_getElem (by simp [rotations_length]) fun m _ _ => ?_
    simp [entry, rotappRow, rotappRot]

theorem rotappRow_lt (inv : Bool) {m : Nat} (h : m < 120) : rotappRow inv m + 1 < 16 := by
  have rot : rotappRot inv m < 120 := by
    unfold rotappRot
    split <;> omega
  have := rotationAt_below rot
  unfold rotappRow
  omega

/-- The number that element n of a tile of rotations is. -/
def rotationNumber (t : Tile) (n : Nat) : Num := Fmt.f64.value (t.el (n / 16) (n % 16)).toNat

/-- What rotation m of ROTAPP makes of an element. -/
def rotappGo (F : Fmt) (rm : Rm) (t : Tile) (inv : Bool) (m : Nat) (A : Claim.Mat) (i j : Nat) : Nat × Flags :=
  Claim.rotated F rm (rotappRow inv m) 0 (rotationNumber t (2 * rotappRot inv m))
    (if inv then (rotationNumber t (2 * rotappRot inv m + 1)).negate else rotationNumber t (2 * rotappRot inv m + 1)) A i j

/-- The matrices of a ROTAPP. -/
def rotappMats (F : Fmt) (rm : Rm) (t : Tile) (inv : Bool) : Claim.Mat → Nat → Claim.Mat :=
  stepsFrom (fun m A i j => (rotappGo F rm t inv m A i j).1) 0

/-- The flags of the first n steps of a run. -/
def flagsTo (g : Nat → List Flags) (n : Nat) : Flags := orAll ((List.range n).flatMap g)

theorem flagsTo_succ (g : Nat → List Flags) (n : Nat) : flagsTo g (n + 1) = flagsTo g n ||| orAll (g n) := by
  simp [flagsTo, List.range_succ]

/-- The flags of the elements of one rotation. -/
def rotappFlags (F : Fmt) (rm : Rm) (t : Tile) (inv : Bool) (B : Claim.Mat) (m : Nat) : List Flags :=
  (List.range 256).map (fun q => (rotappGo F rm t inv m (rotappMats F rm t inv B m) (q / 16) (q % 16)).2)

section
variable (x : Ctx) (a : ArrayOp) (k e : BitVec 3) (inv : Bool)

theorem Ctx.runRotapp_done : ∃ w f,
    Work.Shows w (accFmt a.af)
      (rotappMats (accFmt a.af) (Rm.of a.rm) (x.tile e) inv (Claim.matOf (accFmt a.af) (x.tile k)) 120) f ∧
    f = flagsTo (rotappFlags (accFmt a.af) (Rm.of a.rm) (x.tile e) inv (Claim.matOf (accFmt a.af) (x.tile k))) 120 ∧
    x.runRotapp a k e inv = (Claim.flagged (x.setTile k w.tile) k (f.setWidth 6), Claim.enabledFaults a f) := by
  have run := foldl_range (b := Work.of (accFmt a.af) (x.tile k)) (f := fun w m => (List.range 16).foldl
      (turn (accFmt a.af) (Rm.of a.rm) (rotappRow inv m) (rotationNumber (x.tile e) (2 * rotappRot inv m))
        (rotationNumber (x.tile e) (2 * rotappRot inv m + 1)) inv) w)
    (fun m (w : Work) => w.Shows (accFmt a.af)
      (rotappMats (accFmt a.af) (Rm.of a.rm) (x.tile e) inv (Claim.matOf (accFmt a.af) (x.tile k)) m)
      (flagsTo (rotappFlags (accFmt a.af) (Rm.of a.rm) (x.tile e) inv (Claim.matOf (accFmt a.af) (x.tile k))) m)) 120
    (Work.shows_of _ _) fun m hm v hv => by
      rw [flagsTo_succ]
      exact turnAll_shows hv (rotappRow_lt inv hm) inv
  refine ⟨_, _, run, rfl, ?_⟩
  unfold Ctx.runRotapp
  dsimp only
  rw [rotapp_list, List.foldl_map, Ctx.arrayFlags_eq, ← run.flags]
  rfl

end

/-! ### GIVQR -/

section
variable {F : Fmt} {rm : Rm} {A : Claim.Mat} {w : Work} {f : Flags} {i j : Nat}

/-- One rotation of GIVQR on the copy. -/
def givWork (F : Fmt) (rm : Rm) (w : Work) (ij : Nat × Nat) : Work :=
  let x := F.value (w.el (ij.1 - 1) ij.2)
  let y := F.value (w.el ij.1 ij.2)
  let r := rotation x y
  ((List.range 16).filter (fun k => ij.2 < k)).foldl
    (turn F rm (ij.1 - 1) (Fmt.f64.value r.1) (Fmt.f64.value r.2.1) false)
    ((w.put (ij.1 - 1) ij.2 (F.dot2 rm (Fmt.f64.value r.1) x (Fmt.f64.value r.2.1) y)).put ij.1 ij.2 (0, r.2.2))

theorem givens_eq (h : w.Shows F A f) (hi : i < 16) (hj : j < 16) :
    rotation (F.value (w.el (i - 1) j)) (F.value (w.el i j)) = Claim.givens F A i j := by
  rw [h.value (by omega) hj, h.value hi hj]
  rfl

/-- The matrix after a rotation, in column j and the first m columns. -/
def givUpTo (F : Fmt) (rm : Rm) (i j m : Nat) (A : Claim.Mat) : Claim.Mat := fun a b =>
  if b = j ∨ b < m then Claim.givStep F rm i j A a b else A a b

/-- The flags of the columns right of column j. -/
def rightFlags (F : Fmt) (rm : Rm) (p j : Nat) (c s : Num) (A : Claim.Mat) (k : Nat) : Flags :=
  if j < k then turnFlags F rm p c s A k else 0

theorem orAll_givFlags {p j : Nat} (hj : j < p + 1) (hp : p + 1 < 16) :
    let c := Fmt.f64.value (Claim.givens F A (p + 1) j).1
    let s := Fmt.f64.value (Claim.givens F A (p + 1) j).2.1
    orAll (Claim.givFlags F rm (p + 1) j A) = (Claim.givens F A (p + 1) j).2.2 |||
      ((Claim.rotated F rm p j c s A p j).2 ||| orUpTo 16 (rightFlags F rm p j c s A)) := by
  intro c s
  rw [Claim.givFlags, orAll_cons, Nat.add_sub_cancel,
    orAll_grid fun a b => if a = p + 1 ∧ b = j then 0 else (Claim.rotated F rm p j c s A a b).2,
    orUpTo_rows hp fun i first second k => by rw [rotated_other first second, ite_self],
    orUpTo_apart (by omega : j < 16)]
  congr 2
  · simp
  · refine orUpTo_congr fun k hk => ?_
    unfold rightFlags
    obtain left | rfl | right := lt_trichotomy k j
    · simp [Claim.rotated, left, left.ne, left.le]
    · simp
    · rw [if_neg right.ne', if_pos right, turnFlags, if_neg (by omega), if_neg (by omega), rotated_from right.le,
        rotated_from right.le]

theorem givWork_eq (h : w.Shows F A f) {p j : Nat} (hj : j < p + 1) (hp : p + 1 < 16) :
    let c := Fmt.f64.value (Claim.givens F A (p + 1) j).1
    let s := Fmt.f64.value (Claim.givens F A (p + 1) j).2.1
    givWork F rm w (p + 1, j) = (List.range 16).foldl (fun w k => if j < k then turn F rm p c s false w k else w)
      ((w.put p j (Claim.rotated F rm p j c s A p j)).put (p + 1) j (0, (Claim.givens F A (p + 1) j).2.2)) := by
  intro c s
  have first : Claim.rotated F rm p j c s A p j = F.dot2 rm c (F.value (A p j)) s (F.value (A (p + 1) j)) := by
    simp [Claim.rotated]
  unfold givWork
  dsimp only
  rw [givens_eq h hp (by omega), Nat.add_sub_cancel, h.value (by omega) (by omega), h.value hp (by omega), first,
    List.foldl_filter]
  simp only [decide_eq_true_eq]
  rfl

/-- A rotation of GIVQR. -/
theorem givWork_shows (h : w.Shows F A f) (hj : j < i) (hi : i < 16) :
    (givWork F rm w (i, j)).Shows F (Claim.givStep F rm i j A) (f ||| orAll (Claim.givFlags F rm i j A)) := by
  obtain ⟨p, rfl⟩ : ∃ p, i = p + 1 := ⟨i - 1, by omega⟩
  have step (a b : Nat) : Claim.givStep F rm (p + 1) j A a b = if a = p + 1 ∧ b = j then 0
      else (Claim.rotated F rm p j (Fmt.f64.value (Claim.givens F A (p + 1) j).1)
        (Fmt.f64.value (Claim.givens F A (p + 1) j).2.1) A a b).1 := rfl
  rw [givWork_eq h hj hi, orAll_givFlags hj hi]
  generalize Fmt.f64.value (Claim.givens F A (p + 1) j).1 = c at step ⊢
  generalize Fmt.f64.value (Claim.givens F A (p + 1) j).2.1 = s at step ⊢
  refine (foldl_range (fun m (v : Work) => v.Shows F (givUpTo F rm (p + 1) j m A)
    (f ||| (Claim.rotated F rm p j c s A p j).2 ||| (Claim.givens F A (p + 1) j).2.2 |||
      orUpTo m (rightFlags F rm p j c s A))) 16 ?_ ?_).congr (fun a ha b hb => if_pos (.inr hb)) (by ac_rfl)
  · refine ((h.put (by omega) (by omega) _).put hi (by omega) _).congr (fun a ha b hb => ?_) (by simp)
    simp only [Mat.set, givUpTo, Nat.not_lt_zero, or_false, step]
    by_cases col : b = j
    · subst col
      by_cases low : a = p + 1
      · simp [low]
      by_cases top : a = p
      · simp [top]
      · simp [low, top, rotated_other top low]
    · simp [col]
  · intro m hm v hv
    rw [orUpTo_succ, ← BitVec.or_assoc]
    have column (hm : j < m) (a : Nat) : givUpTo F rm (p + 1) j m A a m = A a m := if_neg (by omega)
    split
    · next right =>
      have turned := turn_shows (rm := rm) (c := c) (s := s) hv hi hm false
      simp only [Bool.false_eq_true, if_false] at turned
      refine turned.congr (fun a ha b hb => ?_) ?_
      · by_cases here : b = m
        · subst here
          rw [if_pos rfl, givUpTo, if_pos (by omega), step, if_neg (by omega), rotated_from right.le,
            rotated_congr (column right)]
        · have next : (b = j ∨ b < m + 1) ↔ (b = j ∨ b < m) := by omega
          simp only [here, givUpTo, if_false, next]
      · rw [rightFlags, if_pos right, turnFlags, turnFlags, rotated_congr (column right), rotated_congr (column right)]
    · next left =>
      refine hv.congr (fun a ha b hb => ?_) (by simp [rightFlags, left])
      unfold givUpTo
      by_cases here : b = m
      · -- Left of column j a rotation changes nothing.
        subst here
        by_cases same : b = j
        · simp [same]
        · have before : b < j := by omega
          rw [if_neg (by omega), if_pos (by omega), step, if_neg (by omega)]
          simp [Claim.rotated, before]
      · have next : (b = j ∨ b < m + 1) ↔ (b = j ∨ b < m) := by omega
        simp only [next]

end

/-- The matrices of a GIVQR. -/
def givMats (F : Fmt) (rm : Rm) : Claim.Mat → Nat → Claim.Mat :=
  stepsFrom (fun r => Claim.givStep F rm (rotationAt r).1 (rotationAt r).2) 0

/-- Rotation r of a GIVQR. -/
def givRotation (F : Fmt) (rm : Rm) (B : Claim.Mat) (r : Nat) : Nat × Nat × Flags :=
  Claim.givens F (givMats F rm B r) (rotationAt r).1 (rotationAt r).2

/-- What the first n rotations have yielded, c and s of each. -/
def givPairs (F : Fmt) (rm : Rm) (B : Claim.Mat) (n : Nat) : List Nat :=
  (List.range n).flatMap (fun r => [(givRotation F rm B r).1, (givRotation F rm B r).2.1])

theorem getElem?_pairs {α : Type} (a b : Nat → α) (n : Nat) :
    ((List.range n).flatMap (fun r => [a r, b r])).length = 2 * n ∧
      ∀ r < n, ((List.range n).flatMap (fun r => [a r, b r]))[2 * r]? = some (a r) ∧
        ((List.range n).flatMap (fun r => [a r, b r]))[2 * r + 1]? = some (b r) := by
  induction n with
  | zero => simp
  | succ n ih =>
    obtain ⟨length, entries⟩ := ih
    rw [List.range_succ, List.flatMap_append]
    refine ⟨by simp [length]; omega, fun r hr => ?_⟩
    obtain before | rfl : r < n ∨ r = n := by omega
    · rw [List.getElem?_append_left (by omega), List.getElem?_append_left (by omega)]
      exact entries r before
    · rw [List.getElem?_append_right (by omega), List.getElem?_append_right (by omega), length]
      simp

section
variable (x : Ctx) (a : ArrayOp) (k e : BitVec 3)

/-- The flags of rotation r of a GIVQR. -/
def givRunFlags (F : Fmt) (rm : Rm) (B : Claim.Mat) (r : Nat) : List Flags :=
  Claim.givFlags F rm (rotationAt r).1 (rotationAt r).2 (givMats F rm B r)

/-- The tile of rotations that some c and s make. -/
def rotationTile (l : List Nat) : Tile := Tile.of (fun i j => BitVec.ofNat 64 (l.toArray.getD (16 * i + j) 0))

theorem el_rotationTile (l : List Nat) {q : Nat} (h : q < 256) :
    (rotationTile l).el (q / 16) (q % 16) = BitVec.ofNat 64 (l[q]?.getD 0) := by
  rw [rotationTile, Tile.el_of _ (by omega) (by omega), Nat.div_add_mod]
  simp

/-- No rotation fills the last row. -/
theorem el_rotationTile_last {F : Fmt} {rm : Rm} {B : Claim.Mat} {j : Nat} (hj : j < 16) :
    (rotationTile (givPairs F rm B 120)).el 15 j = 0 := by
  obtain ⟨length, -⟩ := getElem?_pairs (fun r => (givRotation F rm B r).1) (fun r => (givRotation F rm B r).2.1) 120
  have place := el_rotationTile (givPairs F rm B 120) (by omega : 240 + j < 256)
  rw [show (240 + j) / 16 = 15 by omega, show (240 + j) % 16 = j by omega, List.getElem?_eq_none (by rw [givPairs]; omega)] at place
  exact place

theorem Ctx.runGivqr_done : ∃ w f,
    Work.Shows w (accFmt a.af) (givMats (accFmt a.af) (Rm.of a.rm) (Claim.matOf (accFmt a.af) (x.tile k)) 120) f ∧
    f = flagsTo (givRunFlags (accFmt a.af) (Rm.of a.rm) (Claim.matOf (accFmt a.af) (x.tile k))) 120 ∧
    x.runGivqr a k e = (Claim.flagged ((x.setTile k w.tile).setTile e
        (rotationTile (givPairs (accFmt a.af) (Rm.of a.rm) (Claim.matOf (accFmt a.af) (x.tile k)) 120))) k (f.setWidth 6),
      Claim.enabledFaults a f) := by
  have run := foldl_entries (b := (Work.of (accFmt a.af) (x.tile k), ([] : List Nat)))
      (f := fun st ij => (givWork (accFmt a.af) (Rm.of a.rm) st.1 ij,
        (rotation ((accFmt a.af).value (st.1.el (ij.1 - 1) ij.2)) ((accFmt a.af).value (st.1.el ij.1 ij.2))).2.1 ::
        (rotation ((accFmt a.af).value (st.1.el (ij.1 - 1) ij.2)) ((accFmt a.af).value (st.1.el ij.1 ij.2))).1 :: st.2))
    (fun r st => st.1.Shows (accFmt a.af) (givMats (accFmt a.af) (Rm.of a.rm) (Claim.matOf (accFmt a.af) (x.tile k)) r)
        (flagsTo (givRunFlags (accFmt a.af) (Rm.of a.rm) (Claim.matOf (accFmt a.af) (x.tile k))) r) ∧
      st.2.reverse = givPairs (accFmt a.af) (Rm.of a.rm) (Claim.matOf (accFmt a.af) (x.tile k)) r)
    rotations ⟨Work.shows_of _ _, rfl⟩ fun r hr st ⟨tile, pairs⟩ => by
      have entry : rotations[r] = rotationAt r := (List.getD_eq_getElem _ _ hr).symm
      obtain ⟨less, small⟩ := rotationAt_below (rotations_length ▸ hr)
      rw [entry, flagsTo_succ, givens_eq tile small (by omega)]
      refine ⟨givWork_shows tile less small, ?_⟩
      simp only [List.reverse_cons, pairs, givPairs, List.range_succ, List.flatMap_append, List.append_assoc]
      rfl
  rw [rotations_length] at run
  obtain ⟨tile, pairs⟩ := run
  refine ⟨_, _, tile, rfl, ?_⟩
  rw [← pairs, ← tile.flags, ← Ctx.arrayFlags_eq]
  unfold Ctx.runGivqr
  generalize rotations = l
  rfl

end

/-! ### rot -/

/-- A pattern of FP64 with its sign inverted, but for a NaN. -/
theorem negated_eq (neg : Bool) (b : Nat) : (if neg then negateP b else b) =
    if neg ∧ (Fmt.f64.value b).isNan = false then (if b < 2 ^ 63 then b + 2 ^ 63 else b - 2 ^ 63) else b := by
  cases neg with
  | false => simp
  | true =>
    rw [negateP]
    cases (Fmt.f64.value b).isNan <;> simp

/-- The five rounded steps of R232 on a numerator and a denominator: q', the product and the flags. -/
def rotationSteps (num den : Num) : Nat × Nat × Flags :=
  let D := Fmt.f64
  let tau := D.div .rne num den
  let w := D.fma .rne (D.value tau.1) (D.value tau.1) (.fin false 1 0)
  let u := D.sqrt .rne (D.value w.1)
  let q := D.div .rne (.fin false 1 0) (D.value u.1)
  let q' : Nat := if den.neg ∧ (D.value q.1).isNan = false then (if q.1 < 2 ^ 63 then q.1 + 2 ^ 63 else q.1 - 2 ^ 63) else q.1
  let o := D.mul .rne (D.value q') (D.value tau.1)
  (q', o.1, tau.2 ||| w.2 ||| u.2 ||| q.2 ||| o.2)

theorem rotation_nan {x y : Num} (nan : (x.isNan || y.isNan) = true) :
    rotation x y = (Fmt.f64.canon, Fmt.f64.canon, if x.isSnan || y.isSnan then nvF else 0) := if_pos nan

theorem rotation_zero {x y : Num} (nan : (x.isNan || y.isNan) = false) (zero : y.isZero = true) :
    rotation x y = (0x3FF0000000000000, 0, 0) := by
  unfold rotation
  rw [nan, zero]
  rfl

/-- A number above another is no zero. -/
theorem not_isZero_of_lt {x y : Num} (nan : (x.isNan || y.isNan) = false) (less : x.abs.lt y.abs = true) : y.isZero = false := by
  obtain ⟨hx, hy⟩ := Bool.or_eq_false_iff.mp nan
  have above := x.zero_le_size.trans_lt ((Num.lt_abs_iff hx hy).mp less)
  cases y with
  | nan s => rfl
  | inf n => rfl
  | fin n m e =>
    cases m with
    | zero => simp [Num.size, Num.abs, Num.dy, Dy.rat] at above
    | succ m => rfl

/-- Of two numbers of which the second is no zero the larger is the denominator. -/
theorem rotation_steps {x y : Num} (nan : (x.isNan || y.isNan) = false) (zero : y.isZero = false) :
    rotation x y = if x.abs.lt y.abs then ((rotationSteps x y).2.1, (rotationSteps x y).1, (rotationSteps x y).2.2)
      else rotationSteps y x := by
  unfold rotation rotationSteps
  dsimp only
  rw [nan, zero]
  cases x.abs.lt y.abs with
  | true =>
    simp only [negated_eq]
    rfl
  | false =>
    simp only [negated_eq]
    rfl

end Sys2Proof.Machine
end

section
/-! SUPPORT. What GETRF, POTRF, TRSM, GIVQR and ROTAPP leave when they complete, from the runs of their steps. -/

namespace Sys2Proof.Machine

/-- Settles O52: each form completes with what it makes of its context, and its working copy shows the matrices of the steps
that the statement names. -/
theorem factorResults : Obligations.FactorResults := by
  refine ⟨fun s n a rest u k w res queue => ?_, ?_⟩
  · intro c v x F rm s0 tileIs record isNan isZero
    refine ⟨fun instr small => ?_, ?_, fun l => ⟨fun h => maxMagnitude_nan h, fun h inf => maxMagnitude_inf h inf,
      fun h inf q mem largest => maxMagnitude_fin h inf mem largest⟩⟩
    · -- GETRF
      obtain ⟨t, next, completes⟩ := State.completes_of_not_reads (r := fun x => x.runGetrf a k res) queue
        (by simp [ArrayOp.reads, instr]) fun y was => by rw [State.runArray, instr]
      have first : luMats F rm s0 (Claim.matOf F (x.tile k)) s0 = Claim.matOf F (x.tile k) := stepsFrom_start _ _ _
      obtain ⟨e, start, stop, sound, tile, kept, pivs, ends⟩ := x.luOutcome_run a k res (a.start_eq res) small
      replace tile := tile.congr (fun _ _ _ _ => rfl) (BitVec.zero_or (w := 5))
      generalize outcome : x.luOutcome a k res = r at *
      obtain ⟨w', piv, b⟩ := r
      refine ⟨t, e, fun j => pivotOf F (luMats F rm s0 (Claim.matOf F (x.tile k)) j) j,
        luMats F rm s0 (Claim.matOf F (x.tile k)), _, w'.tile, filledPiv e piv, next, start, stop, first,
        fun j hj hj' => ?_, fun i hi j hj => tile.pattern (width_accFmt _) hi hj, fun here i hi j hj => ?_, raised_orAll _,
        fun j hj => ?_, fun e16 => ?_, fun e16 => ?_⟩
      · obtain ⟨noNan, nonzero⟩ := sound j hj hj'
        exact ⟨noNan, nonzero, pivotRow_isPivot (Work.shows_ofMat F _) (by omega) noNan, luMats_succ _ hj⟩
      · rw [show w' = _ from kept here]
        exact Work.el_tile_of F (x.tile k) hi hj
      · change byteOf (filledPiv e piv) j = _
        rw [filledPiv, byteOf_fill piv e hj, show byteOf piv j = _ from pivs j hj]
        show _ = if j < s0 then byteOf x.piv j else if j < e then _ else 255
        by_cases before : j < s0
        · rw [if_neg (by omega), if_neg (by omega), if_pos before]
          have resumed : res = true := by
            by_contra fresh
            exact absurd before (by simp [s0, fresh])
          rw [if_pos resumed]
        · by_cases inside : j < e
          · rw [if_neg (by omega), if_pos ⟨by omega, inside⟩, if_neg before, if_pos inside]
            rfl
          · rw [if_pos (by omega), if_neg before, if_neg inside]
      · obtain ⟨-, done⟩ | ⟨less, -⟩ := ends
        · subst e16
          have run := x.runGetrf_done a k res (outcome.trans (by rw [show b = none from done])) tile first
          rw [run] at completes
          exact completes
        · exact absurd less (by omega)
      · obtain ⟨is16, -⟩ | ⟨less, cause, broken, breaks⟩ := ends
        · exact absurd is16 (by omega)
        · refine ⟨cause, breaks, ?_⟩
          have run := x.runGetrf_broken a k res (outcome.trans (by rw [show b = _ from broken])) tile first
          rw [run] at completes
          exact completes
    · -- POTRF
      intro instr small
      obtain ⟨t, next, completes⟩ := State.completes_of_not_reads (r := fun x => x.runPotrf a k res) queue
        (by simp [ArrayOp.reads, instr]) fun y was => by rw [State.runArray, instr]
      have first : cholMats F rm s0 (Claim.matOf F (x.tile k)) s0 = Claim.matOf F (x.tile k) := stepsFrom_start _ _ _
      obtain ⟨e, run⟩ := x.cholOutcome_run a k res (a.start_eq res) small
      have raised := run.raised
      obtain ⟨start, stop, sound, tile, kept, ends⟩ := run
      generalize outcome : x.cholOutcome a k res = r at *
      obtain ⟨w', b⟩ := r
      refine ⟨t, e, cholMats F rm s0 (Claim.matOf F (x.tile k)), w'.fl, w'.tile, next, start, stop, first,
        fun j hj hj' => ⟨sound j hj hj', stepsFrom_succ _ _ hj⟩, fun i hi j hj => tile.pattern (width_accFmt _) hi hj,
        fun here i hi j hj => ?_, raised, fun e16 => ?_, fun e16 => ?_⟩
      · rw [Work.el_tile _ hi hj, show w'.a = _ from kept here, ← Work.el_tile _ hi hj]
        exact Work.el_tile_of F (x.tile k) hi hj
      · obtain ⟨-, done⟩ | ⟨less, -⟩ := ends
        · rw [x.runPotrf_done a k res (outcome.trans (by rw [show b = none from done])) rfl] at completes
          exact completes
        · exact absurd less (by omega)
      · obtain ⟨is16, -⟩ | ⟨less, low, t', broken, value⟩ := ends
        · exact absurd is16 (by omega)
        · rw [x.runPotrf_broken a k res (outcome.trans (by rw [show b = _ from broken])) value rfl] at completes
          exact ⟨low, completes⟩
  · refine ⟨fun s n a rest u k e w inv fl queue => ?_, ?_⟩
    · intro c v x F rm B T tileIs side unit tr opT fwd order cell
      refine ⟨fun instr => ?_, ?_, ?_⟩
      · -- TRSM
        obtain ⟨t, next, completes⟩ := State.completes_of_not_reads (r := fun x => x.runTrsm a k e fl) queue
          (by simp [ArrayOp.reads, instr]) fun y was => by rw [State.runArray, instr]
        refine ⟨fun d hd divides zero before => ?_, fun sound => ?_⟩
        · refine ⟨t, next, ?_⟩
          rw [x.runTrsm_broken a k e fl divides hd zero before] at completes
          exact completes
        · obtain ⟨w', f, tile, flags, done⟩ := x.runTrsm_done a k e fl sound
          rw [done] at completes
          refine ⟨t, _, f, w'.tile, next, fun i hi j hj => tile.pattern (width_accFmt _) hi hj, fun o ho m hm => ?_, ?_, completes⟩
          · exact (solvedAll_cell ho hm).trans (congrArg Prod.fst (solvedAll_step ho hm).symm)
          · rw [flags, ← orAll_solvedAll]
            exact raised_orAll _
      · -- GIVQR
        intro instr
        obtain ⟨t, next, completes⟩ := State.completes_of_not_reads (r := fun x => x.runGivqr a k e) queue
          (by simp [ArrayOp.reads, instr]) fun y was => by rw [State.runArray, instr]
        obtain ⟨w', f, tile, flags, done⟩ := x.runGivqr_done a k e
        rw [done] at completes
        refine ⟨t, givMats F rm B, f, w'.tile, rotationTile (givPairs F rm B 120), next, rfl,
          fun i hi j hj => tile.pattern (width_accFmt _) hi hj, fun r hr => ⟨rfl, ?_⟩, fun j hj => ?_, ?_, completes⟩
        · obtain ⟨-, entries⟩ := getElem?_pairs (fun r => (givRotation F rm B r).1) (fun r => (givRotation F rm B r).2.1) 120
          obtain ⟨cosine, sine⟩ := entries r hr
          refine ⟨?_, ?_⟩
          · rw [el_rotationTile _ (by omega), givPairs, cosine]
            rfl
          · rw [el_rotationTile _ (by omega), givPairs, sine]
            rfl
        · exact el_rotationTile_last (F := F) (rm := rm) (B := B) hj
        · rw [flags]
          exact raised_orAll _
      · -- ROTAPP
        intro instr
        obtain ⟨t, next, completes⟩ := State.completes_of_not_reads (r := fun x => x.runRotapp a k e inv) queue
          (by simp [ArrayOp.reads, instr]) fun y was => by rw [State.runArray, instr]
        obtain ⟨w', f, tile, flags, done⟩ := x.runRotapp_done a k e inv
        rw [done] at completes
        refine ⟨t, rotappMats F rm (x.tile e) inv B, f, w'.tile, next, rfl,
          fun i hi j hj => tile.pattern (width_accFmt _) hi hj, fun m hm => rfl, ?_, completes⟩
        rw [flags]
        exact raised_orAll _
    · exact ⟨rotations_length, rotations_place, fun x y => ⟨fun nan => rotation_nan nan,
        fun nan zero => rotation_zero nan zero, fun nan zero big => (rotation_steps nan zero).trans (if_neg (by rw [big]; decide)),
        fun nan small => (rotation_steps nan (not_isZero_of_lt nan small)).trans (if_pos small)⟩⟩

end Sys2Proof.Machine
end

section
/-! SUPPORT. The array completes its operations (R218, R222, R234): the control-register writes that come before, the reads that
find nothing, and what a completion leaves. -/

namespace Sys2Proof.Machine

/-! ### Control-register writes before an array operation (R84, R217) -/

/-- Whether a result is a WRC to KSW, PIV, GF or BRK that has not landed, of no later bundle. -/
def Flight.beforeArray (seq : Nat) (f : Flight) : Bool :=
  !f.landed && decide (f.seq ≤ seq) && match f.dest with | .cr n _ => isArrayCr n | _ => false

theorem Flight.beforeArray_iff (seq : Nat) (f : Flight) : f.beforeArray seq = true ↔
    f.landed = false ∧ f.seq ≤ seq ∧ ∃ m w, f.dest = .cr m w ∧ 0x10 ≤ m ∧ m ≤ 0x1A := by
  unfold Flight.beforeArray
  cases hd : f.dest with
  | cr n w =>
    have range : isArrayCr n = true ↔ 0x10 ≤ n ∧ n ≤ 0x1A := by
      simp [isArrayCr, BitVec.le_def]
    simp [range, and_assoc]
  | _ => simp

theorem State.landCr_eq (s : State) (c : CtxId) (seq : Nat) : s.landCr c seq =
    (s.landAll c ((s.ctx c).flight.filter (Flight.beforeArray seq))).updCtx c (fun k =>
      { k with flight := k.flight.map (fun f => if f.beforeArray seq then { f with landed := true } else f) }) := rfl

/-- Between two states control registers of the array alone have changed, of one context. -/
structure State.ArrayCrs (c : CtxId) (s t : State) : Prop where
  device : t = { s with cores := t.cores }
  aq : ∀ n, (t.core n).aq = (s.core n).aq
  other : ∀ d, d ≠ c → t.ctx d = s.ctx d
  here : t.ctx c = { s.ctx c with
    ksw := (t.ctx c).ksw, piv := (t.ctx c).piv, gf := (t.ctx c).gf, brk := (t.ctx c).brk, did := (t.ctx c).did }

theorem State.ArrayCrs.refl (c : CtxId) (s : State) : State.ArrayCrs c s s := ⟨rfl, fun _ => rfl, fun _ _ => rfl, rfl⟩

theorem State.ArrayCrs.trans {c : CtxId} {s t u : State} (h : State.ArrayCrs c s t) (g : State.ArrayCrs c t u) :
    State.ArrayCrs c s u where
  device := by
    rw [g.device, h.device]
  aq n := (g.aq n).trans (h.aq n)
  other d hd := (g.other d hd).trans (h.other d hd)
  here := by
    rw [g.here, h.here]

theorem State.aq_updCtx_any (s : State) (c : CtxId) (f : Ctx → Ctx) (n : Nat) : ((s.updCtx c f).core n).aq = (s.core n).aq := by
  by_cases h : n = c.core
  · rw [h, State.aq_updCtx]
  · rw [State.updCtx, State.setCtx, State.core_setCore_other _ _ h]

theorem State.arrayCrs_updCtx (s : State) (c : CtxId) {f : Ctx → Ctx}
    (h : ∀ k, f k = { k with ksw := (f k).ksw, piv := (f k).piv, gf := (f k).gf, brk := (f k).brk, did := (f k).did }) :
    State.ArrayCrs c s (s.updCtx c f) where
  device := rfl
  aq n := s.aq_updCtx_any c f n
  other d hd := s.ctx_updCtx_other f hd
  here := by
    rw [State.ctx_updCtx_same]
    exact h _

theorem State.arrayCrs_writeCr (s : State) (c : CtxId) {m : BitVec 8} (w : BitVec 6) (v : DWord) (h : isArrayCr m = true) :
    State.ArrayCrs c s (s.writeCr c m w v) := by
  unfold State.writeCr
  split
  · exact s.arrayCrs_updCtx c fun _ => rfl
  · next not =>
    simp only [isArrayCr, Bool.and_eq_true, decide_eq_true_eq] at h
    obtain at18 | at19 | at1A : m.toNat = 0x18 ∨ m.toNat = 0x19 ∨ m.toNat = 0x1A := by omega
    · rw [at18]
      exact s.arrayCrs_updCtx c fun _ => rfl
    · rw [at19]
      exact s.arrayCrs_updCtx c fun _ => rfl
    · rw [at1A]
      exact s.arrayCrs_updCtx c fun _ => rfl

theorem State.arrayCrs_land (s : State) (c : CtxId) {seq : Nat} {f : Flight} (h : f.beforeArray seq = true) :
    State.ArrayCrs c s (s.land c f) := by
  unfold State.land
  simp only [Flight.beforeArray, Bool.and_eq_true] at h
  obtain ⟨-, isCr⟩ := h
  cases hd : f.dest with
  | cr n w =>
    rw [hd] at isCr
    dsimp only
    split
    · exact (s.arrayCrs_writeCr c w _ isCr).trans (State.arrayCrs_updCtx _ c fun _ => rfl)
    · exact State.ArrayCrs.refl c s
  | _ =>
    rw [hd] at isCr
    cases isCr

theorem State.arrayCrs_landAll (s : State) (c : CtxId) {seq : Nat} {fs : List Flight} (h : ∀ f ∈ fs, f.beforeArray seq = true) :
    State.ArrayCrs c s (s.landAll c fs) := by
  have lands : ∀ (l : List Flight) (s : State), (∀ f ∈ l, f.beforeArray seq = true) →
      State.ArrayCrs c s (l.foldl (fun s f => s.land c f) s) := by
    intro l
    induction l with
    | nil => exact fun s _ => State.ArrayCrs.refl c s
    | cons f l ih =>
      intro s hl
      obtain ⟨first, others⟩ := List.forall_mem_cons.mp hl
      exact (s.arrayCrs_land c first).trans (ih _ others)
  exact (lands _ s fun f hf => h f (List.mem_of_mem_filter hf)).trans
    (lands _ _ fun f hf => h f (List.mem_of_mem_filter hf))

/-- Whether a result has landed with the writes before an array operation. -/
def Flight.markedBefore (seq : Nat) (f : Flight) : Flight := if f.beforeArray seq then { f with landed := true } else f

section
variable (s : State) (c : CtxId) (seq : Nat)

theorem State.landCr_device : s.landCr c seq = { s with cores := (s.landCr c seq).cores } := by
  have h := s.arrayCrs_landAll c (fs := (s.ctx c).flight.filter (Flight.beforeArray seq)) fun f hf => (List.mem_filter.mp hf).2
  rw [State.landCr_eq]
  conv_lhs => rw [h.device]
  rfl

theorem State.landCr_aq (n : Nat) : ((s.landCr c seq).core n).aq = (s.core n).aq := by
  have h := s.arrayCrs_landAll c (fs := (s.ctx c).flight.filter (Flight.beforeArray seq)) fun f hf => (List.mem_filter.mp hf).2
  rw [State.landCr_eq, State.aq_updCtx_any, h.aq]

/-- What the writes before an array operation leave of its context. -/
theorem State.landCr_ctx : (s.landCr c seq).ctx c = { s.ctx c with
    ksw := ((s.landCr c seq).ctx c).ksw, piv := ((s.landCr c seq).ctx c).piv, gf := ((s.landCr c seq).ctx c).gf
    brk := ((s.landCr c seq).ctx c).brk, did := ((s.landCr c seq).ctx c).did
    flight := (s.ctx c).flight.map (Flight.markedBefore seq) } := by
  have h := s.arrayCrs_landAll c (fs := (s.ctx c).flight.filter (Flight.beforeArray seq)) fun f hf => (List.mem_filter.mp hf).2
  rw [State.landCr_eq, State.ctx_updCtx_same, h.here]
  rfl

theorem State.landCr_stored (d : Dest) : ((s.landCr c seq).ctx c).stored d = (s.ctx c).stored d := by
  rw [s.landCr_ctx c seq]
  cases d <;> rfl

theorem State.landCr_tile (k : BitVec 3) : ((s.landCr c seq).ctx c).tile k = (s.ctx c).tile k := by
  rw [s.landCr_ctx c seq]
  rfl

theorem State.landCr_ops : ((s.landCr c seq).ctx c).ops = (s.ctx c).ops := by rw [s.landCr_ctx c seq]

theorem State.landCr_landed {f : Flight} (h : f ∈ ((s.landCr c seq).ctx c).flight) : f.beforeArray seq = false := by
  rw [s.landCr_ctx c seq] at h
  obtain ⟨g, -, rfl⟩ := List.mem_map.mp h
  unfold Flight.markedBefore
  split
  · simp [Flight.beforeArray]
  · next not => exact Bool.eq_false_iff.mpr not

theorem State.landCr_none (h : ∀ f ∈ (s.ctx c).flight, f.beforeArray seq = false) : (s.landCr c seq).ctx c = s.ctx c := by
  have filtered : (s.ctx c).flight.filter (Flight.beforeArray seq) = [] := List.filter_eq_nil_iff.mpr fun f hf => by simp [h f hf]
  have kept : (s.ctx c).flight.map (fun f => if f.beforeArray seq then { f with landed := true } else f) = (s.ctx c).flight :=
    (List.map_congr_left fun f hf => if_neg (by simp [h f hf])).trans (List.map_id _)
  rw [State.landCr_eq, State.ctx_updCtx_same, filtered, show s.landAll c [] = s from rfl, kept]

theorem State.landCr_one {f : Flight} (only : (s.ctx c).flight = [f]) (h : f.beforeArray seq = true) {m : BitVec 8} {w : BitVec 6}
    (dest : f.dest = .cr m w) (live : f.live.getLsbD 0 = true) :
    (s.landCr c seq).ctx c = ((s.writeCr c m w (f.val.setWidth 64)).updCtx c (fun k => { k with
      flight := [{ f with landed := true }], did := k.did ++ [.result f.dest f.val] })).ctx c := by
  have filtered : (s.ctx c).flight.filter (Flight.beforeArray seq) = [f] := by simp [only, h]
  have landed : s.landAll c [f] = (s.writeCr c m w (f.val.setWidth 64)).updCtx c (fun k => k.commit (.result f.dest f.val)) := by
    simp [State.landAll, State.land, dest, live]
  have isArray : isArrayCr m = true := by
    rw [Flight.beforeArray, dest] at h
    exact (Bool.and_eq_true_iff.mp h).2
  have flight : ((s.writeCr c m w (f.val.setWidth 64)).ctx c).flight = [f] := by
    rw [(s.arrayCrs_writeCr c w _ isArray).here, only]
  rw [State.landCr_eq, State.ctx_updCtx_same, filtered, landed, State.ctx_updCtx_same, State.ctx_updCtx_same, Ctx.commit]
  dsimp only
  rw [flight, List.map_singleton, if_pos h]

end

/-! ### Reads that find no error (R258) -/

theorem State.find_sound {s : State} (h : s.flaws = []) (one : Bool) (pc : DWord) (keys : List Nat) : s.find one pc keys = s := by
  rw [State.find, h]
  rfl

theorem State.readSteps_sound {s : State} (h : s.flaws = []) (one stop : Bool) (pc : DWord) (l : List ReadStep) :
    (s.readSteps one stop pc l).1 = s := by
  induction l with
  | nil => rfl
  | cons p l ih =>
    unfold State.readSteps
    dsimp only
    rw [State.find_sound h]
    split
    · rfl
    · exact ih

theorem State.noteArray_same (s : State) (c : CtxId) (a : ArrayOp) (keys : List Nat) : Claim.Same (s.noteArray c a keys) s := by
  unfold State.noteArray
  split
  · exact ⟨s.log, s.past, rfl⟩
  · exact ⟨_, _, rfl⟩

theorem State.readFor_same {s : State} (h : s.flaws = []) (c : CtxId) (a : ArrayOp) : Claim.Same (s.readFor c a) s := by
  unfold State.readFor
  split
  · dsimp only
    rw [State.readSteps_sound h]
    exact s.noteArray_same c a _
  · exact ⟨s.log, s.past, rfl⟩

/-- Where nothing of the context comes before its reads, nothing performs before them. -/
theorem State.beforeArray_first {s : State} {c : CtxId} {a : ArrayOp} (h : ∀ p ∈ s.pends c, a.before ≤ p.id) :
    s.beforeArray c a = s := by
  unfold State.beforeArray
  split
  · refine State.performFor_of_none fun e he => ?_
    have after : ¬ e.id < a.before := not_lt.mpr (h e he)
    simp [State.accOf, after]
  · rfl

theorem State.pends_congr {s t : State} {c : CtxId} (aq : (t.core c.core).aq = (s.core c.core).aq)
    (ops : (t.ctx c).ops = (s.ctx c).ops) (ksq : t.ksq = s.ksq) : t.pends c = s.pends c := by
  unfold State.pends
  rw [aq, ops, ksq]

theorem State.landCr_pends (s : State) (c : CtxId) (seq : Nat) : (s.landCr c seq).pends c = s.pends c :=
  State.pends_congr (s.landCr_aq c seq _) (s.landCr_ops c seq) (by rw [s.landCr_device c seq])

/-! ### Completion with what it reads -/

section
variable (s : State) (l p : List Ev) (c : CtxId) (a : ArrayOp) (was : List Nat)

theorem State.runMultiply_noted (np : BitVec 4) (k : BitVec 3) (dn : Nat) (z t f o : Bool) :
    ({ s with log := l, past := p } : State).runMultiply c a was np k dn z t f o = s.runMultiply c a was np k dn z t f o := rfl

theorem State.runK4_noted (k : BitVec 3) (da db : BitVec 4) (z : Bool) :
    ({ s with log := l, past := p } : State).runK4 c a was k da db z = s.runK4 c a was k da db z := rfl

theorem State.runAccld_noted (k : BitVec 3) :
    ({ s with log := l, past := p } : State).runAccld c a was k = s.runAccld c a was k := rfl

theorem State.consumed_noted (rs : List Run) : ({ s with log := l, past := p } : State).consumed was rs = s.consumed was rs := rfl

theorem State.bytes_noted (k n : Nat) : ({ s with log := l, past := p } : State).bytes k n = s.bytes k n := rfl

theorem State.ownKey_noted (n b : Nat) : ({ s with log := l, past := p } : State).ownKey n b = s.ownKey n b := rfl

theorem State.ctx_noted (c : CtxId) : ({ s with log := l, past := p } : State).ctx c = s.ctx c := rfl

theorem State.runCbld_noted (d : BitVec 4) (cb : BitVec 2) :
    ({ s with log := l, past := p } : State).runCbld c a was d cb = s.runCbld c a was d cb := by
  simp only [State.runCbld, State.consumed_noted, State.bytes_noted, State.ownKey_noted, State.ctx_noted]

theorem State.runSpld_noted (d : BitVec 4) :
    ({ s with log := l, past := p } : State).runSpld c a was d = s.runSpld c a was d := rfl

/-- What an array operation makes of its context does not look at the log. -/
theorem State.runArray_noted : ({ s with log := l, past := p } : State).runArray c a was = s.runArray c a was := by
  unfold State.runArray
  dsimp only
  split
  · exact s.runMultiply_noted ..
  · exact s.runMultiply_noted ..
  · exact s.runK4_noted ..
  · rfl
  · rfl
  · rfl
  · rfl
  · rfl
  · rfl
  · exact s.runAccld_noted ..
  · rfl
  · exact s.runCbld_noted ..
  · exact s.runSpld_noted ..
  · rfl

end

end Sys2Proof.Machine
end

section
/-! SUPPORT. What the completion of the oldest array operation leaves where its reads find no error (R218, R222); ACCZ and DRAIN
(R234, R235). -/

namespace Sys2Proof.Machine

theorem State.cores_trans {s t u : State} (h : t = { s with cores := t.cores }) (g : u = { t with cores := u.cores }) :
    u = { s with cores := u.cores } := by
  rw [g, h]

theorem State.setCtx_device (s : State) (c : CtxId) (x : Ctx) : s.setCtx c x = { s with cores := (s.setCtx c x).cores } := rfl

theorem State.updCore_device (s : State) (n : Nat) (f : Core → Core) :
    s.updCore n f = { s with cores := (s.updCore n f).cores } := rfl

theorem State.failArray_device (s : State) (c : CtxId) (a : ArrayOp) (fs : List FaultDetail) :
    s.failArray c a fs = { s with cores := (s.failArray c a fs).cores } :=
  State.cores_trans (s.updCore_device _ _) (State.setCtx_device _ c _)

theorem State.finishArray_device (s : State) (n : Nat) (a : ArrayOp) (rest : List ArrayOp) (r : Ctx × List FaultDetail) :
    s.finishArray n a rest r = { s with cores := (s.finishArray n a rest r).cores } := by
  have set := State.cores_trans (s.updCore_device n (fun k => { k with aq := rest }))
    (State.setCtx_device _ ⟨n, a.one⟩ (r.1.withLanded a))
  unfold State.finishArray
  dsimp only
  split
  · exact set
  · exact State.cores_trans set (State.failArray_device _ _ a r.2)

theorem State.setCells_noted (l p : List Ev) (cs : List (Nat × Byte)) : ∀ s : State,
    ({ s with log := l, past := p } : State).setCells cs = { s.setCells cs with log := l, past := p } := by
  induction cs with
  | nil => exact fun _ => rfl
  | cons c cs ih => exact fun s => ih (s.setByte c.1 c.2)

theorem State.asSeen_noted (s : State) (l p : List Ev) (x : Option Seen) :
    ({ s with log := l, past := p } : State).asSeen x = { s.asSeen x with log := l, past := p } := by
  cases x with
  | none => rfl
  | some x =>
    simp only [State.asSeen, State.setCells_noted]

theorem completes_of_same {s s' t : State} {n : Nat} {a : ArrayOp} {rest : List ArrayOp} {x : Ctx} {fs : List FaultDetail}
    (h : Claim.Completes s' t n a rest x fs) (same : Claim.Same s' s) : Claim.Completes s t n a rest x fs := by
  obtain ⟨l, p, rfl⟩ := same
  exact h

/-- Changes of the cores and of the log leave the rest of the device. -/
theorem State.device_kept {s v u t : State} {l p : List Ev} (hv : v = { s with cores := v.cores })
    (hu : u = { v with log := l, past := p }) (ht : t = { u with cores := t.cores }) :
    s = { t with cores := s.cores, log := s.log, past := s.past } := by
  rw [ht, hu, hv]

theorem State.landCr_poison (s : State) (c : CtxId) (seq : Nat) : (s.landCr c seq).poison = s.poison := by
  rw [s.landCr_device c seq]

/-- The oldest array operation completes where its reads find no error and nothing of its context comes before them. -/
theorem State.completeArray_sound {s : State} {n : Nat} {a : ArrayOp} {rest : List ArrayOp} (queue : (s.core n).aq = a :: rest)
    (flaws : s.flaws = []) (first : ∀ p ∈ s.pends ⟨n, a.one⟩, a.before ≤ p.id) :
    let v := s.landCr ⟨n, a.one⟩ a.seq
    let r := ((v.withAq n rest).asSeen a.seen).runArray ⟨n, a.one⟩ a (a.poisonBefore s.poison)
    ∃ t, exec (.arrayOperationCompletion n .none) s = .next t ∧ Claim.Completes v t n a rest r.1 r.2 ∧
      s = { t with cores := s.cores, log := s.log, past := s.past } := by
  intro v r
  have device : v = { s with cores := v.cores } := s.landCr_device _ _
  have before : v.beforeArray ⟨n, a.one⟩ a = v := State.beforeArray_first fun p hp => first p (by rwa [← s.landCr_pends _ a.seq])
  obtain ⟨l, p, noted⟩ := State.readFor_same (s := v) (by rw [device]; exact flaws) ⟨n, a.one⟩ a
  have run : (((v.readFor ⟨n, a.one⟩ a).withAq n rest).asSeen a.seen).runArray ⟨n, a.one⟩ a
      (a.poisonBefore v.poison) = r := by
    rw [noted, show ({ v with log := l, past := p } : State).withAq n rest = { v.withAq n rest with log := l, past := p } from rfl,
      State.asSeen_noted, State.runArray_noted, show v.poison = s.poison from s.landCr_poison _ _]
  refine ⟨s.completeArray n, rfl, ?_⟩
  rw [State.completeArray_eq queue]
  dsimp only
  rw [before, run]
  exact ⟨completes_of_same ((v.readFor ⟨n, a.one⟩ a).finishArray_completes n a rest r) ⟨l, p, noted⟩,
    State.device_kept device noted (State.finishArray_device _ n a rest r)⟩

/-! ### What the forms without a multiplication leave -/

section
variable (s : State) (c : CtxId) {a : ArrayOp} (was : List Nat) {u : Pfx}

theorem State.runArray_accz {k : BitVec 3} (h : a.instr = .accz u k) :
    s.runArray c a was = ((s.ctx c).setTile k (((s.ctx c).tile k).rows [] a.row), []) := by rw [State.runArray, h]

theorem State.runArray_drain {k : BitVec 3} {q : BitVec 2} (h : a.instr = .drain u k q) :
    s.runArray c a was = ((s.ctx c).drainRest a k q, []) := by rw [State.runArray, h]

theorem State.runArray_accld {k : BitVec 3} {d : BitVec 4} (h : a.instr = .accld u k d) :
    s.runArray c a was = s.runAccld c a was k := by rw [State.runArray, h]

theorem State.runArray_cbld {d : BitVec 4} {cb : BitVec 2} (h : a.instr = .cbld u d cb) :
    s.runArray c a was = s.runCbld c a was d cb := by rw [State.runArray, h]

theorem State.runArray_spld {d : BitVec 4} (h : a.instr = .spld u d) :
    s.runArray c a was = s.runSpld c a was d := by rw [State.runArray, h]

end

/-! ### ACCZ -/

theorem Tile.el_rows (old new : Tile) (act : Nat → Bool) {i j : Nat} (hi : i < 16) (hj : j < 16) :
    (Tile.rows old new act).el i j = if act i then new.el i j else old.el i j := Tile.el_of _ hi hj

/-! ### DRAIN -/

/-- Lane l of entry m of a drained tile (R235). -/
def drainLane (af : BitVec 2) (t : Tile) (guard : BitVec 32) (m l : Nat) : BitVec 32 :=
  if guard.getLsbD l = false then 0
  else if af = 1 then (t.el m (l / 2)).extractLsb' (32 * (l % 2)) 32
  else (t.el (2 * m + l / 16) (l % 16)).extractLsb' 0 32

theorem testBit_packElems (w : Nat) (xs : List Nat) (i : Nat) {b : Nat} (hb : b < w) :
    (packElems w xs).testBit (w * i + b) = (xs.getD i 0).testBit b := by
  have bit := congrArg (fun x => x.testBit b) (packElems_div_mod w xs i)
  simpa [Nat.testBit_mod_two_pow, Nat.testBit_div_two_pow, hb, Nat.add_comm] using bit

theorem getLsbD_lanePart (g : BitVec 32) {j : Nat} (h : j < 128) : (lanePart g).getLsbD j = g.getLsbD (j / 4) := by
  rw [lanePart, BitVec.getLsbD_ofNat, testBit_natOfBits]
  simp [h, List.getD_eq_getElem?_getD]

theorem drainEntry_lane (af : BitVec 2) (t : Tile) (guard : BitVec 32) (m : Nat) {l : Nat} (hl : l < 32) :
    (drainEntry af t guard m).extractLsb' (32 * l) 32 = drainLane af t guard m l := by
  refine BitVec.eq_of_getLsbD_eq fun b hb => ?_
  have room : 32 * l + b < 1024 := by omega
  have mask : (byteMask (lanePart guard)).getLsbD (32 * l + b) = guard.getLsbD l := by
    rw [getLsbD_byteMask _ room, getLsbD_lanePart guard (by omega)]
    congr 1
    omega
  rw [BitVec.getLsbD_extractLsb', decide_eq_true hb, Bool.true_and, drainEntry, BitVec.getLsbD_and, mask]
  unfold drainLane
  cases guard.getLsbD l with
  | false => simp
  | true =>
    rw [Bool.and_true, if_neg Bool.false_ne_true.symm, BitVec.getLsbD_ofNat, decide_eq_true room, Bool.true_and]
    by_cases wide : af = 1
    · have place : 32 * l + b = 64 * (l / 2) + (32 * (l % 2) + b) := by omega
      have entry : l / 2 < 16 := by omega
      rw [if_pos wide, if_pos wide, place, testBit_packElems 64 _ _ (by omega)]
      simp [List.getD_eq_getElem?_getD, entry, hb, BitVec.testBit_toNat]
    · rw [if_neg wide, if_neg wide, testBit_packElems 32 _ _ hb]
      simp [List.getD_eq_getElem?_getD, hl, hb, BitVec.testBit_toNat]

/-- The entry that a DRAIN writes takes the place of its first counted one. -/
theorem writeNext_first (op : Nat) (v : Vec) (mask : BitVec 32) (h z : List QEntry) {y : QEntry} (mine : y.op = op)
    (unwritten : y.written = false) (before : ∀ w ∈ h, w.op = op → w.written = true) :
    writeNext op v mask (h ++ y :: z) = h ++ ⟨v, mask, true, op⟩ :: z := by
  induction h with
  | nil => exact if_pos ⟨mine, by rw [unwritten]; rfl⟩
  | cons w h ih =>
    obtain ⟨first, others⟩ := List.forall_mem_cons.mp before
    have skip : ¬ (w.op = op ∧ (!w.written) = true) := fun ⟨same, open_⟩ => by
      rw [first same] at open_
      cases open_
    rw [List.cons_append, writeNext, if_neg skip, ih others]
    rfl

theorem State.drainStep_writes {s : State} {n : Nat} {a : ArrayOp} {rest : List ArrayOp} {u : Pfx} {k : BitVec 3} {q : BitVec 2}
    (queue : (s.core n).aq = a :: rest) (h : a.instr = .drain u k q) (more : a.drained < drainEntries a.af) :
    s.drainStep n = (s.withAq n ({ a with drained := a.drained + 1 } :: rest)).updCtx ⟨n, a.one⟩
      (fun x => x.drainWrite a k q a.drained) := by
  unfold State.drainStep
  rw [queue]
  dsimp only
  rw [h]
  exact if_pos more

/-- What the write of an entry leaves of the queue and of the commit signature. -/
theorem Ctx.drainWrite_first (x : Ctx) {a : ArrayOp} (k : BitVec 3) (q : BitVec 2) (m : Nat) {h z : List QEntry} {y : QEntry}
    (queue : SMap.get [] x.q q.toNat = h ++ y :: z) (mine : y.op = a.id) (unwritten : y.written = false)
    (before : ∀ w ∈ h, w.op = a.id → w.written = true) :
    let e := drainEntry a.af (x.tile k) a.guard m
    x.drainWrite a k q m = { x with
      did := x.did ++ [.lands (.queue q.toNat) [e.toNat, a.guard.toNat]]
      q := SMap.setD [] x.q q.toNat (h ++ ⟨e, a.guard, true, a.id⟩ :: z) } := by
  unfold Ctx.drainWrite
  dsimp only
  rw [queue, writeNext_first _ _ _ h z mine unwritten before]
  rfl

end Sys2Proof.Machine
end

section
/-! SUPPORT. Tile moves complete (R215, R218, R234): ACCMOV, ACCT once it has read, and ACCST as it stores. -/

namespace Sys2Proof.Machine

/-! ### Two updates of one context, whatever the second leaves -/

theorem SMap.erase_put {α : Type} (m : SMap α) (k : Nat) (v : α) : (m.put k v).erase k = m.erase k := by
  induction m with
  | nil => simp [SMap.put, SMap.erase]
  | cons p m ih =>
    obtain ⟨j, u⟩ := p
    unfold SMap.put
    split
    · simp [SMap.erase]
    · split
      · next same => simp [SMap.erase, same]
      · next other => simp [SMap.erase, other, ih]

theorem SMap.setD_setD_first {α : Type} [DecidableEq α] (d : α) (m : SMap α) (k : Nat) {v : α} (w : α) (hv : v ≠ d) :
    (m.setD d k v).setD d k w = m.setD d k w := by
  by_cases hw : w = d
  · unfold SMap.setD
    rw [if_neg hv, if_pos hw, if_pos hw, SMap.erase_put]
  · exact SMap.setD_setD d m k hv hw

/-- Two updates of a context are one, where the first does not leave it as after reset. -/
theorem State.updCtx_updCtx_first (s : State) (c : CtxId) (f g : Ctx → Ctx) (hf : f (s.ctx c) ≠ Ctx.reset) :
    (s.updCtx c f).updCtx c g = s.updCtx c (fun k => g (f k)) := by
  have inner := State.ctx_updCtx_same s c f
  unfold State.updCtx at inner ⊢
  rw [inner]
  unfold State.setCtx
  rw [State.core_setCore_same, Core.setCtx_setCtx]
  unfold State.setCore
  dsimp only
  rw [SMap.setD_setD_first _ _ _ _ (Core.setCtx_ne_reset hf)]

/-! ### The oldest operation of a context -/

section
variable {k : Ctx} {o : MemOp} {rest : List MemOp} {id : Nat}

theorem Ctx.findOp_first (h : k.ops = o :: rest) (same : o.id = id) : k.findOp id = some o := by
  unfold Ctx.findOp
  rw [h]
  exact List.find?_cons_of_pos (by simp [same])

theorem Ctx.dropOp_first (h : k.ops = o :: rest) (same : o.id = id) (others : ∀ p ∈ rest, p.id ≠ id) :
    k.dropOp id = { k with ops := rest } := by
  unfold Ctx.dropOp
  rw [h, List.filter_cons_of_neg (by simp [same]), List.filter_eq_self.mpr fun p hp => by simp [others p hp]]

theorem Ctx.updOp_first (h : k.ops = o :: rest) (same : o.id = id) (others : ∀ p ∈ rest, p.id ≠ id) (f : MemOp → MemOp) :
    k.updOp id f = { k with ops := f o :: rest } := by
  unfold Ctx.updOp
  rw [h, List.map_cons, if_pos same, List.map_congr_left (g := fun p => p) fun p hp => if_neg (others p hp), List.map_id']

end

/-! ### Completion -/

/-- What a tile move leaves of its context once it has gone from the operations. -/
def MemOp.finishTile (o : MemOp) (k : Ctx) : Ctx :=
  match o.act with
  | .move kd rows t =>
    let new := (k.tile kd).rows t (fun i => rows.getLsbD i)
    (k.setTile kd new).commit (.lands (.tile kd.toNat) (new.flatMap (fun e => [e.1, e.2.toNat])))
  | .load (.desc d) =>
    { k.commit (.lands (.descriptor d.toNat) [o.val]) with d := SMap.setD 0 k.d d.toNat (BitVec.ofNat 256 o.val) }
  | _ => k

/-- ACCMOV replaces the active rows of its tile. -/
theorem MemOp.finishTile_move {o : MemOp} {kd : BitVec 3} {rows : BitVec 16} {t : Tile} (act : o.act = .move kd rows t) (k : Ctx) :
    let new := (k.tile kd).rows t (fun i => rows.getLsbD i)
    o.finishTile k = { k with
      k := SMap.setD [] k.k kd.toNat new
      did := k.did ++ [.lands (.tile kd.toNat) (new.flatMap (fun e => [e.1, e.2.toNat]))] } := by
  rw [MemOp.finishTile, act]
  rfl

/-- ACCT writes its descriptor. -/
theorem MemOp.finishTile_load {o : MemOp} {d : BitVec 4} (act : o.act = .load (.desc d)) (k : Ctx) :
    o.finishTile k = { k with
      d := SMap.setD 0 k.d d.toNat (BitVec.ofNat 256 o.val)
      did := k.did ++ [.lands (.descriptor d.toNat) [o.val]] } := by
  rw [MemOp.finishTile, act]
  rfl

section
variable {s : State} {c : CtxId} {o : MemOp} {rest : List MemOp}

theorem exec_tileMoveCompletion_first (ops : (s.ctx c).ops = o :: rest) (slot : o.slot = 5)
    (ready : (o.performed || s.mayPerform c o) = true) : exec (.tileMoveCompletion c 0) s = .next (s.completeTile c o) := by
  have first : s.opAt c 0 = some o := by rw [State.opAt, ops]; rfl
  change execTileMoveCompletion c 0 s = _
  unfold execTileMoveCompletion
  rw [first]
  simp [MemOp.isTile, slot, ready]

theorem State.completeTile_eq {s' : State} {o' : MemOp} (performed : (if o.performed then s else s.performOp c o) = s')
    (ops : (s'.ctx c).ops = o' :: rest) (same : o'.id = o.id) :
    s.completeTile c o = s'.updCtx c (fun k => o'.finishTile (k.dropOp o'.id)) := by
  unfold State.completeTile
  rw [performed]
  dsimp only
  rw [Ctx.findOp_first ops same]
  rfl

/-- ACCMOV completes. -/
theorem State.completeTile_move (ops : (s.ctx c).ops = o :: rest) (others : ∀ p ∈ rest, p.id ≠ o.id) {kd : BitVec 3}
    {rows : BitVec 16} {t : Tile} (act : o.act = .move kd rows t) (fresh : o.performed = false) :
    (s.completeTile c o).ctx c = ({ o with performed := true } : MemOp).finishTile { s.ctx c with ops := rest } ∧
      ∀ b, (s.completeTile c o).byte b = s.byte b := by
  have perform : (if o.performed then s else s.performOp c o) =
      s.updCtx c (fun k => k.updOp o.id (fun o => { o with performed := true })) := by
    rw [if_neg (by rw [fresh]; decide), State.performOp, act]
  have after : ((s.updCtx c (fun k => k.updOp o.id (fun o => { o with performed := true }))).ctx c).ops =
      { o with performed := true } :: rest := by
    rw [State.ctx_updCtx_same, Ctx.updOp_first ops rfl others]
  rw [State.completeTile_eq perform after rfl]
  refine ⟨?_, fun _ => rfl⟩
  rw [State.ctx_updCtx_same, Ctx.dropOp_first after rfl others, State.ctx_updCtx_same, Ctx.updOp_first ops rfl others]

/-- ACCT completes once it has read. -/
theorem State.completeTile_load (ops : (s.ctx c).ops = o :: rest) (others : ∀ p ∈ rest, p.id ≠ o.id)
    (done : o.performed = true) :
    (s.completeTile c o).ctx c = o.finishTile { s.ctx c with ops := rest } ∧ ∀ b, (s.completeTile c o).byte b = s.byte b := by
  rw [State.completeTile_eq (if_pos done) ops rfl]
  refine ⟨?_, fun _ => rfl⟩
  rw [State.ctx_updCtx_same, Ctx.dropOp_first ops rfl others]

/-- An operation of the M slot stands beside no operation of a copy slot. -/
theorem State.writeFirst_m (s : State) (c : CtxId) {o : MemOp} (h : o.id % 16 = 5) : s.writeFirst c o = s := by
  have apart (j : Nat) : otherSlot o.id j = false := by simp [otherSlot, h]
  unfold State.writeFirst
  rw [if_neg]
  simp only [Bool.or_eq_true, List.any_eq_true, not_or, not_exists, not_and]
  refine ⟨fun e _ => by simp [apart], fun p _ => ?_⟩
  cases p.2 <;> simp [apart]

theorem State.store_sound (poison : s.poison = []) (flaws : s.flaws = []) (cells : List (Nat × Byte)) :
    s.store cells = (s.setCells cells, none) := if_pos ⟨poison, flaws⟩

/-- A write of the M slot performs where it translates, no bank refuses it and memory holds no error. -/
theorem State.performOp_store (place : o.id % 16 = 5) {data : Nat} (act : o.act = .store data) {l : List (Nat × Nat)}
    (located : s.locate c.core .write o.frags = .ok l) (allowed : ∀ p ∈ l, s.refusedBy c.core p.2 = false)
    (poison : s.poison = []) (flaws : s.flaws = []) : ∃ e, s.performOp c o =
      ((s.setCells (l.map (fun p => (p.2, byteAt data p.1)))).logged e).updCtx c
        (fun k => k.updOp o.id (fun o => { o with performed := true })) := by
  have allowed' : l.find? (fun p => s.refusedBy c.core p.2) = none :=
    List.find?_eq_none.mpr fun p hp => by simp [allowed p hp]
  refine ⟨?_, ?_⟩
  rotate_left
  · rw [State.performOp, act]
    dsimp only
    rw [s.writeFirst_m c place]
    unfold State.performStore
    rw [located]
    dsimp only
    rw [allowed']
    dsimp only
    rw [State.store_sound poison flaws]

/-- ACCST completes as it stores. -/
theorem State.completeTile_store (ops : (s.ctx c).ops = o :: rest) (others : ∀ p ∈ rest, p.id ≠ o.id)
    (place : o.id % 16 = 5) {data : Nat} (act : o.act = .store data) (fresh : o.performed = false) {l : List (Nat × Nat)}
    (located : s.locate c.core .write o.frags = .ok l) (allowed : ∀ p ∈ l, s.refusedBy c.core p.2 = false)
    (poison : s.poison = []) (flaws : s.flaws = []) :
    Claim.Same (s.completeTile c o)
      ((s.setCells (l.map (fun p => (p.2, byteAt data p.1)))).updCtx c (fun x => { x with ops := rest })) := by
  obtain ⟨e, perform⟩ := State.performOp_store place act located allowed poison flaws
  let u := (s.setCells (l.map (fun p => (p.2, byteAt data p.1)))).logged e
  have here : u.ctx c = s.ctx c := by
    change (s.setCells _).ctx c = _
    rw [s.setCells_eq]
    rfl
  have opsU : (u.ctx c).ops = o :: rest := by rw [here, ops]
  have after : ((u.updCtx c (fun k => k.updOp o.id (fun o => { o with performed := true }))).ctx c).ops =
      { o with performed := true } :: rest := by
    rw [State.ctx_updCtx_same, Ctx.updOp_first opsU rfl others]
  have busy : (u.ctx c).updOp o.id (fun o => { o with performed := true }) ≠ Ctx.reset := fun reset => by
    have none := congrArg Ctx.ops reset
    rw [Ctx.updOp_first opsU rfl others] at none
    cases none
  have whole : s.completeTile c o = u.updCtx c (fun k => { k with ops := rest }) := by
    rw [State.completeTile_eq (o := o) (by rw [if_neg (by rw [fresh]; decide), perform]) after rfl,
      u.updCtx_updCtx_first c _ _ busy]
    unfold State.updCtx
    dsimp only
    rw [Ctx.updOp_first opsU rfl others, Ctx.dropOp_first (o := { o with performed := true }) rfl rfl others]
    unfold MemOp.finishTile
    dsimp only
    rw [act]
  rw [whole]
  exact ⟨_, _, rfl⟩

end

end Sys2Proof.Machine
end

section
/-! SUPPORT. ACCLD, CBLD and SPLD as they complete (R198, R203, R220, R234). -/

namespace Sys2Proof.Machine

/-! ### Memory as an array operation reads it -/

/-- The tile that ACCLD makes of the rows of its region. -/
def State.regionTile (s : State) (n : Nat) (d : Descr) (act : Nat → Bool) : Tile :=
  let rows := ((List.range 16).map (fun i => if act i then (s.regionPatterns n d i).toArray else #[])).toArray
  Tile.of (fun i j => BitVec.ofNat 64 ((rows.getD i #[]).getD j 0))

theorem State.setCells_cores (cs : SMap Core) (cells : List (Nat × Byte)) : ∀ s : State,
    ({ s with cores := cs } : State).setCells cells = { s.setCells cells with cores := cs } := by
  induction cells with
  | nil => exact fun _ => rfl
  | cons c cells ih => exact fun s => ih (s.setByte c.1 c.2)

theorem State.asSeen_cores (s : State) (cs : SMap Core) (x : Option Seen) :
    ({ s with cores := cs } : State).asSeen x = { s.asSeen x with cores := cs } := by
  cases x with
  | none => rfl
  | some x => simp only [State.asSeen, State.setCells_cores]

theorem State.asSeen_withAq (s : State) (n : Nat) (l : List ArrayOp) (x : Option Seen) :
    (s.withAq n l).asSeen x = { s.asSeen x with cores := (s.withAq n l).cores } := by
  rw [← State.asSeen_cores]
  rfl

theorem State.bytes_cores (s : State) (cs : SMap Core) (k n : Nat) : ({ s with cores := cs } : State).bytes k n = s.bytes k n := rfl

theorem State.ownKey_cores (s : State) (cs : SMap Core) (n b : Nat) : ({ s with cores := cs } : State).ownKey n b = s.ownKey n b := rfl

theorem State.regionTile_cores (s : State) (cs : SMap Core) (n : Nat) (d : Descr) (act : Nat → Bool) :
    ({ s with cores := cs } : State).regionTile n d act = s.regionTile n d act := rfl

theorem State.asSeen_poison {s : State} {x : Option Seen} (h : s.poison = []) (bad : ∀ y, x = some y → y.bad = []) :
    (s.asSeen x).poison = [] := by
  cases x with
  | none => exact h
  | some y =>
    have cells : (s.setCells y.cells).poison = [] := by rw [s.setCells_eq]; exact h
    simp [State.asSeen, cells, bad y rfl]

theorem State.consumed_sound {s : State} (h : s.poison = []) (was : List Nat) (rs : List Run) : s.consumed was rs = none := if_pos h

/-! ### ACCLD -/

theorem State.el_regionTile (s : State) (n : Nat) {d : Descr} {act : Nat → Bool} {i j : Nat} (hi : i < 16) (hj : j < 16)
    (active : act i = true) (cols : d.cols = 16) : (s.regionTile n d act).el i j =
      BitVec.ofNat 64 (s.readNat (s.regionRow n d i + j * unitBytes d.fmt) (unitBytes d.fmt)) := by
  rw [State.regionTile, Tile.el_of _ hi hj]
  simp [hi, hj, active, cols, State.regionPatterns]

theorem State.runAccld_sound {s : State} (h : s.poison = []) (c : CtxId) (a : ArrayOp) (was : List Nat) (k : BitVec 3) :
    s.runAccld c a was k =
      ((s.ctx c).setTile k (((s.ctx c).tile k).rows (s.regionTile c.core (Descr.of a.da) a.row) a.row), []) := by
  unfold State.runAccld
  dsimp only
  rw [State.consumed_sound h]
  rfl

/-! ### CBLD -/

theorem State.testBit_readNat (s : State) (k n i : Nat) :
    (s.readNat k n).testBit i = (decide (i / 8 < n) && (s.byte (k + i / 8)).getLsbD (i % 8)) := by
  rw [State.readNat, testBit_natOfBytes, State.bytes, List.getD_eq_getElem?_getD, List.getElem?_map]
  by_cases h : i / 8 < n
  · rw [List.getElem?_range h, decide_eq_true h]
    rfl
  · rw [List.getElem?_eq_none (by simpa using h), decide_eq_false h]
    simp

/-- A number read from some of the bytes of a longer one. -/
theorem State.readNat_slice (s : State) (k : Nat) {off n N : Nat} (h : off + n ≤ N) :
    s.readNat (k + off) n = s.readNat k N / 2 ^ (8 * off) % 2 ^ (8 * n) := by
  refine Nat.eq_of_testBit_eq fun i => ?_
  rw [Nat.testBit_mod_two_pow, Nat.testBit_div_two_pow, s.testBit_readNat, s.testBit_readNat,
    show (i + 8 * off) / 8 = off + i / 8 by omega, show (i + 8 * off) % 8 = i % 8 by omega, ← Nat.add_assoc]
  by_cases inside : i < 8 * n
  · rw [decide_eq_true inside, decide_eq_true (show i / 8 < n by omega), decide_eq_true (show off + i / 8 < N by omega)]
    rfl
  · rw [decide_eq_false inside, decide_eq_false (show ¬ i / 8 < n by omega)]
    rfl

theorem State.readNat_lt (s : State) (k n : Nat) : s.readNat k n < 2 ^ (8 * n) := by
  have whole := s.readNat_slice k (off := 0) (n := n) (N := n) (by omega)
  rw [Nat.mul_zero, Nat.pow_zero, Nat.div_one, Nat.add_zero] at whole
  rw [whole]
  exact Nat.mod_lt _ (by positivity)

theorem leNat_bytes (s : State) (k : Nat) {off n N : Nat} (h : off + n ≤ N) :
    leNat (s.bytes k N) off n = s.readNat (k + off) n := by
  refine congrArg natOfBytes (List.ext_getElem ?_ fun i _ _ => ?_)
  · simp only [State.bytes, List.length_take, List.length_drop, List.length_map, List.length_range]
    omega
  · simp [State.bytes, Nat.add_assoc]

/-- The codebook that an image of 64 bytes holds (R198). -/
def State.imageBook (s : State) (key : Nat) : Codebook :=
  ⟨BitVec.ofNat 256 (s.readNat key 32), BitVec.ofNat 16 (s.readNat (key + 32) 2)⟩

theorem State.ents_imageBook (s : State) (key : Nat) {j : Nat} (hj : j < 16) :
    ((s.imageBook key).ents.extractLsb' (16 * j) 16).toNat = s.readNat (key + 2 * j) 2 := by
  rw [s.readNat_slice key (N := 32) (by omega), State.imageBook, BitVec.extractLsb'_toNat, BitVec.toNat_ofNat,
    Nat.mod_eq_of_lt (s.readNat_lt key 32), Nat.shiftRight_eq_div_pow, show 8 * (2 * j) = 16 * j by omega]

theorem State.esc_imageBook (s : State) (key : Nat) : (s.imageBook key).esc = BitVec.ofNat 16 (s.readNat (key + 32) 2) := rfl

/-- What makes an image no codebook (R198). -/
def State.ImageBad (s : State) (key : Nat) : Prop :=
  s.readNat (key + 2 * 0) 2 ≠ 0 ∨ (BitVec.ofNat 16 (s.readNat (key + 32) 2)).getLsbD 0 = true ∨
    (∃ i, 34 ≤ i ∧ i < 64 ∧ s.byte (key + i) ≠ 0) ∨
    (∃ j, (j < 16 ∧ (BitVec.ofNat 16 (s.readNat (key + 32) 2)).getLsbD j = false) ∧
      ((Fmt.bf16.value (s.readNat (key + 2 * j) 2)).isNan = true ∨ (Fmt.bf16.value (s.readNat (key + 2 * j) 2)).isInf = true)) ∨
    (∀ j, (j < 16 ∧ (BitVec.ofNat 16 (s.readNat (key + 32) 2)).getLsbD j = false) →
      (Fmt.bf16.value (s.readNat (key + 2 * j) 2)).isZero = true)

theorem State.mem_live_imageBook (s : State) (key j : Nat) :
    j ∈ (s.imageBook key).live ↔ j < 16 ∧ (BitVec.ofNat 16 (s.readNat (key + 32) 2)).getLsbD j = false := by
  rw [Codebook.live, List.mem_filter, List.mem_range, s.esc_imageBook, Bool.not_eq_true']

theorem State.value_imageBook (s : State) (key : Nat) {j : Nat} (h : j ∈ (s.imageBook key).live) :
    (s.imageBook key).value j = Fmt.bf16.value (s.readNat (key + 2 * j) 2) := by
  rw [Codebook.value, s.ents_imageBook key ((s.mem_live_imageBook key j).mp h).1]

theorem State.padding_iff (s : State) (key : Nat) :
    ((s.bytes key 64).drop 34).any (· != 0) = true ↔ ∃ i, 34 ≤ i ∧ i < 64 ∧ s.byte (key + i) ≠ 0 := by
  rw [List.any_eq_true]
  constructor
  · rintro ⟨b, member, nonzero⟩
    obtain ⟨i, hi, rfl⟩ := List.mem_iff_getElem.mp member
    have room : i < 30 := by simpa [State.bytes] using hi
    exact ⟨34 + i, by omega, by omega, by simpa [State.bytes] using nonzero⟩
  · rintro ⟨i, low, high, nonzero⟩
    refine ⟨s.byte (key + i), List.mem_iff_getElem.mpr ⟨i - 34, ?_, ?_⟩, by simpa using nonzero⟩
    · simp [State.bytes]
      omega
    · simp [State.bytes, Nat.add_sub_cancel' low]

theorem State.codebookOf_bytes (s : State) (key : Nat) : codebookOf (s.bytes key 64) =
    if (s.imageBook key).ents.extractLsb' 0 16 != 0 || (s.imageBook key).esc.getLsbD 0 || ((s.bytes key 64).drop 34).any (· != 0) ||
        (s.imageBook key).live.any (fun j => ((s.imageBook key).value j).isNan || ((s.imageBook key).value j).isInf) ||
        (s.imageBook key).live.all (fun j => ((s.imageBook key).value j).isZero) then none
    else some (s.imageBook key) := by
  have book : (⟨BitVec.ofNat 256 (leNat (s.bytes key 64) 0 32), BitVec.ofNat 16 (leNat (s.bytes key 64) 32 2)⟩ : Codebook) =
      s.imageBook key := by
    rw [leNat_bytes s key (show 0 + 32 ≤ 64 by omega), leNat_bytes s key (show 32 + 2 ≤ 64 by omega), Nat.add_zero, State.imageBook]
  rw [codebookOf, book]

theorem State.imageBad_iff (s : State) (key : Nat) : s.ImageBad key ↔
    ((s.imageBook key).ents.extractLsb' 0 16 != 0 || (s.imageBook key).esc.getLsbD 0 || ((s.bytes key 64).drop 34).any (· != 0) ||
      (s.imageBook key).live.any (fun j => ((s.imageBook key).value j).isNan || ((s.imageBook key).value j).isInf) ||
      (s.imageBook key).live.all (fun j => ((s.imageBook key).value j).isZero)) = true := by
  have first : ((s.imageBook key).ents.extractLsb' 0 16 != 0) = true ↔ s.readNat (key + 2 * 0) 2 ≠ 0 := by
    rw [← s.ents_imageBook key (show 0 < 16 by omega), bne_iff_ne, Nat.mul_zero]
    exact not_congr (BitVec.toNat_inj (y := 0)).symm
  have special : (s.imageBook key).live.any (fun j => ((s.imageBook key).value j).isNan || ((s.imageBook key).value j).isInf) = true ↔
      ∃ j, (j < 16 ∧ (BitVec.ofNat 16 (s.readNat (key + 32) 2)).getLsbD j = false) ∧
        ((Fmt.bf16.value (s.readNat (key + 2 * j) 2)).isNan = true ∨ (Fmt.bf16.value (s.readNat (key + 2 * j) 2)).isInf = true) := by
    rw [List.any_eq_true]
    refine exists_congr fun j => ?_
    rw [← s.mem_live_imageBook]
    exact and_congr_right fun live => by rw [s.value_imageBook key live, Bool.or_eq_true]
  have zeros : (s.imageBook key).live.all (fun j => ((s.imageBook key).value j).isZero) = true ↔
      ∀ j, (j < 16 ∧ (BitVec.ofNat 16 (s.readNat (key + 32) 2)).getLsbD j = false) →
        (Fmt.bf16.value (s.readNat (key + 2 * j) 2)).isZero = true := by
    rw [List.all_eq_true]
    refine forall_congr' fun j => ?_
    rw [← s.mem_live_imageBook]
    exact forall_congr' fun live => by rw [s.value_imageBook key live]
  rw [Bool.or_eq_true, Bool.or_eq_true, Bool.or_eq_true, Bool.or_eq_true, first, s.esc_imageBook, s.padding_iff, special, zeros,
    or_assoc, or_assoc, or_assoc]
  rfl

theorem State.codebookOf_bad {s : State} {key : Nat} (h : s.ImageBad key) : codebookOf (s.bytes key 64) = none := by
  rw [s.codebookOf_bytes, if_pos ((s.imageBad_iff key).mp h)]

theorem State.codebookOf_good {s : State} {key : Nat} (h : ¬ s.ImageBad key) :
    codebookOf (s.bytes key 64) = some (s.imageBook key) := by
  rw [s.codebookOf_bytes, if_neg ((s.imageBad_iff key).not.mp h)]

section
variable {s : State} (h : s.poison = []) (c : CtxId) {a : ArrayOp} (was : List Nat) (d : BitVec 4) (cb : BitVec 2)
include h

theorem State.runCbld_bad (bad : codebookOf (s.bytes (s.ownKey c.core (Descr.of a.da).base) 64) = none) :
    s.runCbld c a was d cb = (s.ctx c, [(causeCbbad, spDetail d.toNat cb.toNat 0)]) := by
  unfold State.runCbld
  dsimp only
  rw [State.consumed_sound h, bad]

theorem State.runCbld_good {b : Codebook} (good : codebookOf (s.bytes (s.ownKey c.core (Descr.of a.da).base) 64) = some b) :
    s.runCbld c a was d cb = ({ s.ctx c with cb := SMap.setD Codebook.reset (s.ctx c).cb cb.toNat b }, []) := by
  unfold State.runCbld
  dsimp only
  rw [State.consumed_sound h, good]

end

end Sys2Proof.Machine
end

section
/-! SUPPORT. The checks of K4 tiles: the list header, its entries, the escapes without an entry and the pattern words, in the order in
which they are made (R200, R201, R208, R225, R226). -/

namespace Sys2Proof.Machine

/-! ### The order of the checks -/

theorem findSome_id_cons {α : Type} (o : Option α) (l : List (Option α)) : (o :: l).findSome? id = o.or (l.findSome? id) := by
  cases o with
  | none => rfl
  | some x => rfl

theorem State.stepsFault_sound {s : State} (h : s.poison = []) (was : List Nat) (ps : List ReadStep) :
    s.stepsFault was ps = (ps.map (fun p => p.own s)).findSome? id := by
  induction ps with
  | nil => rfl
  | cons p ps ih =>
    rw [State.stepsFault, State.consumed_sound h, List.map_cons, findSome_id_cons, ih]
    dsimp only
    cases p.own s with
    | none => rfl
    | some f => rfl

theorem State.k4Fault_sound {s : State} (h : s.poison = []) (x : Ctx) (n : Nat) (was : List Nat) (ts : List K4) :
    s.k4Fault x n was ts = (ts.map x.k4Book ++ ts.map (s.k4ListFault n) ++ ts.map (s.k4Miss x n) ++
      ts.map (fun t => s.patternFault n t.d t.dn t.active)).findSome? id := by
  rw [State.k4Fault, State.stepsFault_sound h, k4Steps]
  simp only [List.map_cons, List.map_nil, findSome_id_cons, List.findSome?_nil, Option.or_none, List.findSome?_append, firstFault,
    Option.or_assoc]

theorem State.k4Fault_cores (s : State) (cs : SMap Core) (x : Ctx) (n : Nat) (was : List Nat) (ts : List K4) :
    ({ s with cores := cs } : State).k4Fault x n was ts = s.k4Fault x n was ts := rfl

/-! ### The list header (Table 8.2) -/

/-- What R201 forbids of a list header, with the entries past the own slab (R214). -/
def State.ListBad (s : State) (n a : Nat) : Prop :=
  s.readNat (s.ownKey n a + 2) 2 = 0 ∨ 64 < s.readNat (s.ownKey n a + 2) 2 ∨
    s.readNat (s.ownKey n a + 2) 2 < s.readNat (s.ownKey n a) 2 ∨ s.readNat (s.ownKey n a) 8 / 2 ^ 33 ≠ 0 ∨
    s.ownSlab n a (8 + 8 * s.readNat (s.ownKey n a + 2) 2) = none

/-- The entries 0 to COUNT − 1 of a list. -/
def State.listEntries (s : State) (n a : Nat) : List DWord :=
  (List.range (s.readNat (s.ownKey n a) 2)).map (fun i => BitVec.ofNat 64 (s.readNat (s.ownKey n a + 8 + 8 * i) 8))

section
variable (s : State) (n : Nat) (t : K4)

theorem State.extract_readNat (k : Nat) {off : Nat} (h : off + 2 ≤ 8) :
    ((BitVec.ofNat 64 (s.readNat k 8)).extractLsb' (8 * off) 16).toNat = s.readNat (k + off) 2 := by
  rw [s.readNat_slice k (N := 8) h, BitVec.extractLsb'_toNat, BitVec.toNat_ofNat, Nat.mod_eq_of_lt (s.readNat_lt k 8),
    Nat.shiftRight_eq_div_pow]

theorem State.header_count (k : Nat) : ((BitVec.ofNat 64 (s.readNat k 8)).extractLsb' 0 16).toNat = s.readNat k 2 :=
  s.extract_readNat k (off := 0) (by omega)

theorem State.header_cap (k : Nat) : ((BitVec.ofNat 64 (s.readNat k 8)).extractLsb' 16 16).toNat = s.readNat (k + 2) 2 :=
  s.extract_readNat k (off := 2) (by omega)

theorem extract_ne_zero_iff {w : Nat} (e : BitVec w) (off len : Nat) :
    (e.extractLsb' off len != 0) = true ↔ e.toNat / 2 ^ off % 2 ^ len ≠ 0 := by
  rw [bne_iff_ne, Ne, ← BitVec.toNat_inj, BitVec.extractLsb'_toNat, Nat.shiftRight_eq_div_pow]
  rfl

theorem State.header_reserved (k : Nat) :
    ((BitVec.ofNat 64 (s.readNat k 8)).extractLsb' 33 31 != 0) = true ↔ s.readNat k 8 / 2 ^ 33 ≠ 0 := by
  have bound : s.readNat k 8 < 2 ^ 64 := s.readNat_lt k 8
  rw [extract_ne_zero_iff, BitVec.toNat_ofNat, Nat.mod_eq_of_lt bound, Nat.mod_eq_of_lt (by omega)]

theorem State.k4HeaderBad_iff :
    s.k4HeaderBad n t (BitVec.ofNat 64 (s.readNat (s.ownKey n t.d.spall) 8)) = true ↔ s.ListBad n t.d.spall := by
  simp only [State.k4HeaderBad, headerBad, State.header_count, State.header_cap, Bool.or_eq_true, s.header_reserved, beq_iff_eq,
    decide_eq_true_eq, Option.isNone_iff_eq_none, State.ListBad, or_assoc]

variable {s n t}

theorem State.k4Header_none (h : t.d.spall = 0) : s.k4Header n t = none := if_pos h

theorem State.k4Header_some (h : t.d.spall ≠ 0) :
    s.k4Header n t = some (BitVec.ofNat 64 (s.readNat (s.ownKey n t.d.spall) 8)) := if_neg h

theorem State.k4ListFault_none (h : t.d.spall = 0) : s.k4ListFault n t = none := by
  rw [State.k4ListFault, State.k4Header_none h]

theorem State.k4Entries_none (h : t.d.spall = 0) : s.k4Entries n t = [] := by
  rw [State.k4Entries, State.k4Header_none h]

theorem State.k4ListFault_bad (h : t.d.spall ≠ 0) (bad : s.ListBad n t.d.spall) :
    s.k4ListFault n t = some (causeSpfmt, spDetail t.dn t.d.cb 0) := by
  rw [State.k4ListFault, State.k4Header_some h]
  exact if_pos ((s.k4HeaderBad_iff n t).mpr bad)

theorem State.k4Entries_bad (h : t.d.spall ≠ 0) (bad : s.ListBad n t.d.spall) : s.k4Entries n t = [] := by
  rw [State.k4Entries, State.k4Header_some h]
  exact if_pos ((s.k4HeaderBad_iff n t).mpr bad)

theorem State.k4Entries_good (h : t.d.spall ≠ 0) (good : ¬ s.ListBad n t.d.spall) :
    s.k4Entries n t = s.listEntries n t.d.spall := by
  rw [State.k4Entries, State.k4Header_some h]
  dsimp only
  rw [if_neg ((s.k4HeaderBad_iff n t).not.mpr good), s.header_count, State.listEntries]

theorem State.k4ListFault_good (h : t.d.spall ≠ 0) (good : ¬ s.ListBad n t.d.spall) :
    s.k4ListFault n t = (scanFault t.count (s.listEntries n t.d.spall)).map (fun r => (r.1, spDetail t.dn t.d.cb r.2)) := by
  rw [State.k4ListFault, State.k4Header_some h]
  dsimp only
  rw [if_neg ((s.k4HeaderBad_iff n t).not.mpr good), State.k4Entries_good h good]

end

/-! ### The entries of a list (Table 8.1) -/

theorem spPos_eq (e : DWord) : spPos e = e.toNat / 2 ^ 12 % 4 * 2048 + e.toNat % 2 ^ 11 := by
  simp [spPos, BitVec.extractLsb'_toNat, Nat.shiftRight_eq_div_pow]

theorem spReserved_iff (e : DWord) : spReserved e = true ↔ e.toNat / 2 ^ 14 % 2 ^ 18 ≠ 0 := by
  rw [spReserved, extract_ne_zero_iff]

/-- A valid entry with a reserved bit or a position that the tile has not. -/
def spWrong (npos : Nat) (e : DWord) : Bool := spValid e && (spReserved e || decide (npos ≤ spPos e))

theorem spWrong_iff (npos : Nat) (e : DWord) :
    spWrong npos e = true ↔ spValid e = true ∧ (e.toNat / 2 ^ 14 % 2 ^ 18 ≠ 0 ∨ npos ≤ spPos e) := by
  rw [spWrong, Bool.and_eq_true, Bool.or_eq_true, spReserved_iff, decide_eq_true_eq]

theorem scanFault_wrong {npos : Nat} {p q : List DWord} {e : DWord} (wrong : spWrong npos e = true)
    (before : ∀ y ∈ p, spWrong npos y = false) : scanFault npos (p ++ e :: q) = some (causeSpfmt, spPos e) := by
  have found : (p ++ e :: q).find? (spWrong npos) = some e :=
    List.find?_eq_some_iff_append.mpr ⟨wrong, p, q, rfl, fun y hy => by rw [before y hy]; rfl⟩
  exact congrArg (fun o : Option DWord => match o with
    | some e => some (causeSpfmt, spPos e)
    | none => (spDisorder (((p ++ e :: q).filter spValid).map spPos)).map (fun p => (causeSpord, p))) found

theorem scanFault_right {npos : Nat} {es : List DWord} (right : ∀ e ∈ es, spWrong npos e = false) :
    scanFault npos es = (spDisorder ((es.filter spValid).map spPos)).map (fun p => (causeSpord, p)) := by
  have absent : es.find? (spWrong npos) = none := List.find?_eq_none.mpr fun e he => by rw [right e he]; decide
  exact congrArg (fun o : Option DWord => match o with
    | some e => some (causeSpfmt, spPos e)
    | none => (spDisorder ((es.filter spValid).map spPos)).map (fun p => (causeSpord, p))) absent

theorem spDisorder_rising {l : List Nat} (h : l.Pairwise (· < ·)) : spDisorder l = none := by
  induction l with
  | nil => rfl
  | cons a l ih =>
    obtain ⟨above, rising⟩ := List.pairwise_cons.mp h
    cases l with
    | nil => rfl
    | cons b l =>
      rw [spDisorder, if_neg (Nat.not_le.mpr (above b List.mem_cons_self)), ih rising]

theorem spDisorder_first {p q : List Nat} {a b : Nat} (falls : b ≤ a) (h : (p ++ [a]).Pairwise (· < ·)) :
    spDisorder (p ++ a :: b :: q) = some b := by
  induction p with
  | nil => exact if_pos falls
  | cons x p ih =>
    obtain ⟨above, rising⟩ := List.pairwise_cons.mp h
    cases p with
    | nil =>
      rw [List.singleton_append, spDisorder, if_neg (Nat.not_le.mpr (above a List.mem_cons_self))]
      exact ih rising
    | cons y p =>
      rw [List.cons_append, List.cons_append, spDisorder, if_neg (Nat.not_le.mpr (above y List.mem_cons_self))]
      exact ih rising

theorem scanFault_falls {npos : Nat} {es p q : List DWord} {a b : DWord} (right : ∀ e ∈ es, spWrong npos e = false)
    (split : es.filter spValid = p ++ a :: b :: q) (falls : spPos b ≤ spPos a)
    (rising : (p ++ [a]).Pairwise (fun y z => spPos y < spPos z)) : scanFault npos es = some (causeSpord, spPos b) := by
  have sorted : (p.map spPos ++ [spPos a]).Pairwise (· < ·) := by
    rw [← List.map_singleton, ← List.map_append]
    exact List.pairwise_map.mpr rising
  rw [scanFault_right right, split, List.map_append, List.map_cons, List.map_cons, spDisorder_first falls sorted]
  rfl

theorem scanFault_rises {npos : Nat} {es : List DWord} (right : ∀ e ∈ es, spWrong npos e = false)
    (rising : (es.filter spValid).Pairwise (fun y z => spPos y < spPos z)) : scanFault npos es = none := by
  rw [scanFault_right right, spDisorder_rising (List.pairwise_map.mpr rising)]
  rfl

theorem spallValue_isNone (es : List DWord) (p : Nat) :
    (spallValue es p).isNone = true ↔ ∀ e, es.filter (fun y => spValid y && spPos y == p) ≠ [e] := by
  unfold spallValue
  split
  case _ e only => exact iff_of_false (by simp) fun h => h e only
  case _ others => exact iff_of_true rfl others

/-! ### Escapes without an entry -/

/-- Position p holds an active element that escapes and has not one entry (R200). -/
def State.K4Lost (s : State) (x : Ctx) (n : Nat) (t : K4) (p : Nat) : Prop :=
  p < t.count ∧ t.active (t.at p).1 = true ∧ s.k4Scale n t p ≠ 0 ∧ s.k4Scale n t p ≠ 255 ∧
    (x.book t.d.cb).esc.getLsbD (s.k4Code n t p) = true ∧
    ∀ e, (s.k4Entries n t).filter (fun y => spValid y && spPos y == p) ≠ [e]

/-- What the model asks of an active position. -/
def State.k4Misses (s : State) (x : Ctx) (n : Nat) (t : K4) (p : Nat) : Bool :=
  (x.book t.d.cb).escaped (s.k4Scale n t p) (s.k4Code n t p) && (spallValue (s.k4Entries n t) p).isNone

section
variable {s : State} {x : Ctx} {n : Nat} {t : K4} {p : Nat}

theorem State.k4Lost_iff : s.K4Lost x n t p ↔ p ∈ t.positions ∧ s.k4Misses x n t p = true := by
  simp only [State.K4Lost, State.k4Misses, K4.positions, List.mem_filter, List.mem_range, Codebook.escaped, Bool.and_eq_true, bne_iff_ne,
    spallValue_isNone, and_assoc]

theorem K4.positions_sorted (t : K4) : t.positions.Pairwise (· < ·) := List.Pairwise.filter _ List.pairwise_lt_range

theorem State.k4Miss_lowest (lost : s.K4Lost x n t p) (before : ∀ q < p, ¬ s.K4Lost x n t q) :
    s.k4Miss x n t = some (causeSpmiss, spDetail t.dn t.d.cb p) := by
  obtain ⟨member, misses⟩ := State.k4Lost_iff.mp lost
  obtain ⟨l, r, split⟩ := List.append_of_mem member
  have sorted := t.positions_sorted
  rw [split, List.pairwise_append] at sorted
  obtain ⟨-, -, below⟩ := sorted
  have found : t.positions.find? (s.k4Misses x n t) = some p := by
    refine List.find?_eq_some_iff_append.mpr ⟨misses, l, r, split, fun q hq => ?_⟩
    rw [Bool.not_eq_true', ← Bool.not_eq_true]
    exact fun h => before q (below q hq p List.mem_cons_self)
      (State.k4Lost_iff.mpr ⟨by rw [split]; exact List.mem_append_left _ hq, h⟩)
  exact congrArg (Option.map (fun p => (causeSpmiss, spDetail t.dn t.d.cb p))) found

theorem State.k4Miss_none (h : ∀ p, ¬ s.K4Lost x n t p) : s.k4Miss x n t = none := by
  have found : t.positions.find? (s.k4Misses x n t) = none :=
    List.find?_eq_none.mpr fun p member misses => h p (State.k4Lost_iff.mpr ⟨member, misses⟩)
  exact congrArg (Option.map (fun p => (causeSpmiss, spDetail t.dn t.d.cb p))) found

end

/-! ### Pattern words -/

theorem Descr.mem_rowWords {d : Descr} (h : d.dense ≠ 0) (i w : Nat) :
    w ∈ d.rowWords i ↔ i * d.dense / 32 ≤ w ∧ w ≤ (i * d.dense + d.dense - 1) / 32 := by
  have order : i * d.dense / 32 ≤ (i * d.dense + d.dense - 1) / 32 := Nat.div_le_div_right (by omega)
  rw [Descr.rowWords, if_neg h, List.mem_map]
  constructor
  · rintro ⟨v, hv, rfl⟩
    rw [List.mem_range] at hv
    omega
  · rintro ⟨low, high⟩
    exact ⟨w - i * d.dense / 32, List.mem_range.mpr (by omega), Nat.add_sub_cancel' low⟩

/-- Active row i has a bad pattern word. -/
def State.PatternOdd (s : State) (n : Nat) (d : Descr) (act : Nat → Bool) (i : Nat) : Prop :=
  act i = true ∧ ∃ w, i * d.dense / 32 ≤ w ∧ w ≤ (i * d.dense + d.dense - 1) / 32 ∧ patternBad d.kind (s.patternAt n d w) = true

theorem State.patternFault_none {s : State} {n : Nat} {d : Descr} (h : d.spk = 0) (dn : Nat) (act : Nat → Bool) :
    s.patternFault n d dn act = none := if_pos h

section
variable {s : State} {n : Nat} {d : Descr} (h : d.spk ≠ 0) (dense : d.dense ≠ 0) (dn : Nat) {act : Nat → Bool}
include dense

theorem State.rows_odd_iff : ((List.range d.rows).filter act).any (fun i =>
    (d.rowWords i).any (fun w => patternBad d.kind (s.patternAt n d w))) = true ↔ ∃ i < d.rows, s.PatternOdd n d act i := by
  simp only [List.any_eq_true, List.mem_filter, List.mem_range, Descr.mem_rowWords dense, State.PatternOdd, and_assoc]

include h

theorem State.patternFault_odd (odd : ∃ i < d.rows, s.PatternOdd n d act i) :
    s.patternFault n d dn act = some (causeSppat, spDetail dn d.cb 0) := by
  rw [State.patternFault, if_neg h, if_pos ((State.rows_odd_iff dense).mpr odd)]

theorem State.patternFault_even (even : ∀ i < d.rows, ¬ s.PatternOdd n d act i) : s.patternFault n d dn act = none := by
  rw [State.patternFault, if_neg h, if_neg ((State.rows_odd_iff dense).not.mpr fun ⟨i, hi, odd⟩ => even i hi odd)]

end

end Sys2Proof.Machine
end

section
/-! SUPPORT. Array operations, tile moves, DRAIN, ACCLD, CBLD and SPLD as they complete, with the checks of K4 tiles (O51). -/

namespace Sys2Proof.Machine

/-- Settles O51: the completion of the oldest array operation comes down to what its run leaves, and each form's run and each K4 check
is characterised by a lemma of its own. -/
theorem arrayCompletes : Obligations.ArrayCompletes := by
  refine ⟨fun s n a rest queue flaws first => ?_, ?_, ?_, ?_⟩
  · intro c early v r
    have early_iff (f : Flight) : early f ↔ f.beforeArray a.seq = true := (f.beforeArray_iff a.seq).symm
    have here : (((v.withAq n rest).asSeen a.seen).ctx c) = v.ctx c := by rw [State.ctx_asSeen, State.ctx_withAq]
    refine ⟨⟨fun f hf => ?_, s.landCr_stored c a.seq, s.landCr_tile c a.seq, fun none => ?_, fun f only isEarly m w dest live => ?_⟩,
      ?_, fun u k instr => ?_, fun u k q instr => ?_⟩
    · rw [early_iff, s.landCr_landed c a.seq hf]
      decide
    · exact s.landCr_none c a.seq fun f hf => Bool.eq_false_iff.mpr ((early_iff f).not.mp (none f hf))
    · exact s.landCr_one c a.seq only ((early_iff f).mp isEarly) dest live
    · exact State.completeArray_sound queue flaws first
    · have result : r = ((v.ctx c).setTile k (Tile.rows ((v.ctx c).tile k) [] a.row), []) := by
        rw [← here]
        exact State.runArray_accz _ c _ instr
      rw [result]
      refine ⟨rfl, fun i hi j hj => ?_, fun k' hk => ?_⟩
      · rw [Ctx.tile_setTile_same, Tile.el_rows _ _ _ hi hj, s.landCr_tile]
        rfl
      · rw [Ctx.tile_setTile_other _ _ hk, s.landCr_tile]
    · refine ⟨fun more => ?_, ?_, fun x m hm => ?_⟩
      · exact congrArg Host.Outcome.next (State.drainStep_writes queue instr more)
      · rw [← here]
        exact State.runArray_drain _ c _ instr
      · exact ⟨drainEntry a.af (x.tile k) a.guard m, fun l hl => drainEntry_lane _ _ _ _ hl,
          fun h y z entries mine unwritten before => x.drainWrite_first k q m entries mine unwritten before⟩
  · intro s c o rest ops slot place others
    refine ⟨fun k rows t act fresh => ?_, fun d act done => ?_, fun data l act may located allowed poison flaws => ?_⟩
    · have ready : (o.performed || s.mayPerform c o) = true := by simp [State.mayPerform, MemOp.isMove, act, fresh]
      obtain ⟨after, bytes⟩ := State.completeTile_move ops others act fresh
      replace after := after.trans (MemOp.finishTile_move (o := { o with performed := true }) act _)
      refine ⟨_, exec_tileMoveCompletion_first ops slot ready, ?_, bytes, fun i hi j hj => ?_, fun k' hk => ?_⟩
      · rw [after]
      · rw [after]
        exact (congrArg (fun t => Tile.el t i j) (SMap.get_setD_same _ _ _ _)).trans (Tile.el_rows _ _ _ hi hj)
      · rw [after]
        exact SMap.get_setD_toNat _ _ _ hk
    · have ready : (o.performed || s.mayPerform c o) = true := by rw [done]; rfl
      obtain ⟨after, bytes⟩ := State.completeTile_load ops others done
      rw [MemOp.finishTile_load act] at after
      refine ⟨_, exec_tileMoveCompletion_first ops slot ready, ?_, ?_, fun d' hd => ?_, bytes⟩
      · rw [after]
      · rw [after]
        exact SMap.get_setD_same _ _ _ _
      · rw [after]
        exact SMap.get_setD_toNat _ _ _ hd
    · have fresh : o.performed = false := by
        cases h : o.performed with
        | false => rfl
        | true => simp [State.mayPerform, h] at may
      exact ⟨_, exec_tileMoveCompletion_first ops slot (by rw [may, Bool.or_true]),
        State.completeTile_store ops others place act fresh located allowed poison flaws⟩
  · intro s n a rest u d k cb queue poison flaws good first v x m A act
    have clean : v.poison = [] := (s.landCr_poison _ _).trans poison
    have seen : ((v.withAq n rest).asSeen a.seen) = { m with cores := (v.withAq n rest).cores } := v.asSeen_withAq n rest a.seen
    have cleanSeen : ((v.withAq n rest).asSeen a.seen).poison = [] := State.asSeen_poison clean good
    have here : ((v.withAq n rest).asSeen a.seen).ctx ⟨n, a.one⟩ = x := by rw [State.ctx_asSeen, State.ctx_withAq]
    obtain ⟨t, step, completes, -⟩ := State.completeArray_sound queue flaws first
    refine ⟨fun instr cols => ?_, fun instr => ?_, fun instr => ?_⟩
    · rw [State.runArray_accld _ _ _ instr, State.runAccld_sound cleanSeen, here, seen] at completes
      refine ⟨t, _, step, fun i hi j hj => ?_, completes⟩
      rw [Tile.el_rows _ _ _ hi hj, State.regionTile_cores]
      cases active : act i with
      | false => exact if_neg (by rw [show a.row i = act i from rfl, active]; decide)
      | true => exact (if_pos active).trans (m.el_regionTile n hi hj active cols)
    · rw [State.runArray_cbld _ _ _ instr] at completes
      intro key ent esc live val bad
      have image : ((v.withAq n rest).asSeen a.seen).bytes (((v.withAq n rest).asSeen a.seen).ownKey n (Descr.of a.da).base) 64 =
          m.bytes key 64 := by
        rw [seen, State.bytes_cores, State.ownKey_cores]
      refine ⟨t, step, fun isBad => ?_, fun isGood =>
        ⟨m.imageBook key, fun j hj => m.ents_imageBook key hj, m.esc_imageBook key, ?_⟩⟩
      · rwa [State.runCbld_bad cleanSeen ⟨n, a.one⟩ _ d cb (image ▸ State.codebookOf_bad isBad), here] at completes
      · rwa [State.runCbld_good cleanSeen ⟨n, a.one⟩ _ d cb (image ▸ State.codebookOf_good isGood), here] at completes
    · rw [State.runArray_spld _ _ _ instr, State.runSpld, here, seen, State.k4Fault_cores] at completes
      have cleanM : m.poison = [] := State.asSeen_poison clean good
      rw [State.k4Fault_sound cleanM, ← State.k4Fault_sound cleanM x n []] at completes
      exact ⟨t, step, completes⟩
  · intro s x n t was d key count cap bad es valid pos wrong detail place active scale code list lost grp dense odd
    have at_pos : spPos = pos := funext spPos_eq
    have wrong_iff (e : DWord) : wrong e ↔ spWrong t.count e = true := by rw [spWrong_iff, at_pos]; rfl
    have right_of {e : DWord} (h : ¬ wrong e) : spWrong t.count e = false := Bool.eq_false_iff.mpr ((wrong_iff e).not.mp h)
    have listFault (hasList : d.spall ≠ 0) (good : ¬ bad) :
        s.k4ListFault n t = (scanFault t.count es).map (fun r => (r.1, spDetail t.dn d.cb r.2)) := State.k4ListFault_good hasList good
    have entries (h : d.spall = 0 ∨ ¬ bad) : s.k4Entries n t = list := by
      by_cases noList : d.spall = 0
      · exact (State.k4Entries_none noList).trans (if_pos noList).symm
      · exact (State.k4Entries_good noList (h.resolve_left noList)).trans (if_neg noList).symm
    have lost_iff (h : d.spall = 0 ∨ ¬ bad) (p : Nat) : lost p ↔ s.K4Lost x n t p := by
      rw [State.K4Lost, entries h, at_pos]
      rfl
    refine ⟨rfl, fun noList => ⟨State.k4ListFault_none noList, State.k4Entries_none noList⟩,
      fun hasList isBad => ⟨State.k4ListFault_bad hasList isBad, State.k4Entries_bad hasList isBad⟩,
      fun hasList good => ⟨State.k4Entries_good hasList good, fun p e q split isWrong before => ?_, fun right => ⟨?_, ?_⟩⟩,
      fun h => ⟨fun p isLost before => ?_, fun h' => ?_⟩,
      fun plain => State.patternFault_none plain _ _,
      fun sparse wide => ⟨State.patternFault_odd sparse wide _, State.patternFault_even sparse wide _⟩,
      fun clean ts => State.k4Fault_sound clean x n was ts⟩
    · rw [listFault hasList good, split, scanFault_wrong ((wrong_iff e).mp isWrong) fun y hy => right_of (before y hy), at_pos]
      rfl
    · intro p a b q split falls rising
      rw [listFault hasList good, scanFault_falls (fun e he => right_of (right e he)) split (by rwa [at_pos]) (by rwa [at_pos]), at_pos]
      rfl
    · intro rising
      rw [listFault hasList good, scanFault_rises (fun e he => right_of (right e he)) (by rwa [at_pos])]
      rfl
    · exact State.k4Miss_lowest ((lost_iff h p).mp isLost) fun q hq => (lost_iff h q).not.mp (before q hq)
    · exact State.k4Miss_none fun p => (lost_iff h p).not.mp (h' p)

end Sys2Proof.Machine
end

section
/-! SUPPORT. Rounding (R97, R98): what the patterns of a format stand for as reals, and that `Fmt.round` gives the exact value rounded
once, also of a magnitude known only up to a last bit that tells it inexact. -/

namespace Sys2Proof.Machine

/-! ### Powers of two -/

theorem two_zpow_pos (k : ℤ) : (0 : ℝ) < 2 ^ k := by positivity

theorem two_zpow_split {j k : ℤ} (h : j ≤ k) : (2 : ℝ) ^ k = 2 ^ (k - j).toNat * 2 ^ j := by
  rw [← zpow_natCast, ← zpow_add₀ two_ne_zero]
  congr 1
  omega

theorem two_zpow_lt {j k : ℤ} : (2 : ℝ) ^ j < 2 ^ k ↔ j < k := zpow_lt_zpow_iff_right₀ one_lt_two

theorem two_zpow_le {j k : ℤ} : (2 : ℝ) ^ j ≤ 2 ^ k ↔ j ≤ k := zpow_le_zpow_iff_right₀ one_lt_two

/-- A natural number of units of 2^e reaches 2^(k + e) where it reaches 2^k. -/
theorem natCast_mul_zpow_le {m k : Nat} {e : ℤ} : (2 : ℝ) ^ (k + e : ℤ) ≤ m * 2 ^ e ↔ 2 ^ k ≤ m := by
  rw [zpow_add₀ two_ne_zero, mul_le_mul_iff_left₀ (two_zpow_pos e), zpow_natCast]
  exact_mod_cast Iff.rfl

/-- exponent(x) of a magnitude is its exponent as a real. -/
theorem expOf_bounds {m : Nat} (h : m ≠ 0) (e : ℤ) : (2 : ℝ) ^ expOf m e ≤ m * 2 ^ e ∧ (m : ℝ) * 2 ^ e < 2 ^ (expOf m e + 1) := by
  refine ⟨natCast_mul_zpow_le.mpr (Nat.log2_self_le h), ?_⟩
  have next : expOf m e + 1 = ((Nat.log2 m + 1 : ℕ) : ℤ) + e := by simp only [expOf]; push_cast; ring
  rw [next, ← not_le, natCast_mul_zpow_le, not_le]
  exact Nat.lt_log2_self

theorem expOf_lt_iff {m : Nat} (h : m ≠ 0) {e k : ℤ} : expOf m e < k ↔ (m : ℝ) * 2 ^ e < 2 ^ k := by
  obtain ⟨low, high⟩ := expOf_bounds h e
  exact ⟨fun lt => high.trans_le (two_zpow_le.mpr (by omega)), fun lt => two_zpow_lt.mp (low.trans_lt lt)⟩

theorem below_iff (y : Nat) (q k : ℤ) : below y q k = true ↔ (y : ℝ) * 2 ^ q < 2 ^ k := by
  by_cases zero : y = 0
  · simp [below, zero, two_zpow_pos]
  · rw [← expOf_lt_iff zero]
    simp [below, zero]

/-! ### Rounding to a multiple of a power of two -/

/-- m × 2^e tells the magnitude a as far as a rounding to a multiple of 2^q goes: it is a, or its last bit, far below the last bit that
the rounding looks at, says that a lies strictly between the neighbours of m × 2^e. -/
def Sticky (a : ℝ) (m : Nat) (e q : ℤ) : Prop :=
  a = m * 2 ^ e ∨ (m % 2 = 1 ∧ e + 2 ≤ q ∧ ((m : ℝ) - 1) * 2 ^ e < a ∧ a < ((m : ℝ) + 1) * 2 ^ e)

theorem Sticky.mono {a : ℝ} {m : Nat} {e q r : ℤ} (h : Sticky a m e q) (le : q ≤ r) : Sticky a m e r :=
  h.imp_right fun ⟨odd, far, low, high⟩ => ⟨odd, far.trans le, low, high⟩

/-- Whether a mode rounds the magnitude y + d, with 0 ≤ d < 1, up to y + 1 (R97). -/
def RoundsUp (rm : Rm) (neg : Bool) (y : Nat) (d : ℝ) : Prop :=
  match rm with
  | .rne => 1 / 2 < d ∨ (d = 1 / 2 ∧ y % 2 = 1)
  | .rmm => 1 / 2 ≤ d
  | .rtz => False
  | .rup => neg = false ∧ d ≠ 0
  | .rdn => neg = true ∧ d ≠ 0

theorem not_roundsUp_zero (rm : Rm) (neg : Bool) (y : Nat) : ¬ RoundsUp rm neg y 0 := by
  cases rm <;> norm_num [RoundsUp]

/-- What is left of a magnitude below a multiple of 2^sh, in units of its last bit: it compares with 0 and with the half as the exact
remainder does. -/
theorem Sticky.remainder {a : ℝ} {m : Nat} {e q : ℤ} (h : Sticky a m e q) (_ : e < q) :
    let sh := (q - e).toNat
    ∃ δ : ℝ, a = (((m / 2 ^ sh : ℕ) : ℝ) * 2 ^ sh + δ) * 2 ^ e ∧ 0 ≤ δ ∧ δ < 2 ^ sh ∧ (m % 2 ^ sh = 0 ↔ δ = 0) ∧
      (2 ^ (sh - 1) < m % 2 ^ sh ↔ (2 : ℝ) ^ (sh - 1) < δ) ∧ (m % 2 ^ sh = 2 ^ (sh - 1) ↔ δ = 2 ^ (sh - 1)) := by
  intro sh
  have split : ((m / 2 ^ sh : ℕ) : ℝ) * 2 ^ sh + ((m % 2 ^ sh : ℕ) : ℝ) = m := by
    exact_mod_cast Nat.div_add_mod' m (2 ^ sh)
  have small : m % 2 ^ sh < 2 ^ sh := Nat.mod_lt _ (by positivity)
  obtain same | ⟨odd, far, low, high⟩ := h
  · refine ⟨(m % 2 ^ sh : ℕ), ?_, by positivity, by exact_mod_cast small, by norm_cast, by norm_cast, by norm_cast⟩
    rw [split, same]
  · have unit := two_zpow_pos e
    obtain ⟨j, hj⟩ : ∃ j, sh = j + 2 := ⟨sh - 2, by omega⟩
    have whole : 2 ^ sh = 4 * 2 ^ j := by rw [hj, pow_add]; ring
    have half : 2 ^ (sh - 1) = 2 * 2 ^ j := by rw [hj, show j + 2 - 1 = j + 1 by omega, pow_succ]; ring
    have oddRest : m % 2 ^ sh % 2 = 1 := by
      rw [Nat.mod_mod_of_dvd _ (by rw [whole]; omega)]
      exact odd
    generalize m % 2 ^ sh = r at *
    have lower : (m : ℝ) - 1 < a / 2 ^ e := (lt_div_iff₀ unit).mpr low
    have upper : a / 2 ^ e < (m : ℝ) + 1 := (div_lt_iff₀ unit).mpr high
    have above {n : Nat} (h : n + 1 ≤ r) : (n : ℝ) < a / 2 ^ e - ((m / 2 ^ sh : ℕ) : ℝ) * 2 ^ sh := by
      have : (n : ℝ) + 1 ≤ r := by exact_mod_cast h
      linarith
    have under {n : Nat} (h : r + 1 ≤ n) : a / 2 ^ e - ((m / 2 ^ sh : ℕ) : ℝ) * 2 ^ sh < n := by
      have : (r : ℝ) + 1 ≤ n := by exact_mod_cast h
      linarith
    have positive := above (n := 0) (by omega)
    have bounded := under (n := 2 ^ sh) (by omega)
    push_cast at positive bounded
    refine ⟨a / 2 ^ e - ((m / 2 ^ sh : ℕ) : ℝ) * 2 ^ sh, by field_simp; ring, positive.le, bounded,
      iff_of_false (by omega) positive.ne', ?_⟩
    obtain less | more : r + 1 ≤ 2 ^ (sh - 1) ∨ 2 ^ (sh - 1) + 1 ≤ r := by omega
    · have short := under less
      push_cast at short
      exact ⟨iff_of_false (by omega) short.not_gt, iff_of_false (by omega) short.ne⟩
    · have long := above more
      push_cast at long
      exact ⟨iff_of_true (by omega) long, iff_of_false (by omega) long.ne'⟩

theorem ite_of_iff {P Q : Prop} [Decidable P] (h : P ↔ Q) {α : Type} (a b : α) :
    (Q → (if P then a else b) = a) ∧ (¬ Q → (if P then a else b) = b) :=
  ⟨fun q => if_pos (h.mpr q), fun q => if_neg (h.not.mpr q)⟩

/-- A rounding sees the whole number of units below a magnitude and how what is left compares with 0 and with half a unit (R97). -/
theorem roundAt_sticky {a : ℝ} {m : Nat} {e q : ℤ} (h : Sticky a m e q) (rm : Rm) (neg : Bool) :
    ∃ (y : Nat) (d : ℝ), a = (y + d) * 2 ^ q ∧ 0 ≤ d ∧ d < 1 ∧ ((roundAt rm neg m e q).2 = true ↔ d ≠ 0) ∧
      (RoundsUp rm neg y d → (roundAt rm neg m e q).1 = y + 1) ∧ (¬ RoundsUp rm neg y d → (roundAt rm neg m e q).1 = y) := by
  by_cases fine : q ≤ e
  · have same : a = m * 2 ^ e := h.resolve_right (by omega)
    rw [roundAt, if_pos fine]
    refine ⟨m * 2 ^ (e - q).toNat, 0, ?_, le_rfl, one_pos, by simp, fun up => (not_roundsUp_zero _ _ _ up).elim, fun _ => rfl⟩
    rw [same, two_zpow_split fine]
    push_cast
    ring
  · obtain ⟨δ, sum, nonneg, small, zero, beyond, tie⟩ := h.remainder (not_le.mp fine)
    rw [roundAt, if_neg fine]
    dsimp only at sum small zero beyond tie ⊢
    have width : (2 : ℝ) ^ q = 2 ^ (q - e).toNat * 2 ^ e := two_zpow_split (by omega)
    obtain ⟨j, hj⟩ : ∃ j, (q - e).toNat = j + 1 := ⟨(q - e).toNat - 1, by omega⟩
    have half : (2 : ℝ) ^ ((q - e).toNat - 1) = 1 / 2 * 2 ^ (q - e).toNat := by
      rw [hj, Nat.add_sub_cancel, pow_succ]
      ring
    generalize (q - e).toNat = sh at *
    have unit : (0 : ℝ) < 2 ^ sh := by positivity
    have ratio : δ / 2 ^ sh * 2 ^ sh = δ := div_mul_cancel₀ _ unit.ne'
    have isZero : δ / 2 ^ sh = 0 ↔ m % 2 ^ sh = 0 := by rw [zero, div_eq_zero_iff, or_iff_left unit.ne']
    have isOver : 1 / 2 < δ / 2 ^ sh ↔ 2 ^ (sh - 1) < m % 2 ^ sh := by rw [beyond, half, lt_div_iff₀ unit]
    have isTie : δ / 2 ^ sh = 1 / 2 ↔ m % 2 ^ sh = 2 ^ (sh - 1) := by rw [tie, half, div_eq_iff unit.ne']
    have isHalf : 1 / 2 ≤ δ / 2 ^ sh ↔ 2 ^ (sh - 1) ≤ m % 2 ^ sh := by
      rw [le_iff_lt_or_eq, le_iff_lt_or_eq, isOver, eq_comm, isTie, eq_comm]
    refine ⟨m / 2 ^ sh, δ / 2 ^ sh, ?_, by positivity, (div_lt_one unit).mpr small, ?_, ite_of_iff ?_ _ _⟩
    · rw [sum, width, ← mul_assoc, add_mul _ (δ / _), ratio]
    · rw [ne_eq, isZero, bne_iff_ne]
    · cases rm <;> simp [-one_div, RoundsUp, isOver, isTie, isHalf, isZero]

/-! ### The multiple that a mode selects (R97) -/

/-- The sign of a number. -/
def signOf (neg : Bool) : ℝ := if neg then -1 else 1

theorem signOf_mul_self (neg : Bool) : signOf neg * signOf neg = 1 := by cases neg <;> norm_num [signOf]

theorem abs_signOf_mul (neg : Bool) (a : ℝ) : |signOf neg * a| = |a| := by cases neg <;> simp [signOf]

theorem abs_signOf_mul_of_nonneg (neg : Bool) {a : ℝ} (h : 0 ≤ a) : |signOf neg * a| = a := by
  rw [abs_signOf_mul, abs_of_nonneg h]

theorem signOf_mul_neg_iff (neg : Bool) {a : ℝ} (h : 0 < a) : signOf neg * a < 0 ↔ neg = true := by
  cases neg <;> simp [signOf, h, h.le]

theorem signOf_mul_pos_iff (neg : Bool) {a : ℝ} (h : 0 < a) : 0 < signOf neg * a ↔ neg = false := by
  cases neg <;> simp [signOf, h, h.le]

theorem signOf_mul_inj {neg : Bool} {a b : ℝ} : signOf neg * a = signOf neg * b ↔ a = b :=
  mul_right_inj' (by cases neg <;> norm_num [signOf])

section
variable {rm : Rm} {neg : Bool} {y Y : Nat} {d u : ℝ} (unit : 0 < u) (nonneg : 0 ≤ d) (small : d < 1)
include unit nonneg small

/-- The magnitude y + d units rounded up to y + 1, where the mode says so, is the multiple that the mode selects (R97). -/
theorem rounds_up (isUp : RoundsUp rm neg y d) :
    Claim.Rounds rm u (signOf neg * ((y + d) * u)) (signOf neg * ((y + 1 : ℕ) * u)) := by
  have above : (0 : ℝ) ≤ (y + d) * u := by positivity
  refine ⟨(if neg then -1 else 1) * ((y + 1 : ℕ) : ℤ), by rw [signOf]; push_cast; ring, ?_⟩
  have gap : signOf neg * ((y + d) * u) - signOf neg * ((y + 1 : ℕ) * u) = signOf neg * (-((1 - d) * u)) := by
    push_cast
    ring
  have gapSize : |signOf neg * ((y + d) * u) - signOf neg * ((y + 1 : ℕ) * u)| = (1 - d) * u := by
    rw [gap, abs_signOf_mul, abs_neg, abs_of_nonneg (by nlinarith)]
  cases rm with
  | rne =>
    rw [gapSize]
    have half : 1 / 2 ≤ d := isUp.elim le_of_lt fun tie => tie.1.ge
    refine ⟨by nlinarith, fun same => ?_⟩
    have tie : d = 1 / 2 := by nlinarith
    have odd : y % 2 = 1 := (isUp.resolve_left (by rw [tie]; exact lt_irrefl _)).2
    have even : Even ((y + 1 : ℕ) : ℤ) := by rw [Int.even_iff]; omega
    exact even.mul_left _
  | rmm =>
    rw [gapSize]
    have half : 1 / 2 ≤ d := isUp
    refine ⟨by nlinarith, fun _ => ?_⟩
    rw [abs_signOf_mul_of_nonneg _ above, abs_signOf_mul_of_nonneg _ (by positivity)]
    push_cast
    nlinarith
  | rtz => exact isUp.elim
  | rup =>
    obtain ⟨rfl, inexact⟩ := isUp
    have positive : 0 < d := nonneg.lt_of_ne' inexact
    simp only [signOf, Bool.false_eq_true, if_false, one_mul] at gap ⊢
    constructor <;> nlinarith
  | rdn =>
    obtain ⟨rfl, inexact⟩ := isUp
    have positive : 0 < d := nonneg.lt_of_ne' inexact
    simp only [signOf, if_true] at gap ⊢
    constructor <;> nlinarith

/-- The magnitude y + d units rounded down to y, where the mode does not round up, is the multiple that the mode selects (R97). -/
theorem rounds_down (isDown : ¬ RoundsUp rm neg y d) : Claim.Rounds rm u (signOf neg * ((y + d) * u)) (signOf neg * (y * u)) := by
  have above : (0 : ℝ) ≤ (y + d) * u := by positivity
  have part : d * u < u := by nlinarith
  refine ⟨(if neg then -1 else 1) * y, by cases neg <;> simp [signOf], ?_⟩
  have gap : signOf neg * ((y + d) * u) - signOf neg * (y * u) = signOf neg * (d * u) := by ring
  have gapSize : |signOf neg * ((y + d) * u) - signOf neg * (y * u)| = d * u := by
    rw [gap, abs_signOf_mul, abs_of_nonneg (by positivity)]
  cases rm with
  | rne =>
    rw [gapSize]
    have half : d ≤ 1 / 2 := not_lt.mp fun lt => isDown (.inl lt)
    refine ⟨by nlinarith, fun same => ?_⟩
    have tie : d = 1 / 2 := by nlinarith
    have even : Even (y : ℤ) := by
      rw [Int.even_iff]
      have : ¬ y % 2 = 1 := fun odd => isDown (.inr ⟨tie, odd⟩)
      omega
    exact even.mul_left _
  | rmm =>
    rw [gapSize]
    have half : d < 1 / 2 := not_le.mp isDown
    exact ⟨by nlinarith, fun same => absurd same (by nlinarith)⟩
  | rtz =>
    have product : signOf neg * ((y + d) * u) * (signOf neg * (y * u)) = (y + d) * u * (y * u) := by
      linear_combination (y + d) * u * (y * u) * signOf_mul_self neg
    rw [abs_signOf_mul_of_nonneg _ above, abs_signOf_mul_of_nonneg _ (by positivity), product]
    refine ⟨by nlinarith, by nlinarith, by positivity⟩
  | rup =>
    cases neg with
    | true =>
      simp only [signOf, if_true] at gap ⊢
      constructor <;> nlinarith
    | false =>
      have exact_ : d = 0 := by_contra fun inexact => isDown ⟨rfl, inexact⟩
      simp only [signOf, Bool.false_eq_true, if_false, exact_]
      constructor <;> linarith
  | rdn =>
    cases neg with
    | true =>
      have exact_ : d = 0 := by_contra fun inexact => isDown ⟨rfl, inexact⟩
      simp only [signOf, if_true, exact_]
      constructor <;> linarith
    | false =>
      simp only [signOf, Bool.false_eq_true, if_false] at gap ⊢
      constructor <;> nlinarith

/-- The magnitude y + d units, rounded up to y + 1 exactly where its mode says so, is the multiple that the mode selects (R97). -/
theorem rounds_of_roundsUp (up : RoundsUp rm neg y d → Y = y + 1) (down : ¬ RoundsUp rm neg y d → Y = y) :
    Claim.Rounds rm u (signOf neg * ((y + d) * u)) (signOf neg * (Y * u)) := by
  by_cases isUp : RoundsUp rm neg y d
  · rw [up isUp]
    exact rounds_up unit nonneg small isUp
  · rw [down isUp]
    exact rounds_down unit nonneg small isUp

end

/-- What a rounding to a multiple of 2^q gives: the multiple that the mode selects, whether it differs from the magnitude, and
its neighbourhood. -/
theorem rounds_roundAt {a : ℝ} {m : Nat} {e q : ℤ} (h : Sticky a m e q) (rm : Rm) (neg : Bool) :
    Claim.Rounds rm (2 ^ q) (signOf neg * a) (signOf neg * ((roundAt rm neg m e q).1 * 2 ^ q)) ∧
      ((roundAt rm neg m e q).2 = true ↔ ((roundAt rm neg m e q).1 : ℝ) * 2 ^ q ≠ a) ∧
      ∀ n : Nat, ((n : ℝ) * 2 ^ q ≤ a → n ≤ (roundAt rm neg m e q).1) ∧ (a < n * 2 ^ q → (roundAt rm neg m e q).1 ≤ n) := by
  obtain ⟨y, d, sum, nonneg, small, inexact, up, down⟩ := roundAt_sticky h rm neg
  have unit := two_zpow_pos q
  refine ⟨sum ▸ rounds_of_roundsUp unit nonneg small up down, ?_, fun n => ⟨fun le => ?_, fun lt => ?_⟩⟩
  · rw [inexact, sum, ne_eq, ne_eq, mul_left_inj' unit.ne']
    by_cases isUp : RoundsUp rm neg y d
    · rw [up isUp]
      have positive : d ≠ 0 := fun zero => not_roundsUp_zero rm neg y (zero ▸ isUp)
      refine iff_of_true positive ?_
      push_cast
      intro same
      linarith
    · rw [down isUp, left_eq_add]
  · have : (n : ℝ) < y + 1 := by
      rw [sum, mul_le_mul_iff_left₀ unit] at le
      linarith
    have : n < y + 1 := by exact_mod_cast this
    by_cases isUp : RoundsUp rm neg y d
    · have := up isUp; omega
    · have := down isUp; omega
  · have : (y : ℝ) < n := by
      rw [sum, mul_lt_mul_iff_left₀ unit] at lt
      linarith
    have : y < n := by exact_mod_cast this
    by_cases isUp : RoundsUp rm neg y d
    · have := up isUp; omega
    · have := down isUp; omega

/-! ### Patterns (Tables 4.1, 4.2) -/

theorem Fmt.fields (F : Fmt) (n : Bool) {ex fr : Nat} (hex : ex < 2 ^ F.e) (hfr : fr < 2 ^ F.f) :
    (F.sign n + ex * 2 ^ F.f + fr) % 2 ^ F.f = fr ∧ (F.sign n + ex * 2 ^ F.f + fr) / 2 ^ F.f % 2 ^ F.e = ex ∧
      ((F.sign n + ex * 2 ^ F.f + fr) / 2 ^ (F.e + F.f) % 2 == 1) = n := by
  have whole : F.sign n + ex * 2 ^ F.f + fr = (n.toNat * 2 ^ F.e + ex) * 2 ^ F.f + fr := by
    cases n <;> simp [Fmt.sign, pow_add]
    ring
  have high : (F.sign n + ex * 2 ^ F.f + fr) / 2 ^ F.f = n.toNat * 2 ^ F.e + ex := by
    rw [whole, Nat.mul_comm, Nat.mul_add_div (by positivity), Nat.div_eq_of_lt hfr, add_zero]
  refine ⟨?_, ?_, ?_⟩
  · rw [whole, Nat.mul_add_mod', Nat.mod_eq_of_lt hfr]
  · rw [high, Nat.mul_add_mod', Nat.mod_eq_of_lt hex]
  · rw [Nat.add_comm F.e, pow_add, ← Nat.div_div_eq_div_mul, high, Nat.mul_comm, Nat.mul_add_div (by positivity),
      Nat.div_eq_of_lt hex, add_zero]
    cases n <;> rfl

theorem Fmt.value_pattern (F : Fmt) (n : Bool) {ex fr : Nat} (hex : ex < 2 ^ F.e) (hfr : fr < 2 ^ F.f) :
    F.value (F.sign n + ex * 2 ^ F.f + fr) =
      if ex = F.top then (if fr = 0 then .inf n else .nan (fr / 2 ^ (F.f - 1) % 2 == 0))
      else if ex = 0 then .fin n fr (F.emin - F.f) else .fin n (fr + 2 ^ F.f) ((ex : Int) - F.bias - F.f) := by
  obtain ⟨frac, expo, sign⟩ := F.fields n hex hfr
  simp only [Fmt.value, frac, expo, sign]

theorem Fmt.top_lt (F : Fmt) : F.top < 2 ^ F.e := Nat.sub_one_lt (by positivity)

/-- A format has an exponent between that of a subnormal and the all-ones one. -/
theorem Fmt.two_le_top {F : Fmt} (h : 2 ≤ F.e) : 3 ≤ F.top := by
  have : 2 ^ 2 ≤ 2 ^ F.e := Nat.pow_le_pow_right two_pos h
  unfold Fmt.top
  omega

@[simp] theorem Fmt.value_inf (F : Fmt) (n : Bool) : F.value (F.inf n) = .inf n := by
  have same : F.inf n = F.sign n + F.top * 2 ^ F.f + 0 := rfl
  rw [same, F.value_pattern n F.top_lt (by positivity), if_pos rfl, if_pos rfl]

theorem Fmt.value_zero {F : Fmt} (h : 2 ≤ F.e) (n : Bool) : F.value (F.zero n) = .fin n 0 (F.emin - F.f) := by
  have same : F.zero n = F.sign n + 0 * 2 ^ F.f + 0 := by rw [Nat.zero_mul]; rfl
  have := F.two_le_top h
  rw [same, F.value_pattern n (by positivity) (by positivity), if_neg (by omega), if_pos rfl]

/-- The exponent of the largest finite value. -/
def Fmt.emax (F : Fmt) : ℤ := (F.top : ℤ) - 1 - F.bias

theorem Fmt.value_maxFinite {F : Fmt} (h : 2 ≤ F.e) (n : Bool) :
    F.value (F.maxFinite n) = .fin n (2 ^ (F.f + 1) - 1) (F.emax - F.f) := by
  have := F.two_le_top h
  have := F.top_lt
  have pos : 0 < 2 ^ F.f := by positivity
  have same : F.maxFinite n = F.sign n + (F.top - 1) * 2 ^ F.f + (2 ^ F.f - 1) := by
    obtain ⟨t, ht⟩ : ∃ t, F.top = t + 1 := ⟨F.top - 1, by omega⟩
    rw [Fmt.maxFinite, ht, Nat.add_sub_cancel, Nat.succ_mul]
    omega
  rw [same, F.value_pattern n (by omega) (by omega), if_neg (by omega), if_neg (by omega), pow_succ]
  congr 1
  · omega
  · rw [Fmt.emax]
    omega

/-! ### Packing -/

/-- The pattern of a multiple of the spacing, below the overflow threshold, stands for it. -/
theorem Fmt.value_pack {F : Fmt} (h : 2 ≤ F.e) (neg : Bool) {Y : Nat} {q : ℤ} (fits : Y ≤ 2 ^ (F.f + 1)) (low : F.emin - F.f ≤ q)
    (spaced : q = F.emin - F.f ∨ 2 ^ F.f ≤ Y) (finite : (Y : ℝ) * 2 ^ q < 2 ^ (F.emax + 1)) :
    ∃ m e, F.value (F.pack neg Y q) = .fin neg m e ∧ (m : ℝ) * 2 ^ e = Y * 2 ^ q := by
  have top := F.two_le_top h
  have topLt := F.top_lt
  by_cases zero : Y = 0
  · refine ⟨0, F.emin - F.f, ?_, by simp [zero]⟩
    rw [Fmt.pack, if_pos zero, Fmt.value_zero h]
  have expo : expOf Y q = (Nat.log2 Y : ℤ) + q := rfl
  have large (h : 2 ^ F.f ≤ Y) : F.f ≤ Nat.log2 Y := (Nat.le_log2 zero).mpr h
  rw [Fmt.pack, if_neg zero]
  dsimp only
  by_cases sub : expOf Y q < F.emin
  · have same : q = F.emin - F.f := spaced.resolve_right fun le => by have := large le; omega
    have small : Y < 2 ^ F.f := by
      rw [← Nat.log2_lt zero]
      omega
    have pattern : F.sign neg + Y * 2 ^ (q - (F.emin - F.f)).toNat = F.sign neg + 0 * 2 ^ F.f + Y := by
      rw [same, sub_self]
      simp
    rw [if_pos sub, pattern, F.value_pattern neg (by positivity) small, if_neg (by omega), if_pos rfl]
    exact ⟨Y, _, rfl, by rw [same]⟩
  · have normal : F.f ≤ Nat.log2 Y := by
      obtain same | le := spaced
      · omega
      · exact large le
    have lower : 2 ^ F.f ≤ Y := (Nat.le_log2 zero).mp normal
    have ceiling : expOf Y q < F.emax + 1 := (expOf_lt_iff zero).mpr finite
    have ex : ((expOf Y q + F.bias).toNat : ℤ) = expOf Y q + F.bias := by
      rw [Fmt.emin] at sub
      omega
    rw [Fmt.emax] at ceiling
    rw [Fmt.emin] at sub
    rw [if_neg (by rw [Fmt.emin]; exact sub)]
    obtain inside | edge := fits.lt_or_eq
    · have log : Nat.log2 Y = F.f := le_antisymm (by rw [← Nat.lt_succ_iff, Nat.log2_lt zero]; exact inside) normal
      have frac : Y * 2 ^ F.f / 2 ^ Nat.log2 Y - 2 ^ F.f = Y - 2 ^ F.f := by rw [log, Nat.mul_div_cancel _ (by positivity)]
      have succ : 2 ^ (F.f + 1) = 2 ^ F.f * 2 := pow_succ _ _
      rw [frac, F.value_pattern neg (by omega) (by omega), if_neg (by omega), if_neg (by omega), Nat.sub_add_cancel lower]
      refine ⟨Y, _, rfl, ?_⟩
      congr 2
      omega
    · have log : Nat.log2 Y = F.f + 1 := by rw [edge, Nat.log2_two_pow]
      have frac : Y * 2 ^ F.f / 2 ^ Nat.log2 Y - 2 ^ F.f = 0 := by
        rw [log, edge, Nat.mul_div_cancel_left _ (by positivity), Nat.sub_self]
      rw [frac, F.value_pattern neg (by omega) (by positivity), if_neg (by omega), if_neg (by omega)]
      refine ⟨_, _, rfl, ?_⟩
      have place : ((expOf Y q + F.bias).toNat : ℤ) - F.bias - F.f = q + 1 := by omega
      rw [place, edge, zpow_add₀ two_ne_zero]
      push_cast
      ring

/-! ### One rounding (R97, R98) -/

theorem Fmt.largest (F : Fmt) : Claim.Largest F ((2 ^ (F.f + 1) - 1 : ℝ) * 2 ^ (F.emax - F.f)) := rfl

/-- What a rounding to f + 1 bits of a magnitude with exponent E lies beyond the largest finite value, reaches 2^(emax + 1). -/
theorem Fmt.beyond_iff (F : Fmt) {V : Nat} {E : ℤ} (low : 2 ^ F.f ≤ V) (high : V ≤ 2 ^ (F.f + 1)) :
    (2 ^ (F.f + 1) - 1 : ℝ) * 2 ^ (F.emax - F.f) < V * 2 ^ (E - F.f) ↔ (2 : ℝ) ^ (F.emax + 1) ≤ V * 2 ^ (E - F.f) := by
  have unit := two_zpow_pos (F.emax - F.f)
  have next : (2 : ℝ) ^ (F.emax + 1) = 2 ^ (F.f + 1) * 2 ^ (F.emax - F.f) := by
    rw [← zpow_natCast, ← zpow_add₀ two_ne_zero]
    congr 1
    push_cast
    ring
  refine ⟨fun lt => ?_, fun le => lt_of_lt_of_le ?_ le⟩
  · obtain less | same | more := lt_trichotomy E F.emax
    · have ceiling : (V : ℝ) * 2 ^ (E - F.f) ≤ 2 ^ (F.f + 1) * 2 ^ (F.emax - F.f - 1) :=
        mul_le_mul (by exact_mod_cast high) (two_zpow_le.mpr (by omega)) (two_zpow_pos _).le (by positivity)
      have halved : (2 : ℝ) ^ (F.emax - F.f) = 2 * 2 ^ (F.emax - F.f - 1) := by
        rw [mul_comm, ← zpow_add_one₀ two_ne_zero]
        congr 1
        ring
      have one : (1 : ℝ) ≤ 2 ^ F.f := one_le_pow₀ one_le_two
      have := two_zpow_pos (F.emax - F.f - 1)
      rw [halved, pow_succ] at lt
      rw [pow_succ] at ceiling
      nlinarith
    · rw [same, mul_lt_mul_iff_left₀ unit] at lt
      rw [same, next]
      refine mul_le_mul_of_nonneg_right ?_ unit.le
      have : (2 : ℝ) ^ (F.f + 1) < V + 1 := by linarith
      have : 2 ^ (F.f + 1) < V + 1 := by exact_mod_cast this
      exact_mod_cast Nat.lt_succ_iff.mp this
    · calc (2 : ℝ) ^ (F.emax + 1) = 2 ^ F.f * 2 ^ (F.emax + 1 - F.f) := by
            rw [← zpow_natCast, ← zpow_add₀ two_ne_zero]
            congr 1
            ring
        _ ≤ V * 2 ^ (E - F.f) :=
            mul_le_mul (by exact_mod_cast low) (two_zpow_le.mpr (by omega)) (two_zpow_pos _).le (by positivity)
  · rw [next]
    exact mul_lt_mul_of_pos_right (by linarith) unit

theorem Fmt.overflow_threshold (F : Fmt) :
    (F.bias : ℤ) + (if F.top = 2 * F.bias + 1 then 0 else (F.top : ℤ) - 2 * F.bias - 1) = F.emax := by
  rw [Fmt.emax]
  split <;> omega

/-- The pattern that an overflow leaves (Table 4.5). -/
theorem Fmt.value_overflow {F : Fmt} (h : 2 ≤ F.e) (rm : Rm) (neg : Bool) :
    ((rm = .rne ∨ rm = .rmm ∨ (rm = .rup ∧ neg = false) ∨ (rm = .rdn ∧ neg = true)) ∧ F.value (F.overflow rm neg) = .inf neg) ∨
      ((rm = .rtz ∨ (rm = .rup ∧ neg = true) ∨ (rm = .rdn ∧ neg = false)) ∧
        F.value (F.overflow rm neg) = .fin neg (2 ^ (F.f + 1) - 1) (F.emax - F.f)) := by
  have inf := F.value_inf
  have largest := F.value_maxFinite h
  cases rm <;> cases neg <;> simp [Fmt.overflow, inf, largest]

theorem stands_fin {x : ℝ} {n : Bool} {m : Nat} {e : ℤ} : Claim.Stands x (.fin n m e) ↔ x = signOf n * (m * 2 ^ e) := by
  rw [← mul_assoc]
  rfl

/-- A magnitude with exponent E, and the multiples that a mode selects for it at the spacing of the format and with an unbounded
exponent range. -/
structure Fmt.Roundings (F : Fmt) (rm : Rm) (neg : Bool) (a : ℝ) (E : ℤ) (Y V : Nat) : Prop where
  low : (2 : ℝ) ^ E ≤ a
  high : a < 2 ^ (E + 1)
  spaced : Claim.Rounds rm (2 ^ (max E F.emin - F.f)) (signOf neg * a) (signOf neg * (Y * 2 ^ (max E F.emin - F.f)))
  unbounded : Claim.Rounds rm (2 ^ (E - F.f)) (signOf neg * a) (signOf neg * (V * 2 ^ (E - F.f)))
  vLow : 2 ^ F.f ≤ V
  vHigh : V ≤ 2 ^ (F.f + 1)
  normal : F.emin ≤ E → Y = V
  sub : E < F.emin → Y ≤ 2 ^ F.f

/-- A power of two in units of the last of f + 1 bits. -/
theorem Fmt.zpow_bits (F : Fmt) (k : ℤ) : (2 : ℝ) ^ k = (2 ^ F.f : ℕ) * 2 ^ (k - F.f) := by
  push_cast
  rw [← zpow_natCast, ← zpow_add₀ two_ne_zero]
  congr 1
  ring

theorem Fmt.zpow_succ_bits (F : Fmt) (k : ℤ) : (2 : ℝ) ^ (k + 1) = (2 ^ (F.f + 1) : ℕ) * 2 ^ (k - F.f) := by
  rw [zpow_add_one₀ two_ne_zero, F.zpow_bits k]
  push_cast
  ring

/-- `roundAt` gives both multiples of a magnitude that its argument tells. -/
theorem Fmt.roundings_roundAt (F : Fmt) (rm : Rm) (neg : Bool) {m : Nat} {e E : ℤ} {a : ℝ} (tells : Sticky a m e (E - F.f))
    (low : (2 : ℝ) ^ E ≤ a) (high : a < 2 ^ (E + 1)) :
    F.Roundings rm neg a E (roundAt rm neg m e (max E F.emin - F.f)).1 (roundAt rm neg m e (E - F.f)).1 := by
  obtain ⟨spaced, -, yNear⟩ := rounds_roundAt (tells.mono (r := max E F.emin - F.f) (by omega)) rm neg
  obtain ⟨unbounded, -, vNear⟩ := rounds_roundAt tells rm neg
  refine ⟨low, high, spaced, unbounded, (vNear _).1 (by rwa [← F.zpow_bits]), (vNear _).2 (by rwa [← F.zpow_succ_bits]),
    fun normal => by rw [max_eq_left normal], fun sub => (yNear _).2 ?_⟩
  rw [max_eq_right sub.le, ← F.zpow_bits]
  exact high.trans_le (two_zpow_le.mpr (by omega))

theorem Fmt.emin_lt {F : Fmt} (h : 2 ≤ F.e) : F.emin < F.emax + 1 := by
  have := F.two_le_top h
  rw [Fmt.emin, Fmt.emax]
  omega

section
variable {F : Fmt} {rm : Rm} {neg : Bool} {a : ℝ} {E : ℤ} {Y V : Nat}

theorem Fmt.Roundings.positive (R : F.Roundings rm neg a E Y V) : 0 < a := (two_zpow_pos E).trans_le R.low

theorem Fmt.Roundings.fits (R : F.Roundings rm neg a E Y V) : Y ≤ 2 ^ (F.f + 1) := by
  obtain sub | normal := lt_or_ge E F.emin
  · exact (R.sub sub).trans (Nat.pow_le_pow_right two_pos (Nat.le_succ _))
  · exact (R.normal normal).trans_le R.vHigh

theorem Fmt.Roundings.reaches (R : F.Roundings rm neg a E Y V) : max E F.emin - F.f = F.emin - F.f ∨ 2 ^ F.f ≤ Y := by
  obtain sub | normal := lt_or_ge E F.emin
  · exact .inl (by omega)
  · exact .inr (R.vLow.trans_eq (R.normal normal).symm)

theorem Fmt.Roundings.value_eq (R : F.Roundings rm neg a E Y V) (normal : F.emin ≤ E) :
    (Y : ℝ) * 2 ^ (max E F.emin - F.f) = V * 2 ^ (E - F.f) := by
  rw [max_eq_left normal, R.normal normal]

/-- Below the normal numbers neither multiple passes the least of them. -/
theorem Fmt.Roundings.le_emin (R : F.Roundings rm neg a E Y V) (sub : E < F.emin) :
    (Y : ℝ) * 2 ^ (max E F.emin - F.f) ≤ 2 ^ F.emin ∧ (V : ℝ) * 2 ^ (E - F.f) ≤ 2 ^ F.emin := by
  refine ⟨?_, le_trans ?_ (two_zpow_le.mpr (show E + 1 ≤ F.emin by omega))⟩
  · rw [max_eq_right sub.le, F.zpow_bits F.emin]
    exact mul_le_mul_of_nonneg_right (by exact_mod_cast R.sub sub) (two_zpow_pos _).le
  · rw [F.zpow_succ_bits]
    exact mul_le_mul_of_nonneg_right (by exact_mod_cast R.vHigh) (two_zpow_pos _).le

/-- The model's test for an overflow looks at the result rounded with an unbounded exponent range. -/
theorem Fmt.Roundings.overflows_iff (R : F.Roundings rm neg a E Y V) (h : 2 ≤ F.e) :
    (E ≥ F.emin ∧ expOf Y (max E F.emin - F.f) > F.emax) ↔ (2 : ℝ) ^ (F.emax + 1) ≤ V * 2 ^ (E - F.f) := by
  obtain sub | normal := lt_or_ge E F.emin
  · exact iff_of_false (fun both => absurd both.1 (not_le.mpr sub))
      (not_le.mpr ((R.le_emin sub).2.trans_lt (two_zpow_lt.mpr (Fmt.emin_lt h))))
  · have nonzero : Y ≠ 0 := by
      have : 0 < 2 ^ F.f := by positivity
      have := R.vLow
      rw [R.normal normal]
      omega
    rw [and_iff_right normal, ← R.value_eq normal, ← not_lt, ← expOf_lt_iff nonzero]
    omega

/-- Table 4.5: the exact value rounded with an unbounded exponent range lies beyond the largest finite value. -/
theorem Fmt.Roundings.rounded_overflow (R : F.Roundings rm neg a E Y V) (h : 2 ≤ F.e)
    (beyond : (2 : ℝ) ^ (F.emax + 1) ≤ V * 2 ^ (E - F.f)) :
    Claim.Rounded F rm (signOf neg * a) (F.overflow rm neg, ofF ||| nxF) := by
  have spacing (k : ℤ) : k - F.p + 1 = k - F.f := by simp only [Fmt.p]; push_cast; ring
  have nonneg : |signOf neg * a| = a := abs_signOf_mul_of_nonneg _ R.positive.le
  have isNeg := signOf_mul_neg_iff neg R.positive
  have isPos := signOf_mul_pos_iff neg R.positive
  refine ⟨E, _, _, _, by rw [nonneg]; exact R.low, by rw [nonneg]; exact R.high, by rw [spacing]; exact R.spaced,
    by rw [spacing]; exact R.unbounded, F.largest, fun _ => ⟨rfl, fun toInf => ?_, fun toLargest => ?_⟩, fun within => ?_⟩
  · obtain ⟨-, value⟩ | ⟨mode, -⟩ := F.value_overflow h rm neg
    · exact ⟨neg, value, isNeg.symm⟩
    · rw [isNeg, isPos] at toInf
      cases rm <;> cases neg <;> simp at toInf mode
  · obtain ⟨mode, -⟩ | ⟨-, value⟩ := F.value_overflow h rm neg
    · rw [isNeg, isPos] at toLargest
      cases rm <;> cases neg <;> simp at toLargest mode
    · rw [value, stands_fin, if_congr isNeg rfl rfl]
      cases neg <;> simp [signOf]
  · rw [abs_signOf_mul_of_nonneg _ (by positivity)] at within
    exact absurd within (not_le.mpr ((F.beyond_iff R.vLow R.vHigh).mpr beyond))

/-- Within the finite values the result is the multiple at the spacing of the format; UF comes of a result that is inexact and, rounded
with an unbounded exponent range, below the normal numbers (R98). -/
theorem Fmt.Roundings.rounded_finite (R : F.Roundings rm neg a E Y V) (h : 2 ≤ F.e)
    (finite : ¬ (2 : ℝ) ^ (F.emax + 1) ≤ V * 2 ^ (E - F.f)) {ix : Bool}
    (inexact : ix = true ↔ (Y : ℝ) * 2 ^ (max E F.emin - F.f) ≠ a) :
    Claim.Rounded F rm (signOf neg * a) (F.pack neg Y (max E F.emin - F.f),
      (if ix then nxF else 0) ||| (if ix && below V (E - F.f) F.emin then ufF else 0)) := by
  have spacing (k : ℤ) : k - F.p + 1 = k - F.f := by simp only [Fmt.p]; push_cast; ring
  have nonneg : |signOf neg * a| = a := abs_signOf_mul_of_nonneg _ R.positive.le
  have vSize : |signOf neg * ((V : ℝ) * 2 ^ (E - F.f))| = V * 2 ^ (E - F.f) := abs_signOf_mul_of_nonneg _ (by positivity)
  have yFinite : (Y : ℝ) * 2 ^ (max E F.emin - F.f) < 2 ^ (F.emax + 1) := by
    obtain sub | normal := lt_or_ge E F.emin
    · exact (R.le_emin sub).1.trans_lt (two_zpow_lt.mpr (Fmt.emin_lt h))
    · rw [R.value_eq normal]
      exact not_le.mp finite
  have tiny : below V (E - F.f) F.emin = true ↔ (V : ℝ) * 2 ^ (E - F.f) < 2 ^ F.emin := below_iff _ _ _
  obtain ⟨k, f, value, sum⟩ := Fmt.value_pack h neg R.fits (by omega) R.reaches yFinite
  refine ⟨E, signOf neg * (Y * 2 ^ (max E F.emin - F.f)), signOf neg * (V * 2 ^ (E - F.f)), _, by rw [nonneg]; exact R.low,
    by rw [nonneg]; exact R.high, by rw [spacing]; exact R.spaced, by rw [spacing]; exact R.unbounded, F.largest,
    fun beyond => ?_, fun _ => ?_⟩
  · rw [vSize, F.beyond_iff R.vLow R.vHigh] at beyond
    exact absurd beyond finite
  · rw [value, stands_fin, sum, vSize, signOf_mul_neg_iff _ R.positive]
    simp only [ne_eq, signOf_mul_inj]
    refine ⟨trivial, Iff.rfl, fun same => ?_, fun differs normal => ?_, fun differs sub => ?_⟩
    · have : ix = false := Bool.eq_false_iff.mpr (inexact.not.mpr (not_not.mpr same))
      simp [this]
    · have notTiny : below V (E - F.f) F.emin = false := Bool.eq_false_iff.mpr (tiny.not.mpr (not_lt.mpr normal))
      simp [inexact.mpr differs, notTiny]
    · simp only [inexact.mpr differs, tiny.mpr sub]
      decide

end

/-- The rounding of an exact magnitude, or of one that is known up to a last bit that tells it inexact, is the exact value rounded once
(R97, R98, Table 4.5). -/
theorem Fmt.rounded_round {F : Fmt} (h : 2 ≤ F.e) (rm : Rm) (neg : Bool) {m : Nat} {e : ℤ} (nonzero : m ≠ 0) {a : ℝ}
    (tells : Sticky a m e (expOf m e - F.f)) (low : (2 : ℝ) ^ expOf m e ≤ a) (high : a < 2 ^ (expOf m e + 1)) :
    Claim.Rounded F rm (signOf neg * a) (F.round rm neg m e) := by
  have R := F.roundings_roundAt rm neg tells low high
  have inexact := (rounds_roundAt (tells.mono (r := max (expOf m e) F.emin - F.f) (by omega)) rm neg).2.1
  rw [Fmt.round, if_neg nonzero]
  dsimp only
  rw [F.overflow_threshold, if_congr (R.overflows_iff h) rfl rfl]
  split
  · next beyond => exact R.rounded_overflow h beyond
  · next finite => exact R.rounded_finite h finite inexact

/-- A magnitude and what tells it have one exponent. -/
theorem Sticky.bounds {a : ℝ} {m : Nat} {e : ℤ} {f : Nat} (h : Sticky a m e (expOf m e - f)) (nonzero : m ≠ 0) :
    (2 : ℝ) ^ expOf m e ≤ a ∧ a < 2 ^ (expOf m e + 1) := by
  obtain ⟨low, high⟩ := expOf_bounds nonzero e
  obtain rfl | ⟨odd, far, above, under⟩ := h
  · exact ⟨low, high⟩
  · have unit := two_zpow_pos e
    have two : 2 ≤ Nat.log2 m := by
      rw [expOf] at far
      omega
    have even : ∀ k, 1 ≤ k → 2 ^ k % 2 = 0 := fun k hk => by
      obtain ⟨j, rfl⟩ : ∃ j, k = j + 1 := ⟨k - 1, by omega⟩
      rw [pow_succ]
      omega
    have lower : 2 ^ Nat.log2 m + 1 ≤ m := by
      have := Nat.log2_self_le nonzero
      have := even _ (show 1 ≤ Nat.log2 m by omega)
      omega
    have upper : m + 1 ≤ 2 ^ (Nat.log2 m + 1) := Nat.lt_log2_self
    have next : expOf m e + 1 = ((Nat.log2 m + 1 : ℕ) : ℤ) + e := by simp only [expOf]; push_cast; ring
    constructor
    · refine le_trans ?_ above.le
      rw [expOf, zpow_add₀ two_ne_zero, zpow_natCast]
      refine mul_le_mul_of_nonneg_right ?_ unit.le
      have : ((2 ^ Nat.log2 m + 1 : ℕ) : ℝ) ≤ m := by exact_mod_cast lower
      push_cast at this
      linarith
    · refine under.trans_le ?_
      rw [next, zpow_add₀ two_ne_zero, zpow_natCast]
      refine mul_le_mul_of_nonneg_right ?_ unit.le
      exact_mod_cast upper

theorem Fmt.rounded_of_sticky {F : Fmt} (h : 2 ≤ F.e) (rm : Rm) (neg : Bool) {m : Nat} {e : ℤ} (nonzero : m ≠ 0) {a : ℝ}
    (tells : Sticky a m e (expOf m e - F.f)) : Claim.Rounded F rm (signOf neg * a) (F.round rm neg m e) :=
  F.rounded_round h rm neg nonzero tells (tells.bounds nonzero).1 (tells.bounds nonzero).2

/-! ### Dyadic numbers as reals -/

/-- The real that a dyadic number is. -/
noncomputable def Dy.real (x : Dy) : ℝ := x.m * 2 ^ x.e

theorem Dy.real_eq_rat (x : Dy) : x.real = x.rat := by
  rw [Dy.real, Dy.rat]
  push_cast
  rfl

theorem Dy.real_lt_iff (x y : Dy) : x.lt y = true ↔ x.real < y.real := by
  rw [x.lt_iff, x.real_eq_rat, y.real_eq_rat, Rat.cast_lt]

theorem Dy.real_eq_zero_iff {x : Dy} : x.real = 0 ↔ x.m = 0 := by
  rw [Dy.real, mul_eq_zero, or_iff_left (two_zpow_pos _).ne', Int.cast_eq_zero]

theorem Dy.real_at (x : Dy) {k : ℤ} (h : k ≤ x.e) : (x.at k : ℝ) * 2 ^ k = x.real := by
  rw [x.real_eq_rat, ← x.at_mul h]
  push_cast
  rfl

@[simp] theorem Dy.real_add (x y : Dy) : (x.add y).real = x.real + y.real := by
  rw [Dy.add]
  split
  · next zero => rw [Dy.real_eq_zero_iff.mpr zero, zero_add]
  split
  · next zero => rw [Dy.real_eq_zero_iff.mpr zero, add_zero]
  · rw [← x.real_at (min_le_left x.e y.e), ← y.real_at (min_le_right x.e y.e), ← add_mul, ← Int.cast_add]
    rfl

@[simp] theorem Dy.real_mul (x y : Dy) : (x.mul y).real = x.real * y.real := by
  simp only [Dy.real, Dy.mul, zpow_add₀ (two_ne_zero' ℝ)]
  push_cast
  ring

theorem Dy.real_sign (x : Dy) : x.real = signOf (decide (x.m < 0)) * (x.m.natAbs * 2 ^ x.e) := by
  have sign : (x.m : ℝ) = signOf (decide (x.m < 0)) * x.m.natAbs := by
    obtain neg | pos := lt_or_ge x.m 0
    · rw [decide_eq_true neg, signOf, if_pos rfl, neg_one_mul, Nat.cast_natAbs, abs_of_neg neg]
      push_cast
      ring
    · rw [decide_eq_false (not_lt.mpr pos), signOf, if_neg Bool.false_ne_true, one_mul, Nat.cast_natAbs, abs_of_nonneg pos]
  rw [Dy.real, sign, mul_assoc]

/-- A rounded exact number (R97, R98). -/
theorem Fmt.rounded_roundDy {F : Fmt} (h : 2 ≤ F.e) (rm : Rm) {x : Dy} (z : Bool) (nonzero : x.real ≠ 0) :
    Claim.Rounded F rm x.real (F.roundDy rm x z) := by
  have m : x.m ≠ 0 := Dy.real_eq_zero_iff.not.mp nonzero
  rw [Fmt.roundDy, if_neg m, x.real_sign]
  exact F.rounded_of_sticky h rm _ (Int.natAbs_ne_zero.mpr m) (.inl rfl)

theorem Fmt.roundDy_zero (F : Fmt) (rm : Rm) {x : Dy} (z : Bool) (zero : x.real = 0) : F.roundDy rm x z = (F.zero z, 0) :=
  if_pos (Dy.real_eq_zero_iff.mp zero)

/-! ### Numbers as reals -/

theorem Num.real_fin (n : Bool) (m : Nat) (e : ℤ) : (Num.fin n m e).dy.real = signOf n * (m * 2 ^ e) := by
  cases n <;> simp [Num.dy, Dy.real, signOf]

/-- A number stands for a real where it is finite and that real. -/
theorem stands_iff {x : ℝ} {a : Num} : Claim.Stands x a ↔ ∃ n m e, a = .fin n m e ∧ x = (Num.fin n m e).dy.real := by
  cases a with
  | nan s => exact ⟨False.elim, nofun⟩
  | inf n => exact ⟨False.elim, nofun⟩
  | fin n m e =>
    rw [stands_fin, ← Num.real_fin]
    exact ⟨fun same => ⟨n, m, e, rfl, same⟩, fun ⟨_, _, _, same, value⟩ => same ▸ value⟩

theorem real_fin_eq_zero_iff {n : Bool} {m : Nat} {e : ℤ} : (Num.fin n m e).dy.real = 0 ↔ m = 0 := by
  rw [Dy.real_eq_zero_iff]
  cases n <;> simp [Num.dy]

theorem isZero_fin {n : Bool} {m : Nat} {e : ℤ} : (Num.fin n m e).isZero = true ↔ m = 0 := by
  cases m <;> simp [Num.isZero]

theorem isZero_iff_real {n : Bool} {m : Nat} {e : ℤ} : (Num.fin n m e).isZero = true ↔ (Num.fin n m e).dy.real = 0 := by
  rw [isZero_fin, real_fin_eq_zero_iff]

theorem real_fin_neg_iff {n : Bool} {m : Nat} {e : ℤ} : (Num.fin n m e).dy.real < 0 ↔ n = true ∧ m ≠ 0 := by
  rw [Num.real_fin]
  obtain rfl | pos := Nat.eq_zero_or_pos m
  · simp
  · rw [signOf_mul_neg_iff _ (mul_pos (Nat.cast_pos.mpr pos) (two_zpow_pos e)), and_iff_left pos.ne']

theorem real_fin_pos_iff {n : Bool} {m : Nat} {e : ℤ} : 0 < (Num.fin n m e).dy.real ↔ n = false ∧ m ≠ 0 := by
  rw [Num.real_fin]
  obtain rfl | pos := Nat.eq_zero_or_pos m
  · simp
  · rw [signOf_mul_pos_iff _ (mul_pos (Nat.cast_pos.mpr pos) (two_zpow_pos e)), and_iff_left pos.ne']

theorem abs_real_fin (n : Bool) (m : Nat) (e : ℤ) : |(Num.fin n m e).dy.real| = m * 2 ^ e := by
  rw [Num.real_fin, abs_signOf_mul_of_nonneg _ (by positivity)]

end Sys2Proof.Machine
end

section
/-! SUPPORT. The floating-point operations (R97, R98, R103, R104): sums, products, fused sums, quotients and square roots of finite numbers
are the exact values rounded once; what infinities and zeros give. -/

namespace Sys2Proof.Machine

/-! ### Sums -/

/-- The sign of an exact zero sum of finite numbers (R104). -/
theorem zeroSumSign_fin {rm : Rm} {n n' : Bool} {m m' : Nat} {e e' : ℤ}
    (zero : (Num.fin n m e).dy.real + (Num.fin n' m' e').dy.real = 0) :
    zeroSumSign rm (.fin n m e) (.fin n' m' e') = if (Num.fin n m e).isZero ∧ n = n' then n else rm == .rdn := by
  have both : (Num.fin n m e).isZero = true ↔ (Num.fin n' m' e').isZero = true := by
    rw [isZero_iff_real, isZero_iff_real]
    constructor <;> intro h <;> linarith
  have same : (Num.fin n m e).isZero = (Num.fin n' m' e').isZero := Bool.eq_iff_iff.mpr both
  simp [zeroSumSign, Num.neg, ← same]

theorem Fmt.sum_fin (F : Fmt) (rm : Rm) (n n' : Bool) (m m' : Nat) (e e' : ℤ) :
    F.sum rm (.fin n m e) (.fin n' m' e') =
      F.roundDy rm ((Num.fin n m e).dy.add (Num.fin n' m' e').dy) (zeroSumSign rm (.fin n m e) (.fin n' m' e')) := rfl

/-- A sum of finite numbers is the exact sum rounded once (R97, R104). -/
theorem Fmt.sum_stands {F : Fmt} (h : 2 ≤ F.e) (rm : Rm) {a b : Num} {x y : ℝ} (ha : Claim.Stands x a) (hb : Claim.Stands y b) :
    (x + y ≠ 0 → Claim.Rounded F rm (x + y) (F.sum rm a b)) ∧
      (x + y = 0 → F.sum rm a b = (F.zero (if a.isZero ∧ a.neg = b.neg then a.neg else rm == .rdn), 0)) := by
  obtain ⟨n, m, e, rfl, rfl⟩ := stands_iff.mp ha
  obtain ⟨n', m', e', rfl, rfl⟩ := stands_iff.mp hb
  rw [← Dy.real_add, F.sum_fin]
  refine ⟨F.rounded_roundDy h rm _, fun zero => ?_⟩
  rw [F.roundDy_zero _ _ zero, zeroSumSign_fin (by rwa [← Dy.real_add])]
  rfl

theorem Fmt.add_of_not_nan (F : Fmt) (rm : Rm) {a b : Num} (ha : a.isNan = false) (hb : b.isNan = false) :
    F.add rm a b = F.sum rm a b := by
  simp [Fmt.add, Fmt.nanOf, ha, hb]

theorem isNan_of_stands {x : ℝ} {a : Num} (h : Claim.Stands x a) : a.isNan = false := by
  obtain ⟨n, m, e, rfl, -⟩ := stands_iff.mp h
  rfl

theorem isInf_of_stands {x : ℝ} {a : Num} (h : Claim.Stands x a) : a.isInf = false := by
  obtain ⟨n, m, e, rfl, -⟩ := stands_iff.mp h
  rfl

theorem isZero_of_stands {x : ℝ} {a : Num} (h : Claim.Stands x a) : a.isZero = true ↔ x = 0 := by
  obtain ⟨n, m, e, rfl, rfl⟩ := stands_iff.mp h
  exact isZero_iff_real

/-- Sums with an infinity (R103). -/
theorem Fmt.sum_inf (F : Fmt) (rm : Rm) (n : Bool) {b : Num} (hb : b.isInf = false) (hb' : b.isNan = false) :
    F.sum rm (.inf n) b = (F.inf n, 0) ∧ F.sum rm b (.inf n) = (F.inf n, 0) := by
  cases b with
  | nan s => cases hb'
  | inf k => cases hb
  | fin k m e => exact ⟨rfl, rfl⟩

/-! ### Products -/

/-- The exact product of finite numbers. -/
theorem stands_prod {a b : Num} {x y : ℝ} (ha : Claim.Stands x a) (hb : Claim.Stands y b) :
    ∃ p, a.prod b = some p ∧ Claim.Stands (x * y) p ∧ p.neg = (a.neg != b.neg) := by
  obtain ⟨n, m, e, rfl, rfl⟩ := stands_iff.mp ha
  obtain ⟨n', m', e', rfl, rfl⟩ := stands_iff.mp hb
  refine ⟨_, rfl, stands_fin.mpr ?_, rfl⟩
  have sign : signOf (n != n') = signOf n * signOf n' := by cases n <;> cases n' <;> norm_num [signOf]
  rw [Num.real_fin, Num.real_fin, Num.neg, Num.neg, sign, zpow_add₀ two_ne_zero]
  push_cast
  ring

/-- The product of an infinity and a number that is no NaN (R103). -/
theorem Num.prod_inf {a b : Num} (ha : a.isNan = false) (hb : b.isNan = false) (inf : (a.isInf || b.isInf) = true) :
    a.prod b = if a.isZero || b.isZero then none else some (.inf (a.neg != b.neg)) := by
  cases a with
  | nan s => cases ha
  | inf n =>
    cases b with
    | nan s => cases hb
    | inf k => rfl
    | fin k m' e' => rfl
  | fin n m e =>
    cases b with
    | nan s => cases hb
    | inf k => rfl
    | fin k m' e' => cases inf

/-- A product looks at the exact product of numbers that are no NaN. -/
theorem Fmt.mul_of_prod (F : Fmt) (rm : Rm) {a b : Num} (ha : a.isNan = false) (hb : b.isNan = false) :
    (a.prod b = none → F.mul rm a b = F.invalid) ∧ (∀ n, a.prod b = some (.inf n) → F.mul rm a b = (F.inf n, 0)) ∧
      ∀ n m e, a.prod b = some (.fin n m e) → F.mul rm a b = F.roundDy rm (Num.fin n m e).dy n := by
  have plain : F.nanOf [a, b] = none := by simp [Fmt.nanOf, ha, hb]
  refine ⟨fun prod => ?_, fun n prod => ?_, fun n m e prod => ?_⟩
  all_goals simp only [Fmt.mul, plain, prod, Num.neg]

/-- A product of finite numbers is the exact product rounded once. -/
theorem Fmt.mul_stands {F : Fmt} (h : 2 ≤ F.e) (rm : Rm) {a b : Num} {x y : ℝ} (ha : Claim.Stands x a) (hb : Claim.Stands y b) :
    (x * y ≠ 0 → Claim.Rounded F rm (x * y) (F.mul rm a b)) ∧
      (x * y = 0 → F.mul rm a b = (F.zero (a.neg != b.neg), 0)) := by
  obtain ⟨p, prod, stands, neg⟩ := stands_prod ha hb
  obtain ⟨n, m, e, rfl, value⟩ := stands_iff.mp stands
  rw [(F.mul_of_prod rm (isNan_of_stands ha) (isNan_of_stands hb)).2.2 n m e prod, value, ← neg]
  exact ⟨F.rounded_roundDy h rm _, F.roundDy_zero rm _⟩

/-- Products with an infinity (R103). -/
theorem Fmt.mul_inf (F : Fmt) (rm : Rm) {a b : Num} (ha : a.isNan = false) (hb : b.isNan = false) (inf : (a.isInf || b.isInf) = true) :
    F.mul rm a b = if a.isZero || b.isZero then F.invalid else (F.inf (a.neg != b.neg), 0) := by
  obtain ⟨invalid, infinite, -⟩ := F.mul_of_prod rm ha hb
  have prod := Num.prod_inf ha hb inf
  by_cases zero : (a.isZero || b.isZero) = true
  · rw [if_pos zero] at prod ⊢
    exact invalid prod
  · rw [if_neg zero] at prod ⊢
    exact infinite _ prod

/-! ### Fused sums -/

/-- A fused sum adds the exact product of numbers that are no NaN. -/
theorem Fmt.fma_of_prod (F : Fmt) (rm : Rm) {a b c : Num} (ha : a.isNan = false) (hb : b.isNan = false) :
    (a.prod b = none → F.fma rm a b c = F.invalid) ∧ ∀ p, a.prod b = some p → F.fma rm a b c = F.add rm p c := by
  have plain : ¬ (a.isNan || b.isNan) = true := by simp [ha, hb]
  exact ⟨fun prod => by rw [Fmt.fma, if_neg plain, prod], fun p prod => by rw [Fmt.fma, if_neg plain, prod]⟩

/-- A fused sum of finite numbers is rounded once. -/
theorem Fmt.fma_stands {F : Fmt} (h : 2 ≤ F.e) (rm : Rm) {a b c : Num} {x y z : ℝ} (ha : Claim.Stands x a) (hb : Claim.Stands y b)
    (hc : Claim.Stands z c) :
    (x * y + z ≠ 0 → Claim.Rounded F rm (x * y + z) (F.fma rm a b c)) ∧
      (x * y + z = 0 →
        F.fma rm a b c = (F.zero (if c.isZero ∧ (a.neg != b.neg) = c.neg then c.neg else rm == .rdn), 0)) := by
  obtain ⟨p, prod, stands, neg⟩ := stands_prod ha hb
  have summed : F.fma rm a b c = F.sum rm p c := by
    rw [(F.fma_of_prod rm (isNan_of_stands ha) (isNan_of_stands hb)).2 p prod]
    exact F.add_of_not_nan rm (isNan_of_stands stands) (isNan_of_stands hc)
  obtain ⟨rounded, zero⟩ := F.sum_stands h rm stands hc
  rw [summed, ← neg]
  refine ⟨rounded, fun sum => ?_⟩
  have both : p.isZero = true ↔ c.isZero = true := by
    rw [isZero_of_stands stands, isZero_of_stands hc]
    constructor <;> intro h <;> linarith
  rw [zero sum, if_congr (and_congr_left' both) rfl rfl]
  split
  · next same => rw [same.2]
  · rfl

/-- The sum of two products of finite numbers is rounded once. -/
theorem Fmt.dot2_stands {F : Fmt} (h : 2 ≤ F.e) (rm : Rm) {a b c d : Num} {w x y z : ℝ} (ha : Claim.Stands w a)
    (hb : Claim.Stands x b) (hc : Claim.Stands y c) (hd : Claim.Stands z d) :
    (w * x + y * z ≠ 0 → Claim.Rounded F rm (w * x + y * z) (F.dot2 rm a b c d)) ∧
      (w * x + y * z = 0 → F.dot2 rm a b c d = (F.zero (if (a.isZero || b.isZero) ∧ (a.neg != b.neg) = (c.neg != d.neg) then
        a.neg != b.neg else rm == .rdn), 0)) := by
  obtain ⟨p, prod, stands, neg⟩ := stands_prod ha hb
  obtain ⟨q, prod', stands', neg'⟩ := stands_prod hc hd
  have summed : F.dot2 rm a b c d = F.sum rm p q := by
    simp [Fmt.dot2, isNan_of_stands ha, isNan_of_stands hb, isNan_of_stands hc, isNan_of_stands hd, prod, prod']
  obtain ⟨rounded, zero⟩ := F.sum_stands h rm stands stands'
  have isZero : p.isZero = true ↔ (a.isZero || b.isZero) = true := by
    rw [isZero_of_stands stands, Bool.or_eq_true, isZero_of_stands ha, isZero_of_stands hb, mul_eq_zero]
  rw [summed, ← neg, ← neg']
  exact ⟨rounded, fun sum => by rw [zero sum, if_congr (and_congr_left' isZero) rfl rfl]⟩

/-! ### Quotients -/

/-- The quotient of two magnitudes with a last bit that tells it inexact. -/
theorem sticky_quotient (f : Nat) {m m' : Nat} (hm : m ≠ 0) (hm' : m' ≠ 0) (e e' : ℤ) :
    (quotient (f + 5) m e m' e').1 ≠ 0 ∧ Sticky ((m * 2 ^ e : ℝ) / (m' * 2 ^ e')) (quotient (f + 5) m e m' e').1
      (quotient (f + 5) m e m' e').2 (expOf (quotient (f + 5) m e m' e').1 (quotient (f + 5) m e m' e').2 - f) := by
  unfold quotient
  dsimp only
  generalize hk : f + 5 + Nat.log2 m' - Nat.log2 m = k
  have large : 2 ^ (f + 4) ≤ m * 2 ^ k / m' := by
    rw [Nat.le_div_iff_mul_le (by omega)]
    calc 2 ^ (f + 4) * m' ≤ 2 ^ (f + 4) * 2 ^ (Nat.log2 m' + 1) := Nat.mul_le_mul_left _ Nat.lt_log2_self.le
      _ = 2 ^ (f + 5 + Nat.log2 m') := by rw [← pow_add]; congr 1; ring
      _ ≤ 2 ^ (Nat.log2 m + k) := Nat.pow_le_pow_right two_pos (by omega)
      _ = 2 ^ Nat.log2 m * 2 ^ k := pow_add _ _ _
      _ ≤ m * 2 ^ k := Nat.mul_le_mul_right _ (Nat.log2_self_le hm)
  have big : 0 < 2 ^ (f + 4) := by positivity
  have nonzero : 2 * (m * 2 ^ k / m') + (if m * 2 ^ k % m' = 0 then 0 else 1) ≠ 0 := by omega
  refine ⟨nonzero, ?_⟩
  have divides : ((m * 2 ^ k / m' : ℕ) : ℝ) * m' + ((m * 2 ^ k % m' : ℕ) : ℝ) = m * 2 ^ k := by
    exact_mod_cast Nat.div_add_mod' (m * 2 ^ k) m'
  have small : m * 2 ^ k % m' < m' := Nat.mod_lt _ (by omega)
  have pos : (0 : ℝ) < m' := by exact_mod_cast Nat.pos_of_ne_zero hm'
  have scaled : (m * 2 ^ e : ℝ) / (m' * 2 ^ e') = 2 * (m * 2 ^ k / m') * 2 ^ (e - e' - k - 1) := by
    rw [zpow_sub₀ two_ne_zero, zpow_sub₀ two_ne_zero, zpow_sub₀ two_ne_zero, zpow_natCast, zpow_one]
    field_simp
  generalize m * 2 ^ k / m' = q at *
  generalize hr : m * 2 ^ k % m' = r at *
  have ratio : (m * 2 ^ k : ℝ) / m' = q + r / m' := by
    rw [← divides]
    field_simp
  rw [scaled, ratio]
  have unit := two_zpow_pos (e - e' - k - 1)
  by_cases exact_ : r = 0
  · rw [if_pos exact_]
    left
    rw [exact_]
    push_cast
    ring
  · rw [if_neg exact_] at nonzero ⊢
    have positive : (0 : ℝ) < r / m' := div_pos (by exact_mod_cast Nat.pos_of_ne_zero exact_) pos
    have below : (r : ℝ) / m' < 1 := (div_lt_one pos).mpr (by exact_mod_cast small)
    refine .inr ⟨by omega, ?_, ?_, ?_⟩
    · have : f + 5 ≤ Nat.log2 (2 * q + 1) := (Nat.le_log2 nonzero).mpr (by rw [pow_succ]; omega)
      rw [expOf]
      omega
    · refine mul_lt_mul_of_pos_right ?_ unit
      push_cast
      linarith
    · refine mul_lt_mul_of_pos_right ?_ unit
      push_cast
      linarith

theorem Fmt.div_fin (F : Fmt) (rm : Rm) {n n' : Bool} {m m' : Nat} {e e' : ℤ} :
    F.div rm (.fin n m e) (.fin n' m' e') =
      if m' = 0 then (if m = 0 then F.invalid else (F.inf (n != n'), dzF))
      else if m = 0 then (F.zero (n != n'), 0)
      else F.round rm (n != n') (quotient (F.p + 4) m e m' e').1 (quotient (F.p + 4) m e m' e').2 := rfl

/-- A quotient of finite numbers is the exact quotient rounded once; a zero divides as R103 says. -/
theorem Fmt.div_stands {F : Fmt} (h : 2 ≤ F.e) (rm : Rm) {a b : Num} {x y : ℝ} (ha : Claim.Stands x a) (hb : Claim.Stands y b) :
    (x ≠ 0 → y ≠ 0 → Claim.Rounded F rm (x / y) (F.div rm a b)) ∧
      (x = 0 → y ≠ 0 → F.div rm a b = (F.zero (a.neg != b.neg), 0)) ∧
      (x ≠ 0 → y = 0 → F.div rm a b = (F.inf (a.neg != b.neg), dzF)) ∧ (x = 0 → y = 0 → F.div rm a b = (F.canon, nvF)) := by
  obtain ⟨n, m, e, rfl, rfl⟩ := stands_iff.mp ha
  obtain ⟨n', m', e', rfl, rfl⟩ := stands_iff.mp hb
  simp only [ne_eq, real_fin_eq_zero_iff, F.div_fin]
  refine ⟨fun hm hm' => ?_, fun hm hm' => ?_, fun hm hm' => ?_, fun hm hm' => ?_⟩
  · obtain ⟨nonzero, tells⟩ := sticky_quotient F.f hm hm' e e'
    have sign : signOf n * (m * 2 ^ e) / (signOf n' * (m' * 2 ^ e')) = signOf (n != n') * ((m * 2 ^ e : ℝ) / (m' * 2 ^ e')) := by
      cases n <;> cases n' <;> simp [signOf, neg_div, div_neg]
    rw [if_neg hm', if_neg hm, Num.real_fin, Num.real_fin, sign]
    exact F.rounded_of_sticky h rm _ nonzero tells
  · rw [if_neg hm', if_pos hm]
    rfl
  · rw [if_pos hm', if_neg hm]
    rfl
  · rw [if_pos hm', if_pos hm]
    rfl

/-! ### Square roots -/

/-- The search keeps r × r ≤ n < (r + 2^b) × (r + 2^b). -/
theorem isqrtFrom_spec (n b r : Nat) (low : r * r ≤ n) (high : n < (r + 2 ^ b) * (r + 2 ^ b)) :
    isqrtFrom n b r * isqrtFrom n b r ≤ n ∧ n < (isqrtFrom n b r + 1) * (isqrtFrom n b r + 1) := by
  induction b generalizing r with
  | zero => exact ⟨low, high⟩
  | succ b ih =>
    rw [isqrtFrom]
    split
    · next le =>
      refine ih _ le ?_
      rwa [add_assoc, ← two_mul, ← pow_succ']
    · next gt => exact ih _ low (not_le.mp gt)

theorem isqrt_spec (n : Nat) : isqrt n * isqrt n ≤ n ∧ n < (isqrt n + 1) * (isqrt n + 1) := by
  refine isqrtFrom_spec n _ 0 (Nat.zero_le _) ?_
  rw [zero_add, ← pow_add]
  exact Nat.lt_log2_self.trans_le (Nat.pow_le_pow_right two_pos (by omega))

/-- The square root of a magnitude with a last bit that tells it inexact. -/
theorem sticky_root (f : Nat) {m : Nat} (hm : m ≠ 0) (e : ℤ) :
    (root (f + 5) m e).1 ≠ 0 ∧ Sticky (Real.sqrt (m * 2 ^ e)) (root (f + 5) m e).1 (root (f + 5) m e).2
      (expOf (root (f + 5) m e).1 (root (f + 5) m e).2 - f) := by
  unfold root
  dsimp only
  generalize hk : 2 * (f + 5) + (if e % 2 = 0 then 0 else 1) = k
  have parity : ∃ j : ℤ, e - k = 2 * j ∧ (e - k) / 2 - 1 = j - 1 := by
    refine ⟨(e - k) / 2, ?_, rfl⟩
    split at hk <;> omega
  obtain ⟨j, hj, place⟩ := parity
  obtain ⟨low, high⟩ := isqrt_spec (m * 2 ^ k)
  have large : 2 ^ (f + 5) ≤ isqrt (m * 2 ^ k) := by
    by_contra less
    have le : isqrt (m * 2 ^ k) + 1 ≤ 2 ^ (f + 5) := by omega
    have : m * 2 ^ k < 2 ^ (f + 5) * 2 ^ (f + 5) := high.trans_le (Nat.mul_le_mul le le)
    have : 2 ^ (f + 5) * 2 ^ (f + 5) ≤ 2 ^ k := by
      rw [← pow_add]
      exact Nat.pow_le_pow_right two_pos (by omega)
    have : 2 ^ k ≤ m * 2 ^ k := Nat.le_mul_of_pos_left _ (Nat.pos_of_ne_zero hm)
    omega
  have big : 0 < 2 ^ (f + 5) := by positivity
  have scaled : Real.sqrt (m * 2 ^ e) = 2 * Real.sqrt ((m * 2 ^ k : ℕ) : ℝ) * 2 ^ (j - 1) := by
    have square : (m * 2 ^ e : ℝ) = (m * 2 ^ k : ℕ) * ((2 : ℝ) ^ j) ^ 2 := by
      have : e = k + (j + j) := by omega
      rw [this, zpow_add₀ two_ne_zero, zpow_add₀ two_ne_zero, zpow_natCast]
      push_cast
      ring
    rw [square, Real.sqrt_mul (by positivity), Real.sqrt_sq (two_zpow_pos j).le, zpow_sub_one₀ two_ne_zero]
    ring
  rw [place, scaled]
  generalize isqrt (m * 2 ^ k) = r at *
  generalize m * 2 ^ k = x at *
  have unit := two_zpow_pos (j - 1)
  by_cases exact_ : r * r = x
  · rw [if_pos exact_]
    refine ⟨by omega, .inl ?_⟩
    rw [← exact_, Nat.cast_mul, Real.sqrt_mul_self (by positivity)]
    push_cast
    ring
  · rw [if_neg exact_]
    have nonzero : 2 * r + 1 ≠ 0 := by omega
    have above : (r : ℝ) < Real.sqrt x := by
      rw [Real.lt_sqrt (by positivity), sq]
      exact_mod_cast lt_of_le_of_ne low exact_
    have under : Real.sqrt x < r + 1 := by
      rw [Real.sqrt_lt' (by positivity), sq]
      exact_mod_cast high
    refine ⟨nonzero, .inr ⟨by omega, ?_, ?_, ?_⟩⟩
    · have : f + 6 ≤ Nat.log2 (2 * r + 1) := (Nat.le_log2 nonzero).mpr (by rw [pow_succ]; omega)
      rw [expOf]
      omega
    · refine mul_lt_mul_of_pos_right ?_ unit
      push_cast
      linarith
    · refine mul_lt_mul_of_pos_right ?_ unit
      push_cast
      linarith

/-- The square root of a finite number: of a positive one the exact root rounded once, of a zero that zero, of a negative one invalid. -/
theorem Fmt.sqrt_stands {F : Fmt} (h : 2 ≤ F.e) (rm : Rm) {a : Num} {x : ℝ} (ha : Claim.Stands x a) :
    (0 < x → Claim.Rounded F rm (Real.sqrt x) (F.sqrt rm a)) ∧
      (x = 0 → F.sqrt rm a = (F.zero a.neg, 0)) ∧ (x < 0 → F.sqrt rm a = (F.canon, nvF)) := by
  obtain ⟨n, m, e, rfl, rfl⟩ := stands_iff.mp ha
  rw [real_fin_pos_iff, real_fin_eq_zero_iff, real_fin_neg_iff]
  refine ⟨?_, ?_, ?_⟩
  · rintro ⟨rfl, hm⟩
    obtain ⟨nonzero, tells⟩ := sticky_root F.f hm e
    have rooted : F.sqrt rm (.fin false m e) = F.round rm false (root (F.f + 5) m e).1 (root (F.f + 5) m e).2 := by
      cases m with
      | zero => exact absurd rfl hm
      | succ m => rfl
    have positive : (Num.fin false m e).dy.real = m * 2 ^ e := by simp [Num.real_fin, signOf]
    have := F.rounded_of_sticky h rm false nonzero tells
    rwa [signOf, if_neg Bool.false_ne_true, one_mul, ← rooted, ← positive] at this
  · rintro rfl
    rfl
  · rintro ⟨rfl, hm⟩
    cases m with
    | zero => exact absurd rfl hm
    | succ m => rfl

end Sys2Proof.Machine
end

section
/-! SUPPORT. What patterns stand for, what is flushed (Table 4.2, R99), the orders of values (R145), and rounding as a whole: every result
of a floating-point operation is the exact value rounded once. -/

namespace Sys2Proof.Machine

/-! ### The formats -/

theorem Fmt.wide_of_mem {F : Fmt} (h : F ∈ [Fmt.f64, Fmt.f32, Fmt.f16, Fmt.bf16, Fmt.h8]) : 2 ≤ F.e ∧ 1 ≤ F.f := by
  simp only [List.mem_cons, List.not_mem_nil, or_false] at h
  obtain rfl | rfl | rfl | rfl | rfl := h <;> decide

section
variable {F : Fmt} (h : 2 ≤ F.e) (n : Bool) {ex fr : Nat} (hex : ex < 2 ^ F.e) (hfr : fr < 2 ^ F.f)
include hex hfr

include h in
theorem Fmt.value_subnormal (isZero : ex = 0) : F.value (F.sign n + ex * 2 ^ F.f + fr) = .fin n fr (F.emin - F.f) := by
  have := F.two_le_top h
  rw [F.value_pattern n hex hfr, if_neg (by omega), if_pos isZero]

theorem Fmt.value_normal (pos : 0 < ex) (below : ex < F.top) :
    F.value (F.sign n + ex * 2 ^ F.f + fr) = .fin n (fr + 2 ^ F.f) ((ex : Int) - F.bias - F.f) := by
  rw [F.value_pattern n hex hfr, if_neg (by omega), if_neg (by omega)]

theorem Fmt.value_nan (top : ex = F.top) (wide : 1 ≤ F.f) (nonzero : fr ≠ 0) :
    F.value (F.sign n + ex * 2 ^ F.f + fr) = .nan (decide (fr < 2 ^ (F.f - 1))) := by
  have two : 2 ^ F.f = 2 ^ (F.f - 1) * 2 := by rw [← pow_succ, Nat.sub_add_cancel wide]
  have pos : 0 < 2 ^ (F.f - 1) := by positivity
  have bit : fr / 2 ^ (F.f - 1) < 2 := (Nat.div_lt_iff_lt_mul pos).mpr (by omega)
  have quiet : (fr / 2 ^ (F.f - 1) % 2 == 0) = decide (fr < 2 ^ (F.f - 1)) := by
    rw [Nat.mod_eq_of_lt bit, Bool.eq_iff_iff, beq_iff_eq, decide_eq_true_iff, Nat.div_eq_zero_iff, or_iff_right pos.ne']
  rw [F.value_pattern n hex hfr, if_pos top, if_neg nonzero, quiet]

include h in
/-- The subnormal patterns. -/
theorem Fmt.isSub_value : F.isSub (F.value (F.sign n + ex * 2 ^ F.f + fr)) = decide (ex = 0 ∧ fr ≠ 0) := by
  obtain low | pos := Nat.eq_zero_or_pos ex
  · rw [Fmt.value_subnormal h n hex hfr low, Fmt.isSub]
    obtain none | some := Nat.eq_zero_or_pos fr
    · simp [none]
    · have tiny : expOf fr (F.emin - F.f) < F.emin := by
        have : Nat.log2 fr < F.f := (Nat.log2_lt some.ne').mpr hfr
        rw [expOf]
        omega
      simp [low, some.ne', below, tiny]
  · have notSub : ¬ (ex = 0 ∧ fr ≠ 0) := fun both => pos.ne' both.1
    rw [decide_eq_false notSub]
    obtain below' | top := Nat.lt_or_ge ex F.top
    · rw [Fmt.value_normal n hex hfr pos below', Fmt.isSub]
      have nonzero : fr + 2 ^ F.f ≠ 0 := by positivity
      have log : F.f ≤ Nat.log2 (fr + 2 ^ F.f) := (Nat.le_log2 nonzero).mpr (Nat.le_add_left _ _)
      have high : ¬ expOf (fr + 2 ^ F.f) ((ex : Int) - F.bias - F.f) < F.emin := by
        rw [expOf, Fmt.emin]
        omega
      simp [below, high]
    · have same : ex = F.top := by
        have := F.top_lt
        rw [Fmt.top] at top ⊢
        omega
      rw [F.value_pattern n hex hfr, if_pos same]
      split <;> rfl

end

/-- What stands for a number of an exponent below all ones (Table 4.2). -/
theorem stands_pattern (n : Bool) (m f : Nat) (k : ℤ) : Claim.Stands (signOf n * 2 ^ k * (m / 2 ^ f)) (.fin n m (k - f)) := by
  rw [stands_fin, zpow_sub₀ two_ne_zero, zpow_natCast]
  ring

/-- Patterns, what they stand for and what is flushed (Table 4.2, R99). -/
theorem Fmt.patterns {F : Fmt} (h : 2 ≤ F.e) (wide : 1 ≤ F.f) (n : Bool) {ex fr : Nat} (hex : ex < 2 ^ F.e) (hfr : fr < 2 ^ F.f) :
    let b := (if n then 2 ^ (F.e + F.f) else 0) + ex * 2 ^ F.f + fr
    let z := if n then 2 ^ (F.e + F.f) else 0
    let sgn : ℝ := if n then -1 else 1
    let x := F.value b
    (ex = 0 → Claim.Stands (sgn * 2 ^ (1 - (F.bias : ℤ)) * (fr / 2 ^ F.f)) x ∧ x.neg = n ∧ (x.isZero = true ↔ fr = 0)) ∧
    (0 < ex → ex < 2 ^ F.e - 1 → Claim.Stands (sgn * 2 ^ ((ex : ℤ) - F.bias) * (1 + fr / 2 ^ F.f)) x ∧ x.neg = n) ∧
    (ex = 2 ^ F.e - 1 → fr = 0 → x = .inf n) ∧ (ex = 2 ^ F.e - 1 → fr ≠ 0 → x = .nan (decide (fr < 2 ^ (F.f - 1)))) ∧
    (ex = 0 ∧ fr ≠ 0 → ∀ g : Flags,
      (Claim.Stands 0 (F.operand true b) ∧ (F.operand true b).neg = n ∧ (F.operand true b).isZero = true) ∧
        F.flushOut true (b, g) = (z, g ||| ufF ||| nxF) ∧ F.flushedPattern true b = z) ∧
    ∀ (f : Bool) (g : Flags), f = false ∨ ¬ (ex = 0 ∧ fr ≠ 0) →
      F.operand f b = x ∧ F.flushOut f (b, g) = (b, g) ∧ F.flushedPattern f b = b := by
  intro b z sgn x
  have sub : F.isSub x = decide (ex = 0 ∧ fr ≠ 0) := Fmt.isSub_value h n hex hfr
  refine ⟨fun isZero => ?_, fun pos below => ?_, fun top none => ?_, fun top some => ?_, fun isSub g => ?_, fun f g kept => ?_⟩
  · have value : x = .fin n fr (F.emin - F.f) := Fmt.value_subnormal h n hex hfr isZero
    rw [value]
    exact ⟨stands_pattern n fr F.f F.emin, rfl, isZero_fin⟩
  · have value : x = .fin n (fr + 2 ^ F.f) ((ex : Int) - F.bias - F.f) := Fmt.value_normal n hex hfr pos below
    have sum : (1 + fr / 2 ^ F.f : ℝ) = ((fr + 2 ^ F.f : ℕ) : ℝ) / 2 ^ F.f := by
      push_cast
      field_simp
      ring
    rw [value, sum]
    exact ⟨stands_pattern n _ F.f _, rfl⟩
  · change F.value (F.sign n + ex * 2 ^ F.f + fr) = _
    rw [F.value_pattern n hex hfr, if_pos (show ex = F.top from top), if_pos none]
  · exact Fmt.value_nan n hex hfr top wide some
  · have value : x = .fin n fr (F.emin - F.f) := Fmt.value_subnormal h n hex hfr isSub.1
    have flushed : F.isSub x = true := sub.trans (decide_eq_true isSub)
    have operand : F.operand true b = .fin n 0 0 := by
      rw [Fmt.operand, Fmt.flushIn, if_pos (by simpa using flushed)]
      exact congrArg (Num.fin · 0 0) (congrArg Num.neg value)
    have negative : (F.value b).neg = n := congrArg Num.neg value
    rw [operand]
    refine ⟨⟨by simp [Claim.Stands], rfl, rfl⟩, ?_, ?_⟩
    · rw [Fmt.flushOut, if_pos (by simpa using flushed), negative]
      rfl
    · rw [Fmt.flushedPattern, if_pos (by simpa using flushed), negative]
      rfl
  · have not : ¬ (f && F.isSub (F.value b)) = true := by
      rw [show F.isSub (F.value b) = _ from sub, Bool.and_eq_true, decide_eq_true_iff]
      rintro ⟨rfl, isSub⟩
      exact kept.elim nofun (· isSub)
    exact ⟨if_neg not, if_neg not, if_neg not⟩

/-! ### Orders -/

theorem Num.lt_fin {n n' : Bool} {m m' : Nat} {e e' : ℤ} :
    (Num.fin n m e).lt (.fin n' m' e') = true ↔ (Num.fin n m e).dy.real < (Num.fin n' m' e').dy.real := Dy.real_lt_iff _ _

theorem Num.eq_iff (a b : Num) : a.eq b = true ↔ a.lt b = false ∧ b.lt a = false := by
  simp [Num.eq]

/-- Finite numbers compare as the reals that they stand for; the infinities are the ends of their order. -/
theorem order_stands {a b : Num} {x y : ℝ} (ha : Claim.Stands x a) (hb : Claim.Stands y b) :
    (a.lt b = true ↔ x < y) ∧ (a.eq b = true ↔ x = y) ∧
      (a.ltSigned b = true ↔ x < y ∨ (x = 0 ∧ y = 0 ∧ a.neg = true ∧ b.neg = false)) ∧
      ∀ n, (a.lt (.inf n) = !n) ∧ ((Machine.Num.inf n).lt a = n) ∧ a.eq (.inf n) = false ∧ (Machine.Num.inf n).eq a = false ∧
        (a.ltSigned (.inf n) = !n) ∧ (Machine.Num.inf n).ltSigned a = n := by
  have zero := isZero_of_stands ha
  have zero' := isZero_of_stands hb
  obtain ⟨n, m, e, rfl, rfl⟩ := stands_iff.mp ha
  obtain ⟨n', m', e', rfl, rfl⟩ := stands_iff.mp hb
  refine ⟨Num.lt_fin, ?_, ?_, fun k => ?_⟩
  · rw [Num.eq_iff, Bool.eq_false_iff, Bool.eq_false_iff, ne_eq, ne_eq, Num.lt_fin, Num.lt_fin, not_lt, not_lt, and_comm]
    exact le_antisymm_iff.symm
  · rw [Num.ltSigned, Bool.or_eq_true, Num.lt_fin, Bool.and_eq_true, Bool.and_eq_true, Bool.and_eq_true, zero, zero', Bool.not_eq_true',
      and_assoc, and_assoc]
  · cases k <;> cases m <;> exact ⟨rfl, rfl, rfl, rfl, rfl, rfl⟩

/-! ### NaN operands and infinities (R103) -/

/-- A multiplication of zero and an infinity. -/
def ZeroTimesInf (a b : Num) : Prop := (a.isInf = true ∧ b.isZero = true) ∨ (a.isZero = true ∧ b.isInf = true)

/-- Two numbers have no product exactly where one is zero and the other an infinity. -/
theorem prod_eq_none_iff {a b : Num} (ha : a.isNan = false) (hb : b.isNan = false) : a.prod b = none ↔ ZeroTimesInf a b := by
  cases a with
  | nan s => cases ha
  | inf n =>
    cases b with
    | nan s => cases hb
    | inf k => simp [Num.prod, ZeroTimesInf, Num.isZero]
    | fin k m e => cases m <;> simp [Num.prod, ZeroTimesInf, Num.isZero, Num.isInf]
  | fin n m e =>
    cases b with
    | nan s => cases hb
    | inf k => cases m <;> simp [Num.prod, ZeroTimesInf, Num.isZero, Num.isInf]
    | fin k m' e' => simp [Num.prod, ZeroTimesInf, Num.isInf]

theorem ZeroTimesInf.not_nan {a b : Num} (h : ZeroTimesInf a b) : a.isNan = false ∧ b.isNan = false := by
  cases a <;> cases b <;> simp_all [ZeroTimesInf, Num.isInf, Num.isZero, Num.isNan]

theorem Num.isNan_of_isSnan {a : Num} (h : a.isSnan = true) : a.isNan = true := by
  cases a with
  | nan s => rfl
  | inf n => cases h
  | fin n m e => cases h

theorem Num.isSnan_of_not_nan {a : Num} (h : a.isNan = false) : a.isSnan = false :=
  Bool.eq_false_iff.mpr fun s => by rw [Num.isNan_of_isSnan s] at h; cases h

theorem Num.fin_of_plain {a : Num} (nan : a.isNan = false) (inf : a.isInf = false) : ∃ n m e, a = .fin n m e := by
  cases a with
  | nan s => cases nan
  | inf n => cases inf
  | fin n m e => exact ⟨n, m, e, rfl⟩

theorem Num.prod_not_nan {a b p : Num} (h : a.prod b = some p) : p.isNan = false := by
  cases a <;> cases b <;> simp only [Num.prod] at h <;> (try split at h) <;> cases h <;> rfl

/-- A NaN operand of two. -/
theorem Fmt.nanOf_pair (F : Fmt) {a b : Num} (h : (a.isNan || b.isNan) = true) :
    F.nanOf [a, b] = some (F.canon, if a.isSnan || b.isSnan then nvF else 0) := by
  simp [Fmt.nanOf, h]

/-- A NaN operand gives the canonical NaN, and NV where one is signalling (R103). -/
theorem Fmt.nan_results (F : Fmt) (rm : Rm) {a b : Num} (h : (a.isNan || b.isNan) = true) :
    let r : Nat × Flags := (F.canon, if a.isSnan || b.isSnan then nvF else 0)
    F.add rm a b = r ∧ F.sub rm a b = r ∧ F.mul rm a b = r ∧ F.div rm a b = r := by
  have pair := F.nanOf_pair h
  have negated : F.nanOf [a, b.negate] = some (F.canon, if a.isSnan || b.isSnan then nvF else 0) := by
    cases b <;> exact pair
  simp only [Fmt.sub, Fmt.add, Fmt.mul, Fmt.div, pair, negated, and_self]

/-! ### The special cases of each operation (R103; log 18) -/

/-- What an infinity and a finite number give. -/
theorem Fmt.inf_results (F : Fmt) (rm : Rm) (n : Bool) {a b : Num} {x y : ℝ} (ha : Claim.Stands x a) (hb : Claim.Stands y b) :
    F.add rm (.inf n) b = (F.inf n, 0) ∧ F.add rm b (.inf n) = (F.inf n, 0) ∧
      (y = 0 → F.mul rm (.inf n) b = (F.canon, nvF) ∧ F.mul rm b (.inf n) = (F.canon, nvF)) ∧
      (y ≠ 0 → F.mul rm (.inf n) b = (F.inf (n != b.neg), 0) ∧ F.mul rm b (.inf n) = (F.inf (b.neg != n), 0)) ∧
      F.div rm (.inf n) b = (F.inf (n != b.neg), 0) ∧ F.div rm b (.inf n) = (F.zero (b.neg != n), 0) ∧
      F.fma rm a b (.inf n) = (F.inf n, 0) := by
  have notNan := isNan_of_stands hb
  have isZero := isZero_of_stands hb
  have left := F.mul_inf rm (a := .inf n) rfl notNan rfl
  have right := F.mul_inf rm (b := .inf n) notNan rfl (by rw [isInf_of_stands hb]; rfl)
  have notZero : (Num.inf n).isZero = false := rfl
  rw [notZero, Bool.false_or] at left
  rw [notZero, Bool.or_false] at right
  obtain ⟨p, prod, stands, -⟩ := stands_prod ha hb
  refine ⟨?_, ?_, fun zero => ?_, fun nonzero => ?_, ?_, ?_, ?_⟩
  · rw [F.add_of_not_nan rm rfl notNan, (F.sum_inf rm n (isInf_of_stands hb) notNan).1]
  · rw [F.add_of_not_nan rm notNan rfl, (F.sum_inf rm n (isInf_of_stands hb) notNan).2]
  · exact ⟨left.trans (if_pos (isZero.mpr zero)), right.trans (if_pos (isZero.mpr zero))⟩
  · exact ⟨left.trans (if_neg (isZero.not.mpr nonzero)), right.trans (if_neg (isZero.not.mpr nonzero))⟩
  · obtain ⟨k, m, e, rfl, -⟩ := stands_iff.mp hb
    rfl
  · obtain ⟨k, m, e, rfl, -⟩ := stands_iff.mp hb
    rfl
  · rw [(F.fma_of_prod rm (isNan_of_stands ha) notNan).2 p prod]
    refine (F.add_of_not_nan rm (isNan_of_stands stands) rfl).trans ?_
    exact (F.sum_inf rm n (isInf_of_stands stands) (isNan_of_stands stands)).2

/-- Two infinities. -/
theorem Fmt.inf_inf_results (F : Fmt) (rm : Rm) (n k : Bool) :
    F.add rm (.inf n) (.inf k) = (if n = k then (F.inf n, 0) else (F.canon, nvF)) ∧
      F.mul rm (.inf n) (.inf k) = (F.inf (n != k), 0) ∧ F.div rm (.inf n) (.inf k) = (F.canon, nvF) := ⟨rfl, rfl, rfl⟩

/-- The sum with an infinite term, where nothing is a NaN. -/
theorem Fmt.sum_inf_left (F : Fmt) (rm : Rm) (p : Bool) {c : Num} (h : c.isNan = false) :
    F.sum rm (.inf p) c = if c.isInf = true ∧ c.neg ≠ p then (F.canon, nvF) else (F.inf p, 0) := by
  cases c with
  | nan s => cases h
  | inf n => cases n <;> cases p <;> rfl
  | fin n m e => rw [if_neg (by simp [Num.isInf])]; rfl

/-- The special cases of a fused sum; 0 × ∞ is invalid whatever is added (log 18). -/
theorem Fmt.fma_special (F : Fmt) (rm : Rm) (a b c : Num) :
    (ZeroTimesInf a b → F.fma rm a b c = (F.canon, nvF)) ∧
      (¬ ZeroTimesInf a b → (a.isNan || b.isNan || c.isNan) = true →
        F.fma rm a b c = (F.canon, if a.isSnan || b.isSnan || c.isSnan then nvF else 0)) ∧
      (¬ ZeroTimesInf a b → (a.isNan || b.isNan || c.isNan) = false → (a.isInf || b.isInf) = true →
        F.fma rm a b c = if c.isInf = true ∧ c.neg ≠ (a.neg != b.neg) then (F.canon, nvF) else (F.inf (a.neg != b.neg), 0)) := by
  refine ⟨fun void => ?_, fun good nan => ?_, fun good notNan inf => ?_⟩
  · obtain ⟨ha, hb⟩ := void.not_nan
    exact (F.fma_of_prod rm ha hb).1 ((prod_eq_none_iff ha hb).mpr void)
  · by_cases factor : (a.isNan || b.isNan) = true
    · exact if_pos factor
    · obtain ⟨ha, hb⟩ : a.isNan = false ∧ b.isNan = false := by simpa using factor
      have hc : c.isNan = true := by simpa [ha, hb] using nan
      obtain ⟨p, prod⟩ := Option.ne_none_iff_exists'.mp ((prod_eq_none_iff ha hb).not.mpr good)
      rw [(F.fma_of_prod rm ha hb).2 p prod]
      have plain := Num.isSnan_of_not_nan (Num.prod_not_nan prod)
      refine ((F.nan_results rm (a := p) (b := c) (by simp [hc])).1).trans ?_
      rw [plain, Num.isSnan_of_not_nan ha, Num.isSnan_of_not_nan hb]
      rfl
  · obtain ⟨⟨ha, hb⟩, hc⟩ : (a.isNan = false ∧ b.isNan = false) ∧ c.isNan = false := by simpa using notNan
    have nonzero : (a.isZero || b.isZero) ≠ true := fun zero => by
      have none := Num.prod_inf ha hb inf
      rw [if_pos zero] at none
      exact good ((prod_eq_none_iff ha hb).mp none)
    rw [(F.fma_of_prod rm ha hb).2 _ ((Num.prod_inf ha hb inf).trans (if_neg nonzero))]
    exact (F.add_of_not_nan rm rfl hc).trans (F.sum_inf_left rm _ hc)

/-- A pair of factors spoils a sum of two products: none is a NaN, and they have no product. -/
theorem spoils_iff (a b : Num) : (!a.isNan && !b.isNan && (a.prod b).isNone) = true ↔ ZeroTimesInf a b := by
  rw [Bool.and_eq_true, Bool.and_eq_true, Bool.not_eq_true', Bool.not_eq_true', Option.isNone_iff_eq_none]
  exact ⟨fun ⟨⟨ha, hb⟩, absent⟩ => (prod_eq_none_iff ha hb).mp absent,
    fun void => ⟨void.not_nan, (prod_eq_none_iff void.not_nan.1 void.not_nan.2).mpr void⟩⟩

/-- The special cases of a sum of two products. -/
theorem Fmt.dot2_special (F : Fmt) (rm : Rm) (a b c d : Num) :
    let nan : Prop := (a.isNan || b.isNan || c.isNan || d.isNan) = true
    let p := a.neg != b.neg
    let q := c.neg != d.neg
    (nan ∨ ZeroTimesInf a b ∨ ZeroTimesInf c d → ((F.dot2 rm a b c d).1 = F.canon ∧
      ((a.isSnan || b.isSnan || c.isSnan || d.isSnan) = true ∨ ZeroTimesInf a b ∨ ZeroTimesInf c d → (F.dot2 rm a b c d).2 = nvF) ∧
      (¬ ((a.isSnan || b.isSnan || c.isSnan || d.isSnan) = true ∨ ZeroTimesInf a b ∨ ZeroTimesInf c d) →
        (F.dot2 rm a b c d).2 = 0))) ∧
    (¬ (nan ∨ ZeroTimesInf a b ∨ ZeroTimesInf c d) →
      ((a.isInf || b.isInf) = true → (c.isInf || d.isInf) = true →
        F.dot2 rm a b c d = if p = q then (F.inf p, 0) else (F.canon, nvF)) ∧
      ((a.isInf || b.isInf) = true → (c.isInf || d.isInf) = false → F.dot2 rm a b c d = (F.inf p, 0)) ∧
      ((a.isInf || b.isInf) = false → (c.isInf || d.isInf) = true → F.dot2 rm a b c d = (F.inf q, 0))) := by
  intro nan p q
  have test (x : Bool) : (x || (!a.isNan && !b.isNan && (a.prod b).isNone) || (!c.isNan && !d.isNan && (c.prod d).isNone)) = true ↔
      x = true ∨ ZeroTimesInf a b ∨ ZeroTimesInf c d := by
    rw [Bool.or_eq_true, Bool.or_eq_true, spoils_iff, spoils_iff, or_assoc]
  unfold Fmt.dot2
  dsimp only
  refine ⟨fun special => ?_, fun plain => ?_⟩
  · rw [if_pos ((test _).mpr special)]
    exact ⟨rfl, fun invalid => if_pos ((test _).mpr invalid), fun quiet => if_neg ((test _).not.mpr quiet)⟩
  · obtain ⟨notNan, left, right⟩ : ¬ nan ∧ ¬ ZeroTimesInf a b ∧ ¬ ZeroTimesInf c d := by simpa only [not_or] using plain
    obtain ⟨⟨⟨ha, hb⟩, hc⟩, hd⟩ : ((a.isNan = false ∧ b.isNan = false) ∧ c.isNan = false) ∧ d.isNan = false := by
      simpa [nan, and_assoc] using notNan
    rw [if_neg ((test _).not.mpr plain)]
    have infinite {x y : Num} (hx : x.isNan = false) (hy : y.isNan = false) (good : ¬ ZeroTimesInf x y)
        (inf : (x.isInf || y.isInf) = true) : x.prod y = some (.inf (x.neg != y.neg)) := by
      have prod := Num.prod_inf hx hy inf
      by_cases zero : (x.isZero || y.isZero) = true
      · rw [if_pos zero] at prod
        exact absurd ((prod_eq_none_iff hx hy).mp prod) good
      · rwa [if_neg zero] at prod
    have finite {x y : Num} (hx : x.isNan = false) (hy : y.isNan = false) (inf : (x.isInf || y.isInf) = false) :
        ∃ n m e, x.prod y = some (.fin n m e) := by
      obtain ⟨infX, infY⟩ := Bool.or_eq_false_iff.mp inf
      obtain ⟨n, m, e, rfl⟩ := Num.fin_of_plain hx infX
      obtain ⟨n', m', e', rfl⟩ := Num.fin_of_plain hy infY
      exact ⟨_, _, _, rfl⟩
    refine ⟨fun first second => ?_, fun first second => ?_, fun first second => ?_⟩
    · rw [infinite ha hb left first, infinite hc hd right second]
      rfl
    · obtain ⟨n, m, e, prod⟩ := finite hc hd second
      rw [infinite ha hb left first, prod]
      rfl
    · obtain ⟨n, m, e, prod⟩ := finite ha hb first
      rw [infinite hc hd right second, prod]
      rfl

/-- Settles O17: patterns and orders by `Fmt.patterns` and `order_stands`; every result is one rounding of a dyadic number, or of a
quotient or root that a last bit tells inexact, and `Fmt.rounded_of_sticky` says that this is the exact value rounded once. -/
theorem roundedOnce : Obligations.RoundedOnce := by
  refine ⟨⟨fun F mem n ex fr hex hfr => ?_, fun a b x y ha hb => order_stands ha hb, fun n k => ?_⟩, fun F mem rm => ?_⟩
  · obtain ⟨h, wide⟩ := Fmt.wide_of_mem mem
    exact Fmt.patterns h wide n hex hfr
  · cases n <;> cases k <;> exact ⟨rfl, rfl, rfl⟩
  · obtain ⟨h, -⟩ := Fmt.wide_of_mem mem
    refine ⟨fun n m e pos => ?_, fun a b c x y z ha hb hc => ?_, fun a b c d w x y z ha hb hc hd => F.dot2_stands h rm ha hb hc hd,
      F.inf_inf_results rm, ⟨rfl, rfl, fun s => ?_⟩, F.fma_special rm, F.dot2_special rm⟩
    · rw [mul_assoc]
      exact F.rounded_of_sticky h rm n pos.ne' (.inl rfl)
    · have sum := F.sum_stands h rm ha hb
      rw [← F.add_of_not_nan rm (isNan_of_stands ha) (isNan_of_stands hb)] at sum
      exact ⟨sum.1, sum.2, rfl, (F.mul_stands h rm ha hb).1, (F.mul_stands h rm ha hb).2, (F.fma_stands h rm ha hb hc).1,
        (F.fma_stands h rm ha hb hc).2, (F.div_stands h rm ha hb).1, (F.div_stands h rm ha hb).2.1, (F.div_stands h rm ha hb).2.2.1,
        (F.div_stands h rm ha hb).2.2.2, (F.sqrt_stands h rm ha).1, (F.sqrt_stands h rm ha).2.1, (F.sqrt_stands h rm ha).2.2,
        fun n => F.inf_results rm n ha hb⟩
    · cases s <;> rfl

end Sys2Proof.Machine
end

section
/-! SUPPORT. Scalar floating point (R121, R122): operands, results and compares of both formats as R121 writes them. -/

namespace Sys2Proof.Machine

/-- A 64-bit operand is the whole register. -/
theorem State.fpOperand_f64 (s : State) (f : Bool) (r : BitVec 6) :
    s.fpOperand true f r = Fmt.f64.operand f (s.readS r).toNat := by
  have small : (s.readS r).toNat % 2 ^ 64 = (s.readS r).toNat := Nat.mod_eq_of_lt (s.readS r).isLt
  exact congrArg (Fmt.f64.operand f) small

/-- Settles O16: each form is an issue of its operation on operands of its format; NaN operands by `Fmt.nan_results`. -/
theorem scalarFloat : Obligations.ScalarFloat := by
  refine ⟨fun u d a b f o => ?_, fun u d a b f o => ?_, fun F rm a b nan => F.nan_results rm nan, fun u p a b f w => ?_⟩
  · exact ⟨runs_of (fun _ => rfl) (fun _ => rfl), runs_of (fun _ => rfl) (fun _ => rfl), runs_of (fun _ => rfl) (fun _ => rfl),
      runs_of (fun _ => rfl) (fun _ => rfl), runs_of (fun _ => rfl) (fun _ => rfl), runs_of (fun _ => rfl) (fun _ => rfl)⟩
  · simp only [← State.fpOperand_f64]
    exact ⟨runs_of (fun _ => rfl) (fun _ => rfl), runs_of (fun _ => rfl) (fun _ => rfl), runs_of (fun _ => rfl) (fun _ => rfl),
      runs_of (fun _ => rfl) (fun _ => rfl), runs_of (fun _ => rfl) (fun _ => rfl), runs_of (fun _ => rfl) (fun _ => rfl)⟩
  · exact ⟨runs_of (fun _ => rfl) (fun _ => rfl), runs_of (fun _ => rfl) (fun _ => rfl), runs_of (fun _ => rfl) (fun _ => rfl),
      runs_of (fun _ => rfl) (fun _ => rfl)⟩

end Sys2Proof.Machine
end

section
/-! SUPPORT. Vector logic, moves and immediates (R105, R106, R149 to R154, R159, R160); roundings that lose nothing. -/

namespace Sys2Proof.Machine

/-! ### Exact roundings -/

/-- A multiple of the spacing is itself the multiple that a mode selects. -/
theorem rounds_eq_of_multiple {rm : Rm} {u x y : ℝ} (unit : 0 < u) (h : Claim.Rounds rm u x y) {k : ℤ} (hx : x = k * u) : y = x := by
  obtain ⟨j, hy, mode⟩ := h
  have gap : x - y = ((k - j : ℤ) : ℝ) * u := by rw [hx, hy]; push_cast; ring
  have near : |x - y| < u := by
    cases rm with
    | rne => exact mode.1.trans_lt (by linarith)
    | rmm => exact mode.1.trans_lt (by linarith)
    | rup => rw [abs_lt]; constructor <;> linarith [mode.1, mode.2]
    | rdn => rw [abs_lt]; constructor <;> linarith [mode.1, mode.2]
    | rtz =>
      obtain ⟨less, more, same⟩ := mode
      rw [abs_lt]
      obtain pos | neg := le_total 0 x <;> obtain pos' | neg' := le_total 0 y
      · rw [abs_of_nonneg pos, abs_of_nonneg pos'] at *; constructor <;> linarith
      · rw [abs_of_nonneg pos, abs_of_nonpos neg'] at *; constructor <;> nlinarith
      · rw [abs_of_nonpos neg, abs_of_nonneg pos'] at *; constructor <;> nlinarith
      · rw [abs_of_nonpos neg, abs_of_nonpos neg'] at *; constructor <;> linarith
  rw [gap, abs_mul, abs_of_pos unit, mul_lt_iff_lt_one_left unit, ← Int.cast_abs] at near
  have : k = j := by
    have : |k - j| < 1 := by exact_mod_cast near
    rw [Int.abs_lt_one_iff] at this
    omega
  rw [hx, hy, this]

/-- A number that a format represents is rounded to itself, with no flag. -/
theorem rounded_exact {F : Fmt} {rm : Rm} {x : ℝ} {r : Nat × Flags} (h : Claim.Rounded F rm x r) {n : Bool} {m : Nat} {e : ℤ}
    (hx : x = signOf n * (m * 2 ^ e)) (bits : m < 2 ^ (F.f + 1)) (least : F.emin - F.f ≤ e)
    (finite : (m : ℝ) * 2 ^ e ≤ (2 ^ (F.f + 1) - 1 : ℝ) * 2 ^ (F.emax - F.f)) :
    Claim.Stands x (F.value r.1) ∧ r.2 = 0 := by
  obtain ⟨E, y, v, w, low, -, spaced, unbounded, largest, -, within⟩ := h
  have size : |x| = m * 2 ^ e := by rw [hx, abs_signOf_mul_of_nonneg _ (by positivity)]
  have expo : E < F.f + 1 + e := by
    rw [← two_zpow_lt (j := E)]
    refine low.trans_lt ?_
    rw [size, zpow_add₀ two_ne_zero]
    refine mul_lt_mul_of_pos_right ?_ (two_zpow_pos e)
    exact_mod_cast bits
  have multiple {q : ℤ} (le : q ≤ e) : ∃ k : ℤ, x = k * 2 ^ q := by
    refine ⟨(if n then -1 else 1) * (m * 2 ^ (e - q).toNat), ?_⟩
    rw [hx, two_zpow_split le]
    cases n <;> simp [signOf, mul_assoc]
  have spacing (k : ℤ) : k - F.p + 1 = k - F.f := by simp only [Fmt.p]; push_cast; ring
  rw [spacing] at spaced unbounded
  obtain ⟨j, hj⟩ := multiple (q := max E F.emin - F.f) (by omega)
  obtain ⟨k, hk⟩ := multiple (q := E - F.f) (by omega)
  have yx := rounds_eq_of_multiple (two_zpow_pos _) spaced hj
  have vx := rounds_eq_of_multiple (two_zpow_pos _) unbounded hk
  obtain ⟨stands, -, flags, -⟩ := within (by rw [vx, size, largest.trans F.largest.symm]; exact finite)
  exact ⟨yx ▸ stands, flags yx⟩

/-- The finite values of a format lie within its precision and its exponents. -/
theorem Fmt.value_bounds {F : Fmt} (h : 2 ≤ F.e) {b : Nat} {n : Bool} {m : Nat} {e : ℤ} (value : F.value b = .fin n m e) :
    m < 2 ^ (F.f + 1) ∧ F.emin - F.f ≤ e ∧ e ≤ F.emax - F.f := by
  have top := F.two_le_top h
  have range := Fmt.emin_lt h
  have frac : b % 2 ^ F.f < 2 ^ F.f := Nat.mod_lt _ (by positivity)
  have expo : b / 2 ^ F.f % 2 ^ F.e < 2 ^ F.e := Nat.mod_lt _ (by positivity)
  have succ : 2 ^ (F.f + 1) = 2 ^ F.f * 2 := pow_succ _ _
  have topIs : F.top = 2 ^ F.e - 1 := rfl
  unfold Fmt.value at value
  dsimp only at value
  split at value
  · split at value <;> cases value
  split at value
  · cases value
    exact ⟨by omega, le_rfl, by omega⟩
  · cases value
    rw [Fmt.emin, Fmt.emax]
    omega

/-! ### Immediates (R105, R106) -/

theorem immFp_stands (F : Fmt) (rm : Rm) {i : Nat} {z : ℝ} (h : Claim.Stands z (Fmt.bf16.value i)) :
    immFp F rm i = F.roundDy rm (Fmt.bf16.value i).dy (Fmt.bf16.value i).neg := by
  obtain ⟨n, m, e, value, -⟩ := stands_iff.mp h
  rw [immFp, value]

/-- The formats to which every BF16 number widens exactly. -/
theorem Fmt.holds_bf16 {F : Fmt} (h : F = Fmt.f64 ∨ F = Fmt.f32) :
    2 ≤ F.e ∧ 8 ≤ F.f + 1 ∧ F.emin - F.f ≤ Fmt.bf16.emin - Fmt.bf16.f ∧ Fmt.bf16.emax ≤ F.emax := by
  obtain rfl | rfl := h <;> decide

/-- The value of an immediate (R105, R106). -/
theorem immFp_value {F : Fmt} (wide : 2 ≤ F.e) (rm : Rm) (i : Nat) :
    let x := Fmt.bf16.value i
    (x.isNan = true → immFp F rm i = (F.canon, 0)) ∧ (∀ n, x = .inf n → immFp F rm i = (F.inf n, 0)) ∧
    ∀ z : ℝ, Claim.Stands z x → (z = 0 → immFp F rm i = (F.zero x.neg, 0)) ∧
      (z ≠ 0 → Claim.Rounded F rm z (immFp F rm i)) ∧
      (F = Fmt.f64 ∨ F = Fmt.f32 → Claim.Stands z (F.value (immFp F rm i).1) ∧ (immFp F rm i).2 = 0) := by
  intro x
  refine ⟨fun nan => ?_, fun n inf => ?_, fun z stands => ?_⟩
  · cases value : Fmt.bf16.value i with
    | nan s => rw [immFp, value]
    | inf n => rw [show x = .inf n from value] at nan; cases nan
    | fin n m e => rw [show x = .fin n m e from value] at nan; cases nan
  · rw [immFp, show Fmt.bf16.value i = .inf n from inf]
  · rw [immFp_stands F rm stands]
    obtain ⟨n, m, e, value, real⟩ := stands_iff.mp stands
    have value' : Fmt.bf16.value i = .fin n m e := value
    have whole : x.dy.real = z := by rw [value, real]
    change (z = 0 → F.roundDy rm x.dy x.neg = _) ∧ (z ≠ 0 → Claim.Rounded F rm z (F.roundDy rm x.dy x.neg)) ∧
      (_ → Claim.Stands z (F.value (F.roundDy rm x.dy x.neg).1) ∧ (F.roundDy rm x.dy x.neg).2 = 0)
    have rounded : z ≠ 0 → Claim.Rounded F rm z (F.roundDy rm x.dy x.neg) := fun nonzero =>
      whole ▸ F.rounded_roundDy wide rm x.neg (whole.trans_ne nonzero)
    have flat : z = 0 → F.roundDy rm x.dy x.neg = (F.zero x.neg, 0) := fun zero => F.roundDy_zero rm _ (whole.trans zero)
    refine ⟨flat, rounded, fun widens => ?_⟩
    by_cases zero : z = 0
    · rw [flat zero, Fmt.value_zero wide, zero]
      exact ⟨stands_fin.mpr (by simp), rfl⟩
    · obtain ⟨-, bits, least, most⟩ := Fmt.holds_bf16 widens
      obtain ⟨small, low, high⟩ := Fmt.value_bounds (F := Fmt.bf16) (by decide) value'
      have narrow : Fmt.bf16.f = 7 := rfl
      rw [narrow] at small low high least
      have room : m < 2 ^ (F.f + 1) := small.trans_le (Nat.pow_le_pow_right two_pos bits)
      refine rounded_exact (rounded zero) (real.trans (Num.real_fin n m e)) room (by omega) ?_
      have split : (2 : ℝ) ^ (F.emax - 7) = 2 ^ (F.f - 7) * 2 ^ (F.emax - F.f) := by
        rw [← zpow_natCast, ← zpow_add₀ two_ne_zero]
        congr 1
        omega
      have eight : (m : ℝ) ≤ 2 ^ 8 - 1 := by
        have : m + 1 ≤ 2 ^ 8 := small
        have : ((m + 1 : ℕ) : ℝ) ≤ (2 ^ 8 : ℕ) := by exact_mod_cast this
        push_cast at this
        linarith
      have pow : (2 : ℝ) ^ (F.f + 1) = 2 ^ 8 * 2 ^ (F.f - 7) := by
        rw [← pow_add]
        congr 1
        omega
      have one : (1 : ℝ) ≤ 2 ^ (F.f - 7) := one_le_pow₀ one_le_two
      calc (m : ℝ) * 2 ^ e ≤ (2 ^ 8 - 1) * 2 ^ (F.emax - 7) :=
            mul_le_mul eight (two_zpow_le.mpr (by push_cast at high; omega)) (two_zpow_pos _).le (by norm_num)
        _ = (2 ^ 8 - 1) * 2 ^ (F.f - 7) * 2 ^ (F.emax - F.f) := by rw [split, mul_assoc]
        _ ≤ (2 ^ (F.f + 1) - 1) * 2 ^ (F.emax - F.f) :=
            mul_le_mul_of_nonneg_right (by rw [pow]; linarith) (two_zpow_pos _).le

/-! ### Forms on patterns (R149, R154) -/

/-- A form on patterns of two operands runs as any operation on their elements that agrees with its own. -/
theorem State.vbits2_eq (s : State) (u : Pfx) (t : BitVec 3) (d a b : BitVec 5) {op : Nat → Nat → Nat} {op' : Nat → Nat}
    (same : ∀ i, op (elem (typeW t) (s.readV a) i) (elem (typeW t) (s.readV b) i) = op' i) :
    s.vbits2 u t d a b op = s.vmap u (typeW t) (typeN t) 2 d (fun i => (op' i, 0)) :=
  congrArg (s.vmap u (typeW t) (typeN t) 2 d) (funext fun i => congrArg (·, 0) (same i))

theorem wrapInt_shiftRight (w : Nat) (x : Int) (k : Nat) : wrapInt w (x >>> k) = (x / 2 ^ k % 2 ^ w).toNat := by
  rw [wrapInt, Int.shiftRight_eq_div_pow]
  norm_cast

/-! ### Pops (R159, R160) -/

theorem State.upd_congr {s : State} {f g : Ctx → Ctx} (h : f s.here = g s.here) : s.upd f = s.upd g := congrArg s.setHere h

theorem State.vpopq_entry {s : State} {q : BitVec 2} {e : QEntry} {es : List QEntry} (h : SMap.get [] s.here.q q.toNat = e :: es)
    (u : Pfx) (d : BitVec 5) :
    s.vpopq u d q = (s.upd (fun c => { c with q := SMap.setD [] c.q q.toNat es })).putV 2 d e.data (lanePart (s.guard u.n u.g)) 0 := by
  have first : s.here.oldest q = some e := by rw [Ctx.oldest, h]; rfl
  have popped : s.popQueue q = s.upd (fun c => { c with q := SMap.setD [] c.q q.toNat es }) :=
    State.upd_congr (by rw [h]; rfl)
  rw [State.vpopq, first, ← popped]

/-- A guard reads predicates alone. -/
theorem State.guard_upd {s : State} {f : Ctx → Ctx} (stored : ∀ d, (f s.here).stored d = s.here.stored d)
    (hidden : ∀ d j, (f s.here).Hidden s.cycle s.granted d j ↔ s.here.Hidden s.cycle s.granted d j) (n : Bool) (g : BitVec 4) :
    (s.upd f).guard n g = s.guard n g := by
  have read : (s.upd f).readP g = s.readP g := by rw [State.readP, State.readP, State.read_upd (stored _) (hidden _)]
  rw [State.guard, State.guard, read]

theorem State.vpopl_landed {s : State} {l : BitVec 3} {x : Vec} {nb : Nat} (h : SMap.get .empty s.here.l l.toNat = .landed x nb none)
    (u : Pfx) (d : BitVec 5) :
    s.vpopl u d l =
      (s.upd (fun c => { c with l := SMap.setD .empty c.l l.toNat .empty })).putV 2 d x (lanePart (s.guard u.n u.g)) 0 := by
  have guard : (s.upd (fun c => { c with l := SMap.setD .empty c.l l.toNat .empty })).guard u.n u.g = s.guard u.n u.g :=
    State.guard_upd (fun _ => rfl) (fun _ _ => Iff.rfl) u.n u.g
  rw [State.vpopl, h, ← guard]

/-- Settles O22: the forms on patterns element by element, the moves and pops as they stand, and the immediates by
`immFp_value`. -/
theorem vectorBitsAndMoves : Obligations.VectorBitsAndMoves := by
  refine ⟨fun u t d a b l c w64 => ?_, fun u m d v l r i q n => ?_, fun F mem rm i _ => ?_, fun rm => ?_⟩
  · intro w x each
    refine ⟨runs_of (fun _ => rfl) fun _ => rfl, runs_of (fun _ => rfl) fun _ => rfl, runs_of (fun _ => rfl) fun _ => rfl,
      runs_of (fun _ => rfl) fun _ => rfl,
      runs_of (eff' := fun s => s.vbits2 u t d a b (fun x y => x <<< shiftAmount t y)) (fun _ => rfl) fun s => ?_,
      runs_of (eff' := fun s => s.vbits2 u t d a b (fun x y => x >>> shiftAmount t y)) (fun _ => rfl) fun s => ?_,
      runs_of (eff' := fun s => s.vbits2 u t d a b (fun x y => wrapInt (typeW t) (toIntW true (typeW t) x >>> shiftAmount t y)))
        (fun _ => rfl) fun s => ?_,
      runs_of (fun _ => rfl) fun _ => rfl, runs_of (fun _ => rfl) fun _ => rfl, runs_of (fun _ => rfl) fun _ => rfl⟩
    · exact s.vbits2_eq u t d a b fun i => Nat.shiftLeft_eq _ _
    · exact s.vbits2_eq u t d a b fun i => Nat.shiftRight_eq_div_pow _ _
    · exact s.vbits2_eq u t d a b fun i => wrapInt_shiftRight _ _ _
  · intro imm all
    refine ⟨runs_of (fun _ => rfl) fun _ => rfl,
      runs_of (eff' := fun s => s.putV 2 v ((((s.readS r).extractLsb' 0 32).setWidth 1024 : Vec) <<< (32 * l.toNat))
        (elemPart 32 (fun i => i == l.toNat)) 0) (fun _ => rfl) fun s => ?_, runs_of (fun _ => rfl) fun _ => rfl,
      runs_of (fun _ => rfl) fun _ => rfl, runs_of (fun _ => rfl) fun _ => rfl, runs_of (fun _ => rfl) fun _ => rfl,
      runs_of (fun _ => rfl) fun _ => rfl, runs_of (fun _ => rfl) fun _ => rfl, runs_of (fun _ => rfl) fun _ => rfl,
      fun s e es issues first => ?_, fun s x nb issues landed => ?_⟩
    · rw [BitVec.setWidth_eq_extractLsb' (x := s.readS r) (by decide : 32 ≤ 64)]
    · exact (issue_of_issues (fun s => s.vpopq u d q) issues).trans (congrArg Host.Outcome.next (State.vpopq_entry first u d))
    · exact (issue_of_issues (fun s => s.vpopl u d n) issues).trans (congrArg Host.Outcome.next (State.vpopl_landed landed u d))
  · refine immFp_value (Fmt.wide_of_mem ?_).1 rm i
    simp only [List.mem_cons] at mem ⊢
    tauto
  · cases rm <;> decide

end Sys2Proof.Machine
end

section
/-! SUPPORT. Vector compares and conversions (R142, R150, R155 to R157), and the values of the conversions (Table 6.4, R107). -/

namespace Sys2Proof.Machine

/-! ### What an element-wise result writes (R142, R144) -/

theorem orAll_ite_zero {α : Type} (c : α → Bool) (f : α → Flags) (l : List α) :
    orAll (l.map (fun i => if c i then f i else 0)) = orAll ((l.filter c).map f) := by
  induction l with
  | nil => rfl
  | cons x l ih =>
    rw [List.map_cons, orAll_cons, ih]
    cases h : c x <;> simp [h]

/-- Flags that are one flag or none. -/
theorem orAll_single {α : Type} (c : α → Bool) (g : Flags) (l : List α) :
    orAll (l.map (fun i => if c i then g else 0)) = if ∃ i ∈ l, c i = true then g else 0 := by
  induction l with
  | nil => simp
  | cons x l ih =>
    rw [List.map_cons, orAll_cons, ih]
    cases h : c x
    · simp [h]
    · rw [if_pos rfl, if_pos (⟨x, List.mem_cons_self, h⟩ : ∃ i ∈ x :: l, c i = true)]
      split
      · exact BitVec.or_self
      · exact BitVec.or_zero

section
variable (s : State) (u : Pfx) {w n : Nat} (f : Nat → Nat × Flags)

/-- The results of n elements, of which only the active ones count. -/
def State.results (n : Nat) : List (Nat × Flags) := (List.range n).map (fun i => if s.active u i then f i else (0, 0))

theorem State.flags_results (n : Nat) :
    orAll ((s.results u f n).map Prod.snd) = orAll (((List.range n).filter (s.active u)).map (fun i => (f i).2)) := by
  rw [← orAll_ite_zero, State.results, List.map_map]
  congr 2
  funext i
  rw [Function.comp_apply]
  split <;> rfl

theorem State.elem_results {i : Nat} (fits : w * (i + 1) ≤ 1024) :
    elem w (BitVec.ofNat 1024 (packElems w ((s.results u f n).map Prod.fst))) i =
      if i < n ∧ s.active u i = true then (f i).1 % 2 ^ w else 0 := by
  rw [elem_packElems w _ fits, List.getD_eq_getElem?_getD]
  by_cases inside : i < n
  · rw [State.results, List.map_map, List.getElem?_map, List.getElem?_range inside]
    cases active : s.active u i <;> simp [inside, active]
  · have length : ((s.results u f n).map Prod.fst).length = n := by simp [State.results]
    rw [List.getElem?_eq_none (by omega), if_neg (fun both => inside both.1)]
    exact Nat.zero_mod _

end

/-- Elements of whole bytes lie in the register. -/
theorem elem_fits {w n i : Nat} (hw : w ∈ [8, 16, 32, 64]) (fits : n ≤ 1024 / w) (hi : i < n) : w * (i + 1) ≤ 1024 := by
  simp only [List.mem_cons, List.not_mem_nil, or_false] at hw
  obtain rfl | rfl | rfl | rfl := hw <;> omega

/-! ### Compares (R150) -/

/-- A compare of two vectors by a relation that holds as `holds` and signals as `nv` says of floating-point elements, and holds as
`whole` says of integers. -/
theorem State.vcmp_eq (s : State) (u : Pfx) (t : BitVec 3) (p : BitVec 4) (a b : BitVec 5) (f : Bool) (r : Rel)
    {holds whole nv : Nat → Bool}
    (float : ∀ k, r.fp ((typeFmt t).operand f (elem (typeW t) (s.readV a) k)) ((typeFmt t).operand f (elem (typeW t) (s.readV b) k)) =
      (holds k, if nv k then nvF else 0))
    (int : ∀ k, r.int (intElem t (s.readV a) k) (intElem t (s.readV b) k) = whole k) :
    ∃ (v m : BitVec 32) (fl : Flags),
      (∀ k < 32, m.getLsbD k = if ty64 t && decide (16 ≤ k) then true else s.active u k) ∧
      (∀ k < 32, v.getLsbD k =
        (decide (k < typeN t) && s.active u k && (if tyFloat t then holds k else whole k))) ∧
      fl = (if tyFloat t ∧ (∃ k < typeN t, s.active u k = true ∧ nv k = true) then nvF else 0) ∧
      s.vcmp u t p a b f r = s.putP (if tyFloat t then (if t = 1 then 6 else 4) else 2) p v m fl := by
  refine ⟨_, _, _, fun k hk => ?_, fun k hk => ?_, ?_, rfl⟩
  · cases ty64 t with
    | false => rfl
    | true =>
      have low : (0xFFFF : BitVec 32).getLsbD k = decide (k < 16) := by interval_cases k <;> rfl
      have high : (0xFFFF0000 : BitVec 32).getLsbD k = decide (16 ≤ k) := by interval_cases k <;> rfl
      rw [if_pos rfl, BitVec.getLsbD_or, BitVec.getLsbD_and, low, high]
      obtain less | more := Nat.lt_or_ge k 16
      · simp [less, State.active, Bool.or_comm]
      · simp [more]
  · rw [BitVec.getLsbD_ofNat, testBit_natOfBits, decide_eq_true hk, Bool.true_and, List.getD_eq_getElem?_getD, List.map_map,
      List.getElem?_map]
    by_cases inside : k < typeN t
    · rw [List.getElem?_range inside, decide_eq_true inside]
      simp only [Option.map_some, Option.getD_some, Function.comp_apply, Bool.true_and, float, int]
      cases s.active u k <;> cases tyFloat t <;> rfl
    · rw [List.getElem?_eq_none (by simpa using inside), decide_eq_false inside]
      rfl
  · have each (i : Nat) : (if s.active u i = true then (if tyFloat t = true then (holds i, if nv i = true then nvF else 0)
        else (whole i, 0)) else (false, 0)).2 = if (tyFloat t && (s.active u i && nv i)) = true then nvF else (0 : Flags) := by
      cases s.active u i <;> cases tyFloat t <;> rfl
    simp only [List.map_map, Function.comp_def, float, int, each]
    rw [orAll_single]
    refine if_congr ?_ rfl rfl
    simp only [List.mem_range, Bool.and_eq_true]
    exact ⟨fun ⟨k, inside, isFloat, signals⟩ => ⟨isFloat, k, inside, signals⟩,
      fun ⟨isFloat, k, inside, signals⟩ => ⟨k, inside, isFloat, signals⟩⟩

/-! ### Values of the conversions (Table 6.4, R92) -/

theorem typeFmt_mem (t : BitVec 3) : typeFmt t ∈ [Fmt.f64, Fmt.f32, Fmt.f16, Fmt.bf16, Fmt.h8] := by
  unfold typeFmt
  (repeat' split) <;> decide

/-- A pattern is its sign, its exponent and its fraction. -/
theorem Fmt.exists_fields (F : Fmt) {b : Nat} (h : b < 2 ^ F.width) :
    ∃ n ex fr, ex < 2 ^ F.e ∧ fr < 2 ^ F.f ∧ b = F.sign n + ex * 2 ^ F.f + fr := by
  have width : 2 ^ F.width = 2 ^ F.f * 2 ^ F.e * 2 := by rw [Fmt.width]; ring
  have high : b / 2 ^ F.f / 2 ^ F.e < 2 := by
    rw [Nat.div_div_eq_div_mul]
    exact Nat.div_lt_of_lt_mul (width ▸ h)
  refine ⟨decide (b / 2 ^ F.f / 2 ^ F.e = 1), b / 2 ^ F.f % 2 ^ F.e, b % 2 ^ F.f, Nat.mod_lt _ (by positivity),
    Nat.mod_lt _ (by positivity), ?_⟩
  have sign : F.sign (decide (b / 2 ^ F.f / 2 ^ F.e = 1)) = b / 2 ^ F.f / 2 ^ F.e * 2 ^ F.e * 2 ^ F.f := by
    generalize b / 2 ^ F.f / 2 ^ F.e = q at *
    obtain rfl | rfl : q = 0 ∨ q = 1 := by omega
    · simp [Fmt.sign]
    · simp [Fmt.sign, pow_add]
  rw [sign, ← Nat.add_mul, Nat.div_add_mod', Nat.div_add_mod']

/-- A flushed BF16 pattern keeps its sign alone. -/
theorem flushedPattern_bf16 (f : Bool) {b : Nat} (h : b < 2 ^ 16) :
    Fmt.bf16.flushedPattern f b = if f = true ∧ b / 2 ^ 7 % 2 ^ 8 = 0 then b / 2 ^ 15 * 2 ^ 15 else b := by
  obtain ⟨n, ex, fr, hex, hfr, rfl⟩ := Fmt.bf16.exists_fields h
  obtain ⟨-, expo, -⟩ := Fmt.bf16.fields n hex hfr
  obtain ⟨-, -, -, -, flushed, kept⟩ := Fmt.patterns (F := Fmt.bf16) (by decide) (by decide) n hex hfr
  have sign : (Fmt.bf16.sign n + ex * 2 ^ Fmt.bf16.f + fr) / 2 ^ 15 * 2 ^ 15 = Fmt.bf16.sign n := by
    have e : Fmt.bf16.e = 8 := rfl
    have f : Fmt.bf16.f = 7 := rfl
    rw [e] at hex
    rw [f] at hfr ⊢
    cases n <;> simp only [Fmt.sign, e, f, Bool.false_eq_true, if_false, if_true] <;> omega
  rw [sign, show (Fmt.bf16.sign n + ex * 2 ^ Fmt.bf16.f + fr) / 2 ^ 7 % 2 ^ 8 = ex from expo]
  by_cases sub : ex = 0 ∧ fr ≠ 0
  · cases f with
    | false => rw [if_neg (by simp)]; exact (kept false 0 (.inl rfl)).2.2
    | true => rw [if_pos ⟨rfl, sub.1⟩]; exact (flushed sub 0).2.2
  · have same : Fmt.bf16.flushedPattern f (Fmt.bf16.sign n + ex * 2 ^ Fmt.bf16.f + fr) = _ := (kept f 0 (.inr sub)).2.2
    rw [same]
    by_cases none : f = true ∧ ex = 0
    · have noFraction : fr = 0 := by_contra fun nonzero => sub ⟨none.2, nonzero⟩
      rw [if_pos none, none.2, noFraction, Nat.zero_mul]
      rfl
    · rw [if_neg none]
      rfl

/-- A zero is not flushed. -/
theorem Fmt.flushOut_zero {F : Fmt} (h : 2 ≤ F.e) (o n : Bool) (g : Flags) : F.flushOut o (F.zero n, g) = (F.zero n, g) := by
  have notSub : F.isSub (F.value (F.zero n)) = false := by rw [Fmt.value_zero h]; rfl
  exact if_neg (by simp [notSub])

/-- A number of a floating-point source in a floating-point destination is rounded once. -/
theorem convertFp_value {S D : Fmt} (h : 2 ≤ D.e) (rm : Rm) (f o : Bool) (b : Nat) :
    let x := S.operand f b
    let r := convertFp S D rm f o b
    (∀ n, x = .nan n → r = (D.canon, if n then nvF else 0)) ∧ (∀ n, x = .inf n → r = (D.inf n, 0)) ∧
      ∀ z : ℝ, Claim.Stands z x → (z = 0 → r = (D.zero x.neg, 0)) ∧
        (z ≠ 0 → ∃ y, Claim.Rounded D rm z y ∧ r = D.flushOut o y) := by
  intro x r
  refine ⟨fun n nan => ?_, fun n inf => ?_, fun z stands => ?_⟩
  · change convertFp S D rm f o b = _
    rw [convertFp, show S.operand f b = .nan n from nan]
  · change convertFp S D rm f o b = _
    rw [convertFp, show S.operand f b = .inf n from inf]
  · obtain ⟨n, m, e, value, rfl⟩ := stands_iff.mp stands
    have result : r = D.flushOut o (D.roundDy rm (Num.fin n m e).dy (Num.fin n m e).neg) := by
      change convertFp S D rm f o b = _
      rw [convertFp, show S.operand f b = .fin n m e from value]
    rw [result, value]
    exact ⟨fun zero => by rw [D.roundDy_zero rm _ zero, D.flushOut_zero h], fun nonzero => ⟨_, D.rounded_roundDy h rm _ nonzero, rfl⟩⟩

/-! ### Integers -/

theorem intMin_type (t : BitVec 3) (w : Nat) : intMin (typeSigned t) w = if t = 6 then 0 else -2 ^ (w - 1) := by
  by_cases h : t = 6 <;> simp [intMin, typeSigned, h]

theorem intMax_type (t : BitVec 3) (w : Nat) : intMax (typeSigned t) w = if t = 6 then 2 ^ w - 1 else 2 ^ (w - 1) - 1 := by
  by_cases h : t = 6 <;> simp [intMax, typeSigned, h]

/-- A finite number rounded to an integer by a mode (R97). -/
theorem toInt_rounds (rm : Rm) (x : Dy) :
    Claim.Rounds rm 1 x.real (x.toInt rm).1 ∧ ((x.toInt rm).2 = true ↔ ((x.toInt rm).1 : ℝ) ≠ x.real) := by
  have tells : Sticky (x.m.natAbs * 2 ^ x.e) x.m.natAbs x.e 0 := .inl rfl
  obtain ⟨rounds, inexact, -⟩ := rounds_roundAt tells rm (decide (x.m < 0))
  have same : ((x.toInt rm).1 : ℝ) = signOf (decide (x.m < 0)) * ((roundAt rm (decide (x.m < 0)) x.m.natAbs x.e 0).1 * 2 ^ (0 : ℤ)) := by
    unfold Dy.toInt
    dsimp only
    split
    · next neg => rw [neg, signOf]; simp
    · next pos => rw [Bool.eq_false_iff.mpr pos, signOf]; simp
  rw [zpow_zero, ← x.real_sign] at rounds
  rw [same, x.real_sign, ne_eq, signOf_mul_inj]
  rw [zpow_zero]
  exact ⟨x.real_sign ▸ rounds, by rw [← zpow_zero (2 : ℝ)]; exact inexact⟩

/-- A number rounded to an integer of w bits, which saturates with NV (R92). -/
theorem cvtInt_value (sg : Bool) (w : Nat) (rm : Rm) (x : Num) :
    (∀ n, x = .nan n → cvtInt sg w rm x = (0, nvF)) ∧
    (∀ n, x = .inf n → cvtInt sg w rm x = (wrapInt w (if n then intMin sg w else intMax sg w), nvF)) ∧
    ∀ z : ℝ, Claim.Stands z x → ∃ k : ℤ, Claim.Rounds rm 1 z k ∧
      ((k < intMin sg w ∨ intMax sg w < k) → cvtInt sg w rm x = (wrapInt w (sat sg w k), nvF)) ∧
      (intMin sg w ≤ k → k ≤ intMax sg w →
        ((k : ℝ) = z → cvtInt sg w rm x = (wrapInt w k, 0)) ∧ ((k : ℝ) ≠ z → cvtInt sg w rm x = (wrapInt w k, nxF))) := by
  refine ⟨fun n nan => by rw [nan]; rfl, fun n inf => by rw [inf]; rfl, fun z stands => ?_⟩
  obtain ⟨n, m, e, rfl, rfl⟩ := stands_iff.mp stands
  obtain ⟨rounds, inexact⟩ := toInt_rounds rm (Num.fin n m e).dy
  have result : cvtInt sg w rm (.fin n m e) =
      if ((Num.fin n m e).dy.toInt rm).1 < intMin sg w ∨ intMax sg w < ((Num.fin n m e).dy.toInt rm).1 then
        (wrapInt w (sat sg w ((Num.fin n m e).dy.toInt rm).1), nvF)
      else (wrapInt w ((Num.fin n m e).dy.toInt rm).1, if ((Num.fin n m e).dy.toInt rm).2 then nxF else 0) := rfl
  refine ⟨_, rounds, fun beyond => result.trans (if_pos beyond), fun low high => ?_⟩
  rw [result, if_neg (by omega)]
  exact ⟨fun same => by rw [if_neg (inexact.not.mpr (not_not.mpr same))], fun differs => by rw [if_pos (inexact.mpr differs)]⟩

/-- VSCN's quotient is rounded once, with the special cases of R107. -/
theorem scaleNarrow_value {F : Fmt} (h : 2 ≤ F.e) (rm : Rm) (x s : Num) :
    let v := scaleNarrow F rm x s
    let sign := x.neg != s.neg
    (x.isNan = true ∨ s.isNan = true → v = (F.canon, if x.isSnan || s.isSnan then nvF else 0)) ∧
    (∀ n k, x = .inf n → s = .inf k → v = (F.canon, nvF)) ∧
    ∀ y z : ℝ,
      (Claim.Stands y x → Claim.Stands z s → (y ≠ 0 → z ≠ 0 → Claim.Rounded F rm (y / z) v) ∧
        (y = 0 → z ≠ 0 → v = (F.zero sign, 0)) ∧ (y ≠ 0 → z = 0 → v = (F.inf sign, dzF)) ∧
        (y = 0 → z = 0 → v = (F.canon, nvF))) ∧
      (∀ n, Claim.Stands y x → s = .inf n → v = (F.zero sign, 0)) ∧
      (∀ n, x = .inf n → Claim.Stands z s → v = (F.inf sign, 0)) := by
  intro v sign
  refine ⟨fun nan => (F.nan_results rm (by simpa using nan)).2.2.2, fun n k hx hs => ?_, fun y z => ⟨fun hx hs => F.div_stands h rm hx hs,
    fun n hx hs => ?_, fun n hx hs => ?_⟩⟩
  · subst hx hs
    rfl
  · subst hs
    exact (F.inf_results rm n hx hx).2.2.2.2.2.1
  · subst hx
    exact (F.inf_results rm n hs hs).2.2.2.2.1

/-- Settles O23: the compares by `State.vcmp_eq`, what is written by `State.elem_results`, the conversions by the value of each of
their cases. -/
theorem vectorComparesAndConversions : Obligations.VectorComparesAndConversions := by
  refine ⟨fun u t p a b f => ?_, fun s u w n lat d f hw fits => ?_, fun u t q d a b m f o => ?_, fun t q rm f o b => ?_⟩
  · intro x num int un sn eq lt goes
    have compare (i : Instr) (r : Rel) {holds whole nv : State → Nat → Bool}
        (issues : ∀ s, exec i s = issue i s (fun s => s.vcmp u t p a b f r))
        (float : ∀ s k, r.fp (num s a k) (num s b k) = (holds s k, if nv s k then nvF else 0))
        (exact_ : ∀ s k, r.int (int s a k) (int s b k) = whole s k) : goes i holds whole nv := fun r hr => by
      obtain ⟨v, m, fl, mask, bits, flags, result⟩ := (Claim.issuing i r).vcmp_eq u t p a b f _ (float _) (exact_ _)
      exact ⟨v, m, fl, mask, bits, flags, by rw [issues, issue_of_issues _ hr, result]⟩
    refine ⟨?_, ?_, ?_, ?_, ?_⟩
    · exact compare _ .eq (fun _ => rfl) (fun _ _ => rfl) fun _ _ => rfl
    · refine compare _ .ne (holds := fun s k => !eq s k) (nv := sn) (fun _ => rfl) (fun s k => Prod.ext ?_ rfl) fun _ _ => rfl
      simp [Rel.fp, eq, un]
    · exact compare _ .lt (fun _ => rfl) (fun _ _ => rfl) fun _ _ => rfl
    · exact compare _ .le (fun _ => rfl) (fun s k => Prod.ext (Bool.and_or_distrib_left _ _ _) rfl) fun _ _ => rfl
    · exact compare _ .un (fun _ => rfl) (fun _ _ => rfl) fun _ _ => rfl
  · refine ⟨_, _, _, fun i hi active => ?_, fun i hn hi => ?_, ?_, rfl, fun k hk => ?_, rfl⟩
    · exact (s.elem_results u f (elem_fits hw fits hi)).trans (if_pos ⟨hi, active⟩)
    · exact (s.elem_results u f (elem_fits hw le_rfl hi)).trans (if_neg fun both => absurd both.1 (not_lt.mpr hn))
    · exact s.flags_results u f n ▸ raised_orAll _
    · exact getLsbD_elemPart _ _ hk
  · intro n S x
    exact ⟨runs_of (fun _ => rfl) fun _ => rfl, runs_of (fun _ => rfl) fun _ => rfl, runs_of (fun _ => rfl) fun _ => rfl⟩
  · intro S D x r w lo hi int
    have wide : 2 ≤ D.e := (Fmt.wide_of_mem (typeFmt_mem t)).1
    have least : intMin (typeSigned t) w = lo := intMin_type t w
    have most : intMax (typeSigned t) w = hi := intMax_type t w
    refine ⟨fun hq ht small => ?_, fun hq ht other => ?_, fun hq ht => ?_, fun hq ht => ?_,
      fun hq ht => ?_, fun F x y mem => ?_⟩
    · subst hq ht
      exact congrArg (· * 2 ^ 16, (0 : Flags)) (flushedPattern_bf16 f small)
    · have result : r = convertFp S D rm f o b := by
        change convertElem t q rm f o b = _
        rw [convertElem, if_neg (by simp [hq]), if_neg (by simp [ht]), if_neg other]
      rw [result]
      exact convertFp_value wide rm f o b
    · have result : r = cvtInt (typeSigned t) w rm x := by
        change convertElem t q rm f o b = _
        rw [convertElem, if_neg (by simp [hq]), if_pos ht]
      rw [result, ← least, ← most]
      obtain ⟨nan, inf, finite⟩ := cvtInt_value (typeSigned t) w rm x
      exact ⟨nan, fun n h => (inf n h).trans (by cases n <;> rfl), finite⟩
    · have result : r = D.roundDy rm ⟨int, 0⟩ false := by
        change convertElem t q rm f o b = _
        rw [convertElem, if_pos hq, if_neg (by simp [ht])]
        rfl
      have real : (⟨int, 0⟩ : Dy).real = (int : ℝ) := by simp [Dy.real]
      rw [result, ← real]
      exact ⟨fun zero => D.roundDy_zero rm _ (Dy.real_eq_zero_iff.mpr zero),
        fun nonzero => D.rounded_roundDy wide rm _ (Dy.real_eq_zero_iff.not.mpr nonzero)⟩
    · change convertElem t q rm f o b = _
      rw [convertElem, if_pos hq, if_pos ht, ← least, ← most]
      rfl
    · refine scaleNarrow_value (Fmt.wide_of_mem ?_).1 rm x y
      simp only [List.mem_cons] at mem ⊢
      tauto

end Sys2Proof.Machine
end

section
/-! SUPPORT. Vector reductions and selections (R158, R162 to R164), their folds and their orders. -/

namespace Sys2Proof.Machine

/-! ### The ordered sum (R158; log 53) -/

/-- What a rounding leaves is no NaN. -/
theorem rounded_not_nan {F : Fmt} {rm : Rm} {x : ℝ} {r : Nat × Flags} (h : Claim.Rounded F rm x r) : (F.value r.1).isNan = false := by
  obtain ⟨E, y, v, w, low, -, -, -, -, beyond, within⟩ := h
  obtain past | under := lt_or_ge w |v|
  · obtain ⟨-, toInf, toLargest⟩ := beyond past
    have nonzero : x ≠ 0 := by
      rintro rfl
      rw [abs_zero] at low
      exact absurd low (not_le.mpr (two_zpow_pos E))
    by_cases infinite : rm = .rne ∨ rm = .rmm ∨ (rm = .rup ∧ 0 < x) ∨ (rm = .rdn ∧ x < 0)
    · obtain ⟨n, value, -⟩ := toInf infinite
      rw [value]
      rfl
    · refine isNan_of_stands (toLargest ?_)
      obtain neg | pos := lt_or_gt_of_ne nonzero
      · cases rm <;> simp_all
      · cases rm <;> simp_all
  · exact isNan_of_stands (within under).1

theorem Fmt.flushOut_not_nan {F : Fmt} (h : 2 ≤ F.e) (o : Bool) {r : Nat × Flags} (plain : (F.value r.1).isNan = false) :
    (F.value (F.flushOut o r).1).isNan = false := by
  unfold Fmt.flushOut
  split
  · rw [Fmt.value_zero h]
    rfl
  · exact plain

/-- A sum that adds a finite number to one that is no NaN is no NaN. -/
theorem Fmt.sum_not_nan {F : Fmt} (h : 2 ≤ F.e) (rm : Rm) {a b : Num} (ha : a.isNan = false) {y : ℝ} (hb : Claim.Stands y b) :
    (F.value (F.sum rm a b).1).isNan = false := by
  cases infinite : a.isInf with
  | true =>
    cases a with
    | nan s => cases infinite
    | fin n m e => cases infinite
    | inf n =>
      rw [(F.sum_inf rm n (isInf_of_stands hb) (isNan_of_stands hb)).1, F.value_inf]
      rfl
  | false =>
    obtain ⟨n, m, e, rfl⟩ := Num.fin_of_plain ha infinite
    obtain ⟨rounded, zero⟩ := F.sum_stands h rm (stands_iff.mpr ⟨n, m, e, rfl, rfl⟩) hb
    by_cases sum : (Num.fin n m e).dy.real + y = 0
    · rw [zero sum, Fmt.value_zero h]
      rfl
    · exact rounded_not_nan (rounded sum)

/-- One step of the ordered sum. -/
def sumStep (F : Fmt) (rm : Rm) (o : Bool) (c : Nat × Flags) (x : Num) : Nat × Flags :=
  ((F.flushOut o (F.sum rm (F.value c.1) x)).1, c.2 ||| (F.flushOut o (F.sum rm (F.value c.1) x)).2)

theorem foldSum_eq_foldl (F : Fmt) (rm : Rm) (o : Bool) (c : Nat × Flags) (xs : List Num) :
    foldSum F rm o c xs = xs.foldl (sumStep F rm o) c := by
  induction xs generalizing c with
  | nil => rfl
  | cons x xs ih => exact ih _

/-- The running result of a fold after its first k steps. -/
def foldTo {α β : Type} (f : β → α → β) (c : β) (xs : List α) (k : Nat) : β := (xs.take k).foldl f c

theorem foldTo_succ {α β : Type} (f : β → α → β) (c : β) {xs : List α} {k : Nat} {x : α} (h : xs[k]? = some x) :
    foldTo f c xs (k + 1) = f (foldTo f c xs k) x := by
  rw [foldTo, List.take_add_one, h, Option.toList_some, List.foldl_append]
  rfl

theorem foldTo_length {α β : Type} (f : β → α → β) (c : β) (xs : List α) : foldTo f c xs xs.length = xs.foldl f c := by
  rw [foldTo, List.take_length]

/-- Where every term is finite, no running result of the ordered sum is a NaN. -/
theorem foldTo_sumStep_not_nan {F : Fmt} (h : 2 ≤ F.e) (rm : Rm) (o : Bool) {xs : List Num} (finite : ∀ x ∈ xs, ∃ y, Claim.Stands y x)
    {c : Nat × Flags} (start : (F.value c.1).isNan = false) (k : Nat) : (F.value (foldTo (sumStep F rm o) c xs k).1).isNan = false := by
  induction k with
  | zero => exact start
  | succ k ih =>
    cases term : xs[k]? with
    | none =>
      have past : xs.length ≤ k := List.getElem?_eq_none_iff.mp term
      rw [foldTo, List.take_of_length_le past] at ih
      rwa [foldTo, List.take_of_length_le (by omega)]
    | some x =>
      obtain ⟨y, stands⟩ := finite x (List.mem_of_getElem? term)
      rw [foldTo_succ _ _ term]
      exact Fmt.flushOut_not_nan h o (F.sum_not_nan h rm ih stands)

theorem any_pinf (xs : List Num) : xs.any (fun x => x.isInf && !x.neg) = true ↔ Num.inf false ∈ xs := by
  rw [List.any_eq_true]
  refine ⟨fun ⟨x, mem, sign⟩ => ?_, fun mem => ⟨_, mem, rfl⟩⟩
  cases x with
  | nan s => cases sign
  | fin n m e => cases sign
  | inf n => cases n with
    | false => exact mem
    | true => cases sign

theorem any_ninf (xs : List Num) : xs.any (fun x => x.isInf && x.neg) = true ↔ Num.inf true ∈ xs := by
  rw [List.any_eq_true]
  refine ⟨fun ⟨x, mem, sign⟩ => ?_, fun mem => ⟨_, mem, rfl⟩⟩
  cases x with
  | nan s => cases sign
  | fin n m e => cases sign
  | inf n => cases n with
    | true => exact mem
    | false => cases sign

theorem ite_nvF (b : Bool) : ((if b then nvF else 0) = nvF ↔ b = true) ∧ ((if b then nvF else 0) = 0 ↔ ¬ b = true) := by
  cases b <;> decide

/-- The ordered sum from −0, and its special cases (R158). -/
theorem reduceAdd_spec {F : Fmt} (h : 2 ≤ F.e) (rm : Rm) (o : Bool) (xs : List Num) :
    let nan := ∃ x ∈ xs, x.isNan = true
    let both := Machine.Num.inf false ∈ xs ∧ Machine.Num.inf true ∈ xs
    (nan ∨ both → (reduceAdd F rm o xs).1 = F.canon ∧
      ((reduceAdd F rm o xs).2 = nvF ↔ (∃ x ∈ xs, x.isSnan = true) ∨ both) ∧
      ((reduceAdd F rm o xs).2 = 0 ↔ ¬ ((∃ x ∈ xs, x.isSnan = true) ∨ both))) ∧
    (¬ nan → ¬ both → ∀ n, Machine.Num.inf n ∈ xs → reduceAdd F rm o xs = (F.inf n, 0)) ∧
    (¬ nan → (∀ n, Machine.Num.inf n ∉ xs) → ∃ c : Nat → Nat × Flags, c 0 = (F.zero true, 0) ∧
      (∀ k x, xs[k]? = some x → c (k + 1) =
        ((F.flushOut o (F.add rm (F.value (c k).1) x)).1, (c k).2 ||| (F.flushOut o (F.add rm (F.value (c k).1) x)).2)) ∧
      reduceAdd F rm o xs = c xs.length) := by
  intro nan both
  have isNan : xs.any Num.isNan = true ↔ nan := List.any_eq_true
  have isSnan : xs.any Num.isSnan = true ↔ ∃ x ∈ xs, x.isSnan = true := List.any_eq_true
  have isBoth : (xs.any (fun x => x.isInf && !x.neg) && xs.any (fun x => x.isInf && x.neg)) = true ↔ both := by
    rw [Bool.and_eq_true, any_pinf, any_ninf]
  have special : (xs.any Num.isNan || (xs.any (fun x => x.isInf && !x.neg) && xs.any (fun x => x.isInf && x.neg))) = true ↔ nan ∨ both := by
    rw [Bool.or_eq_true, isNan, isBoth]
  have signals : (xs.any Num.isSnan || (xs.any (fun x => x.isInf && !x.neg) && xs.any (fun x => x.isInf && x.neg))) = true ↔
      (∃ x ∈ xs, x.isSnan = true) ∨ both := by
    rw [Bool.or_eq_true, isSnan, isBoth]
  unfold reduceAdd
  dsimp only
  refine ⟨fun spoiled => ?_, fun notNan notBoth n mem => ?_, fun notNan finite => ?_⟩
  · rw [if_pos (special.mpr spoiled), ← signals]
    exact ⟨rfl, ite_nvF _⟩
  · rw [if_neg (special.not.mpr fun bad => bad.elim notNan notBoth)]
    cases n with
    | false => rw [if_pos ((any_pinf xs).mpr mem)]
    | true =>
      have other : ¬ xs.any (fun x => x.isInf && !x.neg) = true := fun pos => notBoth ⟨(any_pinf xs).mp pos, mem⟩
      rw [if_neg other, if_pos ((any_ninf xs).mpr mem)]
  · have stand : ∀ x ∈ xs, ∃ y, Claim.Stands y x := fun x mem => by
      have plain : x.isNan = false := Bool.eq_false_iff.mpr fun bad => notNan ⟨x, mem, bad⟩
      have notInf : x.isInf = false := by
        cases x with
        | inf n => exact absurd mem (finite n)
        | nan s => rfl
        | fin n m e => rfl
      obtain ⟨n, m, e, rfl⟩ := Num.fin_of_plain plain notInf
      exact ⟨_, stands_iff.mpr ⟨n, m, e, rfl, rfl⟩⟩
    have start : (F.value (F.zero true)).isNan = false := by rw [Fmt.value_zero h]; rfl
    refine ⟨foldTo (sumStep F rm o) (F.zero true, 0) xs, rfl, fun k x term => ?_, ?_⟩
    · obtain ⟨y, stands⟩ := stand x (List.mem_of_getElem? term)
      have running := foldTo_sumStep_not_nan h rm o stand (c := (F.zero true, 0)) start k
      rw [foldTo_succ _ _ term, F.add_of_not_nan rm running (isNan_of_stands stands)]
      rfl
    · rw [if_neg (special.not.mpr fun bad => bad.elim notNan fun both => finite _ both.1),
        if_neg ((any_pinf xs).not.mpr (finite _)), if_neg ((any_ninf xs).not.mpr (finite _)), foldSum_eq_foldl, foldTo_length]

/-! ### Minima, maxima and integer sums (R145, R158) -/

/-- The fold of minima and maxima. -/
theorem reduceMinMax_spec (F : Fmt) (max : Bool) (p : Nat) (ps : List Nat) :
    let pick (x y : Nat) : Nat :=
      if (F.value x).isNan && (F.value y).isNan then F.canon
      else if (F.value x).isNan then y else if (F.value y).isNan then x
      else if max then (if (F.value x).ltSigned (F.value y) then y else x)
      else (if (F.value y).ltSigned (F.value x) then y else x)
    let nv (x y : Nat) : Flags := if (F.value x).isSnan || (F.value y).isSnan then nvF else 0
    ∃ c : Nat → Nat × Flags,
      c 0 = (if (F.value p).isNan then (F.canon, if (F.value p).isSnan then nvF else 0) else (p, 0)) ∧
      (∀ k q, ps[k]? = some q → c (k + 1) = (pick (c k).1 q, (c k).2 ||| nv (c k).1 q)) ∧
      reduceMinMax F max (p :: ps) = c ps.length := by
  intro pick nv
  have each (y : Nat × Flags) (q : Nat) : F.minMax max y.1 q = (pick y.1 q, nv y.1 q) := by
    simp only [Fmt.minMax, pick]
    cases (F.value y.1).isNan <;> cases (F.value q).isNan <;> cases max <;> rfl
  refine ⟨foldTo (fun y q => ((F.minMax max y.1 q).1, y.2 ||| (F.minMax max y.1 q).2)) _ ps, rfl, fun k q term => ?_, ?_⟩
  · rw [foldTo_succ _ _ term, each]
  · rw [foldTo_length]
    rfl

theorem foldl_add_eq_sum (l : List Int) (c : Int) : l.foldl (· + ·) c = c + l.sum := by
  induction l generalizing c with
  | nil => simp
  | cons x l ih => rw [List.foldl_cons, ih, List.sum_cons, add_assoc]

/-! ### cg32 (R109) -/

theorem toNat_xor_shift (x : BitVec 32) (k : Nat) : (x ^^^ x >>> k).toNat = x.toNat ^^^ x.toNat / 2 ^ k := by
  rw [BitVec.toNat_xor, BitVec.toNat_ushiftRight, Nat.shiftRight_eq_div_pow]

theorem cg32_toNat (key : DWord) (n : BitVec 32) :
    let h0 := (n.toNat + key.toNat % 2 ^ 32) % 2 ^ 32
    let h1 := (h0 ^^^ h0 / 2 ^ 16) * 0x7FEB352D % 2 ^ 32
    let h2 := (h1 ^^^ h1 / 2 ^ 15) * 0x846CA68B % 2 ^ 32
    (cg32 key n).toNat = h2 ^^^ h2 / 2 ^ 16 ^^^ key.toNat / 2 ^ 32 := by
  intro h0 h1 h2
  have low : (key.extractLsb' 0 32).toNat = key.toNat % 2 ^ 32 := by simp
  have high : (key.extractLsb' 32 32).toNat = key.toNat / 2 ^ 32 := by
    rw [BitVec.extractLsb'_toNat, Nat.shiftRight_eq_div_pow]
    exact Nat.mod_eq_of_lt (Nat.div_lt_of_lt_mul key.isLt)
  have first : (n + key.extractLsb' 0 32).toNat = h0 := by rw [BitVec.toNat_add, low]
  have step {x : BitVec 32} {h : Nat} (same : x.toNat = h) (k : Nat) (c : BitVec 32) :
      ((x ^^^ x >>> k) * c).toNat = (h ^^^ h / 2 ^ k) * c.toNat % 2 ^ 32 := by rw [BitVec.toNat_mul, toNat_xor_shift, same]
  have last := step (step first 16 0x7FEB352D) 15 0x846CA68B
  rw [cg32, BitVec.toNat_xor, toNat_xor_shift, high, last]
  rfl

/-! ### The threshold and the order of PRUNE (R163) -/

@[simp] theorem Dy.real_abs (x : Dy) : x.abs.real = |x.real| := by
  rw [Dy.real, Dy.abs, Dy.real, abs_mul, abs_of_pos (two_zpow_pos x.e), ← Int.cast_abs, Int.abs_eq_natAbs]

theorem Dy.le_iff (x y : Dy) : x.le y = true ↔ x.real ≤ y.real := by
  rw [Dy.le, Bool.not_eq_true', Bool.eq_false_iff, ne_eq, Dy.real_lt_iff, not_lt]

/-- The elements that survive their threshold. -/
theorem survives_spec (x tau : Num) (u : Nat) (y z : ℝ) :
    (tau.isNan = true ∨ tau = .inf true ∨ (Claim.Stands z tau ∧ z ≤ 0) → survives x tau ⟨u, -24⟩ = true) ∧
    (tau = .inf false → survives x tau ⟨u, -24⟩ = (x.isInf || x.isNan)) ∧
    (Claim.Stands z tau → 0 < z → x.isNan = true ∨ x.isInf = true → survives x tau ⟨u, -24⟩ = true) ∧
    (Claim.Stands z tau → 0 < z → Claim.Stands y x →
      (survives x tau ⟨u, -24⟩ = true ↔ z ≤ |y| ∨ (u : ℝ) / 2 ^ 24 * z < |y|)) := by
  have positive (stands : Claim.Stands z tau) (pos : 0 < z) : ¬ (tau.isNan || tau.isZero || tau.neg) = true ∧ ¬ tau.isInf = true := by
    have notZero : tau.isZero = false := Bool.eq_false_iff.mpr ((isZero_of_stands stands).not.mpr pos.ne')
    obtain ⟨n, m, e, rfl, rfl⟩ := stands_iff.mp stands
    obtain ⟨rfl, -⟩ := real_fin_pos_iff.mp pos
    rw [notZero]
    exact ⟨nofun, nofun⟩
  refine ⟨fun always => if_pos ?_, fun inf => ?_, fun stands pos special => ?_, fun stands pos finite => ?_⟩
  · obtain nan | rfl | ⟨stands, nonpos⟩ := always
    · rw [nan]
      rfl
    · rfl
    · have zero := isZero_of_stands stands
      obtain ⟨n, m, e, rfl, rfl⟩ := stands_iff.mp stands
      cases n with
      | true => simp [Num.neg]
      | false =>
        have : (Num.fin false m e).dy.real = 0 := le_antisymm nonpos (by
          rw [Num.real_fin, signOf, if_neg Bool.false_ne_true]
          positivity)
        simp [zero.mpr this]
  · subst inf
    rfl
  · obtain ⟨plain, notInf⟩ := positive stands pos
    rw [survives, if_neg plain, if_neg notInf, if_pos (by simpa using special)]
  · obtain ⟨plain, notInf⟩ := positive stands pos
    have usual : ¬ (x.isNan || x.isInf) = true := by simp [isNan_of_stands finite, isInf_of_stands finite]
    obtain ⟨n, m, e, rfl, rfl⟩ := stands_iff.mp stands
    obtain ⟨k, a, b, rfl, rfl⟩ := stands_iff.mp finite
    have draw : (⟨u, -24⟩ : Dy).real = u / 2 ^ 24 := by
      rw [Dy.real, zpow_neg, div_eq_mul_inv]
      norm_num
    rw [survives, if_neg plain, if_neg notInf, if_neg usual, Bool.or_eq_true, Dy.le_iff, Dy.real_lt_iff, Dy.real_mul, Dy.real_abs, draw]

/-- The order of PRUNE: NaNs, then infinities, then by magnitude. -/
theorem magBefore_spec (x y : Num) (v w : ℝ) :
    (x.isNan = true → y.isNan = false → magBefore x y = true) ∧
    (y.isNan = true → magBefore x y = false) ∧
    (x.isInf = true → Claim.Stands w y → magBefore x y = true) ∧ (x.isNan = false → y.isInf = true → magBefore x y = false) ∧
    (Claim.Stands v x → Claim.Stands w y → (magBefore x y = true ↔ |w| < |v|)) := by
  refine ⟨fun nan plain => ?_, fun nan => ?_, fun inf stands => ?_, fun plain inf => ?_, fun hx hy => ?_⟩
  · rw [magBefore, if_pos nan, plain]
    rfl
  · rw [magBefore, nan]
    split <;> rfl
  · obtain ⟨n, m, e, rfl, -⟩ := stands_iff.mp stands
    cases x with
    | inf k => rfl
    | nan s => cases inf
    | fin k a b => cases inf
  · cases y with
    | nan s => cases inf
    | fin k a b => cases inf
    | inf k => cases x with
      | nan s => cases plain
      | inf j => rfl
      | fin j a b => rfl
  · rw [magBefore, if_neg (by simp [isNan_of_stands hx]), if_neg (by simp [isNan_of_stands hy])]
    obtain ⟨n, m, e, rfl, rfl⟩ := stands_iff.mp hx
    obtain ⟨k, a, b, rfl, rfl⟩ := stands_iff.mp hy
    rw [Num.abs, Num.abs, Num.lt_fin, abs_real_fin, abs_real_fin, Num.real_fin, Num.real_fin]
    simp [signOf]

/-! ### The order of TOPK (R164) -/

theorem topBefore_spec (p q : Nat) (v w : ℝ) :
    let x := Fmt.f32.value p
    let y := Fmt.f32.value q
    (x.isNan = true → topBefore 0 p q = false) ∧ (x.isNan = false → y.isNan = true → topBefore 0 p q = true) ∧
    (Claim.Stands v x → Claim.Stands w y → (topBefore 0 p q = true ↔ w < v)) ∧
    (∀ n, x = .inf n → Claim.Stands w y → topBefore 0 p q = !n) ∧ (∀ n, Claim.Stands v x → y = .inf n → topBefore 0 p q = n) ∧
    (∀ n k, x = .inf n → y = .inf k → topBefore 0 p q = (!n && k)) ∧
    (∀ t : BitVec 3, t ≠ 0 → (topBefore t p q = true ↔ toIntW (t != 6) 32 q < toIntW (t != 6) 32 p)) := by
  intro x y
  have float : topBefore 0 p q = if x.isNan then false else if y.isNan then true else y.lt x := rfl
  have plain (hx : x.isNan = false) (hy : y.isNan = false) : topBefore 0 p q = y.lt x := by
    rw [float, if_neg (by simp [hx]), if_neg (by simp [hy])]
  refine ⟨fun nan => ?_, fun number nan => ?_, fun hx hy => ?_, fun n hx hy => ?_, fun n hx hy => ?_, fun n k hx hy => ?_, fun t nonzero => ?_⟩
  · rw [float, if_pos nan]
  · rw [float, if_neg (by simp [number]), if_pos nan]
  · rw [plain (isNan_of_stands hx) (isNan_of_stands hy)]
    exact (order_stands hy hx).1
  · rw [plain (by rw [hx]; rfl) (isNan_of_stands hy), hx]
    exact ((order_stands hy hy).2.2.2 n).1
  · rw [plain (isNan_of_stands hx) (by rw [hy]; rfl), hy]
    exact ((order_stands hx hx).2.2.2 n).2.1
  · rw [plain (by rw [hx]; rfl) (by rw [hy]; rfl), hx, hy]
    cases n <;> cases k <;> rfl
  · rw [topBefore, if_neg nonzero, decide_eq_true_iff]
    rfl

/-! ### A stable sort -/

theorem insertBy_perm {α : Type} (before : α → α → Bool) (x : α) (l : List α) : (insertBy before x l).Perm (x :: l) := by
  induction l with
  | nil => exact List.Perm.refl _
  | cons y l ih =>
    rw [insertBy]
    split
    · exact List.Perm.refl _
    · exact (ih.cons y).trans (List.Perm.swap x y l)

theorem sortBy_perm {α : Type} (before : α → α → Bool) (l : List α) : (sortBy before l).Perm l := by
  induction l with
  | nil => exact List.Perm.refl _
  | cons x l ih => exact (insertBy_perm _ x _).trans (ih.cons x)

/-- What a stable sort keeps: an element comes before another, or is its equal and came first. -/
def StableBefore (before : Nat → Nat → Bool) (i j : Nat) : Prop := before i j = true ∨ (before j i = false ∧ i < j)

/-- An insertion of an element that came first keeps a list stably sorted. -/
theorem insertBy_stable {before : Nat → Nat → Bool} (asymm : ∀ i j, before i j = true → before j i = false)
    (weak : ∀ i j k, before i j = true → before i k = true ∨ before k j = true) {x : Nat} {l : List Nat}
    (sorted : l.Pairwise (StableBefore before)) (first : ∀ y ∈ l, x < y) :
    (insertBy (fun a b => !before b a) x l).Pairwise (StableBefore before) := by
  induction l with
  | nil => exact List.pairwise_singleton _ _
  | cons y l ih =>
    obtain ⟨head, tail⟩ := List.pairwise_cons.mp sorted
    rw [insertBy]
    split
    · next goes =>
      have notBefore : before y x = false := by simpa using goes
      refine List.pairwise_cons.mpr ⟨fun z hz => ?_, sorted⟩
      have less := first z hz
      cases zx : before z x with
      | false => exact .inr ⟨zx, less⟩
      | true =>
        obtain rfl | mem := List.mem_cons.mp hz
        · rw [notBefore] at zx; cases zx
        · obtain yz | ⟨zy, -⟩ := head z mem
          · obtain zy | yx := weak z x y zx
            · rw [asymm _ _ yz] at zy; cases zy
            · rw [notBefore] at yx; cases yx
          · obtain zy' | yx := weak z x y zx
            · rw [zy] at zy'; cases zy'
            · rw [notBefore] at yx; cases yx
    · next stays =>
      have isBefore : before y x = true := by simpa using stays
      refine List.pairwise_cons.mpr ⟨fun z hz => ?_, ih tail fun z hz => first z (List.mem_cons_of_mem _ hz)⟩
      obtain rfl | mem := List.mem_cons.mp ((insertBy_perm _ x l).subset hz)
      · exact .inl isBefore
      · exact head z mem

theorem sortBy_stable {before : Nat → Nat → Bool} (asymm : ∀ i j, before i j = true → before j i = false)
    (weak : ∀ i j k, before i j = true → before i k = true ∨ before k j = true) {l : List Nat} (rising : l.Pairwise (· < ·)) :
    (sortBy before l).Pairwise (StableBefore before) := by
  induction l with
  | nil => exact List.Pairwise.nil
  | cons x l ih =>
    obtain ⟨head, tail⟩ := List.pairwise_cons.mp rising
    exact insertBy_stable asymm weak (ih tail) fun y hy => head y ((sortBy_perm before l).subset hy)

/-! ### The forms -/

theorem ofNat_elem32 (v : Vec) (i : Nat) : BitVec.ofNat 32 (elem 32 v i) = lane32 v i := BitVec.ofNat_toNat _ _

/-- Integer reductions over their active elements. -/
theorem State.vredadd_int (s : State) (u : Pfx) {t : BitVec 3} (h : tyFloat t = false) (d a : BitVec 5) (f o : Bool) :
    s.vredadd u t d a f o = s.vwhole 8 d (reduceInt t o ((s.activeList u (typeN t)).map (intElem t (s.readV a))).sum) 0 := by
  rw [State.vredadd, if_neg (by simp [h]), foldl_add_eq_sum, zero_add]

/-- VRNG's element of each type (R162). -/
theorem rngElem_f32 (key : DWord) (n : Nat) :
    rngElem 0 key n = (Fmt.f32.round .rne false ((cg32 key (BitVec.ofNat 32 n)).toNat / 2 ^ 8) (-24)).1 := by
  rw [rngElem, if_pos rfl]

theorem rngElem_f64 (key : DWord) (n : Nat) :
    rngElem 1 key n = (Fmt.f64.round .rne false ((cg32 key (BitVec.ofNat 32 (n % 2 ^ 32))).toNat * 2 ^ 21 +
      (cg32 key (BitVec.ofNat 32 (n % 2 ^ 32 + 1))).toNat / 2 ^ 11) (-53)).1 := by
  rw [rngElem, if_neg (by decide), if_pos rfl]

theorem rngElem_int {t : BitVec 3} (h : 2 ≤ t) (key : DWord) (n : Nat) : rngElem t key n = (cg32 key (BitVec.ofNat 32 n)).toNat := by
  have float : t ≠ 0 ∧ t ≠ 1 := by
    constructor <;> rintro rfl <;> revert h <;> decide
  rw [rngElem, if_neg float.1, if_neg float.2]

theorem runs_vrng (u : Pfx) (t : BitVec 3) (d a : BitVec 5) :
    Claim.Runs (.vrng u t d a) (fun s => s.vmap u (typeW t) (typeN t) 3 d
      (fun i => (rngElem t s.here.nkey (elem (typeW t) (s.readV a) i), 0))) := runs_of (fun _ => rfl) fun _ => rfl

/-- Settles O24: the forms run as their effects stand, and each fold and each order has a lemma of its own. -/
theorem vectorReductionsAndSelection : Obligations.VectorReductionsAndSelection := by
  refine ⟨fun u t d a f o => ?_, fun u t d a b k => ?_, fun F mem rm o xs => ?_, fun F _ max p ps => reduceMinMax_spec F max p ps,
    fun t sat y => ?_, cg32_toNat, by decide, survives_spec, magBefore_spec, topBefore_spec,
    fun before l _ asymm weak rising => ⟨sortBy_perm before l, sortBy_stable asymm weak rising⟩⟩
  · refine ⟨fun float => ⟨runs_of (eff' := fun s => s.vredadd u t d a f o) (fun _ => rfl) fun s => if_pos float,
        runs_of (eff' := fun s => s.vredmm u t d a f true) (fun _ => rfl) fun s => if_pos float,
        runs_of (eff' := fun s => s.vredmm u t d a f false) (fun _ => rfl) fun s => if_pos float⟩,
      fun int => ⟨runs_of (eff' := fun s => s.vredadd u t d a f o) (fun _ => rfl) fun s => s.vredadd_int u int d a f o,
        runs_of (eff' := fun s => s.vredmm u t d a f true) (fun _ => rfl) fun s => ?_,
        runs_of (eff' := fun s => s.vredmm u t d a f false) (fun _ => rfl) fun s => ?_⟩⟩
    all_goals
      rw [State.vredmm, if_neg (by simp [int])]
      rfl
  · refine ⟨fun wide => ?_, ?_, ?_,
      fun valid => runs_of (eff' := fun s => s.prune u d a b k) (fun _ => rfl) fun s => ?_, runs_of (fun _ => rfl) fun _ => rfl⟩
    · simpa only [rngElem_int wide] using runs_vrng u t d a
    · have runs := runs_vrng u 0 d a
      simp only [rngElem_f32] at runs
      exact runs
    · have runs := runs_vrng u 1 d a
      simp only [rngElem_f64] at runs
      exact runs
    · simp only [ofNat_elem32]
      have kinds : k = 0 ∨ k = 1 ∨ k = 2 := by
        revert valid
        revert k
        decide
      obtain rfl | rfl | rfl := kinds <;> rfl
  · exact reduceAdd_spec (Fmt.wide_of_mem (by simp only [List.mem_cons] at mem ⊢; tauto)).1 rm o xs
  · intro w lo hi
    have least : intMin (typeSigned t) w = lo := intMin_type t w
    have most : intMax (typeSigned t) w = hi := intMax_type t w
    rw [← least, ← most]
    rfl

end Sys2Proof.Machine
end

section
/-! SUPPORT. The numerics profiles (R112 to R115): exact sums and sums of a window, special values, and the running sum of each profile. -/

namespace Sys2Proof.Machine

/-! ### Exact sums (R113) -/

theorem Dy.real_foldl_add (l : List Dy) (x : Dy) : (l.foldl Dy.add x).real = x.real + (l.map Dy.real).sum := by
  induction l generalizing x with
  | nil => simp
  | cons y l ih => rw [List.foldl_cons, ih, Dy.real_add, List.map_cons, List.sum_cons, add_assoc]

/-- The exact sum of dyadic numbers. -/
theorem Dy.real_exactSum (l : List Dy) : (l.foldl Dy.add Dy.zero).real = (l.map Dy.real).sum := by
  have zero : Dy.zero.real = 0 := Dy.real_eq_zero_iff.mpr rfl
  rw [Dy.real_foldl_add, zero, zero_add]

/-- The number with the sign and the magnitude of a dyadic number stands for it. -/
theorem stands_dy (x : Dy) : Claim.Stands x.real (.fin (decide (x.m < 0)) x.m.natAbs x.e) := by
  rw [stands_fin, x.real_sign]

theorem real_of_stands {x : ℝ} {a : Num} (h : Claim.Stands x a) : a.dy.real = x := by
  obtain ⟨n, m, e, rfl, rfl⟩ := stands_iff.mp h
  rfl

/-- Numbers that stand for reals are finite, and the reals are theirs. -/
theorem forall_stands {v : List ℝ} {l : List Num} (h : List.Forall₂ Claim.Stands v l) :
    v = l.map (fun a => a.dy.real) ∧ ∀ a ∈ l, Claim.Stands a.dy.real a := by
  induction h with
  | nil => exact ⟨rfl, nofun⟩
  | @cons x a v l first rest ih =>
    obtain ⟨same, stands⟩ := ih
    have value := real_of_stands first
    exact ⟨by rw [List.map_cons, value, same], List.forall_mem_cons.mpr ⟨value ▸ first, stands⟩⟩

/-- The exact sum of finite numbers (R113): −0 only where every term is −0. -/
theorem gsum_stands (l : List Num) :
    Claim.Stands (l.map (fun a => a.dy.real)).sum (gsum l) ∧
      ((l.map (fun a => a.dy.real)).sum = 0 → (gsum l).neg = l.all (fun t => t.isZero && t.neg)) := by
  have value := Dy.real_exactSum (l.map Num.dy)
  rw [List.map_map] at value
  have total : (l.map (fun a => a.dy.real)).sum = ((l.map Num.dy).foldl Dy.add Dy.zero).real := value.symm
  rw [total, Dy.real_eq_zero_iff, gsum]
  by_cases zero : ((l.map Num.dy).foldl Dy.add Dy.zero).m = 0
  · rw [if_pos zero, Dy.real_eq_zero_iff.mpr zero]
    exact ⟨by simp [stands_fin], fun _ => rfl⟩
  · rw [if_neg zero]
    exact ⟨stands_dy _, (absurd · zero)⟩

/-! ### Sums of a window (R113) -/

/-- The largest of some integers is one of them that none exceeds. -/
theorem maxInt_eq_some_iff {l : List Int} {e : Int} : maxInt l = some e ↔ e ∈ l ∧ ∀ x ∈ l, x ≤ e := by
  have same : maxInt l = l.max? := by cases l <;> rfl
  rw [same, List.max?_eq_some_iff]

/-- The exponent of a finite number is that of its real. -/
theorem Num.expo_eq_some_iff {n : Bool} {m : Nat} {e k : ℤ} :
    (Num.fin n m e).expo = some k ↔ (2 : ℝ) ^ k ≤ |(Num.fin n m e).dy.real| ∧ |(Num.fin n m e).dy.real| < 2 ^ (k + 1) := by
  rw [abs_real_fin, Num.expo]
  by_cases zero : m = 0
  · have := two_zpow_pos k
    simp [zero, this]
  · rw [if_neg zero, Option.some_inj, ← expOf_lt_iff zero, ← not_lt, ← expOf_lt_iff zero]
    omega

/-- A real cut to a multiple of u, towards zero. -/
noncomputable def cutTo (u r : ℝ) : ℝ := (if r < 0 then -1 else 1) * (⌊|r| / u⌋ : ℤ) * u

/-- trunc_to (Table 4.8) cuts to a multiple of 2^u, with NX where that changes the number. -/
theorem Dy.truncTo_spec (x : Dy) (u : ℤ) :
    (x.truncTo u).1.real = cutTo (2 ^ u) x.real ∧ (x.truncTo u).2 = if cutTo (2 ^ u) x.real ≠ x.real then nxF else 0 := by
  obtain ⟨y, d, size, nonneg, small, inexact, -, down⟩ :=
    roundAt_sticky (q := u) (.inl rfl : Sticky ((x.m.natAbs : ℝ) * 2 ^ x.e) x.m.natAbs x.e u) .rtz false
  have whole : (roundAt .rtz false x.m.natAbs x.e u).1 = y := down id
  have unit := two_zpow_pos u
  have signed : x.real = signOf (decide (x.m < 0)) * ((y + d) * 2 ^ u) := by rw [x.real_sign, size]
  have neg : x.real < 0 ↔ x.m < 0 := by
    simpa [Dy.real] using mul_lt_mul_iff_left₀ (b := (x.m : ℝ)) (c := 0) (two_zpow_pos x.e)
  have cut : cutTo (2 ^ u) x.real = signOf (decide (x.m < 0)) * (y * 2 ^ u) := by
    have floor : ⌊|x.real| / 2 ^ u⌋ = (y : ℤ) := by
      rw [signed, abs_signOf_mul_of_nonneg _ (by positivity), mul_div_cancel_right₀ _ unit.ne', Int.floor_eq_iff]
      push_cast
      constructor <;> linarith
    rw [cutTo, floor, if_congr neg rfl rfl, signOf, mul_assoc]
    simp
  have same : cutTo (2 ^ u) x.real ≠ x.real ↔ (roundAt .rtz false x.m.natAbs x.e u).2 = true := by
    rw [cut, signed, ne_eq, signOf_mul_inj, mul_left_inj' unit.ne', left_eq_add, inexact]
  refine ⟨?_, if_congr same.symm rfl rfl⟩
  rw [cut]
  change (((if x.m < 0 then -((roundAt .rtz false x.m.natAbs x.e u).1 : ℤ) else (roundAt .rtz false x.m.natAbs x.e u).1 : ℤ) : ℝ)) *
    2 ^ u = _
  rw [whole, signOf]
  split <;> simp [*]

/-- A window sum (R113): every term is cut to the window below the largest exponent, with NX where one changes. -/
theorem wsum_stands (w : Nat) {l : List Num} (stands : ∀ a ∈ l, Claim.Stands a.dy.real a) {e : ℤ}
    (reached : ∃ a ∈ l, (2 : ℝ) ^ e ≤ |a.dy.real|) (bounded : ∀ a ∈ l, |a.dy.real| < (2 : ℝ) ^ (e + 1)) :
    Claim.Stands (l.map (fun a => cutTo (2 ^ (e - w + 1)) a.dy.real)).sum (wsum w l).1 ∧
      (wsum w l).2 = if ∃ a ∈ l, cutTo (2 ^ (e - w + 1)) a.dy.real ≠ a.dy.real then nxF else 0 := by
  have expo {a : Num} (mem : a ∈ l) {k : ℤ} : a.expo = some k ↔ (2 : ℝ) ^ k ≤ |a.dy.real| ∧ |a.dy.real| < 2 ^ (k + 1) := by
    obtain ⟨n, m, e', rfl, -⟩ := stands_iff.mp (stands a mem)
    exact Num.expo_eq_some_iff
  have largest : maxInt (l.filterMap Num.expo) = some e := by
    rw [maxInt_eq_some_iff]
    refine ⟨?_, fun k mem => ?_⟩
    · obtain ⟨a, mem, low⟩ := reached
      exact List.mem_filterMap.mpr ⟨a, mem, (expo mem).mpr ⟨low, bounded a mem⟩⟩
    · obtain ⟨a, mem, isExpo⟩ := List.mem_filterMap.mp mem
      have := two_zpow_lt.mp (((expo mem).mp isExpo).1.trans_lt (bounded a mem))
      omega
  have cut (a : Num) := a.dy.truncTo_spec (e - w + 1)
  simp only [wsum, largest]
  constructor
  · have value := Dy.real_exactSum ((l.map (fun a => a.dy.truncTo (e - w + 1))).map Prod.fst)
    rw [List.map_map, List.map_map] at value
    have terms : (Dy.real ∘ Prod.fst ∘ fun a : Num => a.dy.truncTo (e - w + 1)) = fun a => cutTo (2 ^ (e - w + 1)) a.dy.real :=
      funext fun a => (cut a).1
    rw [terms] at value
    rw [← value, List.map_map]
    exact stands_dy _
  · have flags : (Prod.snd ∘ fun a : Num => a.dy.truncTo (e - w + 1)) =
        fun a => if decide (cutTo (2 ^ (e - w + 1)) a.dy.real ≠ a.dy.real) = true then nxF else 0 :=
      funext fun a => ((cut a).2).trans (if_congr (decide_eq_true_iff).symm rfl rfl)
    rw [List.map_map, flags, orAll_single]
    simp only [decide_eq_true_iff]

/-- A window sum of zeros is their exact sum. -/
theorem wsum_zero (w : Nat) {l : List Num} (stands : ∀ a ∈ l, Claim.Stands a.dy.real a) (zero : ∀ a ∈ l, a.dy.real = 0) :
    wsum w l = (gsum l, 0) := by
  have none : l.filterMap Num.expo = [] := by
    refine List.filterMap_eq_nil_iff.mpr fun a mem => ?_
    obtain ⟨n, m, e, rfl, -⟩ := stands_iff.mp (stands a mem)
    exact if_pos (real_fin_eq_zero_iff.mp (zero _ mem))
  simp only [wsum, none, maxInt]

/-! ### Special values (R112) -/

/-- The exact products of the factors that are no NaN. -/
def wholeProducts (ps : List (Num × Num)) : List Num :=
  (ps.filter (fun p => !p.1.isNan && !p.2.isNan)).filterMap (fun p => p.1.prod p.2)

/-- A sum of products is invalid: it holds 0 × ∞, or infinities of both signs (R112). -/
def InvalidSum (c : Num) (ps : List (Num × Num)) : Prop :=
  (∃ p ∈ ps, p.1.isNan = false ∧ p.2.isNan = false ∧ p.1.prod p.2 = none) ∨
    (∃ x ∈ c :: wholeProducts ps, x = .inf true) ∧ (∃ x ∈ c :: wholeProducts ps, x = .inf false)

/-- The accumulator, then the factors. -/
def sumOperands (c : Num) (ps : List (Num × Num)) : List Num := c :: (ps.map Prod.fst ++ ps.map Prod.snd)

/-- The infinities among the accumulator and the products. -/
def sumInfinities (c : Num) (ps : List (Num × Num)) : List Num :=
  ((if c.isNan then [] else [c]) ++ wholeProducts ps).filter Num.isInf

theorem mem_sumInfinities {c : Num} {ps : List (Num × Num)} {x : Num} :
    x ∈ sumInfinities c ps ↔ x.isInf = true ∧ x ∈ c :: wholeProducts ps := by
  rw [sumInfinities, List.mem_filter, and_comm, and_congr_right_iff]
  intro inf
  rw [List.mem_append, List.mem_cons, or_congr_left]
  split
  · next nan =>
    refine iff_of_false List.not_mem_nil ?_
    rintro rfl
    cases x with
    | nan s => cases inf
    | inf n => cases nan
    | fin n m e => cases nan
  · exact List.mem_singleton

theorem isInf_iff {x : Num} : x.isInf = true ↔ x = .inf x.neg := by cases x <;> simp [Num.isInf, Num.neg]

/-- The infinities of one sign. -/
theorem exists_sumInfinities {c : Num} {ps : List (Num × Num)} (n : Bool) :
    (∃ x ∈ sumInfinities c ps, x.neg = n) ↔ ∃ x ∈ c :: wholeProducts ps, x = .inf n := by
  constructor
  · rintro ⟨x, mem, rfl⟩
    obtain ⟨inf, mem⟩ := mem_sumInfinities.mp mem
    exact ⟨x, mem, isInf_iff.mp inf⟩
  · rintro ⟨_, mem, rfl⟩
    exact ⟨_, mem_sumInfinities.mpr ⟨rfl, mem⟩, rfl⟩

/-- The conditions of `specialResult`, as it computes them. -/
def invalidSum (c : Num) (ps : List (Num × Num)) : Bool :=
  (ps.filter (fun p => !p.1.isNan && !p.2.isNan)).any (fun p => (p.1.prod p.2).isNone) ||
    ((sumInfinities c ps).any Num.neg && (sumInfinities c ps).any (fun x => !x.neg))

theorem invalidSum_iff (c : Num) (ps : List (Num × Num)) : invalidSum c ps = true ↔ InvalidSum c ps := by
  rw [invalidSum, Bool.or_eq_true, Bool.and_eq_true, InvalidSum, List.any_eq_true, List.any_eq_true, List.any_eq_true,
    ← exists_sumInfinities, ← exists_sumInfinities]
  simp only [List.mem_filter, Bool.and_eq_true, Bool.not_eq_true', Option.isNone_iff_eq_none, and_assoc]

/-- A NaN or an invalid sum gives the canonical NaN, with NV for a signalling NaN or an invalid sum (R112). -/
theorem multiplyElem_nan (np : Nat) (F : Fmt) (rm : Rm) (o : Bool) (w : Nat) {c : Num} {ps : List (Num × Num)}
    (special : (∃ x ∈ sumOperands c ps, x.isNan = true) ∨ InvalidSum c ps) :
    multiplyElem np F rm o w c ps = (F.canon, if (sumOperands c ps).any Num.isSnan || invalidSum c ps then nvF else 0) := by
  have nan : ((sumOperands c ps).any Num.isNan || invalidSum c ps) = true := by
    rwa [Bool.or_eq_true, invalidSum_iff, List.any_eq_true]
  have settled : specialResult F c ps = some (F.canon, if (sumOperands c ps).any Num.isSnan || invalidSum c ps then nvF else 0) := by
    unfold invalidSum at nan ⊢
    rw [← Bool.or_assoc] at nan ⊢
    exact if_pos nan
  rw [multiplyElem, settled]

section
variable {F : Fmt} {c : Num} {ps : List (Num × Num)} (plain : ∀ x ∈ sumOperands c ps, x.isNan = false)
  (valid : ¬ InvalidSum c ps)
include plain

/-- Where no factor is a NaN, every product counts. -/
theorem wholeProducts_eq : wholeProducts ps = ps.filterMap (fun p => p.1.prod p.2) := by
  refine congrArg (List.filterMap _) (List.filter_eq_self.mpr fun p mem => ?_)
  have first := plain p.1 (List.mem_cons_of_mem _ (List.mem_append_left _ (List.mem_map_of_mem mem)))
  have second := plain p.2 (List.mem_cons_of_mem _ (List.mem_append_right _ (List.mem_map_of_mem mem)))
  simp [first, second]

include valid

/-- Where there is no NaN and the sum is valid, an infinity settles it (R112). -/
theorem specialResult_plain : specialResult F c ps = (sumInfinities c ps).head?.map (fun x => (F.inf x.neg, 0)) := by
  have none : ¬ ((sumOperands c ps).any Num.isNan || invalidSum c ps) = true := by
    rw [Bool.or_eq_true, invalidSum_iff, List.any_eq_true]
    rintro (⟨x, mem, nan⟩ | invalid)
    · rw [plain x mem] at nan
      cases nan
    · exact valid invalid
  unfold invalidSum at none
  rw [← Bool.or_assoc] at none
  refine (if_neg none).trans ?_
  show (match sumInfinities c ps with | x :: _ => _ | [] => _) = _
  cases sumInfinities c ps <;> rfl

/-- An infinite accumulator or product is the result (R112). -/
theorem multiplyElem_inf (np : Nat) (rm : Rm) (o : Bool) (w : Nat) {b : Bool}
    (inf : .inf b ∈ c :: ps.filterMap (fun p => p.1.prod p.2)) : multiplyElem np F rm o w c ps = (F.inf b, 0) := by
  rw [← wholeProducts_eq plain] at inf
  have among := mem_sumInfinities.mpr ⟨rfl, inf⟩
  have sign : ∀ x ∈ sumInfinities c ps, x.neg = b := by
    intro x mem
    by_contra other
    have both : ∀ n, ∃ y ∈ sumInfinities c ps, y.neg = n := by
      intro n
      obtain rfl | differs := eq_or_ne n b
      · exact ⟨_, among, rfl⟩
      · exact ⟨x, mem, by revert other differs; cases x.neg <;> cases n <;> cases b <;> simp⟩
    exact valid (.inr ⟨(exists_sumInfinities true).mp (both true), (exists_sumInfinities false).mp (both false)⟩)
  have settled : specialResult F c ps = some (F.inf b, 0) := by
    rw [specialResult_plain plain valid]
    cases infs : sumInfinities c ps with
    | nil => rw [infs] at among; cases among
    | cons x xs => rw [List.head?_cons, Option.map_some, sign x (infs ▸ List.mem_cons_self)]
  rw [multiplyElem, settled]

/-- Where the accumulator and every product are finite, the profile adds them (R112). -/
theorem multiplyElem_finite (np : Nat) (rm : Rm) (o : Bool) (w : Nat)
    (finite : ∀ x ∈ c :: ps.filterMap (fun p => p.1.prod p.2), ∃ b m e, x = .fin b m e) :
    multiplyElem np F rm o w c ps = profileSum np F rm o w c (ps.filterMap (fun p => p.1.prod p.2)) := by
  rw [← wholeProducts_eq plain] at finite
  have noInf : sumInfinities c ps = [] := by
    refine List.eq_nil_iff_forall_not_mem.mpr fun x mem => ?_
    obtain ⟨inf, mem⟩ := mem_sumInfinities.mp mem
    obtain ⟨b, m, e, rfl⟩ := finite x mem
    cases inf
  have settled : specialResult F c ps = none := by rw [specialResult_plain plain valid, noInf]; rfl
  rw [multiplyElem, settled]

end

/-! ### The running sum of a profile (R113, R115) -/

/-- One addition to the accumulator, with the flags of its term. -/
def addTerm (F : Fmt) (rm : Rm) (o : Bool) (r : Nat × Flags) (t : Num × Flags) : Nat × Flags :=
  ((F.flushOut o (F.fpAdd rm (F.value r.1) t.1)).1, r.2 ||| (F.flushOut o (F.fpAdd rm (F.value r.1) t.1)).2 ||| t.2)

/-- The accumulator that a profile starts from. -/
def firstSum (F : Fmt) (c : Num) : Nat × Flags := ((F.roundDy .rne c.dy c.neg).1, 0)

/-- Group i of n terms. -/
def termGroup (ts : List Num) (n i : Nat) : List Num := (ts.drop (n * i)).take n

theorem map_groupsOf {α : Type} (f : List Num → α) (n : Nat) (ts : List Num) :
    (groupsOf n ts).map f = (List.range (ts.length / n)).map (fun i => f (termGroup ts n i)) := by
  rw [groupsOf, List.map_map]
  refine List.map_congr_left fun i _ => ?_
  rw [Function.comp_apply, termGroup, Nat.mul_comm]

/-- Terms without flags of their own. -/
theorem foldl_accumulate (F : Fmt) (rm : Rm) (o : Bool) (r : Nat × Flags) (l : List Num) :
    l.foldl (accumulate F rm o) r = (l.map (fun t => (t, 0))).foldl (addTerm F rm o) r := by
  have one : accumulate F rm o = fun r t => addTerm F rm o r (t, 0) := by
    funext r t
    exact Prod.ext rfl BitVec.or_zero.symm
  rw [List.foldl_map, one]

section
variable (F : Fmt) (rm : Rm) (o : Bool) (w : Nat) (c : Num) (ts : List Num)

/-- NP0 adds one product at a time, NP1 exact sums of 4 (Table 4.9). -/
theorem profileSum_exact :
    profileSum 0 F rm o w c ts = (ts.map (fun t => (t, 0))).foldl (addTerm F rm o) (firstSum F c) ∧
      profileSum 1 F rm o w c ts =
        ((List.range (ts.length / 4)).map (fun i => (gsum (termGroup ts 4 i), 0))).foldl (addTerm F rm o) (firstSum F c) := by
  refine ⟨foldl_accumulate F rm o _ _, (foldl_accumulate F rm o _ _).trans ?_⟩
  rw [map_groupsOf, List.map_map]
  rfl

/-- NP2, NP3 and NP4 add sums of a window, those of NP3 and NP4 rounded before they are added (Table 4.9). -/
theorem profileSum_window :
    profileSum 2 F rm o w c ts =
        ((List.range (ts.length / 8)).map (fun i => wsum w (termGroup ts 8 i))).foldl (addTerm F rm o) (firstSum F c) ∧
      profileSum 3 F rm o w c ts = ((List.range (ts.length / 8)).map (fun i =>
        roundSum Fmt.f32 rm o (wsum w (termGroup ts 8 i)))).foldl (addTerm F rm o) (firstSum F c) ∧
      profileSum 4 F rm o w c ts = ((List.range (ts.length / 16)).map (fun i =>
        roundSum F rm o (wsum w (termGroup ts 16 i)))).foldl (addTerm F rm o) (firstSum F c) := by
  refine ⟨?_, ?_, ?_⟩
  · rw [← map_groupsOf (wsum w)]
    rfl
  · rw [← map_groupsOf (fun g => roundSum Fmt.f32 rm o (wsum w g))]
    rfl
  · rw [← map_groupsOf (fun g => roundSum F rm o (wsum w g))]
    rfl

/-- NP6 adds exact sums of 32, rounded RNE and not flushed (R115). -/
theorem profileSum_np6 :
    profileSum 6 F rm o w c ts = ((List.range (ts.length / 32)).map (fun i => gsum (termGroup ts 32 i))).foldl
      (fun r t => ((F.fpAdd .rne (F.value r.1) t).1, r.2 ||| (F.fpAdd .rne (F.value r.1) t).2)) (firstSum F c) := by
  rw [← map_groupsOf]
  rfl

end

/-- What an addition to the accumulator, and a rounding, give (Table 4.8). -/
theorem fpAdd_spec {F : Fmt} (h : 2 ≤ F.e) (rm : Rm) {a b : Num} {x y : ℝ} (ha : Claim.Stands x a) (hb : Claim.Stands y b) :
    (x + y ≠ 0 → Claim.Rounded F rm (x + y) (F.fpAdd rm a b)) ∧
      (x + y = 0 → F.fpAdd rm a b = (F.zero (if a.isZero ∧ a.neg = b.neg then a.neg else rm == .rdn), 0)) ∧
      (x ≠ 0 → Claim.Rounded F rm x (F.roundDy rm a.dy a.neg)) ∧ (x = 0 → F.roundDy rm a.dy a.neg = (F.zero a.neg, 0)) := by
  obtain ⟨rounded, zero⟩ := F.sum_stands h rm ha hb
  obtain ⟨n, m, e, rfl, rfl⟩ := stands_iff.mp ha
  exact ⟨rounded, zero, F.rounded_roundDy h rm n, F.roundDy_zero rm n⟩

end Sys2Proof.Machine
end

section
/-! SUPPORT. The operands of a multiply by their dense positions (R195, R209, R225), and the pattern words that make it fault. -/

namespace Sys2Proof.Machine

/-! ### Rows by dense positions (R225) -/

/-- The stored element of row i at dense position κ: of a sparse A the one at the kept position, where there is one. -/
def State.column (s : State) (n : Nat) (d : Descr) (i κ : Nat) : Option Nat :=
  if d.spk = 0 then some κ else
    (((keptAt d.kind (groupNumber d.kind (s.patternAt n d ((i * d.dense + κ) / 32)) ((i * d.dense + κ) % 32 / (keptOf d.spk).2))).getD
      []).findIdx? (fun p => p == κ % (keptOf d.spk).2)).map (fun p => κ / (keptOf d.spk).2 * (keptOf d.spk).1 + p)

theorem keptOf_pos (spk : Nat) : 0 < (keptOf spk).1 ∧ 0 < (keptOf spk).2 := by
  unfold keptOf
  split <;> decide

theorem Descr.dense_eq {d : Descr} (whole : d.cols % (keptOf d.spk).1 = 0) :
    d.dense = d.cols / (keptOf d.spk).1 * (keptOf d.spk).2 := by
  rw [Descr.dense, Nat.div_mul_right_comm (Nat.dvd_of_mod_eq_zero whole)]

theorem length_unrank (g m N : Nat) : (unrank g m N).length = m := by
  induction m generalizing N with
  | zero => rfl
  | succ m ih => rw [unrank, List.length_append, ih, List.length_singleton]

/-- A pattern of the kind of SPK keeps as many positions as Table 8.6 says. -/
theorem length_keptAt {d : Descr} (sparse : d.spk ≠ 0) (small : d.spk < 4) {N : Nat} {cs : List Nat}
    (kept : keptAt d.kind N = some cs) : cs.length = (keptOf d.spk).1 := by
  have shape : (kindShape d.kind).1 = (keptOf d.spk).1 := by
    rw [Descr.kind]
    obtain h | h | h : d.spk = 1 ∨ d.spk = 2 ∨ d.spk = 3 := by omega
    all_goals
      rw [h]
      decide
  have whole : (if N < (kindShape d.kind).2.2.2 then some (unrank (kindShape d.kind).2.1 (kindShape d.kind).1 N) else none) = some cs :=
    kept
  split at whole
  · rw [← Option.some_inj.mp whole, length_unrank, shape]
  · cases whole

/-- The position of a stored element lies in its row. -/
theorem State.column_lt {s : State} {n i κ q : Nat} {d : Descr} (small : d.spk < 4) (whole : d.cols % (keptOf d.spk).1 = 0)
    (inside : κ < d.dense) (column : s.column n d i κ = some q) : q < d.cols := by
  rw [State.column] at column
  have dense := Descr.dense_eq whole
  obtain ⟨keeps, group⟩ := keptOf_pos d.spk
  split at column
  · next plain =>
    obtain rfl := Option.some_inj.mp column
    rw [dense, plain, show keptOf 0 = (1, 1) from rfl] at inside
    simpa using inside
  · next sparse =>
    obtain ⟨p, index, rfl⟩ := Option.map_eq_some_iff.mp column
    have place := (List.findIdx?_eq_some_iff_getElem.mp index).1
    have below : p < (keptOf d.spk).1 := by
      cases kept : keptAt d.kind (groupNumber d.kind (s.patternAt n d ((i * d.dense + κ) / 32))
          ((i * d.dense + κ) % 32 / (keptOf d.spk).2)) with
      | none => rw [kept] at place; cases place
      | some cs => rwa [kept, Option.getD_some, length_keptAt sparse small kept] at place
    have block : κ / (keptOf d.spk).2 + 1 ≤ d.cols / (keptOf d.spk).1 := (Nat.div_lt_iff_lt_mul group).mpr (dense ▸ inside)
    calc κ / (keptOf d.spk).2 * (keptOf d.spk).1 + p < (κ / (keptOf d.spk).2 + 1) * (keptOf d.spk).1 := by rw [Nat.succ_mul]; omega
      _ ≤ d.cols / (keptOf d.spk).1 * (keptOf d.spk).1 := Nat.mul_le_mul_right _ block
      _ ≤ d.cols := Nat.div_mul_le_self _ _

/-- Rows of g elements one after another. -/
theorem flatten_range {α : Type} (f : Nat → Nat → α) (a : Nat) {g : Nat} (pos : 0 < g) :
    ((List.range a).map (fun j => (List.range g).map (f j))).flatten = (List.range (a * g)).map (fun κ => f (κ / g) (κ % g)) := by
  induction a with
  | zero => rw [Nat.zero_mul]; rfl
  | succ a ih =>
    rw [List.range_succ, List.map_append, List.flatten_append, ih, Nat.succ_mul, List.range_add, List.map_append, List.map_map,
      List.map_singleton, List.flatten_singleton]
    congr 1
    refine List.map_congr_left fun p mem => ?_
    have small := List.mem_range.mp mem
    rw [Function.comp_apply, Nat.mul_comm, Nat.mul_add_div pos, Nat.mul_add_mod, Nat.div_eq_of_lt small, Nat.mod_eq_of_lt small,
      Nat.add_zero]

/-- The pattern words of a row by the dense positions that they hold. -/
theorem Descr.getD_rowWords {α : Type} {d : Descr} {i κ : Nat} (inside : κ < d.dense) (f : Nat → α) (z : α) :
    ((d.rowWords i).map f).toArray.getD ((i * d.dense + κ) / 32 - i * d.dense / 32) z = f ((i * d.dense + κ) / 32) := by
  have low : i * d.dense / 32 ≤ (i * d.dense + κ) / 32 := Nat.div_le_div_right (by omega)
  have high : (i * d.dense + κ) / 32 ≤ (i * d.dense + d.dense - 1) / 32 := Nat.div_le_div_right (by omega)
  rw [Descr.rowWords, if_neg (by omega), List.map_map]
  have place : (i * d.dense + κ) / 32 - i * d.dense / 32 < (i * d.dense + d.dense - 1) / 32 - i * d.dense / 32 + 1 := by omega
  simp only [Array.getD_eq_getD_getElem?, List.getElem?_toArray, List.getElem?_map, List.getElem?_range place, Option.map_some,
    Option.getD_some, Function.comp_apply, Nat.add_sub_cancel' low]

/-- The dense positions of one group have one pattern word and one group of it. -/
theorem group_place {g : Nat} (divides : g = 4 ∨ g = 8) (t κ : Nat) :
    (t * g + κ / g * g) / 32 = (t * g + κ) / 32 ∧ (t * g + κ / g * g) % 32 / g = (t * g + κ) % 32 / g := by
  obtain rfl | rfl := divides <;> omega

/-- Position p of group j of a sparse row, with the pattern word at the group's first dense position. -/
def State.groupCell (s : State) (n : Nat) (d : Descr) (i : Nat) (stored : List Num) (j p : Nat) : Num :=
  let at_ := i * d.dense + j * (keptOf d.spk).2
  let word := ((d.rowWords i).map (s.patternAt n d)).toArray.getD (at_ / 32 - i * d.dense / 32) 0
  match ((keptAt d.kind (groupNumber d.kind word (at_ % 32 / (keptOf d.spk).2))).getD []).findIdx? (fun q => q == p) with
  | some m => stored.toArray.getD (j * (keptOf d.spk).1 + m) (.fin false 0 0)
  | none => .fin false 0 0

theorem State.expandRow_groups (s : State) (n i : Nat) (d : Descr) (stored : List Num) :
    s.expandRow n d i stored = ((List.range (d.cols / (keptOf d.spk).1)).map (fun j =>
      (List.range (keptOf d.spk).2).map (s.groupCell n d i stored j))).flatten := rfl

/-- A sparse row by its dense positions: a stored element at its kept position, +0 elsewhere (R225). -/
theorem State.expandRow_eq (s : State) (n i : Nat) {d : Descr} (sparse : d.spk ≠ 0) (small : d.spk < 4)
    (whole : d.cols % (keptOf d.spk).1 = 0) (stored : List Num) :
    s.expandRow n d i stored =
      (List.range d.dense).map (fun κ => (s.column n d i κ).elim (.fin false 0 0) (fun q => stored.getD q (.fin false 0 0))) := by
  have dense := Descr.dense_eq whole
  have group : (keptOf d.spk).2 = 4 ∨ (keptOf d.spk).2 = 8 := by
    obtain h | h | h : d.spk = 1 ∨ d.spk = 2 ∨ d.spk = 3 := by omega
    all_goals
      rw [h]
      decide
  rw [State.expandRow_groups, flatten_range _ _ (keptOf_pos d.spk).2, ← dense]
  refine List.map_congr_left fun κ mem => ?_
  have inside := List.mem_range.mp mem
  have start : κ / (keptOf d.spk).2 * (keptOf d.spk).2 < d.dense := (Nat.div_mul_le_self _ _).trans_lt inside
  have multiple : i * d.dense = i * (d.cols / (keptOf d.spk).1) * (keptOf d.spk).2 := by rw [dense, Nat.mul_assoc]
  obtain ⟨word, place⟩ := group_place group (i * (d.cols / (keptOf d.spk).1)) κ
  rw [← multiple] at word place
  rw [State.groupCell, Descr.getD_rowWords start, word, place, State.column, if_neg sparse]
  cases List.findIdx? (fun p => p == κ % (keptOf d.spk).2) _ with
  | none => rfl
  | some p => simp

/-- A row by its dense positions, dense or sparse. -/
theorem State.denseRow_eq (s : State) (n i : Nat) {d : Descr} (small : d.spk < 4) (whole : d.cols % (keptOf d.spk).1 = 0)
    (f : Nat → Num) :
    (if d.spk = 0 then (List.range d.cols).map f else s.expandRow n d i ((List.range d.cols).map f)) =
      (List.range d.dense).map (fun κ => (s.column n d i κ).elim (.fin false 0 0) f) := by
  split
  · next plain =>
    have dense : d.dense = d.cols := by rw [Descr.dense, plain]; simp [keptOf]
    rw [dense]
    refine List.map_congr_left fun κ _ => ?_
    rw [State.column, if_pos plain, Option.elim_some]
  · next sparse =>
    rw [s.expandRow_eq n i sparse small whole]
    refine List.map_congr_left fun κ mem => ?_
    cases column : s.column n d i κ with
    | none => rfl
    | some q =>
      have := State.column_lt small whole (List.mem_range.mp mem) column
      simp [this]

/-! ### Bad pattern words (R225) -/

/-- An active row has a dense position whose pattern word is bad. -/
def State.BadPattern (s : State) (n : Nat) (d : Descr) (act : Nat → Bool) : Prop :=
  ∃ i < d.rows, act i = true ∧ d.spk ≠ 0 ∧ ∃ κ < d.dense, patternBad d.kind (s.patternAt n d ((i * d.dense + κ) / 32)) = true

theorem State.badPattern_iff (s : State) (n : Nat) (d : Descr) (act : Nat → Bool) :
    s.BadPattern n d act ↔ d.spk ≠ 0 ∧ d.dense ≠ 0 ∧ ∃ i < d.rows, s.PatternOdd n d act i := by
  constructor
  · rintro ⟨i, row, active, sparse, κ, inside, bad⟩
    exact ⟨sparse, by omega, i, row, active, _, Nat.div_le_div_right (by omega), Nat.div_le_div_right (by omega), bad⟩
  · rintro ⟨sparse, dense, i, row, active, w, low, high, bad⟩
    refine ⟨i, row, active, sparse, 32 * w - i * d.dense, by omega, ?_⟩
    rwa [show (i * d.dense + (32 * w - i * d.dense)) / 32 = w by omega]

theorem State.patternFault_of_bad {s : State} {n : Nat} {d : Descr} {act : Nat → Bool} (bad : s.BadPattern n d act) (dn : Nat) :
    s.patternFault n d dn act = some (causeSppat, spDetail dn d.cb 0) := by
  obtain ⟨sparse, dense, odd⟩ := (s.badPattern_iff n d act).mp bad
  exact State.patternFault_odd sparse dense dn odd

theorem State.patternFault_of_not_bad {s : State} {n : Nat} {d : Descr} {act : Nat → Bool} (good : ¬ s.BadPattern n d act) (dn : Nat) :
    s.patternFault n d dn act = none := by
  by_cases plain : d.spk = 0
  · exact State.patternFault_none plain dn act
  by_cases empty : d.dense = 0
  · have none (i : Nat) : d.rowWords i = [] := if_pos empty
    simp [State.patternFault, none]
  · exact State.patternFault_even plain empty dn fun i row odd => good ((s.badPattern_iff n d act).mpr ⟨plain, empty, i, row, odd⟩)

/-! ### Elements of lists and tiles -/

theorem getD_map_range {α : Type} (f : Nat → α) (z : α) {n i : Nat} (inside : i < n) : ((List.range n).map f).toArray.getD i z = f i := by
  simp [inside]

/-- A tile of 256 results. -/
theorem Tile.el_of_results (f : Nat → DWord) {i j : Nat} (hi : i < 16) (hj : j < 16) :
    (Tile.of (fun i j => ((List.range 256).map f).toArray.getD (16 * i + j) 0)).el i j = f (16 * i + j) := by
  rw [Tile.el_of _ hi hj, getD_map_range f 0 (by omega)]

theorem element_place {i j : Nat} (hj : j < 16) : (16 * i + j) / 16 = i ∧ (16 * i + j) % 16 = j := by omega

/-- A floating-point multiply leaves in the active rows the elements of R112 over the rows and columns of its operands, and raises the
flags of these elements (R223). -/
theorem multiplyTile_spec {np : Nat} {F : Fmt} {rm : Rm} {ftzi ftzo z : Bool} {w : Nat} {act : Nat → Bool} {old : Tile} {o : Operands}
    {r : Nat → Nat → Nat × Flags} (each : ∀ i < 16, ∀ j < 16, act i = true →
      multiplyElem np F rm ftzo w (if z then .fin false 0 0 else F.operand ftzi (accPattern F (old.el i j)))
        ((o.rows.getD i []).zip (o.cols.getD j [])) = r i j) :
    (∀ i < 16, ∀ j < 16, (multiplyTile np F rm ftzi ftzo z w act old o).1.el i j =
      if act i then BitVec.ofNat 64 (r i j).1 else old.el i j) ∧
    (multiplyTile np F rm ftzi ftzo z w act old o).2 =
      orAll ((List.range 256).map (fun q => if act (q / 16) then (r (q / 16) (q % 16)).2 else 0)) := by
  constructor
  · intro i hi j hj
    obtain ⟨row, col⟩ := element_place (i := i) hj
    simp only [multiplyTile, List.map_map]
    rw [Tile.el_of_results _ hi hj, Function.comp_apply, row, col]
    cases active : act i with
    | true => rw [if_pos rfl, if_pos rfl, ← each i hi j hj active]
    | false => rfl
  · simp only [multiplyTile, List.map_map]
    refine congrArg orAll (List.map_congr_left fun q mem => ?_)
    have inside := List.mem_range.mp mem
    rw [Function.comp_apply]
    cases active : act (q / 16) with
    | true => rw [if_pos rfl, if_pos rfl, ← each _ (by omega) _ (Nat.mod_lt _ (by omega)) active]
    | false => rfl

/-! ### Operands of MMA and MMA.S -/

/-- The stored pattern of a row and column. -/
def State.storedAt (s : State) (n : Nat) (d : Descr) (r c : Nat) : Nat :=
  s.readNat (s.regionRow n d r + c * unitBytes d.fmt) (unitBytes d.fmt)

theorem State.map_regionPatterns {α : Type} (s : State) (n : Nat) (d : Descr) (r : Nat) (f : Nat → α) :
    (s.regionPatterns n d r).map f = (List.range d.cols).map (fun c => f (s.storedAt n d r c)) := List.map_map

theorem State.getD_regionPatterns {α : Type} (s : State) (n : Nat) {d : Descr} (r : Nat) (f : Nat → α) (z : α) {c : Nat}
    (inside : c < d.cols) : ((s.regionPatterns n d r).map f).toArray.getD c z = f (s.storedAt n d r c) := by
  rw [s.map_regionPatterns, getD_map_range _ _ inside]

section
variable (s : State) (n : Nat) (a : ArrayOp) {i j : Nat}

/-- An active row of A by its dense positions. -/
theorem State.plainOperands_row (fi : Bool) (hi : i < 16) (active : a.row i = true) (small : (Descr.of a.da).spk < 4)
    (whole : (Descr.of a.da).cols % (keptOf (Descr.of a.da).spk).1 = 0) :
    (s.plainOperands n a fi).rows.getD i [] = (List.range (Descr.of a.da).dense).map (fun κ =>
      (s.column n (Descr.of a.da) i κ).elim (.fin false 0 0) (fun q =>
        (fmtOfCode (Descr.of a.da).fmt).operand fi (s.storedAt n (Descr.of a.da) i q))) := by
  refine (getD_map_range _ _ hi).trans ((if_pos active).trans ?_)
  rw [s.map_regionPatterns]
  exact s.denseRow_eq n i small whole _

/-- A column of B. -/
theorem State.plainOperands_col (fi : Bool) (hj : j < 16) (cols : (Descr.of a.db).cols = 16) :
    (s.plainOperands n a fi).cols.getD j [] = (List.range (Descr.of a.db).rows).map (fun κ =>
      (fmtOfCode (Descr.of a.da).fmt).operand fi (s.storedAt n (Descr.of a.db) κ j)) := by
  refine (getD_map_range _ _ hj).trans ?_
  rw [List.map_map]
  exact List.map_congr_left fun κ _ => s.getD_regionPatterns n κ _ _ (cols ▸ hj)

/-! ### Operands of MMA.K4 (R200) -/

/-- The value of the element of a row and column of a K4 tile (R200). -/
def State.k4At (s : State) (x : Ctx) (n : Nat) (d : Descr) (act : BitVec 32) (b : Bool) (r c : Nat) : Num :=
  let p := if b then c * d.rows + r else r * d.cols + c
  let es := s.k4Entries n ⟨d, 0, b, act⟩
  let e := (s.byte (s.ownKey n (d.metaAddr + p / 32))).toNat
  let code := (s.byte (s.regionRow n d r + c / 2)).toNat / (if c % 2 = 1 then 16 else 1) % 16
  if e = 0 then .fin false 0 0 else if e = 255 then .nan false
  else if (x.book d.cb).esc.getLsbD code then
    (match spallValue es p with | some v => (Fmt.f32.value v).scale ((e : Int) - 127) | none => .fin false 0 0)
  else ((x.book d.cb).value code).scale ((e : Int) - 127)

theorem Codebook.getD_element (b : Codebook) (e c : Nat) (val : Option Nat) (z : Num) : (b.element e c val).getD z =
    if e = 0 then .fin false 0 0 else if e = 255 then .nan false
    else if b.esc.getLsbD c then val.elim z (fun v => (Fmt.f32.value v).scale ((e : Int) - 127))
    else (b.value c).scale ((e : Int) - 127) := by
  rw [Codebook.element]
  split
  · rfl
  split
  · rfl
  split
  · cases val <;> rfl
  · rfl

theorem K4.at_pos {t : K4} {r c : Nat} (inside : if t.b then r < t.d.rows else c < t.d.cols) : t.at (t.pos r c) = (r, c) := by
  rw [K4.at, K4.pos]
  split at inside
  · next b =>
    rw [if_pos b, if_pos b, Nat.mul_comm, Nat.mul_add_mod, Nat.mod_eq_of_lt inside, Nat.mul_add_div (by omega),
      Nat.div_eq_of_lt inside, Nat.add_zero]
  · next b =>
    rw [if_neg b, if_neg b, Nat.mul_comm, Nat.mul_add_mod, Nat.mod_eq_of_lt inside, Nat.mul_add_div (by omega),
      Nat.div_eq_of_lt inside, Nat.add_zero]

theorem State.k4Value_pos (x : Ctx) (act : BitVec 32) {t : K4} {r c : Nat} (inside : if t.b then r < t.d.rows else c < t.d.cols) :
    s.k4Value x n t (s.k4Entries n t) (t.pos r c) = s.k4At x n t.d act t.b r c := by
  have entries : s.k4Entries n t = s.k4Entries n ⟨t.d, 0, t.b, act⟩ := rfl
  have code : s.k4Code n t (t.pos r c) = (s.byte (s.regionRow n t.d r + c / 2)).toNat / (if c % 2 = 1 then 16 else 1) % 16 := by
    rw [State.k4Code, State.k4CodeKey, K4.at_pos inside]
  rw [State.k4Value, code, entries, Codebook.getD_element]
  simp only [State.k4At]
  cases value : spallValue (s.k4Entries n ⟨t.d, 0, t.b, act⟩) (t.pos r c) with
  | none =>
    rw [show spallValue (s.k4Entries n ⟨t.d, 0, t.b, act⟩) (if t.b then c * t.d.rows + r else r * t.d.cols + c) = none from value]
    rfl
  | some v =>
    rw [show spallValue (s.k4Entries n ⟨t.d, 0, t.b, act⟩) (if t.b then c * t.d.rows + r else r * t.d.cols + c) = some v from value]
    rfl

variable (x : Ctx) (da db : BitVec 4)

/-- An active row of a K4 A by its dense positions. -/
theorem State.k4Operands_row (hi : i < 16) (active : a.row i = true) (small : (Descr.of a.da).spk < 4)
    (whole : (Descr.of a.da).cols % (keptOf (Descr.of a.da).spk).1 = 0) :
    (s.k4Operands x n a (a.k4A da) (a.k4B db)).rows.getD i [] = (List.range (Descr.of a.da).dense).map (fun κ =>
      (s.column n (Descr.of a.da) i κ).elim (.fin false 0 0) (s.k4At x n (Descr.of a.da) a.guard false i)) := by
  refine (getD_map_range _ _ hi).trans ((if_pos active).trans ((s.denseRow_eq n i small whole _).trans ?_))
  refine List.map_congr_left fun κ mem => ?_
  cases column : s.column n (Descr.of a.da) i κ with
  | none => rfl
  | some q =>
    exact s.k4Value_pos n x a.guard (t := a.k4A da) (State.column_lt small whole (List.mem_range.mp mem) column)

/-- A column of a K4 B. -/
theorem State.k4Operands_col (hj : j < 16) :
    (s.k4Operands x n a (a.k4A da) (a.k4B db)).cols.getD j [] = (List.range (Descr.of a.db).rows).map (fun κ =>
      s.k4At x n (Descr.of a.db) a.guard true κ j) := by
  refine (getD_map_range _ _ hj).trans (List.map_congr_left fun κ mem => ?_)
  exact s.k4Value_pos n x a.guard (t := a.k4B db) (List.mem_range.mp mem)

end

/-! ### NP5 (R114) -/

/-- An integer of 8 bits, signed where the format is the signed one. -/
def storedInt (d : Descr) (b : Nat) : Int := if d.fmt = 8 ∧ 128 ≤ b then (b : Int) - 256 else b

theorem toIntW_eq_storedInt (d : Descr) (b : Nat) : toIntW (d.fmt == 8) 8 b = storedInt d b := by
  simp [toIntW, storedInt]

/-- Saturation to a signed word of 32 bits. -/
def satWord (v : Int) : Int := max (-(2 ^ 31)) (min (2 ^ 31 - 1) v)

theorem ofNat_wrapInt (v : Int) : BitVec.ofNat 64 (wrapInt 32 v) = (BitVec.ofInt 32 v).setWidth 64 := by
  apply BitVec.eq_of_toNat_eq
  rw [BitVec.toNat_ofNat, BitVec.toNat_setWidth, BitVec.toNat_ofInt]
  rfl

/-- An NP5 element: the exact sum, saturated or wrapped once. -/
theorem integerElem_eq (st : Bool) (c : Int) (ps : List (Int × Int)) :
    integerElem st c ps =
      (wrapInt 32 (if st then satWord (c + (ps.map (fun p => p.1 * p.2)).sum) else c + (ps.map (fun p => p.1 * p.2)).sum),
        st && decide (satWord (c + (ps.map (fun p => p.1 * p.2)).sum) ≠ c + (ps.map (fun p => p.1 * p.2)).sum)) := by
  rw [integerElem, foldl_add_eq_sum]
  rfl

section
variable (s : State) (n : Nat) (a : ArrayOp) (z st : Bool) (old : Tile)

/-- The integer of A at a dense position. -/
def State.denseInt (i κ : Nat) : Int :=
  (s.column n (Descr.of a.da) i κ).elim 0 (fun q => storedInt (Descr.of a.da) (s.storedAt n (Descr.of a.da) i q))

/-- The exact sum of an element under NP5. -/
def State.integerSum (i j : Nat) : Int :=
  (if z then 0 else ((old.el i j).extractLsb' 0 32).toInt) + ((List.range (Descr.of a.da).dense).map (fun κ =>
    s.denseInt n a i κ * storedInt (Descr.of a.db) (s.storedAt n (Descr.of a.db) κ j))).sum

/-- A row of integers goes through the sparse expansion as numbers do. -/
theorem State.integerRow_eq (i : Nat) (small : (Descr.of a.da).spk < 4)
    (whole : (Descr.of a.da).cols % (keptOf (Descr.of a.da).spk).1 = 0) (row : List Int)
    (is : row = (List.range (Descr.of a.da).cols).map (fun c => storedInt (Descr.of a.da) (s.storedAt n (Descr.of a.da) i c))) :
    (if (Descr.of a.da).spk = 0 then row
      else (s.expandRow n (Descr.of a.da) i (row.map (fun v => .fin (decide (v < 0)) v.natAbs 0))).map (fun n => n.dy.m)) =
      (List.range (Descr.of a.da).dense).map (s.denseInt n a i) := by
  have back (v : Int) : (Num.fin (decide (v < 0)) v.natAbs 0).dy.m = v := by
    change (if decide (v < 0) = true then -(v.natAbs : Int) else v.natAbs) = v
    simp only [decide_eq_true_eq]
    split <;> omega
  have whole_row := congrArg (List.map (fun n : Num => n.dy.m)) (s.denseRow_eq n i small whole
    (fun c => .fin (decide (storedInt (Descr.of a.da) (s.storedAt n (Descr.of a.da) i c) < 0))
      (storedInt (Descr.of a.da) (s.storedAt n (Descr.of a.da) i c)).natAbs 0))
  rw [apply_ite (List.map _), List.map_map, List.map_map] at whole_row
  have each : (fun n : Num => n.dy.m) ∘ (fun κ => (s.column n (Descr.of a.da) i κ).elim (.fin false 0 0)
      (fun c => .fin (decide (storedInt (Descr.of a.da) (s.storedAt n (Descr.of a.da) i c) < 0))
        (storedInt (Descr.of a.da) (s.storedAt n (Descr.of a.da) i c)).natAbs 0)) = s.denseInt n a i := by
    funext κ
    rw [Function.comp_apply, State.denseInt]
    cases s.column n (Descr.of a.da) i κ with
    | none => rfl
    | some q => exact back _
  rw [each] at whole_row
  rw [← whole_row, is, List.map_map]
  refine if_congr Iff.rfl (List.map_congr_left fun c _ => (back _).symm) rfl

/-- The rows of A and the columns of B as an NP5 multiply takes them. -/
def State.integerRows : Array (List Int) := ((List.range 16).map (fun i =>
  if a.row i then
    if (Descr.of a.da).spk = 0 then (s.regionPatterns n (Descr.of a.da) i).map (toIntW ((Descr.of a.da).fmt == 8) 8)
    else (s.expandRow n (Descr.of a.da) i (((s.regionPatterns n (Descr.of a.da) i).map (toIntW ((Descr.of a.da).fmt == 8) 8)).map
      (fun v => .fin (decide (v < 0)) v.natAbs 0))).map (fun n => n.dy.m)
  else [])).toArray

def State.integerCols : Array (List Int) := ((List.range 16).map (fun j =>
  ((List.range (Descr.of a.db).rows).map (fun k =>
    ((s.regionPatterns n (Descr.of a.db) k).map (toIntW ((Descr.of a.db).fmt == 8) 8)).toArray)).map (fun r => r.getD j 0))).toArray

/-- An element of an NP5 multiply. -/
def State.integerCell (i j : Nat) : Nat × Bool :=
  integerElem st (if z then 0 else ((old.el i j).extractLsb' 0 32).toInt)
    (((s.integerRows n a).getD i []).zip ((s.integerCols n a).getD j []))

theorem State.integerTile_eq : s.integerTile n a z st old =
    (Tile.of (fun i j => (((List.range 256).map (fun e => if a.row (e / 16) then
        (BitVec.ofNat 64 (s.integerCell n a z st old (e / 16) (e % 16)).1, (s.integerCell n a z st old (e / 16) (e % 16)).2)
        else (old.el (e / 16) (e % 16), false))).map Prod.fst).toArray.getD (16 * i + j) 0),
      ((List.range 256).map (fun e => if a.row (e / 16) then
        (BitVec.ofNat 64 (s.integerCell n a z st old (e / 16) (e % 16)).1, (s.integerCell n a z st old (e / 16) (e % 16)).2)
        else (old.el (e / 16) (e % 16), false))).any Prod.snd) := rfl

section
variable (small : (Descr.of a.da).spk < 4) (whole : (Descr.of a.da).cols % (keptOf (Descr.of a.da).spk).1 = 0)
  (cols : (Descr.of a.db).cols = 16) (rows : (Descr.of a.db).rows = (Descr.of a.da).dense)
include small whole cols rows

theorem State.integerCell_eq {i j : Nat} (hi : i < 16) (hj : j < 16) (active : a.row i = true) :
    s.integerCell n a z st old i j =
      (wrapInt 32 (if st then satWord (s.integerSum n a z old i j) else s.integerSum n a z old i j),
        st && decide (satWord (s.integerSum n a z old i j) ≠ s.integerSum n a z old i j)) := by
  have row : (s.integerRows n a).getD i [] = (List.range (Descr.of a.da).dense).map (s.denseInt n a i) := by
    refine (getD_map_range _ _ hi).trans ((if_pos active).trans (s.integerRow_eq n a i small whole _ ?_))
    rw [s.map_regionPatterns]
    exact List.map_congr_left fun c _ => toIntW_eq_storedInt _ _
  have col : (s.integerCols n a).getD j [] = (List.range (Descr.of a.da).dense).map (fun κ =>
      storedInt (Descr.of a.db) (s.storedAt n (Descr.of a.db) κ j)) := by
    refine (getD_map_range _ _ hj).trans ?_
    rw [List.map_map, rows]
    exact List.map_congr_left fun κ _ => (s.getD_regionPatterns n κ _ _ (cols ▸ hj)).trans (toIntW_eq_storedInt _ _)
  rw [State.integerCell, row, col, List.zip_map', integerElem_eq, List.map_map]
  rfl

/-- What an NP5 multiply leaves, and whether it saturated an element (R114). -/
theorem State.integerTile_spec :
    (∀ i < 16, ∀ j < 16, (s.integerTile n a z st old).1.el i j = if a.row i then
      (BitVec.ofInt 32 (if st then satWord (s.integerSum n a z old i j) else s.integerSum n a z old i j)).setWidth 64
      else old.el i j) ∧
    ((s.integerTile n a z st old).2 = true ↔ st = true ∧ ∃ i < 16, ∃ j < 16, a.row i = true ∧
      satWord (s.integerSum n a z old i j) ≠ s.integerSum n a z old i j) := by
  have cell {i j : Nat} := s.integerCell_eq n a z st old small whole cols rows (i := i) (j := j)
  rw [State.integerTile_eq]
  constructor
  · intro i hi j hj
    obtain ⟨row, col⟩ := element_place (i := i) hj
    dsimp only
    rw [List.map_map, Tile.el_of_results _ hi hj, Function.comp_apply, row, col]
    cases active : a.row i with
    | true => rw [if_pos rfl, if_pos rfl, cell hi hj active, ofNat_wrapInt]
    | false => rfl
  · rw [List.any_eq_true]
    constructor
    · rintro ⟨_, mem, saturated⟩
      obtain ⟨e, inside, rfl⟩ := List.mem_map.mp mem
      have inside := List.mem_range.mp inside
      cases active : a.row (e / 16) with
      | false => rw [active, if_neg Bool.false_ne_true] at saturated; cases saturated
      | true =>
        rw [active, if_pos rfl, cell (by omega) (Nat.mod_lt _ (by omega)) active, Bool.and_eq_true, decide_eq_true_iff] at saturated
        exact ⟨saturated.1, e / 16, by omega, e % 16, by omega, active, saturated.2⟩
    · rintro ⟨isSat, i, hi, j, hj, active, differs⟩
      obtain ⟨row, col⟩ := element_place (i := i) hj
      refine ⟨_, List.mem_map.mpr ⟨16 * i + j, List.mem_range.mpr (by omega), rfl⟩, ?_⟩
      rw [row, col, active, if_pos rfl, cell hi hj active, Bool.and_eq_true, decide_eq_true_iff]
      exact ⟨isSat, differs⟩

end

end

end Sys2Proof.Machine
end

section
/-! SUPPORT. The multiply forms as they complete, and the sums of the numerics profiles (O53). -/

namespace Sys2Proof.Machine

/-! ### What a multiply leaves when it runs -/

theorem Ctx.arrayFlags_sat (c : Ctx) (a : ArrayOp) (k : BitVec 3) (sf : Bool) :
    c.arrayFlags a k 0 sf = (Claim.flagged c k (if sf then 0x20 else 0), []) := by
  cases sf <;> simp [Ctx.arrayFlags, Claim.flagged, Ctx.orFlags, Ctx.orKsw, Ctx.commit]

section
variable {s : State} (c : CtxId) {a : ArrayOp} (was : List Nat) {u : Pfx} {pr da db : BitVec 4} {k : BitVec 3} {z st fi fo : Bool}

theorem State.runArray_multiply (h : a.instr = .mma u pr k da db z st fi fo ∨ a.instr = .mmaS u pr k da db z st fi fo) :
    s.runArray c a was = s.runMultiply c a was pr k da.toNat z st fi fo := by
  rw [State.runArray]
  obtain h | h := h
  all_goals rw [h]

theorem State.runArray_mmaK4 {m : MulMode} (h : a.instr = .mmaK4 u k da db m) :
    s.runArray c a was = s.runK4 c a was k da db m.z := by rw [State.runArray, h]

theorem State.runK4_fault {f : FaultDetail} (fault : s.k4Fault (s.ctx c) c.core was [a.k4A da, a.k4B db] = some f) :
    s.runK4 c a was k da db z = (s.ctx c, [f]) := by
  rw [State.runK4]
  simp only [fault]

theorem State.runK4_good (good : s.k4Fault (s.ctx c) c.core was [a.k4A da, a.k4B db] = none) :
    let r := multiplyTile 6 Fmt.f32 .rne false false z 0 a.row ((s.ctx c).tile k) (s.k4Operands (s.ctx c) c.core a (a.k4A da) (a.k4B db))
    s.runK4 c a was k da db z = (Claim.flagged ((s.ctx c).setTile k r.1) k (r.2.setWidth 6), Claim.enabledFaults a r.2) := by
  rw [State.runK4]
  simp only [good, Ctx.arrayFlags_eq]

variable (clean : s.poison = [])
include clean

/-- Where nothing is poisoned, MMA and MMA.S fault on a bad pattern word alone. -/
theorem State.plainSteps_fault (n : Nat) (A B : Descr) (dn : Nat) (act : Nat → Bool) :
    s.stepsFault was (plainSteps n A B dn act) = s.patternFault n A dn act := by
  rw [State.stepsFault_sound clean, plainSteps, List.map_cons, findSome_id_cons]
  exact Option.or_none

theorem State.runMultiply_bad (bad : s.BadPattern c.core (Descr.of a.da) a.row) :
    s.runMultiply c a was pr k da.toNat z st fi fo = (s.ctx c, [(causeSppat, spDetail da.toNat (Descr.of a.da).cb 0)]) := by
  rw [State.runMultiply, State.plainSteps_fault was clean, State.patternFault_of_bad bad]

variable (good : ¬ s.BadPattern c.core (Descr.of a.da) a.row)
include good

theorem State.runMultiply_float (float : pr ≠ 5) :
    let r := multiplyTile pr.toNat (accFmt a.af) (Rm.of a.rm) fi fo z (windowOf (Descr.of a.da).fmt) a.row ((s.ctx c).tile k)
      (s.plainOperands c.core a fi)
    s.runMultiply c a was pr k da.toNat z st fi fo =
      (Claim.flagged ((s.ctx c).setTile k r.1) k (r.2.setWidth 6), Claim.enabledFaults a r.2) := by
  rw [State.runMultiply, State.plainSteps_fault was clean, State.patternFault_of_not_bad good]
  simp only [if_neg float, Ctx.arrayFlags_eq]

theorem State.runMultiply_int (int : pr = 5) :
    let r := s.integerTile c.core a z st ((s.ctx c).tile k)
    s.runMultiply c a was pr k da.toNat z st fi fo =
      (Claim.flagged ((s.ctx c).setTile k r.1) k (if r.2 then 0x20 else 0), []) := by
  rw [State.runMultiply, State.plainSteps_fault was clean, State.patternFault_of_not_bad good]
  simp only [if_pos int, Ctx.arrayFlags_sat]

end

/-! ### Completion -/

/-- A state with other cores. -/
def State.withCores (s : State) (cs : SMap Core) : State := { s with cores := cs }

/-- An element of MMA and MMA.S (R112, R223). -/
def State.plainElem (s : State) (n : Nat) (a : ArrayOp) (np : BitVec 4) (z fi fo : Bool) (old : Tile) (i j : Nat) : Nat × Flags :=
  multiplyElem np.toNat (accFmt a.af) (Rm.of a.rm) fo (windowOf (Descr.of a.da).fmt)
    (if z then .fin false 0 0 else (accFmt a.af).operand fi (accPattern (accFmt a.af) (old.el i j)))
    ((List.range (Descr.of a.da).dense).map (fun κ =>
      ((s.column n (Descr.of a.da) i κ).elim (.fin false 0 0) (fun q =>
          (fmtOfCode (Descr.of a.da).fmt).operand fi (s.storedAt n (Descr.of a.da) i q)),
        (fmtOfCode (Descr.of a.da).fmt).operand fi (s.storedAt n (Descr.of a.db) κ j))))

/-- An element of MMA.K4 (R200, R226). -/
def State.k4Elem (s : State) (x : Ctx) (n : Nat) (a : ArrayOp) (z : Bool) (old : Tile) (i j : Nat) : Nat × Flags :=
  multiplyElem 6 Fmt.f32 .rne false 0
    (if z then .fin false 0 0 else Fmt.f32.operand false (accPattern Fmt.f32 (old.el i j)))
    ((List.range (Descr.of a.da).dense).map (fun κ =>
      ((s.column n (Descr.of a.da) i κ).elim (.fin false 0 0) (s.k4At x n (Descr.of a.da) a.guard false i),
        s.k4At x n (Descr.of a.db) a.guard true κ j)))

/-- The multiply at the head of a core's queue completes and leaves in tile k the elements that r says, with their flags (R222, R223). -/
def MultiplyEnds (s v : State) (n : Nat) (a : ArrayOp) (rest : List ArrayOp) (k : BitVec 3) (r : Nat → Nat → Nat × Flags) : Prop :=
  ∃ (t : State) (y : Tile) (f : Flags), exec (.arrayOperationCompletion n .none) s = .next t ∧
    (∀ i < 16, ∀ j < 16, y.el i j = if a.row i then BitVec.ofNat 64 (r i j).1 else ((v.ctx ⟨n, a.one⟩).tile k).el i j) ∧
    Claim.Raised f ((List.range 256).map (fun q => if a.row (q / 16) then (r (q / 16) (q % 16)).2 else 0)) ∧
    Claim.Completes v t n a rest (Claim.flagged ((v.ctx ⟨n, a.one⟩).setTile k y) k (f.setWidth 6)) (Claim.enabledFaults a f)

section
variable {s : State} {n : Nat} {a : ArrayOp} {rest : List ArrayOp} (queue : (s.core n).aq = a :: rest) (poison : s.poison = [])
  (flaws : s.flaws = []) (good : ∀ y, a.seen = some y → y.bad = []) (first : ∀ p ∈ s.pends ⟨n, a.one⟩, a.before ≤ p.id)
include queue poison flaws good first

/-- An array operation that reads no poison completes with what its run leaves over the memory that it sees. -/
theorem State.run_completes :
    let v := s.landCr ⟨n, a.one⟩ a.seq
    ∃ (t : State) (cs : SMap Core), exec (.arrayOperationCompletion n .none) s = .next t ∧
      ((v.asSeen a.seen).withCores cs).poison = [] ∧ ((v.asSeen a.seen).withCores cs).ctx ⟨n, a.one⟩ = v.ctx ⟨n, a.one⟩ ∧
      Claim.Completes v t n a rest (((v.asSeen a.seen).withCores cs).runArray ⟨n, a.one⟩ a (a.poisonBefore s.poison)).1
        (((v.asSeen a.seen).withCores cs).runArray ⟨n, a.one⟩ a (a.poisonBefore s.poison)).2 := by
  intro v
  have clean : v.poison = [] := (s.landCr_poison _ _).trans poison
  have seen : (v.withAq n rest).asSeen a.seen = (v.asSeen a.seen).withCores (v.withAq n rest).cores := v.asSeen_withAq n rest a.seen
  have here : ((v.withAq n rest).asSeen a.seen).ctx ⟨n, a.one⟩ = v.ctx ⟨n, a.one⟩ := by rw [State.ctx_asSeen, State.ctx_withAq]
  obtain ⟨t, step, completes, -⟩ := State.completeArray_sound queue flaws first
  rw [seen] at here completes
  exact ⟨t, (v.withAq n rest).cores, step, State.asSeen_poison clean good, here, completes⟩

variable {u : Pfx} {pr da db : BitVec 4} {k : BitVec 3} {z st fi fo : Bool}

section
variable (instr : a.instr = .mma u pr k da db z st fi fo ∨ a.instr = .mmaS u pr k da db z st fi fo)
include instr

/-- MMA and MMA.S with a bad pattern word leave the tile and raise no flag (R225). -/
theorem State.multiply_bad :
    let v := s.landCr ⟨n, a.one⟩ a.seq
    (v.asSeen a.seen).BadPattern n (Descr.of a.da) a.row → ∃ t, exec (.arrayOperationCompletion n .none) s = .next t ∧
      Claim.Completes v t n a rest (v.ctx ⟨n, a.one⟩) [(causeSppat, spDetail da.toNat (Descr.of a.da).cb 0)] := by
  intro v bad
  obtain ⟨t, cs, step, clean, here, completes⟩ := State.run_completes queue poison flaws good first
  rw [State.runArray_multiply _ _ instr, State.runMultiply_bad ⟨n, a.one⟩ _ clean bad, here] at completes
  exact ⟨t, step, completes⟩

variable (small : (Descr.of a.da).spk < 4) (whole : (Descr.of a.da).cols % (keptOf (Descr.of a.da).spk).1 = 0)
  (cols : (Descr.of a.db).cols = 16) (rows : (Descr.of a.db).rows = (Descr.of a.da).dense)
include small whole cols rows

/-- A floating-point MMA or MMA.S leaves the elements of R112. -/
theorem State.multiply_float (float : pr ≠ 5) :
    let v := s.landCr ⟨n, a.one⟩ a.seq
    let m := v.asSeen a.seen
    ¬ m.BadPattern n (Descr.of a.da) a.row →
      MultiplyEnds s v n a rest k (m.plainElem n a pr z fi fo ((v.ctx ⟨n, a.one⟩).tile k)) := by
  intro v m sound
  obtain ⟨t, cs, step, clean, here, completes⟩ := State.run_completes queue poison flaws good first
  rw [State.runArray_multiply _ _ instr, State.runMultiply_float ⟨n, a.one⟩ _ clean sound float, here] at completes
  obtain ⟨elements, flags⟩ := multiplyTile_spec (np := pr.toNat) (F := accFmt a.af) (rm := Rm.of a.rm) (ftzi := fi) (ftzo := fo) (z := z)
    (w := windowOf (Descr.of a.da).fmt) (act := a.row) (old := (v.ctx ⟨n, a.one⟩).tile k) (o := m.plainOperands n a fi)
    (r := m.plainElem n a pr z fi fo ((v.ctx ⟨n, a.one⟩).tile k)) fun i hi j hj active => by
      rw [m.plainOperands_row n a fi hi active small whole, m.plainOperands_col n a fi hj cols, rows, List.zip_map']
      rfl
  exact ⟨t, _, _, step, elements, flags ▸ raised_orAll _, completes⟩

/-- MMA and MMA.S under NP5 leave the integer elements of R114. -/
theorem State.multiply_int (int : pr = 5) :
    let v := s.landCr ⟨n, a.one⟩ a.seq
    let m := v.asSeen a.seen
    let x := v.ctx ⟨n, a.one⟩
    let sum := m.integerSum n a z (x.tile k)
    ¬ m.BadPattern n (Descr.of a.da) a.row → ∃ (t : State) (y : Tile) (sf : Bool),
      exec (.arrayOperationCompletion n .none) s = .next t ∧
      (∀ i < 16, ∀ j < 16, y.el i j = if a.row i then
        (BitVec.ofInt 32 (if st then satWord (sum i j) else sum i j)).setWidth 64 else (x.tile k).el i j) ∧
      (sf = true ↔ st = true ∧ ∃ i < 16, ∃ j < 16, a.row i = true ∧ satWord (sum i j) ≠ sum i j) ∧
      Claim.Completes v t n a rest (Claim.flagged (x.setTile k y) k (if sf then 0x20 else 0)) [] := by
  intro v m x sum sound
  obtain ⟨t, cs, step, clean, here, completes⟩ := State.run_completes queue poison flaws good first
  rw [State.runArray_multiply _ _ instr, State.runMultiply_int ⟨n, a.one⟩ _ clean sound int, here] at completes
  obtain ⟨elements, saturated⟩ := m.integerTile_spec n a z st (x.tile k) small whole cols rows
  exact ⟨t, _, _, step, elements, saturated, completes⟩

end

variable {mode : MulMode} (instr : a.instr = .mmaK4 u k da db mode)
include instr

/-- MMA.K4 with a fault of R226 leaves the tile and raises no flag. -/
theorem State.multiplyK4_fault {f : FaultDetail} :
    let v := s.landCr ⟨n, a.one⟩ a.seq
    (v.asSeen a.seen).k4Fault (v.ctx ⟨n, a.one⟩) n (a.poisonBefore s.poison) [a.k4A da, a.k4B db] = some f →
      ∃ t, exec (.arrayOperationCompletion n .none) s = .next t ∧ Claim.Completes v t n a rest (v.ctx ⟨n, a.one⟩) [f] := by
  intro v fault
  obtain ⟨t, cs, step, clean, here, completes⟩ := State.run_completes queue poison flaws good first
  rw [State.runArray_mmaK4 _ _ instr, State.runK4_fault ⟨n, a.one⟩ _ (here ▸ fault), here] at completes
  exact ⟨t, step, completes⟩

/-- MMA.K4 without a fault leaves the elements of R200 under NP6. -/
theorem State.multiplyK4_good (small : (Descr.of a.da).spk < 4)
    (whole : (Descr.of a.da).cols % (keptOf (Descr.of a.da).spk).1 = 0) (rows : (Descr.of a.db).rows = (Descr.of a.da).dense) :
    let v := s.landCr ⟨n, a.one⟩ a.seq
    let m := v.asSeen a.seen
    let x := v.ctx ⟨n, a.one⟩
    m.k4Fault x n (a.poisonBefore s.poison) [a.k4A da, a.k4B db] = none →
      MultiplyEnds s v n a rest k (m.k4Elem x n a mode.z (x.tile k)) := by
  intro v m x sound
  obtain ⟨t, cs, step, clean, here, completes⟩ := State.run_completes queue poison flaws good first
  rw [State.runArray_mmaK4 _ _ instr, State.runK4_good ⟨n, a.one⟩ _ (here ▸ sound), here] at completes
  obtain ⟨elements, flags⟩ := multiplyTile_spec (np := 6) (F := Fmt.f32) (rm := .rne) (ftzi := false) (ftzo := false) (z := mode.z)
    (w := 0) (act := a.row) (old := x.tile k) (o := m.k4Operands x n a (a.k4A da) (a.k4B db))
    (r := m.k4Elem x n a mode.z (x.tile k)) fun i hi j hj active => by
      rw [m.k4Operands_row n a x da db hi active small whole, m.k4Operands_col n a x da db hj, rows, List.zip_map']
      rfl
  exact ⟨t, _, _, step, elements, flags ▸ raised_orAll _, completes⟩

end

/-- Settles O53: a multiply's completion comes down to what its run leaves, its operands to their elements by dense position, and the
sum of a profile to special values, exact and window sums, and rounded additions, each by a lemma of its own. -/
theorem multiplyResults : Obligations.MultiplyResults := by
  refine ⟨?_, ?_⟩
  · intro s n a rest u pr a4 b4 k z st fi fo queue poison flaws good first v x m A B kept grp K zero act kind word column stored fits bad
      ends old book value
    have cell {α : Type} (i κ : Nat) (w : α) (f : Nat → α) : (m.column n A i κ).elim w f =
        (match column i κ with | some q => f q | none => w) := by
      change (column i κ).elim w f = _
      cases column i κ <;> rfl
    have cleanM : m.poison = [] := State.asSeen_poison ((s.landCr_poison _ _).trans poison) good
    refine ⟨fun instr fit => ?_, fun instr fit => ?_⟩
    · obtain ⟨cols, rows, whole, sixteen, small⟩ := fit
      have isBad : m.BadPattern n A a.row ↔ bad := by rw [State.BadPattern, sixteen]; rfl
      refine ⟨fun h => State.multiply_bad queue poison flaws good first instr (isBad.mpr h), fun h float => ?_, fun h int => ?_⟩
      · intro F at_
        have result := State.multiply_float queue poison flaws good first instr small whole cols rows float (isBad.not.mpr h)
        refine Eq.mpr (congrArg ends (a₂ := m.plainElem n a pr z fi fo (x.tile k)) (funext₂ fun i j => ?_)) result
        exact congrArg (multiplyElem _ _ _ _ _ _) (List.map_congr_left fun κ _ => congrArg (·, _) (cell i κ _ _).symm)
      · obtain ⟨t, y, sf, step, elements, saturated, completes⟩ :=
          State.multiply_int queue poison flaws good first instr small whole cols rows int (isBad.not.mpr h)
        refine ⟨t, y, sf, ?_⟩
        intro num el sum sat32
        have same : m.integerSum n a z (x.tile k) = sum := funext₂ fun i j =>
          congrArg (_ + List.sum ·) (List.map_congr_left fun κ _ => congrArg (· * _) (cell i κ _ _))
        exact ⟨step, same ▸ elements, same ▸ saturated, completes⟩
    · obtain ⟨cols, rows, whole, sixteen, small⟩ := fit
      intro ts
      have faults (f : Option FaultDetail) (h : m.k4Fault x n [] ts = f) :
          m.k4Fault x n (a.poisonBefore s.poison) [a.k4A a4, a.k4B b4] = f := by
        rw [State.k4Fault_sound cleanM, ← State.k4Fault_sound cleanM x n []]
        exact h
      refine ⟨fun f fault => State.multiplyK4_fault queue poison flaws good first instr (faults _ fault), fun sound => ?_,
        State.k4Fault_sound cleanM x n [] ts⟩
      have result := State.multiplyK4_good queue poison flaws good first instr small whole rows (faults _ sound)
      refine Eq.mpr (congrArg ends (a₂ := m.k4Elem x n a z (x.tile k)) (funext₂ fun i j => ?_)) result
      exact congrArg (multiplyElem _ _ _ _ _ _) (List.map_congr_left fun κ _ => congrArg (·, _) (cell i κ _ _).symm)
  · intro F hF rm o w c ps ts all invalid add run grp rnd
    have wide : 2 ≤ F.e := (F.wide_of_mem (by simp only [List.mem_cons, List.not_mem_nil, or_false] at hF ⊢; tauto)).1
    have isInvalid : invalidSum c ps = true ↔ invalid := invalidSum_iff c ps
    refine ⟨fun np special => ?_, fun np b plain valid inf => multiplyElem_inf plain valid np rm o w inf,
      fun finite plain valid => ?_, fun a b x y ha hb => ?_, fun l v h => ?_⟩
    · rw [multiplyElem_nan np F rm o w special]
      refine ⟨rfl, ?_, ?_⟩
      · dsimp only
        split
        · exact .inl rfl
        · exact .inr rfl
      · rw [(ite_nvF _).1, Bool.or_eq_true, isInvalid, List.any_eq_true]
        rfl
    · have sums (np : Nat) := multiplyElem_finite (F := F) plain valid np rm o w finite
      rw [sums, sums, sums, sums, sums, sums]
      obtain ⟨one, four⟩ := profileSum_exact F rm o w c ts
      obtain ⟨eight, rounded, sixteen⟩ := profileSum_window F rm o w c ts
      exact ⟨one, four, eight, rounded, sixteen, profileSum_np6 F rm o w c ts⟩
    · obtain ⟨sum, zeroSum, round, zero⟩ := fpAdd_spec wide rm ha hb
      exact ⟨sum, zeroSum, round, zero, fun n => rfl⟩
    · obtain ⟨rfl, stands⟩ := forall_stands h
      obtain ⟨total, sign⟩ := gsum_stands l
      refine ⟨total, sign, fun e reached bounded => ?_, fun zero => wsum_zero w stands (by simpa using zero)⟩
      obtain ⟨cut, flags⟩ := wsum_stands w stands (by simpa using reached) (by simpa using bounded)
      intro u cut'
      refine ⟨by rwa [List.map_map], ?_⟩
      rw [flags]
      refine if_congr ?_ rfl rfl
      simp only [List.mem_map, exists_exists_and_eq_and]
      rfl

end Sys2Proof.Machine
end

section
/-! SUPPORT. The integer forms of the S slot (Table 5.1, R117 to R120): each result as a number of its operands, the selection and the
compares. -/

namespace Sys2Proof.Machine

/-! ### Results as numbers (R117, R118) -/

/-- The high half of a number of 128 bits, signed and unsigned. -/
theorem extract_high_ofInt (x : Int) : (BitVec.ofInt 128 x).extractLsb' 64 64 = BitVec.ofInt 64 (x / 2 ^ 64) := by
  apply BitVec.eq_of_toNat_eq
  rw [BitVec.extractLsb'_toNat, BitVec.toNat_ofInt, BitVec.toNat_ofInt, Nat.shiftRight_eq_div_pow]
  omega

theorem extract_high_ofNat (n : Nat) : (BitVec.ofNat 128 n).extractLsb' 64 64 = BitVec.ofNat 64 (n / 2 ^ 64) := by
  apply BitVec.eq_of_toNat_eq
  rw [BitVec.extractLsb'_toNat, BitVec.toNat_ofNat, BitVec.toNat_ofNat, Nat.shiftRight_eq_div_pow]
  omega

theorem ofNat_toNat_self (x : DWord) : BitVec.ofNat 64 x.toNat = x := by rw [BitVec.ofNat_toNat, BitVec.setWidth_eq]

theorem mul_eq_ofNat (x y : DWord) : x * y = BitVec.ofNat 64 (x.toNat * y.toNat) := by
  rw [BitVec.ofNat_mul, ofNat_toNat_self, ofNat_toNat_self]

theorem mulHigh_eq (x y : DWord) : mulHigh x y = BitVec.ofInt 64 (x.toInt * y.toInt / 2 ^ 64) := by
  rw [← extract_high_ofInt, BitVec.ofInt_mul]
  rfl

theorem mulHighU_eq (x y : DWord) : mulHighU x y = BitVec.ofNat 64 (x.toNat * y.toNat / 2 ^ 64) := by
  rw [← extract_high_ofNat, BitVec.ofNat_mul, BitVec.ofNat_toNat, BitVec.ofNat_toNat]
  rfl

theorem divSigned_eq (x y : DWord) :
    divSigned x y = if y = 0 then BitVec.allOnes 64 else BitVec.ofInt 64 (x.toInt.tdiv y.toInt) := by
  have quotient : x.sdiv y = BitVec.ofInt 64 (x.toInt.tdiv y.toInt) := by
    apply BitVec.eq_of_toInt_eq
    rw [BitVec.toInt_sdiv, BitVec.toInt_ofInt]
  rw [divSigned, quotient]

theorem divUnsigned_eq (x y : DWord) :
    divUnsigned x y = if y = 0 then BitVec.allOnes 64 else BitVec.ofNat 64 (x.toNat / y.toNat) := by
  rw [divUnsigned, ← BitVec.toNat_udiv, ofNat_toNat_self]

theorem remSigned_eq (x y : DWord) : remSigned x y = if y = 0 then x else BitVec.ofInt 64 (x.toInt.tmod y.toInt) := by
  rw [remSigned, ← BitVec.toInt_srem, BitVec.ofInt_toInt]

theorem remUnsigned_eq (x y : DWord) : remUnsigned x y = if y = 0 then x else BitVec.ofNat 64 (x.toNat % y.toNat) := by
  rw [remUnsigned, ← BitVec.toNat_umod, ofNat_toNat_self]

theorem amount_eq (y : DWord) : amount y = y.toNat % 64 := BitVec.extractLsb'_toNat 0 6 y

theorem shiftLeft_eq_ofNat (x : DWord) (n : Nat) : x <<< n = BitVec.ofNat 64 (x.toNat * 2 ^ n) := by
  apply BitVec.eq_of_toNat_eq
  rw [BitVec.toNat_shiftLeft, BitVec.toNat_ofNat, Nat.shiftLeft_eq]

theorem shiftRight_eq_ofNat (x : DWord) (n : Nat) : x >>> n = BitVec.ofNat 64 (x.toNat / 2 ^ n) := by
  rw [← Nat.shiftRight_eq_div_pow, ← BitVec.toNat_ushiftRight, ofNat_toNat_self]

theorem sshiftRight_eq_ofInt (x : DWord) (n : Nat) : x.sshiftRight n = BitVec.ofInt 64 (x.toInt / 2 ^ n) := by
  have shift := Int.shiftRight_eq_div_pow x.toInt n
  rw [Nat.cast_pow, Nat.cast_ofNat] at shift
  rw [← shift, ← BitVec.toInt_sshiftRight, BitVec.ofInt_toInt]

theorem minSigned_eq (x y : DWord) : minSigned x y = BitVec.ofInt 64 (min x.toInt y.toInt) := by
  unfold minSigned
  simp only [BitVec.slt_iff_toInt_lt]
  split
  case isTrue h => rw [min_eq_right h.le, BitVec.ofInt_toInt]
  case isFalse h => rw [min_eq_left (not_lt.mp h), BitVec.ofInt_toInt]

theorem maxSigned_eq (x y : DWord) : maxSigned x y = BitVec.ofInt 64 (max x.toInt y.toInt) := by
  unfold maxSigned
  simp only [BitVec.slt_iff_toInt_lt]
  split
  case isTrue h => rw [max_eq_right h.le, BitVec.ofInt_toInt]
  case isFalse h => rw [max_eq_left (not_lt.mp h), BitVec.ofInt_toInt]

theorem minUnsigned_eq (x y : DWord) : minUnsigned x y = BitVec.ofNat 64 (min x.toNat y.toNat) := by
  unfold minUnsigned
  simp only [BitVec.lt_def]
  split
  case isTrue h => rw [min_eq_right h.le, ofNat_toNat_self]
  case isFalse h => rw [min_eq_left (not_lt.mp h), ofNat_toNat_self]

theorem maxUnsigned_eq (x y : DWord) : maxUnsigned x y = BitVec.ofNat 64 (max x.toNat y.toNat) := by
  unfold maxUnsigned
  simp only [BitVec.lt_def]
  split
  case isTrue h => rw [max_eq_right h.le, ofNat_toNat_self]
  case isFalse h => rw [max_eq_left (not_lt.mp h), ofNat_toNat_self]

/-! ### Counts of bits -/

theorem size_eq_log2_succ {n : Nat} (h : n ≠ 0) : Nat.size n = Nat.log2 n + 1 :=
  le_antisymm (Nat.size_le.mpr ((Nat.log2_lt h).mp (Nat.lt_succ_self _))) (Nat.lt_size.mpr (Nat.log2_self_le h))

theorem leadingZeros_eq (x : DWord) : leadingZeros x = BitVec.ofNat 64 (64 - Nat.size x.toNat) := by
  unfold leadingZeros
  split
  case isTrue h =>
    subst h
    rfl
  case isFalse h =>
    rw [size_eq_log2_succ fun e => h (BitVec.eq_of_toNat_eq e), Nat.add_comm, ← Nat.sub_sub]

theorem popCount_eq (w : Nat) (x : BitVec w) : popCount w x = (Finset.univ.filter (fun j : Fin w => x.getLsbD j)).card := by
  rw [Finset.card_filter, Fin.sum_univ_eq_sum_range (fun j => if x.getLsbD j = true then 1 else 0), ← Finset.card_filter]
  simp [popCount, Finset.card, Finset.filter, Finset.range, Multiset.range]

theorem trailingZeros_spec (x : DWord) : ∃ n ≤ 64, (∀ j < n, x.getLsbD j = false) ∧ (n < 64 → x.getLsbD n = true) ∧
    trailingZeros x = BitVec.ofNat 64 n := by
  unfold trailingZeros
  cases h : (List.range 64).find? (fun i => x.getLsbD i) with
  | none =>
    rw [List.find?_range_eq_none] at h
    exact ⟨64, le_rfl, fun j hj => by simpa using h j hj, fun h => absurd h (lt_irrefl _), rfl⟩
  | some n =>
    rw [List.find?_range_eq_some] at h
    obtain ⟨hit, inside, before⟩ := h
    exact ⟨n, (List.mem_range.mp inside).le, fun j hj => by simpa using before j hj, fun _ => hit, rfl⟩

/-! ### Immediates (Table 4.7) -/

theorem setWidth_eq_ofNat {n : Nat} (i : BitVec n) : i.setWidth 64 = BitVec.ofNat 64 i.toNat := (BitVec.ofNat_toNat 64 i).symm

theorem shift_or_eq_ofNat (x : DWord) (m : BitVec 14) :
    x <<< 14 ||| m.setWidth 64 = BitVec.ofNat 64 (x.toNat * 2 ^ 14 + m.toNat) := by
  apply BitVec.eq_of_toNat_eq
  rw [BitVec.toNat_or, BitVec.toNat_shiftLeft, BitVec.toNat_setWidth, BitVec.toNat_ofNat, Nat.shiftLeft_eq,
    ← Nat.or_mod_two_pow, Nat.mul_comm, Nat.two_pow_add_eq_or_of_lt m.isLt]

/-! ### The forms -/

/-- A form of two registers whose result is a function of them. -/
theorem runs_alu2 (i : Instr) {lat : Nat} {d a b : BitVec 6} {f g : DWord → DWord → DWord}
    (h : ∀ s, exec i s = issue i s (fun s => s.alu2 lat d a b f)) (e : ∀ x y, f x y = g x y) :
    Claim.Runs i (fun s => s.putS lat d (g (s.readS a) (s.readS b)) 0) :=
  runs_of h fun s => congrArg (s.putS lat d · 0) (e _ _)

/-- A form of one register whose result is a function of it. -/
theorem runs_alu1 (i : Instr) {d a : BitVec 6} {f g : DWord → DWord}
    (h : ∀ s, exec i s = issue i s (fun s => s.alu1 d a f)) (e : ∀ x, f x = g x) :
    Claim.Runs i (fun s => s.putS 1 d (g (s.readS a)) 0) :=
  runs_of h fun s => congrArg (s.putS 1 d · 0) (e _)

theorem runs_movs (u : Pfx) (d : BitVec 6) (m : BitVec 14) :
    Claim.Runs (.movs u d m) (fun s => s.putS 1 d (BitVec.ofNat 64 ((s.readS d).toNat * 2 ^ 14 + m.toNat)) 0) :=
  runs_of (eff' := fun s => s.putS latAlu d ((s.readS d <<< 14) ||| m.setWidth 64) 0) (fun _ => rfl)
    fun s => congrArg (s.putS 1 d · 0) (shift_or_eq_ofNat _ _)

theorem exec_ctz {u : Pfx} {d a : BitVec 6} {s : State} (issues : Claim.Issues (.ctz u d a) s) :
    exec (.ctz u d a) s = .next ((Claim.issuing (.ctz u d a) s).alu1 d a trailingZeros) :=
  issue_of_issues (fun s => s.alu1 d a trailingZeros) issues

section

variable (u : Pfx) (d a b : BitVec 6)

theorem runs_div : Claim.Runs (.div u d a b) (fun s => s.putS 24 d
    (if s.readS b = 0 then BitVec.allOnes 64 else BitVec.ofInt 64 ((s.readS a).toInt.tdiv (s.readS b).toInt)) 0) :=
  (runs_alu2 (.div u d a b) (fun _ => rfl) divSigned_eq :)

theorem runs_divu : Claim.Runs (.divu u d a b) (fun s => s.putS 24 d
    (if s.readS b = 0 then BitVec.allOnes 64 else BitVec.ofNat 64 ((s.readS a).toNat / (s.readS b).toNat)) 0) :=
  (runs_alu2 (.divu u d a b) (fun _ => rfl) divUnsigned_eq :)

theorem runs_rem : Claim.Runs (.rem u d a b) (fun s => s.putS 24 d
    (if s.readS b = 0 then s.readS a else BitVec.ofInt 64 ((s.readS a).toInt.tmod (s.readS b).toInt)) 0) :=
  (runs_alu2 (.rem u d a b) (fun _ => rfl) remSigned_eq :)

theorem runs_remu : Claim.Runs (.remu u d a b) (fun s => s.putS 24 d
    (if s.readS b = 0 then s.readS a else BitVec.ofNat 64 ((s.readS a).toNat % (s.readS b).toNat)) 0) :=
  (runs_alu2 (.remu u d a b) (fun _ => rfl) remUnsigned_eq :)

end

/-- Settles O12: each form is an issue of one function of its operands, which is the number that Table 5.1 gives. -/
theorem integerArithmetic : Obligations.IntegerArithmetic := by
  refine ⟨fun u d a b => ?_, fun u d a b => ⟨runs_div u d a b, runs_divu u d a b, runs_rem u d a b, runs_remu u d a b⟩,
    fun u d a b => ?_, fun u d a => ?_, fun u d a i k m => ?_⟩
  · exact ⟨runs_of (fun _ => rfl) fun _ => rfl, runs_of (fun _ => rfl) fun _ => rfl,
      (runs_alu2 (.mul u d a b) (fun _ => rfl) mul_eq_ofNat :), (runs_alu2 (.mulh u d a b) (fun _ => rfl) mulHigh_eq :),
      (runs_alu2 (.mulhu u d a b) (fun _ => rfl) mulHighU_eq :), runs_of (fun _ => rfl) fun _ => rfl,
      runs_of (fun _ => rfl) fun _ => rfl, runs_of (fun _ => rfl) fun _ => rfl⟩
  · exact ⟨(runs_alu2 (.shl u d a b) (fun _ => rfl) fun x y => amount_eq y ▸ shiftLeft_eq_ofNat x (amount y) :),
      (runs_alu2 (.shr u d a b) (fun _ => rfl) fun x y => amount_eq y ▸ shiftRight_eq_ofNat x (amount y) :),
      (runs_alu2 (.ashr u d a b) (fun _ => rfl) fun x y => amount_eq y ▸ sshiftRight_eq_ofInt x (amount y) :),
      (runs_alu2 (.min u d a b) (fun _ => rfl) minSigned_eq :), (runs_alu2 (.max u d a b) (fun _ => rfl) maxSigned_eq :),
      (runs_alu2 (.minu u d a b) (fun _ => rfl) minUnsigned_eq :), (runs_alu2 (.maxu u d a b) (fun _ => rfl) maxUnsigned_eq :)⟩
  · refine ⟨(runs_alu1 (.clz u d a) (fun _ => rfl) leadingZeros_eq :),
      (runs_alu1 (.popc u d a) (fun _ => rfl) fun x => congrArg (BitVec.ofNat 64) (popCount_eq 64 x) :), fun s issues => ?_⟩
    obtain ⟨n, bound, low, hit, result⟩ := trailingZeros_spec ((Claim.issuing (.ctz u d a) s).readS a)
    exact ⟨n, bound, low, hit, by rw [exec_ctz issues, State.alu1, result]; rfl⟩
  · exact ⟨runs_of (fun _ => rfl) fun _ => rfl,
      (runs_alu1 (.andi u d a i) (fun _ => rfl) fun x => congrArg (x &&& ·) (setWidth_eq_ofNat i) :),
      (runs_alu1 (.ori u d a i) (fun _ => rfl) fun x => congrArg (x ||| ·) (setWidth_eq_ofNat i) :),
      (runs_alu1 (.xori u d a i) (fun _ => rfl) fun x => congrArg (x ^^^ ·) (setWidth_eq_ofNat i) :),
      (runs_alu1 (.shli u d a k) (fun _ => rfl) fun x => shiftLeft_eq_ofNat x k.toNat :),
      (runs_alu1 (.shri u d a k) (fun _ => rfl) fun x => shiftRight_eq_ofNat x k.toNat :),
      (runs_alu1 (.ashri u d a k) (fun _ => rfl) fun x => sshiftRight_eq_ofInt x k.toNat :),
      runs_of (fun _ => rfl) fun _ => rfl, runs_movs u d m⟩

/-! ### Division without a quotient (R118) -/

/-- Settles O13: where there is no quotient the results of R117 are the fixed ones, and −2^63 by −1 wraps. -/
theorem divisionCorners : Obligations.DivisionCorners := by
  refine fun u d a b m => ⟨?_, runs_movs u d m⟩
  simp only [List.forall_mem_cons, List.not_mem_nil, false_imp_iff, implies_true, and_true]
  have nonzero {y : DWord} (h : y = -1) : y ≠ 0 := h ▸ by decide
  refine ⟨fun s issues => ⟨fun zero => ?_, fun least minus => ⟨fun _ => ?_, nofun⟩⟩, fun s issues => ⟨fun zero => ?_, fun _ _ => ⟨nofun, nofun⟩⟩,
    fun s issues => ⟨fun zero => ?_, fun least minus => ⟨nofun, fun _ => ?_⟩⟩, fun s issues => ⟨fun zero => ?_, fun _ _ => ⟨nofun, nofun⟩⟩⟩
  · rw [runs_div u d a b s issues]
    simp only [if_pos zero, if_true]
    rfl
  · rw [runs_div u d a b s issues]
    simp only [if_neg (nonzero minus)]
    rw [least, minus]
    rfl
  · rw [runs_divu u d a b s issues]
    simp only [if_pos zero, reduceCtorEq, if_true, if_false]
    rfl
  · rw [runs_rem u d a b s issues]
    simp only [if_pos zero, reduceCtorEq, if_false]
  · rw [runs_rem u d a b s issues]
    simp only [if_neg (nonzero minus)]
    rw [least, minus]
    rfl
  · rw [runs_remu u d a b s issues]
    simp only [if_pos zero, reduceCtorEq, if_false]

/-! ### Selection (R120) -/

theorem grdOf_sel (u : Pfx) (d a : BitVec 6) (c : BitVec 4) : grdOf (wordOf (.sel u d a c)) = ⟨u.n, u.g⟩ := by
  change grdOf (u.bits ++ 15#6 ++ d ++ a ++ c ++ 0#4) = _
  simp (disch := decide) only [grdOf, Pfx.bits, exHigh, exLow, exAll, bitHigh, bitLow, bitOf, Nat.reduceSub]

/-- A form that tests bit 0 of its guard is wholly guarded off where that bit is 0 (R24). -/
theorem and_one_eq_zero {g : BitVec 32} (h : g.getLsbD 0 = false) : (g &&& 1 == 0) = true := by
  rw [beq_iff_eq]
  apply BitVec.eq_of_getLsbD_eq
  intro j hj
  by_cases zero : j = 0
  · subst zero
    simpa using h
  · simp [zero]

/-- Settles O14: the effect is a write or none by bit 0 of pc; a guard whose bit 0 is 0 is false for a scalar form. -/
theorem selectOrNothing : Obligations.SelectOrNothing := by
  refine fun u d a c => ⟨runs_of (fun _ => rfl) fun _ => rfl, fun s asleep running wf off => ?_, ?_, rfl⟩
  · have sel : exec (.sel u d a c) s = issue (.sel u d a c) s
        (fun s => if (s.readP c).getLsbD 0 then s.putS latAlu d (s.readS a) 0 else s) := rfl
    rw [sel, issue_guardedOff _ asleep running wf]
    · rfl
    · rw [State.guardedOff, grdOf_sel]
      exact and_one_eq_zero off
  · change opcOf (u.bits ++ 15#6 ++ d ++ a ++ c ++ 0#4) = _
    simp (disch := decide) only [opcOf, exHigh, exLow, Nat.reduceSub]
    rfl

/-! ### Compares (R119) -/

/-- A compare whose relation decides a proposition. -/
theorem runs_cmp2 (i : Instr) {p : BitVec 4} {a b : BitVec 6} {f : DWord → DWord → Bool} {g : DWord → DWord → Prop}
    [∀ x y, Decidable (g x y)] (h : ∀ s, exec i s = issue i s (fun s => s.cmp2 p a b f)) (e : ∀ x y, f x y = true ↔ g x y) :
    Claim.Runs i (fun s => s.putP 1 p (if g (s.readS a) (s.readS b) then BitVec.allOnes 32 else 0) (BitVec.allOnes 32) 0) :=
  runs_of h fun s => congrArg (s.putP 1 p · (BitVec.allOnes 32) 0) (if_congr (e _ _) rfl rfl)

theorem opcOf_compare (u : Pfx) (k : BitVec 6) (p : BitVec 4) (a b : BitVec 6) :
    opcOf (u.bits ++ k ++ p ++ 0#2 ++ a ++ b ++ 0#2) = k.toNat := by
  simp (disch := decide) only [opcOf, exHigh, exLow, exAll, Nat.reduceSub]

/-- Bits 1 and 0 of a compare are reserved (Table 3.5). -/
theorem decodeWord_compare_reserved {w : Word} (h : opcOf w ∈ List.range' 0x28 6) (low : w.toNat % 4 ≠ 0) :
    ∃ e, decodeWord .s w = .error e := by
  have bits : fixedBits .s (opcOf w) = (0xC003, 0) := by
    generalize opcOf w = k at h
    fin_cases h <;> rfl
  unfold decodeWord
  split
  · exact ⟨_, rfl⟩
  · refine ⟨_, if_neg ?_⟩
    rw [bits]
    intro (clear : w.toNat &&& 0xC003 = 0)
    have two : w.toNat % 2 ^ 2 &&& 0xC003 % 2 ^ 2 = 0 := by rw [← Nat.and_mod_two_pow, clear]
    exact low ((Nat.mod_mod w.toNat 4).symm.trans ((Nat.and_two_pow_sub_one_eq_mod (w.toNat % 4) 2).symm.trans two))

/-- Settles O15: each compare writes its relation to all 32 bits; the opcodes and the reserved bits are those of the table. -/
theorem integerCompares : Obligations.IntegerCompares := by
  refine fun u p a b => ⟨(runs_cmp2 (.cmpeq u p a b) (fun _ => rfl) fun x y => beq_iff_eq :),
    (runs_cmp2 (.cmpne u p a b) (fun _ => rfl) fun x y => bne_iff_ne :),
    (runs_cmp2 (.cmplt u p a b) (fun _ => rfl) fun x y => BitVec.slt_iff_toInt_lt :),
    (runs_cmp2 (.cmple u p a b) (fun _ => rfl) fun x y => BitVec.sle_iff_toInt_le :),
    (runs_cmp2 (.cmpltu u p a b) (fun _ => rfl) fun x y => BitVec.ult_iff_lt :),
    (runs_cmp2 (.cmpleu u p a b) (fun _ => rfl) fun x y => BitVec.ule_iff_le :), ?_, fun w opc low => ?_,
    fun c v m d => c.stored_store_p0 v m d⟩
  · have opc (k : BitVec 6) := opcOf_compare u k p a b
    exact congrArg₂ _ (opc 0x28) (congrArg₂ _ (opc 0x29) (congrArg₂ _ (opc 0x2A) (congrArg₂ _ (opc 0x2B)
      (congrArg₂ _ (opc 0x2C) (congrArg₂ _ (opc 0x2D) rfl)))))
  · refine decodeWord_compare_reserved ?_ low
    rwa [opcOf, BitVec.extractLsb'_toNat, Nat.shiftRight_eq_div_pow]

end Sys2Proof.Machine
end

section
/-! SUPPORT. The B slot at issue (R82): the faults of each form, the progress records that it reports (R183), and the
containment regions (R134). -/

namespace Sys2Proof.Machine

/-! ### Faults of the B slot at issue (R82) -/

theorem issueFault_b (w : Word) (i : Instr) (s : State) :
    issueFault .b w i s = (bFault i s).map (fun x => if x.1 = causeIllopnd then (x.1, w.setWidth 128) else x) := rfl

section

variable {s : State} {w : Word} {i : Instr} {b : Bool} {p : Prop}

/-- A form whose one fault at issue is an illegal operand. -/
theorem issueFault_illegal (h : bFault i s = if b then some (causeIllopnd, 0) else none) (e : b = true ↔ p) :
    (p → issueFault .b w i s = some (0x03, w.setWidth 128)) ∧ (¬ p → issueFault .b w i s = none) := by
  rw [issueFault_b, h]
  exact ⟨fun hp => by rw [if_pos (e.mpr hp)]; rfl, fun hp => by rw [if_neg (mt e.mp hp)]; rfl⟩

/-- A form whose one fault at issue is an address fault. -/
theorem issueFault_address (h : bFault i s = if b then some (causeAddr, 0) else none) (e : b = true ↔ p) :
    (p → issueFault .b w i s = some (0x05, 0)) ∧ (¬ p → issueFault .b w i s = none) := by
  rw [issueFault_b, h]
  exact ⟨fun hp => by rw [if_pos (e.mpr hp)]; rfl, fun hp => by rw [if_neg (mt e.mp hp)]; rfl⟩

/-- A form that reports a progress record where one is to be reported, and goes on else. -/
theorem issueFault_reports {r : Option (BitVec 128)} {P : BitVec 128 → Prop} {f : Option FaultDetail} {q : Prop}
    (h : bFault i s = match r with | some x => some (causeXlat, x) | none => f) (e : ∀ x, r = some x ↔ P x)
    (rest : issueFault .b w i s = f.map (fun x => if x.1 = causeIllopnd then (x.1, w.setWidth 128) else x) → q) :
    (∀ x, P x → issueFault .b w i s = some (0x0C, x)) ∧ ((∀ x, ¬ P x) → q) := by
  refine ⟨fun x hx => ?_, fun none_ => rest ?_⟩
  · rw [issueFault_b, h, (e x).mpr hx]
    rfl
  · rw [issueFault_b, h, Option.eq_none_iff_forall_ne_some.mpr fun x hx => none_ x ((e x).mp hx)]

end

theorem extract_ne_zero (a : DWord) (lo len : Nat) :
    (a.extractLsb' lo len != 0) = true ↔ a.toNat / 2 ^ lo % 2 ^ len ≠ 0 := by
  rw [bne_iff_ne, ne_eq, ← BitVec.toNat_inj, BitVec.extractLsb'_toNat, Nat.shiftRight_eq_div_pow]
  simp

/-- An address above device space, or off its alignment. -/
theorem badAddress_iff (a : DWord) (k : Nat) :
    (a.extractLsb' 56 8 != 0 || a.extractLsb' 0 k != 0) = true ↔ 2 ^ 56 ≤ a.toNat ∨ a.toNat % 2 ^ k ≠ 0 := by
  have := a.isLt
  rw [Bool.or_eq_true, extract_ne_zero, extract_ne_zero, Nat.pow_zero, Nat.div_one]
  exact or_congr (by omega) Iff.rfl

theorem badControl_iff (a : DWord) : badControl a = true ↔ a.toNat / 2 ^ 28 % 16 ≠ 0 ∨ a.toNat / 2 ^ 38 ≠ 0 := by
  have := a.isLt
  rw [badControl, Bool.or_eq_true, extract_ne_zero, extract_ne_zero]
  exact or_congr Iff.rfl (by omega)

theorem Ctx.inEpilogue_iff {k : Ctx} : k.inEpilogue = true ↔ ∃ x, k.slice = some x ∧ x.phase = .epilogue := by
  unfold Ctx.inEpilogue
  cases k.slice with
  | none => simp
  | some x => simp

/-- LOOP while one is active, or of a control word with reserved bits. -/
theorem loopRefused_iff {s : State} {d : Nat} {r : BitVec 6} :
    (s.here.loop.depth != 0 || (List.range (d + 1)).any (fun j => badControl (s.readS (r + BitVec.ofNat 6 (2 * j))))) = true ↔
      s.here.loop.depth ≠ 0 ∨ ∃ j ≤ d, (s.readS (r + BitVec.ofNat 6 (2 * j))).toNat / 2 ^ 28 % 16 ≠ 0 ∨
        (s.readS (r + BitVec.ofNat 6 (2 * j))).toNat / 2 ^ 38 ≠ 0 := by
  simp only [Bool.or_eq_true, bne_iff_ne, List.any_eq_true, List.mem_range, Nat.lt_succ_iff, badControl_iff]

/-- YIELD in the epilogue, in a loop or in a region. -/
theorem yieldRefused_iff {k : Ctx} : (k.inEpilogue || k.loop.depth != 0 || k.depth != 0) = true ↔
    (∃ x, k.slice = some x ∧ x.phase = .epilogue) ∨ k.loop.depth ≠ 0 ∨ k.depth ≠ 0 := by
  simp only [Bool.or_eq_true, Ctx.inEpilogue_iff, bne_iff_ne, or_assoc]

/-- ERET outside a trap, or at another DEPTH than its own. -/
theorem eretRefused_iff {k : Ctx} : (match k.trap with | none => true | some t => t.depth != k.depth) = true ↔
    ∀ x, k.trap = some x → x.depth ≠ k.depth := by
  cases k.trap with
  | none => simp
  | some x => simp

/-! ### The progress records that WAIT and NDONE report (R183) -/

/-- The first failed copy among some ids. -/
def Ctx.FirstFaulted (k : Ctx) (y : BitVec 16) (x : BitVec 128) : Prop :=
  ∃ j < 16, y.getLsbD j = true ∧ k.copy j = .faulted x ∧ ∀ n < j, y.getLsbD n = true → ∀ v, k.copy n ≠ .faulted v

/-- The first failed posted operation of some classes. -/
def Ctx.FirstFailed (k : Ctx) (y : BitVec 16) (x : BitVec 128) : Prop :=
  ∃ p c q, k.failed = p ++ (c, x) :: q ∧ y.getLsbD c.toNat = true ∧ ∀ v ∈ p, y.getLsbD v.1.toNat = false

theorem range_split {j n : Nat} (h : j < n) : ∃ l, List.range n = List.range j ++ j :: l := by
  refine ⟨(List.range n).drop (j + 1), ?_⟩
  have rest : (List.range n).drop j = j :: (List.range n).drop (j + 1) := by
    rw [List.drop_eq_getElem_cons (by rwa [List.length_range]), List.getElem_range]
  rw [← rest, ← Nat.min_eq_left h.le, ← List.take_range, Nat.min_eq_left h.le, List.take_append_drop]

theorem Ctx.faultedCopy_eq_some {k : Ctx} {y : BitVec 16} {x : BitVec 128} : k.faultedCopy y = some x ↔ k.FirstFaulted y x := by
  have first {x : BitVec 128} (h : k.FirstFaulted y x) : k.faultedCopy y = some x := by
    obtain ⟨j, hj, named, faulted, before⟩ := h
    obtain ⟨l, split_⟩ := range_split hj
    refine List.findSome?_eq_some_iff.mpr ⟨List.range j, j, l, split_, by rw [if_pos named, faulted], fun n hn => ?_⟩
    by_cases hy : y.getLsbD n = true
    · rw [if_pos hy]
      have := before n (List.mem_range.mp hn) hy
      cases hc : k.copy n with
      | faulted v => exact absurd hc (this v)
      | _ => rfl
    · rw [if_neg hy]
  refine ⟨fun h => ?_, first⟩
  have some_ := Ctx.faultedCopy_isSome.mp (Option.isSome_of_eq_some h)
  classical
  obtain ⟨hj, named, v, faulted⟩ := Nat.find_spec some_
  have found : k.FirstFaulted y v := ⟨Nat.find some_, hj, named, faulted, fun n hn hy v hv =>
    Nat.find_min some_ hn ⟨hn.trans hj, hy, v, hv⟩⟩
  exact Option.some.inj ((first found).symm.trans h) ▸ found

theorem Ctx.failedPost_eq_some {k : Ctx} {y : BitVec 16} {x : BitVec 128} : k.failedPost y = some x ↔ k.FirstFailed y x := by
  unfold Ctx.failedPost Ctx.FirstFailed
  rw [Option.map_eq_some_iff]
  simp only [List.find?_eq_some_iff_append, Bool.not_eq_true']
  constructor
  · rintro ⟨⟨c, v⟩, ⟨named, p, q, split_, before⟩, rfl⟩
    exact ⟨p, c, q, split_, named, before⟩
  · rintro ⟨p, c, q, split_, named, before⟩
    exact ⟨(c, x), ⟨named, p, q, split_, before⟩, rfl⟩

/-- The first queue that is not empty. -/
theorem Ctx.fullQueue_first {k : Ctx} {q : Nat} (hq : q < 4) (full : SMap.get [] k.q q ≠ [])
    (before : ∀ j < q, SMap.get [] k.q j = []) : k.fullQueue = some q := by
  obtain ⟨l, split_⟩ := range_split hq
  refine List.find?_eq_some_iff_append.mpr ⟨decide_eq_true full, List.range q, l, split_, fun j hj => ?_⟩
  simp [before j (List.mem_range.mp hj)]

theorem Ctx.fullQueue_none {k : Ctx} (empty : ∀ q < 4, SMap.get [] k.q q = []) : k.fullQueue = none := by
  refine List.find?_eq_none.mpr fun q hq => ?_
  simp [empty q (List.mem_range.mp hq)]

section

variable {s : State} {w : Word} {u : Grd}

/-- NDONE elsewhere than in the epilogue, outside every loop and region, is an illegal operand (R138). -/
theorem issueFault_ndone_early (early : ¬ (∃ x, s.here.slice = some x ∧ x.phase = .epilogue) ∨ s.here.loop.depth ≠ 0 ∨
    s.here.depth ≠ 0) : issueFault .b w (.ndone u) s = some (0x03, w.setWidth 128) := by
  have refused : (!s.here.inEpilogue || s.here.loop.depth != 0 || s.here.depth != 0) = true := by
    simpa only [Bool.or_eq_true, Bool.not_eq_true', ← Bool.not_eq_true, Ctx.inEpilogue_iff, bne_iff_ne, or_assoc] using early
  rw [issueFault_b, bFault, if_pos refused]
  rfl

/-- What is left of the faults of NDONE in its place. -/
theorem bFault_ndone (inPlace : ¬ (¬ (∃ x, s.here.slice = some x ∧ x.phase = .epilogue) ∨ s.here.loop.depth ≠ 0 ∨
    s.here.depth ≠ 0)) : bFault (.ndone u) s = match s.here.fullQueue with
      | some q => some (causeQueue, BitVec.ofNat 128 q)
      | none => match s.here.faultedCopy (BitVec.allOnes 16) with
        | some r => some (causeXlat, r)
        | none => (s.here.failedPost (BitVec.allOnes 16)).map (fun r => (causeXlat, r)) := by
  have passes : ¬ (!s.here.inEpilogue || s.here.loop.depth != 0 || s.here.depth != 0) = true := by
    simpa only [Bool.or_eq_true, Bool.not_eq_true', ← Bool.not_eq_true, Ctx.inEpilogue_iff, bne_iff_ne, or_assoc] using inPlace
  rw [bFault, if_neg passes] <;> rfl

end

/-! ### Containment regions (R134) -/

theorem low_address_eq (a : DWord) : (a.extractLsb' 0 56).setWidth 64 = BitVec.ofNat 64 (a.toNat % 2 ^ 56) := by
  apply BitVec.eq_of_toNat_eq
  rw [BitVec.toNat_setWidth, BitVec.extractLsb'_toNat, BitVec.toNat_ofNat, Nat.shiftRight_zero]

/-- A context in one more region, with its handler. -/
def Ctx.opened (k : Ctx) (o : BitVec 20) : Ctx :=
  { k with
    hand := SMap.setD 0 k.hand k.depth.toNat (BitVec.ofNat 64 ((k.pc + BitVec.ofInt 64 (4 * o.toInt)).toNat % 2 ^ 56))
    depth := k.depth + 1 }

/-- A context out of its innermost region. -/
def Ctx.closed (k : Ctx) : Ctx :=
  { k with
    depth := k.depth - 1
    trap := k.trap.map (fun t => { t with floor := if k.depth - 1 < t.floor then k.depth - 1 else t.floor }) }

theorem runs_ctnOpen (u : Grd) (o : BitVec 20) : Claim.Runs (.ctnOpen u o) (fun s => s.upd (·.opened o)) :=
  runs_of (eff' := fun s => s.upd (fun k => { k with
      hand := SMap.setD 0 k.hand k.depth.toNat (((s.target o).extractLsb' 0 56).setWidth 64), depth := k.depth + 1 }))
    (fun _ => rfl) fun s => by rw [State.target_eq, low_address_eq]; rfl

theorem runs_ctnClose (u : Grd) : Claim.Runs (.ctnClose u) (fun s => s.upd Ctx.closed) := runs_of (fun _ => rfl) fun _ => rfl

theorem opcOf_ctnOpen (u : Grd) (o : BitVec 20) : opcOf (wordOf (.ctnOpen u o)) = 0xB := by
  change opcOf (u.bits ++ 11#6 ++ o) = _
  simp (disch := decide) only [opcOf, exHigh, exLow, Nat.reduceSub]
  rfl

theorem opcOf_ctnClose (u : Grd) : opcOf (wordOf (.ctnClose u)) = 0xC := by
  change opcOf (u.bits ++ 12#6 ++ 0#20) = _
  simp (disch := decide) only [opcOf, exHigh, exLow, Nat.reduceSub]
  rfl

/-- A form of the B slot that names no register, waits for nothing and touches no region is ready (R87). -/
theorem slotReady_of_free {w : Word} {i : Instr} {s : State} (opc : opcOf w = 0xB ∨ opcOf w = 0xC) (waits : hasFormWait i = false)
    (array : isArray i = false) (regions : slabUse i s = ([], [])) : slotReady .b w i s = true := by
  have named (f : File) : namedIn f .b w = [] := by obtain h | h := opc <;> simp [namedIn, h, regFields]
  have uses : sUses .b w = [] := by obtain h | h := opc <;> simp [sUses, named, h]
  refine slotReady_iff.mpr ⟨?_, ?_, formReady_of_noFormWait waits, ?_, regionReady_iff.mpr ?_⟩
  · simp [uses]
  · simp [named]
  · simp [array]
  · simp [regions]

/-- A form that reads no block of its own issues, outside a bundle, on the machine with its slot named. -/
theorem Claim.issuing_alone {i : Instr} {s : State} (g : s.granted = false)
    (blocks : blockKeys i { s with slot := (classOf i).slot, heldNow := false } = []) :
    ∃ n, Claim.issuing i s = { s with slot := (classOf i).slot, heldNow := false, stall := n } := by
  refine ⟨stallOf (isCounted i) (issueGranules i { s with slot := (classOf i).slot, heldNow := false }), ?_⟩
  rw [Claim.issuing, if_neg (by simp [g])]
  dsimp only
  rw [State.settleBlocks_nil blocks]

/-- A fault at issue of a form that reads no block has no effect but its trap. -/
theorem exec_faults_of_no_block {i : Instr} {s : State} (h : IsIssue i) (g : s.granted = false) (b : s.boot = .running)
    (w : i.wf = true)
    (o : ({ s with slot := (classOf i).slot, heldNow := false } : State).guardedOff (classOf i) (wordOf i) = false)
    (r : slotReady (classOf i) (wordOf i) i { s with slot := (classOf i).slot, heldNow := false } = true)
    {x : BitVec 8} {d : BitVec 128} (f : issueFault (classOf i) (wordOf i) i (Claim.issuing i s) = some (x, d))
    (blocks : ∀ s, blockKeys i s = []) :
    exec i s = .next (((Claim.issuing i s).upd (fun k => { k with named := namedBy i })).raise s.cur (classOf i).slot
      false x d 0) := by
  obtain ⟨eff, e⟩ := h
  rw [e, issue_faults eff g b w o r f, State.seeBlock, blocks]

section

variable {s : State} {u : Grd} {o : BitVec 20}

/-- A region opens where one is left, on a machine that no bundle has granted (R87). -/
theorem Claim.issues_ctnOpen (g : s.granted = false) (b : s.boot = .running)
    (on : ({ s with slot := 0, heldNow := false } : State).guardedOff .b (wordOf (.ctnOpen u o)) = false)
    (left_ : s.here.depth ≠ 4) : Claim.Issues (.ctnOpen u o) s := by
  refine .inr ⟨b, rfl, on, slotReady_of_free (.inl (opcOf_ctnOpen u o)) rfl rfl rfl, ?_, rfl⟩
  obtain ⟨n, h⟩ := Claim.issuing_alone (i := .ctnOpen u o) g rfl
  rw [h]
  exact (issueFault_illegal rfl (beq_iff_eq (b := 4))).2 left_

/-- A region closes where one is open, on a machine that no bundle has granted (R87). -/
theorem Claim.issues_ctnClose (g : s.granted = false) (b : s.boot = .running)
    (on : ({ s with slot := 0, heldNow := false } : State).guardedOff .b (wordOf (.ctnClose u)) = false)
    (left_ : s.here.depth ≠ 0) : Claim.Issues (.ctnClose u) s := by
  refine .inr ⟨b, rfl, on, slotReady_of_free (.inr (opcOf_ctnClose u)) rfl rfl rfl, ?_, rfl⟩
  obtain ⟨n, h⟩ := Claim.issuing_alone (i := .ctnClose u) g rfl
  rw [h]
  exact (issueFault_illegal rfl (beq_iff_eq (b := 0))).2 left_

/-- A region form at its limit is an illegal operand, and has no other effect. -/
theorem exec_region_at_limit {i : Instr} (hi : i ∈ [Instr.ctnOpen u o, .ctnClose u]) (g : s.granted = false)
    (b : s.boot = .running) (full : i = .ctnOpen u o → s.here.depth = 4) (none_ : i = .ctnClose u → s.here.depth = 0)
    (on : ({ s with slot := 0, heldNow := false } : State).guardedOff .b (wordOf i) = false)
    (ready : slotReady .b (wordOf i) i { s with slot := 0, heldNow := false } = true) :
    exec i s = .next (((Claim.issuing i s).upd (fun k => { k with named := namedBy i })).raise s.cur 0 false 0x03
      ((wordOf i).setWidth 128) 0) := by
  rw [List.mem_cons, List.mem_singleton] at hi
  obtain rfl | rfl := hi
  · obtain ⟨n, h⟩ := Claim.issuing_alone (i := .ctnOpen u o) g rfl
    exact exec_faults_of_no_block (isIssue_b rfl) g b rfl on ready (by
      rw [h]
      exact (issueFault_illegal rfl (beq_iff_eq (b := 4))).1 (full rfl)) fun _ => rfl
  · obtain ⟨n, h⟩ := Claim.issuing_alone (i := .ctnClose u) g rfl
    exact exec_faults_of_no_block (isIssue_b rfl) g b rfl on ready (by
      rw [h]
      exact (issueFault_illegal rfl (beq_iff_eq (b := 0))).1 (none_ rfl)) fun _ => rfl

theorem exec_ctnOpen_alone (g : s.granted = false) (b : s.boot = .running)
    (on : ({ s with slot := 0, heldNow := false } : State).guardedOff .b (wordOf (.ctnOpen u o)) = false)
    (left_ : s.here.depth ≠ 4) : ∃ t, exec (.ctnOpen u o) s = .next t ∧ t.here = s.here.opened o ∧ ∀ a, t.byte a = s.byte a := by
  obtain ⟨n, h⟩ := Claim.issuing_alone (i := .ctnOpen u o) g rfl
  refine ⟨_, runs_ctnOpen u o s (Claim.issues_ctnOpen g b on left_), ?_, fun a => ?_⟩
  · rw [State.here_upd, h]
    rfl
  · rw [h]
    rfl

theorem exec_ctnClose_alone (g : s.granted = false) (b : s.boot = .running)
    (on : ({ s with slot := 0, heldNow := false } : State).guardedOff .b (wordOf (.ctnClose u)) = false)
    (left_ : s.here.depth ≠ 0) : ∃ t, exec (.ctnClose u) s = .next t ∧ t.here = s.here.closed ∧ ∀ a, t.byte a = s.byte a := by
  obtain ⟨n, h⟩ := Claim.issuing_alone (i := .ctnClose u) g rfl
  refine ⟨_, runs_ctnClose u s (Claim.issues_ctnClose g b on left_), ?_, fun a => ?_⟩
  · rw [State.here_upd, h]
    rfl
  · rw [h]
    rfl

end

section

variable {s : State} {w : Word} {u : Grd}

theorem issueFault_wait_copy (m : BitVec 16) :
    (∀ x, s.here.FirstFaulted m x → issueFault .b w (.wait u 0 m) s = some (0x0C, x)) ∧
      ((∀ x, ¬ s.here.FirstFaulted m x) → issueFault .b w (.wait u 0 m) s = none) := by
  have fault : bFault (.wait u 0 m) s = match s.here.faultedCopy m with | some x => some (causeXlat, x) | none => none := by
    rw [bFault, if_pos rfl]
    cases s.here.faultedCopy m <;> rfl
  exact issueFault_reports fault (fun x => Ctx.faultedCopy_eq_some) fun h => h

theorem issueFault_wait_post (m : BitVec 16) :
    (∀ x, s.here.FirstFailed m x → issueFault .b w (.wait u 2 m) s = some (0x0C, x)) ∧
      ((∀ x, ¬ s.here.FirstFailed m x) → issueFault .b w (.wait u 2 m) s = none) := by
  have fault : bFault (.wait u 2 m) s = match s.here.failedPost m with | some x => some (causeXlat, x) | none => none := by
    rw [bFault, if_neg (by decide), if_pos rfl]
    cases s.here.failedPost m <;> rfl
  exact issueFault_reports fault (fun x => Ctx.failedPost_eq_some) fun h => h

theorem issueFault_wait_else {k : BitVec 2} (m : BitVec 16) (h0 : k ≠ 0) (h2 : k ≠ 2) :
    issueFault .b w (.wait u k m) s = none := by
  rw [issueFault_b, bFault, if_neg h0, if_neg h2]
  rfl

/-- NDONE in its place: the first queue that is not empty, then what WAIT would report of the copies, then of the posted
operations. -/
theorem issueFault_ndone (inPlace : ¬ (¬ (∃ x, s.here.slice = some x ∧ x.phase = .epilogue) ∨ s.here.loop.depth ≠ 0 ∨
      s.here.depth ≠ 0)) :
    (∀ q < 4, SMap.get [] s.here.q q ≠ [] → (∀ j < q, SMap.get [] s.here.q j = []) →
      issueFault .b w (.ndone u) s = some (0x08, BitVec.ofNat 128 q)) ∧
    ((∀ q < 4, SMap.get [] s.here.q q = []) →
      (∀ x, s.here.FirstFaulted (BitVec.allOnes 16) x → issueFault .b w (.ndone u) s = some (0x0C, x)) ∧
      ((∀ x, ¬ s.here.FirstFaulted (BitVec.allOnes 16) x) →
        (∀ x, s.here.FirstFailed (BitVec.allOnes 16) x → issueFault .b w (.ndone u) s = some (0x0C, x)) ∧
        ((∀ x, ¬ s.here.FirstFailed (BitVec.allOnes 16) x) → issueFault .b w (.ndone u) s = none))) := by
  refine ⟨fun q hq full before => ?_, fun empty => ?_⟩
  · rw [issueFault_b, bFault_ndone inPlace, Ctx.fullQueue_first hq full before]
    rfl
  · have fault := (bFault_ndone (u := u) inPlace).trans (by rw [Ctx.fullQueue_none empty])
    refine issueFault_reports fault (fun x => Ctx.faultedCopy_eq_some) fun rest => ⟨fun x hx => ?_, fun none_ => ?_⟩
    · rw [rest, Ctx.failedPost_eq_some.mpr hx]
      rfl
    · rw [rest, Option.eq_none_iff_forall_ne_some.mpr fun x hx => none_ x (Ctx.failedPost_eq_some.mp hx)]
      rfl

end

/-- Settles O36: a region form reads no block, names no register and waits for nothing, so that DEPTH alone decides; each fault
of the B slot is the one condition of its form, or the first record of an ordered search. -/
theorem containmentRegions : Obligations.ContainmentRegions := by
  refine ⟨fun u o s => ⟨runs_ctnOpen u o s, runs_ctnClose u s, fun g b => ⟨fun on left_ => ?_, fun on left_ => ?_⟩,
    fun i hi g b full none_ on ready => exec_region_at_limit hi g b full none_ on ready⟩,
    fun s w u r t o l d sc k m b z => ⟨issueFault_address rfl (badAddress_iff _ 2), issueFault_address rfl (badAddress_iff _ 2),
      issueFault_address rfl (badAddress_iff _ 6), issueFault_address rfl (badAddress_iff _ 7),
      issueFault_illegal rfl loopRefused_iff, issueFault_illegal rfl (Bool.not_eq_true' _).to_iff, issueFault_illegal rfl eretRefused_iff,
      issueFault_illegal rfl beq_iff_eq, issueFault_illegal rfl beq_iff_eq, issueFault_illegal rfl yieldRefused_iff,
      issueFault_wait_copy m, issueFault_wait_post m, issueFault_wait_else m,
      ⟨issueFault_ndone_early, issueFault_ndone⟩, fun i hi => ?_⟩⟩
  · obtain ⟨t, runs, here, bytes⟩ := exec_ctnOpen_alone g b on left_
    exact ⟨t, runs, by rw [here]; rfl, by rw [here]; exact SMap.get_setD_same .., bytes⟩
  · obtain ⟨t, runs, here, bytes⟩ := exec_ctnClose_alone g b on left_
    exact ⟨t, runs, by rw [here]; rfl, by rw [here]; rfl, bytes⟩
  · fin_cases hi <;> rfl

end Sys2Proof.Machine
end

section
/-! SUPPORT. The waits and messages of the B slot (R129, R131, R133, R135, R136) and the statistics queue (R140). -/

namespace Sys2Proof.Machine

/-! ### Messages to Keystone (R135, R136) -/

/-- A context of an open space posts behind what it issued before. -/
theorem State.post_of_space {s : State} {sp : Nat} (f : Option Behind → Nat → KsMsg) (h : s.spaceOf s.cur.core = some sp) :
    s.post f = { s with ksq := s.ksq ++ [f (some ⟨s.cur, s.freshId, false⟩) sp] } := by
  unfold State.post
  rw [h]

/-! ### The statistics queue (R140) -/

/-- A quiet scalar result leaves the operations on their way. -/
theorem State.here_ops_putS (s : State) (lat : Nat) (r : BitVec 6) (v : DWord) : (s.putS lat r v 0).here.ops = s.here.ops := by
  unfold State.putS
  rw [State.result_quiet, State.here_upd]

/-- SQRD removes the oldest record of the core's queue into a pair. -/
theorem State.popSq_of_free {s : State} (free : ∀ x ∈ s.here.ops, x.interlocks = none) (r : BitVec 6) :
    s.popSq r = ((s.updCore s.cur.core (fun k => { k with sq := k.sq.drop 1 })).putS 2 r
      ((s.myCore.sq.headD 0).setWidth 64) 0).putS 2 (r + 1) (BitVec.ofNat 64 ((s.myCore.sq.headD 0).toNat / 2 ^ 64)) 0 := by
  have low : (s.myCore.sq.headD 0).extractLsb' 0 64 = (s.myCore.sq.headD 0).setWidth 64 :=
    (BitVec.setWidth_eq_extractLsb' (by decide)).symm
  have high : (s.myCore.sq.headD 0).extractLsb' 64 64 = BitVec.ofNat 64 ((s.myCore.sq.headD 0).toNat / 2 ^ 64) := by
    rw [BitVec.extractLsb', Nat.shiftRight_eq_div_pow]
  have none_ {d : BitVec 6} (x : MemOp) (h : x ∈ s.here.ops) : x.interlocks ≠ some d := by simp [free x h]
  have same : (s.updCore s.cur.core (fun k => { k with sq := k.sq.drop 1 })).here = s.here :=
    State.ctx_updCore s _ (f := fun k => { k with sq := k.sq.drop 1 }) (fun _ _ => rfl) s.cur
  unfold State.popSq
  dsimp only
  rw [low, high, State.putFirst_of_free (r := r) (by rw [same]; exact none_),
    State.putFirst_of_free (r := r + 1) (by rw [State.here_ops_putS, same]; exact none_)]

/-- Settles O37: each form is an issue with the effect stated; the order of a message is that of the operations before it. -/
theorem waitsAndMessages : Obligations.WaitsAndMessages := by
  refine ⟨fun u n => runs_of (fun _ => rfl) fun _ => rfl, fun u k m sc r q => ⟨?_, ?_, fun s sp issues space => ?_,
    fun s sp issues space => ?_, fun s issues free => ?_⟩⟩
  · exact runs_of (eff' := fun s => if k = 0 then s.notePlain (.ctx s.cur) s.freshId (.waited m) 0 [] else s)
      (fun _ => rfl) fun _ => rfl
  · exact runs_of (fun _ => rfl) fun _ => rfl
  · have launches : exec (.glaunch u r) s = issue (.glaunch u r) s (fun s => s.post (fun b sp => .launch b sp (s.readS r))) := rfl
    rw [launches, issue_of_issues _ issues, State.post_of_space _ space]
  · have beads : exec (.bead u r q) s = issue (.bead u r q) s
        (fun s => s.post (fun b sp => .bead b sp (s.readS r) q.toNat)) := rfl
    rw [beads, issue_of_issues _ issues, State.post_of_space _ space]
  · have pops : exec (.sqrd u r) s = issue (.sqrd u r) s (fun s => s.popSq r) := rfl
    rw [pops, issue_of_issues _ issues, State.popSq_of_free free]

end Sys2Proof.Machine
end

section
/-! SUPPORT. Barriers (R130): what binds one, what an arrival does to it, and whom it releases. -/

namespace Sys2Proof.Machine

/-! ### Arrival -/

/-- The bit of a core in the mask of a barrier of its course. -/
def courseBit (c : CtxId) : BitVec 8 := 1#8 <<< (c.core % 8)

/-- The barrier of a course. -/
def State.barrier (s : State) (n : Nat) (b : BitVec 4) : Option Barrier := SMap.get none (s.course n).barriers b.toNat

def State.setBarrier (s : State) (n : Nat) (b : BitVec 4) (x : Option Barrier) : State :=
  s.setCourse n { s.course n with barriers := SMap.setD none (s.course n).barriers b.toNat x }

@[simp] theorem State.ctx_setBarrier (s : State) (n : Nat) (b : BitVec 4) (x : Option Barrier) (c : CtxId) :
    (s.setBarrier n b x).ctx c = s.ctx c := rfl

@[simp] theorem State.barrier_setBarrier (s : State) (n : Nat) (b : BitVec 4) (x : Option Barrier) :
    (s.setBarrier n b x).barrier n b = x := by
  unfold State.barrier State.setBarrier
  rw [State.course_setCourse_same, SMap.get_setD_same]

@[simp] theorem State.ctx_sync (s : State) (a : Agent) (id : Nat) (k : EvKind) (c : CtxId) : (s.sync a id k).ctx c = s.ctx c := rfl

/-- A context notes that it waits at its BAR bundle. -/
def State.arriving (s : State) (c : CtxId) (b : BitVec 4) : State :=
  (s.updCtx c (fun k => { k with arrived := k.arrived.put b.toNat ⟨k.pc, true, false⟩ })).sync (.ctx c) s.stepId
    (.arrive (courseOf c.core) b.toNat)

theorem State.ctx_arriving_other (s : State) {c d : CtxId} (b : BitVec 4) (h : d ≠ c) : (s.arriving c b).ctx d = s.ctx d := by
  rw [State.arriving, State.ctx_sync, State.ctx_updCtx_other _ _ h]

theorem State.runs_arriving (s : State) (c : CtxId) (b : BitVec 4) (g n : Nat) :
    ((s.arriving c b).ctx c).runs g n = (s.ctx c).runs g n := by
  rw [State.arriving, State.ctx_sync, State.ctx_updCtx_same]
  rfl

theorem State.find_arriving (s : State) (c : CtxId) (b : BitVec 4) :
    ((s.arriving c b).ctx c).arrived.find b.toNat = some ⟨(s.ctx c).pc, true, false⟩ := by
  rw [State.arriving, State.ctx_sync, State.ctx_updCtx_same, SMap.find_put, if_pos rfl]

/-- One context of the course where a barrier completes. -/
def State.freeAt (r : Barrier) (b : BitVec 4) (n : Nat) (s : State) (w : CtxId) : State :=
  if r.releases b w (s.ctx w) then (s.updCtx w (fun k => k.release b)).sync (.ctx w) s.stepId (.complete n b.toNat) else s

/-- What an arrival makes of its barrier: it binds an idle one, and joins one that is bound to the same. -/
def State.Binds (s : State) (c : CtxId) (b : BitVec 4) (mask : BitVec 8) (sl : Slice) (r : Barrier) : Prop :=
  (s.barrier (courseOf c.core) b = none ∧ r = ⟨sl.graph, sl.node, mask, courseBit c⟩) ∨
    ∃ o, s.barrier (courseOf c.core) b = some o ∧ o.graph = sl.graph ∧ o.node = sl.node ∧ o.mask = mask ∧
      o.arrived &&& courseBit c = 0 ∧ r = { o with arrived := o.arrived ||| courseBit c }

section

variable {s : State} {c : CtxId} {b : BitVec 4} {mask : BitVec 8} {sl : Slice} {r : Barrier}

/-- An arrival that binds or joins its barrier completes it with the last bit of the mask, and leaves it bound else. -/
theorem State.arrive_of_binds (hs : (s.ctx c).slice = some sl) (h : s.Binds c b mask sl r) :
    s.arrive c b mask = some (if r.arrived = r.mask then
      (courseCtxs (courseOf c.core)).foldl (State.freeAt r b (courseOf c.core)) ((s.arriving c b).setBarrier (courseOf c.core) b none)
    else (s.arriving c b).setBarrier (courseOf c.core) b (some r)) := by
  unfold State.arrive
  rw [hs]
  obtain ⟨idle, rfl⟩ | ⟨o, held, graph, node, same, fresh, rfl⟩ := h
  · unfold State.barrier at idle
    dsimp only
    rw [idle]
    exact (apply_ite some (_ = _) _ _).symm
  · have joins : ¬ (o.graph ≠ sl.graph ∨ o.node ≠ sl.node ∨ o.mask ≠ mask ∨ o.arrived &&& courseBit c ≠ 0) := by
      simp [graph, node, same, fresh]
    unfold State.barrier at held
    dsimp only
    rw [held]
    dsimp only
    rw [courseBit] at joins
    rw [if_neg joins]
    exact (apply_ite some (_ = _) _ _).symm

/-- Another graph, node or mask, or a second arrival, is a mismatch. -/
theorem State.arrive_mismatch (hs : (s.ctx c).slice = some sl) (held : s.barrier (courseOf c.core) b = some r)
    (h : r.graph ≠ sl.graph ∨ r.node ≠ sl.node ∨ r.mask ≠ mask ∨ r.arrived &&& courseBit c ≠ 0) : s.arrive c b mask = none := by
  unfold State.barrier at held
  unfold State.arrive
  rw [hs]
  dsimp only
  rw [held]
  dsimp only
  rw [courseBit] at h
  rw [if_pos h]

end

/-! ### Release -/

theorem mem_courseCtxs (c : CtxId) : c ∈ courseCtxs (courseOf c.core) := by
  have place : 8 * courseOf c.core + c.core % 8 = c.core := Nat.div_add_mod c.core 8
  refine List.mem_flatMap.mpr ⟨c.core % 8, List.mem_range.mpr (Nat.mod_lt _ (by decide)), ?_⟩
  rw [place]
  obtain ⟨core, one⟩ := c
  cases one <;> simp

theorem courseBit_getLsbD (c : CtxId) : (courseBit c).getLsbD (c.core % 8) = true := by
  have lt : c.core % 8 < 8 := Nat.mod_lt _ (by decide)
  simp [courseBit, lt]

/-- A participant of a barrier that waits there. -/
def Barrier.Holds (r : Barrier) (b : BitVec 4) (w : CtxId) (a : Arrival) (x : Ctx) : Prop :=
  r.mask.getLsbD (w.core % 8) = true ∧ x.runs r.graph r.node = true ∧ x.arrived.find b.toNat = some a

section

variable {r : Barrier} {b : BitVec 4} {n : Nat} {s : State} {w : CtxId} {a : Arrival}

@[simp] theorem State.barrier_freeAt (v : CtxId) : (s.freeAt r b n v).barrier n b = s.barrier n b := by
  unfold State.freeAt
  split <;> rfl

theorem State.ctx_freeAt_other {v : CtxId} (h : w ≠ v) : (s.freeAt r b n v).ctx w = s.ctx w := by
  unfold State.freeAt
  split
  · rw [State.ctx_sync, State.ctx_updCtx_other _ _ h]
  · rfl

/-- A participant that waits is released. -/
theorem State.freeAt_holds (h : r.Holds b w a (s.ctx w)) (waits : a.waits = true) :
    r.Holds b w { a with passed := true } ((s.freeAt r b n w).ctx w) := by
  obtain ⟨bit, runs, found⟩ := h
  have free : r.releases b w (s.ctx w) = true := by simp [Barrier.releases, bit, runs, found]
  have released : (s.freeAt r b n w).ctx w = (s.ctx w).release b := by
    rw [State.freeAt, if_pos free, State.ctx_sync, State.ctx_updCtx_same]
  rw [released, Ctx.release, found]
  dsimp only
  rw [if_pos waits]
  exact ⟨bit, runs, by rw [SMap.find_put, if_pos rfl]⟩

/-- Once released, a participant stays released as the others are. -/
theorem State.foldl_freeAt_keeps (l : List CtxId) (h : r.Holds b w a (s.ctx w)) (waits : a.waits = true) (passed : a.passed = true) :
    r.Holds b w a ((l.foldl (State.freeAt r b n) s).ctx w) := by
  induction l generalizing s with
  | nil => exact h
  | cons v l ih =>
    refine ih ?_
    by_cases e : w = v
    · subst e
      have freed := State.freeAt_holds (n := n) h waits
      rwa [← passed] at freed
    · rwa [State.ctx_freeAt_other e]

/-- Every participant that waits is released. -/
theorem State.foldl_freeAt_frees {l : List CtxId} (hw : w ∈ l) (h : r.Holds b w a (s.ctx w)) (waits : a.waits = true) :
    r.Holds b w { a with passed := true } ((l.foldl (State.freeAt r b n) s).ctx w) := by
  induction l generalizing s with
  | nil => cases hw
  | cons v l ih =>
    by_cases e : w = v
    · subst e
      exact State.foldl_freeAt_keeps l (State.freeAt_holds h waits) waits rfl
    · exact ih (List.mem_of_ne_of_mem e hw) (by rwa [State.ctx_freeAt_other e])

@[simp] theorem State.barrier_foldl_freeAt (l : List CtxId) : (l.foldl (State.freeAt r b n) s).barrier n b = s.barrier n b := by
  induction l generalizing s with
  | nil => rfl
  | cons v l ih => exact ih.trans (State.barrier_freeAt v)

end

section

variable {s : State} {c : CtxId} {b : BitVec 4} {mask : BitVec 8} {sl : Slice} {r : Barrier}

/-- An arrival that is not the last leaves its barrier bound, and its context waiting. -/
theorem State.arrive_waits (hs : (s.ctx c).slice = some sl) (h : s.Binds c b mask sl r) (more : r.arrived ≠ r.mask) :
    ∃ t, s.arrive c b mask = some t ∧ t.barrier (courseOf c.core) b = some r ∧
      (t.ctx c).arrived.find b.toNat = some ⟨(s.ctx c).pc, true, false⟩ := by
  refine ⟨_, State.arrive_of_binds hs h, ?_, ?_⟩
  · rw [if_neg more, State.barrier_setBarrier]
  · rw [if_neg more, State.ctx_setBarrier, State.find_arriving]

/-- The last arrival frees its barrier, and releases its own context and every participant that waits. -/
theorem State.arrive_completes (hs : (s.ctx c).slice = some sl) (h : s.Binds c b mask sl r) (last : r.arrived = r.mask)
    (own : r.mask.getLsbD (c.core % 8) = true) (runs : (s.ctx c).runs r.graph r.node = true) :
    ∃ t, s.arrive c b mask = some t ∧ t.barrier (courseOf c.core) b = none ∧
      (t.ctx c).arrived.find b.toNat = some ⟨(s.ctx c).pc, true, true⟩ ∧
      ∀ w ∈ courseCtxs (courseOf c.core), w ≠ c → r.mask.getLsbD (w.core % 8) = true → (s.ctx w).runs r.graph r.node = true →
        ∀ a, (s.ctx w).arrived.find b.toNat = some a → a.waits = true →
          (t.ctx w).arrived.find b.toNat = some { a with passed := true } := by
  refine ⟨_, State.arrive_of_binds hs h, ?_, ?_, fun w hw other bit runs a found waits => ?_⟩
  · rw [if_pos last, State.barrier_foldl_freeAt, State.barrier_setBarrier]
  · rw [if_pos last]
    have holds : r.Holds b c ⟨(s.ctx c).pc, true, false⟩ ((s.arriving c b).ctx c) :=
      ⟨own, (State.runs_arriving s c b _ _).trans runs, State.find_arriving s c b⟩
    obtain ⟨_, _, found⟩ := State.foldl_freeAt_frees (n := courseOf c.core) (s := (s.arriving c b).setBarrier _ b none)
      (mem_courseCtxs c) holds rfl
    exact found
  · rw [if_pos last]
    have holds : r.Holds b w a ((s.arriving c b).ctx w) := by
      rw [State.ctx_arriving_other s b other]
      exact ⟨bit, runs, found⟩
    obtain ⟨_, _, found⟩ := State.foldl_freeAt_frees (n := courseOf c.core) (s := (s.arriving c b).setBarrier _ b none)
      hw holds waits
    exact found

end

/-! ### BAR -/

section

variable {s : State} {b : BitVec 4} {m : BitVec 8}

theorem Ctx.arrivedHere_eq {k : Ctx} {a : Arrival} (found : k.arrived.find b.toNat = some a) (waits : a.waits = true)
    (here : a.pc = k.pc) : k.arrivedHere b = some a := by
  simp [Ctx.arrivedHere, found, Option.filter, waits, here]

theorem Ctx.passed_eq {k : Ctx} {a : Arrival} (found : k.arrived.find b.toNat = some a) (waits : a.waits = true)
    (here : a.pc = k.pc) : k.passed b = a.passed := by
  rw [Ctx.passed, Ctx.arrivedHere_eq found waits here]

theorem exec_bar {u : Grd} (issues : Claim.Issues (.bar u b m) s) :
    exec (.bar u b m) s = .next ((Claim.issuing (.bar u b m) s).bar b m) := by
  have bars : exec (.bar u b m) s = issue (.bar u b m) s (fun s => s.bar b m) := rfl
  rw [bars, issue_of_issues _ issues]

/-- A context whose barrier has completed goes on, and has arrived no more. -/
theorem State.bar_passed (h : s.here.passed b = true) : s.bar b m = s.upd (fun k => k.leave b) := if_pos h

/-- A context that has arrived waits. -/
theorem State.bar_waits {a : Arrival} (h : s.here.arrivedHere b = some a) (wait : s.here.passed b = false) : s.bar b m = s := by
  unfold State.bar
  dsimp only
  rw [if_neg (by simp [wait]), h]
  rfl

/-- A context that has not arrived, and whose operations have performed, arrives. -/
theorem State.bar_arrives (absent : s.here.arrived.find b.toNat = none) (done : s.pends s.cur = []) :
    s.bar b m = match s.arrive s.cur b m with
      | some s => if s.here.passed b then s.upd (fun k => k.leave b) else s
      | none => s.raise s.cur 0 false causeBarmis (b.setWidth 128) 0 := by
  have notHere : s.here.arrivedHere b = none := by rw [Ctx.arrivedHere, absent]; rfl
  have wait : s.here.passed b = false := by rw [Ctx.passed, notHere]
  have performed : s.allPerformed s.cur (16 * (s.tick + 1)) = true := by rw [State.allPerformed, done]; rfl
  unfold State.bar
  dsimp only
  rw [if_neg (by simp [wait]), notHere, performed]
  rfl

end

/-- Settles O38: an arrival binds its barrier or joins it; the last one frees it and releases each participant that waits, and
no other; a bundle that waits goes on once it is released. -/
theorem barriers : Obligations.Barriers := by
  refine ⟨fun s c b mask sl hs => ⟨fun idle more => ?_, fun idle last runs => ?_, fun r held graph node same fresh more => ?_,
    fun r held graph node same fresh last own => ?_, fun r held => State.arrive_mismatch hs held⟩,
    fun u b m s a issues => ⟨fun found waits here passed => ?_, fun found waits here wait => ?_,
      fun r absent done arrives wait => ?_, fun r absent done arrives passed => ?_, fun absent done mismatch => ?_⟩⟩
  · exact State.arrive_waits hs (.inl ⟨idle, rfl⟩) more.symm
  · obtain ⟨t, arrives, free, here, _⟩ := State.arrive_completes hs (.inl ⟨idle, rfl⟩) last.symm
      (by rw [last]; exact courseBit_getLsbD c) runs
    exact ⟨t, arrives, free, here⟩
  · exact State.arrive_waits hs (.inr ⟨r, held, graph, node, same, fresh, rfl⟩) (by rwa [← same] at more)
  · have runs : (s.ctx c).runs r.graph r.node = true := by simp [Ctx.runs, hs, graph, node]
    obtain ⟨t, arrives, free, here, others⟩ := State.arrive_completes hs (.inr ⟨r, held, graph, node, same, fresh, rfl⟩)
      (by rwa [← same] at last) (by rwa [same]) runs
    rw [graph, node, same] at others
    exact ⟨t, arrives, free, here, others⟩
  · rw [exec_bar issues, State.bar_passed ((Ctx.passed_eq found waits here).trans passed)]
    rfl
  · rw [exec_bar issues, State.bar_waits (Ctx.arrivedHere_eq found waits here) ((Ctx.passed_eq found waits here).trans wait)]
  · rw [exec_bar issues, State.bar_arrives absent done, arrives]
    exact congrArg _ (if_neg (by simp [Ctx.passed_eq wait rfl rfl]))
  · rw [exec_bar issues, State.bar_arrives absent done, arrives]
    exact congrArg _ (if_pos (Ctx.passed_eq passed rfl rfl))
  · rw [exec_bar issues, State.bar_arrives absent done, mismatch]
    rfl

end Sys2Proof.Machine
end

section
/-! SUPPORT. What comes of an operation: responses and acknowledgements (R129, R174 to R176), and an AMO or a RED at its home
(R178), case by case. -/

namespace Sys2Proof.Machine

/-! ### Responses (R129, R174 to R176) -/

section

variable {s : State} {c : CtxId} {k : Nat} {o : MemOp}

theorem State.updCtx_congr {f g : Ctx → Ctx} (h : f (s.ctx c) = g (s.ctx c)) : s.updCtx c f = s.updCtx c g :=
  congrArg (s.setCtx c) h

/-- An AMO's old value lands, with its flags but DZ. -/
theorem exec_amoResponse {op : Rmw} {d m : DWord} {r : BitVec 6} (at_ : s.opAt c k = some o) (done : o.performed = true)
    (act : o.act = .rmw op d m (some r)) (runs : (s.ctx c).request ≠ .stopped) :
    exec (.amoResponse c k) s =
      .next (s.updCtx c (fun x => ((x.dropOp o.id).answer r (BitVec.ofNat 1024 o.val)).orAmoFlags o.flags)) := by
  change execAmoResponse c k s = _
  unfold execAmoResponse
  rw [at_]
  dsimp only
  rw [act]
  dsimp only
  rw [done, if_neg (by decide)]
  exact congrArg Host.Outcome.next (State.updCtx_congr (if_neg runs))

/-- The value of an LD.S lands. -/
theorem exec_interlockedLdSLanding {r : BitVec 6} (at_ : s.opAt c k = some o) (done : o.performed = true)
    (act : o.act = .load (.sreg r)) (runs : (s.ctx c).request ≠ .stopped) :
    exec (.interlockedLdSLanding c k) s =
      .next (s.updCtx c (fun x => (x.dropOp o.id).answer r (BitVec.ofNat 1024 o.val))) := by
  change execInterlockedLdSLanding c k s = _
  unfold execInterlockedLdSLanding
  rw [at_]
  dsimp only
  rw [act]
  dsimp only
  rw [done, if_neg (by decide)]
  exact congrArg Host.Outcome.next (State.updCtx_congr (if_neg runs))

/-- A posted operation that has performed is acknowledged. -/
theorem exec_postedAcknowledge (at_ : s.opAt c k = some o) (done : o.performed = true) (posted : o.posted = true)
    (memory : o.isTile = false) : exec (.postedAcknowledge c k) s = .next (s.updCtx c (fun x => x.dropOp o.id)) := by
  change execPostedAcknowledge c k s = _
  unfold execPostedAcknowledge
  rw [at_]
  exact if_pos (by simp [posted, done, memory])

end

/-! ### Translation knows nothing of the cores but their spaces (R268) -/

section

variable {s : State} {cs : SMap Core}

theorem State.walkFrom_cores (va : Nat) : ∀ (l : List Level) (base : Nat),
    ({ s with cores := cs } : State).walkFrom va l base = s.walkFrom va l base
  | [], _ => rfl
  | l :: ls, base => by
    unfold State.walkFrom
    simp only [State.walkFrom_cores va ls]
    rfl

theorem State.translate_cores (sp va : Nat) (a : AccessKind) :
    ({ s with cores := cs } : State).translate sp va a = s.translate sp va a := by
  unfold State.translate
  simp only [State.walkFrom_cores]
  rfl

theorem State.translateRange_cores (sp : Nat) (a : AccessKind) : ∀ (n va : Nat),
    ({ s with cores := cs } : State).translateRange sp a va n = s.translateRange sp a va n
  | 0, _ => rfl
  | n + 1, va => by
    unfold State.translateRange
    rw [State.translate_cores, State.translateRange_cores sp a n]

theorem State.locate_cores {n : Nat} (h : ({ s with cores := cs } : State).spaceOf n = s.spaceOf n) (a : AccessKind) :
    ∀ fs : List Frag, ({ s with cores := cs } : State).locate n a fs = s.locate n a fs
  | [] => rfl
  | f :: fs => by
    unfold State.locate
    simp only [State.locate_cores h a fs, h, State.translateRange_cores]

end

/-! ### The other copy slot reads first (R167) -/

/-- Between two states, a context's operations and copies alone have changed: its operations keep their names. -/
structure State.Marks (c : CtxId) (s t : State) : Prop where
  device : t = { s with cores := t.cores }
  core : ∀ n, t.core n = { s.core n with ctx0 := (t.core n).ctx0, ctx1 := (t.core n).ctx1 }
  slice : (t.ctx c).slice = (s.ctx c).slice
  ids : (t.ctx c).ops.map MemOp.id = (s.ctx c).ops.map MemOp.id

theorem Core.setCtx_eq (k : Core) (b : Bool) (x : Ctx) :
    k.setCtx b x = { k with ctx0 := (k.setCtx b x).ctx0, ctx1 := (k.setCtx b x).ctx1 } := by cases b <;> rfl

theorem State.marks_writeFirst (s : State) (c : CtxId) (o : MemOp) : State.Marks c s (s.writeFirst c o) := by
  unfold State.writeFirst
  split
  · unfold State.readFirst
    refine ⟨rfl, fun n => ?_, ?_, ?_⟩
    · by_cases h : n = c.core
      · subst h
        rw [State.core_updCtx_same]
        exact Core.setCtx_eq _ _ _
      · exact (State.core_setCore_other _ _ h).trans (by rw [show (s.updCtx c _).core n = s.core n from State.core_setCore_other _ _ h])
    · rw [State.ctx_updCtx_same]
    · rw [State.ctx_updCtx_same, List.map_map]
      refine List.map_congr_left fun e _ => ?_
      dsimp only [Function.comp]
      split <;> rfl
  · exact ⟨rfl, fun _ => rfl, rfl, rfl⟩

section

variable {c : CtxId} {s t : State}

theorem State.Marks.spaceOf (h : State.Marks c s t) (n : Nat) : t.spaceOf n = s.spaceOf n := by
  unfold State.spaceOf
  rw [h.core n]

theorem State.Marks.locate (h : State.Marks c s t) (n : Nat) (a : AccessKind) (fs : List Frag) : t.locate n a fs = s.locate n a fs := by
  have space := h.spaceOf n
  rw [h.device] at space ⊢
  exact State.locate_cores space a fs

theorem State.Marks.refusedBy (h : State.Marks c s t) (n k : Nat) : t.refusedBy n k = s.refusedBy n k := by
  unfold State.refusedBy
  simp only [h.spaceOf]

theorem State.Marks.mem (h : State.Marks c s t) : t.mem = s.mem := (congrArg State.mem h.device :)
theorem State.Marks.poison (h : State.Marks c s t) : t.poison = s.poison := (congrArg State.poison h.device :)
theorem State.Marks.flaws (h : State.Marks c s t) : t.flaws = s.flaws := (congrArg State.flaws h.device :)
theorem State.Marks.mgmt (h : State.Marks c s t) : t.mgmt = s.mgmt := (congrArg State.mgmt h.device :)
theorem State.Marks.graphs (h : State.Marks c s t) : t.graphs = s.graphs := (congrArg State.graphs h.device :)

theorem State.Marks.byte (h : State.Marks c s t) (a : Nat) : t.byte a = s.byte a := by rw [State.byte, h.mem]; rfl

theorem State.Marks.poisoned (h : State.Marks c s t) (a : Nat) : t.poisoned a = s.poisoned a := by rw [State.poisoned, h.poison]; rfl

end

/-! ### An AMO or a RED at its home (R178) -/

/-- Host memory supports an operation (R178) where none of its bytes lies there, or where it is one of three in 32 or 64 bits. -/
def Rmw.Supported (op : Rmw) (width : Nat) (l : List (Nat × Nat)) : Prop :=
  ∀ p ∈ l, 2 ^ 57 ≤ p.2 → p.2 < 2 ^ 58 → (op = .add ∨ op = .swp ∨ op = .cas) ∧ (width = 4 ∨ width = 8)

theorem hostAtomic_iff (op : Rmw) (w : Nat) : hostAtomic op (8 * w) = true ↔ (op = .add ∨ op = .swp ∨ op = .cas) ∧ (w = 4 ∨ w = 8) := by
  have four : 8 * w = 32 ↔ w = 4 := by omega
  have eight : 8 * w = 64 ↔ w = 8 := by omega
  simp only [hostAtomic, Bool.and_eq_true, Bool.or_eq_true, beq_iff_eq, four, eight, or_assoc]
  exact and_comm

theorem Rmw.supported_iff {op : Rmw} {w : Nat} {l : List (Nat × Nat)} :
    op.Supported w l ↔ (l.any (fun p => isHostKey p.2) && !hostAtomic op (8 * w)) = false := by
  rw [Bool.and_eq_false_imp, List.any_eq_true, Bool.not_eq_false', hostAtomic_iff]
  simp only [isHostKey, Bool.and_eq_true, decide_eq_true_eq]
  exact ⟨fun h ⟨p, hp, low, high⟩ => h p hp low high, fun h p hp low high => h ⟨p, hp, low, high⟩⟩

/-- An AMO that cannot execute is a late fault; a RED is recorded against its class (R183). -/
def State.rmwFails (s : State) (c : CtxId) (o : MemOp) (red : Bool) (x : BitVec 4) (va : Nat) : State :=
  if red then s.postedFails c o x va
  else s.updCtx c (fun k => k.failOp o (if x = xAtomic then causeAtomtgt else causeXlat) (progress va x 0 false o.opc 0 0))

theorem State.find_clean {s : State} (h : s.flaws = []) (one : Bool) (pc : DWord) (keys : List Nat) : s.find one pc keys = s := by
  unfold State.find
  rw [h]
  rfl

section

variable {s : State} {c : CtxId} {o : MemOp} {op : Rmw} {d m : DWord} {red : Bool} {l : List (Nat × Nat)}

theorem State.performRmw_untranslated {x : BitVec 4} {va : Nat} (h : s.locate c.core o.access o.frags = .error (x, va)) :
    s.performRmw c o op d m red = s.rmwFails c o red x va := by
  unfold State.performRmw
  rw [h]
  rfl

theorem not_any_refused (own : ∀ p ∈ l, s.refusedBy c.core p.2 = false) : ¬ l.any (fun p => s.refusedBy c.core p.2) = true := by
  simpa using own

variable (h : s.locate c.core o.access o.frags = .ok l) (own : ∀ p ∈ l, s.refusedBy c.core p.2 = false)

include h own

theorem State.performRmw_unsupported (un : ¬ op.Supported o.width l) :
    s.performRmw c o op d m red = s.rmwFails c o red xAtomic o.addr.toNat := by
  rw [Rmw.supported_iff, Bool.not_eq_false] at un
  unfold State.performRmw
  rw [h]
  dsimp only
  rw [if_neg (not_any_refused own), if_pos un]
  rfl

/-- Poison refuses an operation: a RED is recorded against its class, an AMO consumes it (R259). -/
theorem State.performRmw_poisoned (sup : op.Supported o.width l) (clean : s.flaws = []) (bad : ∃ p ∈ l, s.poisoned p.2 = true) :
    s.performRmw c o op d m red = if red then s.postedFails c o xPoison o.addr.toNat
      else s.updCtx c (fun k => k.failOp o causePoison (o.addr.setWidth 128)) := by
  obtain ⟨q, found⟩ := Option.isSome_iff_exists.mp (List.find?_isSome (p := fun p : Nat × Nat => s.poisoned p.2).mpr bad)
  have was : consumeCause s.poison q.2 = causePoison := if_pos (List.find?_some found)
  unfold State.performRmw
  rw [h]
  dsimp only
  rw [if_neg (not_any_refused own), if_neg (by simp [Rmw.supported_iff.mp sup]), State.find_clean clean, found]
  dsimp only
  rw [was]
  cases red <;> rfl

/-- An operation that nothing refuses reads its old value, writes the new one and waits with both for its response. -/
theorem State.performRmw_performs (sup : op.Supported o.width l) (clean : s.flaws = []) (good : ∀ p ∈ l, s.poisoned p.2 = false) :
    let old := s.gather o.seen l
    let r := op.apply (8 * o.width) old d.toNat m.toNat
    let w := (s.setCells (l.map (fun p => (p.2, byteAt r.1 p.1)))).logged (o.event c (l.map Prod.snd))
    s.performRmw c o op d m red =
      (if red ∧ r.2 ≠ 0 then w.record c.core (sqRecord c.one 0x03 o.pc r.2.toNat) else w).updCtx c
        (fun k => k.updOp o.id (fun o => { o with performed := true, val := old, flags := r.2 })) := by
  have found : l.find? (fun p => s.poisoned p.2) = none := List.find?_eq_none.mpr fun p hp => by simp [good p hp]
  unfold State.performRmw
  rw [h]
  dsimp only
  rw [if_neg (not_any_refused own), if_neg (by simp [Rmw.supported_iff.mp sup]), State.find_clean clean, found]

end

end Sys2Proof.Machine
end

section
/-! SUPPORT. Responses and the failures of posted operations (R129, R174 to R176, R183), settled. -/

namespace Sys2Proof.Machine

/-! ### Failures of posted operations (R183) -/

/-- Whether the graph of a context runs in plumb mode (R341). -/
def State.plumbs (s : State) (c : CtxId) : Bool :=
  match (s.ctx c).slice with
  | some x => s.isPlumb x.graph
  | none => false

theorem State.plumbFor_eq (s : State) (c : CtxId) : s.plumbFor c =
    { s with mgmt := { s.mgmt with plumbbrk := if s.plumbs c then satInc s.mgmt.plumbbrk else s.mgmt.plumbbrk } } := by
  unfold State.plumbFor State.plumbs
  cases (s.ctx c).slice with
  | none => rfl
  | some x =>
    dsimp only
    unfold State.plumbEvent
    split <;> rfl

/-- A posted operation that fails is recorded and ends; poison counts in a plumb graph (R341). -/
theorem State.postedFails_eq (s : State) (c : CtxId) (o : MemOp) (x : BitVec 4) (va : Nat) : s.postedFails c o x va =
    { s.updCtx c (fun k => k.failPosted o (progress va x 0 true o.opc 0 0)) with
      mgmt := { s.mgmt with plumbbrk := if s.plumbs c = true ∧ x = 8 then satInc s.mgmt.plumbbrk else s.mgmt.plumbbrk } } := by
  have same : (s.updCtx c (fun k => k.failPosted o (progress va x 0 true o.opc 0 0))).plumbs c = s.plumbs c := by
    unfold State.plumbs
    rw [State.ctx_updCtx_same]
    rfl
  unfold State.postedFails
  dsimp only
  by_cases poison : x = xPoison
  · rw [if_pos poison, State.plumbFor_eq, same]
    simp only [poison, show xPoison = 8 from rfl, and_true]
    rfl
  · rw [if_neg poison, if_neg (fun h => poison h.2)]
    rfl

section

variable {s : State} {c : CtxId} {k : Nat} {o : MemOp}

/-- A posted operation that can only fail performs by failing. -/
theorem exec_postedOperationFailure (at_ : s.opAt c k = some o) (may : s.mayPerform c o = true) (fails : s.failsPosted c o = true) :
    exec (.postedOperationFailure c k) s = .next (s.performOp c o) := by
  change execPostedOperationFailure c k s = _
  unfold execPostedOperationFailure
  rw [at_]
  exact if_pos (by rw [may, fails]; rfl)

theorem State.Marks.plumbs {s t : State} (h : State.Marks c s t) : t.plumbs c = s.plumbs c := by
  unfold State.plumbs State.isPlumb
  rw [h.slice, h.graphs]

/-- The failure of an operation, beside which the other copy slot of its bundle has read first. -/
theorem State.postedFails_writeFirst (x : BitVec 4) (va : Nat) : (s.writeFirst c o).postedFails c o x va =
    { (s.writeFirst c o).updCtx c (fun k => k.failPosted o (progress va x 0 true o.opc 0 0)) with
      mgmt := { s.mgmt with plumbbrk := if s.plumbs c = true ∧ x = 8 then satInc s.mgmt.plumbbrk else s.mgmt.plumbbrk } } := by
  have marks := s.marks_writeFirst c o
  rw [State.postedFails_eq, marks.plumbs, marks.mgmt]

theorem State.performOp_of_store {data : Nat} (act : o.act = .store data) :
    s.performOp c o = (s.writeFirst c o).performStore c o data := by
  unfold State.performOp
  rw [act]

theorem State.performOp_of_rmw {op : Rmw} {d m : DWord} {r : Option (BitVec 6)} (act : o.act = .rmw op d m r) :
    s.performOp c o = (s.writeFirst c o).performRmw c o op d m r.isNone := by
  unfold State.performOp
  rw [act]

theorem State.performStore_untranslated {data va : Nat} {x : BitVec 4}
    (h : s.locate c.core .write o.frags = .error (x, va)) : s.performStore c o data = s.postedFails c o x va := by
  unfold State.performStore
  rw [h]

theorem MemOp.access_store {data : Nat} (act : o.act = .store data) : o.access = .write := by rw [MemOp.access, act]

theorem MemOp.access_red {op : Rmw} {d m : DWord} (act : o.act = .rmw op d m none) : o.access = .red := by rw [MemOp.access, act]

/-- An operation that does not translate would fail. -/
theorem State.wouldFail_untranslated {e : BitVec 4 × Nat} (h : s.locate c.core o.access o.frags = .error e) :
    s.wouldFail c o = true := by
  rw [State.wouldFail, h]

/-- An AMO or a RED would fail where its host memory does not support it, or where it finds poison. -/
theorem State.wouldFail_rmw {op : Rmw} {d m : DWord} {r : Option (BitVec 6)} {l : List (Nat × Nat)} (act : o.act = .rmw op d m r)
    (h : s.locate c.core o.access o.frags = .ok l) :
    s.wouldFail c o = true ↔ ¬ op.Supported o.width l ∨ ∃ p ∈ l, s.poisoned p.2 = true := by
  rw [State.wouldFail, h, act]
  dsimp only
  rw [Bool.or_eq_true, Rmw.supported_iff, Bool.not_eq_false, List.any_eq_true]

theorem MemOp.posted_store {data : Nat} (act : o.act = .store data) : o.posted = true := by rw [MemOp.posted, act]

theorem MemOp.posted_red {op : Rmw} {d m : DWord} (act : o.act = .rmw op d m none) : o.posted = true := by rw [MemOp.posted, act]

theorem State.failsPosted_of {s : State} (posted : o.posted = true) (fails : s.wouldFail c o = true) : s.failsPosted c o = true := by
  rw [State.failsPosted, posted, fails]
  rfl

end

/-- Settles O33: a response ends its operation where it lands; a posted operation that can only fail is recorded, and its failure
finds memory and its address as they were before the other copy slot read first. -/
theorem responses : Obligations.Responses := by
  refine ⟨fun s c k o at_ done => ⟨fun op d m r act runs => ?_, fun r act runs => ?_, fun posted memory => ?_⟩,
    fun s c k data o op d m at_ may => ⟨fun x va act h => ?_, fun act => ⟨fun x va h => ?_, fun l h own clean =>
      ⟨fun un => ?_, fun sup bad => ?_⟩⟩⟩⟩
  · exact exec_amoResponse at_ done act runs
  · exact exec_interlockedLdSLanding at_ done act runs
  · exact exec_postedAcknowledge at_ done posted memory
  · have fails := State.wouldFail_untranslated ((congrArg (s.locate c.core · o.frags) (MemOp.access_store act)).trans h)
    rw [exec_postedOperationFailure at_ may (State.failsPosted_of (MemOp.posted_store act) fails), State.performOp_of_store act,
      State.performStore_untranslated (((s.marks_writeFirst c o).locate _ _ _).trans h), State.postedFails_writeFirst]
    rfl
  all_goals rw [← MemOp.access_red act] at h
  · rw [exec_postedOperationFailure at_ may (State.failsPosted_of (MemOp.posted_red act) (State.wouldFail_untranslated h)),
      State.performOp_of_rmw act, State.performRmw_untranslated (((s.marks_writeFirst c o).locate _ _ _).trans h)]
    exact congrArg _ (State.postedFails_writeFirst x va)
  all_goals
    have marks := s.marks_writeFirst c o
    have found := (marks.locate c.core o.access o.frags).trans h
    have refused (p : Nat × Nat) (hp : p ∈ l) := (marks.refusedBy c.core p.2).trans (own p hp)
  · rw [exec_postedOperationFailure at_ may (State.failsPosted_of (MemOp.posted_red act) ((State.wouldFail_rmw act h).mpr (.inl un))),
      State.performOp_of_rmw act, State.performRmw_unsupported found refused un]
    exact congrArg _ (State.postedFails_writeFirst 7 _)
  · have poisoned : ∃ p ∈ l, (s.writeFirst c o).poisoned p.2 = true := by simpa only [marks.poisoned] using bad
    rw [exec_postedOperationFailure at_ may (State.failsPosted_of (MemOp.posted_red act) ((State.wouldFail_rmw act h).mpr (.inr bad))),
      State.performOp_of_rmw act, State.performRmw_poisoned found refused sup (marks.flaws.trans clean) poisoned]
    exact congrArg _ (State.postedFails_writeFirst 8 _)

end Sys2Proof.Machine
end

section
/-! SUPPORT. An AMO or a RED at its home (R167, R175 to R178, Table 7.3), settled. -/

namespace Sys2Proof.Machine

theorem State.Marks.sq {c : CtxId} {s t : State} (h : State.Marks c s t) (n : Nat) : (t.core n).sq = (s.core n).sq := by
  rw [h.core n]

theorem State.Marks.sqOvf {c : CtxId} {s t : State} (h : State.Marks c s t) (n : Nat) : (t.core n).sqOvf = (s.core n).sqOvf := by
  rw [h.core n]

/-! ### Bytes written -/

theorem State.byte_setCells_other {a : Nat} {cs : List (Nat × Byte)} (s : State) (h : a ∉ cs.map Prod.fst) :
    (s.setCells cs).byte a = s.byte a := by
  induction cs generalizing s with
  | nil => rfl
  | cons p cs ih =>
    rw [List.map_cons, List.mem_cons, not_or] at h
    rw [State.setCells, ih _ h.2, State.byte_setByte, if_neg h.1]

theorem State.byte_setCells_mem {a : Nat} {b : Byte} {cs : List (Nat × Byte)} (s : State) (distinct : (cs.map Prod.fst).Nodup)
    (h : (a, b) ∈ cs) : (s.setCells cs).byte a = b := by
  induction cs generalizing s with
  | nil => cases h
  | cons p cs ih =>
    rw [List.map_cons, List.nodup_cons] at distinct
    rw [State.setCells]
    obtain same | h := List.mem_cons.mp h
    · subst same
      rw [State.byte_setCells_other _ distinct.1, State.byte_setByte, if_pos rfl]
    · exact ih _ distinct.2 h

/-- The value of a read, byte by byte. -/
theorem State.gather_eq (s : State) (seen : List (Nat × Byte)) (l : List (Nat × Nat)) : s.gather seen l =
    (l.map (fun p => (((seen.find? (fun b => b.1 == p.2)).map Prod.snd).getD (s.byte p.2)).toNat * 256 ^ p.1)).sum := by
  induction l with
  | nil => rfl
  | cons p l ih =>
    have seen_ : s.byteSeen seen p.2 = ((seen.find? (fun b => b.1 == p.2)).map Prod.snd).getD (s.byte p.2) := by
      unfold State.byteSeen
      cases seen.find? (fun b => b.1 == p.2) <;> rfl
    rw [State.gather, List.map_cons, List.sum_cons, ih, seen_]

/-! ### The operation, once it has performed -/

/-- The first operation of a name takes its mark. -/
theorem Ctx.findOp_updOp {k : Ctx} {id : Nat} {f : MemOp → MemOp} (keeps : ∀ o, (f o).id = o.id) :
    (k.updOp id f).findOp id = (k.findOp id).map f := by
  have ids : (fun o : MemOp => (if o.id = id then f o else o).id == id) = fun o => o.id == id := by
    funext o
    split
    · rw [keeps]
    · rfl
  unfold Ctx.findOp Ctx.updOp
  rw [List.find?_map, Function.comp_def, ids]
  cases found : k.ops.find? (fun o => o.id == id) with
  | none => rfl
  | some o => exact congrArg some (if_pos (eq_of_beq (List.find?_some found :)))

theorem Ctx.findOp_isSome {k : Ctx} {id : Nat} : (k.findOp id).isSome ↔ id ∈ k.ops.map MemOp.id := by
  rw [Ctx.findOp, List.find?_isSome, List.mem_map]
  simp

/-- An operation that has performed waits with its value and its flags. -/
theorem Ctx.findOp_performed {k : Ctx} {id : Nat} (h : (k.findOp id).isSome) (v : Nat) (f : Flags) :
    ((k.updOp id (fun p => { p with performed := true, val := v, flags := f })).findOp id).map
      (fun p => (p.performed, p.val, p.flags)) = some (true, v, f) := by
  obtain ⟨p, found⟩ := Option.isSome_iff_exists.mp h
  rw [Ctx.findOp_updOp (f := fun p => { p with performed := true, val := v, flags := f }) fun _ => rfl, found]
  rfl

theorem State.findOp_of_opAt {s : State} {c : CtxId} {k : Nat} {o : MemOp} (h : s.opAt c k = some o) :
    ((s.ctx c).findOp o.id).isSome :=
  Ctx.findOp_isSome.mpr (List.mem_map.mpr ⟨o, List.mem_of_getElem? h, rfl⟩)

/-! ### The record of a RED.FADD (R140, R177) -/

/-- A core's SQ once a record may have joined it. -/
theorem State.sq_after (s : State) (n : Nat) (r : BitVec 128) (p : Prop) [Decidable p] :
    let t := if p then s.record n r else s
    let sq := (s.core n).sq
    (¬ p → (t.core n).sq = sq ∧ (t.core n).sqOvf = (s.core n).sqOvf) ∧
    (p → sq.length < 256 → (t.core n).sq = sq ++ [r] ∧ (t.core n).sqOvf = (s.core n).sqOvf) ∧
    (p → 256 ≤ sq.length → (t.core n).sq = sq.drop 1 ++ [r] ∧ (t.core n).sqOvf = Claim.sat (s.core n).sqOvf) := by
  have core : (s.record n r).core n = (s.core n).record r := State.core_updCore_same _ _ _
  refine ⟨fun h => ?_, fun h room => ?_, fun h full => ?_⟩
  · rw [if_neg h]
    exact ⟨rfl, rfl⟩
  · rw [if_pos h, core, Core.record_room room]
    exact ⟨rfl, rfl⟩
  · rw [if_pos h, core, Core.record_full full]
    exact ⟨rfl, rfl⟩

section

variable {s : State} {c : CtxId} {k : Nat} {o : MemOp} {op : Rmw} {d m : DWord} {r : Option (BitVec 6)}

/-- An AMO or a RED that may perform and is no posted failure executes at its home. -/
theorem exec_atomicAtHome (at_ : s.opAt c k = some o) (act : o.act = .rmw op d m r) (may : s.mayPerform c o = true)
    (on : s.failsPosted c o = false) :
    exec (.atomicAtHome c k) s = .next ((s.writeFirst c o).performRmw c o op d m r.isNone) := by
  have rmw : o.isRmw = true := by rw [MemOp.isRmw, act]
  change execAtomicAtHome c k s = _
  unfold execAtomicAtHome
  rw [at_]
  dsimp only
  rw [if_neg (by simp [rmw, may, on]), State.performOp_of_rmw act]

theorem State.failsPosted_amo (act : o.act = .rmw op d m r) (amo : r ≠ none) : s.failsPosted c o = false := by
  have answered : o.posted = false := by
    rw [MemOp.posted, act]
    cases r with
    | none => exact absurd rfl amo
    | some _ => rfl
  rw [State.failsPosted, answered]
  rfl

theorem State.failsPosted_performs {l : List (Nat × Nat)} (act : o.act = .rmw op d m r)
    (h : s.locate c.core o.access o.frags = .ok l) (sup : op.Supported o.width l) (good : ∀ p ∈ l, s.poisoned p.2 = false) :
    s.failsPosted c o = false := by
  have on : s.wouldFail c o = false := by
    rw [← Bool.not_eq_true, State.wouldFail_rmw act h, not_or, not_not, not_exists]
    exact ⟨sup, fun p ⟨hp, bad⟩ => by simp [good p hp] at bad⟩
  rw [State.failsPosted, on, Bool.and_false]

end

/-! ### m′ of Table 7.3 -/

/-- m′ by the row of its operation. -/
def Rmw.new (op : Rmw) (w old d m : Nat) : Nat :=
  match op with
  | .add => (old + d) % 2 ^ w
  | .fadd => ((faddFmt w).add .rne ((faddFmt w).value old) ((faddFmt w).value d)).1
  | .min => if toIntW true w d < toIntW true w old then d else old
  | .max => if toIntW true w old < toIntW true w d then d else old
  | .minu => Nat.min old d
  | .maxu => Nat.max old d
  | .and => old &&& d
  | .or => old ||| d
  | .xor => old ^^^ d
  | .swp => d
  | .cas => if old = m then d else old

/-- The flags of a FADD; no other operation raises any. -/
def Rmw.flags (op : Rmw) (w old d : Nat) : Flags :=
  if op = .fadd then ((faddFmt w).add .rne ((faddFmt w).value old) ((faddFmt w).value d)).2 else 0

theorem Rmw.apply_eq (op : Rmw) (w old d m : Nat) :
    op.apply w old d m = (op.new w old (d % 2 ^ w) (m % 2 ^ w), op.flags w old (d % 2 ^ w)) := by
  cases op <;> rfl

/-! ### An operation that nothing refuses -/

section

variable {s : State} {c : CtxId} {o : MemOp} {op : Rmw} {d m : DWord} {red : Bool} {l : List (Nat × Nat)}

/-- What an operation that nothing refuses leaves: m′ in its own bytes, the old value with its flags in its context, and a record
of the flags of a RED. -/
theorem State.performRmw_leaves (h : s.locate c.core o.access o.frags = .ok l) (own : ∀ p ∈ l, s.refusedBy c.core p.2 = false)
    (sup : op.Supported o.width l) (clean : s.flaws = []) (good : ∀ p ∈ l, s.poisoned p.2 = false)
    (distinct : (l.map Prod.snd).Nodup) :
    let t := s.performRmw c o op d m red
    let w := 8 * o.width
    let old := s.gather o.seen l
    let new := op.new w old (d.toNat % 2 ^ w) (m.toNat % 2 ^ w)
    let fl := op.flags w old (d.toNat % 2 ^ w)
    (∀ a, a ∉ l.map Prod.snd → t.byte a = s.byte a) ∧ (∀ p ∈ l, t.byte p.2 = byteAt new p.1) ∧
    t.ctx c = (s.ctx c).updOp o.id (fun p => { p with performed := true, val := old, flags := fl }) ∧
    (t.core c.core).sq = ((if red = true ∧ fl ≠ 0 then s.record c.core (sqRecord c.one 0x03 o.pc fl.toNat) else s).core c.core).sq ∧
    (t.core c.core).sqOvf =
      ((if red = true ∧ fl ≠ 0 then s.record c.core (sqRecord c.one 0x03 o.pc fl.toNat) else s).core c.core).sqOvf := by
  intro t w old new fl
  let cells := l.map (fun p => (p.2, byteAt new p.1))
  let e := o.event c (l.map Prod.snd)
  let rec_ := sqRecord c.one 0x03 o.pc fl.toNat
  have keys : cells.map Prod.fst = l.map Prod.snd := List.map_map
  have performs : t = (if red = true ∧ fl ≠ 0 then ((s.setCells cells).logged e).record c.core rec_
      else (s.setCells cells).logged e).updCtx c
        (fun k => k.updOp o.id (fun p => { p with performed := true, val := old, flags := fl })) := by
    have step := State.performRmw_performs (d := d) (m := m) (red := red) h own sup clean good
    dsimp only at step
    rw [Rmw.apply_eq] at step
    exact step
  have cores : ((s.setCells cells).logged e).cores = s.cores := by
    rw [State.logged_cores, State.setCells_eq]
  have core : (t.core c.core).sq = ((if red = true ∧ fl ≠ 0 then s.record c.core rec_ else s).core c.core).sq ∧
      (t.core c.core).sqOvf = ((if red = true ∧ fl ≠ 0 then s.record c.core rec_ else s).core c.core).sqOvf := by
    have same : ((s.setCells cells).logged e).core c.core = s.core c.core := by rw [State.core, cores]; rfl
    rw [performs, State.core_updCtx_same, Core.setCtx_sq, Core.setCtx_sqOvf]
    split
    · simp only [State.record, State.core_updCore_same, same]
      exact ⟨trivial, trivial⟩
    · rw [same]
      exact ⟨rfl, rfl⟩
  have bytes (a : Nat) : t.byte a = (s.setCells cells).byte a := by
    rw [performs]
    split <;> rfl
  refine ⟨fun a out => ?_, fun p hp => ?_, ?_, core⟩
  · rw [bytes, State.byte_setCells_other s (by rwa [keys])]
  · rw [bytes]
    exact State.byte_setCells_mem s (by rwa [keys]) (List.mem_map.mpr ⟨p, hp, rfl⟩)
  · rw [performs, State.ctx_updCtx_same]
    refine congrArg (fun k : Ctx => k.updOp o.id _) ?_
    split
    · exact (State.ctx_record _ _ _ c).trans (State.ctx_of_cores cores c)
    · exact State.ctx_of_cores cores c

end

/-- Settles O32: the operation finds memory and its address as they were before the other copy slot read first; nothing refuses it
and it writes its own bytes, or the first thing that does ends it. -/
theorem atomicPerforms : Obligations.AtomicPerforms := by
  intro s c k o op d m r at_ act may supported fails
  have marks := s.marks_writeFirst c o
  have untranslated (x : BitVec 4) (va : Nat) (h : s.locate c.core o.access o.frags = .error (x, va)) :=
    State.performRmw_untranslated (op := op) (d := d) (m := m) (red := r.isNone) ((marks.locate c.core o.access o.frags).trans h)
  have amo (h : r ≠ none) : r.isNone = false := Option.isNone_eq_false_iff.mpr (Option.isSome_iff_ne_none.mpr h)
  refine ⟨fun l h own clean => ?_, fun x va answered h => ?_⟩
  · have found := (marks.locate c.core o.access o.frags).trans h
    have refused (p : Nat × Nat) (hp : p ∈ l) := (marks.refusedBy c.core p.2).trans (own p hp)
    have clean' := marks.flaws.trans clean
    refine ⟨fun sup good distinct => ?_, fun answered un => ?_, fun answered sup bad => ?_⟩
    · intro w was old dw signed new fl sq reported record
      have good' (p : Nat × Nat) (hp : p ∈ l) := (marks.poisoned p.2).trans (good p hp)
      have read : (s.writeFirst c o).gather o.seen l = old := by simp only [State.gather_eq, marks.byte]; rfl
      have new_ : new = op.new w old dw (m.toNat % 2 ^ w) := by cases op <;> rfl
      have leaves := State.performRmw_leaves (d := d) (m := m) (red := r.isNone) found refused sup clean' good' distinct
      rw [read] at leaves
      obtain ⟨others, bytes, ctx, queue, lost⟩ := leaves
      have reports : (r.isNone = true ∧ op.flags w old dw ≠ 0) ↔ reported := and_congr_left' Option.isNone_iff_eq_none
      have recorded := (s.writeFirst c o).sq_after c.core (sqRecord c.one 0x03 o.pc (op.flags w old dw).toNat)
        (r.isNone = true ∧ op.flags w old dw ≠ 0)
      dsimp only at recorded
      rw [← queue, ← lost, marks.sq, marks.sqOvf, reports] at recorded
      have present : (((s.writeFirst c o).ctx c).findOp o.id).isSome := by
        rw [Ctx.findOp_isSome, marks.ids, ← Ctx.findOp_isSome]
        exact State.findOp_of_opAt at_
      refine ⟨_, exec_atomicAtHome at_ act may (State.failsPosted_performs act h sup good), fun a out => ?_, fun p hp => ?_, ?_, recorded⟩
      · rw [others a out, marks.byte]
      · rw [bytes p hp, new_]
      · rw [ctx]
        exact Ctx.findOp_performed present _ _
    · change exec _ _ = _
      rw [exec_atomicAtHome at_ act may (State.failsPosted_amo act answered), State.performRmw_unsupported found refused un, amo answered]
      rfl
    · have bad' : ∃ p ∈ l, (s.writeFirst c o).poisoned p.2 = true := by simpa only [marks.poisoned] using bad
      change exec _ _ = _
      rw [exec_atomicAtHome at_ act may (State.failsPosted_amo act answered), State.performRmw_poisoned found refused sup clean' bad',
        amo answered]
      rfl
  · change exec _ _ = _
    rw [exec_atomicAtHome at_ act may (State.failsPosted_amo act answered), untranslated x va h, amo answered]
    rfl

end Sys2Proof.Machine
end

section
/-! SUPPORT. What a cause does as it is taken (R296, R299, R301, R306): the trap record (Table 15.2), the entry of a trap and the
end of a slice, of a context with nothing on its way. -/

namespace Sys2Proof.Machine

/-! ### The outcome of a cause (R296) -/

section

variable {k : Ctx} {x : BitVec 8}

theorem Ctx.taking_nodeCause (h : x ∈ [0x20#8, 0x21#8, 0x22#8, 0x23#8]) : k.taking x = .nodeFault := by
  have node : isNodeCause x = true := by fin_cases h <;> rfl
  exact if_pos node

theorem Ctx.taking_memory (h : x ∈ [0x19#8, 0x1A#8]) : k.taking x = match k.trap with
    | none => if k.depth = 0 then .nodeFault else .unwind
    | some t => if t.floor < k.depth then .unwind else .nodeFault := by
  have other : ¬ isNodeCause x = true := by fin_cases h <;> decide
  have memory : x = causeUe ∨ x = causePoison := by fin_cases h <;> decide
  rw [Ctx.taking, if_neg other, if_pos memory] <;> rfl

theorem Ctx.taking_other (h : x ∉ [0x20#8, 0x21#8, 0x22#8, 0x23#8, 0x19#8, 0x1A#8]) :
    k.taking x = if k.depth ≠ 0 ∧ k.trap = none then .trap else .nodeFault := by
  simp only [List.mem_cons, List.not_mem_nil, or_false, not_or] at h
  obtain ⟨halt, pair, restore, save, ue, poison⟩ := h
  have other : ¬ isNodeCause x = true := by
    simp [isNodeCause, causeHalt, causePair, causeRestore, causeSave, halt, pair, restore, save]
  have memory : ¬ (x = causeUe ∨ x = causePoison) := not_or.mpr ⟨ue, poison⟩
  rw [Ctx.taking, if_neg other, if_neg memory]
  simp only [Option.isNone_iff_eq_none]

end

/-! ### A context without operations -/

section

variable {s : State} {c : CtxId}

/-- What leaves every context but one, whichever it is, leaves them all. -/
theorem State.ctx_of_apart {t : State} (h : ∀ c, State.Apart c s t) (d : CtxId) : t.ctx d = s.ctx d :=
  h (otherCtx d) d fun e => by
    have one := congrArg CtxId.one e
    cases d with
    | mk core one' => cases one' <;> cases one

theorem State.ctx_readArray (a : ArrayOp) (d : CtxId) : (s.readArray c a).ctx d = s.ctx d := by
  have noted (s : State) (ks : List Nat) : (s.noteArray c a ks).ctx d = s.ctx d := by
    unfold State.noteArray
    split <;> rfl
  have updated (s : State) (f : ArrayOp → ArrayOp) : (s.updCore c.core (fun k => { k with aq := k.aq.map f })).ctx d = s.ctx d :=
    State.ctx_updCore s _ (f := fun k => { k with aq := k.aq.map f }) (fun k b => by cases b <;> rfl) d
  unfold State.readArray
  dsimp only
  rw [updated, noted, State.ctx_of_apart fun e => State.apart_readSteps _ _ _ _ s]

theorem State.ctx_sendMsg (n : Nat) (m : KsMsg) (d : CtxId) : (s.sendMsg n m).ctx d = s.ctx d := by
  unfold State.sendMsg State.notePost
  (repeat' split) <;> rfl

/-- Of a context without operations its array operations' reads and its messages perform, which leave it. -/
theorem State.ctx_performPend (h : (s.ctx c).ops = []) (p : Pend) : (s.performPend c p).ctx c = s.ctx c := by
  cases p with
  | op o =>
    have none_ : (s.ctx c).findOp o.id = none := by rw [Ctx.findOp, h]; rfl
    unfold State.performPend
    dsimp only
    rw [none_]
  | array a => exact State.ctx_readArray a c
  | msg i m =>
    unfold State.performPend
    dsimp only
    split
    · exact State.ctx_sendMsg _ _ c
    · rfl

theorem State.ctx_performAll (ps : List Pend) (h : (s.ctx c).ops = []) : (s.performAll c ps).ctx c = s.ctx c := by
  unfold State.performAll
  induction ps generalizing s with
  | nil => rfl
  | cons p ps ih =>
    have step := State.ctx_performPend h p
    exact (ih (step ▸ h)).trans step

/-- No load of a context without operations is still to perform. -/
theorem State.performLoads_of_noOps (h : (s.ctx c).ops = []) (p : MemOp → Bool) : s.performLoads c p = s := by
  refine State.performFor_of_none fun e he => ?_
  cases e with
  | op o =>
    have mem := (State.op_of_mem_pends he).1
    rw [h] at mem
    cases mem
  | array a => rfl
  | msg i m => rfl

end

/-! ### A number in memory (R5) -/

theorem getElem_bytesOfNat (n v i : Nat) (h : i < (bytesOfNat n v).length) : (bytesOfNat n v)[i] = BitVec.ofNat 8 (v / 256 ^ i) := by
  induction n generalizing v i with
  | zero => cases h
  | succ n ih =>
    cases i with
    | zero => simp [bytesOfNat]
    | succ i => simp [bytesOfNat, ih, Nat.div_div_eq_div_mul, Nat.pow_succ']

theorem length_bytesOfNat (n v : Nat) : (bytesOfNat n v).length = n := by
  induction n generalizing v with
  | zero => rfl
  | succ n ih => rw [bytesOfNat, List.length_cons, ih]

theorem map_fst_cellsAt (k : Nat) (bs : List Byte) : (cellsAt k bs).map Prod.fst = (List.range bs.length).map (k + ·) := by
  refine List.ext_getElem (by simp [cellsAt]) fun i _ _ => ?_
  simp [cellsAt]

/-- The number that bytes from a key on make. -/
theorem natOfBytes_digits (v m : Nat) : natOfBytes ((List.range m).map (fun j => BitVec.ofNat 8 (v / 256 ^ j))) = v % 256 ^ m := by
  induction m generalizing v with
  | zero => simp [natOfBytes, Nat.mod_one]
  | succ m ih =>
    have rest : ((List.range m).map Nat.succ).map (fun j => BitVec.ofNat 8 (v / 256 ^ j)) =
        (List.range m).map (fun j => BitVec.ofNat 8 (v / 256 / 256 ^ j)) := by
      rw [List.map_map]
      refine List.map_congr_left fun j _ => ?_
      rw [Function.comp, Nat.succ_eq_add_one, Nat.pow_succ', Nat.div_div_eq_div_mul]
    rw [List.range_succ_eq_map, List.map_cons, natOfBytes, rest, ih, Nat.pow_zero, Nat.div_one, BitVec.toNat_ofNat,
      show 256 ^ (m + 1) = 256 * 256 ^ m from Nat.pow_succ']
    exact (Nat.mod_mul (x := v) (a := 256) (b := 256 ^ m)).symm

section

variable (s : State) (k n v : Nat)

theorem State.byte_number_other {a : Nat} (h : a < k ∨ k + n ≤ a) :
    (s.setCells (cellsAt k (bytesOfNat n v))).byte a = s.byte a := by
  refine State.byte_setCells_other s fun mem => ?_
  rw [map_fst_cellsAt, length_bytesOfNat] at mem
  obtain ⟨i, hi, rfl⟩ := List.mem_map.mp mem
  have := List.mem_range.mp hi
  omega

theorem State.byte_number {i : Nat} (h : i < n) :
    (s.setCells (cellsAt k (bytesOfNat n v))).byte (k + i) = BitVec.ofNat 8 (v / 256 ^ i) := by
  have lt : i < (bytesOfNat n v).length := by rwa [length_bytesOfNat]
  refine State.byte_setCells_mem s ?_ ?_
  · rw [map_fst_cellsAt]
    exact List.nodup_range.map fun _ _ => Nat.add_left_cancel
  · refine List.mem_iff_getElem.mpr ⟨i, by rwa [cellsAt, List.length_mapIdx], ?_⟩
    simp [cellsAt, getElem_bytesOfNat]

/-- A field of a number in memory. -/
theorem State.readNat_number {i m : Nat} (h : i + m ≤ n) :
    (s.setCells (cellsAt k (bytesOfNat n v))).readNat (k + i) m = v / 256 ^ i % 256 ^ m := by
  rw [← natOfBytes_digits, State.readNat, State.bytes]
  refine congrArg natOfBytes (List.map_congr_left fun j hj => ?_)
  have := List.mem_range.mp hj
  rw [Nat.add_assoc, State.byte_number _ _ _ _ (by omega), Nat.div_div_eq_div_mul, ← Nat.pow_add]

end

/-! ### The trap record (R301, Table 15.2) -/

/-- What is written goes by the memory alone. -/
theorem State.byte_setCells_congr {s t : State} (h : t.mem = s.mem) (cs : List (Nat × Byte)) (a : Nat) :
    (t.setCells cs).byte a = (s.setCells cs).byte a := by
  induction cs generalizing s t with
  | nil => rw [State.setCells, State.setCells, State.byte, State.byte, h]
  | cons p cs ih => exact ih (congrArg (fun m => SMap.setD unwritten m p.1 p.2) h)

/-- Without poison a write changes every byte that it names. -/
theorem State.byte_store_unpoisoned {s : State} (h : s.poison = []) (cs : List (Nat × Byte)) (a : Nat) :
    (s.store cs).1.byte a = (s.setCells cs).byte a := by
  have clean (k : Nat) : s.poisoned k = false := by rw [State.poisoned, h]; rfl
  unfold State.store
  split
  · rfl
  · simp only [clean, Bool.false_and, Bool.not_false, List.filter_true]
    rfl

/-- The address of the trap record of a context in the Wall window of its core. -/
def recordKey (c : CtxId) : Nat := 0x20000000 + c.core * 0x200000 + 0x17FB80 + (if c.one then 0x40 else 0)

theorem slabKey_recordAddr (c : CtxId) : slabKey c.core (recordAddr c) = recordKey c := by
  unfold slabKey recordAddr recordKey ctxNum
  split <;> omega

theorem recordAddr_eq (c : CtxId) : recordAddr c = 0x17FB80 + (if c.one then 0x40 else 0) := by
  unfold recordAddr ctxNum
  split <;> rfl

section

variable {s : State} {c : CtxId} (r : Nat)

theorem State.ctx_notePlain (s : State) (a : Agent) (id : Nat) (k : EvKind) (x : BitVec 16) (l : List Nat) (d : CtxId) :
    (s.notePlain a id k x l).ctx d = s.ctx d := rfl

theorem State.cur_notePlain (s : State) (a : Agent) (id : Nat) (k : EvKind) (x : BitVec 16) (l : List Nat) :
    (s.notePlain a id k x l).cur = s.cur := rfl

theorem State.ctx_store (s : State) (cs : List (Nat × Byte)) (d : CtxId) : (s.store cs).1.ctx d = s.ctx d :=
  State.ctx_of_cores (s.quiet_store cs).cores d

theorem State.ctx_writeRecord (h : (s.ctx c).ops = []) : (s.writeRecord c r).ctx c = s.ctx c := by
  unfold State.writeRecord
  dsimp only
  rw [State.ctx_notePlain, State.ctx_store, State.performBefore, State.performFor, State.ctx_performAll _ h]

theorem State.cur_writeRecord : (s.writeRecord c r).cur = s.cur := by
  unfold State.writeRecord
  dsimp only
  rw [State.cur_notePlain, (State.touches_store _ _).cur, (State.touches_performBefore s c _).cur]

variable (idle : s.pends c = [])

include idle

theorem State.ksq_writeRecord : (s.writeRecord c r).ksq = s.ksq := by
  have stored (cs : List (Nat × Byte)) : (s.store cs).1.ksq = s.ksq := by
    unfold State.store
    split
    · rw [State.setCells_eq]
    · dsimp only
      rw [State.setCells_eq]
  unfold State.writeRecord
  dsimp only
  rw [State.performBefore_nil idle]
  exact stored _

/-- With nothing to perform and no poison the record's bytes are written, and no other. -/
theorem State.byte_writeRecord (clean : s.poison = []) (a : Nat) :
    (s.writeRecord c r).byte a = (s.setCells (cellsAt (recordKey c) (bytesOfNat 64 r))).byte a := by
  unfold State.writeRecord
  dsimp only
  rw [State.performBefore_nil idle, slabKey_recordAddr]
  exact State.byte_store_unpoisoned clean _ a

end

theorem trapRecord_shape (kind : Nat) (f : LateFault) (double multi : Bool) (depth : BitVec 3) (arg : BitVec 32) (retpc : DWord)
    (narr ifqn : Nat) : ∃ slot rest, slot < 256 ∧ trapRecord kind f double multi depth arg retpc narr ifqn =
      kind + f.cause.toNat * 2 ^ 8 + slot * 2 ^ 16 + depth.toNat * 2 ^ 24 + arg.toNat * 2 ^ 32 + f.pc.toNat * 2 ^ 64 +
        retpc.toNat * 2 ^ 128 + rest * 2 ^ 192 := by
  refine ⟨f.slot % 16 + (if f.held then 0x10 else 0) + (if double then 0x20 else 0) + (if multi then 0x80 else 0),
    f.detail.toNat + narr * 2 ^ 128 + ifqn * 2 ^ 136, ?_, ?_⟩
  · have := Nat.mod_lt f.slot (by decide : 0 < 16)
    split <;> split <;> split <;> omega
  · have narr_ : (2 : Nat) ^ 320 = 2 ^ 128 * 2 ^ 192 := by rw [← Nat.pow_add]
    have ifqn_ : (2 : Nat) ^ 328 = 2 ^ 136 * 2 ^ 192 := by rw [← Nat.pow_add]
    unfold trapRecord
    dsimp only
    rw [narr_, ifqn_]
    ring

/-- The fields of a trap record (Table 15.2). -/
theorem trapRecord_fields {kind : Nat} (hk : kind < 256) (f : LateFault) (double multi : Bool) (depth : BitVec 3) (arg : BitVec 32)
    (retpc : DWord) (narr ifqn : Nat) :
    let r := trapRecord kind f double multi depth arg retpc narr ifqn
    r % 256 ^ 1 = kind ∧ r / 256 ^ 1 % 256 ^ 1 = f.cause.toNat ∧ r / 256 ^ 4 % 256 ^ 4 = arg.toNat ∧
      r / 256 ^ 8 % 256 ^ 8 = f.pc.toNat ∧ r / 256 ^ 16 % 256 ^ 8 = retpc.toNat := by
  obtain ⟨slot, rest, hs, e⟩ := trapRecord_shape kind f double multi depth arg retpc narr ifqn
  have := f.cause.isLt
  have := depth.isLt
  have := arg.isLt
  have := f.pc.isLt
  have := retpc.isLt
  dsimp only
  rw [e]
  omega

theorem State.readNat_congr {s t : State} (h : ∀ a, t.byte a = s.byte a) (k n : Nat) : t.readNat k n = s.readNat k n := by
  unfold State.readNat State.bytes
  simp only [h]

/-- What stands in memory once a trap record has been written, and what else has not changed. -/
theorem State.reads_trapRecord {s t : State} {c : CtxId} {kind : Nat} (hk : kind < 256) {f : LateFault} {double multi : Bool}
    {depth : BitVec 3} {arg : BitVec 32} {retpc : DWord} {narr ifqn : Nat} (h : ∀ a, t.byte a = (s.setCells (cellsAt (recordKey c)
      (bytesOfNat 64 (trapRecord kind f double multi depth arg retpc narr ifqn)))).byte a) :
    (∀ b, b < recordKey c ∨ recordKey c + 64 ≤ b → t.byte b = s.byte b) ∧ t.readNat (recordKey c) 1 = kind ∧
      t.readNat (recordKey c + 1) 1 = f.cause.toNat ∧ t.readNat (recordKey c + 4) 4 = arg.toNat ∧
      t.readNat (recordKey c + 8) 8 = f.pc.toNat ∧ t.readNat (recordKey c + 16) 8 = retpc.toNat := by
  obtain ⟨kind_, cause, arg_, pc, retpc_⟩ := trapRecord_fields hk f double multi depth arg retpc narr ifqn
  have reads {i m : Nat} (hi : i + m ≤ 64) := (State.readNat_congr h (recordKey c + i) m).trans (s.readNat_number _ 64 _ hi)
  refine ⟨fun b out => (h b).trans (s.byte_number_other _ 64 _ out), ?_, (reads (by decide)).trans cause,
    (reads (by decide)).trans arg_, (reads (by decide)).trans pc, (reads (by decide)).trans retpc_⟩
  have first := reads (i := 0) (m := 1) (by decide)
  rwa [Nat.pow_zero, Nat.div_one, kind_] at first

end Sys2Proof.Machine
end

section
/-! SUPPORT. The outcome of a cause, TRAP, HALT and a late fault (R132, R139, R296, R299, R301, R306), settled. -/

namespace Sys2Proof.Machine

/-! ### The entry of a trap (R301) -/

/-- A context at the handler of its innermost region. -/
def Ctx.trapped (c : CtxId) (i : TrapInfo) (k : Ctx) : Ctx :=
  ({ k with
    trap := some ⟨i.retpc, k.depth, k.depth, k.held, k.loop, k.repcnt, SMap.get 0 k.x 15, i.ifq, k.withheld⟩
    entering := none
    withheld := []
    held := []
    loop := LoopSt.none
    repcnt := 0
    edge := none
    request := k.request.deferred
    pc := k.handler
    npc := k.handler }.store (.x 15) (BitVec.ofNat 1024 (recordAddr c)) 1).freeXlat i.cause i.detail

theorem Ctx.freeXlat_frame (k : Ctx) (x : BitVec 8) (d : BitVec 128) :
    k.freeXlat x d = { k with copies := (k.freeXlat x d).copies, failed := (k.freeXlat x d).failed } := by
  unfold Ctx.freeXlat
  dsimp only
  split
  · rfl
  · split
    · rfl
    · split <;> rfl

/-- What a trapped context holds beside its registers. -/
theorem Ctx.trapped_frame (c : CtxId) (i : TrapInfo) (k : Ctx) :
    (k.trapped c i).trap =
      some ⟨i.retpc, k.depth, k.depth, k.held, k.loop, k.repcnt, SMap.get 0 k.x 15, i.ifq, k.withheld⟩ ∧
    (k.trapped c i).entering = none ∧ (k.trapped c i).late = k.late ∧ (k.trapped c i).held = [] ∧
    (k.trapped c i).loop = LoopSt.none ∧ (k.trapped c i).repcnt = 0 ∧ (k.trapped c i).depth = k.depth ∧
    (k.trapped c i).pc = k.handler ∧ (k.trapped c i).npc = k.handler := by
  unfold Ctx.trapped
  rw [Ctx.freeXlat_frame, Ctx.store_frame]
  exact ⟨rfl, rfl, rfl, rfl, rfl, rfl, rfl, rfl, rfl⟩

theorem Ctx.stored_freeXlat (k : Ctx) (x : BitVec 8) (d : BitVec 128) (e : Dest) : (k.freeXlat x d).stored e = k.stored e := by
  rw [Ctx.freeXlat_frame]
  cases e <;> rfl

theorem Ctx.stored_trapped_other {c : CtxId} {i : TrapInfo} {k : Ctx} {d : Dest} (h : d ≠ .x 15) :
    (k.trapped c i).stored d = k.stored d := by
  unfold Ctx.trapped
  rw [Ctx.stored_freeXlat, Ctx.stored_store_other _ _ _ h]
  cases d <;> rfl

theorem Ctx.stored_trapped_x15 (c : CtxId) (i : TrapInfo) (k : Ctx) :
    (k.trapped c i).stored (.x 15) = BitVec.ofNat 1024 (recordAddr c) := by
  have small : recordAddr c < 2 ^ 32 := by
    rw [recordAddr_eq]
    split <;> omega
  unfold Ctx.trapped
  rw [Ctx.stored_freeXlat, Ctx.stored_store_x, Dest.mix_ones (by simp [Dest.maskOf])]
  rw [BitVec.setWidth_ofNat_of_le (by decide), BitVec.setWidth_ofNat_of_le_of_lt (by decide) small]

section

variable {s : State} {c : CtxId} {i : TrapInfo}

/-- Poison that a fault has found counts in the management window, and nowhere else. -/
theorem State.plumbPoison_eq (s : State) (c : CtxId) (f : LateFault) : ∃ m, s.plumbPoison c f = { s with mgmt := m } := by
  unfold State.plumbPoison State.plumbBreak
  split
  · exact ⟨_, State.plumbFor_eq s c⟩
  · exact ⟨s.mgmt, rfl⟩

/-- The fault that a waiting trap is about. -/
def TrapInfo.fault (i : TrapInfo) : LateFault := ⟨i.seq, i.slot, i.held, i.faultpc, i.cause, i.detail, none⟩

/-- The entry of a trap: its record, then its context at the handler. -/
theorem State.enterTrap_eq (h : (s.ctx c).entering = some i) : ∃ m, s.enterTrap c =
    (({ s with mgmt := m } : State).writeRecord c (trapRecord 1 i.fault (s.ctx c).trap.isSome i.multi (s.ctx c).depth i.arg i.retpc
      (s.ctx c).withheld.length i.ifq.length)).updCtx c (fun k => k.trapped c i) := by
  obtain ⟨m, found⟩ := s.plumbPoison_eq c i.fault
  refine ⟨m, ?_⟩
  rw [← found]
  unfold State.enterTrap
  rw [h]
  rfl

theorem State.cur_enterTrap (h : (s.ctx c).entering = some i) : (s.enterTrap c).cur = s.cur := by
  obtain ⟨m, e⟩ := State.enterTrap_eq h
  rw [e, State.updCtx_cur, State.cur_writeRecord]

theorem State.ctx_enterTrap (h : (s.ctx c).entering = some i) (ops : (s.ctx c).ops = []) :
    (s.enterTrap c).ctx c = (s.ctx c).trapped c i := by
  obtain ⟨m, e⟩ := State.enterTrap_eq h
  rw [e, State.ctx_updCtx_same, State.ctx_writeRecord (s := { s with mgmt := m }) _ ops]
  rfl

/-- With nothing to perform and no poison the entry of a trap writes its record, and no other byte. -/
theorem State.byte_enterTrap (h : (s.ctx c).entering = some i) (idle : s.pends c = []) (clean : s.poison = []) (a : Nat) :
    (s.enterTrap c).byte a = (s.setCells (cellsAt (recordKey c) (bytesOfNat 64 (trapRecord 1 i.fault (s.ctx c).trap.isSome i.multi
      (s.ctx c).depth i.arg i.retpc (s.ctx c).withheld.length i.ifq.length)))).byte a := by
  obtain ⟨m, e⟩ := State.enterTrap_eq h
  rw [e, State.byte, State.updCtx_mem, ← State.byte, State.byte_writeRecord (s := { s with mgmt := m }) _ idle clean]
  exact State.byte_setCells_congr (s := s) (t := { s with mgmt := m }) rfl _ a

end

/-! ### A trap that is taken at once (R132, R296, R300) -/

/-- A context with nothing on its way: no operation, no result and no entry of the IFQ. -/
structure Ctx.Idle (k : Ctx) : Prop where
  ops : k.ops = []
  flight : k.flight = []
  ifq : k.ifq = []

theorem Ctx.ne_reset_of_depth {k : Ctx} (h : k.depth ≠ 0) : k ≠ Ctx.reset := fun e => h (by rw [e]; rfl)

/-- A context that waits to enter a trap. -/
def Ctx.awaits (i : TrapInfo) (k : Ctx) : Ctx := { k with entering := some i, late := [] }

/-- What the record says of a fault that is taken alone, with nothing on its way. -/
def LateFault.info (f : LateFault) (arg : BitVec 32) (retpc : DWord) : TrapInfo :=
  ⟨f.seq, f.cause, f.slot, f.held, false, arg, f.pc, retpc, f.detail, []⟩

/-- What the record says of a TRAP (R132). -/
def Ctx.swtrap (k : Ctx) (slot : Nat) (code : BitVec 16) : TrapInfo :=
  ⟨k.seq, 0x0A, slot, false, false, code.setWidth 32, k.pc, k.npc, 0, []⟩

section

variable {s : State} {c : CtxId}

/-- Nothing is on its way: the IFQ is empty. -/
theorem State.capture_of_idle (idle : (s.ctx c).Idle) (deep : (s.ctx c).depth ≠ 0) :
    s.capture c = (s.updCtx c (fun k => { k with flight := [], ifq := [] }), []) := by
  unfold State.capture
  dsimp only
  rw [State.performLoads_of_noOps idle.ops, idle.flight, idle.ifq]
  refine congrArg (·, []) ?_
  exact State.updCtx_updCtx_first s c _ _ (Ctx.ne_reset_of_depth deep)

/-- What the model updates in steps. -/
theorem State.updCtx_awaits (idle : (s.ctx c).Idle) (deep : (s.ctx c).depth ≠ 0) (i : TrapInfo) :
    (s.updCtx c (fun k => { k with flight := [], ifq := [] })).updCtx c (Ctx.awaits i) = s.updCtx c (Ctx.awaits i) := by
  rw [State.updCtx_updCtx_first s c _ _ (Ctx.ne_reset_of_depth (k := { s.ctx c with flight := [], ifq := [] }) deep)]
  refine State.updCtx_congr ?_
  simp only [Ctx.awaits, ← idle.flight, ← idle.ifq]

theorem Ctx.not_inFlight {k : Ctx} (h : k.flight = []) (f : LateFault) : k.inFlight f = false := by
  rw [Ctx.inFlight, h]
  exact Bool.and_false _

/-- In a region, outside a handler and with nothing on its way, a cause that traps is taken at once. -/
theorem State.take_trap {f : LateFault} (idle : (s.ctx c).Idle) (deep : (s.ctx c).depth ≠ 0)
    (traps : (s.ctx c).taking f.cause = .trap) (arg : BitVec 32) (retpc : DWord) :
    s.take c f false arg retpc = (s.updCtx c (Ctx.awaits (f.info arg retpc))).enterTrap c := by
  have multi : (s.ctx c).late.any (fun g => (s.ctx c).inFlight g && !(g.seq == f.seq && g.slot == f.slot)) = false := by
    simp [Ctx.not_inFlight idle.flight]
  have awaits : (s.updCtx c (fun k => { k with flight := [], ifq := [] })).updCtx c (fun k => { k with
      entering := some ⟨f.seq, f.cause, f.slot, f.held, false, arg, f.pc, retpc, f.detail, []⟩, late := [] }) =
      s.updCtx c (Ctx.awaits (f.info arg retpc)) := State.updCtx_awaits idle deep _
  have settled : ¬ ((s.updCtx c (Ctx.awaits (f.info arg retpc))).ctx c).interlocked = true := by
    rw [State.ctx_updCtx_same, Ctx.interlocked, Ctx.awaits, idle.ops]
    exact Bool.false_ne_true
  unfold State.take
  dsimp only
  rw [traps, multi, State.capture_of_idle idle deep, Bool.false_or]
  dsimp only
  rw [awaits, if_neg settled]

/-- What is left of a cause once the loads have performed, where no fault is known before it. -/
theorem State.raiseAfter_alone (ops : (s.ctx c).ops = []) (late : (s.ctx c).late = []) (cause : BitVec 8) (arg : BitVec 32) (pc : DWord) :
    s.raiseAfter c cause arg pc = s.take c ⟨(s.ctx c).seq, s.slot, false, pc, cause, 0, none⟩ false
      (if cause == causeSwtrap then arg else 0) (s.ctx c).npc := by
  unfold State.raiseAfter State.settle
  dsimp only
  rw [State.performLoads_of_noOps ops, Ctx.known, late]
  simp [State.takeKnown, earliest]

end

/-! ### TRAP (R132) -/

section

variable {s : State} {c : CtxId} {i : TrapInfo}

theorem exec_trapEntry (running : s.boot = .running) (ops : (s.ctx c).ops = []) : exec (.trapEntry c) s = .next (s.enterTrap c) := by
  have free : ¬ (s.ctx c).interlocked = true := by
    rw [Ctx.interlocked, ops]
    exact Bool.false_ne_true
  change execTrapEntry c s = _
  rw [execTrapEntry, if_neg (not_not.mpr running), if_neg free]

theorem State.pends_updCtx {f : Ctx → Ctx} (h : (f (s.ctx c)).ops = (s.ctx c).ops) : (s.updCtx c f).pends c = s.pends c := by
  refine State.pends_congr (s.aq_updCtx c f) ?_ rfl
  rw [State.ctx_updCtx_same, h]

theorem State.entering_awaits : ((s.updCtx c (Ctx.awaits i)).ctx c).entering = some i := by
  rw [State.ctx_updCtx_same]
  rfl

/-- The context of a trap that is entered at once. -/
theorem State.ctx_enterTrap_awaits (ops : (s.ctx c).ops = []) :
    ((s.updCtx c (Ctx.awaits i)).enterTrap c).ctx c = ((s.ctx c).awaits i).trapped c i := by
  rw [State.ctx_enterTrap State.entering_awaits, State.ctx_updCtx_same]
  rwa [State.ctx_updCtx_same]

theorem State.cur_enterTrap_awaits : ((s.updCtx c (Ctx.awaits i)).enterTrap c).cur = s.cur :=
  State.cur_enterTrap State.entering_awaits

theorem State.byte_enterTrap_awaits (idle : s.pends c = []) (clean : s.poison = []) : ∃ double narr, ∀ a,
    ((s.updCtx c (Ctx.awaits i)).enterTrap c).byte a = (s.setCells (cellsAt (recordKey c) (bytesOfNat 64
      (trapRecord 1 i.fault double i.multi (s.ctx c).depth i.arg i.retpc narr i.ifq.length)))).byte a := by
  refine ⟨(s.ctx c).trap.isSome, (s.ctx c).withheld.length, fun a => ?_⟩
  rw [State.byte_enterTrap State.entering_awaits ((State.pends_updCtx rfl).trans idle) clean, State.ctx_updCtx_same]
  exact State.byte_setCells_congr (s := s) (t := s.updCtx c (Ctx.awaits i)) rfl _ a

/-- With nothing on its way and no fault known, TRAP in a region is taken at once. -/
theorem exec_trap_at_once {u : Grd} {x : BitVec 16} (issues : Claim.Issues (.trap u x) s) :
    let t := Claim.issuing (.trap u x) s
    t.here.edge = none → t.here.Idle → t.here.late = [] → t.here.trap = none → t.here.depth ≠ 0 →
      exec (.trap u x) s = .next ((t.updCtx t.cur (Ctx.awaits (t.here.swtrap t.slot x))).enterTrap t.cur) := by
  intro t edge idle late out deep
  have traps : exec (.trap u x) s = issue (.trap u x) s
      (fun s => (s.backEdge s.cur).raiseAfter s.cur causeSwtrap (x.setWidth 32) s.here.pc) := rfl
  have taken : t.here.taking causeSwtrap = .trap := by
    rw [Ctx.taking_other (by decide), if_pos ⟨deep, out⟩]
  rw [traps, issue_of_issues _ issues, State.backEdge_of_none (s := t) edge, State.raiseAfter_alone (s := t) idle.ops late]
  exact congrArg _ (State.take_trap (s := t) idle deep (f := ⟨t.here.seq, t.slot, false, t.here.pc, causeSwtrap, 0, none⟩) taken _ _)

end

/-! ### HALT (R139, R306) -/

/-- Between two states the messages to Keystone, and the place of a context, are the same. -/
structure State.Stays (c : CtxId) (s t : State) : Prop where
  ksq : t.ksq = s.ksq
  pc : (t.ctx c).pc = (s.ctx c).pc

section

variable {c : CtxId}

theorem State.Stays.refl (s : State) : State.Stays c s s := ⟨rfl, rfl⟩

theorem State.Stays.trans {s t u : State} (a : State.Stays c s t) (b : State.Stays c t u) : State.Stays c s u :=
  ⟨b.ksq.trans a.ksq, b.pc.trans a.pc⟩

theorem State.stays_updCtx (s : State) {f : Ctx → Ctx} (h : (f (s.ctx c)).pc = (s.ctx c).pc) : State.Stays c s (s.updCtx c f) :=
  ⟨rfl, by rw [State.ctx_updCtx_same, h]⟩

theorem State.stays_writeCr (s : State) (n : BitVec 8) (w : BitVec 6) (v : DWord) : State.Stays c s (s.writeCr c n w v) := by
  unfold State.writeCr
  split
  · exact s.stays_updCtx rfl
  · split
    · exact s.stays_updCtx rfl
    · exact s.stays_updCtx rfl
    · exact s.stays_updCtx rfl
    · exact ⟨rfl, rfl⟩
    · refine ⟨rfl, ?_⟩
      rw [State.ctx_updCore s c.core (f := fun k => { k with sqOvf := v.extractLsb' 16 32 }) fun k b => by cases b <;> rfl]
    · exact s.stays_updCtx rfl
    · exact s.stays_updCtx rfl
    · exact s.stays_updCtx rfl
    · exact .refl s

theorem State.stays_land (s : State) (f : Flight) : State.Stays c s (s.land c f) := by
  unfold State.land
  split
  · split
    · exact (s.stays_writeCr _ _ _).trans (State.stays_updCtx _ rfl)
    · exact .refl s
  · refine s.stays_updCtx ?_
    rw [Ctx.land_eq, Ctx.store_frame]

theorem State.stays_lands (fs : List Flight) (s : State) : State.Stays c s (fs.foldl (fun s f => s.land c f) s) := by
  induction fs generalizing s with
  | nil => exact .refl s
  | cons f fs ih => exact (s.stays_land f).trans (ih _)

theorem State.stays_landWrites (s : State) : State.Stays c s (s.landWrites c) :=
  (State.stays_lands _ s).trans (State.stays_lands _ _)

/-- The withdrawal of arrivals changes barriers alone beside the context. -/
theorem State.withdraw_eq (s : State) (c : CtxId) : ∃ t : State, t.cores = s.cores ∧ t.ksq = s.ksq ∧ t.cur = s.cur ∧
    s.withdraw c = t.updCtx c (fun k => { k with arrived := [] }) := by
  refine ⟨_, ?_, ?_, ?_, rfl⟩
  all_goals
    generalize (s.ctx c).arrived.filter (fun a => !a.2.passed) = l
    induction l generalizing s with
    | nil => rfl
    | cons a l ih =>
      refine (ih _).trans ?_
      unfold State.unarrive
      dsimp only
      split <;> rfl

/-- A context whose slice has stopped for good, and waits to be retired. -/
def Ctx.ended (k : Ctx) : Ctx :=
  { k with
    arrived := []
    request := .stopped
    flight := []
    ifq := []
    trap := none
    entering := none
    late := []
    withheld := []
    held := []
    loop := LoopSt.none
    edge := none
    repcnt := 0
    q := []
    l := [] }

/-- A slice stops: its control-register writes land, and everything else on its way is gone. -/
theorem State.stopSlice_facts (s : State) (c : CtxId) : (s.stopSlice c).cur = s.cur ∧ (s.stopSlice c).ksq = s.ksq ∧
    (s.stopSlice c).ctx c = ((s.landWrites c).ctx c).ended := by
  have lands := s.controls_landWrites c
  have stays := s.stays_landWrites (c := c)
  obtain ⟨t, cores, ksq, cur, e⟩ := (s.landWrites c).withdraw_eq c
  unfold State.stopSlice
  rw [e]
  refine ⟨cur.trans lands.cur, ksq.trans stays.ksq, ?_⟩
  rw [State.ctx_updCtx_same, State.ctx_updCtx_same, State.ctx_of_cores cores]
  rfl

end

section

variable {s : State} {c : CtxId}

/-- A message to Keystone that waits for nothing. -/
def State.tell (s : State) (m : KsMsg) : State := { s with ksq := s.ksq ++ [m] }

theorem State.ctx_tell (s : State) (m : KsMsg) (d : CtxId) : (s.tell m).ctx d = s.ctx d := rfl

theorem State.nodeFault_eq {f : LateFault} {multi : Bool} {arg : BitVec 32} {sl : Slice} (hs : (s.ctx c).slice = some sl) :
    s.nodeFault c f multi arg = ((s.writeRecord c (trapRecord 3 f (s.ctx c).trap.isSome multi (s.ctx c).depth arg 0
      (s.ctx c).withheld.length 0)).tell (.fault sl.graph sl.node sl.attempt c.core f.cause f.pc)).stopSlice c := by
  unfold State.nodeFault
  dsimp only
  rw [hs]
  rfl

/-- The node faults (R306): Keystone is told, the record is written, and the slice stops where it stands. -/
theorem State.nodeFault_facts {f : LateFault} {multi : Bool} {arg : BitVec 32} {sl : Slice} (ops : (s.ctx c).ops = [])
    (hs : (s.ctx c).slice = some sl) :
    let n := s.nodeFault c f multi arg
    n.cur = s.cur ∧
    (∃ k : Ctx, n.ctx c = k.ended ∧ k.slice = some sl ∧ k.pc = (s.ctx c).pc ∧ ∀ d, k.stored d = (s.ctx c).stored d) ∧
    (s.pends c = [] → n.ksq = s.ksq ++ [.fault sl.graph sl.node sl.attempt c.core f.cause f.pc]) ∧
    (s.pends c = [] → s.poison = [] → ∃ double narr, ∀ a, n.byte a = (s.setCells (cellsAt (recordKey c) (bytesOfNat 64
      (trapRecord 3 f double multi (s.ctx c).depth arg 0 narr 0)))).byte a) := by
  let r := trapRecord 3 f (s.ctx c).trap.isSome multi (s.ctx c).depth arg 0 (s.ctx c).withheld.length 0
  have ctx := State.ctx_writeRecord (s := s) r ops
  have cur := State.cur_writeRecord (s := s) (c := c) r
  have told := State.ksq_writeRecord (s := s) (c := c) r
  have bytes := State.byte_writeRecord (s := s) (c := c) r
  dsimp only
  rw [State.nodeFault_eq hs]
  generalize s.writeRecord c r = w at *
  have lands := (w.tell (.fault sl.graph sl.node sl.attempt c.core f.cause f.pc)).controls_landWrites c
  have stays := (w.tell (.fault sl.graph sl.node sl.attempt c.core f.cause f.pc)).stays_landWrites (c := c)
  obtain ⟨cur', ksq, ended⟩ := (w.tell (.fault sl.graph sl.node sl.attempt c.core f.cause f.pc)).stopSlice_facts c
  refine ⟨cur'.trans cur, ⟨_, ended, ?_, ?_, fun d => ?_⟩, fun idle => ?_, fun idle clean => ?_⟩
  · rw [lands.slice, State.ctx_tell, ctx, hs]
  · rw [stays.pc, State.ctx_tell, ctx]
  · rw [lands.stored, State.ctx_tell, ctx]
  · rw [ksq, State.tell, told idle]
  · refine ⟨(s.ctx c).trap.isSome, (s.ctx c).withheld.length, fun a => ?_⟩
    rw [State.byte, State.stopSlice_mem, ← State.byte]
    exact bytes idle clean a

/-- A node fault that counts in a plumb graph is a node fault. -/
theorem State.plumbBreak_nodeFault_facts {f : LateFault} {multi : Bool} {arg : BitVec 32} {sl : Slice} (ops : (s.ctx c).ops = [])
    (hs : (s.ctx c).slice = some sl) :
    let n := (s.plumbBreak c).nodeFault c f multi arg
    n.cur = s.cur ∧
    (∃ k : Ctx, n.ctx c = k.ended ∧ k.slice = some sl ∧ k.pc = (s.ctx c).pc ∧ ∀ d, k.stored d = (s.ctx c).stored d) ∧
    (s.pends c = [] → n.ksq = s.ksq ++ [.fault sl.graph sl.node sl.attempt c.core f.cause f.pc]) ∧
    (s.pends c = [] → s.poison = [] → ∃ double narr, ∀ a, n.byte a = (s.setCells (cellsAt (recordKey c) (bytesOfNat 64
      (trapRecord 3 f double multi (s.ctx c).depth arg 0 narr 0)))).byte a) := by
  obtain ⟨m, breaks⟩ : ∃ m, s.plumbBreak c = { s with mgmt := m } := ⟨_, State.plumbFor_eq s c⟩
  obtain ⟨cur, ended, told, written⟩ := State.nodeFault_facts (s := { s with mgmt := m }) (c := c) (f := f) (multi := multi) (arg := arg)
    ops hs
  rw [breaks]
  refine ⟨cur, ended, told, fun idle clean => ?_⟩
  obtain ⟨double, narr, bytes⟩ := written idle clean
  exact ⟨double, narr, fun a => (bytes a).trans (State.byte_setCells_congr (s := s) (t := { s with mgmt := m }) rfl _ a)⟩

/-- With no operation on its way and no fault known, HALT faults the node. -/
theorem exec_halt_at_once {u : Grd} (issues : Claim.Issues (.halt u) s) :
    let t := Claim.issuing (.halt u) s
    t.here.edge = none → t.here.ops = [] → t.here.late = [] →
      exec (.halt u) s = .next ((t.plumbBreak t.cur).nodeFault t.cur ⟨t.here.seq, t.slot, false, t.here.pc, 0x20, 0, none⟩ false 0) := by
  intro t edge ops late
  have halts : exec (.halt u) s = issue (.halt u) s
      (fun s => (s.backEdge s.cur).raiseAfter s.cur causeHalt 0 s.here.pc) := rfl
  have taken : (t.ctx t.cur).taking causeHalt = .nodeFault := Ctx.taking_nodeCause (by decide)
  have alone : (t.ctx t.cur).late = [] := late
  rw [halts, issue_of_issues _ issues, State.backEdge_of_none (s := t) edge, State.raiseAfter_alone (s := t) ops late, ite_self]
  unfold State.take
  dsimp only
  rw [taken, alone]
  rfl

/-! ### A late fault (R299) -/

/-- A context that stops for the IFQ changes its clock and its landing registers alone. -/
theorem State.ctx_fillStop (s : State) (c : CtxId) : ∃ u, (s.fillStop c.core).ctx c = (s.ctx c).stopUntil u := by
  unfold State.fillStop State.ctx
  dsimp only
  rw [State.core_updCore_same]
  cases c.one with
  | false => exact ⟨_, rfl⟩
  | true => exact ⟨_, rfl⟩

theorem Ctx.not_waits {k : Ctx} (h : k.flight = []) (f : LateFault) : k.waits f = false := by
  rw [Ctx.waits, h]
  exact Bool.and_false _

theorem Ctx.known_of_noFlight {k : Ctx} (h : k.flight = []) : k.known = k.late := by
  rw [Ctx.known, List.filter_eq_self]
  exact fun f _ => by rw [Ctx.not_inFlight h f]; rfl

/-- A late fault that alone is known is taken before the next bundle, once both contexts have stopped for the IFQ. -/
theorem exec_lateFaultDetection_alone {f : LateFault} (running : s.boot = .running) (late : (s.ctx c).late = [f])
    (live : (s.ctx c).slice.isSome = true) (on : (s.ctx c).request ≠ .stopped) (edge : (s.ctx c).edge = none)
    (out : (s.ctx c).entering = none) (idle : (s.ctx c).Idle) (next : s.nextFault c = []) :
    exec (.lateFaultDetection c) s = .next ((s.fillStop c.core).take c f false 0 (s.ctx c).pc) := by
  have detects : exec (.lateFaultDetection c) s = .next (s.detect c []) := by
    have runs : ¬ ((s.ctx c).slice.isNone || (s.ctx c).request == .stopped) = true := by
      rw [Option.isSome_iff_ne_none] at live
      simp [live, on]
    change execLateFaultDetection c s = _
    rw [execLateFaultDetection, if_neg (not_not.mpr running), State.detectLate]
    dsimp only
    rw [late, if_neg (List.cons_ne_nil f []), if_neg runs, State.backEdge_of_none edge, next]
  have due : ¬ (s.ctx c).late.all (s.ctx c).waits = true := by
    rw [late]
    simp [Ctx.not_waits idle.flight]
  obtain ⟨u, stopped⟩ := s.ctx_fillStop c
  have settled : (s.fillStop c.core).settle c = s.fillStop c.core :=
    State.performLoads_of_noOps (by rw [stopped]; exact idle.ops) _
  have known : ((s.fillStop c.core).ctx c).known = [f] := by
    rw [stopped, Ctx.known_of_noFlight (k := (s.ctx c).stopUntil u) idle.flight]
    exact late
  have late' : ((s.fillStop c.core).ctx c).late = [f] := by rw [stopped]; exact late
  have out' : ((s.fillStop c.core).ctx c).entering = none := by rw [stopped]; exact out
  have pc : ((s.fillStop c.core).ctx c).pc = (s.ctx c).pc := by rw [stopped]; rfl
  rw [detects, State.detect, if_neg due]
  dsimp only
  rw [settled, known, late', out', ite_self, pc]
  dsimp only
  rw [List.append_nil, State.takeKnown, ite_self]
  rfl

end

section

variable {s : State} {c : CtxId} {i : TrapInfo}

/-- Where no fault is known, to wait for a trap changes nothing else. -/
theorem State.upd_awaits (late : s.here.late = []) (i : Ctx → TrapInfo) :
    s.upd (fun k => { k with entering := some (i k) }) = s.updCtx s.cur (Ctx.awaits (i s.here)) := by
  refine congrArg (s.setCtx s.cur) ?_
  change _ = Ctx.awaits (i s.here) s.here
  simp only [Ctx.awaits, ← late]

/-- The context after a trap that is entered at once, field by field. -/
theorem State.enterTrap_awaits_fields (ops : (s.ctx c).ops = []) :
    let k := s.ctx c
    let n := (s.updCtx c (Ctx.awaits i)).enterTrap c
    (n.ctx c).trap = some ⟨i.retpc, k.depth, k.depth, k.held, k.loop, k.repcnt, SMap.get 0 k.x 15, i.ifq, k.withheld⟩ ∧
    (n.ctx c).entering = none ∧ (n.ctx c).late = [] ∧ (n.ctx c).held = [] ∧ (n.ctx c).loop = LoopSt.none ∧
    (n.ctx c).repcnt = 0 ∧ (n.ctx c).depth = k.depth ∧ (n.ctx c).pc = SMap.get 0 k.hand (k.depth.toNat - 1) ∧
    (n.ctx c).npc = SMap.get 0 k.hand (k.depth.toNat - 1) ∧
    (n.ctx c).stored (.x 15) = BitVec.ofNat 1024 (0x17FB80 + (if c.one then 0x40 else 0)) ∧
    (∀ d, d ≠ .x 15 → (n.ctx c).stored d = k.stored d) := by
  dsimp only
  rw [State.ctx_enterTrap_awaits ops, ← recordAddr_eq]
  obtain ⟨trap, entering, late, held, loop, repcnt, depth, pc, npc⟩ := Ctx.trapped_frame c i ((s.ctx c).awaits i)
  refine ⟨trap, entering, late, held, loop, repcnt, depth, pc, npc, Ctx.stored_trapped_x15 c i _, fun d h => ?_⟩
  rw [Ctx.stored_trapped_other h]
  cases d <;> rfl

end

/-- Settles O40: the outcome of a cause goes by the cause, the region and the handler; in a context with nothing on its way a cause
is taken at once, and the record and the new place are those of the statement. -/
theorem causesTaken : Obligations.CausesTaken := by
  refine ⟨fun k x => ⟨Ctx.taking_nodeCause, fun h out flat => ?_, fun h out deep => ?_, fun h t inside => ?_, Ctx.taking_other⟩,
    fun u x s issues => ?_, fun u s issues => ?_, ?_⟩
  · rw [Ctx.taking_memory h, out]
    exact if_pos flat
  · rw [Ctx.taking_memory h, out]
    exact if_neg deep
  · rw [Ctx.taking_memory h, inside]
  · have taken := exec_trap_at_once issues
    generalize Claim.issuing (.trap u x) s = t at taken
    intro _ k a running edge ops flight late ifq out deep
    have same := State.upd_awaits late fun k => k.swtrap t.slot x
    have enters := exec_trapEntry (s := t.updCtx t.cur (Ctx.awaits (t.here.swtrap t.slot x))) (c := t.cur) running
      (by rw [State.ctx_updCtx_same]; exact ops)
    have cur := State.cur_enterTrap_awaits (s := t) (c := t.cur) (i := t.here.swtrap t.slot x)
    have fields := State.enterTrap_awaits_fields (s := t) (c := t.cur) (i := t.here.swtrap t.slot x) ops
    have written := State.byte_enterTrap_awaits (s := t) (c := t.cur) (i := t.here.swtrap t.slot x)
    replace taken := taken edge ⟨ops, flight, ifq⟩ late out deep
    dsimp only at fields
    generalize (t.updCtx t.cur (Ctx.awaits (t.here.swtrap t.slot x))).enterTrap t.cur = n at *
    rw [← show n.here = n.ctx t.cur from congrArg n.ctx cur] at fields
    obtain ⟨trap, _, _, held, loop, repcnt, depth, pc, npc, x15, stored⟩ := fields
    refine ⟨n, taken, (congrArg (exec (.trapEntry t.cur)) same).trans enters, trap, pc, npc.trans pc.symm, held,
      congrArg LoopSt.depth loop, repcnt, depth, x15, stored, fun quiet clean => ?_⟩
    obtain ⟨double, narr, bytes⟩ := written quiet clean
    obtain ⟨others, kind, cause, arg, faultpc, retpc⟩ := State.reads_trapRecord (by decide) bytes
    exact ⟨others, kind, cause, arg.trans (BitVec.toNat_setWidth_of_le (by decide)), faultpc, retpc⟩
  · have halts := exec_halt_at_once issues
    generalize Claim.issuing (.halt u) s = t at halts
    intro _ a sl hs edge late ops
    have facts := State.plumbBreak_nodeFault_facts (s := t) (c := t.cur)
      (f := ⟨t.here.seq, t.slot, false, t.here.pc, 0x20, 0, none⟩) (multi := false) (arg := 0) ops hs
    replace halts := halts edge ops late
    dsimp only at facts
    generalize (t.plumbBreak t.cur).nodeFault t.cur ⟨t.here.seq, t.slot, false, t.here.pc, 0x20, 0, none⟩ false 0 = n at *
    obtain ⟨cur, ⟨k, ended, slice, pc, stored⟩, told, written⟩ := facts
    have here : n.here = k.ended := (congrArg n.ctx cur).trans ended
    rw [← show k.ended.slice = k.slice from rfl, ← here] at slice
    rw [← show k.ended.pc = k.pc from rfl, ← here] at pc
    refine ⟨n, halts, told, congrArg Ctx.request here, congrArg Ctx.flight here, congrArg Ctx.ifq here, congrArg Ctx.trap here,
      congrArg Ctx.held here, slice, pc, fun d => ?_, fun quiet clean => ?_⟩
    · rw [here, ← show t.ctx t.cur = t.here from rfl, ← stored d]
      cases d <;> rfl
    · obtain ⟨double, narr, bytes⟩ := written quiet clean
      exact State.reads_trapRecord (by decide) bytes
  · intro s c f running late live on edge out ops flight ifq outside deep traps next past soft k stop
    obtain ⟨u, stopped⟩ := s.ctx_fillStop c
    have idle : ((s.fillStop c.core).ctx c).Idle := by rw [stopped]; exact ⟨ops, flight, ifq⟩
    have taken := exec_lateFaultDetection_alone running late live on edge out ⟨ops, flight, ifq⟩ next
    rw [State.take_trap idle (by rw [stopped]; exact deep) (by rw [stopped]; exact traps)] at taken
    have enters := exec_trapEntry (s := (s.fillStop c.core).updCtx c (Ctx.awaits (f.info 0 k.pc))) (c := c) running
      (by rw [State.ctx_updCtx_same]; exact idle.ops)
    have fields := State.enterTrap_awaits_fields (s := s.fillStop c.core) (c := c) (i := f.info 0 k.pc) idle.ops
    dsimp only at fields
    rw [stopped] at fields
    obtain ⟨trap, entering, late', _, _, _, _, pc, _, _, stored⟩ := fields
    have same : (s.fillStop c.core).updCtx c (fun k => { k with late := [], entering := some (f.info 0 k.pc) }) =
        (s.fillStop c.core).updCtx c (Ctx.awaits (f.info 0 k.pc)) := State.updCtx_congr (by rw [stopped]; rfl)
    refine ⟨Config.ifqFill s.tick % 41, _, by omega, taken, (congrArg (exec (.trapEntry c)) same).trans enters, trap, pc, late', entering, fun d h => ?_, fun x u => ⟨rfl, fun h => ?_⟩⟩
    · rw [stored d h]
      cases d <;> rfl
    · rw [Ctx.stopUntil, Option.isNone_eq_false_iff.mpr (Option.isSome_iff_ne_none.mpr h)]
      rfl

end Sys2Proof.Machine
end
